-- ==== Sys2Proof/Word.lean ====
section
/-! DEFINITION. Words and bytes of the device, and the plainest arithmetic on bounded counts. -/

namespace Sys2Proof

/-- A direct register's content, and one word of a table image: 32 bits (R445, R4). -/
abbrev Word := BitVec 32

/-- One byte of frame or buffer data. -/
abbrev Byte := BitVec 8

/-- `n` added to `a`, stopping at `top` (the saturating counts of R99, R517 and the registers). -/
def satAdd (top a n : Nat) : Nat := if a + n ≤ top then a + n else top

/-- `a - n`, stopping at zero. -/
def floorSub (a n : Nat) : Nat := a - n

/-- Bits `hi` down to `lo` of a natural number, as a number. -/
def bitsOf (w hi lo : Nat) : Nat := (w >>> lo) % 2 ^ (hi - lo + 1)

/-- Bit `i` of a natural number. -/
def bitOf (w i : Nat) : Bool := (w >>> i) % 2 == 1

/-- A flag as the number a one-bit field holds. -/
def b2n (b : Bool) : Nat := if b then 1 else 0

/-- The width mask of `n` bits applied to a number. -/
def trunc (n a : Nat) : Nat := a % 2 ^ n

end Sys2Proof
end

