-- ==== Sys2Proof/Syntax.lean ====
section
/-! DEFINITION. The commands: one constructor of Instr for each row of spec/opcode_table.json, with the operands the
chapters give it. Jaris commands carry their header first. -/

namespace Sys2Proof

/-- What a Jaris command carries beside its parameters (R452): the mailbox it came from (0 to 7 host, 8 debug, 9 SMBus),
its host tag, and its unordered and no_irq flags. -/
structure CmdHdr where
  mbx : Nat
  cid : Nat
  unordered : Bool
  noIrq : Bool
  deriving DecidableEq, Repr

/-- What struck a frame on the line (R84, R85): an error block within it, and an uncorrectable codeword that carried some of it. -/
structure LineErr where
  block : Bool
  codeword : Bool
  deriving DecidableEq, Repr

/-- A memory error found in a read: which table of the block, the index, the word, and whether it is double-bit. -/
structure EccErr where
  table : Nat
  index : Nat
  word : Nat
  double : Bool
  deriving DecidableEq, Repr


/-- What the array row of one masked-search unit holds (R172): the control bits, of use in an entry's first unit, the
width in units, and 20 value and 20 mask bytes. -/
structure MskUnit where
  valid : Bool
  ep0 : Bool
  ep1 : Bool
  width : Nat
  value : List Nat
  mask : List Nat
  deriving DecidableEq, Repr

/-- An upset of the array of one pipeline (R186): the unit's physical index and what its row holds after it. -/
structure MskUpset where
  phys : Nat
  row : MskUnit
  deriving DecidableEq, Repr
/-- The parameters of flow.insert (R227): the profile, the key's 48 bytes, rev_mode with the profile and VRF of a derived
second key (R201), or 3 with a second key of 48 bytes, and the 16 words of the hot-slice image. -/
structure FlowNew where
  profile : Nat
  key : List Nat
  revMode : Nat
  revProfile : Nat
  revVrf : Nat
  second : List Nat
  hot : List Nat
  deriving DecidableEq, Repr

/-- An upset of the control store of one pipeline (R276, R292): the store word it strikes, and what it flips in the six words of
the microword and in its four parity bits. -/
structure RigUpset where
  addr : Nat
  flips : List Nat
  deriving DecidableEq, Repr
/-- The fields of a mirror session (R338). -/
structure MirrorArg where
  dest : Nat
  port : Nat
  cls : Nat
  ring : Nat
  trunc : Nat
  gre : Bool
  ipv6 : Bool
  srcAddr : List Nat
  dstAddr : List Nat
  dscp : Nat
  ttl : Nat
  nextHop : Nat
  deriving DecidableEq, Repr

/-- An uncorrectable error of an HBM read (R388): the unit's place in its pseudo-channel; the requester as MCX_UE_CAPTURE
numbers it, and which thread or pipeline it is; whether the re-reads fail too; the units of the row found corrected and
uncorrectable by the row check; the last 256 commands, oldest first; the miss-queue place of the entry that reads, the control
buffer read, and whether the read served a masked write. -/
structure HbmUe where
  unit : Nat
  requester : Nat
  index : Nat
  persistent : Bool
  corrected : List Nat
  further : List Nat
  history : List (List Nat)
  place : Option Nat
  buffer : Option Nat
  masked : Bool
  deriving DecidableEq, Repr
/-- How a running task gives up its thread (R414). -/
inductive TaskEnd where
  | ended
  | yielded
  | waits
  /-- It delays itself by a number of ticks. -/
  | delays (ticks : Nat)
  deriving DecidableEq, Repr

/-- What Criod firmware makes of the complex when it starts (R402, R407, R410, R415, R420, R433): per core the deterministic and
elastic threads and the slot table; channels with their writer and reader; the threads that serve tasks; services and the
threads they run on; the housekeeping task with its level, core and run budget. -/
structure CrdSetup where
  classes : List (Nat × Nat)
  slots : List (List (Option Nat))
  channels : List (Nat × Nat × Nat)
  servers : List Nat
  services : List (Nat × Nat)
  housekeeping : Nat × Nat × Nat × Nat
  deriving DecidableEq, Repr
/-- A destination that ring.bind names (R465). -/
inductive NotifTo where
  | ring (r : Nat)
  | firmware
  | none
  deriving DecidableEq, Repr

/-- One field of an IPFIX template (R528). -/
structure TmplField where
  element : Nat
  length : Nat
  enterprise : Bool
  deriving DecidableEq, Repr

/-- A template slot: its template ID (0 for none) and its fields (R528). -/
structure TmplSlot where
  tid : Nat
  fields : List TmplField
  deriving DecidableEq, Repr

/-- A collector (R529): a port and class with a next hop, or an RX ring; addresses as bytes. -/
structure Collector where
  isRing : Bool
  /-- Port or ring number. -/
  dest : Nat
  cls : Nat
  nextHop : Nat
  ipv6 : Bool
  src : List Nat
  dst : List Nat
  dscp : Nat
  ttl : Nat
  udpSrc : Nat
  udpDst : Nat
  domain : Nat
  deriving DecidableEq, Repr

/-- What the life monitor measures (R535): an ageing sensor's stressed and fresh frequency; a pseudo-channel; a lane's eye
margin; a boot NOR sector; the two die temperatures, fore and aft, in °C. -/
inductive Measure where
  | sensor (n stressed fresh : Nat)
  | channel (g : Nat)
  | lane (k margin : Nat)
  | sector (n : Nat)
  | thermal (fore aft : Int)
  deriving DecidableEq, Repr
/-- One write of an update: word of the record, mask and value (R282). -/
structure WordWrite where
  word : Nat
  mask : Nat
  value : Nat
  deriving DecidableEq, Repr

/-- An update or release as flits carry it (R206, R282, R283). -/
structure Update where
  handle : Nat
  /-- The pipeline that sends it. -/
  pipe : Nat
  /-- The packet that waits for its acknowledgement; none for a running update or a release. -/
  pkt : Option Nat
  transition : Bool
  setup : Bool
  /-- Whether it stands for the answer's release, so that inflight falls (R206). -/
  release : Bool
  compare : List WordWrite
  writes : List WordWrite
  addBytes : Nat
  addPackets : Nat
  lastSeen : Option Nat
  partial_ : Bool
  /-- The frame ended bad: a setup it triggered fails (R238). -/
  badEnd : Bool
  deriving DecidableEq, Repr

/-- A flow-store answer as the pipeline holds it (R14, R200, R280). -/
structure Answer where
  handle : Nat
  /-- Record size: 0 lean, 1 standard, 2 full. -/
  size : Nat
  dir : Nat
  /-- The record image; a lean record's words expanded to the layout of a standard one. -/
  image : List Nat
  setupPending : Bool
  entry : Nat
  deriving DecidableEq, Repr

/-- A remote-lookup request (R546, R554): the requester's tag, the packet's ingress port, epoch and completed key, and
what setup reads of it: a TCP SYN without ACK, an echo message. -/
structure StkRequest where
  tag : Nat
  port : Nat
  epoch : Nat
  key : List Nat
  syn : Bool
  echo : Bool
  deriving DecidableEq, Repr

/-- What a return field carries (R555, R556): DEFER, an answer, or that the packet goes on without flow state (with its
class, where the owner's profile gives one) or is dropped. -/
inductive StkReturn where
  | defer
  | drop
  | stateless (cls : Option Nat)
  | found (a : Answer)
  deriving DecidableEq, Repr

/-- The stack header before a frame (R552). -/
structure StkHeader where
  nextHop : Nat
  group : Option Nat
  cls : Nat
  colour : Nat
  verdict : Nat
  epoch : Nat
  member : Nat
  inPort : Nat
  /-- PTP header offset and encapsulation. -/
  ptp : Option (Nat × Nat)
  /-- T_in in 2^-16 ns, and its invalid flag. -/
  tIn : Nat
  tInvalid : Bool
  deriving DecidableEq, Repr

/-- A member's link map (R544, R550): for each of its links used, the macro and the STK_ID of the peer. -/
structure StkMap where
  member : Nat
  links : List (Nat × Nat × Nat)
  deriving DecidableEq, Repr

/-- What the bulk area carries (R546, R550, R552, R556, R557, R559, R561 to R563). -/
inductive StkMsg where
  | frame (h : StkHeader) (bytes : List Nat)
  /-- An update flit for a record of the receiver; `tag` where an acknowledgement is waited for, `gone` where the
  program dropped the packet. -/
  | update (tag : Option Nat) (gone : Bool) (u : Update)
  | wake (tag : Nat)
  | commitDone (tag : Nat)
  /-- A setup failed after its provisional answer (R238). -/
  | failed (tag : Nat)
  /-- A REPLAY reply with the record's current image (R283). -/
  | replay (tag handle : Nat) (image : List Nat)
  /-- The frame of a deferred request has ended: its length and first 128 bytes (R240). -/
  | frameEnd (tag : Nat) (bad : Bool) (len : Nat) (head : List Nat)
  /-- The requester has given a deferred request up. -/
  | quit (tag : Nat)
  | seed (value : Nat)
  | config (mode lSlots : Nat) (maps : List StkMap)
  | formReply (accept : Bool)
  | formed (mode lSlots members : Nat)
  | dissolve
  /-- A stack-wide calendar entry: the master's handle and its words (R561). -/
  | arm (ref : Nat) (words : List Nat)
  | armReply (ref : Nat) (ok : Bool)
  | disarm (ref : Nat)
  /-- A swap to an epoch at an instant in nanoseconds (R562). -/
  | swap (target instant : Nat)
  | drained
  | swapDone
  /-- A copy of a fault of severity S2 or worse (R563). -/
  | fault (code severity arg0 arg1 sec ns : Nat)
  | modes (reductions : Nat) (reef bare : Bool)
  | txPrepare (id : Nat) (descs : List (List Nat))
  | txVote (id code : Nat)
  | txCommit (id : Nat)
  | txAbort (id : Nat)
  | txDone (id code : Nat) (words : List Nat)
  deriving DecidableEq, Repr

/-- A slot frame (R546): its header, its request and return fields and what its bulk area carries; and what the receiver
found: a valid header, codewords corrected and uncorrectable. -/
structure StkFrame where
  id : Nat
  role : Nat
  gen : Nat
  heard : Nat
  ack : Bool
  marker : Bool
  valid : Bool
  request : Option StkRequest
  ret : Option StkReturn
  bulk : List StkMsg
  fecCorr : Nat
  fecUncorr : Nat
  deriving DecidableEq, Repr

/-- The straps as the board ties them (R570): STK_ROLE, STK_ID, BOOT_SRC and TEST_EN. -/
structure Straps where
  role : Nat
  id : Nat
  bootSrc : Nat
  testEn : Bool
  deriving DecidableEq, Repr

/-- The commands, those of Jaris first, else in the order of the table. -/
inductive Instr where
  /-- SYS_IDENTITY (R471). -/
  | sysIdentity (h : CmdHdr)
  /-- SYS_STATUS (R471). -/
  | sysStatus (h : CmdHdr)
  /-- SYS_DEBUG_CHALLENGE (R582). -/
  | sysDebugChallenge (h : CmdHdr)
  /-- SYS_DEBUG_UNLOCK (R582). -/
  | sysDebugUnlock (h : CmdHdr) (key : Nat)
  /-- SYS_FW_UPDATE (R583). -/
  | sysFwUpdate (h : CmdHdr) (image : List Nat) (key : Nat) (written : Bool)
  /-- SYS_FURL (R586). -/
  | sysFurl (h : CmdHdr)
  /-- SYS_UNFURL (R587). -/
  | sysUnfurl (h : CmdHdr)
  /-- MBX_NOP (R471). -/
  | mbxNop (h : CmdHdr)
  /-- RING_CONFIG (R458). -/
  | ringConfig (h : CmdHdr) (ring rtype base n slotSize vector count us : Nat) (enable : Bool)
  /-- RING_BIND (R465). -/
  | ringBind (h : CmdHdr) (cls : Nat) (dest : NotifTo)
  /-- RING_STATUS (R471). -/
  | ringStatus (h : CmdHdr) (ring : Nat)
  /-- TIME_SERVO_CONFIG (R71). -/
  | timeServoConfig (h : CmdHdr) (kp ki fMax lockThreshold lockCount unlockThreshold stepThreshold inputTimeout holdoverGrace : Nat)
  /-- TIME_DOMAIN_CONFIG (R48). -/
  | timeDomainConfig (h : CmdHdr) (domain source port domainNumber : Nat) (meanPathDelay : Int) (autoSwitch : Bool)
  /-- TIME_SELECT_DOMAIN (R53). -/
  | timeSelectDomain (h : CmdHdr) (domain : Nat)
  /-- TIME_SLEW_CONFIG (R57). -/
  | timeSlewConfig (h : CmdHdr) (slewRate slewRamp : Nat)
  /-- TIME_TC_CONFIG (R42). -/
  | timeTcConfig (h : CmdHdr) (mode : Nat) (ports : List Nat) (delays : List (Nat × Nat))
  /-- TIME_IO_CONFIG (R71). -/
  | timeIoConfig (h : CmdHdr) (ioCtrl synce0 synce1 : Nat)
  /-- TEC_ARM (R63). -/
  | tecArm (h : CmdHdr) (words : List Nat)
  /-- TEC_CANCEL (R64). -/
  | tecCancel (h : CmdHdr) (handle : Nat)
  /-- PORT_CONFIG (R98). -/
  | portConfig (h : CmdHdr) (port lanes laneRate fec medium : Nat) (anEn ltEn : Bool) (maxFrame : Nat) (ctEn : Bool) (holdoff : Nat)
  /-- PORT_DELETE (R98). -/
  | portDelete (h : CmdHdr) (port : Nat)
  /-- PORT_LANE_MAP (R76). -/
  | portLaneMap (h : CmdHdr) (macro_ : Nat) (txOrder : List Nat) (txPol : Nat) (rxOrder : List Nat) (rxPol : Nat)
  /-- PORT_FC_CONFIG (R94). -/
  | portFcConfig (h : CmdHdr) (port mode classes xoff xon : Nat) (headroom : List Nat) (quanta watchdog restore : Nat)
  /-- PORT_STATUS (R97). -/
  | portStatus (h : CmdHdr) (port : Nat)
  /-- PRS_GRAPH_WRITE (R112). -/
  | prsGraphWrite (h : CmdHdr) (index : Nat) (words : List Nat)
  /-- PRS_GRAPH_READ (R133). -/
  | prsGraphRead (h : CmdHdr) (index : Nat)
  /-- PRS_PORT_START (R133). -/
  | prsPortStart (h : CmdHdr) (port start group : Nat)
  /-- PRS_KEY_PROFILE (R126). -/
  | prsKeyProfile (h : CmdHdr) (index : Nat) (words : List Nat)
  /-- PRS_KEY_MAP (R125). -/
  | prsKeyMap (h : CmdHdr) (group keyClass profile : Nat)
  /-- PRS_SCAN_CONFIG (R104). -/
  | prsScanConfig (h : CmdHdr) (ipv4 : List Nat) (geneve : List (Nat × Nat))
  /-- PRS_EXC_CONFIG (R122). -/
  | prsExcConfig (h : CmdHdr) (conflictAction : Nat) (trapEn trapToCriod : Bool) (trapRing trapLen : Nat)
  /-- EM_TABLE_CONFIG (R140). -/
  | emTableConfig (h : CmdHdr) (table : Nat) (wide : Bool) (keyUnits : Nat)
  /-- EM_INSERT (R143). -/
  | emInsert (h : CmdHdr) (table : Nat) (key : List Nat) (ep0 ep1 : Bool) (action data : List Nat)
  /-- EM_MODIFY (R166). -/
  | emModify (h : CmdHdr) (table : Nat) (key : List Nat) (epoch : Nat) (action data : List Nat)
  /-- EM_DELETE (R166). -/
  | emDelete (h : CmdHdr) (table : Nat) (key : List Nat) (epoch : Nat)
  /-- EM_SET_MEMBERSHIP (R166). -/
  | emSetMembership (h : CmdHdr) (table : Nat) (key : List Nat) (epoch : Nat) (ep0 ep1 : Bool)
  /-- EM_READ (R166). -/
  | emRead (h : CmdHdr) (table : Nat) (key : List Nat) (epoch : Nat) (clearHit : Bool)
  /-- CLS_CLASS_PROFILE (R136). -/
  | clsClassProfile (h : CmdHdr) (index word : Nat)
  /-- CLS_PORT_CONFIG (R604). -/
  | clsPortConfig (h : CmdHdr) (port vrf vlan unknownSa staticMove : Nat)
  /-- CLS_PROFILE_SET (R156). -/
  | clsProfileSet (h : CmdHdr) (index : Nat) (words : List Nat)
  /-- L2_INSERT (R153). -/
  | l2Insert (h : CmdHdr) (vlan mac port : Nat) (isStatic : Bool)
  /-- L2_DELETE (R153). -/
  | l2Delete (h : CmdHdr) (vlan mac : Nat)
  /-- L2_LEARN_CONFIG (R152). -/
  | l2LearnConfig (h : CmdHdr) (toHost : Bool) (ring holdoff rate ageTime sweepPeriod : Nat)
  /-- ROUTE_HOST_ADD (R166). -/
  | routeHostAdd (h : CmdHdr) (vrf : Nat) (v6 : Bool) (addr plen fwdOp fwdTarget : Nat)
  /-- ROUTE_LPM_ADD (R604). -/
  | routeLpmAdd (h : CmdHdr) (vrf : Nat) (v6 : Bool) (addr plen fwdOp fwdTarget : Nat)
  /-- ROUTE_DELETE (R604). -/
  | routeDelete (h : CmdHdr) (table vrf : Nat) (v6 : Bool) (addr plen : Nat)
  /-- NH_SET (R147). -/
  | nhSet (h : CmdHdr) (index port rewrite backup : Nat) (backupValid : Bool)
  /-- ECMP_SET (R149). -/
  | ecmpSet (h : CmdHdr) (group hashSel : Nat) (members : List Nat)
  /-- EPOCH_SWAP (R160). -/
  | epochSwap (h : CmdHdr) (target : Nat)
  /-- EPOCH_STATUS (R166). -/
  | epochStatus (h : CmdHdr)
  /-- MSK_BANK_CONFIG (R170). -/
  | mskBankConfig (h : CmdHdr) (bank width prio : Nat)
  /-- MSK_PROFILE_SET (R173). -/
  | mskProfileSet (h : CmdHdr) (index : Nat) (words : List Nat)
  /-- MSK_WRITE (R178). -/
  | mskWrite (h : CmdHdr) (bank index : Nat) (ep0 ep1 : Bool) (width : Nat) (value mask action : List Nat)
  /-- MSK_MODIFY_ACTION (R180). -/
  | mskModifyAction (h : CmdHdr) (bank index : Nat) (action : List Nat)
  /-- MSK_SET_MEMBERSHIP (R180). -/
  | mskSetMembership (h : CmdHdr) (bank index : Nat) (ep0 ep1 : Bool)
  /-- MSK_DELETE (R180). -/
  | mskDelete (h : CmdHdr) (bank index : Nat)
  /-- MSK_READ (R190). -/
  | mskRead (h : CmdHdr) (bank index : Nat) (clearHit : Bool)
  /-- MSK_SCRUB_CONFIG (R190). -/
  | mskScrubConfig (h : CmdHdr) (scrubEn : Bool)
  /-- FLOW_INSERT (R227). -/
  | flowInsert (h : CmdHdr) (flow : FlowNew)
  /-- FLOW_READ (R227). -/
  | flowRead (h : CmdHdr) (byHandle : Bool) (handle : Nat) (key : List Nat)
  /-- FLOW_MODIFY (R227). -/
  | flowModify (h : CmdHdr) (key : List Nat) (mask : Nat) (words : List Nat)
  /-- FLOW_DELETE (R227). -/
  | flowDelete (h : CmdHdr) (key : List Nat)
  /-- FST_REBUILD (R215). -/
  | fstRebuild (h : CmdHdr) (k : Nat) (newSeed : Bool)
  /-- FST_SWEEP_CONFIG (R218). -/
  | fstSweepConfig (h : CmdHdr) (desc mask : Nat)
  /-- FST_MQ_CONFIG (R209). -/
  | fstMqConfig (h : CmdHdr) (setupCap : Nat)
  /-- FST_STATUS (R227). -/
  | fstStatus (h : CmdHdr) (shard : Nat)
  /-- SETUP_TEMPLATE_SET (R234). -/
  | setupTemplateSet (h : CmdHdr) (index : Nat) (words : List Nat)
  /-- SETUP_FW_CONFIG (R240). -/
  | setupFwConfig (h : CmdHdr) (timeout : Nat)
  /-- NAT_POOL_SET (R241). -/
  | natPoolSet (h : CmdHdr) (pool insideBase insideShift subCount outsideBase addrCount portLo blockSize m prefix64 len64 : Nat)
  /-- NAT_POOL_STATUS (R268). -/
  | natPoolStatus (h : CmdHdr) (pool : Nat) (sub : Option Nat)
  /-- NAT_HOLD_CONFIG (R247). -/
  | natHoldConfig (h : CmdHdr) (seconds : Nat)
  /-- BPM_HEAP_CONFIG (R249). -/
  | bpmHeapConfig (h : CmdHdr) (n64 n128 n256 : Nat)
  /-- BPM_CTRL_CONFIG (R254). -/
  | bpmCtrlConfig (h : CmdHdr) (counts : List Nat)
  /-- BPM_STATUS (R268). -/
  | bpmStatus (h : CmdHdr)
  /-- TX_OPEN (R266). -/
  | txOpen (h : CmdHdr)
  /-- TX_ADD (R267). -/
  | txAdd (h : CmdHdr) (tx : Nat) (descs : List (List Nat))
  /-- TX_COMMIT (R266). -/
  | txCommit (h : CmdHdr) (tx : Nat)
  /-- TX_ABORT (R266). -/
  | txAbort (h : CmdHdr) (tx : Nat)
  /-- RIG_LOAD (R290). -/
  | rigLoad (h : CmdHdr) (image : List Nat) (key : Nat)
  /-- RIG_ENTRY_SET (R288). -/
  | rigEntrySet (h : CmdHdr) (entry : Nat) (valid ep0 ep1 : Bool) (limit : Nat)
  /-- RIG_STATUS (R300). -/
  | rigStatus (h : CmdHdr)
  /-- RIG_TABLE_WRITE (R285). -/
  | rigTableWrite (h : CmdHdr) (kind first : Nat) (rows : List (List Nat))
  /-- POL_PROFILE_SET (R286). -/
  | polProfileSet (h : CmdHdr) (index cir pir cbs pbs : Nat) (aware : Bool)
  /-- LB_POOL_SET (R297). -/
  | lbPoolSet (h : CmdHdr) (pool seed : Nat) (backends : List Nat)
  /-- LB_BACKEND_SET (R297). -/
  | lbBackendSet (h : CmdHdr) (backend address port state : Nat)
  /-- IQM_PROFILE_SET (R311). -/
  | iqmProfileSet (h : CmdHdr) (profile cls minCells alpha maxCells yellow red ageLimit : Nat)
  /-- IQM_PORT_CONFIG (R308). -/
  | iqmPortConfig (h : CmdHdr) (port profile : Nat) (pcpMap : List Nat) (defClass : Nat) (inSession egSession : Option Nat) (sampleN : Nat)
  /-- IQM_GLOBAL_CONFIG (R342). -/
  | iqmGlobalConfig (h : CmdHdr) (arrivalReserve mcReserve mirrorMax copyRate sampleLen : Nat) (ctEn : Bool)
  /-- IQM_TRAP_CONFIG (R337). -/
  | iqmTrapConfig (h : CmdHdr) (index : Nat) (toCriod : Bool) (ring trapLen : Nat)
  /-- IQM_VOQ_STATUS (R342). -/
  | iqmVoqStatus (h : CmdHdr) (pipe port cls : Nat)
  /-- REPL_GROUP_SET (R325). -/
  | replGroupSet (h : CmdHdr) (group : Nat) (prune : Bool) (members : List (Nat × Nat × Option Nat))
  /-- MIRROR_SESSION_SET (R338). -/
  | mirrorSessionSet (h : CmdHdr) (session : Nat) (m : MirrorArg)
  /-- SMP_PROFILE_SET (R334). -/
  | smpProfileSet (h : CmdHdr) (profile n : Nat)
  /-- EGS_SCHED_CONFIG (R347). -/
  | egsSchedConfig (h : CmdHdr) (port : Nat) (classes : List (Bool × Nat)) (shapedMask : Nat)
  /-- EGS_SHAPER_SET (R356). -/
  | egsShaperSet (h : CmdHdr) (port shaper mode rate burst overhead : Nat) (hi lo : Int) (zeroReset : Bool)
  /-- EGS_PORT_CONFIG (R364). -/
  | egsPortConfig (h : CmdHdr) (port : Nat) (frerElim : Bool) (gateLead : Nat)
  /-- EGS_UNLOCKED_CONFIG (R362). -/
  | egsUnlockedConfig (h : CmdHdr) (state mask : Nat)
  /-- EGS_REWRITE_SET (R370). -/
  | egsRewriteSet (h : CmdHdr) (index : Nat) (words : List Nat)
  /-- EGS_FAILOVER_CONFIG (R368). -/
  | egsFailoverConfig (h : CmdHdr) (revertHoldoff : Nat)
  /-- GATE_LIST_SET (R357). -/
  | gateListSet (h : CmdHdr) (port list : Nat) (valid : Bool) (gateMask : Nat) (base : List Nat) (cycleTime cycleExt : Nat) (entries : List (Nat × Nat))
  /-- GATE_ACTIVATE (R359). -/
  | gateActivate (h : CmdHdr) (port list : Nat)
  /-- GATE_STATUS (R371). -/
  | gateStatus (h : CmdHdr) (port : Nat)
  /-- RED_CONFIG (R367). -/
  | redConfig (h : CmdHdr) (latentEn : Bool) (period : Nat)
  /-- RED_MONITOR_SET (R367). -/
  | redMonitorSet (h : CmdHdr) (monitor handle n threshold : Nat) (enable : Bool)
  /-- MCX_STATUS (R398). -/
  | mcxStatus (h : CmdHdr) (stack : Nat)
  /-- MCX_HISTORY (R398). -/
  | mcxHistory (h : CmdHdr) (stack : Nat)
  /-- MCX_RH_CONFIG (R385). -/
  | mcxRhConfig (h : CmdHdr) (threshold : Nat)
  /-- MCX_SCRUB_CONFIG (R386). -/
  | mcxScrubConfig (h : CmdHdr) (patrolEn : Bool) (scrubHours extLimit : Nat)
  /-- MCX_RETIRE (R391). -/
  | mcxRetire (h : CmdHdr) (stack pc : Nat)
  /-- CRD_STATUS (R436). -/
  | crdStatus (h : CmdHdr)
  /-- CRD_TAKEOVER (R435). -/
  | crdTakeover (h : CmdHdr) (core : Nat)
  /-- CRD_CONFIG (R436). -/
  | crdConfig (h : CmdHdr) (becalmedAction kickPeriod ckptPeriod : Nat)
  /-- CRD_HEALTH (R428). -/
  | crdHealth (h : CmdHdr)
  /-- DBG_STOP (R424). -/
  | dbgStop (h : CmdHdr) (core thread : Nat)
  /-- DBG_RESUME (R424). -/
  | dbgResume (h : CmdHdr) (core thread : Nat)
  /-- DBG_STEP (R424). -/
  | dbgStep (h : CmdHdr) (core thread : Nat) (writes : List (Nat × Nat))
  /-- DBG_HOLD (R426). -/
  | dbgHold (h : CmdHdr) (core thread : Nat) (on : Bool)
  /-- DBG_THREAD_READ (R424). -/
  | dbgThreadRead (h : CmdHdr) (core thread : Nat) (sram : Bool) (first count : Nat)
  /-- DBG_THREAD_WRITE (R424). -/
  | dbgThreadWrite (h : CmdHdr) (core thread : Nat) (sram : Bool) (first : Nat) (values : List Nat)
  /-- DBG_CHANNEL_READ (R425). -/
  | dbgChannelRead (h : CmdHdr) (channel : Nat)
  /-- DBG_CHANNEL_ABORT (R425). -/
  | dbgChannelAbort (h : CmdHdr) (channel : Nat)
  /-- FLT_READ (R511). -/
  | fltRead (h : CmdHdr) (index : Nat)
  /-- FLT_CLEAR (R484). -/
  | fltClear (h : CmdHdr) (index : Nat)
  /-- FLT_CONFIG (R486). -/
  | fltConfig (h : CmdHdr) (code : Nat) (notify intn : Bool)
  /-- LOG_READ (R511). -/
  | logRead (h : CmdHdr) (first count : Nat)
  /-- LOG_MARKER (R511). -/
  | logMarker (h : CmdHdr) (code word : Nat)
  /-- AVAIL_READ (R511). -/
  | availRead (h : CmdHdr)
  /-- AVAIL_RESET (R510). -/
  | availReset (h : CmdHdr)
  /-- CNT_SNAPSHOT (R520). -/
  | cntSnapshot (h : CmdHdr) (bank groups : Nat)
  /-- CNT_SNAPSHOT_AT (R520). -/
  | cntSnapshotAt (h : CmdHdr) (bank groups instant : Nat) (stack : Bool)
  /-- CNT_READ (R523). -/
  | cntRead (h : CmdHdr) (bank group first count : Nat)
  /-- CNT_READ_ONE (R524). -/
  | cntReadOne (h : CmdHdr) (group index : Nat)
  /-- CNT_CLEAR (R522). -/
  | cntClear (h : CmdHdr) (groups : Nat)
  /-- CNT_BW_CONFIG (R525). -/
  | cntBwConfig (h : CmdHdr) (port code : Nat) (enable : Bool)
  /-- CNT_BW_READ (R525). -/
  | cntBwRead (h : CmdHdr) (port : Nat)
  /-- EXP_TEMPLATE_SET (R528). -/
  | expTemplateSet (h : CmdHdr) (set : Nat) (header : List Nat) (slots : List TmplSlot)
  /-- EXP_COLLECTOR_SET (R529). -/
  | expCollectorSet (h : CmdHdr) (collector : Nat) (dest : Collector)
  /-- EXP_CONFIG (R531). -/
  | expConfig (h : CmdHdr) (enable : Bool) (interval defaultSet msgMax enterprise : Nat)
  /-- EXP_STATUS (R540). -/
  | expStatus (h : CmdHdr)
  /-- LIFE_REPORT (R536). -/
  | lifeReport (h : CmdHdr) (source : Nat)
  /-- LIFE_CONFIG (R538). -/
  | lifeConfig (h : CmdHdr) (alarmMonths : Nat)
  /-- STK_CONFIG (R550). -/
  | stkConfig (h : CmdHdr) (mode lSlots : Nat) (maps : List StkMap)
  /-- STK_STATUS (R566). -/
  | stkStatus (h : CmdHdr)
  /-- STK_LINK_STATUS (R566). -/
  | stkLinkStatus (h : CmdHdr) (link : Nat)
  /-- FRAME_ARRIVAL (R307). -/
  | frameArrival (port : Nat) (bytes : List Nat)
  /-- FRAME_END_STATUS (R90). -/
  | frameEndStatus (port : Nat) (bytes : List Nat) (fcs : Nat) (err : LineErr) (corrCw uncorrCw : Nat)
  /-- RX_MAC_CONTROL_FRAME (R93). -/
  | rxMacControlFrame (port opcode classes : Nat) (quanta : List Nat)
  /-- PAUSE_EXPIRY (R93). -/
  | pauseExpiry (port cls : Nat)
  /-- XOFF_RESEND (R94). -/
  | xoffResend (port cls : Nat)
  /-- PFC_WATCHDOG (R95). -/
  | pfcWatchdog (port cls : Nat)
  /-- PFC_RESTORE_END (R95). -/
  | pfcRestoreEnd (port cls : Nat)
  /-- LOCAL_LINK_FAULT (R80). -/
  | localLinkFault (port cause : Nat)
  /-- REMOTE_LINK_FAULT (R80). -/
  | remoteLinkFault (port : Nat)
  /-- LINK_UP_HOLDOFF_EXPIRY (R82). -/
  | linkUpHoldoffExpiry (port : Nat)
  /-- AN_COMPLETE (R79). -/
  | anComplete (port : Nat) (partner : Option (List (Nat × Nat × Nat)))
  /-- AN_RESTART (R79). -/
  | anRestart (port : Nat)
  /-- DEAL (R102). -/
  | deal (pipe kind : Nat) (err : Option EccErr)
  /-- PARSER_REORDER_RELEASE (R105). -/
  | parserReorderRelease (pipe src : Nat) (errs : List EccErr)
  /-- FLOW_LOOKUP_REQUEST (R208). -/
  | flowLookupRequest (shard : Nat) (err : Option EccErr)
  /-- RECORD_HOP (R16). -/
  | recordHop (shard : Nat)
  /-- LINK_FILL (R208). -/
  | linkFill (shard : Nat)
  /-- MISS_READ_RETURN (R208). -/
  | missReadReturn (shard place : Nat) (corrected : List (Nat × Nat))
  /-- INSTALL_RETRY (R205). -/
  | installRetry (shard place : Nat)
  /-- LOOKUP_ANSWER (R271). -/
  | lookupAnswer (pipe : Nat)
  /-- RIG_DISPATCH (R271). -/
  | rigDispatch (pipe : Nat) (upset : Option RigUpset)
  /-- TCALL_RESULT (R285). -/
  | tcallResult (pipe rig wait : Nat) (upset : Option RigUpset)
  /-- RIG_RESTART_COMPLETE (R292). -/
  | rigRestartComplete (pipe : Nat) (goldenOk : Bool)
  /-- UPDATE_FLIT (R283). -/
  | updateFlit (shard : Nat)
  /-- TRANSITION_ACK (R283). -/
  | transitionAck (pipe : Nat)
  /-- REPLAY_REPLY (R283). -/
  | replayReply (pipe : Nat)
  /-- RIG_REORDER_RELEASE (R274). -/
  | rigReorderRelease (pipe src : Nat)
  /-- VOQ_REQ (R316). -/
  | voqReq (egress : Nat)
  /-- VOQ_EMPTY (R316). -/
  | voqEmpty (egress : Nat)
  /-- GRANT_ISSUE (R317). -/
  | grantIssue (port : Nat)
  /-- GRANT_ARRIVAL (R318). -/
  | grantArrival (pipe place : Nat) (err : Option EccErr)
  /-- CT_REQUEST (R323). -/
  | ctRequest (port : Nat)
  /-- CT_DENY (R323). -/
  | ctDeny (pipe : Nat)
  /-- CELL_LANDING (R319). -/
  | cellLanding (egress place : Nat) (err : Option EccErr)
  /-- HEAD_SCAN (R315). -/
  | headScan (pipe : Nat)
  /-- TRANSMIT_SELECTION (R350). -/
  | transmitSelection (port : Nat) (errs : List EccErr)
  /-- CT_UNDERRUN (R91). -/
  | ctUnderrun (port : Nat)
  /-- TX_FRAME_END (R319). -/
  | txFrameEnd (port : Nat)
  /-- SHAPER_WAKE (R354). -/
  | shaperWake (pipe : Nat)
  /-- WHEEL_TURN (R354). -/
  | wheelTurn (pipe : Nat)
  /-- GATE_ENTRY_CHANGE (R358). -/
  | gateEntryChange (port : Nat)
  /-- GATE_CHANGE_INSTANT (R359). -/
  | gateChangeInstant (port : Nat)
  /-- GATE_LIST_REPAIR (R360). -/
  | gateListRepair (port : Nat)
  /-- FAILOVER_REVERT (R368). -/
  | failoverRevert (port : Nat)
  /-- LATENT_PERIOD_END (R367). -/
  | latentPeriodEnd (errs : List EccErr)
  /-- RESIDENCE_ENTRY_EXPIRY (R45). -/
  | residenceEntryExpiry (pipeline : Nat)
  /-- REWRITE_ENTRY_REPAIR (R370). -/
  | rewriteEntryRepair (index : Nat)
  /-- TX_DESCRIPTOR_FETCH (R460). -/
  | txDescriptorFetch (ring : Nat) (words frame : List Nat)
  /-- TIME_BASE_TICK (R32). -/
  | timeBaseTick
  /-- HALYARD_FRAME (R37). -/
  | halyardFrame (deviations : List (Nat × Int))
  /-- STEP_FRAME (R40). -/
  | stepFrame
  /-- SERVO_OFFSET (R49). -/
  | servoOffset (domain : Nat) (theta : Int)
  /-- DOMAIN_TIMEOUT (R52). -/
  | domainTimeout (domain : Nat)
  /-- HOLDOVER_GRACE_EXPIRY (R50). -/
  | holdoverGraceExpiry
  /-- TEC_FIRING (R59). -/
  | tecFiring
  /-- TEC_DEFERRED_FIRING (R59). -/
  | tecDeferredFiring
  /-- PPS_OUT_EDGE (R66). -/
  | ppsOutEdge
  /-- PPS_IN_EDGE (R67). -/
  | ppsInEdge
  /-- TOD_MESSAGE_RX (R67). -/
  | todMessageRx (chars : List Nat)
  /-- TOD_WINDOW_EXPIRY (R67). -/
  | todWindowExpiry
  /-- TOD_OUTPUT (R68). -/
  | todOutput
  /-- REFERENCE_LOST (R69). -/
  | referenceLost (ref : Nat)
  /-- REFERENCE_RELOCK (R69). -/
  | referenceRelock (ref : Nat)
  /-- PRS_ENTRY_REPAIR (R115). -/
  | prsEntryRepair (pipe table index : Nat)
  /-- CLS_ENTRY_REPAIR (R155). -/
  | clsEntryRepair (die table index : Nat)
  /-- MSK_SCRUB_VISIT (R185). -/
  | mskScrubVisit (pipe : Nat) (upset : Option MskUpset) (shroud : Nat)
  /-- MSK_SUSPECT_REPAIR (R187). -/
  | mskSuspectRepair (pipe bank unit : Nat)
  /-- MSK_ACTION_REPAIR (R188). -/
  | mskActionRepair (pipe bank unit : Nat)
  /-- EPOCH_SWAP_INSTANT (R160). -/
  | epochSwapInstant
  /-- SWAP_COMPLETE (R161). -/
  | swapComplete
  /-- EPOCH_DRAIN_DEADLINE (R162). -/
  | epochDrainDeadline
  /-- L2_AGER_VISIT (R154). -/
  | l2AgerVisit (die slot : Nat)
  /-- RELOCATION_CLEAR (R213). -/
  | relocationClear (shard : Nat)
  /-- REBUILD_BUCKET (R215). -/
  | rebuildBucket (shard : Nat)
  /-- REBUILD_COMPLETE (R217). -/
  | rebuildComplete
  /-- AGEING_PASS_START (R218). -/
  | ageingPassStart (shard desc : Nat)
  /-- AGEING_BLOCK_VISIT (R219). -/
  | ageingBlockVisit (shard : Nat)
  /-- AGE_REMOVAL_COMMIT (R222). -/
  | ageRemovalCommit (shard : Nat)
  /-- FW_SETUP_VERDICT (R240). -/
  | fwSetupVerdict (shard place verdict thread : Nat) (flow : Option FlowNew)
  /-- FW_SETUP_TIMEOUT (R240). -/
  | fwSetupTimeout (shard place : Nat)
  /-- NAT_HOLD_RELEASE (R247). -/
  | natHoldRelease (shard : Nat)
  /-- BPM_DEMAND_REQUEST (R250). -/
  | bpmDemandRequest (ctrl : Bool) (pool : Nat) (requesters : List Nat)
  /-- BPM_BATCH_REFILL (R251). -/
  | bpmBatchRefill (shard pool : Nat)
  /-- BPM_RECALL_COMPLETE (R253). -/
  | bpmRecallComplete (pool : Nat)
  /-- REFCOUNT_OP (R256). -/
  | refcountOp (ctrl : Bool) (handle requester : Nat) (add : Bool)
  /-- TX_PREPARE (R259). -/
  | txPrepare (tx : Nat)
  /-- TX_COMMIT_POINT (R260). -/
  | txCommitPoint (tx : Nat)
  /-- TX_COMMIT_RECEIPT (R260). -/
  | txCommitReceipt (tx shard : Nat)
  /-- TX_ACK_ALL (R260). -/
  | txAckAll (tx : Nat)
  /-- TX_PREPARE_TIMEOUT (R262). -/
  | txPrepareTimeout (tx : Nat)
  /-- GENERATION_FENCE (R264). -/
  | generationFence (core : Nat)
  /-- HBM_UNCORRECTABLE (R388). -/
  | hbmUncorrectable (g : Nat) (e : HbmUe)
  /-- FREEZE_END (R388). -/
  | freezeEnd (g : Nat)
  /-- RETIRE_COPY_COMPLETE (R393). -/
  | retireCopyComplete (stack : Nat)
  /-- HBM_REFRESH (R384). -/
  | hbmRefresh (g : Nat)
  /-- HBM_TEMP_READ (R384). -/
  | hbmTempRead (stack temp : Nat)
  /-- NEIGHBOUR_REFRESH (R385). -/
  | neighbourRefresh (g bank row n : Nat)
  /-- REFRESH_WINDOW_BOUNDARY (R385). -/
  | refreshWindowBoundary (stack : Nat)
  /-- PATROL_SCRUB_READ (R386). -/
  | patrolScrubRead (g : Nat) (corrected : Bool) (uncorrectable : Option HbmUe)
  /-- RETRAIN_WINDOW_EXIT (R396). -/
  | retrainWindowExit (stack : Nat) (history : List (List Nat))
  /-- FURL_SELF_REFRESH_ENTRY (R397). -/
  | furlSelfRefreshEntry (stack request : Nat)
  /-- FURL_ENTRY_RETRY (R397). -/
  | furlEntryRetry (stack request : Nat)
  /-- SELF_REFRESH_EXIT_HELD (R397). -/
  | selfRefreshExitHeld (stack : Nat)
  /-- WAIT_EVENT_WAKE (R409). -/
  | waitEventWake (thread : Nat) (wait : Option Nat) (sources : Nat)
  /-- CHANNEL_END_WRITE (R411). -/
  | channelEndWrite (thread channel : Nat) (words : List Nat) (last : Option Nat)
  /-- CHANNEL_READ_END (R411). -/
  | channelReadEnd (thread channel : Nat)
  /-- TASK_POST (R414). -/
  | taskPost (task level core budget : Nat)
  /-- TASK_SWITCH (R415). -/
  | taskSwitch (thread : Nat) (how : TaskEnd)
  /-- SCHEDULER_TICK (R416). -/
  | schedulerTick
  /-- RUN_BUDGET_EXPIRY (R414). -/
  | runBudgetExpiry (thread addr : Nat)
  /-- THREAD_FAULT (R418). -/
  | threadFault (thread kind addr : Nat)
  /-- BECALMED (R421). -/
  | becalmed
  /-- BECALMED_ACTION (R422). -/
  | becalmedAction
  /-- HOUSEKEEPING (R420). -/
  | housekeeping
  /-- SELFTEST_PASS_END (R428). -/
  | selftestPassEnd (core failed age service : Nat)
  /-- KICK_TIMEOUT (R429). -/
  | kickTimeout (core : Nat)
  /-- CORE_FAILURE (R429). -/
  | coreFailure (core cause : Nat)
  /-- TAKEOVER_COMPLETE (R430). -/
  | takeoverComplete
  /-- SERVICE_CHECKPOINT (R433). -/
  | serviceCheckpoint (service : Nat) (content : List Nat)
  /-- MBX_SQ_DOORBELL (R450). -/
  | mbxSqDoorbell (mbx tail : Nat)
  /-- MBX_CQ_DOORBELL (R451). -/
  | mbxCqDoorbell (mbx : Nat) (arm : Bool) (head : Nat)
  /-- RING_DOORBELL (R458). -/
  | ringDoorbell (ring : Nat) (arm : Bool) (index : Nat)
  /-- MBX_ENABLE (R449). -/
  | mbxEnable (mbx : Nat) (entry : List Nat)
  /-- MBX_DISABLE (R449). -/
  | mbxDisable (mbx : Nat)
  /-- COMMAND_FETCH (R451). -/
  | commandFetch (words : List Nat)
  /-- COMPLETION_POST (R454). -/
  | completionPost (mbx : Nat)
  /-- FLR (R441). -/
  | flr
  /-- PERST (R441). -/
  | perst (speed width : Nat)
  /-- D3HOT_ENTRY (R442). -/
  | d3hotEntry
  /-- DMA_READ_ERROR (R443). -/
  | dmaReadError (kind target unit cid addr : Nat)
  /-- NOTIFICATION_WRITE (R462). -/
  | notificationWrite
  /-- RING_COALESCE_TIMER (R461). -/
  | ringCoalesceTimer (ring : Nat)
  /-- SMBUS_BLOCK_WRITE (R467). -/
  | smbusBlockWrite (words : List Nat) (pecGood : Bool)
  /-- SMBUS_STATUS_READ (R467). -/
  | smbusStatusRead
  /-- SMBUS_COMPLETION_READ (R467). -/
  | smbusCompletionRead
  /-- SMBUS_RESULT_READ (R467). -/
  | smbusResultRead
  /-- SMBUS_IRQ_CLEAR (R467). -/
  | smbusIrqClear (bit : Nat)
  /-- DMA_STOP_WRITE (R474). -/
  | dmaStopWrite (stop : Bool)
  /-- WARM_RESET_WRITE (R569). -/
  | warmResetWrite (key : Nat) (warm : Bool)
  /-- TBS_TIME_LATCH (R72). -/
  | tbsTimeLatch
  /-- CNT_WINDOW_READ (R523). -/
  | cntWindowRead (high : Bool)
  /-- CNT_LIVE_SAMPLE (R524). -/
  | cntLiveSample (high : Bool)
  /-- CNT_SNAP_REQ_WRITE (R520). -/
  | cntSnapReqWrite (go : Bool) (bank groups : Nat)
  /-- LOG_RESTART_WRITE (R500). -/
  | logRestartWrite
  /-- PC_HOLD_WRITE (R389). -/
  | pcHoldWrite (stack value : Nat)
  /-- REGISTER_READ_CLEAR (R446). -/
  | registerReadClear (bar addr : Nat) (jtag : Bool)
  /-- REGISTER_WRITE (R446). -/
  | registerWrite (bar addr data : Nat) (full jtag : Bool)
  /-- FAULT_REPORT (R481). -/
  | faultReport (code inst arg0 arg1 addr master masterIndex access : Nat)
  /-- CAPTURE_WINDOW_CLOSE (R488). -/
  | captureWindowClose
  /-- CONDITION_END (R483). -/
  | conditionEnd (code inst : Nat)
  /-- REEF_EXIT (R492). -/
  | reefExit
  /-- BARE_POLES_EXIT (R492). -/
  | barePolesExit
  /-- COLLECTOR_PARITY (R495). -/
  | collectorParity
  /-- HEARTBEAT_CHECK (R495). -/
  | heartbeatCheck (beat : Bool)
  /-- SHARD_RESTART (R496). -/
  | shardRestart (shard : Nat)
  /-- SHARD_RESTART_COMPLETE (R496). -/
  | shardRestartComplete (shard : Nat)
  /-- QM_RESTART_COMPLETE (R341). -/
  | qmRestartComplete (pipe : Nat)
  /-- PWRFAIL_ASSERT (R503). -/
  | pwrfailAssert
  /-- LAST_GASP_COMMIT (R503). -/
  | lastGaspCommit
  /-- PWRFAIL_RELEASE (R507). -/
  | pwrfailRelease
  /-- SERVICE_SECOND (R510). -/
  | serviceSecond
  /-- SNAPSHOT_LATCH (R519). -/
  | snapshotLatch
  /-- SNAPSHOT_DRAIN (R519). -/
  | snapshotDrain (bank : Nat)
  /-- COUNTER_CLEAR_APPLY (R522). -/
  | counterClearApply
  /-- BW_WINDOW_END (R525). -/
  | bwWindowEnd (port : Nat)
  /-- EXPORT_ENCODE (R530). -/
  | exportEncode
  /-- EXPORT_WINDOW_CLOSE (R531). -/
  | exportWindowClose (set : Nat)
  /-- EXPORT_MESSAGE_TIMER (R529). -/
  | exportMessageTimer (collector : Nat)
  /-- TEMPLATE_RESEND (R529). -/
  | templateResend
  /-- LIFE_SAMPLE (R535). -/
  | lifeSample (m : Measure) (good : Bool)
  /-- LIFE_PREDICTION (R536). -/
  | lifePrediction
  /-- WEAR_ACC_WRITE (R539). -/
  | wearAccWrite (verified : Bool)
  /-- KENDREL_SLOT_FRAME (R546). -/
  | kendrelSlotFrame (link slot : Nat) (frame : StkFrame)
  /-- REMOTE_REISSUE_TIMEOUT (R556). -/
  | remoteReissueTimeout (pkt : Nat)
  /-- KENDREL_LINK_UP (R547). -/
  | kendrelLinkUp (link macro_ peer role delay : Nat)
  /-- KENDREL_LINK_DOWN (R547). -/
  | kendrelLinkDown (link : Nat)
  /-- SEED_WAIT_EXPIRY (R549). -/
  | seedWaitExpiry
  /-- STACK_FORM_RESPONSE (R550). -/
  | stackFormResponse (member : Nat) (accept : Bool)
  /-- STACK_FORM_TIMEOUT (R550). -/
  | stackFormTimeout
  /-- TIME_MARKER_EXCHANGE (R560). -/
  | timeMarkerExchange (link : Nat) (theta : Int)
  /-- DEPUTY_TAKEOVER (R565). -/
  | deputyTakeover
  /-- MASTER_RESIGN (R565). -/
  | masterResign
  /-- POWER_ON_RESET (R569). -/
  | powerOnReset (straps : Straps) (persistent : Bool)
  /-- PIN_RESET (R570). -/
  | pinReset (straps : Straps)
  /-- THERMAL_TRIP (R603). -/
  | thermalTrip
  /-- BOOT_STAGE_COMPLETE (R574). -/
  | bootStageComplete (setup : CrdSetup)
  /-- BOOT_WATCHDOG (R576). -/
  | bootWatchdog
  /-- NONCE_EXPIRY (R582). -/
  | nonceExpiry
  /-- AVS_CORRECTION (R598). -/
  | avsCorrection (rail direction : Nat) (answered : Bool)
  /-- DIE_TEMP_WARNING (R602). -/
  | dieTempWarning (unit temp : Nat)
  /-- RECEIVE_FAULT_CLEARED (R82). -/
  | receiveFaultCleared (port : Nat)
  /-- PPS_OUT_FALL (R66). -/
  | ppsOutFall
  /-- D3HOT_EXIT (R442). -/
  | d3hotExit
  /-- FLR_COMPLETE (R441). -/
  | flrComplete
  /-- POWER_LOSS (R499). -/
  | powerLoss
  /-- EXPORT_WALK_VISIT (R531). -/
  | exportWalkVisit (set : Nat)
  /-- CORE_LOGIC_TEST_END (R583). -/
  | coreLogicTestEnd (core : Nat) (passed : Bool)
  deriving DecidableEq, Repr

end Sys2Proof
end

