-- ==== Sys2Proof/WellFormed.lean ====
section
/-! DEFINITION. Well-formed commands: the operands that name a thing of the device name one that it has, bytes and words
fit, and a Jaris command comes from a mailbox of R447. Parameters of Jaris commands are not restricted here: a command
with a bad one is refused with E_INVAL by its own meaning (R456). -/

namespace Sys2Proof

/-- A Jaris command's header: mailboxes 0 to 9 (R447), a command index of 16 bits (R452). -/
def CmdHdr.ok (h : CmdHdr) : Bool := decide (h.mbx < 10) && decide (h.cid < 2 ^ 16)

/-- Bytes. -/
def byteList (l : List Nat) : Bool := l.all fun b => decide (b < 256)

/-- Words of 32 bits. -/
def wordList (l : List Nat) : Bool := l.all fun w => decide (w < 2 ^ 32)

/-- An upset names a unit of the array and leaves a row of its size (R171, R172). -/
def MskUpset.ok (u : MskUpset) : Bool :=
  decide (u.phys < 16384) && [1, 2, 4].contains u.row.width && u.row.value.length == 20 && byteList u.row.value &&
    u.row.mask.length == 20 && byteList u.row.mask

/-- An upset of a control store names one of its words and flips bits of that word (R276). -/
def RigUpset.ok (u : RigUpset) : Bool :=
  decide (u.addr < 8192) && u.flips.length == 7 && wordList u.flips && decide (u.flips.getD 6 0 < 16)

/-- A command is well formed (R6, R11, R15, R382, R401, R447, R458, R544). -/
def Instr.wf : Instr → Bool
  | .sysIdentity h => h.ok
  | .sysStatus h => h.ok
  | .sysDebugChallenge h => h.ok
  | .sysDebugUnlock h _ => h.ok
  | .sysFwUpdate h _ _ _ => h.ok
  | .sysFurl h => h.ok
  | .sysUnfurl h => h.ok
  | .mbxNop h => h.ok
  | .ringConfig h _ _ _ _ _ _ _ _ _ => h.ok
  | .ringBind h _ _ => h.ok
  | .ringStatus h _ => h.ok
  | .timeServoConfig h _ _ _ _ _ _ _ _ _ => h.ok
  | .timeDomainConfig h _ _ _ _ _ _ => h.ok
  | .timeSelectDomain h _ => h.ok
  | .timeSlewConfig h _ _ => h.ok
  | .timeTcConfig h _ _ _ => h.ok
  | .timeIoConfig h _ _ _ => h.ok
  | .tecArm h _ => h.ok
  | .tecCancel h _ => h.ok
  | .portConfig h _ _ _ _ _ _ _ _ _ _ => h.ok
  | .portDelete h _ => h.ok
  | .portLaneMap h _ _ _ _ _ => h.ok
  | .portFcConfig h _ _ _ _ _ _ _ _ _ => h.ok
  | .portStatus h _ => h.ok
  | .prsGraphWrite h _ _ => h.ok
  | .prsGraphRead h _ => h.ok
  | .prsPortStart h _ _ _ => h.ok
  | .prsKeyProfile h _ _ => h.ok
  | .prsKeyMap h _ _ _ => h.ok
  | .prsScanConfig h _ _ => h.ok
  | .prsExcConfig h _ _ _ _ _ => h.ok
  | .emTableConfig h _ _ _ => h.ok
  | .emInsert h _ _ _ _ _ _ => h.ok
  | .emModify h _ _ _ _ _ => h.ok
  | .emDelete h _ _ _ => h.ok
  | .emSetMembership h _ _ _ _ _ => h.ok
  | .emRead h _ _ _ _ => h.ok
  | .clsClassProfile h _ _ => h.ok
  | .clsPortConfig h _ _ _ _ _ => h.ok
  | .clsProfileSet h _ _ => h.ok
  | .l2Insert h _ _ _ _ => h.ok
  | .l2Delete h _ _ => h.ok
  | .l2LearnConfig h _ _ _ _ _ _ => h.ok
  | .routeHostAdd h _ _ _ _ _ _ => h.ok
  | .routeLpmAdd h _ _ _ _ _ _ => h.ok
  | .routeDelete h _ _ _ _ _ => h.ok
  | .nhSet h _ _ _ _ _ => h.ok
  | .ecmpSet h _ _ _ => h.ok
  | .epochSwap h _ => h.ok
  | .epochStatus h => h.ok
  | .mskBankConfig h _ _ _ => h.ok
  | .mskProfileSet h _ _ => h.ok
  | .mskWrite h _ _ _ _ _ _ _ _ => h.ok
  | .mskModifyAction h _ _ _ => h.ok
  | .mskSetMembership h _ _ _ _ => h.ok
  | .mskDelete h _ _ => h.ok
  | .mskRead h _ _ _ => h.ok
  | .mskScrubConfig h _ => h.ok
  | .flowInsert h _ => h.ok
  | .flowRead h _ _ _ => h.ok
  | .flowModify h _ _ _ => h.ok
  | .flowDelete h _ => h.ok
  | .fstRebuild h _ _ => h.ok
  | .fstSweepConfig h _ _ => h.ok
  | .fstMqConfig h _ => h.ok
  | .fstStatus h _ => h.ok
  | .setupTemplateSet h _ _ => h.ok
  | .setupFwConfig h _ => h.ok
  | .natPoolSet h _ _ _ _ _ _ _ _ _ _ _ => h.ok
  | .natPoolStatus h _ _ => h.ok
  | .natHoldConfig h _ => h.ok
  | .bpmHeapConfig h _ _ _ => h.ok
  | .bpmCtrlConfig h _ => h.ok
  | .bpmStatus h => h.ok
  | .txOpen h => h.ok
  | .txAdd h _ _ => h.ok
  | .txCommit h _ => h.ok
  | .txAbort h _ => h.ok
  | .rigLoad h _ _ => h.ok
  | .rigEntrySet h _ _ _ _ _ => h.ok
  | .rigStatus h => h.ok
  | .rigTableWrite h _ _ _ => h.ok
  | .polProfileSet h _ _ _ _ _ _ => h.ok
  | .lbPoolSet h _ _ _ => h.ok
  | .lbBackendSet h _ _ _ _ => h.ok
  | .iqmProfileSet h _ _ _ _ _ _ _ _ => h.ok
  | .iqmPortConfig h _ _ _ _ _ _ _ => h.ok
  | .iqmGlobalConfig h _ _ _ _ _ _ => h.ok
  | .iqmTrapConfig h _ _ _ _ => h.ok
  | .iqmVoqStatus h _ _ _ => h.ok
  | .replGroupSet h _ _ _ => h.ok
  | .mirrorSessionSet h _ _ => h.ok
  | .smpProfileSet h _ _ => h.ok
  | .egsSchedConfig h _ _ _ => h.ok
  | .egsShaperSet h _ _ _ _ _ _ _ _ _ => h.ok
  | .egsPortConfig h _ _ _ => h.ok
  | .egsUnlockedConfig h _ _ => h.ok
  | .egsRewriteSet h _ _ => h.ok
  | .egsFailoverConfig h _ => h.ok
  | .gateListSet h _ _ _ _ _ _ _ _ => h.ok
  | .gateActivate h _ _ => h.ok
  | .gateStatus h _ => h.ok
  | .redConfig h _ _ => h.ok
  | .redMonitorSet h _ _ _ _ _ => h.ok
  | .mcxStatus h _ => h.ok
  | .mcxHistory h _ => h.ok
  | .mcxRhConfig h _ => h.ok
  | .mcxScrubConfig h _ _ _ => h.ok
  | .mcxRetire h _ _ => h.ok
  | .crdStatus h => h.ok
  | .crdTakeover h _ => h.ok
  | .crdConfig h _ _ _ => h.ok
  | .crdHealth h => h.ok
  | .dbgStop h _ _ => h.ok
  | .dbgResume h _ _ => h.ok
  | .dbgStep h _ _ _ => h.ok
  | .dbgHold h _ _ _ => h.ok
  | .dbgThreadRead h _ _ _ _ _ => h.ok
  | .dbgThreadWrite h _ _ _ _ _ => h.ok
  | .dbgChannelRead h _ => h.ok
  | .dbgChannelAbort h _ => h.ok
  | .fltRead h _ => h.ok
  | .fltClear h _ => h.ok
  | .fltConfig h _ _ _ => h.ok
  | .logRead h _ _ => h.ok
  | .logMarker h _ _ => h.ok
  | .availRead h => h.ok
  | .availReset h => h.ok
  | .cntSnapshot h _ _ => h.ok
  | .cntSnapshotAt h _ _ _ _ => h.ok
  | .cntRead h _ _ _ _ => h.ok
  | .cntReadOne h _ _ => h.ok
  | .cntClear h _ => h.ok
  | .cntBwConfig h _ _ _ => h.ok
  | .cntBwRead h _ => h.ok
  | .expTemplateSet h _ _ _ => h.ok
  | .expCollectorSet h _ _ => h.ok
  | .expConfig h _ _ _ _ _ => h.ok
  | .expStatus h => h.ok
  | .lifeReport h _ => h.ok
  | .lifeConfig h _ => h.ok
  | .stkConfig h _ _ _ => h.ok
  | .stkStatus h => h.ok
  | .stkLinkStatus h _ => h.ok
  | .frameArrival port bytes => decide (port < 256) && byteList bytes
  | .frameEndStatus port bytes _ _ _ _ => decide (port < 256) && byteList bytes
  | .rxMacControlFrame port _ _ _ => decide (port < 256)
  | .pauseExpiry port cls => decide (port < 256) && decide (cls < 8)
  | .xoffResend port cls => decide (port < 256) && decide (cls < 8)
  | .pfcWatchdog port cls => decide (port < 256) && decide (cls < 8)
  | .pfcRestoreEnd port cls => decide (port < 256) && decide (cls < 8)
  | .localLinkFault port _ => decide (port < 256)
  | .remoteLinkFault port => decide (port < 256)
  | .linkUpHoldoffExpiry port => decide (port < 256)
  | .anComplete port _ => decide (port < 256)
  | .anRestart port => decide (port < 256)
  | .deal pipe _ _ => decide (pipe < 32)
  | .parserReorderRelease pipe _ _ => decide (pipe < 32)
  | .flowLookupRequest shard _ => decide (shard < 32)
  | .recordHop shard => decide (shard < 32)
  | .linkFill shard => decide (shard < 32)
  | .missReadReturn shard _ _ => decide (shard < 32)
  | .installRetry shard _ => decide (shard < 32)
  | .lookupAnswer pipe => decide (pipe < 32)
  | .rigDispatch pipe upset => decide (pipe < 32) && upset.all RigUpset.ok
  | .tcallResult pipe rig _ upset => decide (pipe < 32) && decide (rig < 8) && upset.all RigUpset.ok
  | .rigRestartComplete pipe _ => decide (pipe < 32)
  | .updateFlit shard => decide (shard < 32)
  | .transitionAck pipe => decide (pipe < 32)
  | .replayReply pipe => decide (pipe < 32)
  | .rigReorderRelease pipe _ => decide (pipe < 32)
  | .voqReq egress => decide (egress < 32)
  | .voqEmpty egress => decide (egress < 32)
  | .grantIssue port => decide (port < 256)
  | .grantArrival pipe _ _ => decide (pipe < 32)
  | .ctRequest port => decide (port < 256)
  | .ctDeny pipe => decide (pipe < 32)
  | .cellLanding egress _ _ => decide (egress < 32)
  | .headScan pipe => decide (pipe < 32)
  | .transmitSelection port _ => decide (port < 256)
  | .ctUnderrun port => decide (port < 256)
  | .txFrameEnd port => decide (port < 256)
  | .shaperWake pipe => decide (pipe < 32)
  | .wheelTurn pipe => decide (pipe < 32)
  | .gateEntryChange port => decide (port < 256)
  | .gateChangeInstant port => decide (port < 256)
  | .gateListRepair port => decide (port < 256)
  | .failoverRevert port => decide (port < 256)
  | .latentPeriodEnd _ => true
  | .residenceEntryExpiry pipeline => decide (pipeline < 32)
  | .rewriteEntryRepair _ => true
  | .txDescriptorFetch ring words frame => decide (ring < 128) && wordList words && byteList frame
  | .timeBaseTick => true
  | .halyardFrame _ => true
  | .stepFrame => true
  | .servoOffset domain _ => decide (domain < 2)
  | .domainTimeout domain => decide (domain < 2)
  | .holdoverGraceExpiry => true
  | .tecFiring => true
  | .tecDeferredFiring => true
  | .ppsOutEdge => true
  | .ppsInEdge => true
  | .todMessageRx _ => true
  | .todWindowExpiry => true
  | .todOutput => true
  | .referenceLost _ => true
  | .referenceRelock _ => true
  | .prsEntryRepair pipe _ _ => decide (pipe < 32)
  | .clsEntryRepair die _ _ => decide (die < 2)
  | .mskScrubVisit pipe upset _ => decide (pipe < 32) && upset.all MskUpset.ok
  | .mskSuspectRepair pipe _ _ => decide (pipe < 32)
  | .mskActionRepair pipe _ _ => decide (pipe < 32)
  | .epochSwapInstant => true
  | .swapComplete => true
  | .epochDrainDeadline => true
  | .l2AgerVisit die _ => decide (die < 2)
  | .relocationClear shard => decide (shard < 32)
  | .rebuildBucket shard => decide (shard < 32)
  | .rebuildComplete => true
  | .ageingPassStart shard _ => decide (shard < 32)
  | .ageingBlockVisit shard => decide (shard < 32)
  | .ageRemovalCommit shard => decide (shard < 32)
  | .fwSetupVerdict shard _ _ thread _ => decide (shard < 32) && decide (thread < 64)
  | .fwSetupTimeout shard _ => decide (shard < 32)
  | .natHoldRelease shard => decide (shard < 32)
  | .bpmDemandRequest _ _ _ => true
  | .bpmBatchRefill shard _ => decide (shard < 32)
  | .bpmRecallComplete _ => true
  | .refcountOp _ _ _ _ => true
  | .txPrepare _ => true
  | .txCommitPoint _ => true
  | .txCommitReceipt _ shard => decide (shard < 32)
  | .txAckAll _ => true
  | .txPrepareTimeout _ => true
  | .generationFence core => decide (core < 4)
  | .hbmUncorrectable g _ => decide (g < 192)
  | .freezeEnd g => decide (g < 192)
  | .retireCopyComplete stack => decide (stack < 6)
  | .hbmRefresh g => decide (g < 192)
  | .hbmTempRead stack _ => decide (stack < 6)
  | .neighbourRefresh g _ _ _ => decide (g < 192)
  | .refreshWindowBoundary stack => decide (stack < 6)
  | .patrolScrubRead g _ _ => decide (g < 192)
  | .retrainWindowExit stack _ => decide (stack < 6)
  | .furlSelfRefreshEntry stack _ => decide (stack < 6)
  | .furlEntryRetry stack _ => decide (stack < 6)
  | .selfRefreshExitHeld stack => decide (stack < 6)
  | .waitEventWake thread _ _ => decide (thread < 64)
  | .channelEndWrite thread _ words _ => decide (thread < 64) && wordList words
  | .channelReadEnd thread _ => decide (thread < 64)
  | .taskPost _ _ core _ => decide (core < 4)
  | .taskSwitch thread _ => decide (thread < 64)
  | .schedulerTick => true
  | .runBudgetExpiry thread _ => decide (thread < 64)
  | .threadFault thread _ _ => decide (thread < 64)
  | .becalmed => true
  | .becalmedAction => true
  | .housekeeping => true
  | .selftestPassEnd core _ _ _ => decide (core < 4)
  | .kickTimeout core => decide (core < 4)
  | .coreFailure core _ => decide (core < 4)
  | .takeoverComplete => true
  | .serviceCheckpoint _ _ => true
  | .mbxSqDoorbell mbx _ => decide (mbx < 9)
  | .mbxCqDoorbell mbx _ _ => decide (mbx < 9)
  | .ringDoorbell ring _ _ => decide (ring < 64)
  | .mbxEnable mbx entry => decide (mbx < 9) && wordList entry
  | .mbxDisable mbx => decide (mbx < 9)
  | .commandFetch words => wordList words
  | .completionPost mbx => decide (mbx < 9)
  | .flr => true
  | .perst _ _ => true
  | .d3hotEntry => true
  | .dmaReadError _ _ _ _ _ => true
  | .notificationWrite => true
  | .ringCoalesceTimer ring => decide (ring < 64)
  | .smbusBlockWrite words _ => wordList words
  | .smbusStatusRead => true
  | .smbusCompletionRead => true
  | .smbusResultRead => true
  | .smbusIrqClear _ => true
  | .dmaStopWrite _ => true
  | .warmResetWrite _ _ => true
  | .tbsTimeLatch => true
  | .cntWindowRead _ => true
  | .cntLiveSample _ => true
  | .cntSnapReqWrite _ _ _ => true
  | .logRestartWrite => true
  | .pcHoldWrite stack _ => decide (stack < 6)
  | .registerReadClear bar _ _ => (bar == 0 || bar == 2 || bar == 4)
  | .registerWrite bar _ data _ _ => (bar == 0 || bar == 2 || bar == 4) && decide (data < 2 ^ 32)
  | .faultReport _ _ _ _ _ _ _ _ => true
  | .captureWindowClose => true
  | .conditionEnd _ _ => true
  | .reefExit => true
  | .barePolesExit => true
  | .collectorParity => true
  | .heartbeatCheck _ => true
  | .shardRestart shard => decide (shard < 32)
  | .shardRestartComplete shard => decide (shard < 32)
  | .qmRestartComplete pipe => decide (pipe < 32)
  | .pwrfailAssert => true
  | .lastGaspCommit => true
  | .pwrfailRelease => true
  | .serviceSecond => true
  | .snapshotLatch => true
  | .snapshotDrain _ => true
  | .counterClearApply => true
  | .bwWindowEnd port => decide (port < 256)
  | .exportEncode => true
  | .exportWindowClose _ => true
  | .exportMessageTimer _ => true
  | .templateResend => true
  | .lifeSample _ _ => true
  | .lifePrediction => true
  | .wearAccWrite _ => true
  | .kendrelSlotFrame link _ _ => decide (link < 4)
  | .remoteReissueTimeout _ => true
  | .kendrelLinkUp link macro_ peer role _ => decide (link < 4) && decide (macro_ < 32) && decide (peer < 4) && decide (role < 4)
  | .kendrelLinkDown link => decide (link < 4)
  | .seedWaitExpiry => true
  | .stackFormResponse member _ => decide (member < 4)
  | .stackFormTimeout => true
  | .timeMarkerExchange link _ => decide (link < 4)
  | .deputyTakeover => true
  | .masterResign => true
  | .powerOnReset _ _ => true
  | .pinReset _ => true
  | .thermalTrip => true
  | .bootStageComplete _ => true
  | .bootWatchdog => true
  | .nonceExpiry => true
  | .avsCorrection _ _ _ => true
  | .dieTempWarning _ _ => true
  | .receiveFaultCleared port => decide (port < 256)
  | .ppsOutFall => true
  | .d3hotExit => true
  | .flrComplete => true
  | .powerLoss => true
  | .exportWalkVisit _ => true
  | .coreLogicTestEnd core _ => decide (core < 4)

/-- The header of a Jaris command; none for an event or an access. -/
def Instr.header : Instr → Option CmdHdr
  | .sysIdentity h => some h
  | .sysStatus h => some h
  | .sysDebugChallenge h => some h
  | .sysDebugUnlock h _ => some h
  | .sysFwUpdate h _ _ _ => some h
  | .sysFurl h => some h
  | .sysUnfurl h => some h
  | .mbxNop h => some h
  | .ringConfig h _ _ _ _ _ _ _ _ _ => some h
  | .ringBind h _ _ => some h
  | .ringStatus h _ => some h
  | .timeServoConfig h _ _ _ _ _ _ _ _ _ => some h
  | .timeDomainConfig h _ _ _ _ _ _ => some h
  | .timeSelectDomain h _ => some h
  | .timeSlewConfig h _ _ => some h
  | .timeTcConfig h _ _ _ => some h
  | .timeIoConfig h _ _ _ => some h
  | .tecArm h _ => some h
  | .tecCancel h _ => some h
  | .portConfig h _ _ _ _ _ _ _ _ _ _ => some h
  | .portDelete h _ => some h
  | .portLaneMap h _ _ _ _ _ => some h
  | .portFcConfig h _ _ _ _ _ _ _ _ _ => some h
  | .portStatus h _ => some h
  | .prsGraphWrite h _ _ => some h
  | .prsGraphRead h _ => some h
  | .prsPortStart h _ _ _ => some h
  | .prsKeyProfile h _ _ => some h
  | .prsKeyMap h _ _ _ => some h
  | .prsScanConfig h _ _ => some h
  | .prsExcConfig h _ _ _ _ _ => some h
  | .emTableConfig h _ _ _ => some h
  | .emInsert h _ _ _ _ _ _ => some h
  | .emModify h _ _ _ _ _ => some h
  | .emDelete h _ _ _ => some h
  | .emSetMembership h _ _ _ _ _ => some h
  | .emRead h _ _ _ _ => some h
  | .clsClassProfile h _ _ => some h
  | .clsPortConfig h _ _ _ _ _ => some h
  | .clsProfileSet h _ _ => some h
  | .l2Insert h _ _ _ _ => some h
  | .l2Delete h _ _ => some h
  | .l2LearnConfig h _ _ _ _ _ _ => some h
  | .routeHostAdd h _ _ _ _ _ _ => some h
  | .routeLpmAdd h _ _ _ _ _ _ => some h
  | .routeDelete h _ _ _ _ _ => some h
  | .nhSet h _ _ _ _ _ => some h
  | .ecmpSet h _ _ _ => some h
  | .epochSwap h _ => some h
  | .epochStatus h => some h
  | .mskBankConfig h _ _ _ => some h
  | .mskProfileSet h _ _ => some h
  | .mskWrite h _ _ _ _ _ _ _ _ => some h
  | .mskModifyAction h _ _ _ => some h
  | .mskSetMembership h _ _ _ _ => some h
  | .mskDelete h _ _ => some h
  | .mskRead h _ _ _ => some h
  | .mskScrubConfig h _ => some h
  | .flowInsert h _ => some h
  | .flowRead h _ _ _ => some h
  | .flowModify h _ _ _ => some h
  | .flowDelete h _ => some h
  | .fstRebuild h _ _ => some h
  | .fstSweepConfig h _ _ => some h
  | .fstMqConfig h _ => some h
  | .fstStatus h _ => some h
  | .setupTemplateSet h _ _ => some h
  | .setupFwConfig h _ => some h
  | .natPoolSet h _ _ _ _ _ _ _ _ _ _ _ => some h
  | .natPoolStatus h _ _ => some h
  | .natHoldConfig h _ => some h
  | .bpmHeapConfig h _ _ _ => some h
  | .bpmCtrlConfig h _ => some h
  | .bpmStatus h => some h
  | .txOpen h => some h
  | .txAdd h _ _ => some h
  | .txCommit h _ => some h
  | .txAbort h _ => some h
  | .rigLoad h _ _ => some h
  | .rigEntrySet h _ _ _ _ _ => some h
  | .rigStatus h => some h
  | .rigTableWrite h _ _ _ => some h
  | .polProfileSet h _ _ _ _ _ _ => some h
  | .lbPoolSet h _ _ _ => some h
  | .lbBackendSet h _ _ _ _ => some h
  | .iqmProfileSet h _ _ _ _ _ _ _ _ => some h
  | .iqmPortConfig h _ _ _ _ _ _ _ => some h
  | .iqmGlobalConfig h _ _ _ _ _ _ => some h
  | .iqmTrapConfig h _ _ _ _ => some h
  | .iqmVoqStatus h _ _ _ => some h
  | .replGroupSet h _ _ _ => some h
  | .mirrorSessionSet h _ _ => some h
  | .smpProfileSet h _ _ => some h
  | .egsSchedConfig h _ _ _ => some h
  | .egsShaperSet h _ _ _ _ _ _ _ _ _ => some h
  | .egsPortConfig h _ _ _ => some h
  | .egsUnlockedConfig h _ _ => some h
  | .egsRewriteSet h _ _ => some h
  | .egsFailoverConfig h _ => some h
  | .gateListSet h _ _ _ _ _ _ _ _ => some h
  | .gateActivate h _ _ => some h
  | .gateStatus h _ => some h
  | .redConfig h _ _ => some h
  | .redMonitorSet h _ _ _ _ _ => some h
  | .mcxStatus h _ => some h
  | .mcxHistory h _ => some h
  | .mcxRhConfig h _ => some h
  | .mcxScrubConfig h _ _ _ => some h
  | .mcxRetire h _ _ => some h
  | .crdStatus h => some h
  | .crdTakeover h _ => some h
  | .crdConfig h _ _ _ => some h
  | .crdHealth h => some h
  | .dbgStop h _ _ => some h
  | .dbgResume h _ _ => some h
  | .dbgStep h _ _ _ => some h
  | .dbgHold h _ _ _ => some h
  | .dbgThreadRead h _ _ _ _ _ => some h
  | .dbgThreadWrite h _ _ _ _ _ => some h
  | .dbgChannelRead h _ => some h
  | .dbgChannelAbort h _ => some h
  | .fltRead h _ => some h
  | .fltClear h _ => some h
  | .fltConfig h _ _ _ => some h
  | .logRead h _ _ => some h
  | .logMarker h _ _ => some h
  | .availRead h => some h
  | .availReset h => some h
  | .cntSnapshot h _ _ => some h
  | .cntSnapshotAt h _ _ _ _ => some h
  | .cntRead h _ _ _ _ => some h
  | .cntReadOne h _ _ => some h
  | .cntClear h _ => some h
  | .cntBwConfig h _ _ _ => some h
  | .cntBwRead h _ => some h
  | .expTemplateSet h _ _ _ => some h
  | .expCollectorSet h _ _ => some h
  | .expConfig h _ _ _ _ _ => some h
  | .expStatus h => some h
  | .lifeReport h _ => some h
  | .lifeConfig h _ => some h
  | .stkConfig h _ _ _ => some h
  | .stkStatus h => some h
  | .stkLinkStatus h _ => some h
  | .frameArrival _ _ => none
  | .frameEndStatus _ _ _ _ _ _ => none
  | .rxMacControlFrame _ _ _ _ => none
  | .pauseExpiry _ _ => none
  | .xoffResend _ _ => none
  | .pfcWatchdog _ _ => none
  | .pfcRestoreEnd _ _ => none
  | .localLinkFault _ _ => none
  | .remoteLinkFault _ => none
  | .linkUpHoldoffExpiry _ => none
  | .anComplete _ _ => none
  | .anRestart _ => none
  | .deal _ _ _ => none
  | .parserReorderRelease _ _ _ => none
  | .flowLookupRequest _ _ => none
  | .recordHop _ => none
  | .linkFill _ => none
  | .missReadReturn _ _ _ => none
  | .installRetry _ _ => none
  | .lookupAnswer _ => none
  | .rigDispatch _ _ => none
  | .tcallResult _ _ _ _ => none
  | .rigRestartComplete _ _ => none
  | .updateFlit _ => none
  | .transitionAck _ => none
  | .replayReply _ => none
  | .rigReorderRelease _ _ => none
  | .voqReq _ => none
  | .voqEmpty _ => none
  | .grantIssue _ => none
  | .grantArrival _ _ _ => none
  | .ctRequest _ => none
  | .ctDeny _ => none
  | .cellLanding _ _ _ => none
  | .headScan _ => none
  | .transmitSelection _ _ => none
  | .ctUnderrun _ => none
  | .txFrameEnd _ => none
  | .shaperWake _ => none
  | .wheelTurn _ => none
  | .gateEntryChange _ => none
  | .gateChangeInstant _ => none
  | .gateListRepair _ => none
  | .failoverRevert _ => none
  | .latentPeriodEnd _ => none
  | .residenceEntryExpiry _ => none
  | .rewriteEntryRepair _ => none
  | .txDescriptorFetch _ _ _ => none
  | .timeBaseTick => none
  | .halyardFrame _ => none
  | .stepFrame => none
  | .servoOffset _ _ => none
  | .domainTimeout _ => none
  | .holdoverGraceExpiry => none
  | .tecFiring => none
  | .tecDeferredFiring => none
  | .ppsOutEdge => none
  | .ppsInEdge => none
  | .todMessageRx _ => none
  | .todWindowExpiry => none
  | .todOutput => none
  | .referenceLost _ => none
  | .referenceRelock _ => none
  | .prsEntryRepair _ _ _ => none
  | .clsEntryRepair _ _ _ => none
  | .mskScrubVisit _ _ _ => none
  | .mskSuspectRepair _ _ _ => none
  | .mskActionRepair _ _ _ => none
  | .epochSwapInstant => none
  | .swapComplete => none
  | .epochDrainDeadline => none
  | .l2AgerVisit _ _ => none
  | .relocationClear _ => none
  | .rebuildBucket _ => none
  | .rebuildComplete => none
  | .ageingPassStart _ _ => none
  | .ageingBlockVisit _ => none
  | .ageRemovalCommit _ => none
  | .fwSetupVerdict _ _ _ _ _ => none
  | .fwSetupTimeout _ _ => none
  | .natHoldRelease _ => none
  | .bpmDemandRequest _ _ _ => none
  | .bpmBatchRefill _ _ => none
  | .bpmRecallComplete _ => none
  | .refcountOp _ _ _ _ => none
  | .txPrepare _ => none
  | .txCommitPoint _ => none
  | .txCommitReceipt _ _ => none
  | .txAckAll _ => none
  | .txPrepareTimeout _ => none
  | .generationFence _ => none
  | .hbmUncorrectable _ _ => none
  | .freezeEnd _ => none
  | .retireCopyComplete _ => none
  | .hbmRefresh _ => none
  | .hbmTempRead _ _ => none
  | .neighbourRefresh _ _ _ _ => none
  | .refreshWindowBoundary _ => none
  | .patrolScrubRead _ _ _ => none
  | .retrainWindowExit _ _ => none
  | .furlSelfRefreshEntry _ _ => none
  | .furlEntryRetry _ _ => none
  | .selfRefreshExitHeld _ => none
  | .waitEventWake _ _ _ => none
  | .channelEndWrite _ _ _ _ => none
  | .channelReadEnd _ _ => none
  | .taskPost _ _ _ _ => none
  | .taskSwitch _ _ => none
  | .schedulerTick => none
  | .runBudgetExpiry _ _ => none
  | .threadFault _ _ _ => none
  | .becalmed => none
  | .becalmedAction => none
  | .housekeeping => none
  | .selftestPassEnd _ _ _ _ => none
  | .kickTimeout _ => none
  | .coreFailure _ _ => none
  | .takeoverComplete => none
  | .serviceCheckpoint _ _ => none
  | .mbxSqDoorbell _ _ => none
  | .mbxCqDoorbell _ _ _ => none
  | .ringDoorbell _ _ _ => none
  | .mbxEnable _ _ => none
  | .mbxDisable _ => none
  | .commandFetch _ => none
  | .completionPost _ => none
  | .flr => none
  | .perst _ _ => none
  | .d3hotEntry => none
  | .dmaReadError _ _ _ _ _ => none
  | .notificationWrite => none
  | .ringCoalesceTimer _ => none
  | .smbusBlockWrite _ _ => none
  | .smbusStatusRead => none
  | .smbusCompletionRead => none
  | .smbusResultRead => none
  | .smbusIrqClear _ => none
  | .dmaStopWrite _ => none
  | .warmResetWrite _ _ => none
  | .tbsTimeLatch => none
  | .cntWindowRead _ => none
  | .cntLiveSample _ => none
  | .cntSnapReqWrite _ _ _ => none
  | .logRestartWrite => none
  | .pcHoldWrite _ _ => none
  | .registerReadClear _ _ _ => none
  | .registerWrite _ _ _ _ _ => none
  | .faultReport _ _ _ _ _ _ _ _ => none
  | .captureWindowClose => none
  | .conditionEnd _ _ => none
  | .reefExit => none
  | .barePolesExit => none
  | .collectorParity => none
  | .heartbeatCheck _ => none
  | .shardRestart _ => none
  | .shardRestartComplete _ => none
  | .qmRestartComplete _ => none
  | .pwrfailAssert => none
  | .lastGaspCommit => none
  | .pwrfailRelease => none
  | .serviceSecond => none
  | .snapshotLatch => none
  | .snapshotDrain _ => none
  | .counterClearApply => none
  | .bwWindowEnd _ => none
  | .exportEncode => none
  | .exportWindowClose _ => none
  | .exportMessageTimer _ => none
  | .templateResend => none
  | .lifeSample _ _ => none
  | .lifePrediction => none
  | .wearAccWrite _ => none
  | .kendrelSlotFrame _ _ _ => none
  | .remoteReissueTimeout _ => none
  | .kendrelLinkUp _ _ _ _ _ => none
  | .kendrelLinkDown _ => none
  | .seedWaitExpiry => none
  | .stackFormResponse _ _ => none
  | .stackFormTimeout => none
  | .timeMarkerExchange _ _ => none
  | .deputyTakeover => none
  | .masterResign => none
  | .powerOnReset _ _ => none
  | .pinReset _ => none
  | .thermalTrip => none
  | .bootStageComplete _ => none
  | .bootWatchdog => none
  | .nonceExpiry => none
  | .avsCorrection _ _ _ => none
  | .dieTempWarning _ _ => none
  | .receiveFaultCleared _ => none
  | .ppsOutFall => none
  | .d3hotExit => none
  | .flrComplete => none
  | .powerLoss => none
  | .exportWalkVisit _ => none
  | .coreLogicTestEnd _ _ => none

end Sys2Proof
end

