-- ==== Sys2Proof/Decode.lean ====
section
/-! DEFINITION. The decoder of table words. The G5120 is modelled as a block: spec/opcode_table.json gives its commands no
bits, so no word spells one, and a command reaches the queue as a command. -/

namespace Sys2Proof

/-- One row of the table that gives its command bits: how many, which are fixed and to what, and the command. -/
structure WordRow where
  nbits : Nat
  mask : Nat
  match_ : Nat
  command : Instr
  deriving DecidableEq, Repr

/-- The rows of spec/opcode_table.json that give bits: none. -/
def wordRows : List WordRow := []

/-- The command that a word spells by the table's bits. -/
def decodeTableWord (nbits w : Nat) : Option Instr :=
  (wordRows.find? fun r => r.nbits == nbits && Nat.land w r.mask == r.match_).map (·.command)

end Sys2Proof
end

