-- ==== Sys2Proof/Config.lean ====
section
/-! DEFINITION. What the spec leaves to an implementation or leaves open: constants without a body, so that nothing can
be proved of their values. -/

namespace Sys2Proof

/-- A value the spec leaves open, the `n`-th one drawn (log entry 4). -/
opaque Config.free (n : Nat) : Nat

/-- The keyed hashes of the chapters, each named by a number (log entry 20): what is hashed is the list. Numbers: 1 shard
choice (R15), 2 and 3 rule buckets (R140), 4 and 5 L2 buckets, 6 and 7 host-route buckets, 8 ECMP (R149), 9 and 10 index
buckets, 11 signature (R195), 12 rig HASH (R278), 13 NAT port start (R244), 14 load-balancer slots. -/
opaque Config.hash (which : Nat) (seed : Nat) (data : List Nat) : Nat

/-- The replication group that floods a VLAN (R148): the spec gives no command that sets it (log entry 21). -/
opaque Config.floodGroup (vlan : Nat) : Nat

/-- The router MAC table's contents, MAC and VLAN or any (R147): the spec gives no command that writes it (log entry 257). -/
opaque Config.routerMacs : List (Nat × Option Nat)

/-- The index of the LPM entry that holds a prefix: VRF, IPv6, address, length (R147, R155). The spec calls the table algorithmic and
leaves its layout open (log entry 258). -/
opaque Config.lpmIndex (vrf : Nat) (v6 : Bool) (addr plen : Nat) : Nat

/-- A port's launch latency in 2^-16 ns (R43), which the spec leaves to the port (log entry 22). -/
opaque Config.launchLatency (port : Nat) : Nat

/-- The interval of a port's transmit start positions in 2^-16 ns, by lane rate and number of lanes as PORT_CFG codes them, and
by how much the positions of a port stand off the multiples of it (R43), which the spec leaves open (log entry 240). -/
opaque Config.startInterval (laneRate lanes : Nat) : Nat
opaque Config.startPhase (port : Nat) : Nat

/-- The correction, in 2^-16 ns, that the PCS of a PAM4 port measures for a frame at a time: its position within the FEC codeword
and alignment-marker period (R96). The spec leaves the positions open (log entry 240). -/
opaque Config.pcsPosition (port time : Nat) : Int

/-- Where sample copies go (R334 names no destination): a DMA ring 0 to 63, or Criod firmware for any other value (log
entry 41). -/
opaque Config.sampleDest : Nat

/-- Twice the cumulative hour, rounded down, at which a wear source's fitted curve, shifted by 1.2816 σ toward its limit,
reaches the limit; none where it never does (R536). The spec gives the method and leaves its arithmetic open (log entry
138). Models: 0 power law, 1 exponential, 2 linear; samples are (cumulative hour, value). -/
opaque Config.reach (model : Nat) (samples : List (Nat × Int)) (limit : Int) : Option Nat

/-- The eye margin below which a lane without a baseline has crossed its threshold (R537 names no value; log entry 139). -/
opaque Config.laneMinimum (lane : Nat) : Nat

/-- The sector of the boot NOR, of the 64 that R539 counts, that holds what the device record names: 0 and 1 the wear
accumulators, 2 and 3 the last gasp, 4 the retirement list, 5 and 6 the image slots, 7 and 8 the device record (log entry
140). -/
opaque Config.norSector (what : Nat) : Nat

end Sys2Proof
end

