-- ==== Sys2Proof/Machine/Maps.lean ====
section
/-! DEFINITION. Sparse maps from a natural key to data, kept as lists with strictly rising keys. -/

namespace Sys2Proof.Machine

/-- A sparse map: pairs of a key and a value, the keys strictly rising. -/
abbrev SMap (α : Type) := List (Nat × α)

/-- The value at a key, if the map lists one. -/
def SMap.find? {α : Type} : SMap α → Nat → Option α
  | [], _ => none
  | (k', v) :: rest, k => if k = k' then some v else SMap.find? rest k

/-- The value at a key, `d` where the map lists none. -/
def SMap.getD {α : Type} (m : SMap α) (k : Nat) (d : α) : α := (SMap.find? m k).getD d

/-- Whether the map lists a key. -/
def SMap.has {α : Type} (m : SMap α) (k : Nat) : Bool := (SMap.find? m k).isSome

/-- The map with `v` at `k`, its keys still rising. -/
def SMap.set {α : Type} : SMap α → Nat → α → SMap α
  | [], k, v => [(k, v)]
  | (k', v') :: rest, k, v =>
    if k < k' then (k, v) :: (k', v') :: rest
    else if k = k' then (k, v) :: rest
    else (k', v') :: SMap.set rest k v

/-- The map without the key `k`. -/
def SMap.del {α : Type} : SMap α → Nat → SMap α
  | [], _ => []
  | (k', v') :: rest, k => if k = k' then rest else (k', v') :: SMap.del rest k

/-- The map with `v` at `k`, where an unlisted key means `d`: writing `d` removes the entry, so that equal maps are
equal data. -/
def SMap.put {α : Type} [DecidableEq α] (d : α) (m : SMap α) (k : Nat) (v : α) : SMap α :=
  if v = d then SMap.del m k else SMap.set m k v

/-- The map with `f` applied to the value at `k`, where it lists one. -/
def SMap.modify {α : Type} (m : SMap α) (k : Nat) (f : α → α) : SMap α :=
  match SMap.find? m k with
  | some v => SMap.set m k (f v)
  | none => m

/-- The map with `f` applied to the value at `k`, an unlisted one taken as `d`. -/
def SMap.update {α : Type} [DecidableEq α] (d : α) (m : SMap α) (k : Nat) (f : α → α) : SMap α :=
  SMap.put d m k (f (SMap.getD m k d))

/-- The entries whose key and value meet a test. -/
def SMap.keep {α : Type} (p : Nat → α → Bool) (m : SMap α) : SMap α := List.filter (fun e => p e.1 e.2) m

/-- Every value mapped. -/
def SMap.mapVal {α : Type} (f : Nat → α → α) (m : SMap α) : SMap α := List.map (fun e => (e.1, f e.1 e.2)) m

/-- The keys, rising. -/
def SMap.keys {α : Type} (m : SMap α) : List Nat := List.map Prod.fst m

/-- One more than the greatest key: a key the map does not list. -/
def SMap.fresh {α : Type} (m : SMap α) : Nat := List.foldl (fun a e => Nat.max a (e.1 + 1)) 0 m

/-- The canonical form: strictly rising keys. -/
def SMap.rising {α : Type} : SMap α → Bool
  | [] => true
  | [_] => true
  | (k, _) :: (k', v') :: rest => decide (k < k') && SMap.rising ((k', v') :: rest)

/-- The canonical form of a map whose unlisted keys mean `d`. -/
def SMap.wf {α : Type} [DecidableEq α] (d : α) (m : SMap α) : Bool :=
  SMap.rising m && List.all m fun e => decide (e.2 ≠ d)

/-- The first entry that meets a test. -/
def SMap.first? {α : Type} (m : SMap α) (p : Nat → α → Bool) : Option (Nat × α) := List.find? (fun e => p e.1 e.2) m

/-- Element `i` of a list replaced; the list as it is where it has no such element. -/
def setAt {α : Type} : List α → Nat → α → List α
  | [], _, _ => []
  | _ :: xs, 0, v => v :: xs
  | x :: xs, i + 1, v => x :: setAt xs i v

/-- Element `i` of a list of words, zero beyond its end. -/
def wordAt (l : List Nat) (i : Nat) : Nat := l.getD i 0

end Sys2Proof.Machine
end

