-- ==== Sys2Proof/Machine/Counters.lean ====
section
/-! DEFINITION. The 64-bit counters of R515 to R517: the group and index of each, by name, from the counter lists of
R99, R134, R167, R191, R228, R269, R301, R343, R372, R399, R437, R472, R512, R541 and R567. -/

namespace Sys2Proof.Machine

/-- A counter's place: its group code and its index in the group (R515). -/
structure CtrId where
  group : Nat
  index : Nat
  deriving DecidableEq, Repr

/-- A counter: its value and its saturation flag (R517). -/
structure CtrVal where
  value : Nat
  sat : Bool
  deriving DecidableEq, Repr

/-- The value a counter never passes (R517). -/
def ctrTop : Nat := 2 ^ 64 - 1

/-- The map key of a counter: the groups' index ranges stand one after another. -/
def CtrId.key (c : CtrId) : Nat := c.group * 2 ^ 20 + c.index

/-- The number of counter slots of a group (R515). -/
def ctrSlots (group : Nat) : Nat :=
  match group with
  | 0 => 256 * 64
  | 1 => 32 * 8192
  | 2 => 32 * 64
  | 3 => 2048
  | _ => 0

/-- A counter of a port. -/
abbrev portCtr (port off : Nat) : CtrId := ⟨0, 64 * port + off⟩
/-- A counter of a pipeline. -/
abbrev pipeCtr (n off : Nat) : CtrId := ⟨1, 8192 * n + off⟩
/-- A counter of a shard. -/
abbrev shardCtr (k off : Nat) : CtrId := ⟨2, 64 * k + off⟩
/-- A counter of the global group. -/
abbrev globCtr (off : Nat) : CtrId := ⟨3, off⟩

namespace C

/-! Port (R515, R516): PORT counters of R99. -/

abbrev rxFramesOk (port : Nat) : CtrId := portCtr port 0
abbrev rxOctetsOk (port : Nat) : CtrId := portCtr port 1
abbrev txFrames (port : Nat) : CtrId := portCtr port 2
abbrev txOctets (port : Nat) : CtrId := portCtr port 3
abbrev rxRunt (port : Nat) : CtrId := portCtr port 4
abbrev rxOversize (port : Nat) : CtrId := portCtr port 5
abbrev rxFcsErr (port : Nat) : CtrId := portCtr port 6
abbrev rxErrorBlock (port : Nat) : CtrId := portCtr port 7
abbrev rxStompSeen (port : Nat) : CtrId := portCtr port 8
abbrev rxCtBad (port : Nat) : CtrId := portCtr port 9
abbrev txStomped (port : Nat) : CtrId := portCtr port 10
abbrev txUnderrun (port : Nat) : CtrId := portCtr port 11
abbrev txCtDropPrestart (port : Nat) : CtrId := portCtr port 12
abbrev txLinkAbort (port : Nat) : CtrId := portCtr port 13
abbrev rxPause (port : Nat) : CtrId := portCtr port 14
abbrev txPause (port : Nat) : CtrId := portCtr port 15
abbrev rxMacCtrlOther (port : Nat) : CtrId := portCtr port 16
abbrev rxPfcClass (port i : Nat) : CtrId := portCtr port (17 + i)
abbrev txPfcClass (port i : Nat) : CtrId := portCtr port (25 + i)
abbrev pfcWdDrop (port : Nat) : CtrId := portCtr port 33
abbrev fecCorrCw (port : Nat) : CtrId := portCtr port 34
abbrev fecUncorrCw (port : Nat) : CtrId := portCtr port 35
abbrev tcSkip (port : Nat) : CtrId := portCtr port 36

/-! Port: IQM port counters of R343. -/

abbrev iqmIngressFull (port : Nat) : CtrId := portCtr port 37
abbrev qDropThresh (port : Nat) : CtrId := portCtr port 38
abbrev qDropEntries (port : Nat) : CtrId := portCtr port 39
abbrev qDropBuffer (port : Nat) : CtrId := portCtr port 40
abbrev qDropAge (port : Nat) : CtrId := portCtr port 41
abbrev qDropEcc (port : Nat) : CtrId := portCtr port 42

/-! Port: EGS port counters of R372. -/

abbrev gateNofit (port : Nat) : CtrId := portCtr port 43
abbrev frerEliminated (port : Nat) : CtrId := portCtr port 44
abbrev txClassFrames (port i : Nat) : CtrId := portCtr port (45 + i)

/-! Pipeline: PRS of R134. -/

abbrev prsTruncated (n : Nat) : CtrId := pipeCtr n 0
abbrev prsConflict (n : Nat) : CtrId := pipeCtr n 1
abbrev prsConflictLate (n : Nat) : CtrId := pipeCtr n 2
abbrev prsUnmatched (n : Nat) : CtrId := pipeCtr n 3
abbrev prsFrag (n : Nat) : CtrId := pipeCtr n 4
abbrev prsNoFlowKey (n : Nat) : CtrId := pipeCtr n 5
abbrev prsEccDrop (n : Nat) : CtrId := pipeCtr n 6
abbrev prsTrapDrop (n : Nat) : CtrId := pipeCtr n 7
abbrev prsScanCycles (n : Nat) : CtrId := pipeCtr n 8

/-! Pipeline: CLS of R167. -/

abbrev clsEmHit (n : Nat) : CtrId := pipeCtr n 16
abbrev clsEmMiss (n : Nat) : CtrId := pipeCtr n 17
abbrev clsDeny (n : Nat) : CtrId := pipeCtr n 18
abbrev clsRouteMiss (n : Nat) : CtrId := pipeCtr n 19
abbrev clsL2Flood (n : Nat) : CtrId := pipeCtr n 20
abbrev clsLearnSent (n : Nat) : CtrId := pipeCtr n 21
abbrev clsLearnSuppressed (n : Nat) : CtrId := pipeCtr n 22
abbrev clsLearnDrop (n : Nat) : CtrId := pipeCtr n 23
abbrev clsProfileNotMember (n : Nat) : CtrId := pipeCtr n 24
abbrev clsRecircPassDrop (n : Nat) : CtrId := pipeCtr n 25
abbrev clsRecircAgeDrop (n : Nat) : CtrId := pipeCtr n 26
abbrev clsEpochLateDrop (n : Nat) : CtrId := pipeCtr n 27
abbrev clsEpochNoop (n : Nat) : CtrId := pipeCtr n 28
abbrev clsEccDrop (n : Nat) : CtrId := pipeCtr n 29
abbrev clsNoFwd (n : Nat) : CtrId := pipeCtr n 30

/-! Pipeline: MSK of R191. -/

abbrev mskHit (n : Nat) : CtrId := pipeCtr n 32
abbrev mskMiss (n : Nat) : CtrId := pipeCtr n 33
abbrev mskMultiMatch (n : Nat) : CtrId := pipeCtr n 34
abbrev mskBankSearches (n : Nat) : CtrId := pipeCtr n 35
abbrev mskScrubFix (n : Nat) : CtrId := pipeCtr n 36
abbrev mskEccDrop (n : Nat) : CtrId := pipeCtr n 37

/-! Pipeline: RIG of R301. -/

abbrev rigPackets (n : Nat) : CtrId := pipeCtr n 48
abbrev rigBypass (n : Nat) : CtrId := pipeCtr n 49
abbrev rigCycles (n : Nat) : CtrId := pipeCtr n 50
abbrev rigTcallWait (n : Nat) : CtrId := pipeCtr n 51
abbrev rigReplay (n : Nat) : CtrId := pipeCtr n 52
abbrev rigReplayDrop (n : Nat) : CtrId := pipeCtr n 53
abbrev rigOverrun (n : Nat) : CtrId := pipeCtr n 54
abbrev rigMchkDrop (n : Nat) : CtrId := pipeCtr n 55
abbrev rigRestartDrop (n : Nat) : CtrId := pipeCtr n 56
abbrev rigRoWrite (n : Nat) : CtrId := pipeCtr n 57
abbrev rigSpliceFault (n : Nat) : CtrId := pipeCtr n 58
abbrev rigEpNotMember (n : Nat) : CtrId := pipeCtr n 59
abbrev rigPolYellow (n : Nat) : CtrId := pipeCtr n 60
abbrev rigPolRed (n : Nat) : CtrId := pipeCtr n 61
abbrev rigPolBadprof (n : Nat) : CtrId := pipeCtr n 62

/-! Pipeline: IQM of R343. -/

abbrev iqmAdmitFrames (n : Nat) : CtrId := pipeCtr n 64
abbrev iqmAdmitCells (n : Nat) : CtrId := pipeCtr n 65
abbrev iqmRefused (n : Nat) : CtrId := pipeCtr n 66
abbrev iqmArrivalDrop (n : Nat) : CtrId := pipeCtr n 67
abbrev iqmHeadroomDrop (n : Nat) : CtrId := pipeCtr n 68
abbrev iqmAgeDrop (n i : Nat) : CtrId := pipeCtr n (69 + i)
abbrev iqmCtFrames (n : Nat) : CtrId := pipeCtr n 77
abbrev iqmCtDenied (n : Nat) : CtrId := pipeCtr n 78
abbrev iqmMcFrames (n : Nat) : CtrId := pipeCtr n 79
abbrev iqmMcPartial (n : Nat) : CtrId := pipeCtr n 80
abbrev iqmRecirc (n : Nat) : CtrId := pipeCtr n 81
abbrev iqmRecircDrop (n : Nat) : CtrId := pipeCtr n 82
abbrev iqmSamples (n : Nat) : CtrId := pipeCtr n 83
abbrev iqmTraps (n : Nat) : CtrId := pipeCtr n 84
abbrev iqmCopyRateDrop (n : Nat) : CtrId := pipeCtr n 85
abbrev iqmCopyNobuf (n : Nat) : CtrId := pipeCtr n 86
abbrev iqmCopyRingDrop (n : Nat) : CtrId := pipeCtr n 87
abbrev iqmMirrorCopies (n : Nat) : CtrId := pipeCtr n 88
abbrev iqmMirrorDrop (n : Nat) : CtrId := pipeCtr n 89
abbrev iqmMirrorTrunc (n : Nat) : CtrId := pipeCtr n 90
abbrev iqmRestartDrop (n : Nat) : CtrId := pipeCtr n 91

/-! Pipeline: EGS of R372. -/

abbrev egsTtlDrop (n : Nat) : CtrId := pipeCtr n 96
abbrev egsMtuDrop (n : Nat) : CtrId := pipeCtr n 97
abbrev egsRewriteDrop (n : Nat) : CtrId := pipeCtr n 98
abbrev nhBackupDown (n : Nat) : CtrId := pipeCtr n 99
abbrev nhFailovers (n : Nat) : CtrId := pipeCtr n 100

/-! Pipeline: RIG_PROG of R301. -/

abbrev rigProg (n i : Nat) : CtrId := pipeCtr n (4096 + i)

/-! Shard: FST of R228. -/

abbrev fstLookups (k : Nat) : CtrId := shardCtr k 0
abbrev fstHits (k : Nat) : CtrId := shardCtr k 1
abbrev fstMisses (k : Nat) : CtrId := shardCtr k 2
abbrev fstFullMisses (k : Nat) : CtrId := shardCtr k 3
abbrev fstRecordHops (k : Nat) : CtrId := shardCtr k 4
abbrev fstMqOverflow (k : Nat) : CtrId := shardCtr k 5
abbrev fstMqOverflowChained (k : Nat) : CtrId := shardCtr k 6
abbrev fstSetupCapOverflow (k : Nat) : CtrId := shardCtr k 7
abbrev fstKicks (k : Nat) : CtrId := shardCtr k 8
abbrev fstStashInserts (k : Nat) : CtrId := shardCtr k 9
abbrev fstInsertNospace (k : Nat) : CtrId := shardCtr k 10
abbrev fstEvictWb (k : Nat) : CtrId := shardCtr k 11
abbrev fstAgedIdle (k : Nat) : CtrId := shardCtr k 12
abbrev fstAgedOpening (k : Nat) : CtrId := shardCtr k 13
abbrev fstAgedClosing (k : Nat) : CtrId := shardCtr k 14
abbrev fstAgedOrphan (k : Nat) : CtrId := shardCtr k 15
abbrev fstAgeKept (k : Nat) : CtrId := shardCtr k 16
abbrev fstSweepOverrun (k : Nat) : CtrId := shardCtr k 17
abbrev fstPoisonRetired (k : Nat) : CtrId := shardCtr k 18
abbrev fstLeanDiscard (k : Nat) : CtrId := shardCtr k 19

/-! Shard: setup and transactions of R269. -/

abbrev fstSetupNone (k : Nat) : CtrId := shardCtr k 32
abbrev fstSetupFast (k : Nat) : CtrId := shardCtr k 33
abbrev fstSetupFw (k : Nat) : CtrId := shardCtr k 34
abbrev fstSetupBadEnd (k : Nat) : CtrId := shardCtr k 35
abbrev fstSetupPickupDrop (k : Nat) : CtrId := shardCtr k 36
abbrev fstSetupFwTimeout (k : Nat) : CtrId := shardCtr k 37
abbrev fstSetupNoheap (k : Nat) : CtrId := shardCtr k 38
abbrev fstSetupNatFail (k : Nat) : CtrId := shardCtr k 39
abbrev fstNatHoldShort (k : Nat) : CtrId := shardCtr k 40
abbrev txCommit (k : Nat) : CtrId := shardCtr k 41
abbrev txConflict (k : Nat) : CtrId := shardCtr k 42
abbrev txConflictDebug (k : Nat) : CtrId := shardCtr k 43
abbrev txTimeout (k : Nat) : CtrId := shardCtr k 44
abbrev txCondFail (k : Nat) : CtrId := shardCtr k 45
abbrev txFault (k : Nat) : CtrId := shardCtr k 46

/-! Global: BPM of R269. -/

abbrev bpmRemoteAlloc : CtrId := globCtr 0
abbrev bpmFallback (i : Nat) : CtrId := globCtr (1 + i)
abbrev bpmCtrlFallback (i : Nat) : CtrId := globCtr (4 + i)
abbrev bpmRaceLost : CtrId := globCtr 7
abbrev bpmRecall : CtrId := globCtr 8
abbrev bpmBadHandle : CtrId := globCtr 9
abbrev bpmRefcountFull : CtrId := globCtr 10

/-! Global: FAB of R343. -/

abbrev fabCellsFa : CtrId := globCtr 16
abbrev fabCellsAf : CtrId := globCtr 17
abbrev fabEccBad : CtrId := globCtr 18

/-! Global: RED of R372. -/

abbrev redAlarms : CtrId := globCtr 24

/-! Global: CRD of R437. -/

abbrev crdThreadFaults : CtrId := globCtr 32
abbrev crdBecalmed : CtrId := globCtr 33
abbrev crdBecalmedRestarts : CtrId := globCtr 34
abbrev crdTakeovers : CtrId := globCtr 35
abbrev crdFenceRejects : CtrId := globCtr 36
abbrev crdSelftestPasses : CtrId := globCtr 37
abbrev crdHealthFails : CtrId := globCtr 38
abbrev crdKickMisses : CtrId := globCtr 39
abbrev crdEccCorr : CtrId := globCtr 40

/-! Global: CNT and EXP of R541. -/

abbrev cntSnapSkipped : CtrId := globCtr 48
abbrev expRecords : CtrId := globCtr 49
abbrev expMessages : CtrId := globCtr 50
abbrev expTemplateMsgs : CtrId := globCtr 51
abbrev expDropNobuf : CtrId := globCtr 52
abbrev expDropDest : CtrId := globCtr 53
abbrev expNoTemplate : CtrId := globCtr 54
abbrev expWindowShort : CtrId := globCtr 55
abbrev expClearRetry : CtrId := globCtr 56

/-! Global: rings of R472. -/

abbrev ringRecords (i : Nat) : CtrId := globCtr (128 + i)
abbrev ringDrops (i : Nat) : CtrId := globCtr (192 + i)

/-! Global: MCX of R399. -/

abbrev mcxCe (i : Nat) : CtrId := globCtr (256 + i)
abbrev mcxUe (i : Nat) : CtrId := globCtr (448 + i)
abbrev mcxNrefresh (i : Nat) : CtrId := globCtr (640 + i)
abbrev mcxFreezes (i : Nat) : CtrId := globCtr (646 + i)
abbrev mcxHeldReq (i : Nat) : CtrId := globCtr (652 + i)
abbrev mcxTrainWindows (i : Nat) : CtrId := globCtr (658 + i)
abbrev mcxFurlAbandon (i : Nat) : CtrId := globCtr (664 + i)

/-! Global: FLT and LOG of R512. -/

abbrev fltFaults (i : Nat) : CtrId := globCtr (768 + i)
abbrev fltRecoveryReef (i : Nat) : CtrId := globCtr (773 + i)
abbrev fltRecoveryBare (i : Nat) : CtrId := globCtr (1029 + i)
abbrev fltNotifySuppressed : CtrId := globCtr 1285
abbrev fltShardRestartDrop (i : Nat) : CtrId := globCtr (1286 + i)
abbrev fltBarepolesDrop : CtrId := globCtr 1318
abbrev fltProtDropTagged : CtrId := globCtr 1319
abbrev fltProtDropUntagged : CtrId := globCtr 1320
abbrev logRecords : CtrId := globCtr 1321

/-! Global: STK of R567. -/

abbrev stkRemoteReq : CtrId := globCtr 1536
abbrev stkRemoteDefer : CtrId := globCtr 1537
abbrev stkRemoteGiveup : CtrId := globCtr 1538
abbrev stkSplitFail : CtrId := globCtr 1539
abbrev stkFenceReject : CtrId := globCtr 1540
abbrev stkTakeovers : CtrId := globCtr 1541
abbrev stkLinkDown (i : Nat) : CtrId := globCtr (1542 + i)
abbrev stkLinkFecCorr (i : Nat) : CtrId := globCtr (1546 + i)
abbrev stkLinkFecUncorr (i : Nat) : CtrId := globCtr (1550 + i)
abbrev stkFramesRx (i : Nat) : CtrId := globCtr (1554 + i)
abbrev stkRemoteUnreach : CtrId := globCtr 1558

end C

end Sys2Proof.Machine
end

