-- ==== Sys2Proof/Machine/Parts/Boot.lean ====
section
/-! DEFINITION. Resets, fuses, the boot NOR's image slots, boot, debug unlock, firmware update and the supply (chapters 18
and 19), beyond what the SYS registers show. -/

namespace Sys2Proof.Machine

/-- What the fuses hold (R573, R581, R598): the image security version floor, whether only the owner's key counts, whether
key slot 1 is programmed, whether the debug port is open, each core rail's target in mV, and the manufacturer identity. -/
structure Fuses where
  minSecver : Nat
  ownerOnly : Bool
  slot1 : Bool
  debugOpen : Bool
  railFore : Nat
  railAft : Nat
  manufacturer : Nat
  deriving DecidableEq, Repr

/-- An image slot of the boot NOR (R571, R572): its slot record, the image's bytes, and the outcome of its signature check:
0 it fails, 1 it verifies against the key of fuse slot 0, 2 of slot 1. -/
structure NorSlot where
  committed : Bool
  updateSeq : Nat
  length : Nat
  image : List Nat
  key : Nat
  deriving DecidableEq, Repr

/-- An erased slot. -/
def NorSlot.empty : NorSlot := ⟨false, 0, 0, [], 0⟩

/-- A firmware update that runs (R583): the command that waits for it, the slot its image was written to, the version word
it brings and the active cores still to rotate out. -/
structure FwUpdate where
  mbx : Nat
  cid : Nat
  noIrq : Bool
  slot : Nat
  version : Nat
  cores : List Nat
  deriving DecidableEq, Repr

/-- Bring-up. -/
structure BootPart where
  /-- The rails are up. -/
  powered : Bool
  /-- This boot follows a power-on reset. -/
  cold : Bool
  /-- THERMTRIP_N is asserted and everything but the always-on domains held in reset (R603). -/
  tripped : Bool
  fuses : Fuses
  slotA : NorSlot
  slotB : NorSlot
  /-- The slot that booted or is booting: 0 A, 1 B. -/
  bootSlot : Nat
  /-- The slot that a watchdog reset has the ROM try first (R576). -/
  prefer : Option Nat
  /-- Boots of a slot in succession that the watchdog ended, by slot (R576). -/
  watchdogs : SMap Nat
  /-- Ticks at the start of state 4, while the watchdog runs. -/
  watchAt : Option Nat
  /-- The ROM waits for an image on host mailbox 0 (R575). -/
  recovery : Bool
  /-- Slots that failed R573 in this boot, by bit (R573). -/
  badSlots : Nat
  /-- The code bank the cores run from (R578), and the firmware version word of each core (R583, R584). -/
  bank : Nat
  coreFw : SMap Nat
  update : Option FwUpdate
  /-- The outstanding debug nonce, four words, and the ticks at which it was given (R582). -/
  nonce : Option (List Nat × Nat)
  unlockFails : Nat
  /-- The core rails' targets in mV, and the ticks of their last corrections (R598). -/
  railFore : Nat
  railAft : Nat
  railForeAt : Nat
  railAftAt : Nat
  deriving DecidableEq, Repr

/-- After a power-on reset with blank fuses and an erased NOR, both of the model's choice (log entries 150, 151). -/
def BootPart.reset : BootPart where
  powered := true
  cold := true
  tripped := false
  fuses := ⟨0, false, false, false, 800, 800, 0⟩
  slotA := NorSlot.empty
  slotB := NorSlot.empty
  bootSlot := 0
  prefer := none
  watchdogs := []
  watchAt := none
  recovery := false
  badSlots := 0
  bank := 0
  coreFw := []
  update := none
  nonce := none
  unlockFails := 0
  railFore := 800
  railAft := 800
  railForeAt := 0
  railAftAt := 0

end Sys2Proof.Machine
end

