-- ==== Sys2Proof/Machine/Parts/Classify.lean ====
section
/-! DEFINITION. Classification's own state (chapter 5): rule and forwarding tables, flow profiles, epochs, learning. Both
dies hold identical copies, so each table stands once; damage is marked by die. -/

namespace Sys2Proof.Machine

/-- A logical rule table's declaration (R139, R140). -/
structure EmTable where
  wide : Bool
  keyUnits : Nat
  deriving DecidableEq, Repr

/-- A rule entry (R145): key bytes, four action words and the 40 bytes of a wide entry passed to the rig. -/
structure RuleEntry where
  wide : Bool
  table : Nat
  keyUnits : Nat
  ep0 : Bool
  ep1 : Bool
  hit : Bool
  key : List Nat
  action : List Nat
  data : List Nat
  deriving DecidableEq, Repr

/-- An L2 entry (R150). The two step marks say that a die's ager has still to restart its idle time after a time step
(R154). -/
structure L2Entry where
  vlan : Nat
  mac : Nat
  port : Nat
  isStatic : Bool
  lastSeen : Nat
  stepFore : Bool
  stepAft : Bool
  deriving DecidableEq, Repr

/-- A host route or LPM prefix (R147): `plen` is the address length for a host route. -/
structure Route where
  vrf : Nat
  v6 : Bool
  addr : Nat
  plen : Nat
  fwdOp : Nat
  target : Nat
  deriving DecidableEq, Repr

/-- A next hop (R147). -/
structure NextHop where
  port : Nat
  rewrite : Nat
  backup : Nat
  backupValid : Bool
  deriving DecidableEq, Repr

/-- An ECMP group (R147, R149). -/
structure EcmpGroup where
  base : Nat
  count : Nat
  hashSel : Nat
  deriving DecidableEq, Repr

/-- A port's classification settings (R604). -/
structure ClsPort where
  vrf : Nat
  vlan : Nat
  unknownSa : Nat
  staticMove : Nat
  deriving DecidableEq, Repr

/-- A triple of a learn filter and when its event was sent (R152). -/
structure LearnSeen where
  vlan : Nat
  mac : Nat
  port : Nat
  at_ : Nat
  deriving DecidableEq, Repr

/-- A swap that has been requested and has not reached its instant (R160). -/
structure SwapReq where
  target : Nat
  at_ : Nat
  /-- It swaps every member of the stack (R562). -/
  stack : Bool
  cmd : Option (Nat × Nat)
  deriving DecidableEq, Repr

/-- A swap held by a drain (R164). -/
structure HeldSwap where
  target : Nat
  stack : Bool
  cmd : Option (Nat × Nat)
  deriving DecidableEq, Repr

/-- The drain that runs (R161): the old epoch, the swap instant, whether the swap was late and whether it is stack-wide. -/
structure Drain where
  old : Nat
  at_ : Nat
  late : Bool
  stack : Bool
  /-- The command that waits for it. -/
  cmd : Option (Nat × Nat)
  deriving DecidableEq, Repr

/-- Classification's tables and epochs. -/
structure ClassifyPart where
  classProf : SMap Nat
  flowProf : SMap (List Nat)
  /-- Live flow records per profile (R157). -/
  liveCount : SMap Nat
  emTables : SMap EmTable
  /-- Rule entries by slot, 4 × bucket + slot; the stash follows at 262,144 (R139, R143). -/
  em : SMap RuleEntry
  /-- L2 entries by slot; the stash follows at 1,048,576. -/
  l2 : SMap L2Entry
  /-- Router MAC entries: MAC, and the VLAN or none for any (R147). -/
  routerMacs : List (Nat × Option Nat)
  /-- Host routes by slot; the stash follows at 2,097,152. -/
  hostRoutes : SMap Route
  lpm : List Route
  nextHops : SMap NextHop
  ecmpGroups : SMap EcmpGroup
  ecmpMembers : SMap Nat
  ports : SMap ClsPort
  /-- Damaged entries: die, table as CLS_ECC_CAPTURE numbers it, index (R155). -/
  damaged : List (Nat × Nat × Nat)
  /-- Learn filters by pipeline, newest first, at most 1,024 each (R152). -/
  learnFilter : SMap (List LearnSeen)
  /-- Learn notifications sent in the running millisecond, by pipeline: the millisecond and the count. -/
  learnSent : SMap (Nat × Nat)
  /-- The rule seed that firmware draws at initialisation (R140). -/
  ruleSeed : Nat
  l2AgeTime : Nat
  l2SweepPeriod : Nat
  /-- A swap waiting for its instant, and the swaps held by a drain, in firing order (R160, R164, R562). -/
  pendingSwap : List SwapReq
  heldSwaps : List HeldSwap
  drain : Option Drain
  deriving DecidableEq, Repr

/-- What a port has before cls.port_config names it (R604). -/
def ClsPort.reset : ClsPort := ⟨0, 1, 0, 0⟩

/-- After reset the tables are empty and epoch 0 is active. -/
def ClassifyPart.reset : ClassifyPart where
  classProf := []
  flowProf := []
  liveCount := []
  emTables := []
  em := []
  l2 := []
  routerMacs := []
  hostRoutes := []
  lpm := []
  nextHops := []
  ecmpGroups := []
  ecmpMembers := []
  ports := []
  damaged := []
  learnFilter := []
  learnSent := []
  ruleSeed := 0
  l2AgeTime := 300
  l2SweepPeriod := 10
  pendingSwap := []
  heldSwaps := []
  drain := none

end Sys2Proof.Machine
end

