-- ==== Sys2Proof/Machine/Parts/Count.lean ====
section
/-! DEFINITION. Snapshot banks, bandwidth windows, telemetry export and the life monitor (chapter 16). The live
counters stand in State itself; what the CNT and LIFE registers show stands in the register file. -/

namespace Sys2Proof.Machine

/-- A snapshot that has been requested and has not reached its instant (R520). -/
structure SnapReq where
  bank : Nat
  groups : Nat
  /-- The instant, in nanoseconds of network time. -/
  at_ : Nat
  /-- The cnt.snapshot that waits for it: mailbox, tag, no_irq; none for a register request. -/
  cmd : Option (Nat × Nat × Bool)
  stack : Bool
  deriving DecidableEq, Repr

/-- A requested clear, its instant and its command (R522). -/
structure ClearReq where
  groups : Nat
  at_ : Nat
  cmd : Nat × Nat × Bool
  deriving DecidableEq, Repr

/-- One direction of a bandwidth window: octets counted, of the running sub-window, and the greatest sub-window. -/
structure BwDir where
  octets : Nat
  sub : Nat
  peak : Nat
  deriving DecidableEq, Repr

/-- A port's bandwidth window (R525, R526). -/
structure BwWindow where
  code : Nat
  /-- Network time in nanoseconds at which the covered span and the running sub-window began. -/
  start : Nat
  subStart : Nat
  rx : BwDir
  tx : BwDir
  partial_ : Bool
  unlocked : Bool
  stepped : Bool
  /-- The latest completed window: result words and detail word. -/
  latest : Option (List Nat × Nat)
  deriving DecidableEq, Repr

/-- A template set (R528). -/
structure TmplSet where
  collector : Nat
  slots : List TmplSlot
  deriving DecidableEq, Repr

/-- A message in building for a collector (R529): its control buffer, its sets as template ID and record bytes, its size
so far, its records, and the network time in nanoseconds of its first record. -/
structure ExpMessage where
  buf : Nat
  sets : List (Nat × List Nat)
  size : Nat
  records : Nat
  first : Nat
  deriving DecidableEq, Repr

/-- A record queued for export: its handle, template set, flowEndReason, and whether its removal queued it (R530,
R531). -/
structure ExpRecord where
  handle : Nat
  set : Nat
  reason : Nat
  isEnd : Bool
  deriving DecidableEq, Repr

/-- A template set's export window and the cursor of its walk (R531): shard and block next visited. -/
structure ExpWindow where
  open_ : Bool
  endAt : Nat
  cursorShard : Nat
  cursorBlock : Nat
  /-- A walk is unfinished. -/
  walking : Bool
  deriving DecidableEq, Repr

/-- One wear source (R535). Values: sensors in 0.001 %, pseudo-channels errors per 24 h, lanes in 0.001 % of the
baseline, sectors and thermal cycles counts. -/
structure WearSource where
  /-- The samples its model is fitted to: cumulative hour and value, newest first. -/
  samples : List (Nat × Int)
  /-- The first sample of a sensor, the baseline of a lane. -/
  base : Option Int
  /-- The samples of a sensor's running hour; the margins of a lane's first 24 h. -/
  part : List Int
  /-- A lane's rate code, and the cumulative hour its history began at. -/
  rate : Nat
  start : Nat
  /-- A pseudo-channel's error count at its last sample. -/
  last : Nat
  /-- Elapsed ticks from which its next sample is due. -/
  due : Nat
  /-- The latest prediction; 0xFFFF before the first. -/
  months : Nat
  exceeded : Bool
  /-- Cumulative hour of its last alarm. -/
  lastAlarm : Option Nat
  deriving DecidableEq, Repr

/-- A source without a history. -/
def WearSource.empty : WearSource := ⟨[], none, [], 0, 0, 0, 0, 0xFFFF, false, none⟩

/-- A wear-accumulator slot of the boot NOR (R539). -/
structure AccSlot where
  committed : Bool
  magic : Bool
  crcGood : Bool
  seq : Nat
  hours : Nat
  cycles : Nat
  loss : Nat
  service : Nat
  bootCount : Nat
  sources : SMap WearSource
  deriving DecidableEq, Repr

/-- Snapshots, bandwidth windows, export and life. -/
structure CountPart where
  /-- The two shadow banks: the values captured, by counter key (R518). -/
  bank0 : SMap CtrVal
  bank1 : SMap CtrVal
  /-- By bank: the snapshot that is CAPTURING and its capture latches (R519). -/
  latches : SMap (SnapReq × SMap CtrVal)
  snaps : List SnapReq
  clears : List ClearReq
  /-- Bandwidth windows by port (R525). -/
  windows : SMap BwWindow
  tmplSets : SMap TmplSet
  collectors : SMap Collector
  expEnabled : Bool
  expInterval : Nat
  expDefaultSet : Nat
  msgMax : Nat
  enterprise : Nat
  expQueue : List ExpRecord
  expWindows : SMap ExpWindow
  expMessages : SMap ExpMessage
  /-- Data records each collector's domain has sent (R529). -/
  expSeq : SMap Nat
  templatesAt : Nat
  /-- Control buffers of the queue (R534). -/
  expQueueBufs : List Nat
  /-- Records whose last export carried flowEndReason 3 (R530). -/
  expLast3 : List Nat
  /-- Wear sources, keyed as arg0 of R538. -/
  sources : SMap WearSource
  /-- Cumulative hours restored at boot (R539). -/
  bootHours : Nat
  /-- Cumulative hours at the last prediction and at the last accumulator write. -/
  lastPrediction : Nat
  lastAccWrite : Nat
  accSlots : SMap AccSlot
  /-- Erase counts of the boot NOR's sectors (R535, R539). -/
  norErases : SMap Nat
  /-- The running extreme of the thermal-cycle count (R535): falling phase and the extreme temperature in it. -/
  thermalFalling : Bool
  thermalExtreme : Int
  deriving DecidableEq, Repr

/-- After reset both banks are INVALID and empty, and no window, set, collector or source is set up. -/
def CountPart.reset : CountPart where
  bank0 := []
  bank1 := []
  latches := []
  snaps := []
  clears := []
  windows := []
  tmplSets := []
  collectors := []
  expEnabled := false
  expInterval := 0
  expDefaultSet := 0
  msgMax := 1400
  enterprise := 0
  expQueue := []
  expWindows := []
  expMessages := []
  expSeq := []
  templatesAt := 0
  expQueueBufs := []
  expLast3 := []
  sources := []
  bootHours := 0
  lastPrediction := 0
  lastAccWrite := 0
  accSlots := []
  norErases := []
  thermalFalling := true
  thermalExtreme := 0

end Sys2Proof.Machine
end

