-- ==== Sys2Proof/Machine/Parts/Criod.lean ====
section
/-! DEFINITION. The Criod complex (chapter 13), beyond what the CRD registers show. Cores are 0 to 3, threads 0 to 63 as
16 × core + thread (R401); local channels are 64 × core to 64 × core + 63, cross-core channels 256 to 319 (R410). -/

namespace Sys2Proof.Machine

/-- A thread (R402, R409, R415, R424). -/
structure Thread where
  /-- The mask it waits with, while it is in wait-for-event. -/
  wait : Option Nat
  /-- Latched sources. -/
  latched : Nat
  /-- The bits its last wait-for-event returned. -/
  woke : Nat
  /-- arg1 of the last kind-7 firing that named it. -/
  wakeWord : Nat
  halted : Bool
  /-- Debug hold (R426). -/
  hold : Bool
  /-- It serves tasks (R415). -/
  serves : Bool
  /-- Its next-task slot, its running task and the ticks at which that began. -/
  next : Option Nat
  running : Option Nat
  runStart : Nat
  /-- The message its last channel read returned. -/
  message : List Nat
  deriving DecidableEq, Repr

/-- A thread that firmware has not set. -/
def Thread.reset : Thread := ⟨none, 0, 0, 0, false, false, false, none, none, 0, []⟩

/-- A channel (R410 to R412): its ends, its complete messages oldest first, its partial message, and the writes that stall
its writer, each with whether it is an END write. -/
structure Channel where
  writer : Nat
  reader : Nat
  messages : List (List Nat)
  part : List Nat
  stalled : List (Nat × Bool)
  deriving DecidableEq, Repr

/-- The states of a task; a task not listed is free (R414). -/
inductive TaskPhase where
  | ready
  | running
  | delayed
  | waiting
  deriving DecidableEq, Repr

/-- A task (R414): its level, affinity core, run budget in microseconds and state. -/
structure Task where
  level : Nat
  core : Nat
  budget : Nat
  phase : TaskPhase
  deriving DecidableEq, Repr

/-- An entry of a commit journal (R432): generation, result, the mailbox and command index of its tag, network time. -/
structure Journal where
  gen : Nat
  code : Nat
  tag : Option (Nat × Nat)
  ns : Nat
  sec : Nat
  deriving DecidableEq, Repr

/-- A service's two checkpoint slots: content and network time in nanoseconds; and which is the newer (R433). -/
structure Checkpoint where
  slot0 : Option (List Nat × Nat)
  slot1 : Option (List Nat × Nat)
  newer1 : Bool
  deriving DecidableEq, Repr

/-- A takeover that runs (R430): the core taken over, the one that takes over, the ticks of its start, and the command that
completes with it. -/
structure Takeover where
  failed : Nat
  core : Nat
  start : Nat
  cmd : Option (Nat × Nat × Bool)
  deriving DecidableEq, Repr

/-- The complex. -/
structure CriodPart where
  threads : SMap Thread
  channels : SMap Channel
  tasks : SMap Task
  /-- Ready lists by level, oldest first. -/
  ready : SMap (List Nat)
  /-- The delay list in order of insertion: task and ticks left (R416). -/
  delays : List (Nat × Nat)
  /-- Slot tables by core: the thread index of each of the 32 slots (R405). -/
  slots : SMap (List (Option Nat))
  /-- Registers by 32 × thread + register, and local SRAM by 32,768 × core + word, in 64-bit words (R403). -/
  regs : SMap Nat
  sram : SMap Nat
  /-- Words of the shared SRAM that hold poison, by 8-byte word (R403). -/
  poisoned : List Nat
  /-- Commit journals by core, newest first, 4,096 entries each (R432). -/
  journals : SMap (List Journal)
  /-- The thread each service runs on. -/
  services : SMap Nat
  checkpoints : SMap Checkpoint
  /-- Services whose next checkpoint the supervisor forces (R428). -/
  forced : List Nat
  /-- Number of the last self-test pass (R428). -/
  passes : Nat
  /-- Cores that were reset after a takeover and have not ended their first pass (R434). -/
  testing : List Nat
  takeover : Option Takeover
  /-- The becalmed condition has been false since becalmed was last raised (R421). -/
  armed : Bool
  /-- The housekeeping task (R420). -/
  housekeeping : Option Nat
  deriving DecidableEq, Repr

/-- The complex before firmware starts. -/
def CriodPart.reset : CriodPart where
  threads := []
  channels := []
  tasks := []
  ready := []
  delays := []
  slots := []
  regs := []
  sram := []
  poisoned := []
  journals := []
  services := []
  checkpoints := []
  forced := []
  passes := 0
  testing := []
  takeover := none
  armed := true
  housekeeping := none

end Sys2Proof.Machine
end

