-- ==== Sys2Proof/Machine/Parts/Egress.lean ====
section
/-! DEFINITION. Egress (chapter 11): scheduling, shapers and wheels, gate lists, failover, rewrite table, monitors. -/

namespace Sys2Proof.Machine

/-- A class's scheduling: strict, or weighted with its weight and deficit (R347, R348). -/
structure SchedClass where
  dwrr : Bool
  weight : Nat
  deficit : Int
  deriving DecidableEq, Repr

/-- A shaper (R351 to R353). mode: 0 off, 1 token bucket, 2 credit-based. The level is held in units of 1/(8·10^9) byte,
so that a rate of one bit/s adds one unit each nanosecond (log entry 34). -/
structure Shaper where
  mode : Nat
  /-- rate or idle slope in bit/s. -/
  rate : Nat
  burst : Nat
  overhead : Nat
  hi : Int
  lo : Int
  zeroReset : Bool
  /-- Tokens or credit. -/
  level : Int
  tRef : Nat
  /-- How a credit moves since tRef: 0 it stands, 1 frames wait, 2 a frame is in transmission, 3 empty with a negative
  credit. -/
  status : Nat
  deriving DecidableEq, Repr

/-- A gate list (R357). -/
structure GateList where
  valid : Bool
  gateMask : Nat
  /-- base_time in nanoseconds. -/
  base : Nat
  cycleTime : Nat
  cycleExt : Nat
  /-- (states, interval) of each entry. -/
  entries : List (Nat × Nat)
  deriving DecidableEq, Repr

/-- A port's gates (R358, R359). -/
structure GatePort where
  oper : Option Nat
  pending : Option Nat
  /-- The change instant S, in nanoseconds, of the pending list. -/
  changeAt : Nat
  /-- When the pending list became pending: T. -/
  pendingAt : Nat
  /-- The entry that is current and the states in force. -/
  current : Nat
  states : Nat
  /-- The list's double-bit error stands (R360). -/
  damaged : Bool
  lists : SMap GateList
  deriving DecidableEq, Repr

/-- A latent-error monitor (R367). -/
structure Monitor where
  handle : Nat
  paths : Nat
  threshold : Nat
  passed : Nat
  discarded : Nat
  deriving DecidableEq, Repr

/-- A shaper waiting on a wheel (R354): its wake slot or instant in nanoseconds; on the overflow list or in a slot. -/
structure Wake where
  at_ : Nat
  /-- The wake time it was put there for. -/
  due : Nat
  overflow : Bool
  deriving DecidableEq, Repr

/-- Egress. -/
structure EgressPart where
  /-- By 8 × port + class; one not listed is strict. -/
  sched : SMap SchedClass
  portShaped : SMap Nat
  /-- By 16 × port + shaper: 0 to 7 the classes, 8 the port. -/
  shapers : SMap Shaper
  wheel : SMap Wake
  gates : SMap GatePort
  /-- Ports with frer_elim clear (R364). -/
  noElim : List Nat
  rewrites : SMap (List Nat)
  /-- Damaged rewrite entries (R370). -/
  badRewrite : List Nat
  revertHoldoff : Nat
  /-- Ports marked down in the failover vector; when each reverts once its link is up (R368). -/
  down : List Nat
  revertAt : SMap Nat
  monitors : SMap Monitor
  /-- The DWRR class each port's round robin looks at next. -/
  dwrrNext : SMap Nat
  /-- When the running latent period began. -/
  latentStart : Nat
  deriving DecidableEq, Repr

/-- A class never configured: strict (R347). -/
def SchedClass.reset : SchedClass := ⟨false, 1, 0⟩
/-- A shaper never configured: off. -/
def Shaper.reset : Shaper := ⟨0, 0, 0, 20, 0, 0, false, 0, 0, 0⟩
/-- A port without gate lists. -/
def GatePort.reset : GatePort := ⟨none, none, 0, 0, 0, 255, false, []⟩

/-- After reset every class is strict, every shaper off, every gate open. -/
def EgressPart.reset : EgressPart where
  sched := []
  portShaped := []
  shapers := []
  wheel := []
  gates := []
  noElim := []
  rewrites := []
  badRewrite := []
  revertHoldoff := 0
  down := []
  revertAt := []
  monitors := []
  dwrrNext := []
  latentStart := 0

end Sys2Proof.Machine
end

