-- ==== Sys2Proof/Machine/Parts/Fault.lean ====
section
/-! DEFINITION. The fault collector's own state, the trouble log, last gasp and availability accounting (chapter 15).
What the FLT and LOG registers show stands in the register file. -/

namespace Sys2Proof.Machine

/-- A fault report as it reaches the collector (R477, R479, R487, R488). -/
structure FaultArg where
  code : Nat
  instance_ : Nat
  arg0 : Nat
  arg1 : Nat
  addr : Nat
  master : Nat
  masterIndex : Nat
  access : Nat
  /-- Network time of detection: seconds and nanoseconds. -/
  sec : Nat
  ns : Nat
  /-- Local core-cycle count of the detecting die. -/
  cycle : Nat
  /-- The notification carries the late flag (R164, R462). -/
  late : Bool
  deriving DecidableEq, Repr

/-- A fault record (R482). -/
structure FltRec where
  severity : Nat
  live : Bool
  transient : Bool
  simultaneous : Bool
  read : Bool
  condition : Bool
  code : Nat
  source : Nat
  count : Nat
  unlocked : Bool
  firstNs : Nat
  firstSec : Nat
  lastNs : Nat
  lastSec : Nat
  arg0 : Nat
  arg1 : Nat
  /-- The order in which records were taken, for "the oldest" of R481. -/
  taken : Nat
  deriving DecidableEq, Repr

/-- An instance of a condition that holds now: its code, instance, and the fault as last reported (R480, R484). -/
structure LiveCond where
  code : Nat
  instance_ : Nat
  arg0 : Nat
  arg1 : Nat
  deriving DecidableEq, Repr

/-- A trouble-log record (R501), its CRC computed when it is read. -/
structure LogRec where
  kind : Nat
  severity : Nat
  live : Bool
  transient : Bool
  simultaneous : Bool
  unlocked : Bool
  code : Nat
  seq : Nat
  ns : Nat
  sec : Nat
  source : Nat
  cycle : Nat
  addr : Nat
  master : Nat
  access : Nat
  masterIndex : Nat
  record : Nat
  arg0 : Nat
  arg1 : Nat
  detail0 : Nat
  detail1 : Nat
  deriving DecidableEq, Repr

/-- What a capture window holds until it closes: a fault with its severity (R486, R488), or a loss, which keeps its place among the
faults' notifications (R28, R31). -/
structure HeldFault where
  fault : FaultArg
  severity : Nat
  notify : Bool
  /-- The device's servo lock at the occurrence. -/
  unlocked : Bool
  /-- Of a loss: its payload; its stamp is the fault's. -/
  loss : List Nat
  deriving DecidableEq, Repr

/-- A loss interval (R7, R8, R508): its start, whether an S4 fault opened or joined it, where the part of it that is being
counted began (none while the time is no service time), and the service time counted in it before that. -/
structure LossInterval where
  start : Nat
  byS4 : Bool
  from_ : Option Nat
  counted : Nat
  deriving DecidableEq, Repr

/-- A last-gasp slot (R504, R505): its commit state, sequence number, size and content. commit: 0 void, 1 committed,
2 unwritten. -/
structure GaspSlot where
  magic : Bool
  commit : Nat
  crcGood : Bool
  gaspSeq : Nat
  /-- Written as a target under R502 since its last use. -/
  prepared : Bool
  /-- Network time of the PWRFAIL_N edge. -/
  sec : Nat
  ns : Nat
  logSeq : Nat
  logHead : Nat
  /-- The words of offsets 0x0040 to 0x00BF (R504). -/
  stateBlock : List Nat
  records : List LogRec
  deriving DecidableEq, Repr

/-- The collector, log, last gasp and accounting. -/
structure FaultPart where
  records : SMap FltRec
  /-- Records taken since reset. -/
  takenCount : Nat
  /-- An overflow of the record table is running (R485). -/
  overflowing : Bool
  /-- The stamp in nanoseconds at which the open capture window began (R488). -/
  window : Option Nat
  windowFaults : List HeldFault
  /-- notify enable by fault code; a code not listed is enabled (R486). -/
  notifyEn : SMap Bool
  /-- INT_N enable by fault code; a code not listed is not enabled. -/
  intnEn : SMap Bool
  /-- Notifications sent per code: the send times in nanoseconds within the last second (R486). -/
  notifySent : SMap (List Nat)
  live : List LiveCond
  /-- Network time in nanoseconds at which the running quiet period began (R492). -/
  quietStart : Option Nat
  /-- Block code of the first fault of severity S2 or worse in the episode (R492). -/
  episodeClass : Option Nat
  /-- Codes and instances of the S4 faults of the bare-poles episode, whose units restart at exit (R492). -/
  s4Units : List (Nat × Nat)
  /-- Network times in nanoseconds of the bare-poles exits of the trailing 3,600 s (R493). -/
  bareExits : List Nat
  /-- Ticks at the collector's last heartbeat (R495). -/
  heartbeatAt : Nat
  /-- The open loss interval (R508). -/
  lossOpen : Option LossInterval
  /-- Charged faults whose end has not come: code and instance (R508). -/
  chargedLive : List (Nat × Nat)
  lossTagged : Nat
  lossUntagged : Nat
  /-- The trouble log by index (R499). -/
  log : SMap LogRec
  /-- Records the log still writes before it stops; none while no stop is due (R500). -/
  logLeft : Option Nat
  /-- PWRFAIL_N is asserted: network time of its edge (R503). -/
  pwrfail : Option Nat
  /-- A last gasp has begun and PWRFAIL_N has not been released under R507. -/
  gaspActive : Bool
  gaspTarget : Nat
  slots : SMap GaspSlot
  /-- Persistent memory on chip select 1 is present (R502). -/
  persistent : Bool
  /-- Fetching of commands is stopped by a power failure (R503). -/
  fetchStopped : Bool
  /-- ERR_N and DEGRADED_N: true while asserted (R494). -/
  errN : Bool
  degradedN : Bool
  /-- The collector has initialised since reset, so ERR_N and DEGRADED_N may be asserted (R494). -/
  initialised : Bool
  deriving DecidableEq, Repr

/-- The collector after reset: no record, no window, every code's notification enabled. -/
def FaultPart.reset : FaultPart where
  records := []
  takenCount := 0
  overflowing := false
  window := none
  windowFaults := []
  notifyEn := []
  intnEn := []
  notifySent := []
  live := []
  quietStart := none
  episodeClass := none
  s4Units := []
  bareExits := []
  heartbeatAt := 0
  lossOpen := none
  chargedLive := []
  lossTagged := 0
  lossUntagged := 0
  log := []
  logLeft := none
  pwrfail := none
  gaspActive := false
  gaspTarget := 0
  slots := []
  persistent := false
  fetchStopped := false
  errN := false
  degradedN := false
  initialised := false

end Sys2Proof.Machine
end

