-- ==== Sys2Proof/Machine/Parts/Masked.lean ====
section
/-! DEFINITION. The masked search arrays (chapter 6): banks, entries with their shroud copies, lookup profiles, scrubbers.
The 32 pipelines hold identical entries; what differs between them is kept by pipeline. -/

namespace Sys2Proof.Machine

/-- A bank's width in units and its rank (R170). -/
structure MskBank where
  width : Nat
  prio : Nat
  deriving DecidableEq, Repr

/-- A unit nothing has been written to (R172). -/
def MskUnit.zero : MskUnit := ⟨false, false, false, 1, List.replicate 20 0, List.replicate 20 0⟩

/-- A masked-search entry (R172): its control bits, key value and mask bytes, and action. -/
structure MskEntry where
  valid : Bool
  ep0 : Bool
  ep1 : Bool
  width : Nat
  value : List Nat
  mask : List Nat
  action : List Nat
  deriving DecidableEq, Repr

/-- The arrays. -/
structure MaskedPart where
  /-- Banks by number; one not listed has width 1 and its number as rank. -/
  banks : SMap MskBank
  /-- The shroud copies of the units by physical index (R171, R184); one not listed is zero. -/
  units : SMap MskUnit
  /-- The array's units that an upset made differ from their shroud copies, by pipeline × 16,384 + physical index
  (R186); every other unit of an array is as its shroud copy. -/
  arrays : SMap MskUnit
  /-- The action SRAM by the physical index of the entry's first unit (R172). -/
  actions : SMap (List Nat)
  /-- Suspect entries and entries with a damaged action, by pipeline × 16,384 + physical index (R187, R188). -/
  suspect : List Nat
  badAction : List Nat
  /-- Shroud copies with a double-bit error that agree with the array (R187). -/
  badShroud : List Nat
  /-- Hit bits by pipeline × 16,384 + physical index (R177). -/
  hits : List Nat
  profiles : SMap (List Nat)
  deriving DecidableEq, Repr

/-- After reset no entry and no profile is valid. -/
def MaskedPart.reset : MaskedPart := ⟨[], [], [], [], [], [], [], [], []⟩

end Sys2Proof.Machine
end

