-- ==== Sys2Proof/Machine/Parts/Parser.lean ====
section
/-! DEFINITION. The parser's own state (chapter 4). All pipelines hold identical tables, so each stands once. -/

namespace Sys2Proof.Machine

/-- A layer of the layer stack (R108, R111): its type, where it starts and ends, its role, and whether it is inner. -/
structure Layer where
  ltype : Nat
  start : Nat
  stop : Nat
  role : Nat
  inner : Bool
  deriving DecidableEq, Repr

/-- What the parser lanes found (R107 to R121). -/
structure ParseRes where
  layers : List Layer
  truncated : Bool
  conflict : Bool
  unmatched : Bool
  fragment : Bool
  keyClass : Nat
  /-- Offsets of the four scan targets found (R104). -/
  scans : List (Option Nat)
  /-- IP bounds recorded, innermost first, and ends of UDP layers checked without one (R120, R123). -/
  ipBounds : List Nat
  udpEnds : List Nat
  /-- PTP header offset and encapsulation: 0 Ethernet, 1 UDP over IPv4, 2 UDP over IPv6 (R118). -/
  ptp : Option (Nat × Nat)
  /-- Cycles scan steps held beyond their first (R103, R134). -/
  scanCycles : Nat
  /-- Indexes of the graph entries read. -/
  used : List Nat
  deriving DecidableEq, Repr

/-- The parser's tables. -/
structure ParserPart where
  /-- Header graph by index: eight words, word 0 first (R109). -/
  graph : SMap (List Nat)
  /-- Start state and key group by port (R107, R125). -/
  portStart : SMap (Nat × Nat)
  scanIpv4 : List Nat
  scanGeneve : List (Nat × Nat)
  /-- Key profiles by index: 25 words (R126). -/
  keyProfiles : SMap (List Nat)
  /-- Key profile by 32 × key group + key class (R125). -/
  keyMap : SMap Nat
  /-- Entries treated as invalid until repaired: pipeline, table (0 graph, 1 key profile), index (R115). -/
  damaged : List (Nat × Nat × Nat)
  /-- Next parser lane of each pipeline's round robin (R102). -/
  nextLane : SMap Nat
  /-- Packets dealt since reset: the dealing order that the reorder stages keep (R105). -/
  dealt : Nat
  deriving DecidableEq, Repr

/-- After reset the tables are empty; firmware loads the standard graph at initialisation (R116). DESIGN CHOICE: before
prs.scan_config no scan target matches (log entry 249). -/
def ParserPart.reset : ParserPart where
  graph := []
  portStart := []
  scanIpv4 := []
  scanGeneve := []
  keyProfiles := []
  keyMap := []
  damaged := []
  nextLane := []
  dealt := 0

end Sys2Proof.Machine
end

