-- ==== Sys2Proof/Machine/Parts/Packet.lean ====
section
/-! DEFINITION. Packets in the device, their copies, the queue managers, replication and the copy requests (chapters 4
to 11). A packet stands for its frame, its descriptor and its chain of cells (R303 to R305), a copy for its queue entry
(R306), and a VOQ for its copies in order (log entry 30). -/

namespace Sys2Proof.Machine

/-- Where a packet is (R14). -/
inductive Stage where
  /-- In the head FIFO, not yet dealt (R307). -/
  | waiting
  /-- In the recirculation queue (R330). -/
  | recirc
  /-- Injected, not yet dealt (R332). -/
  | inject
  /-- Parsed, in the parser's reorder stage (R105). -/
  | reorder
  /-- Its flow lookup is under way. -/
  | lookup
  /-- In the dispatch window (R271). -/
  | window
  /-- In a rig. -/
  | rig
  /-- In the rig reorder stage (R274). -/
  | finished
  /-- Set aside until a transition or setup is acknowledged (R274). -/
  | ackWait
  /-- Admitted; its copies hold it. -/
  | queued
  /-- Dropped by its program; its held updates or its acknowledgement are still to come (R124, R282). -/
  | gone
  deriving DecidableEq, Repr

/-- The cells a frame is charged to, by account (R309, R313). -/
structure Charge where
  arrival : Nat
  shared : Nat
  headroom : Nat
  mc : Nat
  /-- Cells under the minimum of one VOQ, and that VOQ. -/
  minCells : Nat
  voq : Nat
  deriving DecidableEq, Repr

/-- A ring copy that was requested: kind as R335 numbers it, where it goes, its length limit, its session. -/
structure CopyReq where
  kind : Nat
  toCriod : Bool
  ring : Nat
  len : Nat
  session : Nat
  sources : Nat
  deriving DecidableEq, Repr

/-- A run of an action program (R275, R279, R280). -/
structure RigRun where
  rig : Nat
  entry : Nat
  pc : Nat
  regs : List Nat
  z : Bool
  n : Bool
  c : Bool
  hit : Bool
  cycles : Nat
  limit : Nat
  region : Nat
  /-- The record image as the run found it, and as it stands now. -/
  start : List Nat
  image : List Nat
  tbl : List Nat
  replay : Bool
  writes : List WordWrite
  addBytes : Nat
  addPackets : Nat
  lastSeen : Option Nat
  trans : Bool
  /-- Table-call cycles waited. -/
  waited : Nat
  /-- Frame length as the run sees it. -/
  len : Nat
  /-- The table call waited for: kind, exact-match table, key words or row. -/
  call : Option (Nat × Nat × List Nat)
  /-- The word whose call is out ends the run. -/
  last : Bool
  /-- Results of the table calls of a standard program so far: hit, and TBL's words (R285, R293). -/
  results : List (Bool × List Nat)
  deriving DecidableEq, Repr

/-- A packet. -/
structure Pkt where
  pipe : Nat
  inPort : Nat
  /-- What it is reordered by: an ingress port, 256 + a TX ring, or 1,024 + a Criod thread (R105, R106). -/
  src : Nat
  stage : Stage
  /-- Its place in the dealing order. -/
  seq : Nat
  /-- The edit buffer, and the frame data beyond byte 256 received so far (R303). -/
  head : List Nat
  body : List Nat
  /-- Its frame still arrives; its end status was bad. -/
  arriving : Bool
  bad : Bool
  charge : Charge
  /-- The numbers of its descriptor, its head cells and its body cells (R303, R305); none while it has none. -/
  desc : Option Nat
  headNos : List Nat
  bodyNos : List Nat
  /-- Reference counts of its cells, head cells first; none before admission (R329). -/
  refs : List Nat
  /-- Queue copies admitted (R305, R329). -/
  admitted : Nat
  /-- Cells with a double-bit error (R341). -/
  badCells : List Nat
  arrCls : Nat
  cls : Nat
  colour : Nat
  epoch : Nat
  /-- Marked at the drain deadline (R162); still counted under R161. -/
  marked : Bool
  counted : Bool
  pass : Nat
  /-- Ingress time in 2^-16 ns, and its invalid flag. -/
  tIn : Nat
  tInvalid : Bool
  startState : Nat
  /-- The pass issues no lookup and runs no program (R278). -/
  noProg : Bool
  par : ParseRes
  keyProfile : Nat
  em : List Nat
  msk : List Nat
  mview : List Nat
  /-- The canonical key, and the one completed for lookup; empty where there is none. -/
  ckey : List Nat
  key : List Nat
  profile : Option Nat
  vrf : Nat
  /-- 0 none, 1 next hop, 2 ECMP group, 3 drop, 4 egress port of an L2 hit, 5 flood group. -/
  fwdOp : Nat
  fwdTarget : Nat
  rigMeta : Nat
  ruleData : List Nat
  copies : List CopyReq
  /-- Mirror sessions requested. -/
  mirrors : List Nat
  /-- Sample sources that selected it: 4 port, 2 rule, 1 profile (R335). -/
  sampled : Nat
  ans : Option Answer
  run : Option RigRun
  /-- Updates held for the frame's end (R124). -/
  held : List Update
  runs : Nat
  /-- Waits for the acknowledgement of a transition or setup. -/
  awaiting : Bool
  /-- Net growth of its edit buffer by splices (R278). -/
  growth : Int
  /-- Its program dropped it; it goes when its updates have gone. -/
  dropped : Bool
  /-- A new pass that its program asked for: parse state, and no lookup and program (R278, R330). -/
  again : Option (Nat × Bool)
  mcast : Option Nat
  verdict : Nat
  edited : Bool
  /-- Ran a transition or caused a setup, so is never cut through (R322). -/
  noCt : Bool
  /-- Named a flow record, for copies' headers and RED. -/
  handle : Option Nat
  tAdm : Nat
  /-- Egress port, class, next hop of a direct injection (R332). -/
  direct : Option (Nat × Nat × Nat)
  /-- TX ring, slot of a packet injected by a host, and whether the launch instant is asked for (R460). -/
  tx : Option (Nat × Nat × Bool)
  deriving DecidableEq, Repr

/-- A queue copy's way: queued in its VOQ, crossing, or in transmission. -/
inductive CopyStage where
  | queued
  | crossing
  | transmitting
  deriving DecidableEq, Repr

/-- A queue copy (R306, R318, R319). -/
structure Copy where
  pkt : Nat
  pipe : Nat
  port : Nat
  cls : Nat
  nextHop : Option Nat
  /-- The number of its queue entry (R306). -/
  entry : Nat
  /-- Mirror session and whether it is an egress session. -/
  mirror : Option (Nat × Bool)
  stage : CopyStage
  ct : Bool
  /-- Cells read into the crossbar, and cells landed. -/
  sent : Nat
  landed : Nat
  /-- Its place in landing order; 0 until it has landed. -/
  landSeq : Nat
  /-- Bytes of credit it takes from its sending until it leaves its landing buffer (R317, R318). -/
  paid : Nat
  tAdm : Nat
  /-- The edited frame in transmission, without FCS (of a cut-through copy its head), and its launch instant in 2^-16 ns. -/
  out : List Nat
  launch : Nat
  /-- The launch instant carries the invalid flag (R39). -/
  launchInvalid : Bool
  /-- Bytes its shapers were charged at its start (R352). -/
  charged : Nat
  nofit : Bool
  stomp : Bool
  deriving DecidableEq, Repr

/-- A frame arriving on a port: its packet, or none where its remaining bytes are discarded, its length so far, its bytes,
the bounds that the parser passed to the MAC (R123), and its ingress timestamp in 2^-16 ns with its invalid flag (R40). -/
structure Rx where
  pkt : Option Nat
  len : Nat
  bytes : List Nat
  bounds : List Nat
  tIn : Nat
  tInvalid : Bool
  deriving DecidableEq, Repr

/-- A queue profile's class (R311). -/
structure QClass where
  minCells : Nat
  alpha : Nat
  maxCells : Nat
  yellow : Nat
  red : Nat
  ageLimit : Nat
  deriving DecidableEq, Repr

/-- A port's queue-manager settings (R308, R311, R334, R338). -/
structure QPort where
  profile : Nat
  pcpMap : List Nat
  defClass : Nat
  inSession : Option Nat
  egSession : Option Nat
  sampleN : Nat
  deriving DecidableEq, Repr

/-- A replication group (R325): its prune flag and members (port, next hop, class override). -/
structure ReplGroup where
  prune : Bool
  members : List (Nat × Nat × Option Nat)
  deriving DecidableEq, Repr

/-- A mirror session (R338). -/
structure MirrorSession where
  dest : Nat
  port : Nat
  cls : Nat
  ring : Nat
  trunc : Nat
  gre : Bool
  ipv6 : Bool
  srcAddr : List Nat
  dstAddr : List Nat
  dscp : Nat
  ttl : Nat
  nextHop : Nat
  deriving DecidableEq, Repr

/-- A trap destination (R337). -/
structure TrapDest where
  toCriod : Bool
  ring : Nat
  len : Nat
  deriving DecidableEq, Repr

/-- A message between queue managers and schedulers (R316, R317, R323): ingress pipeline, port, class, credit. -/
structure QMsg where
  pipe : Nat
  port : Nat
  cls : Nat
  credit : Int
  deriving DecidableEq, Repr

/-- Queue managers, crossbar, replication and the packets themselves. -/
structure PacketPart where
  pkts : SMap Pkt
  copies : SMap Copy
  /-- The next packet and copy numbers: they rise and are never used again. -/
  nextPkt : Nat
  nextCopy : Nat
  nextLand : Nat
  rx : SMap Rx
  arrivalReserve : Nat
  mcReserve : Nat
  mirrorMax : Nat
  /-- Queue profiles by 8 × profile + class. -/
  qprof : SMap QClass
  qports : SMap QPort
  traps : SMap TrapDest
  groups : SMap ReplGroup
  sessions : SMap MirrorSession
  /-- sample_n of flow profiles (R334). -/
  sampleProf : SMap Nat
  /-- Ring-copy tokens of each pipeline: tokens and the microsecond they were filled at (R336). -/
  copyTokens : SMap (Nat × Nat)
  /-- Copies decided per pipeline and destination (R335), keyed 128 × pipeline + destination. -/
  copySeq : SMap Nat
  /-- Credit balances by 2,048 × pipeline + VOQ (R318). -/
  balance : SMap Int
  /-- Backlog bits set, as 2,048 × pipeline + VOQ (R316). -/
  backlog : List Nat
  /-- Credit granted to a VOQ whose bytes have not left their landing buffer, by 2,048 × pipeline + VOQ, in bytes (log
  entry 33); ports reserved for a cut-through copy (R317, R323). -/
  credits : SMap Int
  reserved : List Nat
  /-- Grant round robin by VOQ: the ingress pipeline next looked at; and by egress pipeline for CT_REQ. -/
  grantRr : SMap Nat
  ctRr : SMap Nat
  /-- The ingress pipeline that each egress pipeline's crossbar output serves next (R320). -/
  xbarRr : SMap Nat
  /-- Bytes of cells over the die bridge by direction, 0 fore to aft: the microsecond counted in, its bytes, and those of the
  microsecond before it (R20, R345). -/
  bridge : SMap (Nat × Nat × Nat)
  /-- REQ and, marked true, EMPTY messages on their way (R316). -/
  voqMsgs : List (Bool × QMsg)
  grants : List QMsg
  ctReqs : List QMsg
  denies : List QMsg
  /-- Queue managers in a contained restart (R341). -/
  qmRestart : List Nat
  /-- The VOQ that each pipeline's head scan visits next (R315). -/
  scanAt : SMap Nat
  deriving DecidableEq, Repr

/-- A queue profile before iqm.profile_set (log entry 31). -/
def QClass.reset : QClass := ⟨0, 6, 24576, 8, 8, 2000000⟩
/-- A port's queue settings before iqm.port_config (R308). -/
def QPort.reset : QPort := ⟨0, [0, 1, 2, 3, 4, 5, 6, 7], 0, none, none, 0⟩
/-- No charge. -/
def Charge.zero : Charge := ⟨0, 0, 0, 0, 0, 0⟩

/-- After reset the buffers are empty. -/
def PacketPart.reset : PacketPart where
  pkts := []
  copies := []
  nextPkt := 0
  nextCopy := 0
  nextLand := 0
  rx := []
  arrivalReserve := 1024
  mcReserve := 1024
  mirrorMax := 2048
  qprof := []
  qports := []
  traps := []
  groups := []
  sessions := []
  sampleProf := []
  copyTokens := []
  copySeq := []
  balance := []
  backlog := []
  credits := []
  reserved := []
  grantRr := []
  ctRr := []
  xbarRr := []
  bridge := []
  voqMsgs := []
  grants := []
  ctReqs := []
  denies := []
  qmRestart := []
  scanAt := []

end Sys2Proof.Machine
end

