-- ==== Sys2Proof/Machine/Parts/Flow.lean ====
section
/-! DEFINITION. The flow store, flow setup, record pools and hardware transactions (chapters 7 and 8), beyond what the
FST and BPM registers show. -/

namespace Sys2Proof.Machine

/-- An index slot (R196), less its valid and gen bits, which its place gives. -/
structure Slot where
  size : Nat
  dir : Nat
  profile : Nat
  handle : Nat
  sig : Nat
  deriving DecidableEq, Repr

/-- A record in HBM (R199): its size and its words. -/
structure FlowRec where
  size : Nat
  words : List Nat
  deriving DecidableEq, Repr

/-- A cache line (R204). kind: 0 HEAD, 1 EXT, 2 LINK. Its lock is the record lock of an open transaction (R259). -/
structure Line where
  kind : Nat
  handle : Nat
  size : Nat
  dir : Nat
  key : List Nat
  /-- The record's words this line holds. -/
  words : List Nat
  dirty : Bool
  touched : Bool
  inflight : Nat
  /-- Of a LINK line: the set of the record's HEAD line, once known. -/
  ownerSet : Option Nat
  deriving DecidableEq, Repr

/-- What a miss-queue entry waits for (R209, R237, R238, R240). -/
inductive MqWait where
  /-- Its reads from HBM. -/
  | reads
  /-- A way that an install can take (R205). -/
  | install
  /-- Behind an earlier request of its key. -/
  | chained
  /-- A fast setup's commit. -/
  | setup
  /-- The frame's end, before firmware is asked (R240). -/
  | fwEnd
  /-- A firmware verdict. -/
  | verdict
  /-- A WAKE from a stack peer (R556). -/
  | parked
  /-- The frame's end, its setup having failed before (R238): after its provisional answer or without one. -/
  | failed (answered : Bool)
  deriving DecidableEq, Repr

/-- A miss-queue entry (R209). -/
structure MqEntry where
  pkt : Nat
  pipe : Nat
  key : List Nat
  wait : MqWait
  /-- Marked by a removal's commit (R222). -/
  restart : Bool
  /-- The record to install while it waits for a way, or the record a hop names: handle and direction. -/
  target : Option (Nat × Nat)
  tx : Option Nat
  /-- Ticks at which firmware was asked (R240). -/
  asked : Nat
  deriving DecidableEq, Repr

/-- A request or record-hop flit: the shard it goes to, and for a hop the handle, direction and owner set (R14, R16). -/
structure LookReq where
  pkt : Nat
  pipe : Nat
  shard : Nat
  key : List Nat
  hop : Option (Nat × Nat × Option Nat)
  deriving DecidableEq, Repr

/-- A lock of a transaction (R259): kind 0 index bucket, 1 record, 2 NAT bit, 3 bitmap block, 4 rule bucket, 5
masked-search entry; and what it names. -/
structure TxLock where
  kind : Nat
  a : Nat
  b : Nat
  deriving DecidableEq, Repr

/-- A write of a transaction (R257). -/
inductive TxWrite where
  | slotPut (shard : Nat) (slot : Slot)
  | slotDel (shard : Nat) (slot : Slot) (key : List Nat)
  | recPut (handle size : Nat) (words : List Nat)
  | recMask (handle base mask : Nat) (words : List Nat)
  /-- Words of the record's image (flow.modify). -/
  | recHot (handle mask : Nat) (words : List Nat)
  /-- A record removed, with the flowEndReason its end export carries (R530). -/
  | recGone (handle why : Nat)
  | bits (handle set clear : Nat)
  | natBit (key bit : Nat) (on : Bool)
  | ruleDel (table epoch : Nat) (key : List Nat)
  | rulePut (entry : RuleEntry)
  | ruleMod (epoch : Nat) (entry : RuleEntry)
  | mskPut (bank index : Nat) (entry : MskEntry)
  | mskDel (bank index : Nat)
  | counter (key value : Nat)
  deriving DecidableEq, Repr

/-- How far a transaction is: built, waiting in its prepare, prepared, committing (R259, R260). -/
inductive TxPhase where
  | opened
  | waiting
  | prepared
  | committing
  deriving DecidableEq, Repr

/-- A transaction (R257 to R265). -/
structure Tx where
  source : Nat
  coord : Nat
  writes : List TxWrite
  locks : List TxLock
  /-- Prepare-start cycle. -/
  start : Nat
  phase : TxPhase
  /-- Compare conditions on records of the coordinator: handle and expected words under masks (R261). -/
  conds : List (Nat × List WordWrite)
  /-- Shards whose apply is still to come, and whose acknowledgement is still to come. -/
  toApply : List Nat
  toAck : List Nat
  /-- The miss-queue entry of a setup: shard and packet. -/
  setup : Option (Nat × Nat)
  /-- The command it completes. -/
  cmd : Option (Nat × Nat × Bool)
  /-- Result words of the completion. -/
  result : List Nat
  /-- Control generation it carries (R264), and debug hold (R263). -/
  gen : Nat
  held : Bool
  /-- A participant or the coordinator restarted (R265). -/
  faulted : Bool
  /-- Writes a restarted participant lost. -/
  lost : Nat
  /-- Prepares of a setup that met a conflict (R238). -/
  attempts : Nat
  /-- Conflicts on a relocation chain that it has met (R212). -/
  kicks : Nat
  /-- The provisional answer of a setup has been sent (R237). -/
  answered : Bool
  /-- The changes that the update flit of a setup brought, until the setup commits (R237). -/
  merge : Option Update
  /-- The record a removal acts on, its kind and what the pass saw (R222): handle, profile, reason, last_seen. -/
  removal : Option (Nat × Nat × Nat × Nat)
  /-- Members that take part, and how far each is: 0 its vote is awaited, 1 prepared, 2 its end is awaited (R557). -/
  peers : List (Nat × Nat)
  /-- Of a part that another member coordinates: that member and its transaction. -/
  origin : Option (Nat × Nat)
  deriving DecidableEq, Repr

/-- A NAT pool (R241); IPv6 forms as numbers. -/
structure NatPool where
  insideBase : Nat
  insideShift : Nat
  subCount : Nat
  outsideBase : Nat
  addrCount : Nat
  portLo : Nat
  blockSize : Nat
  m : Nat
  prefix64 : Nat
  len64 : Nat
  deriving DecidableEq, Repr

/-- A port in hold (R247): bitmap key, bit, when it is due. -/
structure NatHold where
  key : Nat
  bit : Nat
  due : Nat
  deriving DecidableEq, Repr

/-- A running ageing pass (R218, R223 to R225): its descriptor and next block. -/
structure Sweep where
  desc : Nat
  block : Nat
  /-- A rebuild ran during it: from then on it leaves TWO_PASS records alone (R224). -/
  noTwoPass : Bool
  /-- It removes no TWO_PASS record but clears T and touched flags. -/
  grace : Bool
  /-- It restarts idle times in place of removing. -/
  rebase : Bool
  /-- It removes nothing at all: the first pass after reset. -/
  first : Bool
  deriving DecidableEq, Repr

/-- A running rebuild of a shard (R215). -/
structure Rebuild where
  line : Nat
  newSeed : Bool
  /-- The line has reached the end. -/
  done : Bool
  deriving DecidableEq, Repr

/-- A host transaction in building (R266): its mailbox and its write descriptors, each the header's eight words and the
data words after them (R267). -/
structure HostTx where
  mbx : Nat
  descs : List (List Nat)
  deriving DecidableEq, Repr

/-- A range list: runs of consecutive handles as (first, how many). -/
abbrev Ranges := List (Nat × Nat)

/-- The flow store. -/
structure FlowPart where
  shardSeed : Nat
  /-- Index seed by generation; the seed the cache sets are taken under (log entry 39). -/
  seed0 : Nat
  seed1 : Nat
  setSeed : Nat
  /-- Index slots by (2 × shard + gen) × 2^25 + 4 × bucket + slot. -/
  index : SMap Slot
  /-- Stash slots by 256 × shard + place: gen and slot. -/
  stash : SMap (Bool × Slot)
  /-- Cache lines by (1,536 × shard + set) × 16 + way. -/
  lines : SMap Line
  /-- Pseudo-LRU trees by 1,536 × shard + set: 15 bits. -/
  plru : SMap Nat
  /-- Records by handle. -/
  heap : SMap FlowRec
  /-- Ageing bits by handle: 1 A, 2 T, 4 C (R219). -/
  ageBits : SMap Nat
  mq : SMap (List MqEntry)
  reqs : List LookReq
  /-- Link-fill flits: home shard, handle, set (R208). -/
  fills : List (Nat × Nat × Nat)
  /-- Answers on their way: packet and answer, none to go on without flow state. -/
  answers : List (Nat × Option Answer)
  updates : List Update
  /-- Acknowledgements and commit-done messages on their way: packet. -/
  acks : List Nat
  /-- REPLAY replies: packet, its pipeline, and the answer with the current image (R283). -/
  replays : List (Nat × Nat × Answer)
  rotor : SMap Nat
  /-- Originals of relocated slots still to clear: index keys (R213). -/
  toClear : List Nat
  rebuilds : SMap Rebuild
  descs : SMap Nat
  sweeps : SMap Sweep
  /-- Descriptors whose start waits, by shard, oldest first (R223). -/
  sweepQ : SMap (List Nat)
  /-- Pass numbers, and descriptors that have had a pass, by 16 × shard + descriptor. -/
  passNo : SMap Nat
  passed : List Nat
  /-- Passes, as 16 × shard + descriptor, whose next run restarts the idle times of TIMESTAMP records (R225, R491). -/
  rebase : List Nat
  /-- Descriptors of a shard whose next TWO_PASS pass removes nothing, by 16 × shard + descriptor (R224, R491). -/
  gracePass : List Nat
  retired : List Nat
  /-- Records that a restart of the device's state loss must mark relearned when set up again: keys. -/
  lostKeys : List (List Nat)
  restarting : List Nat
  /-- Shards whose restart has failed; they restart again when the bare-poles state ends (R492, R496). -/
  restartFailed : List Nat
  templates : SMap (List Nat)
  fwTimeout : Nat
  natPools : SMap NatPool
  /-- Port bitmaps by (pool × 2^22 + subscriber) × 4 + protocol: the set bits. -/
  natBits : SMap Nat
  natHold : Nat
  /-- Release lists by shard, oldest first. -/
  holds : SMap (List NatHold)
  natFaultAt : SMap Nat
  noheapAt : SMap Nat
  heapCfg : Nat × Nat × Nat
  /-- Free lists and shard caches of handles by 4 × shard + pool. -/
  free : SMap Ranges
  caches : SMap (List Nat)
  arb : SMap Nat
  /-- Heap handles granted on a demand request and not used yet, by 4 × requester + pool (R251, R252). -/
  granted : SMap (List Nat)
  /-- 64-byte units in a shard's on-die commit buffer, until their writes to HBM complete (R260). -/
  commitBuf : SMap Nat
  ctrlCfg : List Nat
  ctrlFree : SMap Ranges
  /-- Control buffers in use: requester and refcount. -/
  ctrlBufs : SMap (Nat × Nat)
  txs : SMap Tx
  nextTx : Nat
  hostTx : SMap HostTx
  deriving DecidableEq, Repr

/-- After reset the store is empty and not configured. -/
def FlowPart.reset : FlowPart where
  shardSeed := 0
  seed0 := 0
  seed1 := 0
  setSeed := 0
  index := []
  stash := []
  lines := []
  plru := []
  heap := []
  ageBits := []
  mq := []
  reqs := []
  fills := []
  answers := []
  updates := []
  acks := []
  replays := []
  rotor := []
  toClear := []
  rebuilds := []
  descs := []
  sweeps := []
  sweepQ := []
  passNo := []
  passed := []
  rebase := []
  gracePass := []
  retired := []
  lostKeys := []
  restarting := []
  restartFailed := []
  templates := []
  fwTimeout := 200
  natPools := []
  natBits := []
  natHold := 2
  holds := []
  natFaultAt := []
  noheapAt := []
  heapCfg := (0, 0, 0)
  free := []
  caches := []
  arb := []
  granted := []
  commitBuf := []
  ctrlCfg := [0, 0, 0, 0]
  ctrlFree := []
  ctrlBufs := []
  txs := []
  nextTx := 0
  hostTx := []

end Sys2Proof.Machine
end

