-- ==== Sys2Proof/Machine/Parts/Hbm.lean ====
section
/-! DEFINITION. The in-package memory (chapter 12), beyond what the MCX registers show. Contents stand with their owners:
index, records and bitmap in the flow store, rig rows in the rigs, control buffers in the pools. -/

namespace Sys2Proof.Machine

/-- A freeze that runs in a pseudo-channel (R388): its detection time in nanoseconds of network time, and whether its row
check is done and MCX_PC_HOLD keeps it (R389). -/
structure Freeze where
  at_ : Nat
  past : Bool
  deriving DecidableEq, Repr

/-- A retirement whose copy runs or pauses (R390, R391, R393): the pseudo-channel within the stack, the next unit to move, and the
device's nanosecond at which the copy stood there, none while it pauses. -/
structure Retire where
  pc : Nat
  line : Nat
  since : Option Nat
  deriving DecidableEq, Repr

/-- A retraining window (R396): the device's nanosecond at which it opened, and its length in nanoseconds. -/
structure TrainWindow where
  at_ : Nat
  length : Nat
  deriving DecidableEq, Repr

/-- An entry of an activate-count table (R385). -/
structure ActCount where
  bank : Nat
  row : Nat
  count : Nat
  deriving DecidableEq, Repr

/-- The six stacks. -/
structure HbmPart where
  /-- Poisoned units, as 2^26 × shard + unit of the shard address space (R378, R387). -/
  poison : List Nat
  /-- Freezes by global pseudo-channel (R388). -/
  freezes : SMap Freeze
  /-- Pseudo-channels whose freeze starts at the exit of the running window (R390). -/
  deferred : List Nat
  /-- Network times in nanoseconds of the counted uncorrectable errors, by global pseudo-channel (R391). -/
  ueTimes : SMap (List Nat)
  /-- Pseudo-channels with a third counted error, whose retirement starts when their freeze ends (R391). -/
  retireDue : List Nat
  /-- Pseudo-channels that met the condition of R391 when the spare was in use (R394). -/
  exhausted : List Nat
  /-- The retirements in the device record of the boot NOR: the pseudo-channel of each stack (R395). -/
  recorded : SMap Nat
  /-- Running retirements by stack. -/
  retires : SMap Retire
  windows : SMap TrainWindow
  /-- The captured command history, at most one in a stack, by the global pseudo-channel whose freeze captured it: 256
  records of four words, instance 0 first, oldest record first (R388, R398). -/
  history : SMap (List (List Nat))
  /-- Activate counts by global pseudo-channel (R385). -/
  acts : SMap (List ActCount)
  /-- Network time in nanoseconds since which a stack has been below 83 °C (R384). -/
  coolSince : SMap Nat
  /-- Requests held by freezes and windows: global pseudo-channel and the packet that waits (R388, R396). -/
  held : List (Nat × Nat)
  /-- Stacks in self-refresh in the furled state (R397). -/
  selfRefresh : List Nat
  /-- Stacks in self-refresh that hold a request: its network time in nanoseconds (R397). -/
  srHeldAt : SMap Nat
  /-- Stacks whose entry into self-refresh was abandoned: the network time at which it is retried (R397). -/
  srRetryAt : SMap Nat
  /-- Stacks that left self-refresh for a request: they stay out until the device is quiesced again (R397). -/
  srOut : List Nat
  /-- Next unit each pseudo-channel's patrol scrub reads (R386), by global pseudo-channel. -/
  patrol : SMap Nat
  /-- Next bank each pseudo-channel refreshes (R384), by global pseudo-channel. -/
  refresh : SMap Nat
  deriving DecidableEq, Repr

/-- After initialisation every unit holds zeros with valid ECC (R383). -/
def HbmPart.reset : HbmPart where
  poison := []
  freezes := []
  deferred := []
  ueTimes := []
  retireDue := []
  exhausted := []
  recorded := []
  retires := []
  windows := []
  history := []
  acts := []
  coolSince := []
  held := []
  selfRefresh := []
  srHeldAt := []
  srRetryAt := []
  srOut := []
  patrol := []
  refresh := []

end Sys2Proof.Machine
end

