-- ==== Sys2Proof/Machine/Parts/Host.lean ====
section
/-! DEFINITION. The host interface's own state (chapter 14): mailboxes, commands in flight, DMA rings, notifications,
the SMBus mailbox. What a register shows (ready bits, queue heads, event bits) stands in the register file. -/

namespace Sys2Proof.Machine

/-- A mailbox's queues as its table entry sets them (R448, R449), and the indices no register shows. -/
structure Mailbox where
  sqLog : Nat
  cqLog : Nat
  sqBase : Nat
  cqBase : Nat
  sqTail : Nat
  cqHead : Nat
  phase : Bool
  armed : Bool
  /-- en was cleared and commands fetched before it have not all completed (R449). -/
  closing : Bool
  deriving DecidableEq, Repr

/-- The answer a command ends with (R454, R456): result code, detail word, result words and bulk result. -/
structure Rsp where
  code : Nat
  detail : Nat
  words : List Nat
  bulk : List Nat
  deriving DecidableEq, Repr

/-- A command between its fetch and the posting of its completion (R451), in submission order. -/
structure Inflight where
  mbx : Nat
  cid : Nat
  opcode : Nat
  unordered : Bool
  noIrq : Bool
  /-- SQ head after this command was fetched (R454 word 6). -/
  sqHead : Nat
  begun : Bool
  /-- The answer, once the command has finished. -/
  rsp : Option Rsp
  /-- The reset of R457 discards this command's completion. -/
  discard : Bool
  deriving DecidableEq, Repr

/-- A DMA ring (R458). Types: 0 NOTIFY, 1 RX, 2 TX (log entry 12). -/
structure Ring where
  rtype : Nat
  base : Nat
  logSlots : Nat
  slotSize : Nat
  vector : Nat
  coalesceCount : Nat
  coalesceUs : Nat
  enabled : Bool
  producer : Nat
  consumer : Nat
  phase : Bool
  armed : Bool
  /-- Records beyond the host's last index, oldest first: the slot each begins in and the network time in nanoseconds of
  its writing (R461). -/
  pending : List (Nat × Nat)
  deriving DecidableEq, Repr

/-- A notification record (R462, R464), numbered, waiting to be written. -/
structure NotifRec where
  kind : Nat
  cls : Nat
  index : Nat
  seq : Nat
  unlocked : Bool
  late : Bool
  ns : Nat
  sec : Nat
  payload : List Nat
  deriving DecidableEq, Repr

/-- The SMBus mailbox (R467). -/
structure SmbusPart where
  busy : Bool
  ready : Bool
  badPec : Bool
  completion : List Nat
  page : List Nat
  deriving DecidableEq, Repr

/-- The host interface. -/
structure HostPart where
  mboxes : SMap Mailbox
  /-- Commands between fetch and completion, in fetch order. -/
  inflight : List Inflight
  /-- Commands held because an earlier one of their mailbox has not finished, in the order they came (R27, R455). -/
  waiting : List (CmdHdr × Instr)
  /-- The next mailbox the round robin of R451 looks at. -/
  nextMbx : Nat
  /-- Entries of mailboxes that were enabled before firmware could set them up: the entry's eight words (R449, R579). -/
  lateSetup : SMap (List Nat)
  /-- On-die queue memory of the debug mailbox, by word (MBX offset 0x1000 to 0x1BFF, R468). -/
  dbgMem : SMap Nat
  /-- The MSI-X table of BAR4, by word (R439). -/
  msixTable : SMap Nat
  rings : SMap Ring
  /-- Next sequence number of each notification source, keyed 4096 × class + index (R463). -/
  notifSeq : SMap Nat
  /-- Records numbered and not yet written or dropped. -/
  notifQ : List NotifRec
  /-- Destinations bound by ring.bind for classes 2, 3 and 4 (R465); a class not listed has no binding. -/
  bindings : SMap NotifTo
  /-- Records delivered to Criod firmware. -/
  fwInbox : List NotifRec
  /-- Ring copies delivered to Criod firmware (R333), oldest first. -/
  fwCopies : List (List Nat)
  /-- Write-backs of TX descriptors held while DMA is stopped: ring, slot, status, D (R442, R460, R474). -/
  writeBacks : List (Nat × Nat × Nat × Nat × Nat × Nat)
  smbus : SmbusPart
  /-- Completions discarded at the last FLR or PERST_N (R457). -/
  lostCompletions : Nat
  /-- The level of INT_N: true while asserted (R466). -/
  intN : Bool
  deriving DecidableEq, Repr

/-- A mailbox that has not been set up. -/
def Mailbox.reset : Mailbox := ⟨0, 0, 0, 0, 0, 0, true, false, false⟩

/-- A ring that has not been configured. -/
def Ring.reset : Ring := ⟨0, 0, 6, 32, 16, 1, 0, false, 0, 0, true, false, []⟩

/-- The host interface after reset: no mailbox set up, nothing in flight, no ring configured. -/
def HostPart.reset : HostPart where
  mboxes := []
  inflight := []
  waiting := []
  nextMbx := 0
  lateSetup := []
  dbgMem := []
  msixTable := []
  rings := []
  notifSeq := []
  notifQ := []
  bindings := []
  fwInbox := []
  fwCopies := []
  writeBacks := []
  smbus := ⟨false, false, false, [], []⟩
  lostCompletions := 0
  intN := false

end Sys2Proof.Machine
end

