-- ==== Sys2Proof/Machine/Parts/Out.lean ====
section
/-! DEFINITION. What the device emits: register read data, completions, ring slots, interrupts, frames and pin changes.
The record of them is the model's own (log entry 3): the spec says what is emitted, and State keeps it as plain data,
newest first. -/

namespace Sys2Proof.Machine

/-- One thing the device gave to the outside. -/
inductive OutEvent where
  /-- A register read answered with `value` (R445). -/
  | regRead (bar addr value : Nat)
  /-- A completion entry written to a mailbox's completion queue: its slot and its eight words, word 0 first (R454). -/
  | completion (mbx slot : Nat) (words : List Nat)
  /-- A bulk result written into a command's data buffer (R453), in 32-bit words or as its documented units. -/
  | bulk (mbx cid : Nat) (data : List Nat)
  /-- An MSI-X message (R466). -/
  | msi (vector : Nat)
  /-- A record written to a ring slot: the ring, the slot index and its words or bytes (R459, R462). -/
  | ringSlot (ring slot : Nat) (data : List Nat)
  /-- A TX descriptor's write-back: ring, slot, status, launch seconds, nanoseconds and fraction (R460). -/
  | txWriteBack (ring slot status sec ns frac : Nat)
  /-- A frame handed to a port's line: its bytes with FCS, and whether it ended stomped (R350, R88, R91). -/
  | frame (port : Nat) (bytes : List Nat) (stomped : Bool)
  /-- A MAC control frame sent: class enable vector and the eight quanta (R94). -/
  | macControl (port : Nat) (pfc : Bool) (classes : Nat) (quanta : List Nat)
  /-- What a port sends between frames changes: 0 idle, 1 local fault, 2 remote fault (R81, R83). -/
  | lineSignal (port kind : Nat)
  /-- An SMBus read's answer (R467). -/
  | smbus (code : Nat) (data : List Nat)
  /-- A time-of-day message on the serial output, at a baud rate, 8 data bits, no parity, 1 stop bit (R68). -/
  | tod (baud : Nat) (chars : List Nat)
  /-- A slot frame on a Kendrel link (R546). -/
  | kendrel (link slot : Nat) (frame : StkFrame)
  /-- An increment of a handle's refcount past 255 refused with E_BUSY to its requester (R256). -/
  | refBusy (handle requester : Nat)
  /-- A target that the device asks of a core rail's regulator, in mV (R598). -/
  | rail (address target : Nat)
  deriving DecidableEq, Repr

end Sys2Proof.Machine
end

