-- ==== Sys2Proof/Machine/Parts/Port.lean ====
section
/-! DEFINITION. Ports, lanes and flow control (chapter 3), beyond what the PORT registers show. Instants are ticks of
elapsed time. -/

namespace Sys2Proof.Machine

/-- A macro's lane order and polarity, transmit and receive (R76). -/
structure LaneMap where
  txOrder : List Nat
  txPol : Nat
  rxOrder : List Nat
  rxPol : Nat
  deriving DecidableEq, Repr

/-- What a port sends between frames: idle, local fault or remote fault sequence ordered sets (R81, R83). -/
inductive LineSignal where
  | idle
  | localFault
  | remoteFault
  deriving DecidableEq, Repr

/-- What a port holds beside its registers. -/
structure PortInfo where
  /-- link_up_holdoff in milliseconds (R82). -/
  holdoff : Nat
  /-- When the receive side last became free of faults; none while a fault holds (R82). -/
  clearSince : Option Nat
  /-- Classes under flow control, thresholds and headroom of R94. -/
  fcClasses : Nat
  xoff : Nat
  xon : Nat
  headroom : List Nat
  quanta : Nat
  /-- pfc_watchdog and pfc_restore in milliseconds (R95). -/
  watchdog : Nat
  restore : Nat
  /-- Per held class: when its stop ends (R93), and since when it is held without interruption (R95). -/
  pauseEnd : SMap Nat
  heldSince : SMap Nat
  /-- Per class the end of pfc_restore (R95). -/
  restoring : SMap Nat
  /-- When XOFF was last sent, by class (R94). -/
  xoffAt : SMap Nat
  /-- What the port sends between frames. -/
  sending : LineSignal
  /-- The ability negotiated: lanes, lane rate and FEC as PORT_CFG codes them (R79). -/
  ability : Option (Nat × Nat × Nat)
  /-- When negotiation restarts after a failure (R79). -/
  anRestart : Option Nat
  /-- Timestamps are invalid until the latencies are written (R96). -/
  tsInvalid : Bool
  /-- Eye margins by lane of the port as the sensors last gave them (R84, R97). -/
  eyeMargin : SMap Nat
  deriving DecidableEq, Repr

/-- A port as port.config creates it (R82, R94, R95). -/
def PortInfo.reset : PortInfo where
  holdoff := 0
  clearSince := none
  fcClasses := 0
  xoff := 0
  xon := 0
  headroom := [0, 0, 0, 0, 0, 0, 0, 0]
  quanta := 0xFFFF
  watchdog := 100
  restore := 200
  pauseEnd := []
  heldSince := []
  restoring := []
  xoffAt := []
  sending := .idle
  ability := none
  anRestart := none
  tsInvalid := true
  eyeMargin := []

/-- The ports that exist, and the lane maps of macros that are not the identity. -/
structure PortPart where
  ports : SMap PortInfo
  lanes : SMap LaneMap
  deriving DecidableEq, Repr

/-- At reset no port exists and every lane map is the identity (R77). -/
def PortPart.reset : PortPart := ⟨[], []⟩

end Sys2Proof.Machine
end

