-- ==== Sys2Proof/Machine/Parts/Rig.lean ====
section
/-! DEFINITION. The rigs' own state (chapter 9): control store, entry points, images, table memories, policer profiles,
load-balancer pools. All pipelines hold identical copies; what a restart changes is kept by pipeline. -/

namespace Sys2Proof.Machine

/-- A policer profile (R286). -/
structure PolProfile where
  cir : Nat
  pir : Nat
  cbs : Nat
  pbs : Nat
  aware : Bool
  deriving DecidableEq, Repr

/-- A contained restart of a pipeline's rig stage runs: when it began, and whether it failed (R292). -/
structure RigRestart where
  at_ : Nat
  failed : Bool
  deriving DecidableEq, Repr

/-- The rigs. -/
structure RigPart where
  /-- Microwords by store word, each the six words of R277, word 0 first, and its four parity bits (R276). -/
  store : SMap (List Nat)
  /-- What upsets flipped in a pipeline's control store, by 8,192 × pipeline + store word (R292). -/
  upsets : SMap (List Nat)
  /-- The golden copy in shared SRAM (R276, R290): the store, the entry-point table, and which regions hold the standard image. -/
  golden : SMap (List Nat) × SMap (Nat × Nat) × List Nat
  /-- Entry points: word 0 and word 1 of R288. -/
  entries : SMap (Nat × Nat)
  /-- The next rig of each pipeline's round robin. -/
  nextRig : SMap Nat
  /-- Dispatch windows by pipeline: packets in the order they entered (R271). -/
  window : SMap (List Nat)
  /-- Records with answers outstanding in a pipeline, by 2^32 × pipeline + handle: how many, and the image as the last
  run left it (R272). -/
  chains : SMap (Nat × List Nat)
  direct : SMap (List Nat)
  hbmRows : SMap (List Nat)
  policers : SMap PolProfile
  /-- Load-balancer pools: the base row of the live slot table, and the backends. -/
  pools : SMap (Nat × List Nat)
  restarts : SMap RigRestart
  /-- Store regions that hold the standard image (R293, R577); its words are not printed, and its programs run as R294 to
  R299 state them (log entry 57). -/
  standard : List Nat
  /-- Packets as they entered their first run, for a replay (R283; log entry 58). -/
  saved : SMap Pkt
  deriving DecidableEq, Repr

/-- After reset the store is empty and no entry point is valid. -/
def RigPart.reset : RigPart := ⟨[], [], ([], [], []), [], [], [], [], [], [], [], [], [], [], []⟩

end Sys2Proof.Machine
end

