-- ==== Sys2Proof/Machine/Parts/Stack.lean ====
section
/-! DEFINITION. Stacking (chapter 17), beyond what the STK registers show. A remote request is known at its owner by an
identifier of 2^40 + 2^32 × member + tag, and a record of another member by a handle of 2^29 × (member + 1) + handle (log
entry 165). -/

namespace Sys2Proof.Machine

/-- A request sent and not yet answered (R555): the link, the slot it left in, the packet. -/
structure StkSent where
  link : Nat
  slot : Nat
  pkt : Nat
  deriving DecidableEq, Repr

/-- A return owed to a peer (R555): the link, the slot it leaves in, the request. -/
structure StkOwed where
  link : Nat
  slot : Nat
  id : Nat
  deriving DecidableEq, Repr

/-- A formation that runs (R550): its command, what it forms, the members that have not answered, the ticks of its start. -/
structure StkForm where
  mbx : Nat
  cid : Nat
  noIrq : Bool
  mode : Nat
  lSlots : Nat
  maps : List StkMap
  waiting : List Nat
  at_ : Nat
  deriving DecidableEq, Repr

/-- A stack-wide tec.arm or cnt.snapshot_at that runs (R561): the master's handle, its command, the words of its result, the
members that have not answered. -/
structure StkArm where
  ref : Nat
  mbx : Nat
  cid : Nat
  noIrq : Bool
  result : List Nat
  waiting : List Nat
  deriving DecidableEq, Repr

/-- Stacking. -/
structure StackPart where
  /-- First lanes of the octal macros bound to Kendrel links (R544). -/
  lanes : List Nat
  /-- The peer that the link map expects on a bound link (R547). -/
  expected : SMap Nat
  /-- The shard seed that the master has given (R549), and the STK_IDs of the masters heard (R548). -/
  seed : Option Nat
  masters : List Nat
  /-- Ticks of the last header from a master, and of the deputy's last acknowledgement of this device's generation
  (R565). -/
  masterAt : Nat
  ackAt : Nat
  /-- Roles of the peers by link, as their headers name them. -/
  peerRole : SMap Nat
  /-- Messages that wait for the bulk area, and packets whose requests wait for the request field, by link. -/
  bulk : SMap (List StkMsg)
  requests : SMap (List Nat)
  sent : List StkSent
  owed : List StkOwed
  /-- Requests of peers that are served here, with the link they came on; those answered DEFER and not yet woken; answers ready to be returned
  (R556). -/
  owned : SMap (Nat × StkRequest)
  deferred : List Nat
  ready : SMap StkReturn
  /-- DEFERs received, by packet (R556). -/
  defers : SMap Nat
  form : Option StkForm
  arms : List StkArm
  /-- This member's handle of a stack-wide entry, by the master's. -/
  tecRefs : SMap Nat
  /-- Members whose drain is awaited (R562); until the stack swap-complete R163 holds here. -/
  swapWait : List Nat
  swapHold : Bool
  /-- This device's own drain has ended and waits for the members': late, and its command. -/
  swapOwn : Option (Bool × Option (Nat × Nat))
  /-- The device that this one follows as master (R564). -/
  master : Option Nat
  /-- Reductions, reef mode and bare poles as each member reported them (R563). -/
  memberModes : SMap (Nat × Bool × Bool)
  /-- Slot-header errors by link (R566). -/
  headerErrors : SMap Nat
  deriving DecidableEq, Repr

/-- After reset no link is bound and nothing is on its way. -/
def StackPart.reset : StackPart where
  lanes := []
  expected := []
  seed := none
  masters := []
  masterAt := 0
  ackAt := 0
  peerRole := []
  bulk := []
  requests := []
  sent := []
  owed := []
  owned := []
  deferred := []
  ready := []
  defers := []
  form := none
  arms := []
  tecRefs := []
  swapWait := []
  swapHold := false
  swapOwn := none
  master := none
  memberModes := []
  headerErrors := []

end Sys2Proof.Machine
end

