-- ==== Sys2Proof/Machine/Parts/Time.lean ====
section
/-! DEFINITION. Network time, the servo, the timed-event calendar and the time inputs and outputs (chapter 2). What the
TBS and TEC registers show stands in the register file. Offsets θ are in units of 2^-16 ns, frequencies in 2^-28 ppb,
biases in 2^-48 ns (log entry 6). -/

namespace Sys2Proof.Machine

/-- A domain of the servo (R48, R52): its last offset and when it came. -/
structure Domain where
  offset : Int
  /-- Elapsed ticks at the last offset; none before the first. -/
  at_ : Option Nat
  /-- Network time in nanoseconds of the last offset. -/
  nt : Nat
  domainNumber : Nat
  meanPathDelay : Int
  /-- The other domain has delivered an offset since this one did: the pair of R52. -/
  paired : Bool
  deriving DecidableEq, Repr

/-- A timestamp point (R37, R39): by how much its local copy is ahead of network time, in 2^-16 ns; whether its last frame
found it wrong, so that one-step correction is not applied there; and when its recent mismatches were. -/
structure TsPoint where
  off : Int
  invalid : Bool
  mismatches : List Nat
  deriving DecidableEq, Repr

/-- A timestamp point in order: its copy is network time. -/
def TsPoint.good : TsPoint := ⟨0, false, []⟩

/-- The PPS_IN edge that waits for its time of day (R67): its time in 2^-16 ns, elapsed ticks at it, and whether the timestamp
is invalid (R39). -/
structure PpsEdge where
  time : Nat
  ticks : Nat
  invalid : Bool
  deriving DecidableEq, Repr

/-- A residence-table entry of an egress pipeline (R45). -/
structure ResEntry where
  port : Nat
  domainNumber : Nat
  source : List Nat
  seqId : Nat
  /-- The residence time in 2^-16 ns, and the ingress port and time that it rests on. -/
  r : Int
  inPort : Nat
  tIn : Nat
  /-- Network time in nanoseconds of the entry. -/
  at_ : Nat
  /-- A timestamp that r rests on is invalid (R39). -/
  invalid : Bool
  deriving DecidableEq, Repr

/-- An armed entry of the timed-event calendar (R58). -/
structure TecEntry where
  kind : Nat
  lateOk : Bool
  stack : Bool
  /-- The next instant, in nanoseconds of network time. -/
  next : Nat
  /-- The period in nanoseconds; 0 for one-shot. -/
  period : Nat
  arg0 : Nat
  arg1 : Nat
  owner : Nat
  fires : Nat
  deriving DecidableEq, Repr

/-- A firing deferred past the 16 of a window (R59). -/
structure Deferred where
  index : Nat
  kind : Nat
  arg0 : Nat
  arg1 : Nat
  stack : Bool
  stepped : Bool
  /-- When it takes effect. -/
  at_ : Nat
  deriving DecidableEq, Repr

/-- Network time and everything that hangs on it. -/
structure TimePart where
  /-- Network time: seconds, nanoseconds, and the 48-bit fraction (R32). -/
  sec : Nat
  ns : Nat
  frac : Nat
  /-- Ticks of the time-base clock since reset: elapsed time, no step in it (R52). -/
  ticks : Nat
  /-- The servo's integral, its latest PI value, f at entry to ACQUIRE. -/
  fI : Int
  fPi : Int
  fPrev : Int
  /-- The first offset of ACQUIRE and the local time it came at, in 2^-16 ns. -/
  theta1 : Int
  t1 : Int
  /-- The step waiting for the next microsecond boundary: time moves by its negative (R40, R49). -/
  stepPending : Option Int
  /-- Offsets are discarded until this tick count (R49). -/
  discardUntil : Nat
  lockRun : Nat
  bias : Int
  slew : Int
  /-- The last 64 TRACK values of I − Kp e, newest first. -/
  trackWindow : List Int
  holdoverAt : Option Nat
  /-- The last 16 paired differences θ_A − θ_B, newest first. -/
  pairs : List Int
  domA : Domain
  domB : Domain
  /-- Timestamp points that are not in order; a point not listed is good. -/
  points : SMap TsPoint
  /-- Network time of the last halyard frame. -/
  lastFrame : Nat
  /-- Transparent clock: mode, enabled ports, mean link delay per port in 2^-16 ns (R42). -/
  tcMode : Nat
  tcPorts : List Nat
  linkDelay : SMap Nat
  /-- Residence tables by egress pipeline, newest entry first (R45). -/
  residence : SMap (List ResEntry)
  tec : SMap TecEntry
  deferred : List Deferred
  /-- The microsecond window in which firings were last dispatched, and how many (R59). -/
  tecWindow : Nat
  tecCount : Nat
  ppsOut : Bool
  /-- The last whole second that network time, advanced by pps_out_comp, has crossed, and elapsed ticks at that edge (R66). -/
  ppsSecond : Nat
  ppsRoseAt : Nat
  /-- The time-of-day message still to send for an edge: its second and the tick it is due at (R68). -/
  todDue : Option (Nat × Nat)
  /-- The clock that each SYNCE output carries: lane and divider; none while it is low (R70). -/
  synce : SMap (Nat × Nat)
  /-- The PPS_IN edge that waits for its time of day (R67). -/
  ppsWaiting : Option PpsEdge
  /-- Edges discarded for want of a message (R67). -/
  ppsDiscarded : Nat
  utcOffset : Nat
  /-- CLK_REF and CLK10M_IN have edges (R69). -/
  refPresent : Bool
  ref10mPresent : Bool
  /-- The PLL runs from no present reference. -/
  pllHoldover : Bool
  /-- The fault of the lost selected reference holds. -/
  refLost : Bool
  deriving DecidableEq, Repr

/-- A domain that has delivered nothing. -/
def Domain.reset : Domain := ⟨0, none, 0, 0, 0, false⟩

/-- Cold start (R51): time zero, ACQUIRE, I = 0, f = 0, nothing armed. -/
def TimePart.reset : TimePart where
  sec := 0
  ns := 0
  frac := 0
  ticks := 0
  fI := 0
  fPi := 0
  fPrev := 0
  theta1 := 0
  t1 := 0
  stepPending := none
  discardUntil := 0
  lockRun := 0
  bias := 0
  slew := 0
  trackWindow := []
  holdoverAt := none
  pairs := []
  domA := Domain.reset
  domB := Domain.reset
  points := []
  lastFrame := 0
  tcMode := 0
  tcPorts := []
  linkDelay := []
  residence := []
  tec := []
  deferred := []
  tecWindow := 0
  tecCount := 0
  ppsOut := false
  ppsSecond := 0
  ppsRoseAt := 0
  todDue := none
  synce := []
  ppsWaiting := none
  ppsDiscarded := 0
  utcOffset := 0
  refPresent := true
  ref10mPresent := true
  pllHoldover := false
  refLost := false

end Sys2Proof.Machine
end

