-- ==== Sys2Proof/Machine/Regs.lean ====
section
/-! DEFINITION. The direct registers: their names, places and fields, each as the register tables of the chapters give
it (R72, R100, R135, R168, R192, R229, R270, R302, R344, R345, R373, R374, R400, R438, R473 to R475, R513, R514, R542,
R543, R568), with the block bases of R444. Reset values marked Strap or Fuse in the tables stand as 0 here. -/

namespace Sys2Proof.Machine

/-- The direct registers, one constructor for each register heading of the spec. -/
inductive Reg where
  | tbsCtrl | tbsTimeFrac | tbsTimeNs | tbsTimeSecLo | tbsTimeSecHi | tbsServoStatus | tbsServoGain | tbsFreq
  | tbsFreqMax | tbsThresh | tbsStepThresh | tbsHoldover | tbsDomainCtrl | tbsDomainOffset | tbsAbDiff
  | tbsSlew | tbsSlewBias | tbsIoCtrl | tbsPpsInCapture | tbsSynceCtrl | tecStatus | tecFireCount
  | tecFlagCount | portCfg | portStatus | portTsLatency | portEvent | prsCtrl | prsStatus | prsEvent
  | prsEccCapture | clsCtrl | clsEpoch | clsEvent | clsEccCapture | mskCtrl | mskStatus | mskEvent
  | mskScrubCapture | fstCtrl | fstStatus | fstRebuildLine | fstMqStatus | fstMqPeak | fstHbmLoad
  | fstSweepStatus | fstCacheStatus | fstLive | fstEvent | fstEccCapture | fstLastLoss | bpmCtrl
  | bpmHeapFree | bpmCtrlFree | bpmStatus | bpmEvent | bpmBadCapture | rigCtrl | rigUcodeVersion | rigEvent
  | iqmCtrl | iqmStatus | iqmEvent | iqmEccCapture | fabStatus | fabEvent | fabEccCapture | fabBridgeLoad
  | egsCtrl | egsStatus | egsEvent | egsTcCount | egsWheelStatus | egsEccCapture | redCtrl | redStatus
  | redEvent | redLatentCapture | mcxCtrl | mcxStatus | mcxEvent | mcxRhCfg | mcxPcFrozen | mcxPcHold
  | mcxPcRetired | mcxUeCapture | mcxRetireLine | mcxHistIndex | mcxHistData | mcxTemp | mcxTrainStatus
  | mcxSrStatus | mcxLoad | mcxRhStatus | mcxCeCapture | mcxUeRecent | crdCtrl | crdCoreStatus
  | crdThreadState | crdThreadClass | crdSchedStatus | crdBecalmed | crdBecalmedTime | crdTakeover | crdFence
  | crdHealth | crdThreadFault | crdEvent | sysId | sysCtrl | sysStatus | sysStraps | sysFwVersion
  | sysResetCause | sysSerial | sysIrqStatus | sysIrqMask | sysScratch | pciCtrl | pciStatus | pciEvent
  | pciErrCapture | pciDmaStatus | mbxCtrl | mbxStatus | mbxEvent | mbxErrCapture | mbxSetup | mbxQstate
  | mbxSqDb | mbxCqDb | ringDb | fltCtrl | fltStatus | fltReduction | fltFirstCode | fltFirstSource
  | fltFirstAddr | fltFirstTime | fltFirstCycle | fltSimul | fltAvailLoss | fltAvailService | logCtrl
  | logStatus | logSeq | logLastgasp | logEvent | logFilter | cntCtrl | cntSnapReq | cntBankStatus
  | cntBankTime | cntWinAddr | cntWinData | cntLiveAddr | cntLiveData | cntEvent | lifeCtrl | lifeStatus
  | lifeHours | lifeSensorSel | lifeSensorData | lifeThermal | lifeAcc | lifeEvent | stkCtrl | stkStatus
  | stkGen | stkRemote | stkEvent | stkLink
  deriving DecidableEq, Repr

/-- The access types of R3 and R446. -/
inductive FieldType where
  | ro | rw | rw1c | rc | wo | rwl | rws
  deriving DecidableEq, Repr

/-- One row of a register's table: its bits, its access type and its value at reset. -/
structure FieldRow where
  hi : Nat
  lo : Nat
  ty : FieldType
  reset : Nat
  deriving DecidableEq, Repr

/-- A named field: the register and its bits. -/
structure Fld where
  reg : Reg
  hi : Nat
  lo : Nat
  deriving DecidableEq, Repr

/-- Where a register stands: the BAR (0 or 2), the first instance's offset in it, the stride and number of its
block's instances, the stride of its instances inside one block and how many there are. -/
structure RegPlace where
  bar : Nat
  base : Nat
  blockStride : Nat
  blocks : Nat
  subStride : Nat
  subs : Nat
  deriving DecidableEq, Repr


/-- Registers, part 0. -/
def allRegs0 : List Reg :=
  [.tbsCtrl, .tbsTimeFrac, .tbsTimeNs, .tbsTimeSecLo, .tbsTimeSecHi, .tbsServoStatus, .tbsServoGain, .tbsFreq, .tbsFreqMax, .tbsThresh, .tbsStepThresh, .tbsHoldover]

/-- Registers, part 1. -/
def allRegs1 : List Reg :=
  [.tbsDomainCtrl, .tbsDomainOffset, .tbsAbDiff, .tbsSlew, .tbsSlewBias, .tbsIoCtrl, .tbsPpsInCapture, .tbsSynceCtrl, .tecStatus, .tecFireCount, .tecFlagCount, .portCfg]

/-- Registers, part 2. -/
def allRegs2 : List Reg :=
  [.portStatus, .portTsLatency, .portEvent, .prsCtrl, .prsStatus, .prsEvent, .prsEccCapture, .clsCtrl, .clsEpoch, .clsEvent, .clsEccCapture, .mskCtrl]

/-- Registers, part 3. -/
def allRegs3 : List Reg :=
  [.mskStatus, .mskEvent, .mskScrubCapture, .fstCtrl, .fstStatus, .fstRebuildLine, .fstMqStatus, .fstMqPeak, .fstHbmLoad, .fstSweepStatus, .fstCacheStatus, .fstLive]

/-- Registers, part 4. -/
def allRegs4 : List Reg :=
  [.fstEvent, .fstEccCapture, .fstLastLoss, .bpmCtrl, .bpmHeapFree, .bpmCtrlFree, .bpmStatus, .bpmEvent, .bpmBadCapture, .rigCtrl, .rigUcodeVersion, .rigEvent]

/-- Registers, part 5. -/
def allRegs5 : List Reg :=
  [.iqmCtrl, .iqmStatus, .iqmEvent, .iqmEccCapture, .fabStatus, .fabEvent, .fabEccCapture, .fabBridgeLoad, .egsCtrl, .egsStatus, .egsEvent, .egsTcCount]

/-- Registers, part 6. -/
def allRegs6 : List Reg :=
  [.egsWheelStatus, .egsEccCapture, .redCtrl, .redStatus, .redEvent, .redLatentCapture, .mcxCtrl, .mcxStatus, .mcxEvent, .mcxRhCfg, .mcxPcFrozen, .mcxPcHold]

/-- Registers, part 7. -/
def allRegs7 : List Reg :=
  [.mcxPcRetired, .mcxUeCapture, .mcxRetireLine, .mcxHistIndex, .mcxHistData, .mcxTemp, .mcxTrainStatus, .mcxSrStatus, .mcxLoad, .mcxRhStatus, .mcxCeCapture, .mcxUeRecent]

/-- Registers, part 8. -/
def allRegs8 : List Reg :=
  [.crdCtrl, .crdCoreStatus, .crdThreadState, .crdThreadClass, .crdSchedStatus, .crdBecalmed, .crdBecalmedTime, .crdTakeover, .crdFence, .crdHealth, .crdThreadFault, .crdEvent]

/-- Registers, part 9. -/
def allRegs9 : List Reg :=
  [.sysId, .sysCtrl, .sysStatus, .sysStraps, .sysFwVersion, .sysResetCause, .sysSerial, .sysIrqStatus, .sysIrqMask, .sysScratch, .pciCtrl, .pciStatus]

/-- Registers, part 10. -/
def allRegs10 : List Reg :=
  [.pciEvent, .pciErrCapture, .pciDmaStatus, .mbxCtrl, .mbxStatus, .mbxEvent, .mbxErrCapture, .mbxSetup, .mbxQstate, .mbxSqDb, .mbxCqDb, .ringDb]

/-- Registers, part 11. -/
def allRegs11 : List Reg :=
  [.fltCtrl, .fltStatus, .fltReduction, .fltFirstCode, .fltFirstSource, .fltFirstAddr, .fltFirstTime, .fltFirstCycle, .fltSimul, .fltAvailLoss, .fltAvailService, .logCtrl]

/-- Registers, part 12. -/
def allRegs12 : List Reg :=
  [.logStatus, .logSeq, .logLastgasp, .logEvent, .logFilter, .cntCtrl, .cntSnapReq, .cntBankStatus, .cntBankTime, .cntWinAddr, .cntWinData, .cntLiveAddr]

/-- Registers, part 13. -/
def allRegs13 : List Reg :=
  [.cntLiveData, .cntEvent, .lifeCtrl, .lifeStatus, .lifeHours, .lifeSensorSel, .lifeSensorData, .lifeThermal, .lifeAcc, .lifeEvent, .stkCtrl, .stkStatus]

/-- Registers, part 14. -/
def allRegs14 : List Reg :=
  [.stkGen, .stkRemote, .stkEvent, .stkLink]

/-- Every register, in the order of the chapters. -/
def allRegs : List Reg :=
  allRegs0 ++ allRegs1 ++ allRegs2 ++ allRegs3 ++ allRegs4 ++ allRegs5 ++ allRegs6 ++ allRegs7 ++ allRegs8 ++ allRegs9 ++ allRegs10 ++ allRegs11 ++ allRegs12 ++ allRegs13 ++ allRegs14

/-- Where each register stands (R444, R475 and the register headings). -/
def Reg.place : Reg → RegPlace
  | .tbsCtrl => ⟨0, 0x50000, 0x0, 1, 4, 1⟩
  | .tbsTimeFrac => ⟨0, 0x50010, 0x0, 1, 4, 1⟩
  | .tbsTimeNs => ⟨0, 0x50014, 0x0, 1, 4, 1⟩
  | .tbsTimeSecLo => ⟨0, 0x50018, 0x0, 1, 4, 1⟩
  | .tbsTimeSecHi => ⟨0, 0x5001c, 0x0, 1, 4, 1⟩
  | .tbsServoStatus => ⟨0, 0x50020, 0x0, 1, 4, 1⟩
  | .tbsServoGain => ⟨0, 0x50024, 0x0, 1, 4, 1⟩
  | .tbsFreq => ⟨0, 0x50028, 0x0, 1, 4, 1⟩
  | .tbsFreqMax => ⟨0, 0x5002c, 0x0, 1, 4, 1⟩
  | .tbsThresh => ⟨0, 0x50030, 0x0, 1, 4, 1⟩
  | .tbsStepThresh => ⟨0, 0x50034, 0x0, 1, 4, 1⟩
  | .tbsHoldover => ⟨0, 0x50038, 0x0, 1, 4, 1⟩
  | .tbsDomainCtrl => ⟨0, 0x50040, 0x0, 1, 4, 1⟩
  | .tbsDomainOffset => ⟨0, 0x50044, 0x0, 1, 4, 2⟩
  | .tbsAbDiff => ⟨0, 0x5004c, 0x0, 1, 4, 1⟩
  | .tbsSlew => ⟨0, 0x50050, 0x0, 1, 4, 1⟩
  | .tbsSlewBias => ⟨0, 0x50054, 0x0, 1, 4, 1⟩
  | .tbsIoCtrl => ⟨0, 0x50060, 0x0, 1, 4, 1⟩
  | .tbsPpsInCapture => ⟨0, 0x50064, 0x0, 1, 4, 1⟩
  | .tbsSynceCtrl => ⟨0, 0x50070, 0x0, 1, 4, 2⟩
  | .tecStatus => ⟨0, 0x60000, 0x0, 1, 4, 1⟩
  | .tecFireCount => ⟨0, 0x60004, 0x0, 1, 4, 1⟩
  | .tecFlagCount => ⟨0, 0x60008, 0x0, 1, 4, 1⟩
  | .portCfg => ⟨0, 0xa00000, 0x1000, 256, 4, 1⟩
  | .portStatus => ⟨0, 0xa00004, 0x1000, 256, 4, 1⟩
  | .portTsLatency => ⟨0, 0xa00008, 0x1000, 256, 4, 1⟩
  | .portEvent => ⟨0, 0xa0000c, 0x1000, 256, 4, 1⟩
  | .prsCtrl => ⟨0, 0x400000, 0x20000, 32, 4, 1⟩
  | .prsStatus => ⟨0, 0x400004, 0x20000, 32, 4, 1⟩
  | .prsEvent => ⟨0, 0x400008, 0x20000, 32, 4, 1⟩
  | .prsEccCapture => ⟨0, 0x40000c, 0x20000, 32, 4, 1⟩
  | .clsCtrl => ⟨0, 0x400100, 0x20000, 32, 4, 1⟩
  | .clsEpoch => ⟨0, 0x400104, 0x20000, 32, 4, 1⟩
  | .clsEvent => ⟨0, 0x400108, 0x20000, 32, 4, 1⟩
  | .clsEccCapture => ⟨0, 0x40010c, 0x20000, 32, 4, 1⟩
  | .mskCtrl => ⟨0, 0x400200, 0x20000, 32, 4, 1⟩
  | .mskStatus => ⟨0, 0x400204, 0x20000, 32, 4, 1⟩
  | .mskEvent => ⟨0, 0x400208, 0x20000, 32, 4, 1⟩
  | .mskScrubCapture => ⟨0, 0x40020c, 0x20000, 32, 4, 1⟩
  | .fstCtrl => ⟨0, 0x800000, 0x10000, 32, 4, 1⟩
  | .fstStatus => ⟨0, 0x800004, 0x10000, 32, 4, 1⟩
  | .fstRebuildLine => ⟨0, 0x800008, 0x10000, 32, 4, 1⟩
  | .fstMqStatus => ⟨0, 0x80000c, 0x10000, 32, 4, 1⟩
  | .fstMqPeak => ⟨0, 0x800010, 0x10000, 32, 4, 1⟩
  | .fstHbmLoad => ⟨0, 0x800014, 0x10000, 32, 4, 1⟩
  | .fstSweepStatus => ⟨0, 0x800018, 0x10000, 32, 4, 1⟩
  | .fstCacheStatus => ⟨0, 0x80001c, 0x10000, 32, 4, 1⟩
  | .fstLive => ⟨0, 0x800020, 0x10000, 32, 4, 1⟩
  | .fstEvent => ⟨0, 0x800024, 0x10000, 32, 4, 1⟩
  | .fstEccCapture => ⟨0, 0x800028, 0x10000, 32, 4, 1⟩
  | .fstLastLoss => ⟨0, 0x80002c, 0x10000, 32, 4, 1⟩
  | .bpmCtrl => ⟨0, 0x180000, 0x0, 1, 4, 1⟩
  | .bpmHeapFree => ⟨0, 0x180010, 0x0, 1, 4, 3⟩
  | .bpmCtrlFree => ⟨0, 0x180020, 0x0, 1, 4, 4⟩
  | .bpmStatus => ⟨0, 0x180030, 0x0, 1, 4, 1⟩
  | .bpmEvent => ⟨0, 0x180034, 0x0, 1, 4, 1⟩
  | .bpmBadCapture => ⟨0, 0x180040, 0x0, 1, 4, 2⟩
  | .rigCtrl => ⟨0, 0x400300, 0x20000, 32, 4, 1⟩
  | .rigUcodeVersion => ⟨0, 0x400304, 0x20000, 32, 4, 2⟩
  | .rigEvent => ⟨0, 0x40030c, 0x20000, 32, 4, 1⟩
  | .iqmCtrl => ⟨0, 0x400400, 0x20000, 32, 4, 1⟩
  | .iqmStatus => ⟨0, 0x400404, 0x20000, 32, 4, 1⟩
  | .iqmEvent => ⟨0, 0x400408, 0x20000, 32, 4, 1⟩
  | .iqmEccCapture => ⟨0, 0x40040c, 0x20000, 32, 4, 1⟩
  | .fabStatus => ⟨0, 0xc00000, 0x0, 1, 4, 1⟩
  | .fabEvent => ⟨0, 0xc00004, 0x0, 1, 4, 1⟩
  | .fabEccCapture => ⟨0, 0xc00008, 0x0, 1, 4, 1⟩
  | .fabBridgeLoad => ⟨0, 0xc0000c, 0x0, 1, 4, 1⟩
  | .egsCtrl => ⟨0, 0xb00000, 0x8000, 32, 4, 1⟩
  | .egsStatus => ⟨0, 0xb00004, 0x8000, 32, 4, 1⟩
  | .egsEvent => ⟨0, 0xb00008, 0x8000, 32, 4, 1⟩
  | .egsTcCount => ⟨0, 0xb0000c, 0x8000, 32, 4, 1⟩
  | .egsWheelStatus => ⟨0, 0xb00010, 0x8000, 32, 4, 1⟩
  | .egsEccCapture => ⟨0, 0xb00014, 0x8000, 32, 4, 1⟩
  | .redCtrl => ⟨0, 0xc10000, 0x0, 1, 4, 1⟩
  | .redStatus => ⟨0, 0xc10004, 0x0, 1, 4, 1⟩
  | .redEvent => ⟨0, 0xc10008, 0x0, 1, 4, 1⟩
  | .redLatentCapture => ⟨0, 0xc1000c, 0x0, 1, 4, 1⟩
  | .mcxCtrl => ⟨0, 0x200000, 0x10000, 6, 4, 1⟩
  | .mcxStatus => ⟨0, 0x200004, 0x10000, 6, 4, 1⟩
  | .mcxEvent => ⟨0, 0x200008, 0x10000, 6, 4, 1⟩
  | .mcxRhCfg => ⟨0, 0x20000c, 0x10000, 6, 4, 1⟩
  | .mcxPcFrozen => ⟨0, 0x200010, 0x10000, 6, 4, 1⟩
  | .mcxPcHold => ⟨0, 0x200014, 0x10000, 6, 4, 1⟩
  | .mcxPcRetired => ⟨0, 0x200018, 0x10000, 6, 4, 1⟩
  | .mcxUeCapture => ⟨0, 0x200020, 0x10000, 6, 4, 4⟩
  | .mcxRetireLine => ⟨0, 0x200030, 0x10000, 6, 4, 1⟩
  | .mcxHistIndex => ⟨0, 0x200034, 0x10000, 6, 4, 1⟩
  | .mcxHistData => ⟨0, 0x200038, 0x10000, 6, 4, 4⟩
  | .mcxTemp => ⟨0, 0x200048, 0x10000, 6, 4, 1⟩
  | .mcxTrainStatus => ⟨0, 0x20004c, 0x10000, 6, 4, 1⟩
  | .mcxSrStatus => ⟨0, 0x200050, 0x10000, 6, 4, 1⟩
  | .mcxLoad => ⟨0, 0x200054, 0x10000, 6, 4, 1⟩
  | .mcxRhStatus => ⟨0, 0x200058, 0x10000, 6, 4, 1⟩
  | .mcxCeCapture => ⟨0, 0x20005c, 0x10000, 6, 4, 1⟩
  | .mcxUeRecent => ⟨0, 0x200060, 0x10000, 6, 4, 1⟩
  | .crdCtrl => ⟨0, 0x100000, 0x0, 1, 4, 1⟩
  | .crdCoreStatus => ⟨0, 0x100010, 0x0, 1, 4, 4⟩
  | .crdThreadState => ⟨0, 0x100020, 0x0, 1, 4, 4⟩
  | .crdThreadClass => ⟨0, 0x100030, 0x0, 1, 4, 4⟩
  | .crdSchedStatus => ⟨0, 0x100040, 0x0, 1, 4, 1⟩
  | .crdBecalmed => ⟨0, 0x100044, 0x0, 1, 4, 1⟩
  | .crdBecalmedTime => ⟨0, 0x100048, 0x0, 1, 4, 2⟩
  | .crdTakeover => ⟨0, 0x100050, 0x0, 1, 4, 1⟩
  | .crdFence => ⟨0, 0x100054, 0x0, 1, 4, 1⟩
  | .crdHealth => ⟨0, 0x100060, 0x0, 1, 4, 3⟩
  | .crdThreadFault => ⟨0, 0x100070, 0x0, 1, 4, 2⟩
  | .crdEvent => ⟨0, 0x100078, 0x0, 1, 4, 1⟩
  | .sysId => ⟨0, 0x0, 0x0, 1, 4, 1⟩
  | .sysCtrl => ⟨0, 0x4, 0x0, 1, 4, 1⟩
  | .sysStatus => ⟨0, 0x8, 0x0, 1, 4, 1⟩
  | .sysStraps => ⟨0, 0xc, 0x0, 1, 4, 1⟩
  | .sysFwVersion => ⟨0, 0x10, 0x0, 1, 4, 2⟩
  | .sysResetCause => ⟨0, 0x18, 0x0, 1, 4, 1⟩
  | .sysSerial => ⟨0, 0x1c, 0x0, 1, 4, 2⟩
  | .sysIrqStatus => ⟨0, 0x24, 0x0, 1, 4, 1⟩
  | .sysIrqMask => ⟨0, 0x28, 0x0, 1, 4, 1⟩
  | .sysScratch => ⟨0, 0x2c, 0x0, 1, 4, 1⟩
  | .pciCtrl => ⟨0, 0x10000, 0x0, 1, 4, 1⟩
  | .pciStatus => ⟨0, 0x10004, 0x0, 1, 4, 1⟩
  | .pciEvent => ⟨0, 0x10008, 0x0, 1, 4, 1⟩
  | .pciErrCapture => ⟨0, 0x1000c, 0x0, 1, 4, 2⟩
  | .pciDmaStatus => ⟨0, 0x10014, 0x0, 1, 4, 1⟩
  | .mbxCtrl => ⟨0, 0x20000, 0x0, 1, 4, 1⟩
  | .mbxStatus => ⟨0, 0x20004, 0x0, 1, 4, 1⟩
  | .mbxEvent => ⟨0, 0x20008, 0x0, 1, 4, 1⟩
  | .mbxErrCapture => ⟨0, 0x2000c, 0x0, 1, 4, 1⟩
  | .mbxSetup => ⟨0, 0x20010, 0x0, 1, 4, 2⟩
  | .mbxQstate => ⟨0, 0x20040, 0x0, 1, 4, 10⟩
  | .mbxSqDb => ⟨2, 0x0, 0, 1, 0x1000, 9⟩
  | .mbxCqDb => ⟨2, 0x4, 0, 1, 0x1000, 9⟩
  | .ringDb => ⟨2, 0x9000, 0, 1, 0x1000, 1⟩
  | .fltCtrl => ⟨0, 0x30000, 0x0, 1, 4, 1⟩
  | .fltStatus => ⟨0, 0x30004, 0x0, 1, 4, 1⟩
  | .fltReduction => ⟨0, 0x30008, 0x0, 1, 4, 1⟩
  | .fltFirstCode => ⟨0, 0x30010, 0x0, 1, 4, 1⟩
  | .fltFirstSource => ⟨0, 0x30014, 0x0, 1, 4, 1⟩
  | .fltFirstAddr => ⟨0, 0x30018, 0x0, 1, 4, 2⟩
  | .fltFirstTime => ⟨0, 0x30020, 0x0, 1, 4, 3⟩
  | .fltFirstCycle => ⟨0, 0x3002c, 0x0, 1, 4, 2⟩
  | .fltSimul => ⟨0, 0x30034, 0x0, 1, 4, 1⟩
  | .fltAvailLoss => ⟨0, 0x30038, 0x0, 1, 4, 2⟩
  | .fltAvailService => ⟨0, 0x30040, 0x0, 1, 4, 1⟩
  | .logCtrl => ⟨0, 0x40000, 0x0, 1, 4, 1⟩
  | .logStatus => ⟨0, 0x40004, 0x0, 1, 4, 1⟩
  | .logSeq => ⟨0, 0x40008, 0x0, 1, 4, 1⟩
  | .logLastgasp => ⟨0, 0x4000c, 0x0, 1, 4, 1⟩
  | .logEvent => ⟨0, 0x40010, 0x0, 1, 4, 1⟩
  | .logFilter => ⟨0, 0x40014, 0x0, 1, 4, 1⟩
  | .cntCtrl => ⟨0, 0x80000, 0x0, 1, 4, 1⟩
  | .cntSnapReq => ⟨0, 0x80004, 0x0, 1, 4, 1⟩
  | .cntBankStatus => ⟨0, 0x80008, 0x0, 1, 4, 1⟩
  | .cntBankTime => ⟨0, 0x80010, 0x0, 1, 4, 4⟩
  | .cntWinAddr => ⟨0, 0x80020, 0x0, 1, 4, 1⟩
  | .cntWinData => ⟨0, 0x80024, 0x0, 1, 4, 2⟩
  | .cntLiveAddr => ⟨0, 0x8002c, 0x0, 1, 4, 1⟩
  | .cntLiveData => ⟨0, 0x80030, 0x0, 1, 4, 2⟩
  | .cntEvent => ⟨0, 0x80038, 0x0, 1, 4, 1⟩
  | .lifeCtrl => ⟨0, 0xa0000, 0x0, 1, 4, 1⟩
  | .lifeStatus => ⟨0, 0xa0004, 0x0, 1, 4, 1⟩
  | .lifeHours => ⟨0, 0xa0008, 0x0, 1, 4, 1⟩
  | .lifeSensorSel => ⟨0, 0xa000c, 0x0, 1, 4, 1⟩
  | .lifeSensorData => ⟨0, 0xa0010, 0x0, 1, 4, 1⟩
  | .lifeThermal => ⟨0, 0xa0014, 0x0, 1, 4, 1⟩
  | .lifeAcc => ⟨0, 0xa0018, 0x0, 1, 4, 1⟩
  | .lifeEvent => ⟨0, 0xa001c, 0x0, 1, 4, 1⟩
  | .stkCtrl => ⟨0, 0x280000, 0x0, 1, 4, 1⟩
  | .stkStatus => ⟨0, 0x280004, 0x0, 1, 4, 1⟩
  | .stkGen => ⟨0, 0x280008, 0x0, 1, 4, 1⟩
  | .stkRemote => ⟨0, 0x28000c, 0x0, 1, 4, 1⟩
  | .stkEvent => ⟨0, 0x280010, 0x0, 1, 4, 1⟩
  | .stkLink => ⟨0, 0x280020, 0x0, 1, 4, 4⟩

/-! The table of each register, reserved fields included. -/

namespace Rows

/-- TBS_CTRL (02_network_time.md). -/
def tbsCtrl : List FieldRow :=
    [⟨31, 1, .ro, 0⟩, ⟨0, 0, .rwl, 0⟩]
/-- TBS_TIME_FRAC (02_network_time.md). -/
def tbsTimeFrac : List FieldRow :=
    [⟨31, 16, .ro, 0⟩, ⟨15, 0, .ro, 0⟩]
/-- TBS_TIME_NS (02_network_time.md). -/
def tbsTimeNs : List FieldRow :=
    [⟨31, 30, .ro, 0⟩, ⟨29, 0, .ro, 0⟩]
/-- TBS_TIME_SEC_LO (02_network_time.md). -/
def tbsTimeSecLo : List FieldRow :=
    [⟨31, 0, .ro, 0⟩]
/-- TBS_TIME_SEC_HI (02_network_time.md). -/
def tbsTimeSecHi : List FieldRow :=
    [⟨31, 17, .ro, 0⟩, ⟨16, 16, .ro, 1⟩, ⟨15, 0, .ro, 0⟩]
/-- TBS_SERVO_STATUS (02_network_time.md). -/
def tbsServoStatus : List FieldRow :=
    [⟨31, 30, .ro, 0⟩, ⟨29, 29, .ro, 0⟩, ⟨28, 28, .ro, 0⟩, ⟨27, 27, .ro, 0⟩, ⟨26, 26, .ro, 0⟩,
     ⟨25, 25, .ro, 0⟩, ⟨24, 24, .ro, 0⟩, ⟨23, 16, .rc, 0⟩, ⟨15, 8, .rc, 0⟩, ⟨7, 0, .rc, 0⟩]
/-- TBS_SERVO_GAIN (02_network_time.md). -/
def tbsServoGain : List FieldRow :=
    [⟨31, 16, .rwl, 0x400⟩, ⟨15, 0, .rwl, 0x400⟩]
/-- TBS_FREQ (02_network_time.md). -/
def tbsFreq : List FieldRow :=
    [⟨31, 0, .ro, 0⟩]
/-- TBS_FREQ_MAX (02_network_time.md). -/
def tbsFreqMax : List FieldRow :=
    [⟨31, 24, .ro, 0⟩, ⟨23, 0, .rwl, 0x30d40⟩]
/-- TBS_THRESH (02_network_time.md). -/
def tbsThresh : List FieldRow :=
    [⟨31, 24, .rwl, 8⟩, ⟨23, 12, .rwl, 0x64⟩, ⟨11, 0, .rwl, 0x3e8⟩]
/-- TBS_STEP_THRESH (02_network_time.md). -/
def tbsStepThresh : List FieldRow :=
    [⟨31, 0, .rwl, 0x186a0⟩]
/-- TBS_HOLDOVER (02_network_time.md). -/
def tbsHoldover : List FieldRow :=
    [⟨31, 16, .rwl, 0x3e8⟩, ⟨15, 0, .rwl, 0x3c⟩]
/-- TBS_DOMAIN_CTRL (02_network_time.md). -/
def tbsDomainCtrl : List FieldRow :=
    [⟨31, 24, .rwl, 0⟩, ⟨23, 16, .rwl, 0⟩, ⟨15, 12, .ro, 0⟩, ⟨11, 10, .rwl, 3⟩, ⟨9, 8, .rwl, 3⟩,
     ⟨7, 2, .ro, 0⟩, ⟨1, 1, .rwl, 1⟩, ⟨0, 0, .rwl, 0⟩]
/-- TBS_DOMAIN_OFFSET (02_network_time.md). -/
def tbsDomainOffset : List FieldRow :=
    [⟨31, 0, .ro, 0⟩]
/-- TBS_AB_DIFF (02_network_time.md). -/
def tbsAbDiff : List FieldRow :=
    [⟨31, 0, .ro, 0⟩]
/-- TBS_SLEW (02_network_time.md). -/
def tbsSlew : List FieldRow :=
    [⟨31, 16, .rwl, 0x64⟩, ⟨15, 0, .rwl, 0x2710⟩]
/-- TBS_SLEW_BIAS (02_network_time.md). -/
def tbsSlewBias : List FieldRow :=
    [⟨31, 0, .ro, 0⟩]
/-- TBS_IO_CTRL (02_network_time.md). -/
def tbsIoCtrl : List FieldRow :=
    [⟨31, 31, .rwl, 1⟩, ⟨30, 30, .rwl, 0⟩, ⟨29, 29, .rwl, 0⟩, ⟨28, 28, .rwl, 0⟩, ⟨27, 24, .rwl, 4⟩,
     ⟨23, 14, .rwl, 0x64⟩, ⟨13, 8, .rwl, 0xa⟩, ⟨7, 0, .rwl, 0⟩]
/-- TBS_PPS_IN_CAPTURE (02_network_time.md). -/
def tbsPpsInCapture : List FieldRow :=
    [⟨31, 31, .rc, 0⟩, ⟨30, 30, .ro, 0⟩, ⟨29, 0, .ro, 0⟩]
/-- TBS_SYNCE_CTRL (02_network_time.md). -/
def tbsSynceCtrl : List FieldRow :=
    [⟨31, 31, .rwl, 0⟩, ⟨30, 30, .rwl, 1⟩, ⟨29, 20, .ro, 0⟩, ⟨19, 12, .rwl, 0⟩, ⟨11, 0, .rwl, 0⟩]
/-- TEC_STATUS (02_network_time.md). -/
def tecStatus : List FieldRow :=
    [⟨31, 29, .ro, 0⟩, ⟨28, 16, .ro, 0⟩, ⟨15, 13, .ro, 0⟩, ⟨12, 0, .ro, 0⟩]
/-- TEC_FIRE_COUNT (02_network_time.md). -/
def tecFireCount : List FieldRow :=
    [⟨31, 0, .ro, 0⟩]
/-- TEC_FLAG_COUNT (02_network_time.md). -/
def tecFlagCount : List FieldRow :=
    [⟨31, 16, .rc, 0⟩, ⟨15, 8, .rc, 0⟩, ⟨7, 0, .rc, 0⟩]
/-- PORT_CFG (03_lanes_and_ports.md). -/
def portCfg : List FieldRow :=
    [⟨31, 31, .rwl, 0⟩, ⟨30, 30, .rwl, 0⟩, ⟨29, 28, .rwl, 0⟩, ⟨27, 25, .rwl, 0⟩, ⟨24, 23, .rwl, 0⟩,
     ⟨22, 21, .rwl, 0⟩, ⟨20, 20, .rwl, 0⟩, ⟨19, 19, .rwl, 0⟩, ⟨18, 17, .rwl, 0⟩, ⟨16, 16, .rwl, 1⟩,
     ⟨15, 14, .ro, 0⟩, ⟨13, 0, .rwl, 0x5f2⟩]
/-- PORT_STATUS (03_lanes_and_ports.md). -/
def portStatus : List FieldRow :=
    [⟨31, 31, .ro, 0⟩, ⟨30, 30, .ro, 0⟩, ⟨29, 29, .ro, 0⟩, ⟨28, 28, .ro, 0⟩, ⟨27, 27, .ro, 0⟩,
     ⟨26, 26, .ro, 0⟩, ⟨25, 25, .ro, 0⟩, ⟨24, 22, .ro, 0⟩, ⟨21, 16, .ro, 0⟩, ⟨15, 8, .ro, 0⟩, ⟨7, 0, .ro, 0⟩]
/-- PORT_TS_LATENCY (03_lanes_and_ports.md). -/
def portTsLatency : List FieldRow :=
    [⟨31, 16, .rwl, 0⟩, ⟨15, 0, .rwl, 0⟩]
/-- PORT_EVENT (03_lanes_and_ports.md). -/
def portEvent : List FieldRow :=
    [⟨31, 31, .rw1c, 0⟩, ⟨30, 30, .rw1c, 0⟩, ⟨29, 29, .rw1c, 0⟩, ⟨28, 28, .rw1c, 0⟩, ⟨27, 27, .rw1c, 0⟩,
     ⟨26, 26, .rw1c, 0⟩, ⟨25, 25, .rw1c, 0⟩, ⟨24, 24, .rw1c, 0⟩, ⟨23, 23, .rw1c, 0⟩, ⟨22, 0, .ro, 0⟩]
/-- PRS_CTRL (04_parser.md). -/
def prsCtrl : List FieldRow :=
    [⟨31, 31, .rwl, 0⟩, ⟨30, 30, .rwl, 0⟩, ⟨29, 29, .rwl, 0⟩, ⟨28, 28, .rwl, 0⟩, ⟨27, 22, .rwl, 0⟩,
     ⟨21, 13, .rwl, 0x80⟩, ⟨12, 0, .ro, 0⟩]
/-- PRS_STATUS (04_parser.md). -/
def prsStatus : List FieldRow :=
    [⟨31, 28, .ro, 0⟩, ⟨27, 21, .ro, 0⟩, ⟨20, 11, .ro, 0⟩, ⟨10, 0, .ro, 0⟩]
/-- PRS_EVENT (04_parser.md). -/
def prsEvent : List FieldRow :=
    [⟨31, 31, .rw1c, 0⟩, ⟨30, 30, .rw1c, 0⟩, ⟨29, 29, .rw1c, 0⟩, ⟨28, 28, .rw1c, 0⟩, ⟨27, 27, .rw1c, 0⟩,
     ⟨26, 26, .rw1c, 0⟩, ⟨25, 25, .rw1c, 0⟩, ⟨24, 0, .ro, 0⟩]
/-- PRS_ECC_CAPTURE (04_parser.md). -/
def prsEccCapture : List FieldRow :=
    [⟨31, 31, .rw1c, 0⟩, ⟨30, 30, .ro, 0⟩, ⟨29, 29, .ro, 0⟩, ⟨28, 14, .ro, 0⟩, ⟨13, 9, .ro, 0⟩, ⟨8, 0, .ro, 0⟩]
/-- CLS_CTRL (05_rule_tables.md). -/
def clsCtrl : List FieldRow :=
    [⟨31, 31, .rwl, 0⟩, ⟨30, 30, .rwl, 0⟩, ⟨29, 24, .rwl, 0⟩, ⟨23, 16, .rwl, 0xa⟩, ⟨15, 0, .rwl, 0x400⟩]
/-- CLS_EPOCH (05_rule_tables.md). -/
def clsEpoch : List FieldRow :=
    [⟨31, 31, .ro, 0⟩, ⟨30, 30, .ro, 0⟩, ⟨29, 29, .ro, 0⟩, ⟨28, 16, .ro, 0⟩, ⟨15, 0, .ro, 0⟩]
/-- CLS_EVENT (05_rule_tables.md). -/
def clsEvent : List FieldRow :=
    [⟨31, 31, .rw1c, 0⟩, ⟨30, 30, .rw1c, 0⟩, ⟨29, 29, .rw1c, 0⟩, ⟨28, 28, .rw1c, 0⟩, ⟨27, 27, .rw1c, 0⟩,
     ⟨26, 26, .rw1c, 0⟩, ⟨25, 25, .rw1c, 0⟩, ⟨24, 24, .rw1c, 0⟩, ⟨23, 23, .rw1c, 0⟩, ⟨22, 0, .ro, 0⟩]
/-- CLS_ECC_CAPTURE (05_rule_tables.md). -/
def clsEccCapture : List FieldRow :=
    [⟨31, 31, .rw1c, 0⟩, ⟨30, 30, .ro, 0⟩, ⟨29, 27, .ro, 0⟩, ⟨26, 21, .ro, 0⟩, ⟨20, 0, .ro, 0⟩]
/-- MSK_CTRL (06_masked_search.md). -/
def mskCtrl : List FieldRow :=
    [⟨31, 31, .rwl, 0⟩, ⟨30, 30, .rwl, 1⟩, ⟨29, 0, .ro, 0⟩]
/-- MSK_STATUS (06_masked_search.md). -/
def mskStatus : List FieldRow :=
    [⟨31, 31, .ro, 0⟩, ⟨30, 30, .ro, 0⟩, ⟨29, 15, .ro, 0⟩, ⟨14, 14, .ro, 0⟩, ⟨13, 0, .ro, 0⟩]
/-- MSK_EVENT (06_masked_search.md). -/
def mskEvent : List FieldRow :=
    [⟨31, 31, .rw1c, 0⟩, ⟨30, 30, .rw1c, 0⟩, ⟨29, 29, .rw1c, 0⟩, ⟨28, 28, .rw1c, 0⟩, ⟨27, 27, .rw1c, 0⟩,
     ⟨26, 26, .rw1c, 0⟩, ⟨25, 25, .rw1c, 0⟩, ⟨24, 0, .ro, 0⟩]
/-- MSK_SCRUB_CAPTURE (06_masked_search.md). -/
def mskScrubCapture : List FieldRow :=
    [⟨31, 31, .rw1c, 0⟩, ⟨30, 28, .ro, 0⟩, ⟨27, 14, .ro, 0⟩, ⟨13, 10, .ro, 0⟩, ⟨9, 0, .ro, 0⟩]
/-- FST_CTRL (07_flow_store.md). -/
def fstCtrl : List FieldRow :=
    [⟨31, 31, .rwl, 0⟩, ⟨30, 30, .rwl, 1⟩, ⟨29, 29, .ro, 0⟩, ⟨28, 16, .rwl, 0x400⟩, ⟨15, 0, .ro, 0⟩]
/-- FST_STATUS (07_flow_store.md). -/
def fstStatus : List FieldRow :=
    [⟨31, 31, .ro, 0⟩, ⟨30, 30, .ro, 0⟩, ⟨29, 25, .ro, 0⟩, ⟨24, 20, .ro, 0⟩, ⟨19, 19, .ro, 0⟩,
     ⟨18, 10, .ro, 0⟩, ⟨9, 0, .ro, 0⟩]
/-- FST_REBUILD_LINE (07_flow_store.md). -/
def fstRebuildLine : List FieldRow :=
    [⟨31, 23, .ro, 0⟩, ⟨22, 0, .ro, 0⟩]
/-- FST_MQ_STATUS (07_flow_store.md). -/
def fstMqStatus : List FieldRow :=
    [⟨31, 19, .ro, 0⟩, ⟨18, 6, .ro, 0⟩, ⟨5, 0, .ro, 0⟩]
/-- FST_MQ_PEAK (07_flow_store.md). -/
def fstMqPeak : List FieldRow :=
    [⟨31, 19, .rc, 0⟩, ⟨18, 6, .rc, 0⟩, ⟨5, 0, .ro, 0⟩]
/-- FST_HBM_LOAD (07_flow_store.md). -/
def fstHbmLoad : List FieldRow :=
    [⟨31, 21, .ro, 0⟩, ⟨20, 10, .ro, 0⟩, ⟨9, 0, .ro, 0⟩]
/-- FST_SWEEP_STATUS (07_flow_store.md). -/
def fstSweepStatus : List FieldRow :=
    [⟨31, 31, .ro, 0⟩, ⟨30, 27, .ro, 0⟩, ⟨26, 19, .ro, 0⟩, ⟨18, 16, .ro, 0⟩, ⟨15, 0, .ro, 0⟩]
/-- FST_CACHE_STATUS (07_flow_store.md). -/
def fstCacheStatus : List FieldRow :=
    [⟨31, 17, .ro, 0⟩, ⟨16, 2, .ro, 0⟩, ⟨1, 0, .ro, 0⟩]
/-- FST_LIVE (07_flow_store.md). -/
def fstLive : List FieldRow :=
    [⟨31, 25, .ro, 0⟩, ⟨24, 0, .ro, 0⟩]
/-- FST_EVENT (07_flow_store.md). -/
def fstEvent : List FieldRow :=
    [⟨31, 31, .rw1c, 0⟩, ⟨30, 30, .rw1c, 0⟩, ⟨29, 29, .rw1c, 0⟩, ⟨28, 28, .rw1c, 0⟩, ⟨27, 27, .rw1c, 0⟩,
     ⟨26, 26, .rw1c, 0⟩, ⟨25, 25, .rw1c, 0⟩, ⟨24, 24, .rw1c, 0⟩, ⟨23, 23, .rw1c, 0⟩, ⟨22, 0, .ro, 0⟩]
/-- FST_ECC_CAPTURE (07_flow_store.md). -/
def fstEccCapture : List FieldRow :=
    [⟨31, 31, .rw1c, 0⟩, ⟨30, 30, .ro, 0⟩, ⟨29, 28, .ro, 0⟩, ⟨27, 16, .ro, 0⟩, ⟨15, 4, .ro, 0⟩, ⟨3, 0, .ro, 0⟩]
/-- FST_LAST_LOSS (07_flow_store.md). -/
def fstLastLoss : List FieldRow :=
    [⟨31, 31, .rw1c, 0⟩, ⟨30, 29, .ro, 0⟩, ⟨28, 0, .ro, 0⟩]
/-- BPM_CTRL (08_flow_setup.md). -/
def bpmCtrl : List FieldRow :=
    [⟨31, 31, .rwl, 0⟩, ⟨30, 30, .rwl, 1⟩, ⟨29, 29, .rwl, 1⟩, ⟨28, 0, .ro, 0⟩]
/-- BPM_HEAP_FREE (08_flow_setup.md). -/
def bpmHeapFree : List FieldRow :=
    [⟨31, 30, .ro, 0⟩, ⟨29, 0, .ro, 0⟩]
/-- BPM_CTRL_FREE (08_flow_setup.md). -/
def bpmCtrlFree : List FieldRow :=
    [⟨31, 25, .ro, 0⟩, ⟨24, 0, .ro, 0⟩]
/-- BPM_STATUS (08_flow_setup.md). -/
def bpmStatus : List FieldRow :=
    [⟨31, 29, .ro, 0⟩, ⟨28, 26, .ro, 0⟩, ⟨25, 22, .ro, 0⟩, ⟨21, 16, .ro, 0⟩, ⟨15, 0, .ro, 0⟩]
/-- BPM_EVENT (08_flow_setup.md). -/
def bpmEvent : List FieldRow :=
    [⟨31, 31, .rw1c, 0⟩, ⟨30, 30, .rw1c, 0⟩, ⟨29, 29, .rw1c, 0⟩, ⟨28, 28, .rw1c, 0⟩, ⟨27, 27, .rw1c, 0⟩,
     ⟨26, 26, .rw1c, 0⟩, ⟨25, 25, .rw1c, 0⟩, ⟨24, 24, .rw1c, 0⟩, ⟨23, 0, .ro, 0⟩]
/-- BPM_BAD_CAPTURE (08_flow_setup.md). -/
def bpmBadCapture : List FieldRow :=
    [⟨31, 0, .ro, 0⟩]
/-- RIG_CTRL (09_rigs.md). -/
def rigCtrl : List FieldRow :=
    [⟨31, 31, .rwl, 0⟩, ⟨30, 30, .ro, 0⟩, ⟨29, 22, .rc, 0⟩, ⟨21, 16, .ro, 0⟩, ⟨15, 8, .rwl, 0xff⟩,
     ⟨7, 0, .ro, 0⟩]
/-- RIG_UCODE_VERSION (09_rigs.md). -/
def rigUcodeVersion : List FieldRow :=
    [⟨31, 24, .ro, 0⟩, ⟨23, 16, .ro, 0⟩, ⟨15, 4, .ro, 0⟩, ⟨3, 2, .ro, 0⟩, ⟨1, 1, .ro, 0⟩, ⟨0, 0, .ro, 0⟩]
/-- RIG_EVENT (09_rigs.md). -/
def rigEvent : List FieldRow :=
    [⟨31, 31, .rw1c, 0⟩, ⟨30, 30, .rw1c, 0⟩, ⟨29, 29, .rw1c, 0⟩, ⟨28, 28, .rw1c, 0⟩, ⟨27, 27, .rw1c, 0⟩,
     ⟨26, 26, .rw1c, 0⟩, ⟨25, 23, .ro, 0⟩, ⟨22, 19, .ro, 0⟩, ⟨18, 13, .ro, 0⟩, ⟨12, 0, .ro, 0⟩]
/-- IQM_CTRL (10_queues_fabric.md). -/
def iqmCtrl : List FieldRow :=
    [⟨31, 31, .rwl, 0⟩, ⟨30, 30, .rwl, 1⟩, ⟨29, 29, .rwl, 1⟩, ⟨28, 19, .rwl, 0x100⟩, ⟨18, 11, .rwl, 1⟩,
     ⟨10, 0, .ro, 0⟩]
/-- IQM_STATUS (10_queues_fabric.md). -/
def iqmStatus : List FieldRow :=
    [⟨31, 17, .ro, 0⟩, ⟨16, 1, .ro, 0⟩, ⟨0, 0, .ro, 0⟩]
/-- IQM_EVENT (10_queues_fabric.md). -/
def iqmEvent : List FieldRow :=
    [⟨31, 31, .rw1c, 0⟩, ⟨30, 30, .rw1c, 0⟩, ⟨29, 29, .rw1c, 0⟩, ⟨28, 28, .rw1c, 0⟩, ⟨27, 27, .rw1c, 0⟩,
     ⟨26, 26, .rw1c, 0⟩, ⟨25, 25, .rw1c, 0⟩, ⟨24, 24, .rw1c, 0⟩, ⟨23, 23, .rw1c, 0⟩, ⟨22, 22, .rw1c, 0⟩,
     ⟨21, 21, .rw1c, 0⟩, ⟨20, 20, .rw1c, 0⟩, ⟨19, 0, .ro, 0⟩]
/-- IQM_ECC_CAPTURE (10_queues_fabric.md). -/
def iqmEccCapture : List FieldRow :=
    [⟨31, 31, .rw1c, 0⟩, ⟨30, 30, .ro, 0⟩, ⟨29, 28, .ro, 0⟩, ⟨27, 16, .ro, 0⟩, ⟨15, 0, .ro, 0⟩]
/-- FAB_STATUS (10_queues_fabric.md). -/
def fabStatus : List FieldRow :=
    [⟨31, 16, .ro, 0⟩, ⟨15, 0, .ro, 0⟩]
/-- FAB_EVENT (10_queues_fabric.md). -/
def fabEvent : List FieldRow :=
    [⟨31, 31, .rw1c, 0⟩, ⟨30, 30, .rw1c, 0⟩, ⟨29, 29, .rw1c, 0⟩, ⟨28, 0, .ro, 0⟩]
/-- FAB_ECC_CAPTURE (10_queues_fabric.md). -/
def fabEccCapture : List FieldRow :=
    [⟨31, 31, .rw1c, 0⟩, ⟨30, 30, .ro, 0⟩, ⟨29, 25, .ro, 0⟩, ⟨24, 20, .ro, 0⟩, ⟨19, 0, .ro, 0⟩]
/-- FAB_BRIDGE_LOAD (10_queues_fabric.md). -/
def fabBridgeLoad : List FieldRow :=
    [⟨31, 16, .ro, 0⟩, ⟨15, 0, .ro, 0⟩]
/-- EGS_CTRL (11_egress.md). -/
def egsCtrl : List FieldRow :=
    [⟨31, 31, .rwl, 0⟩, ⟨30, 29, .rwl, 0⟩, ⟨28, 21, .rwl, 0xff⟩, ⟨20, 5, .rwl, 0x1f4⟩, ⟨4, 0, .ro, 0⟩]
/-- EGS_STATUS (11_egress.md). -/
def egsStatus : List FieldRow :=
    [⟨31, 24, .ro, 0⟩, ⟨23, 16, .ro, 0⟩, ⟨15, 8, .ro, 0⟩, ⟨7, 0, .ro, 0⟩]
/-- EGS_EVENT (11_egress.md). -/
def egsEvent : List FieldRow :=
    [⟨31, 31, .rw1c, 0⟩, ⟨30, 30, .rw1c, 0⟩, ⟨29, 29, .rw1c, 0⟩, ⟨28, 28, .rw1c, 0⟩, ⟨27, 27, .rw1c, 0⟩,
     ⟨26, 26, .rw1c, 0⟩, ⟨25, 25, .rw1c, 0⟩, ⟨24, 24, .rw1c, 0⟩, ⟨23, 23, .rw1c, 0⟩, ⟨22, 22, .rw1c, 0⟩,
     ⟨21, 21, .rw1c, 0⟩, ⟨20, 20, .rw1c, 0⟩, ⟨19, 19, .rw1c, 0⟩, ⟨18, 0, .ro, 0⟩]
/-- EGS_TC_COUNT (11_egress.md). -/
def egsTcCount : List FieldRow :=
    [⟨31, 16, .rc, 0⟩, ⟨15, 0, .rc, 0⟩]
/-- EGS_WHEEL_STATUS (11_egress.md). -/
def egsWheelStatus : List FieldRow :=
    [⟨31, 19, .ro, 0⟩, ⟨18, 12, .ro, 0⟩, ⟨11, 5, .ro, 0⟩, ⟨4, 0, .rc, 0⟩]
/-- EGS_ECC_CAPTURE (11_egress.md). -/
def egsEccCapture : List FieldRow :=
    [⟨31, 31, .rw1c, 0⟩, ⟨30, 30, .ro, 0⟩, ⟨29, 28, .ro, 0⟩, ⟨27, 25, .ro, 0⟩, ⟨24, 16, .ro, 0⟩,
     ⟨15, 0, .ro, 0⟩]
/-- RED_CTRL (11_egress.md). -/
def redCtrl : List FieldRow :=
    [⟨31, 31, .rwl, 0⟩, ⟨30, 30, .rwl, 1⟩, ⟨29, 16, .ro, 0⟩, ⟨15, 0, .rwl, 0x7d0⟩]
/-- RED_STATUS (11_egress.md). -/
def redStatus : List FieldRow :=
    [⟨31, 19, .ro, 0⟩, ⟨18, 6, .ro, 0⟩, ⟨5, 0, .ro, 0⟩]
/-- RED_EVENT (11_egress.md). -/
def redEvent : List FieldRow :=
    [⟨31, 31, .rw1c, 0⟩, ⟨30, 30, .rw1c, 0⟩, ⟨29, 29, .rw1c, 0⟩, ⟨28, 0, .ro, 0⟩]
/-- RED_LATENT_CAPTURE (11_egress.md). -/
def redLatentCapture : List FieldRow :=
    [⟨31, 31, .rw1c, 0⟩, ⟨30, 12, .ro, 0⟩, ⟨11, 0, .ro, 0⟩]
/-- MCX_CTRL (12_hbm.md). -/
def mcxCtrl : List FieldRow :=
    [⟨31, 31, .rwl, 0⟩, ⟨30, 30, .rwl, 1⟩, ⟨29, 24, .ro, 0⟩, ⟨23, 16, .rwl, 0x18⟩, ⟨15, 8, .rwl, 0x64⟩,
     ⟨7, 0, .ro, 0⟩]
/-- MCX_STATUS (12_hbm.md). -/
def mcxStatus : List FieldRow :=
    [⟨31, 30, .ro, 0⟩, ⟨29, 29, .ro, 0⟩, ⟨28, 24, .ro, 0⟩, ⟨23, 23, .ro, 0⟩, ⟨22, 16, .ro, 0⟩, ⟨15, 0, .ro, 0⟩]
/-- MCX_EVENT (12_hbm.md). -/
def mcxEvent : List FieldRow :=
    [⟨31, 31, .rw1c, 0⟩, ⟨30, 30, .rw1c, 0⟩, ⟨29, 29, .rw1c, 0⟩, ⟨28, 28, .rw1c, 0⟩, ⟨27, 27, .rw1c, 0⟩,
     ⟨26, 26, .rw1c, 0⟩, ⟨25, 25, .rw1c, 0⟩, ⟨24, 24, .rw1c, 0⟩, ⟨23, 23, .rw1c, 0⟩, ⟨22, 22, .rw1c, 0⟩,
     ⟨21, 0, .ro, 0⟩]
/-- MCX_RH_CFG (12_hbm.md). -/
def mcxRhCfg : List FieldRow :=
    [⟨31, 16, .rwl, 0x400⟩, ⟨15, 0, .ro, 0⟩]
/-- MCX_PC_FROZEN (12_hbm.md). -/
def mcxPcFrozen : List FieldRow :=
    [⟨31, 0, .ro, 0⟩]
/-- MCX_PC_HOLD (12_hbm.md). -/
def mcxPcHold : List FieldRow :=
    [⟨31, 0, .rw, 0⟩]
/-- MCX_PC_RETIRED (12_hbm.md). -/
def mcxPcRetired : List FieldRow :=
    [⟨31, 0, .ro, 0⟩]
/-- MCX_UE_CAPTURE (12_hbm.md). -/
def mcxUeCapture : List FieldRow :=
    [⟨31, 0, .ro, 0⟩]
/-- MCX_RETIRE_LINE (12_hbm.md). -/
def mcxRetireLine : List FieldRow :=
    [⟨31, 23, .ro, 0⟩, ⟨22, 0, .ro, 0⟩]
/-- MCX_HIST_INDEX (12_hbm.md). -/
def mcxHistIndex : List FieldRow :=
    [⟨31, 31, .ro, 0⟩, ⟨30, 8, .ro, 0⟩, ⟨7, 0, .rw, 0⟩]
/-- MCX_HIST_DATA (12_hbm.md). -/
def mcxHistData : List FieldRow :=
    [⟨31, 0, .ro, 0⟩]
/-- MCX_TEMP (12_hbm.md). -/
def mcxTemp : List FieldRow :=
    [⟨31, 24, .rc, 0⟩, ⟨23, 16, .ro, 0⟩, ⟨15, 15, .ro, 0⟩, ⟨14, 0, .ro, 0⟩]
/-- MCX_TRAIN_STATUS (12_hbm.md). -/
def mcxTrainStatus : List FieldRow :=
    [⟨31, 16, .rc, 0⟩, ⟨15, 8, .rc, 0⟩, ⟨7, 0, .ro, 0⟩]
/-- MCX_SR_STATUS (12_hbm.md). -/
def mcxSrStatus : List FieldRow :=
    [⟨31, 16, .rc, 0⟩, ⟨15, 0, .ro, 0⟩]
/-- MCX_LOAD (12_hbm.md). -/
def mcxLoad : List FieldRow :=
    [⟨31, 16, .ro, 0⟩, ⟨15, 0, .ro, 0⟩]
/-- MCX_RH_STATUS (12_hbm.md). -/
def mcxRhStatus : List FieldRow :=
    [⟨31, 16, .rc, 0⟩, ⟨15, 10, .ro, 0⟩, ⟨9, 0, .rc, 0⟩]
/-- MCX_CE_CAPTURE (12_hbm.md). -/
def mcxCeCapture : List FieldRow :=
    [⟨31, 31, .rw1c, 0⟩, ⟨30, 26, .ro, 0⟩, ⟨25, 3, .ro, 0⟩, ⟨2, 0, .ro, 0⟩]
/-- MCX_UE_RECENT (12_hbm.md). -/
def mcxUeRecent : List FieldRow :=
    [⟨31, 27, .ro, 0⟩, ⟨26, 25, .ro, 0⟩, ⟨24, 0, .ro, 0⟩]
/-- CRD_CTRL (13_criod.md). -/
def crdCtrl : List FieldRow :=
    [⟨31, 31, .rwl, 0⟩, ⟨30, 30, .rwl, 0⟩, ⟨29, 28, .rwl, 1⟩, ⟨27, 26, .rwl, 3⟩, ⟨25, 24, .ro, 0⟩,
     ⟨23, 16, .rwl, 0x64⟩, ⟨15, 8, .rwl, 0xa⟩, ⟨7, 0, .ro, 0⟩]
/-- CRD_CORE_STATUS (13_criod.md). -/
def crdCoreStatus : List FieldRow :=
    [⟨31, 30, .ro, 0⟩, ⟨29, 29, .ro, 0⟩, ⟨28, 25, .ro, 0⟩, ⟨24, 24, .ro, 0⟩, ⟨23, 16, .ro, 0⟩, ⟨15, 0, .ro, 0⟩]
/-- CRD_THREAD_STATE (13_criod.md). -/
def crdThreadState : List FieldRow :=
    [⟨31, 0, .ro, 0⟩]
/-- CRD_THREAD_CLASS (13_criod.md). -/
def crdThreadClass : List FieldRow :=
    [⟨31, 16, .ro, 0⟩, ⟨15, 0, .ro, 0⟩]
/-- CRD_SCHED_STATUS (13_criod.md). -/
def crdSchedStatus : List FieldRow :=
    [⟨31, 21, .ro, 0⟩, ⟨20, 10, .ro, 0⟩, ⟨9, 5, .ro, 0⟩, ⟨4, 0, .ro, 0⟩]
/-- CRD_BECALMED (13_criod.md). -/
def crdBecalmed : List FieldRow :=
    [⟨31, 31, .ro, 0⟩, ⟨30, 30, .rw1c, 0⟩, ⟨29, 11, .ro, 0⟩, ⟨10, 0, .ro, 0⟩]
/-- CRD_BECALMED_TIME (13_criod.md). -/
def crdBecalmedTime : List FieldRow :=
    [⟨31, 0, .ro, 0⟩]
/-- CRD_TAKEOVER (13_criod.md). -/
def crdTakeover : List FieldRow :=
    [⟨31, 30, .ro, 0⟩, ⟨29, 28, .ro, 0⟩, ⟨27, 26, .ro, 0⟩, ⟨25, 25, .ro, 0⟩, ⟨24, 0, .ro, 0⟩]
/-- CRD_FENCE (13_criod.md). -/
def crdFence : List FieldRow :=
    [⟨31, 0, .ro, 0⟩]
/-- CRD_HEALTH (13_criod.md). -/
def crdHealth : List FieldRow :=
    [⟨31, 0, .ro, 0⟩]
/-- CRD_THREAD_FAULT (13_criod.md). -/
def crdThreadFault : List FieldRow :=
    [⟨31, 0, .ro, 0⟩]
/-- CRD_EVENT (13_criod.md). -/
def crdEvent : List FieldRow :=
    [⟨31, 31, .rw1c, 0⟩, ⟨30, 30, .rw1c, 0⟩, ⟨29, 29, .rw1c, 0⟩, ⟨28, 28, .rw1c, 0⟩, ⟨27, 27, .rw1c, 0⟩,
     ⟨26, 26, .rw1c, 0⟩, ⟨25, 25, .rw1c, 0⟩, ⟨24, 24, .rw1c, 0⟩, ⟨23, 23, .rw1c, 0⟩, ⟨22, 22, .rw1c, 0⟩,
     ⟨21, 0, .ro, 0⟩]
/-- SYS_ID (14_host_interface.md). -/
def sysId : List FieldRow :=
    [⟨31, 16, .ro, 0x5120⟩, ⟨15, 12, .ro, 1⟩, ⟨11, 8, .ro, 0⟩, ⟨7, 0, .ro, 6⟩]
/-- SYS_CTRL (14_host_interface.md). -/
def sysCtrl : List FieldRow :=
    [⟨31, 31, .rwl, 0⟩, ⟨30, 24, .ro, 0⟩, ⟨23, 16, .wo, 0⟩, ⟨15, 9, .ro, 0⟩, ⟨8, 8, .rw, 0⟩, ⟨7, 1, .ro, 0⟩,
     ⟨0, 0, .wo, 0⟩]
/-- SYS_STATUS (14_host_interface.md). -/
def sysStatus : List FieldRow :=
    [⟨31, 28, .ro, 0⟩, ⟨27, 27, .ro, 0⟩, ⟨26, 26, .ro, 0⟩, ⟨25, 25, .ro, 0⟩, ⟨24, 24, .ro, 0⟩,
     ⟨23, 23, .ro, 0⟩, ⟨22, 0, .ro, 0⟩]
/-- SYS_STRAPS (14_host_interface.md). -/
def sysStraps : List FieldRow :=
    [⟨31, 7, .ro, 0⟩, ⟨6, 5, .ro, 0⟩, ⟨4, 3, .ro, 0⟩, ⟨2, 1, .ro, 0⟩, ⟨0, 0, .ro, 0⟩]
/-- SYS_FW_VERSION (14_host_interface.md). -/
def sysFwVersion : List FieldRow :=
    [⟨31, 24, .ro, 0⟩, ⟨23, 16, .ro, 0⟩, ⟨15, 0, .ro, 0⟩]
/-- SYS_RESET_CAUSE (14_host_interface.md). -/
def sysResetCause : List FieldRow :=
    [⟨31, 16, .rws, 0⟩, ⟨15, 5, .ro, 0⟩, ⟨4, 4, .rw1c, 0⟩, ⟨3, 3, .rw1c, 0⟩, ⟨2, 2, .rw1c, 0⟩,
     ⟨1, 1, .rw1c, 0⟩, ⟨0, 0, .rw1c, 1⟩]
/-- SYS_SERIAL (14_host_interface.md). -/
def sysSerial : List FieldRow :=
    [⟨31, 0, .ro, 0⟩]
/-- SYS_IRQ_STATUS (14_host_interface.md). -/
def sysIrqStatus : List FieldRow :=
    [⟨31, 10, .ro, 0⟩, ⟨9, 9, .rw1c, 0⟩, ⟨8, 8, .rw1c, 0⟩, ⟨7, 7, .rw1c, 0⟩, ⟨6, 6, .rw1c, 0⟩,
     ⟨5, 5, .rw1c, 0⟩, ⟨4, 4, .rw1c, 0⟩, ⟨3, 3, .rw1c, 0⟩, ⟨2, 2, .rw1c, 0⟩, ⟨1, 1, .rw1c, 0⟩, ⟨0, 0, .rw1c, 0⟩]
/-- SYS_IRQ_MASK (14_host_interface.md). -/
def sysIrqMask : List FieldRow :=
    [⟨31, 16, .rw, 6⟩, ⟨15, 0, .rw, 0⟩]
/-- SYS_SCRATCH (14_host_interface.md). -/
def sysScratch : List FieldRow :=
    [⟨31, 0, .rws, 0⟩]
/-- PCI_CTRL (14_host_interface.md). -/
def pciCtrl : List FieldRow :=
    [⟨31, 1, .ro, 0⟩, ⟨0, 0, .rw, 0⟩]
/-- PCI_STATUS (14_host_interface.md). -/
def pciStatus : List FieldRow :=
    [⟨31, 28, .ro, 0⟩, ⟨27, 24, .ro, 0⟩, ⟨23, 23, .ro, 0⟩, ⟨22, 22, .ro, 0⟩, ⟨21, 21, .ro, 0⟩,
     ⟨20, 16, .ro, 0⟩, ⟨15, 0, .rc, 0⟩]
/-- PCI_EVENT (14_host_interface.md). -/
def pciEvent : List FieldRow :=
    [⟨31, 31, .rw1c, 0⟩, ⟨30, 30, .rw1c, 0⟩, ⟨29, 29, .rw1c, 0⟩, ⟨28, 28, .rw1c, 0⟩, ⟨27, 27, .rw1c, 0⟩,
     ⟨26, 26, .rw1c, 0⟩, ⟨25, 25, .rw1c, 0⟩, ⟨24, 24, .rw1c, 0⟩, ⟨23, 0, .ro, 0⟩]
/-- PCI_ERR_CAPTURE (14_host_interface.md). -/
def pciErrCapture : List FieldRow :=
    [⟨31, 0, .ro, 0⟩]
/-- PCI_DMA_STATUS (14_host_interface.md). -/
def pciDmaStatus : List FieldRow :=
    [⟨31, 22, .ro, 0⟩, ⟨21, 15, .ro, 0⟩, ⟨14, 0, .ro, 0⟩]
/-- MBX_CTRL (14_host_interface.md). -/
def mbxCtrl : List FieldRow :=
    [⟨31, 10, .ro, 0⟩, ⟨9, 9, .rw, 1⟩, ⟨8, 8, .rw, 0⟩, ⟨7, 0, .rw, 0⟩]
/-- MBX_STATUS (14_host_interface.md). -/
def mbxStatus : List FieldRow :=
    [⟨31, 24, .ro, 0⟩, ⟨23, 23, .ro, 0⟩, ⟨22, 22, .ro, 0⟩, ⟨21, 14, .ro, 0⟩, ⟨13, 8, .ro, 0⟩, ⟨7, 0, .ro, 0⟩]
/-- MBX_EVENT (14_host_interface.md). -/
def mbxEvent : List FieldRow :=
    [⟨31, 31, .rw1c, 0⟩, ⟨30, 30, .rw1c, 0⟩, ⟨29, 29, .rw1c, 0⟩, ⟨28, 28, .rw1c, 0⟩, ⟨27, 27, .rw1c, 0⟩,
     ⟨26, 26, .rw1c, 0⟩, ⟨25, 25, .rw1c, 0⟩, ⟨24, 0, .ro, 0⟩]
/-- MBX_ERR_CAPTURE (14_host_interface.md). -/
def mbxErrCapture : List FieldRow :=
    [⟨31, 31, .rw1c, 0⟩, ⟨30, 28, .ro, 0⟩, ⟨27, 22, .ro, 0⟩, ⟨21, 16, .ro, 0⟩, ⟨15, 0, .ro, 0⟩]
/-- MBX_SETUP (14_host_interface.md). -/
def mbxSetup : List FieldRow :=
    [⟨31, 0, .rw, 0⟩]
/-- MBX_QSTATE (14_host_interface.md). -/
def mbxQstate : List FieldRow :=
    [⟨31, 16, .ro, 0⟩, ⟨15, 0, .ro, 0⟩]
/-- MBX_SQ_DB (14_host_interface.md). -/
def mbxSqDb : List FieldRow :=
    [⟨31, 16, .wo, 0⟩, ⟨15, 0, .wo, 0⟩]
/-- MBX_CQ_DB (14_host_interface.md). -/
def mbxCqDb : List FieldRow :=
    [⟨31, 31, .wo, 0⟩, ⟨30, 16, .wo, 0⟩, ⟨15, 0, .wo, 0⟩]
/-- RING_DB (14_host_interface.md). -/
def ringDb : List FieldRow :=
    [⟨31, 26, .wo, 0⟩, ⟨25, 25, .wo, 0⟩, ⟨24, 16, .wo, 0⟩, ⟨15, 0, .wo, 0⟩]
/-- FLT_CTRL (15_faults.md). -/
def fltCtrl : List FieldRow :=
    [⟨31, 31, .rwl, 0⟩, ⟨30, 28, .rwl, 2⟩, ⟨27, 0, .ro, 0⟩]
/-- FLT_STATUS (15_faults.md). -/
def fltStatus : List FieldRow :=
    [⟨31, 31, .ro, 0⟩, ⟨30, 30, .ro, 0⟩, ⟨29, 29, .ro, 0⟩, ⟨28, 28, .ro, 0⟩, ⟨27, 27, .ro, 0⟩,
     ⟨26, 26, .rw1c, 0⟩, ⟨25, 25, .rw1c, 0⟩, ⟨24, 22, .rc, 0⟩, ⟨21, 12, .ro, 0⟩, ⟨11, 2, .ro, 0⟩,
     ⟨1, 0, .rc, 0⟩]
/-- FLT_REDUCTION (15_faults.md). -/
def fltReduction : List FieldRow :=
    [⟨31, 31, .ro, 0⟩, ⟨30, 30, .ro, 0⟩, ⟨29, 17, .ro, 0⟩, ⟨16, 16, .ro, 0⟩, ⟨15, 15, .ro, 0⟩,
     ⟨14, 14, .ro, 0⟩, ⟨13, 13, .ro, 0⟩, ⟨12, 12, .ro, 0⟩, ⟨11, 11, .ro, 0⟩, ⟨10, 10, .ro, 0⟩, ⟨9, 9, .ro, 0⟩,
     ⟨8, 8, .ro, 0⟩, ⟨7, 7, .ro, 0⟩, ⟨6, 6, .ro, 0⟩, ⟨5, 5, .ro, 0⟩, ⟨4, 4, .ro, 0⟩, ⟨3, 3, .ro, 0⟩,
     ⟨2, 2, .ro, 0⟩, ⟨1, 1, .ro, 0⟩, ⟨0, 0, .ro, 0⟩]
/-- FLT_FIRST_CODE (15_faults.md). -/
def fltFirstCode : List FieldRow :=
    [⟨31, 31, .rw1c, 0⟩, ⟨30, 28, .ro, 0⟩, ⟨27, 27, .ro, 0⟩, ⟨26, 26, .ro, 0⟩, ⟨25, 16, .ro, 0⟩,
     ⟨15, 0, .ro, 0⟩]
/-- FLT_FIRST_SOURCE (15_faults.md). -/
def fltFirstSource : List FieldRow :=
    [⟨31, 16, .ro, 0⟩, ⟨15, 13, .ro, 0⟩, ⟨12, 10, .ro, 0⟩, ⟨9, 0, .ro, 0⟩]
/-- FLT_FIRST_ADDR (15_faults.md). -/
def fltFirstAddr : List FieldRow :=
    [⟨31, 0, .ro, 0⟩]
/-- FLT_FIRST_TIME (15_faults.md). -/
def fltFirstTime : List FieldRow :=
    [⟨31, 0, .ro, 0⟩]
/-- FLT_FIRST_CYCLE (15_faults.md). -/
def fltFirstCycle : List FieldRow :=
    [⟨31, 0, .ro, 0⟩]
/-- FLT_SIMUL (15_faults.md). -/
def fltSimul : List FieldRow :=
    [⟨31, 16, .ro, 0⟩, ⟨15, 0, .rc, 0⟩]
/-- FLT_AVAIL_LOSS (15_faults.md). -/
def fltAvailLoss : List FieldRow :=
    [⟨31, 0, .rws, 0⟩]
/-- FLT_AVAIL_SERVICE (15_faults.md). -/
def fltAvailService : List FieldRow :=
    [⟨31, 0, .rws, 0⟩]
/-- LOG_CTRL (15_faults.md). -/
def logCtrl : List FieldRow :=
    [⟨31, 31, .rwl, 0⟩, ⟨30, 30, .rwl, 1⟩, ⟨29, 29, .wo, 0⟩, ⟨28, 0, .ro, 0⟩]
/-- LOG_STATUS (15_faults.md). -/
def logStatus : List FieldRow :=
    [⟨31, 31, .ro, 0⟩, ⟨30, 30, .rws, 0⟩, ⟨29, 16, .ro, 0⟩, ⟨15, 0, .rws, 0⟩]
/-- LOG_SEQ (15_faults.md). -/
def logSeq : List FieldRow :=
    [⟨31, 0, .rws, 0⟩]
/-- LOG_LASTGASP (15_faults.md). -/
def logLastgasp : List FieldRow :=
    [⟨31, 31, .ro, 0⟩, ⟨30, 30, .ro, 0⟩, ⟨29, 29, .ro, 0⟩, ⟨28, 28, .ro, 0⟩, ⟨27, 27, .ro, 0⟩, ⟨26, 0, .ro, 0⟩]
/-- LOG_EVENT (15_faults.md). -/
def logEvent : List FieldRow :=
    [⟨31, 31, .rw1c, 0⟩, ⟨30, 30, .rw1c, 0⟩, ⟨29, 29, .rw1c, 0⟩, ⟨28, 28, .rw1c, 0⟩, ⟨27, 16, .ro, 0⟩,
     ⟨15, 0, .rc, 0⟩]
/-- LOG_FILTER (15_faults.md). -/
def logFilter : List FieldRow :=
    [⟨31, 29, .rwl, 0⟩, ⟨28, 0, .ro, 0⟩]
/-- CNT_CTRL (16_counters_life.md). -/
def cntCtrl : List FieldRow :=
    [⟨31, 31, .rwl, 0⟩, ⟨30, 0, .ro, 0⟩]
/-- CNT_SNAP_REQ (16_counters_life.md). -/
def cntSnapReq : List FieldRow :=
    [⟨31, 31, .wo, 0⟩, ⟨30, 30, .wo, 0⟩, ⟨29, 4, .wo, 0⟩, ⟨3, 0, .wo, 0⟩]
/-- CNT_BANK_STATUS (16_counters_life.md). -/
def cntBankStatus : List FieldRow :=
    [⟨31, 30, .ro, 0⟩, ⟨29, 29, .rw, 0⟩, ⟨28, 28, .ro, 0⟩, ⟨27, 27, .ro, 0⟩, ⟨26, 26, .rw1c, 0⟩,
     ⟨25, 20, .ro, 0⟩, ⟨19, 16, .ro, 0⟩, ⟨15, 14, .ro, 0⟩, ⟨13, 13, .rw, 0⟩, ⟨12, 12, .ro, 0⟩,
     ⟨11, 11, .ro, 0⟩, ⟨10, 10, .rw1c, 0⟩, ⟨9, 4, .ro, 0⟩, ⟨3, 0, .ro, 0⟩]
/-- CNT_BANK_TIME (16_counters_life.md). -/
def cntBankTime : List FieldRow :=
    [⟨31, 0, .ro, 0⟩]
/-- CNT_WIN_ADDR (16_counters_life.md). -/
def cntWinAddr : List FieldRow :=
    [⟨31, 31, .rw, 0⟩, ⟨30, 29, .rw, 0⟩, ⟨28, 18, .ro, 0⟩, ⟨17, 0, .rw, 0⟩]
/-- CNT_WIN_DATA (16_counters_life.md). -/
def cntWinData : List FieldRow :=
    [⟨31, 0, .ro, 0⟩]
/-- CNT_LIVE_ADDR (16_counters_life.md). -/
def cntLiveAddr : List FieldRow :=
    [⟨31, 31, .ro, 0⟩, ⟨30, 29, .rw, 0⟩, ⟨28, 18, .ro, 0⟩, ⟨17, 0, .rw, 0⟩]
/-- CNT_LIVE_DATA (16_counters_life.md). -/
def cntLiveData : List FieldRow :=
    [⟨31, 0, .ro, 0⟩]
/-- CNT_EVENT (16_counters_life.md). -/
def cntEvent : List FieldRow :=
    [⟨31, 31, .rw1c, 0⟩, ⟨30, 30, .rw1c, 0⟩, ⟨29, 29, .rw1c, 0⟩, ⟨28, 28, .rw1c, 0⟩, ⟨27, 27, .rw1c, 0⟩,
     ⟨26, 0, .ro, 0⟩]
/-- LIFE_CTRL (16_counters_life.md). -/
def lifeCtrl : List FieldRow :=
    [⟨31, 31, .rwl, 0⟩, ⟨30, 30, .rwl, 1⟩, ⟨29, 11, .ro, 0⟩, ⟨10, 0, .rwl, 0x18⟩]
/-- LIFE_STATUS (16_counters_life.md). -/
def lifeStatus : List FieldRow :=
    [⟨31, 31, .ro, 1⟩, ⟨30, 30, .ro, 1⟩, ⟨29, 29, .ro, 0⟩, ⟨28, 16, .ro, 0⟩, ⟨15, 0, .ro, 0xffff⟩]
/-- LIFE_HOURS (16_counters_life.md). -/
def lifeHours : List FieldRow :=
    [⟨31, 0, .ro, 0⟩]
/-- LIFE_SENSOR_SEL (16_counters_life.md). -/
def lifeSensorSel : List FieldRow :=
    [⟨31, 6, .ro, 0⟩, ⟨5, 0, .rw, 0⟩]
/-- LIFE_SENSOR_DATA (16_counters_life.md). -/
def lifeSensorData : List FieldRow :=
    [⟨31, 16, .ro, 0⟩, ⟨15, 0, .ro, 0xffff⟩]
/-- LIFE_THERMAL (16_counters_life.md). -/
def lifeThermal : List FieldRow :=
    [⟨31, 24, .ro, 0⟩, ⟨23, 16, .ro, 0⟩, ⟨15, 0, .ro, 0⟩]
/-- LIFE_ACC (16_counters_life.md). -/
def lifeAcc : List FieldRow :=
    [⟨31, 31, .ro, 0⟩, ⟨30, 30, .ro, 0⟩, ⟨29, 0, .ro, 0⟩]
/-- LIFE_EVENT (16_counters_life.md). -/
def lifeEvent : List FieldRow :=
    [⟨31, 31, .rw1c, 0⟩, ⟨30, 30, .rw1c, 0⟩, ⟨29, 29, .rw1c, 0⟩, ⟨28, 28, .rw1c, 0⟩, ⟨27, 0, .ro, 0⟩]
/-- STK_CTRL (17_stacking.md). -/
def stkCtrl : List FieldRow :=
    [⟨31, 31, .rwl, 0⟩, ⟨30, 29, .rwl, 0⟩, ⟨28, 21, .rwl, 0x50⟩, ⟨20, 0, .ro, 0⟩]
/-- STK_STATUS (17_stacking.md). -/
def stkStatus : List FieldRow :=
    [⟨31, 30, .ro, 0⟩, ⟨29, 28, .ro, 0⟩, ⟨27, 27, .ro, 0⟩, ⟨26, 26, .ro, 0⟩, ⟨25, 25, .ro, 0⟩,
     ⟨24, 24, .ro, 0⟩, ⟨23, 20, .ro, 0⟩, ⟨19, 16, .ro, 0⟩, ⟨15, 0, .ro, 0⟩]
/-- STK_GEN (17_stacking.md). -/
def stkGen : List FieldRow :=
    [⟨31, 16, .ro, 0⟩, ⟨15, 0, .ro, 0⟩]
/-- STK_REMOTE (17_stacking.md). -/
def stkRemote : List FieldRow :=
    [⟨31, 15, .ro, 0⟩, ⟨14, 0, .rc, 0⟩]
/-- STK_EVENT (17_stacking.md). -/
def stkEvent : List FieldRow :=
    [⟨31, 31, .rw1c, 0⟩, ⟨30, 30, .rw1c, 0⟩, ⟨29, 29, .rw1c, 0⟩, ⟨28, 28, .rw1c, 0⟩, ⟨27, 27, .rw1c, 0⟩,
     ⟨26, 26, .rw1c, 0⟩, ⟨25, 25, .rw1c, 0⟩, ⟨24, 0, .ro, 0⟩]
/-- STK_LINK (17_stacking.md). -/
def stkLink : List FieldRow :=
    [⟨31, 31, .ro, 0⟩, ⟨30, 30, .ro, 0⟩, ⟨29, 28, .ro, 0⟩, ⟨27, 23, .ro, 0⟩, ⟨22, 16, .ro, 0⟩, ⟨15, 0, .ro, 0⟩]

end Rows

/-- The fields of each register, reserved fields included. -/
def Reg.fields : Reg → List FieldRow
  | .tbsCtrl => Rows.tbsCtrl
  | .tbsTimeFrac => Rows.tbsTimeFrac
  | .tbsTimeNs => Rows.tbsTimeNs
  | .tbsTimeSecLo => Rows.tbsTimeSecLo
  | .tbsTimeSecHi => Rows.tbsTimeSecHi
  | .tbsServoStatus => Rows.tbsServoStatus
  | .tbsServoGain => Rows.tbsServoGain
  | .tbsFreq => Rows.tbsFreq
  | .tbsFreqMax => Rows.tbsFreqMax
  | .tbsThresh => Rows.tbsThresh
  | .tbsStepThresh => Rows.tbsStepThresh
  | .tbsHoldover => Rows.tbsHoldover
  | .tbsDomainCtrl => Rows.tbsDomainCtrl
  | .tbsDomainOffset => Rows.tbsDomainOffset
  | .tbsAbDiff => Rows.tbsAbDiff
  | .tbsSlew => Rows.tbsSlew
  | .tbsSlewBias => Rows.tbsSlewBias
  | .tbsIoCtrl => Rows.tbsIoCtrl
  | .tbsPpsInCapture => Rows.tbsPpsInCapture
  | .tbsSynceCtrl => Rows.tbsSynceCtrl
  | .tecStatus => Rows.tecStatus
  | .tecFireCount => Rows.tecFireCount
  | .tecFlagCount => Rows.tecFlagCount
  | .portCfg => Rows.portCfg
  | .portStatus => Rows.portStatus
  | .portTsLatency => Rows.portTsLatency
  | .portEvent => Rows.portEvent
  | .prsCtrl => Rows.prsCtrl
  | .prsStatus => Rows.prsStatus
  | .prsEvent => Rows.prsEvent
  | .prsEccCapture => Rows.prsEccCapture
  | .clsCtrl => Rows.clsCtrl
  | .clsEpoch => Rows.clsEpoch
  | .clsEvent => Rows.clsEvent
  | .clsEccCapture => Rows.clsEccCapture
  | .mskCtrl => Rows.mskCtrl
  | .mskStatus => Rows.mskStatus
  | .mskEvent => Rows.mskEvent
  | .mskScrubCapture => Rows.mskScrubCapture
  | .fstCtrl => Rows.fstCtrl
  | .fstStatus => Rows.fstStatus
  | .fstRebuildLine => Rows.fstRebuildLine
  | .fstMqStatus => Rows.fstMqStatus
  | .fstMqPeak => Rows.fstMqPeak
  | .fstHbmLoad => Rows.fstHbmLoad
  | .fstSweepStatus => Rows.fstSweepStatus
  | .fstCacheStatus => Rows.fstCacheStatus
  | .fstLive => Rows.fstLive
  | .fstEvent => Rows.fstEvent
  | .fstEccCapture => Rows.fstEccCapture
  | .fstLastLoss => Rows.fstLastLoss
  | .bpmCtrl => Rows.bpmCtrl
  | .bpmHeapFree => Rows.bpmHeapFree
  | .bpmCtrlFree => Rows.bpmCtrlFree
  | .bpmStatus => Rows.bpmStatus
  | .bpmEvent => Rows.bpmEvent
  | .bpmBadCapture => Rows.bpmBadCapture
  | .rigCtrl => Rows.rigCtrl
  | .rigUcodeVersion => Rows.rigUcodeVersion
  | .rigEvent => Rows.rigEvent
  | .iqmCtrl => Rows.iqmCtrl
  | .iqmStatus => Rows.iqmStatus
  | .iqmEvent => Rows.iqmEvent
  | .iqmEccCapture => Rows.iqmEccCapture
  | .fabStatus => Rows.fabStatus
  | .fabEvent => Rows.fabEvent
  | .fabEccCapture => Rows.fabEccCapture
  | .fabBridgeLoad => Rows.fabBridgeLoad
  | .egsCtrl => Rows.egsCtrl
  | .egsStatus => Rows.egsStatus
  | .egsEvent => Rows.egsEvent
  | .egsTcCount => Rows.egsTcCount
  | .egsWheelStatus => Rows.egsWheelStatus
  | .egsEccCapture => Rows.egsEccCapture
  | .redCtrl => Rows.redCtrl
  | .redStatus => Rows.redStatus
  | .redEvent => Rows.redEvent
  | .redLatentCapture => Rows.redLatentCapture
  | .mcxCtrl => Rows.mcxCtrl
  | .mcxStatus => Rows.mcxStatus
  | .mcxEvent => Rows.mcxEvent
  | .mcxRhCfg => Rows.mcxRhCfg
  | .mcxPcFrozen => Rows.mcxPcFrozen
  | .mcxPcHold => Rows.mcxPcHold
  | .mcxPcRetired => Rows.mcxPcRetired
  | .mcxUeCapture => Rows.mcxUeCapture
  | .mcxRetireLine => Rows.mcxRetireLine
  | .mcxHistIndex => Rows.mcxHistIndex
  | .mcxHistData => Rows.mcxHistData
  | .mcxTemp => Rows.mcxTemp
  | .mcxTrainStatus => Rows.mcxTrainStatus
  | .mcxSrStatus => Rows.mcxSrStatus
  | .mcxLoad => Rows.mcxLoad
  | .mcxRhStatus => Rows.mcxRhStatus
  | .mcxCeCapture => Rows.mcxCeCapture
  | .mcxUeRecent => Rows.mcxUeRecent
  | .crdCtrl => Rows.crdCtrl
  | .crdCoreStatus => Rows.crdCoreStatus
  | .crdThreadState => Rows.crdThreadState
  | .crdThreadClass => Rows.crdThreadClass
  | .crdSchedStatus => Rows.crdSchedStatus
  | .crdBecalmed => Rows.crdBecalmed
  | .crdBecalmedTime => Rows.crdBecalmedTime
  | .crdTakeover => Rows.crdTakeover
  | .crdFence => Rows.crdFence
  | .crdHealth => Rows.crdHealth
  | .crdThreadFault => Rows.crdThreadFault
  | .crdEvent => Rows.crdEvent
  | .sysId => Rows.sysId
  | .sysCtrl => Rows.sysCtrl
  | .sysStatus => Rows.sysStatus
  | .sysStraps => Rows.sysStraps
  | .sysFwVersion => Rows.sysFwVersion
  | .sysResetCause => Rows.sysResetCause
  | .sysSerial => Rows.sysSerial
  | .sysIrqStatus => Rows.sysIrqStatus
  | .sysIrqMask => Rows.sysIrqMask
  | .sysScratch => Rows.sysScratch
  | .pciCtrl => Rows.pciCtrl
  | .pciStatus => Rows.pciStatus
  | .pciEvent => Rows.pciEvent
  | .pciErrCapture => Rows.pciErrCapture
  | .pciDmaStatus => Rows.pciDmaStatus
  | .mbxCtrl => Rows.mbxCtrl
  | .mbxStatus => Rows.mbxStatus
  | .mbxEvent => Rows.mbxEvent
  | .mbxErrCapture => Rows.mbxErrCapture
  | .mbxSetup => Rows.mbxSetup
  | .mbxQstate => Rows.mbxQstate
  | .mbxSqDb => Rows.mbxSqDb
  | .mbxCqDb => Rows.mbxCqDb
  | .ringDb => Rows.ringDb
  | .fltCtrl => Rows.fltCtrl
  | .fltStatus => Rows.fltStatus
  | .fltReduction => Rows.fltReduction
  | .fltFirstCode => Rows.fltFirstCode
  | .fltFirstSource => Rows.fltFirstSource
  | .fltFirstAddr => Rows.fltFirstAddr
  | .fltFirstTime => Rows.fltFirstTime
  | .fltFirstCycle => Rows.fltFirstCycle
  | .fltSimul => Rows.fltSimul
  | .fltAvailLoss => Rows.fltAvailLoss
  | .fltAvailService => Rows.fltAvailService
  | .logCtrl => Rows.logCtrl
  | .logStatus => Rows.logStatus
  | .logSeq => Rows.logSeq
  | .logLastgasp => Rows.logLastgasp
  | .logEvent => Rows.logEvent
  | .logFilter => Rows.logFilter
  | .cntCtrl => Rows.cntCtrl
  | .cntSnapReq => Rows.cntSnapReq
  | .cntBankStatus => Rows.cntBankStatus
  | .cntBankTime => Rows.cntBankTime
  | .cntWinAddr => Rows.cntWinAddr
  | .cntWinData => Rows.cntWinData
  | .cntLiveAddr => Rows.cntLiveAddr
  | .cntLiveData => Rows.cntLiveData
  | .cntEvent => Rows.cntEvent
  | .lifeCtrl => Rows.lifeCtrl
  | .lifeStatus => Rows.lifeStatus
  | .lifeHours => Rows.lifeHours
  | .lifeSensorSel => Rows.lifeSensorSel
  | .lifeSensorData => Rows.lifeSensorData
  | .lifeThermal => Rows.lifeThermal
  | .lifeAcc => Rows.lifeAcc
  | .lifeEvent => Rows.lifeEvent
  | .stkCtrl => Rows.stkCtrl
  | .stkStatus => Rows.stkStatus
  | .stkGen => Rows.stkGen
  | .stkRemote => Rows.stkRemote
  | .stkEvent => Rows.stkEvent
  | .stkLink => Rows.stkLink

/-- The field whose setting locks a register's RWL fields; none for a register of a block without a lock. -/
def Reg.lockField : Reg → Option Fld
  | .tbsCtrl => some ⟨.tbsCtrl, 0, 0⟩
  | .tbsTimeFrac => some ⟨.tbsCtrl, 0, 0⟩
  | .tbsTimeNs => some ⟨.tbsCtrl, 0, 0⟩
  | .tbsTimeSecLo => some ⟨.tbsCtrl, 0, 0⟩
  | .tbsTimeSecHi => some ⟨.tbsCtrl, 0, 0⟩
  | .tbsServoStatus => some ⟨.tbsCtrl, 0, 0⟩
  | .tbsServoGain => some ⟨.tbsCtrl, 0, 0⟩
  | .tbsFreq => some ⟨.tbsCtrl, 0, 0⟩
  | .tbsFreqMax => some ⟨.tbsCtrl, 0, 0⟩
  | .tbsThresh => some ⟨.tbsCtrl, 0, 0⟩
  | .tbsStepThresh => some ⟨.tbsCtrl, 0, 0⟩
  | .tbsHoldover => some ⟨.tbsCtrl, 0, 0⟩
  | .tbsDomainCtrl => some ⟨.tbsCtrl, 0, 0⟩
  | .tbsDomainOffset => some ⟨.tbsCtrl, 0, 0⟩
  | .tbsAbDiff => some ⟨.tbsCtrl, 0, 0⟩
  | .tbsSlew => some ⟨.tbsCtrl, 0, 0⟩
  | .tbsSlewBias => some ⟨.tbsCtrl, 0, 0⟩
  | .tbsIoCtrl => some ⟨.tbsCtrl, 0, 0⟩
  | .tbsPpsInCapture => some ⟨.tbsCtrl, 0, 0⟩
  | .tbsSynceCtrl => some ⟨.tbsCtrl, 0, 0⟩
  | .tecStatus => some ⟨.tbsCtrl, 0, 0⟩
  | .tecFireCount => some ⟨.tbsCtrl, 0, 0⟩
  | .tecFlagCount => some ⟨.tbsCtrl, 0, 0⟩
  | .portCfg => some ⟨.portCfg, 31, 31⟩
  | .portStatus => some ⟨.portCfg, 31, 31⟩
  | .portTsLatency => some ⟨.portCfg, 31, 31⟩
  | .portEvent => some ⟨.portCfg, 31, 31⟩
  | .prsCtrl => some ⟨.prsCtrl, 31, 31⟩
  | .prsStatus => some ⟨.prsCtrl, 31, 31⟩
  | .prsEvent => some ⟨.prsCtrl, 31, 31⟩
  | .prsEccCapture => some ⟨.prsCtrl, 31, 31⟩
  | .clsCtrl => some ⟨.clsCtrl, 31, 31⟩
  | .clsEpoch => some ⟨.clsCtrl, 31, 31⟩
  | .clsEvent => some ⟨.clsCtrl, 31, 31⟩
  | .clsEccCapture => some ⟨.clsCtrl, 31, 31⟩
  | .mskCtrl => some ⟨.mskCtrl, 31, 31⟩
  | .mskStatus => some ⟨.mskCtrl, 31, 31⟩
  | .mskEvent => some ⟨.mskCtrl, 31, 31⟩
  | .mskScrubCapture => some ⟨.mskCtrl, 31, 31⟩
  | .fstCtrl => some ⟨.fstCtrl, 31, 31⟩
  | .fstStatus => some ⟨.fstCtrl, 31, 31⟩
  | .fstRebuildLine => some ⟨.fstCtrl, 31, 31⟩
  | .fstMqStatus => some ⟨.fstCtrl, 31, 31⟩
  | .fstMqPeak => some ⟨.fstCtrl, 31, 31⟩
  | .fstHbmLoad => some ⟨.fstCtrl, 31, 31⟩
  | .fstSweepStatus => some ⟨.fstCtrl, 31, 31⟩
  | .fstCacheStatus => some ⟨.fstCtrl, 31, 31⟩
  | .fstLive => some ⟨.fstCtrl, 31, 31⟩
  | .fstEvent => some ⟨.fstCtrl, 31, 31⟩
  | .fstEccCapture => some ⟨.fstCtrl, 31, 31⟩
  | .fstLastLoss => some ⟨.fstCtrl, 31, 31⟩
  | .bpmCtrl => some ⟨.bpmCtrl, 31, 31⟩
  | .bpmHeapFree => some ⟨.bpmCtrl, 31, 31⟩
  | .bpmCtrlFree => some ⟨.bpmCtrl, 31, 31⟩
  | .bpmStatus => some ⟨.bpmCtrl, 31, 31⟩
  | .bpmEvent => some ⟨.bpmCtrl, 31, 31⟩
  | .bpmBadCapture => some ⟨.bpmCtrl, 31, 31⟩
  | .rigCtrl => some ⟨.rigCtrl, 31, 31⟩
  | .rigUcodeVersion => some ⟨.rigCtrl, 31, 31⟩
  | .rigEvent => some ⟨.rigCtrl, 31, 31⟩
  | .iqmCtrl => some ⟨.iqmCtrl, 31, 31⟩
  | .iqmStatus => some ⟨.iqmCtrl, 31, 31⟩
  | .iqmEvent => some ⟨.iqmCtrl, 31, 31⟩
  | .iqmEccCapture => some ⟨.iqmCtrl, 31, 31⟩
  | .fabStatus => none
  | .fabEvent => none
  | .fabEccCapture => none
  | .fabBridgeLoad => none
  | .egsCtrl => some ⟨.egsCtrl, 31, 31⟩
  | .egsStatus => some ⟨.egsCtrl, 31, 31⟩
  | .egsEvent => some ⟨.egsCtrl, 31, 31⟩
  | .egsTcCount => some ⟨.egsCtrl, 31, 31⟩
  | .egsWheelStatus => some ⟨.egsCtrl, 31, 31⟩
  | .egsEccCapture => some ⟨.egsCtrl, 31, 31⟩
  | .redCtrl => some ⟨.redCtrl, 31, 31⟩
  | .redStatus => some ⟨.redCtrl, 31, 31⟩
  | .redEvent => some ⟨.redCtrl, 31, 31⟩
  | .redLatentCapture => some ⟨.redCtrl, 31, 31⟩
  | .mcxCtrl => some ⟨.mcxCtrl, 31, 31⟩
  | .mcxStatus => some ⟨.mcxCtrl, 31, 31⟩
  | .mcxEvent => some ⟨.mcxCtrl, 31, 31⟩
  | .mcxRhCfg => some ⟨.mcxCtrl, 31, 31⟩
  | .mcxPcFrozen => some ⟨.mcxCtrl, 31, 31⟩
  | .mcxPcHold => some ⟨.mcxCtrl, 31, 31⟩
  | .mcxPcRetired => some ⟨.mcxCtrl, 31, 31⟩
  | .mcxUeCapture => some ⟨.mcxCtrl, 31, 31⟩
  | .mcxRetireLine => some ⟨.mcxCtrl, 31, 31⟩
  | .mcxHistIndex => some ⟨.mcxCtrl, 31, 31⟩
  | .mcxHistData => some ⟨.mcxCtrl, 31, 31⟩
  | .mcxTemp => some ⟨.mcxCtrl, 31, 31⟩
  | .mcxTrainStatus => some ⟨.mcxCtrl, 31, 31⟩
  | .mcxSrStatus => some ⟨.mcxCtrl, 31, 31⟩
  | .mcxLoad => some ⟨.mcxCtrl, 31, 31⟩
  | .mcxRhStatus => some ⟨.mcxCtrl, 31, 31⟩
  | .mcxCeCapture => some ⟨.mcxCtrl, 31, 31⟩
  | .mcxUeRecent => some ⟨.mcxCtrl, 31, 31⟩
  | .crdCtrl => some ⟨.crdCtrl, 31, 31⟩
  | .crdCoreStatus => some ⟨.crdCtrl, 31, 31⟩
  | .crdThreadState => some ⟨.crdCtrl, 31, 31⟩
  | .crdThreadClass => some ⟨.crdCtrl, 31, 31⟩
  | .crdSchedStatus => some ⟨.crdCtrl, 31, 31⟩
  | .crdBecalmed => some ⟨.crdCtrl, 31, 31⟩
  | .crdBecalmedTime => some ⟨.crdCtrl, 31, 31⟩
  | .crdTakeover => some ⟨.crdCtrl, 31, 31⟩
  | .crdFence => some ⟨.crdCtrl, 31, 31⟩
  | .crdHealth => some ⟨.crdCtrl, 31, 31⟩
  | .crdThreadFault => some ⟨.crdCtrl, 31, 31⟩
  | .crdEvent => some ⟨.crdCtrl, 31, 31⟩
  | .sysId => some ⟨.sysCtrl, 31, 31⟩
  | .sysCtrl => some ⟨.sysCtrl, 31, 31⟩
  | .sysStatus => some ⟨.sysCtrl, 31, 31⟩
  | .sysStraps => some ⟨.sysCtrl, 31, 31⟩
  | .sysFwVersion => some ⟨.sysCtrl, 31, 31⟩
  | .sysResetCause => some ⟨.sysCtrl, 31, 31⟩
  | .sysSerial => some ⟨.sysCtrl, 31, 31⟩
  | .sysIrqStatus => some ⟨.sysCtrl, 31, 31⟩
  | .sysIrqMask => some ⟨.sysCtrl, 31, 31⟩
  | .sysScratch => some ⟨.sysCtrl, 31, 31⟩
  | .pciCtrl => none
  | .pciStatus => none
  | .pciEvent => none
  | .pciErrCapture => none
  | .pciDmaStatus => none
  | .mbxCtrl => none
  | .mbxStatus => none
  | .mbxEvent => none
  | .mbxErrCapture => none
  | .mbxSetup => none
  | .mbxQstate => none
  | .mbxSqDb => none
  | .mbxCqDb => none
  | .ringDb => none
  | .fltCtrl => some ⟨.fltCtrl, 31, 31⟩
  | .fltStatus => some ⟨.fltCtrl, 31, 31⟩
  | .fltReduction => some ⟨.fltCtrl, 31, 31⟩
  | .fltFirstCode => some ⟨.fltCtrl, 31, 31⟩
  | .fltFirstSource => some ⟨.fltCtrl, 31, 31⟩
  | .fltFirstAddr => some ⟨.fltCtrl, 31, 31⟩
  | .fltFirstTime => some ⟨.fltCtrl, 31, 31⟩
  | .fltFirstCycle => some ⟨.fltCtrl, 31, 31⟩
  | .fltSimul => some ⟨.fltCtrl, 31, 31⟩
  | .fltAvailLoss => some ⟨.fltCtrl, 31, 31⟩
  | .fltAvailService => some ⟨.fltCtrl, 31, 31⟩
  | .logCtrl => some ⟨.logCtrl, 31, 31⟩
  | .logStatus => some ⟨.logCtrl, 31, 31⟩
  | .logSeq => some ⟨.logCtrl, 31, 31⟩
  | .logLastgasp => some ⟨.logCtrl, 31, 31⟩
  | .logEvent => some ⟨.logCtrl, 31, 31⟩
  | .logFilter => some ⟨.logCtrl, 31, 31⟩
  | .cntCtrl => some ⟨.cntCtrl, 31, 31⟩
  | .cntSnapReq => some ⟨.cntCtrl, 31, 31⟩
  | .cntBankStatus => some ⟨.cntCtrl, 31, 31⟩
  | .cntBankTime => some ⟨.cntCtrl, 31, 31⟩
  | .cntWinAddr => some ⟨.cntCtrl, 31, 31⟩
  | .cntWinData => some ⟨.cntCtrl, 31, 31⟩
  | .cntLiveAddr => some ⟨.cntCtrl, 31, 31⟩
  | .cntLiveData => some ⟨.cntCtrl, 31, 31⟩
  | .cntEvent => some ⟨.cntCtrl, 31, 31⟩
  | .lifeCtrl => some ⟨.lifeCtrl, 31, 31⟩
  | .lifeStatus => some ⟨.lifeCtrl, 31, 31⟩
  | .lifeHours => some ⟨.lifeCtrl, 31, 31⟩
  | .lifeSensorSel => some ⟨.lifeCtrl, 31, 31⟩
  | .lifeSensorData => some ⟨.lifeCtrl, 31, 31⟩
  | .lifeThermal => some ⟨.lifeCtrl, 31, 31⟩
  | .lifeAcc => some ⟨.lifeCtrl, 31, 31⟩
  | .lifeEvent => some ⟨.lifeCtrl, 31, 31⟩
  | .stkCtrl => some ⟨.stkCtrl, 31, 31⟩
  | .stkStatus => some ⟨.stkCtrl, 31, 31⟩
  | .stkGen => some ⟨.stkCtrl, 31, 31⟩
  | .stkRemote => some ⟨.stkCtrl, 31, 31⟩
  | .stkEvent => some ⟨.stkCtrl, 31, 31⟩
  | .stkLink => some ⟨.stkCtrl, 31, 31⟩

/-- The registers whose instance has a write-one-to-clear valid bit 31 beside its read-only value (R270, R400, R438,
R474): the instance it stands in, counted inside a block. -/
def Reg.validInstance : Reg → Option Nat
  | .bpmBadCapture => some 1
  | .mcxUeCapture => some 1
  | .crdThreadFault => some 0
  | .pciErrCapture => some 1
  | .tbsCtrl => none
  | .tbsTimeFrac => none
  | .tbsTimeNs => none
  | .tbsTimeSecLo => none
  | .tbsTimeSecHi => none
  | .tbsServoStatus => none
  | .tbsServoGain => none
  | .tbsFreq => none
  | .tbsFreqMax => none
  | .tbsThresh => none
  | .tbsStepThresh => none
  | .tbsHoldover => none
  | .tbsDomainCtrl => none
  | .tbsDomainOffset => none
  | .tbsAbDiff => none
  | .tbsSlew => none
  | .tbsSlewBias => none
  | .tbsIoCtrl => none
  | .tbsPpsInCapture => none
  | .tbsSynceCtrl => none
  | .tecStatus => none
  | .tecFireCount => none
  | .tecFlagCount => none
  | .portCfg => none
  | .portStatus => none
  | .portTsLatency => none
  | .portEvent => none
  | .prsCtrl => none
  | .prsStatus => none
  | .prsEvent => none
  | .prsEccCapture => none
  | .clsCtrl => none
  | .clsEpoch => none
  | .clsEvent => none
  | .clsEccCapture => none
  | .mskCtrl => none
  | .mskStatus => none
  | .mskEvent => none
  | .mskScrubCapture => none
  | .fstCtrl => none
  | .fstStatus => none
  | .fstRebuildLine => none
  | .fstMqStatus => none
  | .fstMqPeak => none
  | .fstHbmLoad => none
  | .fstSweepStatus => none
  | .fstCacheStatus => none
  | .fstLive => none
  | .fstEvent => none
  | .fstEccCapture => none
  | .fstLastLoss => none
  | .bpmCtrl => none
  | .bpmHeapFree => none
  | .bpmCtrlFree => none
  | .bpmStatus => none
  | .bpmEvent => none
  | .rigCtrl => none
  | .rigUcodeVersion => none
  | .rigEvent => none
  | .iqmCtrl => none
  | .iqmStatus => none
  | .iqmEvent => none
  | .iqmEccCapture => none
  | .fabStatus => none
  | .fabEvent => none
  | .fabEccCapture => none
  | .fabBridgeLoad => none
  | .egsCtrl => none
  | .egsStatus => none
  | .egsEvent => none
  | .egsTcCount => none
  | .egsWheelStatus => none
  | .egsEccCapture => none
  | .redCtrl => none
  | .redStatus => none
  | .redEvent => none
  | .redLatentCapture => none
  | .mcxCtrl => none
  | .mcxStatus => none
  | .mcxEvent => none
  | .mcxRhCfg => none
  | .mcxPcFrozen => none
  | .mcxPcHold => none
  | .mcxPcRetired => none
  | .mcxRetireLine => none
  | .mcxHistIndex => none
  | .mcxHistData => none
  | .mcxTemp => none
  | .mcxTrainStatus => none
  | .mcxSrStatus => none
  | .mcxLoad => none
  | .mcxRhStatus => none
  | .mcxCeCapture => none
  | .mcxUeRecent => none
  | .crdCtrl => none
  | .crdCoreStatus => none
  | .crdThreadState => none
  | .crdThreadClass => none
  | .crdSchedStatus => none
  | .crdBecalmed => none
  | .crdBecalmedTime => none
  | .crdTakeover => none
  | .crdFence => none
  | .crdHealth => none
  | .crdEvent => none
  | .sysId => none
  | .sysCtrl => none
  | .sysStatus => none
  | .sysStraps => none
  | .sysFwVersion => none
  | .sysResetCause => none
  | .sysSerial => none
  | .sysIrqStatus => none
  | .sysIrqMask => none
  | .sysScratch => none
  | .pciCtrl => none
  | .pciStatus => none
  | .pciEvent => none
  | .pciDmaStatus => none
  | .mbxCtrl => none
  | .mbxStatus => none
  | .mbxEvent => none
  | .mbxErrCapture => none
  | .mbxSetup => none
  | .mbxQstate => none
  | .mbxSqDb => none
  | .mbxCqDb => none
  | .ringDb => none
  | .fltCtrl => none
  | .fltStatus => none
  | .fltReduction => none
  | .fltFirstCode => none
  | .fltFirstSource => none
  | .fltFirstAddr => none
  | .fltFirstTime => none
  | .fltFirstCycle => none
  | .fltSimul => none
  | .fltAvailLoss => none
  | .fltAvailService => none
  | .logCtrl => none
  | .logStatus => none
  | .logSeq => none
  | .logLastgasp => none
  | .logEvent => none
  | .logFilter => none
  | .cntCtrl => none
  | .cntSnapReq => none
  | .cntBankStatus => none
  | .cntBankTime => none
  | .cntWinAddr => none
  | .cntWinData => none
  | .cntLiveAddr => none
  | .cntLiveData => none
  | .cntEvent => none
  | .lifeCtrl => none
  | .lifeStatus => none
  | .lifeHours => none
  | .lifeSensorSel => none
  | .lifeSensorData => none
  | .lifeThermal => none
  | .lifeAcc => none
  | .lifeEvent => none
  | .stkCtrl => none
  | .stkStatus => none
  | .stkGen => none
  | .stkRemote => none
  | .stkEvent => none
  | .stkLink => none

/-- The reserved bits of each register, as a mask. -/
def Reg.reservedMask : Reg → Nat
  | .tbsCtrl => 0xfffffffe
  | .tbsTimeFrac => 0xffff
  | .tbsTimeNs => 0xc0000000
  | .tbsTimeSecLo => 0
  | .tbsTimeSecHi => 0xfffe0000
  | .tbsServoStatus => 0
  | .tbsServoGain => 0
  | .tbsFreq => 0
  | .tbsFreqMax => 0xff000000
  | .tbsThresh => 0
  | .tbsStepThresh => 0
  | .tbsHoldover => 0
  | .tbsDomainCtrl => 0xf0fc
  | .tbsDomainOffset => 0
  | .tbsAbDiff => 0
  | .tbsSlew => 0
  | .tbsSlewBias => 0
  | .tbsIoCtrl => 0
  | .tbsPpsInCapture => 0x40000000
  | .tbsSynceCtrl => 0x3ff00000
  | .tecStatus => 0xe000e000
  | .tecFireCount => 0
  | .tecFlagCount => 0
  | .portCfg => 0xc000
  | .portStatus => 0x3f0000
  | .portTsLatency => 0
  | .portEvent => 0x7fffff
  | .prsCtrl => 0x1fff
  | .prsStatus => 0x7ff
  | .prsEvent => 0x1ffffff
  | .prsEccCapture => 0x1fffc000
  | .clsCtrl => 0
  | .clsEpoch => 0x1fff0000
  | .clsEvent => 0x7fffff
  | .clsEccCapture => 0x7e00000
  | .mskCtrl => 0x3fffffff
  | .mskStatus => 0x4000
  | .mskEvent => 0x1ffffff
  | .mskScrubCapture => 0xfffc000
  | .fstCtrl => 0x2000ffff
  | .fstStatus => 0x3ff
  | .fstRebuildLine => 0xff800000
  | .fstMqStatus => 0x3f
  | .fstMqPeak => 0x3f
  | .fstHbmLoad => 0
  | .fstSweepStatus => 0x70000
  | .fstCacheStatus => 3
  | .fstLive => 0xfe000000
  | .fstEvent => 0x7fffff
  | .fstEccCapture => 0xfff0000
  | .fstLastLoss => 0
  | .bpmCtrl => 0x1fffffff
  | .bpmHeapFree => 0xc0000000
  | .bpmCtrlFree => 0xfe000000
  | .bpmStatus => 0
  | .bpmEvent => 0xffffff
  | .bpmBadCapture => 0
  | .rigCtrl => 0x3f0000
  | .rigUcodeVersion => 0
  | .rigEvent => 0x7e000
  | .iqmCtrl => 0x7ff
  | .iqmStatus => 0
  | .iqmEvent => 0xfffff
  | .iqmEccCapture => 0xfff0000
  | .fabStatus => 0
  | .fabEvent => 0x1fffffff
  | .fabEccCapture => 0xfffff
  | .fabBridgeLoad => 0
  | .egsCtrl => 0x1f
  | .egsStatus => 0
  | .egsEvent => 0x7ffff
  | .egsTcCount => 0
  | .egsWheelStatus => 0
  | .egsEccCapture => 0x1ff0000
  | .redCtrl => 0x3fff0000
  | .redStatus => 0x3f
  | .redEvent => 0x1fffffff
  | .redLatentCapture => 0x7ffff000
  | .mcxCtrl => 0x3f0000ff
  | .mcxStatus => 0x7f0000
  | .mcxEvent => 0x3fffff
  | .mcxRhCfg => 0xffff
  | .mcxPcFrozen => 0
  | .mcxPcHold => 0
  | .mcxPcRetired => 0
  | .mcxUeCapture => 0
  | .mcxRetireLine => 0xff800000
  | .mcxHistIndex => 0x7fffff00
  | .mcxHistData => 0
  | .mcxTemp => 0x7fff
  | .mcxTrainStatus => 0xff
  | .mcxSrStatus => 0xffff
  | .mcxLoad => 0
  | .mcxRhStatus => 0xfc00
  | .mcxCeCapture => 7
  | .mcxUeRecent => 0x1ffffff
  | .crdCtrl => 0x30000ff
  | .crdCoreStatus => 0
  | .crdThreadState => 0
  | .crdThreadClass => 0
  | .crdSchedStatus => 0x1f
  | .crdBecalmed => 0x3ffff800
  | .crdBecalmedTime => 0
  | .crdTakeover => 0
  | .crdFence => 0
  | .crdHealth => 0
  | .crdThreadFault => 0
  | .crdEvent => 0x3fffff
  | .sysId => 0xf00
  | .sysCtrl => 0x7f00fefe
  | .sysStatus => 0x7fffff
  | .sysStraps => 0xffffff80
  | .sysFwVersion => 0
  | .sysResetCause => 0xffe0
  | .sysSerial => 0
  | .sysIrqStatus => 0xfffffc00
  | .sysIrqMask => 0
  | .sysScratch => 0
  | .pciCtrl => 0xfffffffe
  | .pciStatus => 0x1f0000
  | .pciEvent => 0xffffff
  | .pciErrCapture => 0
  | .pciDmaStatus => 0x7fff
  | .mbxCtrl => 0xfffffc00
  | .mbxStatus => 0
  | .mbxEvent => 0x1ffffff
  | .mbxErrCapture => 0x3f0000
  | .mbxSetup => 0
  | .mbxQstate => 0
  | .mbxSqDb => 0xffff0000
  | .mbxCqDb => 0x7fff0000
  | .ringDb => 0x1ff0000
  | .fltCtrl => 0xfffffff
  | .fltStatus => 0
  | .fltReduction => 0x3ffe0000
  | .fltFirstCode => 0x3ff0000
  | .fltFirstSource => 0
  | .fltFirstAddr => 0
  | .fltFirstTime => 0
  | .fltFirstCycle => 0
  | .fltSimul => 0xffff0000
  | .fltAvailLoss => 0
  | .fltAvailService => 0
  | .logCtrl => 0x1fffffff
  | .logStatus => 0x3fff0000
  | .logSeq => 0
  | .logLastgasp => 0
  | .logEvent => 0xfff0000
  | .logFilter => 0x1fffffff
  | .cntCtrl => 0x7fffffff
  | .cntSnapReq => 0x3ffffff0
  | .cntBankStatus => 0x3f003f0
  | .cntBankTime => 0
  | .cntWinAddr => 0x1ffc0000
  | .cntWinData => 0
  | .cntLiveAddr => 0x9ffc0000
  | .cntLiveData => 0
  | .cntEvent => 0x7ffffff
  | .lifeCtrl => 0x3ffff800
  | .lifeStatus => 0
  | .lifeHours => 0
  | .lifeSensorSel => 0xffffffc0
  | .lifeSensorData => 0
  | .lifeThermal => 0
  | .lifeAcc => 0
  | .lifeEvent => 0xfffffff
  | .stkCtrl => 0x1fffff
  | .stkStatus => 0xffff
  | .stkGen => 0
  | .stkRemote => 0
  | .stkEvent => 0x1ffffff
  | .stkLink => 0x7f0000

/-! The named fields. -/

namespace F

/-! TBS_CTRL (02_network_time.md) -/
abbrev tbsCtrl_lock : Fld := ⟨.tbsCtrl, 0, 0⟩
/-! TBS_TIME_FRAC (02_network_time.md) -/
abbrev tbsTimeFrac_frac : Fld := ⟨.tbsTimeFrac, 31, 16⟩
/-! TBS_TIME_NS (02_network_time.md) -/
abbrev tbsTimeNs_ns : Fld := ⟨.tbsTimeNs, 29, 0⟩
/-! TBS_TIME_SEC_LO (02_network_time.md) -/
abbrev tbsTimeSecLo_secLo : Fld := ⟨.tbsTimeSecLo, 31, 0⟩
/-! TBS_TIME_SEC_HI (02_network_time.md) -/
abbrev tbsTimeSecHi_unlocked : Fld := ⟨.tbsTimeSecHi, 16, 16⟩
abbrev tbsTimeSecHi_secHi : Fld := ⟨.tbsTimeSecHi, 15, 0⟩
/-! TBS_SERVO_STATUS (02_network_time.md) -/
abbrev tbsServoStatus_phase : Fld := ⟨.tbsServoStatus, 31, 30⟩
abbrev tbsServoStatus_acqSecond : Fld := ⟨.tbsServoStatus, 29, 29⟩
abbrev tbsServoStatus_locked : Fld := ⟨.tbsServoStatus, 28, 28⟩
abbrev tbsServoStatus_selected : Fld := ⟨.tbsServoStatus, 27, 27⟩
abbrev tbsServoStatus_slewActive : Fld := ⟨.tbsServoStatus, 26, 26⟩
abbrev tbsServoStatus_aValid : Fld := ⟨.tbsServoStatus, 25, 25⟩
abbrev tbsServoStatus_bValid : Fld := ⟨.tbsServoStatus, 24, 24⟩
abbrev tbsServoStatus_acqFail : Fld := ⟨.tbsServoStatus, 23, 16⟩
abbrev tbsServoStatus_autoSwitches : Fld := ⟨.tbsServoStatus, 15, 8⟩
abbrev tbsServoStatus_steps : Fld := ⟨.tbsServoStatus, 7, 0⟩
/-! TBS_SERVO_GAIN (02_network_time.md) -/
abbrev tbsServoGain_kp : Fld := ⟨.tbsServoGain, 31, 16⟩
abbrev tbsServoGain_ki : Fld := ⟨.tbsServoGain, 15, 0⟩
/-! TBS_FREQ (02_network_time.md) -/
abbrev tbsFreq_freq : Fld := ⟨.tbsFreq, 31, 0⟩
/-! TBS_FREQ_MAX (02_network_time.md) -/
abbrev tbsFreqMax_fMax : Fld := ⟨.tbsFreqMax, 23, 0⟩
/-! TBS_THRESH (02_network_time.md) -/
abbrev tbsThresh_lockCount : Fld := ⟨.tbsThresh, 31, 24⟩
abbrev tbsThresh_lockThreshold : Fld := ⟨.tbsThresh, 23, 12⟩
abbrev tbsThresh_unlockThreshold : Fld := ⟨.tbsThresh, 11, 0⟩
/-! TBS_STEP_THRESH (02_network_time.md) -/
abbrev tbsStepThresh_stepThreshold : Fld := ⟨.tbsStepThresh, 31, 0⟩
/-! TBS_HOLDOVER (02_network_time.md) -/
abbrev tbsHoldover_inputTimeout : Fld := ⟨.tbsHoldover, 31, 16⟩
abbrev tbsHoldover_holdoverGrace : Fld := ⟨.tbsHoldover, 15, 0⟩
/-! TBS_DOMAIN_CTRL (02_network_time.md) -/
abbrev tbsDomainCtrl_portB : Fld := ⟨.tbsDomainCtrl, 31, 24⟩
abbrev tbsDomainCtrl_portA : Fld := ⟨.tbsDomainCtrl, 23, 16⟩
abbrev tbsDomainCtrl_srcB : Fld := ⟨.tbsDomainCtrl, 11, 10⟩
abbrev tbsDomainCtrl_srcA : Fld := ⟨.tbsDomainCtrl, 9, 8⟩
abbrev tbsDomainCtrl_autoSwitch : Fld := ⟨.tbsDomainCtrl, 1, 1⟩
abbrev tbsDomainCtrl_select : Fld := ⟨.tbsDomainCtrl, 0, 0⟩
/-! TBS_DOMAIN_OFFSET (02_network_time.md) -/
abbrev tbsDomainOffset_offset : Fld := ⟨.tbsDomainOffset, 31, 0⟩
/-! TBS_AB_DIFF (02_network_time.md) -/
abbrev tbsAbDiff_diff : Fld := ⟨.tbsAbDiff, 31, 0⟩
/-! TBS_SLEW (02_network_time.md) -/
abbrev tbsSlew_slewRamp : Fld := ⟨.tbsSlew, 31, 16⟩
abbrev tbsSlew_slewRate : Fld := ⟨.tbsSlew, 15, 0⟩
/-! TBS_SLEW_BIAS (02_network_time.md) -/
abbrev tbsSlewBias_bias : Fld := ⟨.tbsSlewBias, 31, 0⟩
/-! TBS_IO_CTRL (02_network_time.md) -/
abbrev tbsIoCtrl_refAuto : Fld := ⟨.tbsIoCtrl, 31, 31⟩
abbrev tbsIoCtrl_refSel : Fld := ⟨.tbsIoCtrl, 30, 30⟩
abbrev tbsIoCtrl_ppsSquelch : Fld := ⟨.tbsIoCtrl, 29, 29⟩
abbrev tbsIoCtrl_ppsOutEn : Fld := ⟨.tbsIoCtrl, 28, 28⟩
abbrev tbsIoCtrl_todBaud : Fld := ⟨.tbsIoCtrl, 27, 24⟩
abbrev tbsIoCtrl_ppsWidth : Fld := ⟨.tbsIoCtrl, 23, 14⟩
abbrev tbsIoCtrl_todDelay : Fld := ⟨.tbsIoCtrl, 13, 8⟩
abbrev tbsIoCtrl_ppsOutComp : Fld := ⟨.tbsIoCtrl, 7, 0⟩
/-! TBS_PPS_IN_CAPTURE (02_network_time.md) -/
abbrev tbsPpsInCapture_valid : Fld := ⟨.tbsPpsInCapture, 31, 31⟩
abbrev tbsPpsInCapture_ns : Fld := ⟨.tbsPpsInCapture, 29, 0⟩
/-! TBS_SYNCE_CTRL (02_network_time.md) -/
abbrev tbsSynceCtrl_enable : Fld := ⟨.tbsSynceCtrl, 31, 31⟩
abbrev tbsSynceCtrl_squelchLos : Fld := ⟨.tbsSynceCtrl, 30, 30⟩
abbrev tbsSynceCtrl_lane : Fld := ⟨.tbsSynceCtrl, 19, 12⟩
abbrev tbsSynceCtrl_divider : Fld := ⟨.tbsSynceCtrl, 11, 0⟩
/-! TEC_STATUS (02_network_time.md) -/
abbrev tecStatus_hostArmed : Fld := ⟨.tecStatus, 28, 16⟩
abbrev tecStatus_armed : Fld := ⟨.tecStatus, 12, 0⟩
/-! TEC_FIRE_COUNT (02_network_time.md) -/
abbrev tecFireCount_fires : Fld := ⟨.tecFireCount, 31, 0⟩
/-! TEC_FLAG_COUNT (02_network_time.md) -/
abbrev tecFlagCount_unlocked : Fld := ⟨.tecFlagCount, 31, 16⟩
abbrev tecFlagCount_late : Fld := ⟨.tecFlagCount, 15, 8⟩
abbrev tecFlagCount_stepped : Fld := ⟨.tecFlagCount, 7, 0⟩
/-! PORT_CFG (03_lanes_and_ports.md) -/
abbrev portCfg_lock : Fld := ⟨.portCfg, 31, 31⟩
abbrev portCfg_enable : Fld := ⟨.portCfg, 30, 30⟩
abbrev portCfg_lanes : Fld := ⟨.portCfg, 29, 28⟩
abbrev portCfg_laneRate : Fld := ⟨.portCfg, 27, 25⟩
abbrev portCfg_fec : Fld := ⟨.portCfg, 24, 23⟩
abbrev portCfg_medium : Fld := ⟨.portCfg, 22, 21⟩
abbrev portCfg_anEn : Fld := ⟨.portCfg, 20, 20⟩
abbrev portCfg_ltEn : Fld := ⟨.portCfg, 19, 19⟩
abbrev portCfg_fcMode : Fld := ⟨.portCfg, 18, 17⟩
abbrev portCfg_ctEn : Fld := ⟨.portCfg, 16, 16⟩
abbrev portCfg_maxFrame : Fld := ⟨.portCfg, 13, 0⟩
/-! PORT_STATUS (03_lanes_and_ports.md) -/
abbrev portStatus_linkUp : Fld := ⟨.portStatus, 31, 31⟩
abbrev portStatus_rxLocalFault : Fld := ⟨.portStatus, 30, 30⟩
abbrev portStatus_rxRemoteFault : Fld := ⟨.portStatus, 29, 29⟩
abbrev portStatus_blockLock : Fld := ⟨.portStatus, 28, 28⟩
abbrev portStatus_alignLock : Fld := ⟨.portStatus, 27, 27⟩
abbrev portStatus_hiBer : Fld := ⟨.portStatus, 26, 26⟩
abbrev portStatus_fecLock : Fld := ⟨.portStatus, 25, 25⟩
abbrev portStatus_anState : Fld := ⟨.portStatus, 24, 22⟩
abbrev portStatus_rxPaused : Fld := ⟨.portStatus, 15, 8⟩
abbrev portStatus_txXoff : Fld := ⟨.portStatus, 7, 0⟩
/-! PORT_TS_LATENCY (03_lanes_and_ports.md) -/
abbrev portTsLatency_txLat : Fld := ⟨.portTsLatency, 31, 16⟩
abbrev portTsLatency_rxLat : Fld := ⟨.portTsLatency, 15, 0⟩
/-! PORT_EVENT (03_lanes_and_ports.md) -/
abbrev portEvent_linkDownSeen : Fld := ⟨.portEvent, 31, 31⟩
abbrev portEvent_linkUpSeen : Fld := ⟨.portEvent, 30, 30⟩
abbrev portEvent_hiBerSeen : Fld := ⟨.portEvent, 29, 29⟩
abbrev portEvent_fecUncorrSeen : Fld := ⟨.portEvent, 28, 28⟩
abbrev portEvent_stompTxSeen : Fld := ⟨.portEvent, 27, 27⟩
abbrev portEvent_ctBadRxSeen : Fld := ⟨.portEvent, 26, 26⟩
abbrev portEvent_rxErrorBlockSeen : Fld := ⟨.portEvent, 25, 25⟩
abbrev portEvent_anFail : Fld := ⟨.portEvent, 24, 24⟩
abbrev portEvent_pfcWdFired : Fld := ⟨.portEvent, 23, 23⟩
/-! PRS_CTRL (04_parser.md) -/
abbrev prsCtrl_lock : Fld := ⟨.prsCtrl, 31, 31⟩
abbrev prsCtrl_conflictAction : Fld := ⟨.prsCtrl, 30, 30⟩
abbrev prsCtrl_trapEn : Fld := ⟨.prsCtrl, 29, 29⟩
abbrev prsCtrl_trapToCriod : Fld := ⟨.prsCtrl, 28, 28⟩
abbrev prsCtrl_trapRing : Fld := ⟨.prsCtrl, 27, 22⟩
abbrev prsCtrl_trapLen : Fld := ⟨.prsCtrl, 21, 13⟩
/-! PRS_STATUS (04_parser.md) -/
abbrev prsStatus_laneBusy : Fld := ⟨.prsStatus, 31, 28⟩
abbrev prsStatus_reorderOcc : Fld := ⟨.prsStatus, 27, 21⟩
abbrev prsStatus_graphValid : Fld := ⟨.prsStatus, 20, 11⟩
/-! PRS_EVENT (04_parser.md) -/
abbrev prsEvent_truncSeen : Fld := ⟨.prsEvent, 31, 31⟩
abbrev prsEvent_conflictSeen : Fld := ⟨.prsEvent, 30, 30⟩
abbrev prsEvent_conflictLateSeen : Fld := ⟨.prsEvent, 29, 29⟩
abbrev prsEvent_unmatchedSeen : Fld := ⟨.prsEvent, 28, 28⟩
abbrev prsEvent_eccCorrSeen : Fld := ⟨.prsEvent, 27, 27⟩
abbrev prsEvent_eccUncorrSeen : Fld := ⟨.prsEvent, 26, 26⟩
abbrev prsEvent_trapDropSeen : Fld := ⟨.prsEvent, 25, 25⟩
/-! PRS_ECC_CAPTURE (04_parser.md) -/
abbrev prsEccCapture_valid : Fld := ⟨.prsEccCapture, 31, 31⟩
abbrev prsEccCapture_uncorrectable : Fld := ⟨.prsEccCapture, 30, 30⟩
abbrev prsEccCapture_table : Fld := ⟨.prsEccCapture, 29, 29⟩
abbrev prsEccCapture_word : Fld := ⟨.prsEccCapture, 13, 9⟩
abbrev prsEccCapture_index : Fld := ⟨.prsEccCapture, 8, 0⟩
/-! CLS_CTRL (05_rule_tables.md) -/
abbrev clsCtrl_lock : Fld := ⟨.clsCtrl, 31, 31⟩
abbrev clsCtrl_learnToHost : Fld := ⟨.clsCtrl, 30, 30⟩
abbrev clsCtrl_learnRing : Fld := ⟨.clsCtrl, 29, 24⟩
abbrev clsCtrl_learnHoldoff : Fld := ⟨.clsCtrl, 23, 16⟩
abbrev clsCtrl_learnRate : Fld := ⟨.clsCtrl, 15, 0⟩
/-! CLS_EPOCH (05_rule_tables.md) -/
abbrev clsEpoch_active : Fld := ⟨.clsEpoch, 31, 31⟩
abbrev clsEpoch_draining : Fld := ⟨.clsEpoch, 30, 30⟩
abbrev clsEpoch_lateSwapPending : Fld := ⟨.clsEpoch, 29, 29⟩
abbrev clsEpoch_inflightOld : Fld := ⟨.clsEpoch, 15, 0⟩
/-! CLS_EVENT (05_rule_tables.md) -/
abbrev clsEvent_eccCorrSeen : Fld := ⟨.clsEvent, 31, 31⟩
abbrev clsEvent_eccUncorrSeen : Fld := ⟨.clsEvent, 30, 30⟩
abbrev clsEvent_learnDropSeen : Fld := ⟨.clsEvent, 29, 29⟩
abbrev clsEvent_staticMoveSeen : Fld := ⟨.clsEvent, 28, 28⟩
abbrev clsEvent_routeMissSeen : Fld := ⟨.clsEvent, 27, 27⟩
abbrev clsEvent_notMemberSeen : Fld := ⟨.clsEvent, 26, 26⟩
abbrev clsEvent_recircDropSeen : Fld := ⟨.clsEvent, 25, 25⟩
abbrev clsEvent_epochLateDropSeen : Fld := ⟨.clsEvent, 24, 24⟩
abbrev clsEvent_stashUsedSeen : Fld := ⟨.clsEvent, 23, 23⟩
/-! CLS_ECC_CAPTURE (05_rule_tables.md) -/
abbrev clsEccCapture_valid : Fld := ⟨.clsEccCapture, 31, 31⟩
abbrev clsEccCapture_uncorrectable : Fld := ⟨.clsEccCapture, 30, 30⟩
abbrev clsEccCapture_table : Fld := ⟨.clsEccCapture, 29, 27⟩
abbrev clsEccCapture_index : Fld := ⟨.clsEccCapture, 20, 0⟩
/-! MSK_CTRL (06_masked_search.md) -/
abbrev mskCtrl_lock : Fld := ⟨.mskCtrl, 31, 31⟩
abbrev mskCtrl_scrubEn : Fld := ⟨.mskCtrl, 30, 30⟩
/-! MSK_STATUS (06_masked_search.md) -/
abbrev mskStatus_updateBusy : Fld := ⟨.mskStatus, 31, 31⟩
abbrev mskStatus_suspectPresent : Fld := ⟨.mskStatus, 30, 30⟩
abbrev mskStatus_validUnits : Fld := ⟨.mskStatus, 29, 15⟩
abbrev mskStatus_scrubPos : Fld := ⟨.mskStatus, 13, 0⟩
/-! MSK_EVENT (06_masked_search.md) -/
abbrev mskEvent_scrubFixSeen : Fld := ⟨.mskEvent, 31, 31⟩
abbrev mskEvent_shroudCorrSeen : Fld := ⟨.mskEvent, 30, 30⟩
abbrev mskEvent_shroudUncorrSeen : Fld := ⟨.mskEvent, 29, 29⟩
abbrev mskEvent_actionCorrSeen : Fld := ⟨.mskEvent, 28, 28⟩
abbrev mskEvent_actionUncorrSeen : Fld := ⟨.mskEvent, 27, 27⟩
abbrev mskEvent_multiMatchSeen : Fld := ⟨.mskEvent, 26, 26⟩
abbrev mskEvent_eccDropSeen : Fld := ⟨.mskEvent, 25, 25⟩
/-! MSK_SCRUB_CAPTURE (06_masked_search.md) -/
abbrev mskScrubCapture_valid : Fld := ⟨.mskScrubCapture, 31, 31⟩
abbrev mskScrubCapture_kind : Fld := ⟨.mskScrubCapture, 30, 28⟩
abbrev mskScrubCapture_bank : Fld := ⟨.mskScrubCapture, 13, 10⟩
abbrev mskScrubCapture_unit : Fld := ⟨.mskScrubCapture, 9, 0⟩
/-! FST_CTRL (07_flow_store.md) -/
abbrev fstCtrl_lock : Fld := ⟨.fstCtrl, 31, 31⟩
abbrev fstCtrl_ageEn : Fld := ⟨.fstCtrl, 30, 30⟩
abbrev fstCtrl_setupCap : Fld := ⟨.fstCtrl, 28, 16⟩
/-! FST_STATUS (07_flow_store.md) -/
abbrev fstStatus_rebuilding : Fld := ⟨.fstStatus, 31, 31⟩
abbrev fstStatus_curGen : Fld := ⟨.fstStatus, 30, 30⟩
abbrev fstStatus_kCur : Fld := ⟨.fstStatus, 29, 25⟩
abbrev fstStatus_kNew : Fld := ⟨.fstStatus, 24, 20⟩
abbrev fstStatus_newSeed : Fld := ⟨.fstStatus, 19, 19⟩
abbrev fstStatus_stashOcc : Fld := ⟨.fstStatus, 18, 10⟩
/-! FST_REBUILD_LINE (07_flow_store.md) -/
abbrev fstRebuildLine_line : Fld := ⟨.fstRebuildLine, 22, 0⟩
/-! FST_MQ_STATUS (07_flow_store.md) -/
abbrev fstMqStatus_occ : Fld := ⟨.fstMqStatus, 31, 19⟩
abbrev fstMqStatus_setupPending : Fld := ⟨.fstMqStatus, 18, 6⟩
/-! FST_MQ_PEAK (07_flow_store.md) -/
abbrev fstMqPeak_occPeak : Fld := ⟨.fstMqPeak, 31, 19⟩
abbrev fstMqPeak_setupPeak : Fld := ⟨.fstMqPeak, 18, 6⟩
/-! FST_HBM_LOAD (07_flow_store.md) -/
abbrev fstHbmLoad_missAcc : Fld := ⟨.fstHbmLoad, 31, 21⟩
abbrev fstHbmLoad_commitAcc : Fld := ⟨.fstHbmLoad, 20, 10⟩
abbrev fstHbmLoad_bgAccDiv2 : Fld := ⟨.fstHbmLoad, 9, 0⟩
/-! FST_SWEEP_STATUS (07_flow_store.md) -/
abbrev fstSweepStatus_running : Fld := ⟨.fstSweepStatus, 31, 31⟩
abbrev fstSweepStatus_desc : Fld := ⟨.fstSweepStatus, 30, 27⟩
abbrev fstSweepStatus_pass : Fld := ⟨.fstSweepStatus, 26, 19⟩
abbrev fstSweepStatus_queued : Fld := ⟨.fstSweepStatus, 15, 0⟩
/-! FST_CACHE_STATUS (07_flow_store.md) -/
abbrev fstCacheStatus_validLines : Fld := ⟨.fstCacheStatus, 31, 17⟩
abbrev fstCacheStatus_dirtyLines : Fld := ⟨.fstCacheStatus, 16, 2⟩
/-! FST_LIVE (07_flow_store.md) -/
abbrev fstLive_live : Fld := ⟨.fstLive, 24, 0⟩
/-! FST_EVENT (07_flow_store.md) -/
abbrev fstEvent_mqOverflowSeen : Fld := ⟨.fstEvent, 31, 31⟩
abbrev fstEvent_nospaceSeen : Fld := ⟨.fstEvent, 30, 30⟩
abbrev fstEvent_stashUsedSeen : Fld := ⟨.fstEvent, 29, 29⟩
abbrev fstEvent_sweepOverrunSeen : Fld := ⟨.fstEvent, 28, 28⟩
abbrev fstEvent_poisonSeen : Fld := ⟨.fstEvent, 27, 27⟩
abbrev fstEvent_cacheCorrSeen : Fld := ⟨.fstEvent, 26, 26⟩
abbrev fstEvent_cacheUncorrSeen : Fld := ⟨.fstEvent, 25, 25⟩
abbrev fstEvent_rebuildDoneSeen : Fld := ⟨.fstEvent, 24, 24⟩
abbrev fstEvent_leanDiscardSeen : Fld := ⟨.fstEvent, 23, 23⟩
/-! FST_ECC_CAPTURE (07_flow_store.md) -/
abbrev fstEccCapture_valid : Fld := ⟨.fstEccCapture, 31, 31⟩
abbrev fstEccCapture_uncorrectable : Fld := ⟨.fstEccCapture, 30, 30⟩
abbrev fstEccCapture_where : Fld := ⟨.fstEccCapture, 29, 28⟩
abbrev fstEccCapture_set : Fld := ⟨.fstEccCapture, 15, 4⟩
abbrev fstEccCapture_way : Fld := ⟨.fstEccCapture, 3, 0⟩
/-! FST_LAST_LOSS (07_flow_store.md) -/
abbrev fstLastLoss_valid : Fld := ⟨.fstLastLoss, 31, 31⟩
abbrev fstLastLoss_region : Fld := ⟨.fstLastLoss, 30, 29⟩
abbrev fstLastLoss_location : Fld := ⟨.fstLastLoss, 28, 0⟩
/-! BPM_CTRL (08_flow_setup.md) -/
abbrev bpmCtrl_lock : Fld := ⟨.bpmCtrl, 31, 31⟩
abbrev bpmCtrl_remoteEn : Fld := ⟨.bpmCtrl, 30, 30⟩
abbrev bpmCtrl_recallEn : Fld := ⟨.bpmCtrl, 29, 29⟩
/-! BPM_HEAP_FREE (08_flow_setup.md) -/
abbrev bpmHeapFree_free : Fld := ⟨.bpmHeapFree, 29, 0⟩
/-! BPM_CTRL_FREE (08_flow_setup.md) -/
abbrev bpmCtrlFree_free : Fld := ⟨.bpmCtrlFree, 24, 0⟩
/-! BPM_STATUS (08_flow_setup.md) -/
abbrev bpmStatus_recall : Fld := ⟨.bpmStatus, 31, 29⟩
abbrev bpmStatus_heapEmpty : Fld := ⟨.bpmStatus, 28, 26⟩
abbrev bpmStatus_ctrlEmpty : Fld := ⟨.bpmStatus, 25, 22⟩
abbrev bpmStatus_arbPtr : Fld := ⟨.bpmStatus, 21, 16⟩
abbrev bpmStatus_openTx : Fld := ⟨.bpmStatus, 15, 0⟩
/-! BPM_EVENT (08_flow_setup.md) -/
abbrev bpmEvent_badHandleSeen : Fld := ⟨.bpmEvent, 31, 31⟩
abbrev bpmEvent_raceSeen : Fld := ⟨.bpmEvent, 30, 30⟩
abbrev bpmEvent_recallSeen : Fld := ⟨.bpmEvent, 29, 29⟩
abbrev bpmEvent_heapEmptySeen : Fld := ⟨.bpmEvent, 28, 28⟩
abbrev bpmEvent_ctrlEmptySeen : Fld := ⟨.bpmEvent, 27, 27⟩
abbrev bpmEvent_refcountFullSeen : Fld := ⟨.bpmEvent, 26, 26⟩
abbrev bpmEvent_txTimeoutSeen : Fld := ⟨.bpmEvent, 25, 25⟩
abbrev bpmEvent_fenceRejectSeen : Fld := ⟨.bpmEvent, 24, 24⟩
/-! BPM_BAD_CAPTURE (08_flow_setup.md) -/
abbrev bpmBadCapture_value : Fld := ⟨.bpmBadCapture, 31, 0⟩
/-! RIG_CTRL (09_rigs.md) -/
abbrev rigCtrl_lock : Fld := ⟨.rigCtrl, 31, 31⟩
abbrev rigCtrl_restartActive : Fld := ⟨.rigCtrl, 30, 30⟩
abbrev rigCtrl_restarts : Fld := ⟨.rigCtrl, 29, 22⟩
abbrev rigCtrl_rigEn : Fld := ⟨.rigCtrl, 15, 8⟩
abbrev rigCtrl_rigBusy : Fld := ⟨.rigCtrl, 7, 0⟩
/-! RIG_UCODE_VERSION (09_rigs.md) -/
abbrev rigUcodeVersion_major : Fld := ⟨.rigUcodeVersion, 31, 24⟩
abbrev rigUcodeVersion_minor : Fld := ⟨.rigUcodeVersion, 23, 16⟩
abbrev rigUcodeVersion_build : Fld := ⟨.rigUcodeVersion, 15, 4⟩
abbrev rigUcodeVersion_sig : Fld := ⟨.rigUcodeVersion, 3, 2⟩
abbrev rigUcodeVersion_region : Fld := ⟨.rigUcodeVersion, 1, 1⟩
abbrev rigUcodeVersion_loaded : Fld := ⟨.rigUcodeVersion, 0, 0⟩
/-! RIG_EVENT (09_rigs.md) -/
abbrev rigEvent_mchkSeen : Fld := ⟨.rigEvent, 31, 31⟩
abbrev rigEvent_overrunSeen : Fld := ⟨.rigEvent, 30, 30⟩
abbrev rigEvent_replayDropSeen : Fld := ⟨.rigEvent, 29, 29⟩
abbrev rigEvent_spliceFaultSeen : Fld := ⟨.rigEvent, 28, 28⟩
abbrev rigEvent_roWriteSeen : Fld := ⟨.rigEvent, 27, 27⟩
abbrev rigEvent_restartFailSeen : Fld := ⟨.rigEvent, 26, 26⟩
abbrev rigEvent_mchkRig : Fld := ⟨.rigEvent, 25, 23⟩
abbrev rigEvent_mchkParity : Fld := ⟨.rigEvent, 22, 19⟩
abbrev rigEvent_mchkAddr : Fld := ⟨.rigEvent, 12, 0⟩
/-! IQM_CTRL (10_queues_fabric.md) -/
abbrev iqmCtrl_lock : Fld := ⟨.iqmCtrl, 31, 31⟩
abbrev iqmCtrl_ctEn : Fld := ⟨.iqmCtrl, 30, 30⟩
abbrev iqmCtrl_ageScanEn : Fld := ⟨.iqmCtrl, 29, 29⟩
abbrev iqmCtrl_sampleLen : Fld := ⟨.iqmCtrl, 28, 19⟩
abbrev iqmCtrl_copyRate : Fld := ⟨.iqmCtrl, 18, 11⟩
/-! IQM_STATUS (10_queues_fabric.md) -/
abbrev iqmStatus_cellsUsed : Fld := ⟨.iqmStatus, 31, 17⟩
abbrev iqmStatus_entriesUsed : Fld := ⟨.iqmStatus, 16, 1⟩
abbrev iqmStatus_restartActive : Fld := ⟨.iqmStatus, 0, 0⟩
/-! IQM_EVENT (10_queues_fabric.md) -/
abbrev iqmEvent_ingressFullSeen : Fld := ⟨.iqmEvent, 31, 31⟩
abbrev iqmEvent_arrivalDropSeen : Fld := ⟨.iqmEvent, 30, 30⟩
abbrev iqmEvent_headroomDropSeen : Fld := ⟨.iqmEvent, 29, 29⟩
abbrev iqmEvent_refusedSeen : Fld := ⟨.iqmEvent, 28, 28⟩
abbrev iqmEvent_ageDropSeen : Fld := ⟨.iqmEvent, 27, 27⟩
abbrev iqmEvent_mcPartialSeen : Fld := ⟨.iqmEvent, 26, 26⟩
abbrev iqmEvent_recircDropSeen : Fld := ⟨.iqmEvent, 25, 25⟩
abbrev iqmEvent_copyDropSeen : Fld := ⟨.iqmEvent, 24, 24⟩
abbrev iqmEvent_mirrorDropSeen : Fld := ⟨.iqmEvent, 23, 23⟩
abbrev iqmEvent_eccCorrSeen : Fld := ⟨.iqmEvent, 22, 22⟩
abbrev iqmEvent_eccUncorrSeen : Fld := ⟨.iqmEvent, 21, 21⟩
abbrev iqmEvent_restartSeen : Fld := ⟨.iqmEvent, 20, 20⟩
/-! IQM_ECC_CAPTURE (10_queues_fabric.md) -/
abbrev iqmEccCapture_valid : Fld := ⟨.iqmEccCapture, 31, 31⟩
abbrev iqmEccCapture_uncorrectable : Fld := ⟨.iqmEccCapture, 30, 30⟩
abbrev iqmEccCapture_memory : Fld := ⟨.iqmEccCapture, 29, 28⟩
abbrev iqmEccCapture_index : Fld := ⟨.iqmEccCapture, 15, 0⟩
/-! FAB_STATUS (10_queues_fabric.md) -/
abbrev fabStatus_waitFa : Fld := ⟨.fabStatus, 31, 16⟩
abbrev fabStatus_waitAf : Fld := ⟨.fabStatus, 15, 0⟩
/-! FAB_EVENT (10_queues_fabric.md) -/
abbrev fabEvent_eccCorrSeen : Fld := ⟨.fabEvent, 31, 31⟩
abbrev fabEvent_eccUncorrSeen : Fld := ⟨.fabEvent, 30, 30⟩
abbrev fabEvent_bridgeWaitSeen : Fld := ⟨.fabEvent, 29, 29⟩
/-! FAB_ECC_CAPTURE (10_queues_fabric.md) -/
abbrev fabEccCapture_valid : Fld := ⟨.fabEccCapture, 31, 31⟩
abbrev fabEccCapture_uncorrectable : Fld := ⟨.fabEccCapture, 30, 30⟩
abbrev fabEccCapture_input : Fld := ⟨.fabEccCapture, 29, 25⟩
abbrev fabEccCapture_output : Fld := ⟨.fabEccCapture, 24, 20⟩
/-! FAB_BRIDGE_LOAD (10_queues_fabric.md) -/
abbrev fabBridgeLoad_loadFa : Fld := ⟨.fabBridgeLoad, 31, 16⟩
abbrev fabBridgeLoad_loadAf : Fld := ⟨.fabBridgeLoad, 15, 0⟩
/-! EGS_CTRL (11_egress.md) -/
abbrev egsCtrl_lock : Fld := ⟨.egsCtrl, 31, 31⟩
abbrev egsCtrl_unlockedGateState : Fld := ⟨.egsCtrl, 30, 29⟩
abbrev egsCtrl_unlockedMask : Fld := ⟨.egsCtrl, 28, 21⟩
abbrev egsCtrl_gateLead : Fld := ⟨.egsCtrl, 20, 5⟩
/-! EGS_STATUS (11_egress.md) -/
abbrev egsStatus_gateOper : Fld := ⟨.egsStatus, 31, 24⟩
abbrev egsStatus_operList : Fld := ⟨.egsStatus, 23, 16⟩
abbrev egsStatus_gatePending : Fld := ⟨.egsStatus, 15, 8⟩
abbrev egsStatus_nhDown : Fld := ⟨.egsStatus, 7, 0⟩
/-! EGS_EVENT (11_egress.md) -/
abbrev egsEvent_gateNofitSeen : Fld := ⟨.egsEvent, 31, 31⟩
abbrev egsEvent_gateChangeSeen : Fld := ⟨.egsEvent, 30, 30⟩
abbrev egsEvent_gateInvalidSeen : Fld := ⟨.egsEvent, 29, 29⟩
abbrev egsEvent_gateEccCorrSeen : Fld := ⟨.egsEvent, 28, 28⟩
abbrev egsEvent_gateEccUncorrSeen : Fld := ⟨.egsEvent, 27, 27⟩
abbrev egsEvent_unlockedSeen : Fld := ⟨.egsEvent, 26, 26⟩
abbrev egsEvent_failoverSeen : Fld := ⟨.egsEvent, 25, 25⟩
abbrev egsEvent_revertSeen : Fld := ⟨.egsEvent, 24, 24⟩
abbrev egsEvent_backupDownSeen : Fld := ⟨.egsEvent, 23, 23⟩
abbrev egsEvent_ttlDropSeen : Fld := ⟨.egsEvent, 22, 22⟩
abbrev egsEvent_mtuDropSeen : Fld := ⟨.egsEvent, 21, 21⟩
abbrev egsEvent_rewriteDropSeen : Fld := ⟨.egsEvent, 20, 20⟩
abbrev egsEvent_shaperEccSeen : Fld := ⟨.egsEvent, 19, 19⟩
/-! EGS_TC_COUNT (11_egress.md) -/
abbrev egsTcCount_tcRtEvict : Fld := ⟨.egsTcCount, 31, 16⟩
abbrev egsTcCount_tcFuNomatch : Fld := ⟨.egsTcCount, 15, 0⟩
/-! EGS_WHEEL_STATUS (11_egress.md) -/
abbrev egsWheelStatus_slot : Fld := ⟨.egsWheelStatus, 31, 19⟩
abbrev egsWheelStatus_wheelEntries : Fld := ⟨.egsWheelStatus, 18, 12⟩
abbrev egsWheelStatus_listEntries : Fld := ⟨.egsWheelStatus, 11, 5⟩
abbrev egsWheelStatus_lateMax : Fld := ⟨.egsWheelStatus, 4, 0⟩
/-! EGS_ECC_CAPTURE (11_egress.md) -/
abbrev egsEccCapture_valid : Fld := ⟨.egsEccCapture, 31, 31⟩
abbrev egsEccCapture_uncorrectable : Fld := ⟨.egsEccCapture, 30, 30⟩
abbrev egsEccCapture_memory : Fld := ⟨.egsEccCapture, 29, 28⟩
abbrev egsEccCapture_port : Fld := ⟨.egsEccCapture, 27, 25⟩
abbrev egsEccCapture_index : Fld := ⟨.egsEccCapture, 15, 0⟩
/-! RED_CTRL (11_egress.md) -/
abbrev redCtrl_lock : Fld := ⟨.redCtrl, 31, 31⟩
abbrev redCtrl_latentEn : Fld := ⟨.redCtrl, 30, 30⟩
abbrev redCtrl_latentPeriod : Fld := ⟨.redCtrl, 15, 0⟩
/-! RED_STATUS (11_egress.md) -/
abbrev redStatus_monitors : Fld := ⟨.redStatus, 31, 19⟩
abbrev redStatus_lastAlarms : Fld := ⟨.redStatus, 18, 6⟩
/-! RED_EVENT (11_egress.md) -/
abbrev redEvent_latentAlarmSeen : Fld := ⟨.redEvent, 31, 31⟩
abbrev redEvent_eccCorrSeen : Fld := ⟨.redEvent, 30, 30⟩
abbrev redEvent_eccUncorrSeen : Fld := ⟨.redEvent, 29, 29⟩
/-! RED_LATENT_CAPTURE (11_egress.md) -/
abbrev redLatentCapture_valid : Fld := ⟨.redLatentCapture, 31, 31⟩
abbrev redLatentCapture_monitor : Fld := ⟨.redLatentCapture, 11, 0⟩
/-! MCX_CTRL (12_hbm.md) -/
abbrev mcxCtrl_lock : Fld := ⟨.mcxCtrl, 31, 31⟩
abbrev mcxCtrl_patrolEn : Fld := ⟨.mcxCtrl, 30, 30⟩
abbrev mcxCtrl_scrubHours : Fld := ⟨.mcxCtrl, 23, 16⟩
abbrev mcxCtrl_extLimit : Fld := ⟨.mcxCtrl, 15, 8⟩
/-! MCX_STATUS (12_hbm.md) -/
abbrev mcxStatus_state : Fld := ⟨.mcxStatus, 31, 30⟩
abbrev mcxStatus_spareUsed : Fld := ⟨.mcxStatus, 29, 29⟩
abbrev mcxStatus_sparePc : Fld := ⟨.mcxStatus, 28, 24⟩
abbrev mcxStatus_retiring : Fld := ⟨.mcxStatus, 23, 23⟩
abbrev mcxStatus_held : Fld := ⟨.mcxStatus, 15, 0⟩
/-! MCX_EVENT (12_hbm.md) -/
abbrev mcxEvent_ueSeen : Fld := ⟨.mcxEvent, 31, 31⟩
abbrev mcxEvent_ceSeen : Fld := ⟨.mcxEvent, 30, 30⟩
abbrev mcxEvent_retireStartSeen : Fld := ⟨.mcxEvent, 29, 29⟩
abbrev mcxEvent_retireDoneSeen : Fld := ⟨.mcxEvent, 28, 28⟩
abbrev mcxEvent_spareExhaustedSeen : Fld := ⟨.mcxEvent, 27, 27⟩
abbrev mcxEvent_nrefreshSeen : Fld := ⟨.mcxEvent, 26, 26⟩
abbrev mcxEvent_trainSkippedSeen : Fld := ⟨.mcxEvent, 25, 25⟩
abbrev mcxEvent_furlAbandonSeen : Fld := ⟨.mcxEvent, 24, 24⟩
abbrev mcxEvent_tempHighSeen : Fld := ⟨.mcxEvent, 23, 23⟩
abbrev mcxEvent_rmwPoisonSeen : Fld := ⟨.mcxEvent, 22, 22⟩
/-! MCX_RH_CFG (12_hbm.md) -/
abbrev mcxRhCfg_threshold : Fld := ⟨.mcxRhCfg, 31, 16⟩
/-! MCX_PC_FROZEN (12_hbm.md) -/
abbrev mcxPcFrozen_frozen : Fld := ⟨.mcxPcFrozen, 31, 0⟩
/-! MCX_PC_HOLD (12_hbm.md) -/
abbrev mcxPcHold_hold : Fld := ⟨.mcxPcHold, 31, 0⟩
/-! MCX_PC_RETIRED (12_hbm.md) -/
abbrev mcxPcRetired_retired : Fld := ⟨.mcxPcRetired, 31, 0⟩
/-! MCX_UE_CAPTURE (12_hbm.md) -/
abbrev mcxUeCapture_value : Fld := ⟨.mcxUeCapture, 31, 0⟩
/-! MCX_RETIRE_LINE (12_hbm.md) -/
abbrev mcxRetireLine_line : Fld := ⟨.mcxRetireLine, 22, 0⟩
/-! MCX_HIST_INDEX (12_hbm.md) -/
abbrev mcxHistIndex_captured : Fld := ⟨.mcxHistIndex, 31, 31⟩
abbrev mcxHistIndex_index : Fld := ⟨.mcxHistIndex, 7, 0⟩
/-! MCX_HIST_DATA (12_hbm.md) -/
abbrev mcxHistData_value : Fld := ⟨.mcxHistData, 31, 0⟩
/-! MCX_TEMP (12_hbm.md) -/
abbrev mcxTemp_tempMax : Fld := ⟨.mcxTemp, 31, 24⟩
abbrev mcxTemp_temp : Fld := ⟨.mcxTemp, 23, 16⟩
abbrev mcxTemp_hot : Fld := ⟨.mcxTemp, 15, 15⟩
/-! MCX_TRAIN_STATUS (12_hbm.md) -/
abbrev mcxTrainStatus_windows : Fld := ⟨.mcxTrainStatus, 31, 16⟩
abbrev mcxTrainStatus_skipped : Fld := ⟨.mcxTrainStatus, 15, 8⟩
/-! MCX_SR_STATUS (12_hbm.md) -/
abbrev mcxSrStatus_furlAbandons : Fld := ⟨.mcxSrStatus, 31, 16⟩
/-! MCX_LOAD (12_hbm.md) -/
abbrev mcxLoad_shardPeak : Fld := ⟨.mcxLoad, 31, 16⟩
abbrev mcxLoad_extPeak : Fld := ⟨.mcxLoad, 15, 0⟩
/-! MCX_RH_STATUS (12_hbm.md) -/
abbrev mcxRhStatus_countMax : Fld := ⟨.mcxRhStatus, 31, 16⟩
abbrev mcxRhStatus_occMax : Fld := ⟨.mcxRhStatus, 9, 0⟩
/-! MCX_CE_CAPTURE (12_hbm.md) -/
abbrev mcxCeCapture_valid : Fld := ⟨.mcxCeCapture, 31, 31⟩
abbrev mcxCeCapture_pc : Fld := ⟨.mcxCeCapture, 30, 26⟩
abbrev mcxCeCapture_unit : Fld := ⟨.mcxCeCapture, 25, 3⟩
/-! MCX_UE_RECENT (12_hbm.md) -/
abbrev mcxUeRecent_pc : Fld := ⟨.mcxUeRecent, 31, 27⟩
abbrev mcxUeRecent_count : Fld := ⟨.mcxUeRecent, 26, 25⟩
/-! CRD_CTRL (13_criod.md) -/
abbrev crdCtrl_lock : Fld := ⟨.crdCtrl, 31, 31⟩
abbrev crdCtrl_becalmedEn : Fld := ⟨.crdCtrl, 30, 30⟩
abbrev crdCtrl_becalmedAction : Fld := ⟨.crdCtrl, 29, 28⟩
abbrev crdCtrl_backstay : Fld := ⟨.crdCtrl, 27, 26⟩
abbrev crdCtrl_kickPeriod : Fld := ⟨.crdCtrl, 23, 16⟩
abbrev crdCtrl_ckptPeriod : Fld := ⟨.crdCtrl, 15, 8⟩
/-! CRD_CORE_STATUS (13_criod.md) -/
abbrev crdCoreStatus_role : Fld := ⟨.crdCoreStatus, 31, 30⟩
abbrev crdCoreStatus_greedy : Fld := ⟨.crdCoreStatus, 29, 29⟩
abbrev crdCoreStatus_greedyThread : Fld := ⟨.crdCoreStatus, 28, 25⟩
abbrev crdCoreStatus_supervisor : Fld := ⟨.crdCoreStatus, 24, 24⟩
abbrev crdCoreStatus_ctrlGen : Fld := ⟨.crdCoreStatus, 23, 16⟩
abbrev crdCoreStatus_stopped : Fld := ⟨.crdCoreStatus, 15, 0⟩
/-! CRD_THREAD_STATE (13_criod.md) -/
abbrev crdThreadState_state : Fld := ⟨.crdThreadState, 31, 0⟩
/-! CRD_THREAD_CLASS (13_criod.md) -/
abbrev crdThreadClass_deterministic : Fld := ⟨.crdThreadClass, 31, 16⟩
abbrev crdThreadClass_elastic : Fld := ⟨.crdThreadClass, 15, 0⟩
/-! CRD_SCHED_STATUS (13_criod.md) -/
abbrev crdSchedStatus_ready : Fld := ⟨.crdSchedStatus, 31, 21⟩
abbrev crdSchedStatus_delayed : Fld := ⟨.crdSchedStatus, 20, 10⟩
abbrev crdSchedStatus_topLevel : Fld := ⟨.crdSchedStatus, 9, 5⟩
/-! CRD_BECALMED (13_criod.md) -/
abbrev crdBecalmed_live : Fld := ⟨.crdBecalmed, 31, 31⟩
abbrev crdBecalmed_latched : Fld := ⟨.crdBecalmed, 30, 30⟩
abbrev crdBecalmed_quietUs : Fld := ⟨.crdBecalmed, 10, 0⟩
/-! CRD_BECALMED_TIME (13_criod.md) -/
abbrev crdBecalmedTime_value : Fld := ⟨.crdBecalmedTime, 31, 0⟩
/-! CRD_TAKEOVER (13_criod.md) -/
abbrev crdTakeover_state : Fld := ⟨.crdTakeover, 31, 30⟩
abbrev crdTakeover_failedCore : Fld := ⟨.crdTakeover, 29, 28⟩
abbrev crdTakeover_newCore : Fld := ⟨.crdTakeover, 27, 26⟩
abbrev crdTakeover_planned : Fld := ⟨.crdTakeover, 25, 25⟩
abbrev crdTakeover_durationUs : Fld := ⟨.crdTakeover, 24, 0⟩
/-! CRD_FENCE (13_criod.md) -/
abbrev crdFence_minGen : Fld := ⟨.crdFence, 31, 0⟩
/-! CRD_HEALTH (13_criod.md) -/
abbrev crdHealth_value : Fld := ⟨.crdHealth, 31, 0⟩
/-! CRD_THREAD_FAULT (13_criod.md) -/
abbrev crdThreadFault_value : Fld := ⟨.crdThreadFault, 31, 0⟩
/-! CRD_EVENT (13_criod.md) -/
abbrev crdEvent_threadFaultSeen : Fld := ⟨.crdEvent, 31, 31⟩
abbrev crdEvent_becalmedSeen : Fld := ⟨.crdEvent, 30, 30⟩
abbrev crdEvent_takeoverSeen : Fld := ⟨.crdEvent, 29, 29⟩
abbrev crdEvent_fenceRejectSeen : Fld := ⟨.crdEvent, 28, 28⟩
abbrev crdEvent_healthFailSeen : Fld := ⟨.crdEvent, 27, 27⟩
abbrev crdEvent_kickMissSeen : Fld := ⟨.crdEvent, 26, 26⟩
abbrev crdEvent_eccCorrSeen : Fld := ⟨.crdEvent, 25, 25⟩
abbrev crdEvent_eccUncorrSeen : Fld := ⟨.crdEvent, 24, 24⟩
abbrev crdEvent_debugStopSeen : Fld := ⟨.crdEvent, 23, 23⟩
abbrev crdEvent_coreOfflineSeen : Fld := ⟨.crdEvent, 22, 22⟩
/-! SYS_ID (14_host_interface.md) -/
abbrev sysId_part : Fld := ⟨.sysId, 31, 16⟩
abbrev sysId_revision : Fld := ⟨.sysId, 15, 12⟩
abbrev sysId_variant : Fld := ⟨.sysId, 7, 0⟩
/-! SYS_CTRL (14_host_interface.md) -/
abbrev sysCtrl_lock : Fld := ⟨.sysCtrl, 31, 31⟩
abbrev sysCtrl_resetKey : Fld := ⟨.sysCtrl, 23, 16⟩
abbrev sysCtrl_intnTest : Fld := ⟨.sysCtrl, 8, 8⟩
abbrev sysCtrl_warmReset : Fld := ⟨.sysCtrl, 0, 0⟩
/-! SYS_STATUS (14_host_interface.md) -/
abbrev sysStatus_bootState : Fld := ⟨.sysStatus, 31, 28⟩
abbrev sysStatus_ready : Fld := ⟨.sysStatus, 27, 27⟩
abbrev sysStatus_debugUnlocked : Fld := ⟨.sysStatus, 26, 26⟩
abbrev sysStatus_reef : Fld := ⟨.sysStatus, 25, 25⟩
abbrev sysStatus_barePoles : Fld := ⟨.sysStatus, 24, 24⟩
abbrev sysStatus_locked : Fld := ⟨.sysStatus, 23, 23⟩
/-! SYS_STRAPS (14_host_interface.md) -/
abbrev sysStraps_stkRole : Fld := ⟨.sysStraps, 6, 5⟩
abbrev sysStraps_stkId : Fld := ⟨.sysStraps, 4, 3⟩
abbrev sysStraps_bootSrc : Fld := ⟨.sysStraps, 2, 1⟩
abbrev sysStraps_testEn : Fld := ⟨.sysStraps, 0, 0⟩
/-! SYS_FW_VERSION (14_host_interface.md) -/
abbrev sysFwVersion_major : Fld := ⟨.sysFwVersion, 31, 24⟩
abbrev sysFwVersion_minor : Fld := ⟨.sysFwVersion, 23, 16⟩
abbrev sysFwVersion_build : Fld := ⟨.sysFwVersion, 15, 0⟩
/-! SYS_RESET_CAUSE (14_host_interface.md) -/
abbrev sysResetCause_bootCount : Fld := ⟨.sysResetCause, 31, 16⟩
abbrev sysResetCause_thermtrip : Fld := ⟨.sysResetCause, 4, 4⟩
abbrev sysResetCause_latchedBarePoles : Fld := ⟨.sysResetCause, 3, 3⟩
abbrev sysResetCause_warm : Fld := ⟨.sysResetCause, 2, 2⟩
abbrev sysResetCause_pin : Fld := ⟨.sysResetCause, 1, 1⟩
abbrev sysResetCause_powerOn : Fld := ⟨.sysResetCause, 0, 0⟩
/-! SYS_SERIAL (14_host_interface.md) -/
abbrev sysSerial_serial : Fld := ⟨.sysSerial, 31, 0⟩
/-! SYS_IRQ_STATUS (14_host_interface.md) -/
abbrev sysIrqStatus_takeover : Fld := ⟨.sysIrqStatus, 9, 9⟩
abbrev sysIrqStatus_becalmed : Fld := ⟨.sysIrqStatus, 8, 8⟩
abbrev sysIrqStatus_stack : Fld := ⟨.sysIrqStatus, 7, 7⟩
abbrev sysIrqStatus_mbxErr : Fld := ⟨.sysIrqStatus, 6, 6⟩
abbrev sysIrqStatus_pciErr : Fld := ⟨.sysIrqStatus, 5, 5⟩
abbrev sysIrqStatus_thermal : Fld := ⟨.sysIrqStatus, 4, 4⟩
abbrev sysIrqStatus_ready : Fld := ⟨.sysIrqStatus, 3, 3⟩
abbrev sysIrqStatus_degraded : Fld := ⟨.sysIrqStatus, 2, 2⟩
abbrev sysIrqStatus_err : Fld := ⟨.sysIrqStatus, 1, 1⟩
abbrev sysIrqStatus_fault : Fld := ⟨.sysIrqStatus, 0, 0⟩
/-! SYS_IRQ_MASK (14_host_interface.md) -/
abbrev sysIrqMask_intnEn : Fld := ⟨.sysIrqMask, 31, 16⟩
abbrev sysIrqMask_msixEn : Fld := ⟨.sysIrqMask, 15, 0⟩
/-! SYS_SCRATCH (14_host_interface.md) -/
abbrev sysScratch_scratch : Fld := ⟨.sysScratch, 31, 0⟩
/-! PCI_CTRL (14_host_interface.md) -/
abbrev pciCtrl_dmaStop : Fld := ⟨.pciCtrl, 0, 0⟩
/-! PCI_STATUS (14_host_interface.md) -/
abbrev pciStatus_speed : Fld := ⟨.pciStatus, 31, 28⟩
abbrev pciStatus_width : Fld := ⟨.pciStatus, 27, 24⟩
abbrev pciStatus_linkUp : Fld := ⟨.pciStatus, 23, 23⟩
abbrev pciStatus_d3hot : Fld := ⟨.pciStatus, 22, 22⟩
abbrev pciStatus_flrActive : Fld := ⟨.pciStatus, 21, 21⟩
abbrev pciStatus_resets : Fld := ⟨.pciStatus, 15, 0⟩
/-! PCI_EVENT (14_host_interface.md) -/
abbrev pciEvent_unmappedSeen : Fld := ⟨.pciEvent, 31, 31⟩
abbrev pciEvent_lockedWriteSeen : Fld := ⟨.pciEvent, 30, 30⟩
abbrev pciEvent_partialWriteSeen : Fld := ⟨.pciEvent, 29, 29⟩
abbrev pciEvent_cplTimeoutSeen : Fld := ⟨.pciEvent, 28, 28⟩
abbrev pciEvent_urSeen : Fld := ⟨.pciEvent, 27, 27⟩
abbrev pciEvent_poisonSeen : Fld := ⟨.pciEvent, 26, 26⟩
abbrev pciEvent_flrSeen : Fld := ⟨.pciEvent, 25, 25⟩
abbrev pciEvent_aerCorrSeen : Fld := ⟨.pciEvent, 24, 24⟩
/-! PCI_ERR_CAPTURE (14_host_interface.md) -/
abbrev pciErrCapture_value : Fld := ⟨.pciErrCapture, 31, 0⟩
/-! PCI_DMA_STATUS (14_host_interface.md) -/
abbrev pciDmaStatus_readsOut : Fld := ⟨.pciDmaStatus, 31, 22⟩
abbrev pciDmaStatus_ringsEn : Fld := ⟨.pciDmaStatus, 21, 15⟩
/-! MBX_CTRL (14_host_interface.md) -/
abbrev mbxCtrl_smbEn : Fld := ⟨.mbxCtrl, 9, 9⟩
abbrev mbxCtrl_dbgEn : Fld := ⟨.mbxCtrl, 8, 8⟩
abbrev mbxCtrl_en : Fld := ⟨.mbxCtrl, 7, 0⟩
/-! MBX_STATUS (14_host_interface.md) -/
abbrev mbxStatus_ready : Fld := ⟨.mbxStatus, 31, 24⟩
abbrev mbxStatus_dbgReady : Fld := ⟨.mbxStatus, 23, 23⟩
abbrev mbxStatus_smbReady : Fld := ⟨.mbxStatus, 22, 22⟩
abbrev mbxStatus_cqFull : Fld := ⟨.mbxStatus, 21, 14⟩
abbrev mbxStatus_inFlight : Fld := ⟨.mbxStatus, 13, 8⟩
abbrev mbxStatus_stopped : Fld := ⟨.mbxStatus, 7, 0⟩
/-! MBX_EVENT (14_host_interface.md) -/
abbrev mbxEvent_badDoorbellSeen : Fld := ⟨.mbxEvent, 31, 31⟩
abbrev mbxEvent_setupErrorSeen : Fld := ⟨.mbxEvent, 30, 30⟩
abbrev mbxEvent_fetchErrorSeen : Fld := ⟨.mbxEvent, 29, 29⟩
abbrev mbxEvent_cqStallSeen : Fld := ⟨.mbxEvent, 28, 28⟩
abbrev mbxEvent_flrLostSeen : Fld := ⟨.mbxEvent, 27, 27⟩
abbrev mbxEvent_smbPecSeen : Fld := ⟨.mbxEvent, 26, 26⟩
abbrev mbxEvent_ringDropSeen : Fld := ⟨.mbxEvent, 25, 25⟩
/-! MBX_ERR_CAPTURE (14_host_interface.md) -/
abbrev mbxErrCapture_valid : Fld := ⟨.mbxErrCapture, 31, 31⟩
abbrev mbxErrCapture_kind : Fld := ⟨.mbxErrCapture, 30, 28⟩
abbrev mbxErrCapture_unit : Fld := ⟨.mbxErrCapture, 27, 22⟩
abbrev mbxErrCapture_value : Fld := ⟨.mbxErrCapture, 15, 0⟩
/-! MBX_SETUP (14_host_interface.md) -/
abbrev mbxSetup_addr : Fld := ⟨.mbxSetup, 31, 0⟩
/-! MBX_QSTATE (14_host_interface.md) -/
abbrev mbxQstate_sqHead : Fld := ⟨.mbxQstate, 31, 16⟩
abbrev mbxQstate_cqTail : Fld := ⟨.mbxQstate, 15, 0⟩
/-! MBX_SQ_DB (14_host_interface.md) -/
abbrev mbxSqDb_tail : Fld := ⟨.mbxSqDb, 15, 0⟩
/-! MBX_CQ_DB (14_host_interface.md) -/
abbrev mbxCqDb_arm : Fld := ⟨.mbxCqDb, 31, 31⟩
abbrev mbxCqDb_head : Fld := ⟨.mbxCqDb, 15, 0⟩
/-! RING_DB (14_host_interface.md) -/
abbrev ringDb_ring : Fld := ⟨.ringDb, 31, 26⟩
abbrev ringDb_arm : Fld := ⟨.ringDb, 25, 25⟩
abbrev ringDb_index : Fld := ⟨.ringDb, 15, 0⟩
/-! FLT_CTRL (15_faults.md) -/
abbrev fltCtrl_lock : Fld := ⟨.fltCtrl, 31, 31⟩
abbrev fltCtrl_captureMin : Fld := ⟨.fltCtrl, 30, 28⟩
/-! FLT_STATUS (15_faults.md) -/
abbrev fltStatus_barePoles : Fld := ⟨.fltStatus, 31, 31⟩
abbrev fltStatus_latched : Fld := ⟨.fltStatus, 30, 30⟩
abbrev fltStatus_reef : Fld := ⟨.fltStatus, 29, 29⟩
abbrev fltStatus_quiet : Fld := ⟨.fltStatus, 28, 28⟩
abbrev fltStatus_availOpen : Fld := ⟨.fltStatus, 27, 27⟩
abbrev fltStatus_overflow : Fld := ⟨.fltStatus, 26, 26⟩
abbrev fltStatus_collectorParity : Fld := ⟨.fltStatus, 25, 25⟩
abbrev fltStatus_worst : Fld := ⟨.fltStatus, 24, 22⟩
abbrev fltStatus_s2Records : Fld := ⟨.fltStatus, 21, 12⟩
abbrev fltStatus_records : Fld := ⟨.fltStatus, 11, 2⟩
abbrev fltStatus_lost : Fld := ⟨.fltStatus, 1, 0⟩
/-! FLT_REDUCTION (15_faults.md) -/
abbrev fltReduction_barePoles : Fld := ⟨.fltReduction, 31, 31⟩
abbrev fltReduction_bareLatched : Fld := ⟨.fltReduction, 30, 30⟩
abbrev fltReduction_masterLost : Fld := ⟨.fltReduction, 16, 16⟩
abbrev fltReduction_linkDown : Fld := ⟨.fltReduction, 15, 15⟩
abbrev fltReduction_integrity : Fld := ⟨.fltReduction, 14, 14⟩
abbrev fltReduction_sramPoison : Fld := ⟨.fltReduction, 13, 13⟩
abbrev fltReduction_gateDamaged : Fld := ⟨.fltReduction, 12, 12⟩
abbrev fltReduction_ruleDamaged : Fld := ⟨.fltReduction, 11, 11⟩
abbrev fltReduction_refLost : Fld := ⟨.fltReduction, 10, 10⟩
abbrev fltReduction_tsPoint : Fld := ⟨.fltReduction, 9, 9⟩
abbrev fltReduction_hbmHot : Fld := ⟨.fltReduction, 8, 8⟩
abbrev fltReduction_spareOut : Fld := ⟨.fltReduction, 7, 7⟩
abbrev fltReduction_noBackstay : Fld := ⟨.fltReduction, 6, 6⟩
abbrev fltReduction_coreOut : Fld := ⟨.fltReduction, 5, 5⟩
abbrev fltReduction_pcHeld : Fld := ⟨.fltReduction, 4, 4⟩
abbrev fltReduction_pcFrozen : Fld := ⟨.fltReduction, 3, 3⟩
abbrev fltReduction_shardRestart : Fld := ⟨.fltReduction, 2, 2⟩
abbrev fltReduction_qmRestart : Fld := ⟨.fltReduction, 1, 1⟩
abbrev fltReduction_pipeRestart : Fld := ⟨.fltReduction, 0, 0⟩
/-! FLT_FIRST_CODE (15_faults.md) -/
abbrev fltFirstCode_valid : Fld := ⟨.fltFirstCode, 31, 31⟩
abbrev fltFirstCode_severity : Fld := ⟨.fltFirstCode, 30, 28⟩
abbrev fltFirstCode_simultaneous : Fld := ⟨.fltFirstCode, 27, 27⟩
abbrev fltFirstCode_unlocked : Fld := ⟨.fltFirstCode, 26, 26⟩
abbrev fltFirstCode_code : Fld := ⟨.fltFirstCode, 15, 0⟩
/-! FLT_FIRST_SOURCE (15_faults.md) -/
abbrev fltFirstSource_source : Fld := ⟨.fltFirstSource, 31, 16⟩
abbrev fltFirstSource_master : Fld := ⟨.fltFirstSource, 15, 13⟩
abbrev fltFirstSource_access : Fld := ⟨.fltFirstSource, 12, 10⟩
abbrev fltFirstSource_masterIndex : Fld := ⟨.fltFirstSource, 9, 0⟩
/-! FLT_FIRST_ADDR (15_faults.md) -/
abbrev fltFirstAddr_addr : Fld := ⟨.fltFirstAddr, 31, 0⟩
/-! FLT_FIRST_TIME (15_faults.md) -/
abbrev fltFirstTime_value : Fld := ⟨.fltFirstTime, 31, 0⟩
/-! FLT_FIRST_CYCLE (15_faults.md) -/
abbrev fltFirstCycle_cycle : Fld := ⟨.fltFirstCycle, 31, 0⟩
/-! FLT_SIMUL (15_faults.md) -/
abbrev fltSimul_others : Fld := ⟨.fltSimul, 15, 0⟩
/-! FLT_AVAIL_LOSS (15_faults.md) -/
abbrev fltAvailLoss_loss : Fld := ⟨.fltAvailLoss, 31, 0⟩
/-! FLT_AVAIL_SERVICE (15_faults.md) -/
abbrev fltAvailService_service : Fld := ⟨.fltAvailService, 31, 0⟩
/-! LOG_CTRL (15_faults.md) -/
abbrev logCtrl_lock : Fld := ⟨.logCtrl, 31, 31⟩
abbrev logCtrl_stopOnS4 : Fld := ⟨.logCtrl, 30, 30⟩
abbrev logCtrl_restart : Fld := ⟨.logCtrl, 29, 29⟩
/-! LOG_STATUS (15_faults.md) -/
abbrev logStatus_stopped : Fld := ⟨.logStatus, 31, 31⟩
abbrev logStatus_wrapped : Fld := ⟨.logStatus, 30, 30⟩
abbrev logStatus_head : Fld := ⟨.logStatus, 15, 0⟩
/-! LOG_SEQ (15_faults.md) -/
abbrev logSeq_seq : Fld := ⟨.logSeq, 31, 0⟩
/-! LOG_LASTGASP (15_faults.md) -/
abbrev logLastgasp_found : Fld := ⟨.logLastgasp, 31, 31⟩
abbrev logLastgasp_medium : Fld := ⟨.logLastgasp, 30, 30⟩
abbrev logLastgasp_torn : Fld := ⟨.logLastgasp, 29, 29⟩
abbrev logLastgasp_resumed : Fld := ⟨.logLastgasp, 28, 28⟩
abbrev logLastgasp_slot : Fld := ⟨.logLastgasp, 27, 27⟩
abbrev logLastgasp_gaspSeq : Fld := ⟨.logLastgasp, 26, 0⟩
/-! LOG_EVENT (15_faults.md) -/
abbrev logEvent_stoppedSeen : Fld := ⟨.logEvent, 31, 31⟩
abbrev logEvent_wrappedSeen : Fld := ⟨.logEvent, 30, 30⟩
abbrev logEvent_pwrfailSeen : Fld := ⟨.logEvent, 29, 29⟩
abbrev logEvent_gaspCommittedSeen : Fld := ⟨.logEvent, 28, 28⟩
abbrev logEvent_stoppedOverwrites : Fld := ⟨.logEvent, 15, 0⟩
/-! LOG_FILTER (15_faults.md) -/
abbrev logFilter_minSeverity : Fld := ⟨.logFilter, 31, 29⟩
/-! CNT_CTRL (16_counters_life.md) -/
abbrev cntCtrl_lock : Fld := ⟨.cntCtrl, 31, 31⟩
/-! CNT_SNAP_REQ (16_counters_life.md) -/
abbrev cntSnapReq_go : Fld := ⟨.cntSnapReq, 31, 31⟩
abbrev cntSnapReq_bank : Fld := ⟨.cntSnapReq, 30, 30⟩
abbrev cntSnapReq_groups : Fld := ⟨.cntSnapReq, 3, 0⟩
/-! CNT_BANK_STATUS (16_counters_life.md) -/
abbrev cntBankStatus_state1 : Fld := ⟨.cntBankStatus, 31, 30⟩
abbrev cntBankStatus_hold1 : Fld := ⟨.cntBankStatus, 29, 29⟩
abbrev cntBankStatus_unlocked1 : Fld := ⟨.cntBankStatus, 28, 28⟩
abbrev cntBankStatus_stack1 : Fld := ⟨.cntBankStatus, 27, 27⟩
abbrev cntBankStatus_skipped1 : Fld := ⟨.cntBankStatus, 26, 26⟩
abbrev cntBankStatus_groups1 : Fld := ⟨.cntBankStatus, 19, 16⟩
abbrev cntBankStatus_state0 : Fld := ⟨.cntBankStatus, 15, 14⟩
abbrev cntBankStatus_hold0 : Fld := ⟨.cntBankStatus, 13, 13⟩
abbrev cntBankStatus_unlocked0 : Fld := ⟨.cntBankStatus, 12, 12⟩
abbrev cntBankStatus_stack0 : Fld := ⟨.cntBankStatus, 11, 11⟩
abbrev cntBankStatus_skipped0 : Fld := ⟨.cntBankStatus, 10, 10⟩
abbrev cntBankStatus_groups0 : Fld := ⟨.cntBankStatus, 3, 0⟩
/-! CNT_BANK_TIME (16_counters_life.md) -/
abbrev cntBankTime_value : Fld := ⟨.cntBankTime, 31, 0⟩
/-! CNT_WIN_ADDR (16_counters_life.md) -/
abbrev cntWinAddr_bank : Fld := ⟨.cntWinAddr, 31, 31⟩
abbrev cntWinAddr_group : Fld := ⟨.cntWinAddr, 30, 29⟩
abbrev cntWinAddr_index : Fld := ⟨.cntWinAddr, 17, 0⟩
/-! CNT_WIN_DATA (16_counters_life.md) -/
abbrev cntWinData_value : Fld := ⟨.cntWinData, 31, 0⟩
/-! CNT_LIVE_ADDR (16_counters_life.md) -/
abbrev cntLiveAddr_group : Fld := ⟨.cntLiveAddr, 30, 29⟩
abbrev cntLiveAddr_index : Fld := ⟨.cntLiveAddr, 17, 0⟩
/-! CNT_LIVE_DATA (16_counters_life.md) -/
abbrev cntLiveData_value : Fld := ⟨.cntLiveData, 31, 0⟩
/-! CNT_EVENT (16_counters_life.md) -/
abbrev cntEvent_busySeen : Fld := ⟨.cntEvent, 31, 31⟩
abbrev cntEvent_skipSeen : Fld := ⟨.cntEvent, 30, 30⟩
abbrev cntEvent_invalidReadSeen : Fld := ⟨.cntEvent, 29, 29⟩
abbrev cntEvent_clearSeen : Fld := ⟨.cntEvent, 28, 28⟩
abbrev cntEvent_satSeen : Fld := ⟨.cntEvent, 27, 27⟩
/-! LIFE_CTRL (16_counters_life.md) -/
abbrev lifeCtrl_lock : Fld := ⟨.lifeCtrl, 31, 31⟩
abbrev lifeCtrl_enable : Fld := ⟨.lifeCtrl, 30, 30⟩
abbrev lifeCtrl_alarmMonths : Fld := ⟨.lifeCtrl, 10, 0⟩
/-! LIFE_STATUS (16_counters_life.md) -/
abbrev lifeStatus_insufficient : Fld := ⟨.lifeStatus, 31, 31⟩
abbrev lifeStatus_noBaseline : Fld := ⟨.lifeStatus, 30, 30⟩
abbrev lifeStatus_exceeded : Fld := ⟨.lifeStatus, 29, 29⟩
abbrev lifeStatus_worstSource : Fld := ⟨.lifeStatus, 28, 16⟩
abbrev lifeStatus_deviceMonths : Fld := ⟨.lifeStatus, 15, 0⟩
/-! LIFE_HOURS (16_counters_life.md) -/
abbrev lifeHours_hours : Fld := ⟨.lifeHours, 31, 0⟩
/-! LIFE_SENSOR_SEL (16_counters_life.md) -/
abbrev lifeSensorSel_sensor : Fld := ⟨.lifeSensorSel, 5, 0⟩
/-! LIFE_SENSOR_DATA (16_counters_life.md) -/
abbrev lifeSensorData_degradation : Fld := ⟨.lifeSensorData, 31, 16⟩
abbrev lifeSensorData_months : Fld := ⟨.lifeSensorData, 15, 0⟩
/-! LIFE_THERMAL (16_counters_life.md) -/
abbrev lifeThermal_foreTemp : Fld := ⟨.lifeThermal, 31, 24⟩
abbrev lifeThermal_aftTemp : Fld := ⟨.lifeThermal, 23, 16⟩
abbrev lifeThermal_cycles : Fld := ⟨.lifeThermal, 15, 0⟩
/-! LIFE_ACC (16_counters_life.md) -/
abbrev lifeAcc_slot : Fld := ⟨.lifeAcc, 31, 31⟩
abbrev lifeAcc_torn : Fld := ⟨.lifeAcc, 30, 30⟩
abbrev lifeAcc_seq : Fld := ⟨.lifeAcc, 29, 0⟩
/-! LIFE_EVENT (16_counters_life.md) -/
abbrev lifeEvent_alarmSeen : Fld := ⟨.lifeEvent, 31, 31⟩
abbrev lifeEvent_accWriteSeen : Fld := ⟨.lifeEvent, 30, 30⟩
abbrev lifeEvent_accFailSeen : Fld := ⟨.lifeEvent, 29, 29⟩
abbrev lifeEvent_sampleFailSeen : Fld := ⟨.lifeEvent, 28, 28⟩
/-! STK_CTRL (17_stacking.md) -/
abbrev stkCtrl_lock : Fld := ⟨.stkCtrl, 31, 31⟩
abbrev stkCtrl_mode : Fld := ⟨.stkCtrl, 30, 29⟩
abbrev stkCtrl_lSlots : Fld := ⟨.stkCtrl, 28, 21⟩
/-! STK_STATUS (17_stacking.md) -/
abbrev stkStatus_role : Fld := ⟨.stkStatus, 31, 30⟩
abbrev stkStatus_id : Fld := ⟨.stkStatus, 29, 28⟩
abbrev stkStatus_formed : Fld := ⟨.stkStatus, 27, 27⟩
abbrev stkStatus_actingMaster : Fld := ⟨.stkStatus, 26, 26⟩
abbrev stkStatus_resigned : Fld := ⟨.stkStatus, 25, 25⟩
abbrev stkStatus_ownSeed : Fld := ⟨.stkStatus, 24, 24⟩
abbrev stkStatus_members : Fld := ⟨.stkStatus, 23, 20⟩
abbrev stkStatus_linkUp : Fld := ⟨.stkStatus, 19, 16⟩
/-! STK_GEN (17_stacking.md) -/
abbrev stkGen_genHeard : Fld := ⟨.stkGen, 31, 16⟩
abbrev stkGen_genOwn : Fld := ⟨.stkGen, 15, 0⟩
/-! STK_REMOTE (17_stacking.md) -/
abbrev stkRemote_parked : Fld := ⟨.stkRemote, 31, 15⟩
abbrev stkRemote_parkedPeak : Fld := ⟨.stkRemote, 14, 0⟩
/-! STK_EVENT (17_stacking.md) -/
abbrev stkEvent_linkDownSeen : Fld := ⟨.stkEvent, 31, 31⟩
abbrev stkEvent_masterLostSeen : Fld := ⟨.stkEvent, 30, 30⟩
abbrev stkEvent_resignedSeen : Fld := ⟨.stkEvent, 29, 29⟩
abbrev stkEvent_fenceRejectSeen : Fld := ⟨.stkEvent, 28, 28⟩
abbrev stkEvent_giveupSeen : Fld := ⟨.stkEvent, 27, 27⟩
abbrev stkEvent_splitSeen : Fld := ⟨.stkEvent, 26, 26⟩
abbrev stkEvent_formFailSeen : Fld := ⟨.stkEvent, 25, 25⟩
/-! STK_LINK (17_stacking.md) -/
abbrev stkLink_up : Fld := ⟨.stkLink, 31, 31⟩
abbrev stkLink_bound : Fld := ⟨.stkLink, 30, 30⟩
abbrev stkLink_peerId : Fld := ⟨.stkLink, 29, 28⟩
abbrev stkLink_macro : Fld := ⟨.stkLink, 27, 23⟩
abbrev stkLink_delay : Fld := ⟨.stkLink, 15, 0⟩

end F

end Sys2Proof.Machine
end

