-- ==== Sys2Proof/Machine/State.lean ====
section
/-! DEFINITION. The state of the G5120: its registers, counters and every piece of state the chapters give it, the queue
of commands that wait, and the outcomes of a step. State is plain data. -/

namespace Sys2Proof.Machine

/-- Faults of the model. No command of the table stops the machine, so there is none: what the spec calls a fault of
the device (R476 to R479) is an effect on State, not a stop. -/
inductive Fault : Type
  deriving DecidableEq, Repr

/-- Refusals. -/
inductive Refusal where
  /-- Answered only by an arm of exec whose command has no meaning in the model yet; safe, since nothing can be proved
  of a run past it. -/
  | notModelled (mnemonic : String)
  deriving DecidableEq, Repr

/-- The state of the device. -/
structure State where
  /-- Commands waiting, first in, first out. -/
  pending : List Instr
  /-- The direct registers, by key of register and instance; one not listed holds its reset value (R444, R446). -/
  regs : SMap (BitVec 32)
  /-- The live 64-bit counters; one not listed is zero (R515 to R517). -/
  ctrs : SMap CtrVal
  /-- What the device has emitted, newest first; the model's own record (log entry 3). -/
  out : List OutEvent
  /-- How many free values have been drawn; the model's own (log entry 4). -/
  drawn : Nat
  /-- Network time, servo, timed-event calendar (chapter 2). -/
  tm : TimePart
  /-- Mailboxes, rings, notifications (chapter 14). -/
  host : HostPart
  /-- Fault collector, trouble log, last gasp, availability (chapter 15). -/
  flt : FaultPart
  /-- Snapshots, bandwidth windows, export, life (chapter 16). -/
  cnt : CountPart
  /-- Header graph, key profiles, dealers (chapter 4). -/
  prs : ParserPart
  /-- Rule and forwarding tables, flow profiles, epochs (chapter 5). -/
  cls : ClassifyPart
  /-- Ports, lanes and flow control (chapter 3). -/
  port : PortPart
  /-- Masked search arrays (chapter 6). -/
  msk : MaskedPart
  /-- Packets, copies, queue managers, replication (chapters 4 to 11). -/
  pk : PacketPart
  /-- Flow store, setup, record pools, transactions (chapters 7 and 8). -/
  fst : FlowPart
  /-- In-package memory (chapter 12). -/
  hbm : HbmPart
  /-- Control store, entry points, table memories (chapter 9). -/
  rig : RigPart
  /-- Scheduling, shapers, gates, failover, rewrites (chapter 11). -/
  egs : EgressPart
  /-- Criod cores, threads, channels, tasks (chapter 13). -/
  crd : CriodPart
  /-- Resets, boot, debug unlock, firmware update, supply (chapters 18 and 19). -/
  boot : BootPart
  /-- Stacking (chapter 17). -/
  stk : StackPart
  deriving DecidableEq, Repr

/-- The device right after reset. Every part holds the reset values its own file states; nothing waits. -/
def State.reset : State where
  pending := []
  regs := []
  ctrs := []
  out := []
  drawn := 0
  tm := TimePart.reset
  host := HostPart.reset
  flt := FaultPart.reset
  cnt := CountPart.reset
  prs := ParserPart.reset
  cls := ClassifyPart.reset
  port := PortPart.reset
  msk := MaskedPart.reset
  pk := PacketPart.reset
  fst := FlowPart.reset
  hbm := HbmPart.reset
  rig := RigPart.reset
  egs := EgressPart.reset
  crd := CriodPart.reset
  boot := BootPart.reset
  stk := StackPart.reset

end Sys2Proof.Machine
end

