-- ==== Sys2Proof/Machine/Ops.lean ====
section
/-! DEFINITION. The named operations over State that every meaning is built from: registers and their fields, counters,
network time, free values, outputs, the trouble log, notifications. -/

namespace Sys2Proof.Machine

/-! ## Registers -/

/-- The offset of a register's instance in its BAR (R444, R475). -/
def Reg.offset (r : Reg) (i : Nat) : Nat :=
  let p := r.place
  p.base + p.blockStride * (i / p.subs) + p.subStride * (i % p.subs)

/-- The key under which an instance of a register is held. -/
def Reg.key (r : Reg) (i : Nat) : Nat := 256 * i + r.ctorIdx

/-- How many instances a register has. -/
def Reg.count (r : Reg) : Nat := r.place.blocks * r.place.subs

/-- A register's value at reset, put together from its fields. -/
def Reg.resetWord (r : Reg) : BitVec 32 :=
  BitVec.ofNat 32 (r.fields.foldl (fun a f => a + f.reset <<< f.lo) 0)

/-- The content of a register instance. -/
def State.rd (s : State) (r : Reg) (i : Nat) : BitVec 32 := SMap.getD s.regs (r.key i) r.resetWord

/-- A register instance written whole, by the device. -/
def State.wr (s : State) (r : Reg) (i : Nat) (w : BitVec 32) : State :=
  { s with regs := SMap.put r.resetWord s.regs (r.key i) w }

/-- The value of a field in a register's content. -/
def fieldOf (w : BitVec 32) (hi lo : Nat) : Nat := bitsOf w.toNat hi lo

/-- A register's content with a field replaced, the value cut to the field's width. -/
def withField (w : BitVec 32) (hi lo v : Nat) : BitVec 32 :=
  BitVec.ofNat 32 (w.toNat - fieldOf w hi lo <<< lo + (v % 2 ^ (hi - lo + 1)) <<< lo)

/-- The value of a named field. -/
def State.getF (s : State) (f : Fld) (i : Nat := 0) : Nat := fieldOf (s.rd f.reg i) f.hi f.lo

/-- Whether a named field is not zero. -/
def State.getB (s : State) (f : Fld) (i : Nat := 0) : Bool := s.getF f i != 0

/-- A named field set to a value, by the device. -/
def State.setF (s : State) (f : Fld) (i v : Nat) : State := s.wr f.reg i (withField (s.rd f.reg i) f.hi f.lo v)

/-- A one-bit field set from a flag. -/
def State.setB (s : State) (f : Fld) (i : Nat) (b : Bool) : State := s.setF f i (b2n b)

/-- The greatest value a field holds. -/
def Fld.top (f : Fld) : Nat := 2 ^ (f.hi - f.lo + 1) - 1

/-- A saturating count in a field, advanced by `n`. -/
def State.addF (s : State) (f : Fld) (i n : Nat) : State := s.setF f i (satAdd f.top (s.getF f i) n)

/-- A field that keeps the greatest value seen. -/
def State.maxF (s : State) (f : Fld) (i v : Nat) : State := s.setF f i (Nat.max (s.getF f i) (Nat.min v f.top))

/-- Bit `b` inside a field. -/
def State.getBit (s : State) (f : Fld) (i b : Nat) : Bool := bitOf (s.getF f i) b

/-- A number with bit `b` set or cleared. -/
def putBit (w b : Nat) (v : Bool) : Nat := w - (b2n (bitOf w b)) <<< b + (b2n v) <<< b

/-- Bit `b` inside a field set or cleared. -/
def State.setBit (s : State) (f : Fld) (i b : Nat) (v : Bool) : State := s.setF f i (putBit (s.getF f i) b v)

/-- Two's complement of an integer in `n` bits. DESIGN CHOICE: a value that they do not hold is clamped to the nearest that
they do
(log entry 271). -/
def signedField (n : Nat) (v : Int) : Nat :=
  let top : Int := 2 ^ (n - 1)
  let c := if v ≥ top then top - 1 else if v < -top then -top else v
  (c % (2 ^ n : Int)).toNat

/-! ## Counters -/

/-- A counter's value and flag; zero where nothing was counted. -/
def State.ctr (s : State) (c : CtrId) : CtrVal := SMap.getD s.ctrs c.key ⟨0, false⟩

/-- `n` added to a counter: it stops at the top and sets its flag there (R517). -/
def CtrVal.add (v : CtrVal) (n : Nat) : CtrVal :=
  if v.value + n ≤ ctrTop then { v with value := v.value + n } else ⟨ctrTop, true⟩

/-- `n` counted; a counter that saturates sets CNT_EVENT.sat_seen (R517, R542). -/
def State.count (s : State) (c : CtrId) (n : Nat := 1) : State :=
  let v := (s.ctr c).add n
  let s' := { s with ctrs := SMap.put ⟨0, false⟩ s.ctrs c.key v }
  if v.sat && !(s.ctr c).sat then s'.setF F.cntEvent_satSeen 0 1 else s'

/-! ## Network time -/

/-- Network time in whole nanoseconds. -/
def State.now (s : State) : Nat := s.tm.sec * 1000000000 + s.tm.ns

/-- The sub-nanosecond part of network time in units of 2^-16 ns (R33). -/
def State.frac16 (s : State) : Nat := s.tm.frac / 2 ^ 32

/-- Network time in units of 2^-16 ns. -/
def State.now16 (s : State) : Nat := s.now * 2 ^ 16 + s.frac16

/-- The timestamp points (R37, R40): 0 to 255 the ports, 256 and on the pipelines (their queue managers and rigs), 288 and on
the shards, 320 the time base's own captures, 321 and on the Kendrel links (log entry 234). -/
def pipePoint (pipe : Nat) : Nat := 256 + pipe
def shardPoint (shard : Nat) : Nat := 288 + shard
def inputPoint : Nat := 320
def linkPoint (link : Nat) : Nat := 321 + link

/-- A timestamp point's local copy of network time, in 2^-16 ns (R37). -/
def State.copyAt (s : State) (point : Nat) : Nat :=
  ((s.now16 : Int) + (SMap.getD s.tm.points point TsPoint.good).off).toNat

/-- The same in whole nanoseconds. -/
def State.nowAt (s : State) (point : Nat) : Nat := s.copyAt point / 2 ^ 16

/-- A time in nanoseconds as short time (R33). -/
def shortTime (t : Nat) : Nat := t % 2 ^ 32

/-- A time in nanoseconds as coarse time (R33). -/
def coarseTime (t : Nat) : Nat := (t / 2 ^ 20) % 2 ^ 32

/-- Signed difference of two times of width `w` (R35). -/
def wrapDiff (a b w : Nat) : Int :=
  let d := (a + 2 ^ w - b % 2 ^ w) % 2 ^ w
  if d ≥ 2 ^ (w - 1) then (d : Int) - 2 ^ w else d

/-- The local core-cycle count: three cycles of 1.5 GHz for two ticks of 1 GHz (R5; log entry 8). -/
def State.cycle (s : State) : Nat := s.tm.ticks * 3 / 2

/-- The servo is locked (R50). -/
def State.locked (s : State) : Bool := s.getB F.tbsServoStatus_locked

/-- The first microsecond boundary at least `d` ns after `t`. -/
def boundaryAfter (t d : Nat) : Nat := (t + d + 999) / 1000 * 1000

/-- A full time in the container of R34, word 0 first. -/
def fullTimeWords (sec ns frac16 : Nat) : List Nat :=
  [trunc 16 frac16 <<< 16, trunc 30 ns, trunc 32 sec, trunc 16 (sec / 2 ^ 32)]

/-! ## Free values and outputs -/

/-- The next value the spec leaves open. -/
def State.freeVal (s : State) : Nat := Config.free s.drawn

/-- A free value has been drawn. -/
def State.draw (s : State) : State := { s with drawn := s.drawn + 1 }

/-- Something is given to the outside. -/
def State.emit (s : State) (e : OutEvent) : State := { s with out := e :: s.out }

/-- A sector of the boot NOR is erased: one of the 64 whose erases are counted (R535, R539). -/
def State.eraseSector (s : State) (n : Nat) : State :=
  { s with cnt := { s.cnt with norErases := SMap.update 0 s.cnt.norErases (n % 64) (· + 1) } }

/-! ## Bytes and words -/

/-- `n` bytes of a number, most significant first (network order). -/
def bytesBE (n v : Nat) : List Nat := (List.range n).map fun i => (v / 2 ^ (8 * (n - 1 - i))) % 256

/-- `n` bytes of a number, least significant first (R4). -/
def bytesLE (n v : Nat) : List Nat := (List.range n).map fun i => (v / 2 ^ (8 * i)) % 256

/-- The number that bytes in network order spell. -/
def numBE (bs : List Nat) : Nat := bs.foldl (fun a b => a * 256 + b % 256) 0

/-- The number that bytes in little-endian order spell. -/
def numLE (bs : List Nat) : Nat := numBE bs.reverse

/-- `n` bytes from offset `off`, zero beyond the end. -/
def bytesAt (bs : List Nat) (off n : Nat) : List Nat := (List.range n).map fun i => bs.getD (off + i) 0

/-- The big-endian number at an offset. -/
def beAt (bs : List Nat) (off n : Nat) : Nat := numBE (bytesAt bs off n)

/-- Bytes replaced from an offset on, inside the list. -/
def putBytes (bs : List Nat) (off : Nat) (v : List Nat) : List Nat :=
  bs.take off ++ (v.take (bs.length - off)) ++ bs.drop (off + v.length)

/-- One bit of the CRC-32 register of IEEE 802.3. -/
def crcBit (r : Nat) : Nat := if r % 2 == 1 then Nat.xor (r / 2) 0xEDB88320 else r / 2

/-- One byte of CRC-32. -/
def crcByte (r b : Nat) : Nat :=
  crcBit (crcBit (crcBit (crcBit (crcBit (crcBit (crcBit (crcBit (Nat.xor r (b % 256)))))))))

/-- CRC-32 of IEEE 802.3 over bytes. -/
def crc32 (bs : List Nat) : Nat := Nat.xor (bs.foldl crcByte 0xFFFFFFFF) 0xFFFFFFFF

/-! ## The trouble log -/

/-- A log record with nothing in it but its kind and the time now. -/
def State.logBase (s : State) (kind : Nat) : LogRec :=
  { kind := kind, severity := 0, live := false, transient := false, simultaneous := false, unlocked := !s.locked,
    code := 0, seq := s.getF F.logSeq_seq, ns := s.tm.ns, sec := s.tm.sec, source := 0, cycle := s.cycle, addr := 0,
    master := 0, access := 0, masterIndex := 0, record := 0xFFFF, arg0 := 0, arg1 := 0, detail0 := 0, detail1 := 0 }

/-- Whether a record of this kind is written while the log is stopped (R500): markers, boot and power records. -/
def keptWhileStopped (kind : Nat) : Bool := kind == 4 || kind == 5 || kind == 7

/-- The stop of R500 counts down by one record and takes effect. -/
def State.logCountdown (s : State) : State :=
  match s.flt.logLeft with
  | none => s
  | some n =>
    if n ≤ 1 then
      ({ s with flt := { s.flt with logLeft := none } }.setF F.logStatus_stopped 0 1).setF F.logEvent_stoppedSeen 0 1
    else { s with flt := { s.flt with logLeft := some (n - 1) } }

/-- A record is written at the head with the next sequence number, overwriting the oldest (R499, R500). -/
def State.logWrite (s : State) (lr : LogRec) : State :=
  let stopped := s.getB F.logStatus_stopped
  if stopped && !keptWhileStopped lr.kind then s
  else
    let head := s.getF F.logStatus_head
    let seq := s.getF F.logSeq_seq
    let wraps := SMap.has s.flt.log head
    let s1 := { s with flt := { s.flt with log := SMap.set s.flt.log head { lr with seq := seq } } }
    let s2 := (s1.setF F.logStatus_head 0 ((head + 1) % 65536)).setF F.logSeq_seq 0 (seq + 1)
    let s3 := if wraps then (s2.setF F.logStatus_wrapped 0 1).setF F.logEvent_wrappedSeen 0 1 else s2
    let s4 := if wraps && stopped then s3.addF F.logEvent_stoppedOverwrites 0 1 else s3
    (s4.count C.logRecords).logCountdown

/-- The sixteen words of a log record, word 0 first, its CRC in word 0 (R501). -/
def LogRec.words (r : LogRec) : List Nat :=
  let w15 := r.kind <<< 28 + trunc 3 r.severity <<< 25 + b2n r.live <<< 24 + b2n r.transient <<< 23
    + b2n r.simultaneous <<< 22 + b2n r.unlocked <<< 21 + trunc 16 r.code
  let w11 := trunc 16 (r.sec / 2 ^ 32) <<< 16 + trunc 16 r.source
  let w6 := trunc 3 r.master <<< 29 + trunc 3 r.access <<< 26 + trunc 10 r.masterIndex <<< 16 + trunc 16 r.record
  let body := [0, r.detail1, r.detail0, r.arg1, r.arg0, w6, trunc 32 r.addr, trunc 32 (r.addr / 2 ^ 32),
    trunc 32 r.cycle, trunc 32 (r.cycle / 2 ^ 32), w11, trunc 32 r.sec, trunc 30 r.ns, r.seq, w15]
  crc32 (body.flatMap (bytesLE 4)) :: body

/-! ## Notifications -/

/-- A notification record of a source, of an event at a network time, with the servo's lock then (R28, R462, R463). -/
def State.notifyAt (s : State) (kind cls index : Nat) (late : Bool) (payload : List Nat) (unlocked : Bool) (sec ns : Nat) :
    State :=
  let key := cls * 4096 + index
  let seq := SMap.getD s.host.notifSeq key 0
  let nr : NotifRec := ⟨kind, cls, index, seq, unlocked, late, ns, trunc 32 sec, payload⟩
  { s with host := { s.host with notifSeq := SMap.put 0 s.host.notifSeq key ((seq + 1) % 2 ^ 32),
                                 notifQ := s.host.notifQ ++ [nr] } }

/-- A source numbers a record and the record waits to be written (R462, R463). -/
def State.notify (s : State) (kind cls index : Nat) (late : Bool) (payload : List Nat) : State :=
  s.notifyAt kind cls index late payload (!s.locked) s.tm.sec s.tm.ns

/-- A source's number is consumed without a record (R463). -/
def State.skipNotif (s : State) (cls index n : Nat) : State :=
  let key := cls * 4096 + index
  { s with host := { s.host with
      notifSeq := SMap.put 0 s.host.notifSeq key ((SMap.getD s.host.notifSeq key 0 + n) % 2 ^ 32) } }

end Sys2Proof.Machine
end

