-- ==== Sys2Proof/Machine/Bandwidth.lean ====
section
/-! DEFINITION. Bandwidth windows (R525, R526): what a window counts, reports and how it moves on. -/

namespace Sys2Proof.Machine

/-- A window's length in nanoseconds. -/
def BwWindow.span (w : BwWindow) : Nat := 1000 * 10 ^ w.code

/-- The end of the window in progress: windows start at whole multiples of their length. -/
def BwWindow.stop (w : BwWindow) : Nat := (w.start / w.span + 1) * w.span

/-- A rate in Mbit/s, rounded down (log entry 130). -/
def bwMbit (octets ns : Nat) : Nat := octets * 8 * 1000 / ns

/-- A direction that has counted nothing. -/
def BwDir.zero : BwDir := ⟨0, 0, 0⟩

/-- The running 1 µs sub-window of a direction ends. -/
def BwDir.next (d : BwDir) : BwDir := ⟨d.octets, 0, Nat.max d.peak d.sub⟩

/-- Octets counted in a direction. -/
def BwDir.add (d : BwDir) (n : Nat) : BwDir := { d with octets := d.octets + n, sub := d.sub + n }

/-- What a window reports when it ends at `t`: receive and transmit average, receive and transmit peak, and the detail
word. -/
def BwWindow.report (w : BwWindow) (t : Nat) : List Nat × Nat :=
  let ns := t - w.start
  let peak (d : BwDir) : Nat := bwMbit (Nat.max d.peak d.sub) 1000
  ([bwMbit w.rx.octets ns, bwMbit w.tx.octets ns, peak w.rx, peak w.tx],
    b2n w.partial_ + 2 * b2n w.unlocked + 4 * b2n w.stepped + 16 * w.code)

/-- A window begins at `t`; one that begins inside its span is partial. -/
def BwWindow.begin_ (w : BwWindow) (t : Nat) (locked : Bool) : BwWindow :=
  { w with start := t, subStart := t / 1000 * 1000, rx := BwDir.zero, tx := BwDir.zero,
           partial_ := t % w.span != 0, unlocked := !locked, stepped := false }

/-- A window that has ended by `now` reports, and the one in progress at `now` begins; where whole windows without a frame
lie between, the latest of them is reported. -/
def BwWindow.roll (w : BwWindow) (now : Nat) (locked : Bool) : BwWindow :=
  if now < w.stop then w
  else
    let w1 := { w.begin_ w.stop locked with latest := some (w.report w.stop) }
    let cur := now / w.span * w.span
    if w1.start < cur then { w1.begin_ cur locked with latest := some (w1.report w1.stop) } else w1

/-- A frame's octets counted at `now`. -/
def BwWindow.frame (w : BwWindow) (now : Nat) (locked tx : Bool) (octets : Nat) : BwWindow :=
  let w1 := w.roll now locked
  if now < w1.start then w1
  else
    let sub := now / 1000 * 1000
    let w2 := if sub == w1.subStart then w1 else { w1 with subStart := sub, rx := w1.rx.next, tx := w1.tx.next }
    if tx then { w2 with tx := w2.tx.add octets } else { w2 with rx := w2.rx.add octets }

/-- A step of network time: the window is reported over the span it covered, and windows realign. -/
def BwWindow.step (w : BwWindow) (old new : Nat) (locked : Bool) : BwWindow :=
  let w1 := w.roll old locked
  let w2 := { w1 with stepped := true, partial_ := true }
  { w1.begin_ new locked with latest := if old < w1.start then w1.latest else some (w2.report old) }

/-- A port's frame of `octets` octets with FCS is counted, with 20 more for preamble and gap. -/
def State.bwFrame (s : State) (port : Nat) (tx : Bool) (octets : Nat) : State :=
  { s with cnt := { s.cnt with
      windows := SMap.modify s.cnt.windows port fun w => w.frame s.now s.locked tx (octets + 20) } }

/-- Every window brought up to now. -/
def State.bwRoll (s : State) : State :=
  { s with cnt := { s.cnt with windows := SMap.mapVal (fun _ w => w.roll s.now s.locked) s.cnt.windows } }

/-- Every window in progress contains an instant without lock. -/
def State.bwUnlocked (s : State) : State :=
  { s with cnt := { s.cnt with
      windows := SMap.mapVal (fun _ w => if s.now < w.start then w else { w with unlocked := true }) s.cnt.windows } }

/-- Every window meets a step of network time. -/
def State.bwStep (s : State) (old new : Nat) : State :=
  { s with cnt := { s.cnt with windows := SMap.mapVal (fun _ w => w.step old new s.locked) s.cnt.windows } }

end Sys2Proof.Machine
end

