-- ==== Sys2Proof/Machine/Flags.lean ====
section
/-! DEFINITION. The status bits, interrupt lines and pins: SYS_IRQ_STATUS and its vector, INT_N, ERR_N, DEGRADED_N, the
event bits that raise an interrupt, and the reductions of FLT_REDUCTION (R466, R473, R480, R494). -/

namespace Sys2Proof.Machine

/-- An MSI-X message is sent, unless the function is in D3hot (R442, R466). -/
def State.raiseVector (s : State) (v : Nat) : State :=
  if s.getB F.pciStatus_d3hot then s else s.emit (.msi v)

/-- INT_N follows SYS_IRQ_STATUS, its enables and the board test (R466, R473). -/
def State.updateIntN (s : State) : State :=
  let level := Nat.land (s.rd .sysIrqStatus 0).toNat (s.getF F.sysIrqMask_intnEn) != 0 || s.getB F.sysCtrl_intnTest
  { s with host := { s.host with intN := level } }

/-- The bits of SYS_IRQ_STATUS by number (R473). -/
def irqFault : Nat := 0
def irqErr : Nat := 1
def irqDegraded : Nat := 2
def irqReady : Nat := 3
def irqThermal : Nat := 4
def irqPciErr : Nat := 5
def irqMbxErr : Nat := 6
def irqStack : Nat := 7
def irqBecalmed : Nat := 8
def irqTakeover : Nat := 9

/-- The device is furled (R586). -/
def State.furled (s : State) : Bool := s.getF F.sysStatus_bootState == 7

/-- A bit of SYS_IRQ_STATUS is set: vector 9 where msix_en has it, INT_N where intn_en has it (R466). -/
def State.raiseIrq (s : State) (b : Nat) : State :=
  let w := (s.rd .sysIrqStatus 0).toNat
  let s1 := (s.wr .sysIrqStatus 0 (BitVec.ofNat 32 (putBit w b true))).updateIntN
  if bitOf (s.getF F.sysIrqMask_msixEn) b && !bitOf w b then s1.raiseVector 9 else s1

/-- A bit of MBX_EVENT is set, and with it SYS_IRQ_STATUS.mbx_err (R473, R475). -/
def State.mbxEvent (s : State) (f : Fld) : State := (s.setF f 0 1).raiseIrq irqMbxErr

/-- An error bit of PCI_EVENT is set, and with it SYS_IRQ_STATUS.pci_err (R473, R474). -/
def State.pciEvent (s : State) (f : Fld) : State := (s.setF f 0 1).raiseIrq irqPciErr

/-- ERR_N's level: a valid record of severity S2 or worse, the overflow flag, or boot failed (R494). -/
def State.errLevel (s : State) : Bool :=
  s.flt.initialised && (s.flt.records.any (fun e => decide (e.2.severity ≥ 2)) || s.getB F.fltStatus_overflow
    || s.getF F.sysStatus_bootState == 6)

/-- DEGRADED_N's level: reef mode or the bare-poles state in force (R494). -/
def State.degradedLevel (s : State) : Bool :=
  s.flt.initialised && (s.getB F.fltStatus_reef || s.getB F.fltStatus_barePoles)

/-- ERR_N and DEGRADED_N take their levels; a change sets its bit of SYS_IRQ_STATUS (R473, R494). -/
def State.updatePins (s : State) : State :=
  let e := s.errLevel
  let d := s.degradedLevel
  let s1 := { s with flt := { s.flt with errN := e, degradedN := d } }
  let s2 := if e != s.flt.errN then s1.raiseIrq irqErr else s1
  if d != s.flt.degradedN then s2.raiseIrq irqDegraded else s2

/-! ## Reductions -/

/-- The bits of FLT_REDUCTION the fault catalogue names (R479, R513). -/
def redPipeRestart : Nat := 0
def redQmRestart : Nat := 1
def redShardRestart : Nat := 2
def redPcFrozen : Nat := 3
def redPcHeld : Nat := 4
def redCoreOut : Nat := 5
def redNoBackstay : Nat := 6
def redSpareOut : Nat := 7
def redHbmHot : Nat := 8
def redTsPoint : Nat := 9
def redRefLost : Nat := 10
def redRuleDamaged : Nat := 11
def redGateDamaged : Nat := 12
def redSramPoison : Nat := 13
def redIntegrity : Nat := 14
def redLinkDown : Nat := 15
def redMasterLost : Nat := 16

/-- FLT_REDUCTION as a number. -/
def State.reductions (s : State) : Nat := (s.rd .fltReduction 0).toNat

/-- A reduction bit set or cleared. -/
def State.setReduction (s : State) (b : Nat) (v : Bool) : State :=
  s.wr .fltReduction 0 (BitVec.ofNat 32 (putBit s.reductions b v))

/-- The condition bits of FLT_REDUCTION that are set (R480): all but the two event bits and the state bits. -/
def State.conditionBits (s : State) : Nat :=
  putBit (putBit (s.reductions % 2 ^ 17) redSramPoison false) redIntegrity false

end Sys2Proof.Machine
end

