-- ==== Sys2Proof/Machine/Peers.lean ====
section
/-! DEFINITION. What other blocks need of stacking (R544, R548, R553, R554, R556): members, links, where a key is owned,
messages to members, requests of peers. -/

namespace Sys2Proof.Machine

/-- This device's STK_ID. -/
def State.stkId (s : State) : Nat := s.getF F.stkStatus_id

/-- The stack is formed in a mode other than NONE. -/
def State.stkFormed (s : State) : Bool := s.getB F.stkStatus_formed

/-- The members of the stack in ascending STK_ID. -/
def State.memberIds (s : State) : List Nat := (List.range 4).filter fun i => s.getBit F.stkStatus_members 0 i

/-- The other members. -/
def State.otherMembers (s : State) : List Nat := s.memberIds.filter (· != s.stkId)

/-- This device performs master duties. -/
def State.actingMaster (s : State) : Bool := s.getB F.stkStatus_actingMaster

/-- The Kendrel link whose link port a port number is: 8 × its macro (R544). -/
def State.linkOfPort (s : State) (port : Nat) : Option Nat :=
  (List.range 4).find? fun l => s.getB F.stkLink_bound l && 8 * s.getF F.stkLink_macro l == port

/-- The up links to a member. -/
def State.linksTo (s : State) (member : Nat) : List Nat :=
  (List.range 4).filter fun l => s.getB F.stkLink_up l && s.getF F.stkLink_peerId l == member

/-- The link to a member that a flow's hash chooses among those that are up (R553). -/
def State.linkTo (s : State) (member hash : Nat) : Option Nat :=
  let ls := s.linksTo member
  if ls.isEmpty then none else ls[hash % ls.length]?

/-- A message waits for the bulk area of a link. -/
def State.sendBulk (s : State) (link : Nat) (m : StkMsg) : State :=
  { s with stk := { s.stk with bulk := SMap.put [] s.stk.bulk link (SMap.getD s.stk.bulk link [] ++ [m]) } }

/-- A message to a member goes over its lowest up link; with none it is lost. -/
def State.sendTo (s : State) (member : Nat) (m : StkMsg) : State :=
  match s.linksTo member with
  | l :: _ => s.sendBulk l m
  | [] => s

/-- A message to every other member. -/
def State.sendAll (s : State) (m : StkMsg) : State := s.otherMembers.foldl (fun t i => t.sendTo i m) s

/-- A message to the master that this device follows. -/
def State.sendMaster (s : State) (m : StkMsg) : State := s.stk.master.elim s fun i => s.sendTo i m

/-- The member that owns a canonical key (R554), where that is not this device; only under DEEPEN. -/
def State.remoteOwner (s : State) (key : List Nat) : Option Nat :=
  if s.getB F.stkStatus_formed && s.getF F.stkCtrl_mode == 2 then
    let ms := s.memberIds
    let h := Config.hash 1 s.fst.shardSeed key / 32 % 65536
    match ms[h * ms.length / 65536]? with
    | some m => if m == s.stkId then none else some m
    | none => none
  else none

/-! ## Requests of peers (R555, R556) -/

/-- The identifier of a request of a peer; it stands where a packet's number does. -/
def proxyId (member tag : Nat) : Nat := 2 ^ 40 + 2 ^ 32 * member + tag % 2 ^ 32

/-- An identifier names a request of a peer. -/
def isProxy (id : Nat) : Bool := decide (2 ^ 40 ≤ id)

/-- The member and the tag of an identifier. -/
def proxyMember (id : Nat) : Nat := id / 2 ^ 32 % 256
def proxyTag (id : Nat) : Nat := id % 2 ^ 32

/-- The handle by which a member knows a record of another, and back: the member and its own handle. -/
def remoteHandle (member handle : Nat) : Nat := 2 ^ 29 * (member + 1) + handle
def handleMember (handle : Nat) : Option Nat := if handle < 2 ^ 29 then none else some (handle / 2 ^ 29 - 1)

/-- A message about a request to the member it came from, over the link it came on while that is up. -/
def State.sendProxy (s : State) (id : Nat) (m : StkMsg) : State :=
  match SMap.find? s.stk.owned id with
  | some (l, _) => if s.getB F.stkLink_up l then s.sendBulk l m else s.sendTo (proxyMember id) m
  | none => s.sendTo (proxyMember id) m

/-- A request's outcome is ready to be returned; one that was answered DEFER is woken (R556). -/
def State.proxyReady (s : State) (id : Nat) (r : StkReturn) : State :=
  let s1 := { s with stk := { s.stk with ready := SMap.set s.stk.ready id r } }
  if s1.stk.deferred.contains id then
    ({ s1 with stk := { s1.stk with deferred := s1.stk.deferred.filter (· != id) } }).sendProxy id (.wake (proxyTag id))
  else s1

/-- A request is served here no longer. -/
def State.forgetProxy (s : State) (id : Nat) : State :=
  { s with
    pk := { s.pk with pkts := SMap.del s.pk.pkts id }
    stk := { s.stk with
      owned := SMap.del s.stk.owned id
      deferred := s.stk.deferred.filter (· != id)
      ready := SMap.del s.stk.ready id } }

/-- A request whose packet a rule drops at the owner: the packet is dropped at its own member. -/
def State.dropProxy (s : State) (id : Nat) : State :=
  ({ s with pk := { s.pk with pkts := SMap.del s.pk.pkts id } }).proxyReady id .drop

end Sys2Proof.Machine
end

