-- ==== Sys2Proof/Machine/Buffer.lean ====
section
/-! DEFINITION. The packet buffers: cells and their accounts, flow-control generation, VOQs and their messages, and how a
packet or a copy is dropped (R94, R303 to R316, R329, R509). -/

namespace Sys2Proof.Machine

/-- ⌈a / b⌉. -/
def ceilDiv (a b : Nat) : Nat := (a + b - 1) / b

/-! ## Ports (R11, R73) -/

/-- The pipeline that serves a port (R11). -/
def pipeOf (port : Nat) : Nat := port / 8

/-- A lane's nominal rate in Gb/s by lane_rate code (R73). -/
def laneGbps (code : Nat) : Nat := if code == 0 then 10 else if code == 1 then 25 else if code == 2 then 50
  else if code == 3 then 100 else 200

/-- A port exists. -/
def State.portExists (s : State) (p : Nat) : Bool := SMap.has s.port.ports p

/-- A port's own record. -/
def State.portInfo (s : State) (p : Nat) : PortInfo := SMap.getD s.port.ports p PortInfo.reset

/-- A port's record changed. -/
def State.setPort (s : State) (p : Nat) (i : PortInfo) : State :=
  { s with port := { s.port with ports := SMap.set s.port.ports p i } }

/-- A port's rate in Gb/s: what negotiation resolved, else its lanes times their rate; a link port's is 1,600 (R544). -/
def State.portRate (s : State) (p : Nat) : Nat :=
  if (s.linkOfPort p).isSome then 1600
  else
  match (s.portInfo p).ability with
  | some (l, r, _) => 2 ^ l * laneGbps r
  | none => 2 ^ s.getF F.portCfg_lanes p * laneGbps (s.getF F.portCfg_laneRate p)

/-- A port's link is up; of a link port, its Kendrel link. -/
def State.linkUp (s : State) (p : Nat) : Bool :=
  match s.linkOfPort p with
  | some l => s.getB F.stkLink_up l
  | none => s.getB F.portStatus_linkUp p

/-- The FEC that a port runs: what negotiation resolved, else as configured. -/
def State.portFec (s : State) (port : Nat) : Nat :=
  match (s.portInfo port).ability with
  | some (_, _, f) => f
  | none => s.getF F.portCfg_fec port

/-- What a port sends between frames (R81, R83, R586): local fault in the bare-poles and the furled state, remote fault while it
receives local fault or has no block lock, else idle. -/
def State.lineSignal (s : State) (p : Nat) : LineSignal :=
  if s.getB F.fltStatus_barePoles || s.furled then .localFault
  else if s.getB F.portStatus_rxLocalFault p || !s.getB F.portStatus_blockLock p then .remoteFault
  else .idle

/-- A line signal's number. -/
def LineSignal.code : LineSignal → Nat
  | .idle => 0
  | .localFault => 1
  | .remoteFault => 2

/-- An existing port sends what its state asks for. -/
def State.syncLine (s : State) (p : Nat) : State :=
  let i := s.portInfo p
  let v := s.lineSignal p
  if !s.portExists p || i.sending == v then s else (s.setPort p { i with sending := v }).emit (.lineSignal p v.code)

/-- Every existing port does. -/
def State.syncLines (s : State) : State := s.port.ports.foldl (fun t e => t.syncLine e.1) s

/-- A lane has signal lock: the port it belongs to has block lock (R70, R80). -/
def State.laneLock (s : State) (lane : Nat) : Bool :=
  s.port.ports.any fun e => decide (e.1 ≤ lane) && decide (lane < e.1 + 2 ^ s.getF F.portCfg_lanes e.1)
    && s.getB F.portStatus_blockLock e.1

/-- The SYNCE outputs carry the recovered clock of their lane, divided, or are low (R70, R72). -/
def State.syncSynce (s : State) : State :=
  let one (m : SMap (Nat × Nat)) (i : Nat) : SMap (Nat × Nat) :=
    let lane := s.getF F.tbsSynceCtrl_lane i
    let div := s.getF F.tbsSynceCtrl_divider i
    if s.getB F.tbsSynceCtrl_enable i && div != 0 && (s.laneLock lane || !s.getB F.tbsSynceCtrl_squelchLos i) then
      SMap.set m i (lane, div)
    else SMap.del m i
  { s with tm := { s.tm with synce := [0, 1].foldl one s.tm.synce } }

/-- A port's receive side or configuration has changed: what it sends and the clocks recovered from it follow. -/
def State.lineChanged (s : State) (p : Nat) : State := (s.syncLine p).syncSynce

/-- Whether a class is under PFC or PAUSE on a port (R92, R94). -/
def State.lossless (s : State) (p c : Nat) : Bool :=
  let m := s.getF F.portCfg_fcMode p
  m == 1 || (m == 2 && bitOf (s.portInfo p).fcClasses c)

/-! ## Cells (R303, R309, R310) -/

/-- A packet of the map changed. -/
def State.modPkt (s : State) (id : Nat) (f : Pkt → Pkt) : State :=
  { s with pk := { s.pk with pkts := SMap.modify s.pk.pkts id f } }

/-- The cells of a charge. -/
def Charge.total (c : Charge) : Nat := c.arrival + c.shared + c.headroom + c.mc + c.minCells

/-- Cells beyond byte 256 (R303). -/
def Pkt.bodyCells (p : Pkt) : Nat := ceilDiv p.body.length 256

/-- Cells of the edited head (R303). -/
def Pkt.headCells (p : Pkt) : Nat := ceilDiv p.head.length 256

/-- Frame data bytes as stored. -/
def Pkt.data (p : Pkt) : List Nat := p.head ++ p.body

/-- The numbers of a frame's cells in chain order (R303). -/
def Pkt.cellNos (p : Pkt) : List Nat := p.headNos ++ p.bodyNos

/-- The numbers of the cells a packet holds now: after admission those still referred to. -/
def Pkt.heldNos (p : Pkt) : List Nat :=
  if p.refs.isEmpty then p.cellNos else (p.cellNos.zip p.refs).filterMap fun e => if e.2 > 0 then some e.1 else none

/-- Cells a packet holds now: those written before admission, after it the cells still referred to. -/
def Pkt.cells (p : Pkt) : Nat := p.heldNos.length

/-- The lowest `n` numbers below `top` that are not in use, or none where there are fewer (log entry 30). -/
def freeNumbers (used : List Nat) (top n : Nat) : Option (List Nat) :=
  let l := ((List.range (Nat.min top (used.length + n))).filter fun i => !used.contains i).take n
  if l.length == n then some l else none

/-- The cell numbers in use in a pipeline. -/
def State.usedCells (s : State) (pipe : Nat) : List Nat :=
  s.pk.pkts.flatMap fun e => if e.2.pipe == pipe then e.2.heldNos else []

/-- The descriptor numbers in use in a pipeline. -/
def State.usedDescs (s : State) (pipe : Nat) : List Nat :=
  s.pk.pkts.filterMap fun e => if e.2.pipe == pipe then e.2.desc else none

/-- Free cell numbers of a pipeline (R303). -/
def State.freeCells (s : State) (pipe n : Nat) : Option (List Nat) := freeNumbers (s.usedCells pipe) 24576 n

/-- A packet with its descriptor, which it takes with its first cell (R305, R329). -/
def State.withDesc (s : State) (p : Pkt) : Pkt :=
  match p.desc with
  | some _ => p
  | none => { p with desc := (freeNumbers (s.usedDescs p.pipe) 24576 1).bind (·.head?) }

/-- Packets of a pipeline at a stage, oldest first. -/
def State.atStage (s : State) (pipe : Nat) (st : Stage) : List (Nat × Pkt) :=
  s.pk.pkts.filter fun e => e.2.pipe == pipe && e.2.stage == st

/-- PRS_STATUS.reorder_occ counts the packets in the reorder stage (R135). -/
def State.syncReorder (s : State) (pipe : Nat) : State :=
  s.setF F.prsStatus_reorderOcc pipe (s.atStage pipe .reorder).length

/-- Sum of a number over the packets of a pipeline. -/
def State.sumPkts (s : State) (n : Nat) (f : Pkt → Nat) : Nat :=
  s.pk.pkts.foldl (fun a e => if e.2.pipe == n then a + f e.2 else a) 0

/-- A queue profile's class as a port uses it. -/
def State.qclass (s : State) (port c : Nat) : QClass :=
  SMap.getD s.pk.qprof (8 * (SMap.getD s.pk.qports port QPort.reset).profile + c) QClass.reset

/-- The headroom reserves of a pipeline's ports (R94). -/
def State.headroomSum (s : State) (n : Nat) : Nat :=
  s.port.ports.foldl (fun a e => if e.1 / 8 == n then a + e.2.headroom.foldl (· + ·) 0 else a) 0

/-- min_cells over the VOQs of every existing port (R310). -/
def State.minSum (s : State) : Nat :=
  s.port.ports.foldl (fun a e => a + (List.range 8).foldl (fun b c => b + (s.qclass e.1 c).minCells) 0) 0

/-- The reserved cells of a pipeline (R310). -/
def State.reservedCells (s : State) (n : Nat) : Nat :=
  s.headroomSum n + s.pk.arrivalReserve + s.pk.mcReserve + s.minSum

/-- The reserves of every pipeline fit (R310). -/
def State.reservesFit (s : State) : Bool := (List.range 32).all fun n => decide (s.reservedCells n ≤ 22528)

/-- Shared cells free in a pipeline. -/
def State.sharedFree (s : State) (n : Nat) : Nat :=
  24576 - s.reservedCells n - s.sumPkts n fun p => p.charge.shared

/-- Arrival-reserve cells free in a pipeline. -/
def State.arrivalFree (s : State) (n : Nat) : Nat := s.pk.arrivalReserve - s.sumPkts n fun p => p.charge.arrival

/-- Multicast-reserve cells free in a pipeline. -/
def State.mcFree (s : State) (n : Nat) : Nat := s.pk.mcReserve - s.sumPkts n fun p => p.charge.mc

/-- Headroom cells free of an ingress port and class. -/
def State.headroomFree (s : State) (port c : Nat) : Nat :=
  (s.portInfo port).headroom.getD c 0 -
    s.sumPkts (pipeOf port) fun p => if p.inPort == port && p.arrCls == c then p.charge.headroom else 0

/-- A charge less `n` cells: taken from mc, shared, headroom, arrival and min_cells in this order (log entry 32). -/
def Charge.release (c : Charge) (n : Nat) : Charge :=
  let a := Nat.min n c.mc
  let b := Nat.min (n - a) c.shared
  let d := Nat.min (n - a - b) c.headroom
  let e := Nat.min (n - a - b - d) c.arrival
  { c with mc := c.mc - a, shared := c.shared - b, headroom := c.headroom - d, arrival := c.arrival - e,
           minCells := c.minCells - (n - a - b - d - e) }

/-- Cells held for an ingress port and class; of all classes in PAUSE mode (R94, R308). -/
def State.heldCells (s : State) (port c : Nat) : Nat :=
  let all := s.getF F.portCfg_fcMode port == 1
  s.sumPkts (pipeOf port) fun p => if p.inPort == port && p.src == port && (all || p.arrCls == c) then p.cells else 0

/-- IQM_STATUS shows the cells and queue entries in use (R344). -/
def State.syncIqm (s : State) (n : Nat) : State :=
  (s.setF F.iqmStatus_cellsUsed n (s.sumPkts n Pkt.cells)).setF F.iqmStatus_entriesUsed n
    (s.pk.copies.filter fun e => e.2.pipe == n && e.2.stage == .queued).length

/-! ## Flow control generated (R94) -/

/-- A port may send frames: its link is up and no bare-poles state is in force (R81, R83). -/
def State.maySend (s : State) (port : Nat) : Bool := s.linkUp port && !s.getB F.fltStatus_barePoles

/-- A flow-control frame, 64 octets, is sent for a class with quanta `q`: PAUSE for the port or PFC for the class; none
while the
port may send no frames. -/
def State.sendFc (s : State) (port c q : Nat) : State :=
  if !s.maySend port then s
  else
  let s1 := s.bwFrame port true 64
  if s.getF F.portCfg_fcMode port == 1 then
    (s1.emit (.macControl port false 0xFF [q])).count (C.txPause port)
  else
    (s1.emit (.macControl port true (1 <<< c) ((List.range 8).map fun i => if i == c then q else 0))).count
      (C.txPfcClass port c)

/-- A frame's bytes with its FCS given to a port's line (R350, R525). -/
def State.sendLine (s : State) (port : Nat) (bs : List Nat) (stomped : Bool) : State :=
  (s.emit (.frame port bs stomped)).bwFrame port true bs.length

/-- tx_xoff of a class; of all classes in PAUSE mode. -/
def State.setXoff (s : State) (port c : Nat) (b : Bool) : State :=
  if s.getF F.portCfg_fcMode port == 1 then s.setF F.portStatus_txXoff port (if b then 0xFF else 0)
  else s.setBit F.portStatus_txXoff port c b

/-- XOFF at xoff cells or more, XON at xon cells or fewer, for one class of a port (R94); where both thresholds are met XON
holds
(log entry 241). -/
def State.fcClass (s : State) (port c : Nat) : State :=
  let i := s.portInfo port
  let held := s.heldCells port c
  let on := s.getBit F.portStatus_txXoff port c
  if !s.lossless port c then s
  else if !on && held ≥ i.xoff && held > i.xon then
    let s1 := (s.setXoff port c true).sendFc port c i.quanta
    s1.setPort port { i with xoffAt := SMap.set i.xoffAt c s.tm.ticks }
  else if on && held ≤ i.xon then
    let s1 := (s.setXoff port c false).sendFc port c 0
    s1.setPort port { i with xoffAt := SMap.del i.xoffAt c }
  else s

/-- XOFF and XON of a port follow the cells it holds; in PAUSE mode one state serves the port. -/
def State.fcUpdate (s : State) (port : Nat) : State :=
  if !s.portExists port then s
  else if s.getF F.portCfg_fcMode port == 1 then s.fcClass port 0
  else (List.range 8).foldl (fun t c => t.fcClass port c) s

/-! ## VOQs (R306, R316) -/

/-- The number of a VOQ with its pipeline. -/
def voqKey (pipe port c : Nat) : Nat := 2048 * pipe + 8 * port + c

/-- The copies queued in a VOQ, oldest first. -/
def State.voq (s : State) (pipe port c : Nat) : List (Nat × Copy) :=
  s.pk.copies.filter fun e => e.2.stage == .queued && e.2.pipe == pipe && e.2.port == port && e.2.cls == c

/-- The number of the queue entry that a new copy of a pipeline takes (R306). -/
def State.freeEntry (s : State) (pipe : Nat) : Nat :=
  let used := s.pk.copies.filterMap fun e => if e.2.pipe == pipe && e.2.stage == .queued then some e.2.entry else none
  ((freeNumbers used 49152 1).bind (·.head?)).getD 0

/-- The cells of every copy queued in a VOQ (R313). -/
def State.voqCells (s : State) (pipe port c : Nat) : Nat :=
  (s.voq pipe port c).foldl (fun a e => a + (SMap.find? s.pk.pkts e.2.pkt).elim 0 fun p => p.headCells + p.bodyCells) 0

/-- A VOQ that is empty sends EMPTY with its unused credit (R316). -/
def State.sendEmpty (s : State) (pipe port c : Nat) : State :=
  if (s.voq pipe port c).isEmpty then
    let k := voqKey pipe port c
    let b := SMap.getD s.pk.balance k 0
    let unused := if b > 0 then b else 0
    { s with pk := { s.pk with balance := SMap.put 0 s.pk.balance k (b - unused),
                               voqMsgs := s.pk.voqMsgs ++ [(true, ⟨pipe, port, c, unused⟩)] } }
  else s

/-! ## Dropping -/

/-- One more drop of a frame of a protected class in a charged interval (R509). -/
def State.protDrop (s : State) (tagged : Bool) : State :=
  match s.flt.lossOpen with
  | none => s
  | some _ =>
    if tagged then
      { s with flt := { s.flt with lossTagged := s.flt.lossTagged + 1 } }.count C.fltProtDropTagged
    else { s with flt := { s.flt with lossUntagged := s.flt.lossUntagged + 1 } }.count C.fltProtDropUntagged

/-- The first EtherType after the VLAN tags. -/
def firstType (head : List Nat) : Nat → Nat → Nat
  | 0, off => beAt head off 2
  | n + 1, off =>
    let t := beAt head off 2
    if t == 0x8100 || t == 0x88A8 then firstType head n (off + 4) else t

/-- A frame's class is protected by its flow profile (R156, R509). -/
def State.protectedPkt (s : State) (p : Pkt) : Bool :=
  match p.profile with
  | none => false
  | some n => bitOf (bitsOf (wordAt (SMap.getD s.cls.flowProf n []) 3) 23 16) p.cls

/-- A drop is accounted (R509). -/
def State.noteDrop (s : State) (p : Pkt) : State :=
  if s.protectedPkt p then s.protDrop (firstType p.head 3 12 == 0xF1C1) else s

/-- A release flit without changes (R206). -/
def releaseOf (a : Answer) (pipe pkt : Nat) (bad : Bool := false) : Update :=
  { handle := a.handle, pipe := pipe, pkt := if a.setupPending then some pkt else none, transition := false,
    setup := a.setupPending, release := true, compare := [], writes := [], addBytes := 0, addPackets := 0,
    lastSeen := none, partial_ := false, badEnd := bad }

/-- A record in a pipeline. -/
def chainKey (pipe handle : Nat) : Nat := 2 ^ 32 * pipe + handle

/-- A held update whose changes are discarded: only the release of its answer is left, and for a setup what its frame's end says
(R90, R124, R206). -/
def heldRelease (u : Update) (bad : Bool) : Update :=
  { u with transition := false, compare := [], writes := [], addBytes := 0, addPackets := 0, lastSeen := none,
           partial_ := false, badEnd := bad, pkt := if u.setup then u.pkt else none }

/-- The releases that a packet still owes: for each held update, and for an answer that no run has used yet (R206). -/
def Pkt.releases (p : Pkt) (id : Nat) (bad : Bool) : List Update :=
  ((p.held.filter (·.release)).map fun u => heldRelease u bad)
    ++ (if p.awaiting then [] else p.ans.toList.map fun a => releaseOf a p.pipe id bad)

/-- The image that the runs of a pipeline left of a record holds changes that were discarded: the next run starts on the
committed record (R25, R272). An empty image stands for this. -/
def State.staleChain (s : State) (u : Update) : State :=
  { s with rig := { s.rig with chains := SMap.modify s.rig.chains (chainKey u.pipe u.handle) fun c => (c.1, []) } }

/-- An answer of a record no longer outstanding in a pipeline. -/
def State.endChain (s : State) (pipe handle : Nat) : State :=
  match SMap.find? s.rig.chains (chainKey pipe handle) with
  | none => s
  | some (n, im) =>
    let rest := if n ≤ 1 then SMap.del s.rig.chains (chainKey pipe handle)
      else SMap.set s.rig.chains (chainKey pipe handle) (n - 1, im)
    { s with rig := { s.rig with chains := rest } }

/-- An update goes to its shard, or over a link to the member whose record it is for (R557). The record of another member
is chained no longer once its update is on the way, unless it waits for an acknowledgement. -/
def State.pushUpdate (s : State) (u : Update) : State :=
  match handleMember u.handle with
  | none => { s with fst := { s.fst with updates := s.fst.updates ++ [u] } }
  | some m =>
    let gone := u.setup && u.pkt.elim true fun id => !SMap.has s.pk.pkts id
    let s1 := s.sendTo m (.update (u.pkt.map (· % 2 ^ 32)) gone { u with handle := u.handle % 2 ^ 29 })
    if u.transition then s1 else s1.endChain u.pipe u.handle

/-- The bytes of a frame still arriving are discarded from now on. -/
def State.detachRx (s : State) (id : Nat) : State :=
  { s with pk := { s.pk with rx := s.pk.rx.mapVal fun _ r => if r.pkt == some id then { r with pkt := none } else r } }

/-- CLS_EPOCH.inflight_old of a pipeline counts its packets of the epoch that is not active (R161). -/
def State.syncEpoch (s : State) (n : Nat) : State :=
  let act := s.getF F.clsEpoch_active
  s.setF F.clsEpoch_inflightOld n (Nat.min 65535
    (s.pk.pkts.filter fun e => e.2.pipe == n && e.2.counted && e.2.epoch != act).length)

/-- A TX descriptor is written back (R460), later where DMA is stopped (R442, R474); to a Criod thread, ring 64 and on, it is
returned at once. -/
def State.writeBack460 (s : State) (ring slot status sec ns frac : Nat) : State :=
  if ring < 64 && (s.getB F.pciStatus_d3hot || s.getB F.pciCtrl_dmaStop) then
    { s with host := { s.host with writeBacks := s.host.writeBacks ++ [(ring, slot, status, sec, ns, frac)] } }
  else s.emit (.txWriteBack ring slot status sec ns frac)

/-- A host's packet that leaves no port is reported refused. -/
def State.txRefused (s : State) (p : Pkt) : State :=
  match p.tx with
  | some (ring, slot, _) => s.writeBack460 ring slot 1 0 0 0
  | none => s

/-- A packet that has not been admitted ends: its cells are freed, a release is sent for an answer it holds (R206), and
its frame's remaining bytes are discarded. -/
def State.discardPkt (s : State) (id : Nat) : State :=
  match SMap.find? s.pk.pkts id with
  | none => s
  | some p =>
    if isProxy id then s.dropProxy id
    else
    let s1 := s.txRefused p
    let rel := p.releases id false
    let s2 := { s1 with
      pk := { s1.pk with pkts := SMap.del s1.pk.pkts id },
      rig := { s1.rig with saved := SMap.del s1.rig.saved id } }
    let s3 := match p.ans with
      | some a => if rel.isEmpty && !a.setupPending && (handleMember a.handle).isSome then s2.endChain p.pipe a.handle else s2
      | none => s2
    let s4 := rel.foldl State.pushUpdate (p.held.foldl State.staleChain s3)
    let s5 := if p.stage == .reorder then s4.syncReorder p.pipe else s4
    (((s5.detachRx id).syncEpoch p.pipe).syncIqm p.pipe).fcUpdate p.inPort

/-- A packet that has not been admitted is dropped (R206, R509). The caller counts the drop under its reason. -/
def State.dropPkt (s : State) (id : Nat) : State :=
  match SMap.find? s.pk.pkts id with
  | none => s
  | some p => if isProxy id then s.dropProxy id else (s.noteDrop p).discardPkt id

/-- A packet is dropped or discarded after its program ran. While its frame arrives with updates held, only its cells go now:
the updates wait for the frame's end (R124, R313). -/
def State.endPkt (s : State) (id : Nat) (dropped : Bool) : State :=
  match SMap.find? s.pk.pkts id with
  | none => s
  | some p =>
    if !p.arriving || p.held.isEmpty then (if dropped then s.dropPkt id else s.discardPkt id)
    else
      let s1 := if dropped then s.noteDrop p else s
      let q := { p with stage := .gone, dropped := false, counted := false, body := [], desc := none, headNos := [],
                        bodyNos := [], refs := [], charge := Charge.zero }
      (((s1.modPkt id fun _ => q).syncEpoch p.pipe).syncIqm p.pipe).fcUpdate p.inPort

/-- One reference less on every cell of index `from_` on (R329). -/
def lowerRefs (refs : List Nat) (from_ : Nat) : List Nat :=
  refs.zipIdx.map fun e => if e.2 ≥ from_ then e.1 - 1 else e.1

/-- A packet's references lowered, its freed cells leaving its charge; the packet ends with its last copy once its frame
has ended (R329). -/
def State.releaseCells (s : State) (id : Nat) (f : List Nat → List Nat) : State :=
  match SMap.find? s.pk.pkts id with
  | none => s
  | some p =>
    let refs := f p.refs
    let freed := p.cells - { p with refs := refs }.cells
    let p' := { p with refs := refs, charge := p.charge.release freed }
    let left := s.pk.copies.any fun e => e.2.pkt == id
    let gone := !left && !p.arriving
    let pkts := if gone then SMap.del s.pk.pkts id else SMap.set s.pk.pkts id p'
    let s1 := ({ s with pk := { s.pk with pkts := pkts } }.syncIqm p.pipe).fcUpdate p.inPort
    if gone then s1.txRefused p else s1

/-- A copy goes: the cells it has not read lose its reference (R329). -/
def State.dropCopy (s : State) (cid : Nat) : State :=
  match SMap.find? s.pk.copies cid with
  | none => s
  | some c =>
    let s1 := { s with pk := { s.pk with copies := SMap.del s.pk.copies cid } }
    let s2 := s1.releaseCells c.pkt fun refs => lowerRefs refs c.sent
    if c.stage == .queued then s2.sendEmpty c.pipe c.port c.cls else s2

/-- The FCS a frame's bytes end with (R86), or its complement for a stomped frame (R88). -/
def withFcs (bs : List Nat) (stomp : Bool) : List Nat :=
  let f := crc32 bs
  bs ++ bytesLE 4 (if stomp then 0xFFFFFFFF - f else f)

/-- A port's reservation and the credit of a copy that leaves its landing buffer are given back (R317, R323). -/
def State.leavePort (s : State) (c : Copy) : State :=
  let k := voqKey c.pipe c.port c.cls
  { s with pk := { s.pk with
      credits := SMap.update 0 s.pk.credits k (· - (c.paid : Int)),
      reserved := if c.ct then s.pk.reserved.filter (· != c.port) else s.pk.reserved } }

/-- A copy is dropped where it stands: its landing buffer and credit are given back if it has left its VOQ, and its frame
is accounted (R509). The caller counts the drop. -/
def State.loseCopy (s : State) (cid : Nat) : State :=
  match SMap.find? s.pk.copies cid with
  | none => s
  | some c =>
    let s1 := (SMap.find? s.pk.pkts c.pkt).elim s s.noteDrop
    (if c.stage == .queued then s1 else s1.leavePort c).dropCopy cid

/-- The bytes of a copy in transmission that its egress MAC has received: of a cut-through copy what its landed cells hold of
its edited head and its body (R88, R91). -/
def State.txBytes (s : State) (c : Copy) : List Nat :=
  if !c.ct then c.out
  else
    match SMap.find? s.pk.pkts c.pkt with
    | none => c.out
    | some p =>
      if c.landed < p.headCells then c.out.take (256 * c.landed)
      else c.out ++ p.body.take (256 * (c.landed - p.headCells))

/-- A frame in transmission is ended as R88 steps 2 and 3 state and counted in TX_STOMPED. -/
def State.stompTx (s : State) (cid : Nat) : State :=
  match SMap.find? s.pk.copies cid with
  | none => s
  | some c =>
    let out := s.txBytes c
    let s1 := s.sendLine c.port (withFcs out true) true
    let s2 := ((s1.count (C.txStomped c.port)).setF F.portEvent_stompTxSeen c.port 1).leavePort c
    s2.dropCopy cid

end Sys2Proof.Machine
end

