-- ==== Sys2Proof/Machine/Drop.lean ====
section
/-! DEFINITION. What the bare-poles state does to the traffic in the device (R490). -/

namespace Sys2Proof.Machine

/-- A copy of the device's traffic ends on entry to the bare-poles state: in transmission it is stomped, otherwise
discarded; either way it counts. -/
def State.bareCopy (s : State) (e : Nat × Copy) : State :=
  let s1 := if e.2.stage == .transmitting then s.stompTx e.1 else s.loseCopy e.1
  s1.count C.fltBarepolesDrop

/-- Requests of packets that are gone leave the lookup network, and miss-queue entries that no setup holds
leave the shards. -/
def State.clearLookups (s : State) : State :=
  let here := fun id => SMap.has s.pk.pkts id
  { s with fst := { s.fst with
      reqs := s.fst.reqs.filter fun r => here r.pkt
      answers := s.fst.answers.filter fun a => a.2.isSome || here a.1
      acks := s.fst.acks.filter here
      mq := s.fst.mq.mapVal fun _ l => l.filter fun e => here e.pkt || e.wait == .setup } }

/-- With no traffic left every class is empty: a positive credit is 0 and a negative one returns to it (R353). -/
def State.idleCredits (s : State) : State :=
  let idle (h : Shaper) : Shaper :=
    if h.mode == 2 then { h with level := if h.level > 0 then 0 else h.level, status := if h.level < 0 then 3 else 0 } else h
  { s with egs := { s.egs with shapers := s.egs.shapers.mapVal fun _ h => idle h } }

/-- Every packet in flight, every queued copy and every frame in transmission is dropped or ended, each counted in
FLT_BAREPOLES_DROP (R490). -/
def State.dropTraffic (s : State) : State :=
  let s1 := s.pk.copies.foldl State.bareCopy s
  let s2 := s1.pk.pkts.foldl (fun t e =>
    let u := t.dropPkt e.1
    if e.2.stage == .queued || isProxy e.1 then u else u.count C.fltBarepolesDrop) s1
  s2.clearLookups.idleCredits

end Sys2Proof.Machine
end

