-- ==== Sys2Proof/Machine/Threads.lean ====
section
/-! DEFINITION. Criod threads as the rest of the device reaches them: their latched sources and what wakes them (R409,
R417, R421, R424), the control-generation fence (R264, R430) and the commit journals (R432). -/

namespace Sys2Proof.Machine

/-- The content of a thread. -/
def State.thread (s : State) (t : Nat) : Thread := SMap.getD s.crd.threads t Thread.reset

/-- A thread is deterministic or elastic, not disabled (R402). -/
def State.threadOn (s : State) (t : Nat) : Bool :=
  bitOf (s.getF F.crdThreadClass_deterministic (t / 16)) (t % 16) || bitOf (s.getF F.crdThreadClass_elastic (t / 16)) (t % 16)

/-- A thread is stopped by the debugger (R424). -/
def State.threadStopped (s : State) (t : Nat) : Bool := s.getBit F.crdCoreStatus_stopped (t / 16) (t % 16)

/-- CRD_THREAD_STATE's value for a thread. -/
def State.threadState (s : State) (t : Nat) : Nat :=
  let x := s.thread t
  if x.halted || !s.threadOn t then 3 else if s.threadStopped t then 2 else if x.wait.isSome then 1 else 0

/-- CRD_THREAD_STATE follows a thread. -/
def State.syncThread (s : State) (t : Nat) : State :=
  let w := s.getF F.crdThreadState_state (t / 16)
  let i := 2 * (t % 16)
  s.setF F.crdThreadState_state (t / 16) (w - bitsOf w (i + 1) i <<< i + s.threadState t <<< i)

/-- A thread takes a content. -/
def State.setThread (s : State) (t : Nat) (x : Thread) : State :=
  ({ s with crd := { s.crd with threads := SMap.put Thread.reset s.crd.threads t x } }).syncThread t

/-- The becalmed condition is false: the count starts again and becalmed may be raised again (R421). -/
def State.breakCalm (s : State) : State :=
  (({ s with crd := { s.crd with armed := true } }).setF F.crdBecalmed_live 0 0).setF F.crdBecalmed_quietUs 0 0

/-- A waiting thread with a masked source latched issues again: the instruction returns the bits and clears them (R409). A
stopped thread sees them at its resume (R424). -/
def State.wakeThread (s : State) (t : Nat) : State :=
  let x := s.thread t
  match x.wait with
  | none => s
  | some m =>
    let got := Nat.land x.latched m
    if got == 0 || s.threadStopped t || x.halted then s
    else (s.setThread t { x with wait := none, woke := got, latched := x.latched - got }).breakCalm

/-- Sources latch for a thread (R409). -/
def State.latch (s : State) (t bits : Nat) : State :=
  let x := s.thread t
  (s.setThread t { x with latched := Nat.lor x.latched bits }).wakeThread t

/-- The bits of R409. -/
def evTask : Nat := 0x1
def evWake : Nat := 0x2
def evReadable : Nat := 0x4
def evSpace : Nat := 0x8
def evTx : Nat := 0x10
def evThreadFault : Nat := 0x400
def evBecalmed : Nat := 0x800
def evFaultNotice : Nat := 0x1000

/-- The supervisor: T0 of the core that CRD_CORE_STATUS.supervisor names (R417). -/
def State.supervisor (s : State) : Option Nat :=
  ((List.range 4).find? fun c => s.getB F.crdCoreStatus_supervisor c).map (16 * ·)

/-- Sources latch for the supervisor, where there is one. -/
def State.latchSupervisor (s : State) (bits : Nat) : State :=
  match s.supervisor with
  | some t => s.latch t bits
  | none => s

/-- The lowest control generation of a core that coordinators accept (R430). -/
def State.fenceOf (s : State) (core : Nat) : Nat := bitsOf (s.getF F.crdFence_minGen) (8 * core + 7) (8 * core)

/-- The fence of a core set. -/
def State.setFence (s : State) (core gen : Nat) : State :=
  s.setF F.crdFence_minGen 0 (s.getF F.crdFence_minGen - s.fenceOf core <<< (8 * core) + trunc 8 gen <<< (8 * core))

/-- A transaction of a thread has completed: its journal entry and its event (R409, R432). -/
def State.journal (s : State) (thread gen code : Nat) (tag : Option (Nat × Nat)) : State :=
  let core := thread / 16
  let l := (⟨gen, code, tag, s.tm.ns, trunc 32 s.tm.sec⟩ :: SMap.getD s.crd.journals core []).take 4096
  ({ s with crd := { s.crd with journals := SMap.set s.crd.journals core l } }).latch thread evTx

end Sys2Proof.Machine
end

