-- ==== Sys2Proof/Machine/Collector.lean ====
section
/-! DEFINITION. The fault collector: the catalogue of R479 and the shared operations by which every block reports a fault
and ends a condition (R476 to R494, R508, R509). -/

namespace Sys2Proof.Machine

/-- One row of the fault catalogue (R479): severity, whether it is a condition, its reduction bit, whether charged. -/
structure FaultRow where
  code : Nat
  severity : Nat
  condition : Bool
  reduction : Option Nat
  charged : Bool
  deriving DecidableEq, Repr

/-- An event fault without a reduction. -/
def evRow (code sev : Nat) : FaultRow := ⟨code, sev, false, none, false⟩
/-- A condition fault with its reduction. -/
def condRow (code sev : Nat) (red : Option Nat) (charged : Bool) : FaultRow := ⟨code, sev, true, red, charged⟩

/-- Faults of the blocks SYS to CRD. -/
def catalogue0 : List FaultRow :=
  [evRow 0x0001 0, evRow 0x0002 1, condRow 0x0003 0 none false, ⟨0x0301, 4, false, none, true⟩,
   condRow 0x0302 4 none true, evRow 0x0303 0, evRow 0x0304 1, evRow 0x0501 1,
   condRow 0x0502 2 (some redTsPoint) false, condRow 0x0503 2 (some redRefLost) false, evRow 0x0504 0,
   evRow 0x0505 0, evRow 0x0A01 0, evRow 0x1001 1, evRow 0x1002 1, condRow 0x1003 3 (some redCoreOut) false,
   condRow 0x1004 2 (some redNoBackstay) false, ⟨0x1005, 4, false, none, true⟩, evRow 0x1006 0, evRow 0x1007 1,
   ⟨0x1008, 2, false, some redSramPoison, false⟩]
/-- Faults of the blocks BPM to CLS. -/
def catalogue1 : List FaultRow :=
  [⟨0x1801, 2, false, some redIntegrity, false⟩, evRow 0x2001 1, condRow 0x2002 3 (some redPcFrozen) true,
   evRow 0x2003 0, condRow 0x2004 2 (some redSpareOut) false, condRow 0x2005 2 (some redHbmHot) false,
   evRow 0x2006 0, condRow 0x2801 2 (some redLinkDown) false, condRow 0x2802 2 (some redMasterLost) false,
   evRow 0x4001 1, evRow 0x4002 1, evRow 0x4101 1, evRow 0x4102 1, condRow 0x4103 2 (some redRuleDamaged) false,
   evRow 0x4104 0]
/-- Faults of the blocks MSK to FST. -/
def catalogue2 : List FaultRow :=
  [evRow 0x4201 1, evRow 0x4202 1, evRow 0x4203 1, evRow 0x4204 1, evRow 0x4205 1,
   condRow 0x4301 3 (some redPipeRestart) true, ⟨0x4302, 4, false, none, true⟩, evRow 0x4401 1, evRow 0x4402 1,
   condRow 0x4403 3 (some redQmRestart) true, evRow 0x8001 1, evRow 0x8002 1,
   condRow 0x8003 3 (some redShardRestart) true, evRow 0x8004 0, evRow 0x8005 0, evRow 0x8006 0,
   ⟨0x8007, 4, false, none, true⟩]
/-- Faults of the blocks PORT to RED. -/
def catalogue3 : List FaultRow :=
  [evRow 0xA001 0, evRow 0xB001 1, condRow 0xB002 2 (some redGateDamaged) false, evRow 0xB003 1, evRow 0xB004 1,
   evRow 0xB005 0, evRow 0xB006 0, evRow 0xB007 0, evRow 0xC001 1, evRow 0xC002 1, evRow 0xC101 0, evRow 0xC102 1]

/-- The faults the device reports, exactly (R479). -/
def catalogue : List FaultRow := catalogue0 ++ catalogue1 ++ catalogue2 ++ catalogue3

/-- The catalogue's row of a code. -/
def faultRow (code : Nat) : Option FaultRow := catalogue.find? fun r => r.code == code

/-- The source number of a fault (R477). -/
def sourceOf (code inst : Nat) : Nat := code / 256 * 256 + inst % 256

/-- The FLT_STATUS fields that count and sum up the record table (R513). -/
def State.syncFlt (s : State) : State :=
  let n := s.flt.records.length
  let n2 := (s.flt.records.filter fun e => decide (e.2.severity ≥ 2)).length
  (((s.setF F.fltStatus_records 0 n).setF F.fltStatus_s2Records 0 n2).setB F.fltStatus_availOpen 0
    s.flt.lossOpen.isSome).setB F.fltStatus_quiet 0 s.flt.quietStart.isSome

/-- A condition of severity S4 holds (R492). -/
def State.s4Condition (s : State) : Bool := s.flt.live.any fun l => l.code == 0x0302

/-- Nothing stands in the way of a quiet period: no condition bit, no S4 condition (R492). -/
def State.calm (s : State) : Bool := s.conditionBits == 0 && !s.s4Condition

/-- An episode of reef mode or bare poles runs. -/
def State.inEpisode (s : State) : Bool := s.getB F.fltStatus_reef || s.getB F.fltStatus_barePoles

/-- The quiet period restarts from zero now, or waits while a condition holds (R492). -/
def State.restartQuiet (s : State) : State :=
  { s with flt := { s.flt with quietStart := if s.inEpisode && s.calm then some s.now else none } }

/-- A state-change record in the trouble log (R499, R501): what 0 reef entered, 1 reef ended, 2 bare poles entered,
3 bare poles ended, 4 latched. -/
def State.logState (s : State) (what : Nat) : State :=
  let s1 := s.logWrite { s.logBase 3 with detail0 := s.reductions, detail1 := what <<< 28 }
  if s1.stkFormed && !s1.actingMaster then
    s1.sendMaster (.modes s1.reductions (s1.getB F.fltStatus_reef) (s1.getB F.fltStatus_barePoles))
  else s1

/-- Reef mode is in force from now (R489); nothing changes where it already is. -/
def State.enterReef (s : State) : State :=
  if s.getB F.fltStatus_reef then s
  else ((s.setF F.fltStatus_reef 0 1).setF F.sysStatus_reef 0 1).logState 0

/-- The bare-poles state is entered: all traffic is dropped (R490); nothing changes where it already is in force. -/
def State.enterBarePoles (s : State) : State :=
  if s.getB F.fltStatus_barePoles then s
  else
    let s1 := ((s.setF F.fltStatus_barePoles 0 1).setF F.fltReduction_barePoles 0 1).setF F.sysStatus_barePoles 0 1
    s1.dropTraffic.syncLines.logState 2

/-- Time is service time: firmware has reported ready and the device is not furled (R8, R510). -/
def State.inService (s : State) : Bool := s.getB F.sysStatus_ready && !s.furled

/-- A loss interval is opened at the stamp, or the fault joins the open one (R508); what an S4 fault has joined lasts as one
that an S4 fault opened (R7: overlapping intervals are merged). -/
def State.openLoss (s : State) (at_ : Nat) (byS4 : Bool) : State :=
  match s.flt.lossOpen with
  | some v => { s with flt := { s.flt with lossOpen := some { v with byS4 := v.byS4 || byS4 } } }
  | none =>
    let v : LossInterval := ⟨at_, byS4, if s.inService then some at_ else none, 0⟩
    { s with flt := { s.flt with lossOpen := some v, lossTagged := 0, lossUntagged := 0 } }

/-- Service time counted in an interval by now. DESIGN CHOICE: the spec does not say what is charged where network time steps
inside an interval; the model takes now less the start of the part, and nothing where that is negative (log entry 233). -/
def LossInterval.length (v : LossInterval) (now : Nat) : Nat := v.counted + v.from_.elim 0 fun t => now - t

/-- Service time ends: an open interval is counted no further (R8). -/
def State.pauseLoss (s : State) : State :=
  { s with flt := { s.flt with
      lossOpen := s.flt.lossOpen.map fun v => { v with counted := v.length s.now, from_ := none } } }

/-- Service time begins: an open interval is counted from now on (R8). -/
def State.resumeLoss (s : State) : State :=
  { s with flt := { s.flt with
      lossOpen := s.flt.lossOpen.map fun v => if v.from_.isNone then { v with from_ := some s.now } else v } }

/-- 64-bit loss time from the two registers of FLT_AVAIL_LOSS. -/
def State.lossTime (s : State) : Nat :=
  s.getF F.fltAvailLoss_loss 0 + s.getF F.fltAvailLoss_loss 1 * 2 ^ 32

/-- The two registers of FLT_AVAIL_LOSS written. -/
def State.setLossTime (s : State) (v : Nat) : State :=
  (s.setF F.fltAvailLoss_loss 0 (v % 2 ^ 32)).setF F.fltAvailLoss_loss 1 (v / 2 ^ 32)

/-- The open loss interval is closed and charged; an S3 interval with tagged drops only is charged zero (R508,
R509). -/
def State.closeLoss (s : State) (byS3 : Bool) : State :=
  match s.flt.lossOpen with
  | none => s
  | some v =>
    let free := byS3 && decide (s.flt.lossTagged ≥ 1) && s.flt.lossUntagged == 0
    let s1 := { s with flt := { s.flt with lossOpen := none } }
    if free then s1 else s1.setLossTime (s.lossTime + v.length s.now)

/-- The payload of a fault notification (R464). -/
def faultPayload (f : FaultArg) (sev : Nat) (simul transient live : Bool) : List Nat :=
  bytesLE 2 f.code ++ [f.code / 256, sev <<< 5 + b2n simul <<< 4 + b2n transient <<< 3 + b2n live <<< 2]
    ++ bytesLE 4 f.instance_ ++ bytesLE 8 f.addr ++ [f.master % 256, f.masterIndex % 256, f.access, 0]
    ++ bytesLE 8 f.cycle ++ bytesLE 4 f.arg0 ++ bytesLE 4 f.arg1 ++ List.replicate 12 0

/-- A fault notification is sent from the fault-collector source, with the stamp of its event (R462, R486). -/
def State.sendFaultNotif (s : State) (f : FaultArg) (sev : Nat) (simul live : Bool) (unlocked : Bool := !s.locked) : State :=
  s.notifyAt 4 4 0 f.late (faultPayload f sev simul false live) unlocked f.sec f.ns

/-- Whether a code's notification may be sent now, at most 1,000 in any 1 s (R486). -/
def State.notifyRoom (s : State) (code : Nat) : Bool :=
  decide (((SMap.getD s.flt.notifySent code []).filter fun t => decide (t + 1000000000 > s.now)).length < 1000)

/-- A sent notification is remembered for the rate limit. -/
def State.noteSent (s : State) (code : Nat) : State :=
  let recent := (SMap.getD s.flt.notifySent code []).filter fun t => decide (t + 1000000000 > s.now)
  { s with flt := { s.flt with notifySent := SMap.set s.flt.notifySent code (recent ++ [s.now]) } }

/-- The place a new record takes: a free number, else the oldest record of severity S0 or S1 that is not live
(R481). -/
def recordSlot (recs : SMap FltRec) : Option Nat :=
  match (List.range 512).find? fun n => !SMap.has recs n with
  | some n => some n
  | none =>
    let old := recs.filter fun e => decide (e.2.severity ≤ 1) && !e.2.live
    match old with
    | [] => none
    | e :: es => some (es.foldl (fun a b => if b.2.taken < a.2.taken then b else a) e).1

/-- The record of a new occurrence of a fault. -/
def newRecord (f : FaultArg) (row : FaultRow) (unlocked : Bool) (taken : Nat) : FltRec :=
  { severity := row.severity, live := row.condition, transient := false, simultaneous := false, read := false,
    condition := row.condition, code := f.code, source := sourceOf f.code f.instance_, count := 1,
    unlocked := unlocked, firstNs := f.ns, firstSec := trunc 32 f.sec, lastNs := f.ns, lastSec := trunc 32 f.sec,
    arg0 := f.arg0, arg1 := f.arg1, taken := taken }

/-- The record table takes an occurrence (R481): the record number, or none where no record takes it. -/
def State.recordFault (s : State) (f : FaultArg) (row : FaultRow) : State × Option Nat :=
  let src := sourceOf f.code f.instance_
  match SMap.first? s.flt.records fun _ r => r.code == f.code && r.source == src with
  | some (n, r) =>
    let r' := { r with count := satAdd 65535 r.count 1, lastNs := f.ns, lastSec := trunc 32 f.sec,
                       arg0 := f.arg0, arg1 := f.arg1, live := row.condition }
    ({ s with flt := { s.flt with records := SMap.set s.flt.records n r' } }, some n)
  | none =>
    match recordSlot s.flt.records with
    | some n =>
      let r := newRecord f row (!s.locked) s.flt.takenCount
      ({ s with flt := { s.flt with records := SMap.set s.flt.records n r,
                                    takenCount := s.flt.takenCount + 1 } }, some n)
    | none => (s, none)

/-- The log record of a fault occurrence, where the filter lets it through (R499, R501). -/
def State.logFault (s : State) (f : FaultArg) (row : FaultRow) (n : Option Nat) : State :=
  if row.severity < s.getF F.logFilter_minSeverity then s
  else
    let cnt := match n with
      | some k => (SMap.find? s.flt.records k).elim 1 (·.count)
      | none => 1
    s.logWrite { s.logBase 1 with
      severity := row.severity, live := row.condition, code := f.code, ns := f.ns, sec := f.sec,
      source := sourceOf f.code f.instance_, cycle := f.cycle, addr := f.addr, master := f.master,
      access := f.access, masterIndex := f.masterIndex, record := n.getD 0xFFFF, arg0 := f.arg0, arg1 := f.arg1,
      detail0 := cnt }

/-- A severity S4 occurrence arms the stop of the log (R500). -/
def State.armLogStop (s : State) : State :=
  if s.getB F.logCtrl_stopOnS4 && s.flt.logLeft.isNone && !s.getB F.logStatus_stopped then
    { s with flt := { s.flt with logLeft := some 1024 } }
  else s

/-- Notification of an occurrence: at once, or held while a capture window is open (R486). -/
def State.notifyFault (s : State) (f : FaultArg) (row : FaultRow) : State :=
  let want := SMap.getD s.flt.notifyEn f.code true
  let room := s.notifyRoom f.code
  let s1 := if want && !room then s.count C.fltNotifySuppressed else s
  let s2 := if want && room then s1.noteSent f.code else s1
  match s.flt.window with
  | some _ =>
    { s2 with flt := { s2.flt with
        windowFaults := s2.flt.windowFaults ++ [⟨f, row.severity, want && room, !s.locked, []⟩] } }
  | none => if want && room then s2.sendFaultNotif f row.severity false row.condition else s2

/-- A qualifying fault opens the capture window while the capture is free; an earlier stamp moves its start (R488). -/
def State.openWindow (s : State) (f : FaultArg) (row : FaultRow) : State :=
  let stamp := f.sec * 1000000000 + f.ns
  if s.getB F.fltFirstCode_valid || row.severity < s.getF F.fltCtrl_captureMin then s
  else
    match s.flt.window with
    | none => { s with flt := { s.flt with window := some stamp } }
    | some t => { s with flt := { s.flt with window := some (Nat.min t stamp) } }

/-- The condition of an occurrence holds from now, under its reduction bit (R478, R480). -/
def State.holdCondition (s : State) (f : FaultArg) (row : FaultRow) : State :=
  if row.condition then
    let rest := s.flt.live.filter fun l => !(l.code == f.code && l.instance_ == f.instance_)
    { s with flt := { s.flt with live := rest ++ [⟨f.code, f.instance_, f.arg0, f.arg1⟩] } }
  else s

/-- The device's reaction by severity (R476, R489, R490). -/
def State.reactFault (s : State) (f : FaultArg) (row : FaultRow) : State :=
  if row.severity < 2 then s
  else
    let s1 := match row.reduction with
      | some b => s.setReduction b true
      | none => s
    let s2 := if s1.flt.episodeClass.isNone then
        { s1 with flt := { s1.flt with episodeClass := some (f.code / 256) } } else s1
    let s3 := if row.severity == 4 then
        ({ s2 with flt := { s2.flt with s4Units := s2.flt.s4Units ++ [(f.code, f.instance_)] } }).enterBarePoles
      else s2.enterReef
    s3.restartQuiet

/-- A charged fault opens or joins the loss interval (R508). -/
def State.chargeFault (s : State) (f : FaultArg) (row : FaultRow) : State :=
  if row.charged then
    let s1 := s.openLoss (f.sec * 1000000000 + f.ns) (row.severity == 4)
    let rest := s1.flt.chargedLive.filter fun c => c != (f.code, f.instance_)
    if row.condition then { s1 with flt := { s1.flt with chargedLive := rest ++ [(f.code, f.instance_)] } } else s1
  else s

/-- One occurrence is counted, recorded, logged, notified and reacted to; no record is the caller's to count as lost. -/
def State.takeFault (s : State) (f : FaultArg) (row : FaultRow) : State × Bool :=
  let s0 := s.count (C.fltFaults row.severity)
  let (s1, n) := s0.recordFault f row
  let s2 := s1.logFault f row n
  let s3 := if row.severity == 4 then s2.armLogStop else s2
  let s4 := s3.maxF F.fltStatus_worst 0 row.severity
  let s5 := if row.severity ≥ 1 || SMap.getD s.flt.intnEn f.code false then s4.raiseIrq irqFault else s4
  let s6 := (s5.openWindow f row).notifyFault f row
  let s8 := if row.severity ≥ 2 && s6.stkFormed && !s6.actingMaster then
    s6.sendMaster (.fault f.code row.severity f.arg0 f.arg1 f.sec f.ns) else s6
  let s7 := ((s8.holdCondition f row).chargeFault f row).reactFault f row
  (s7, n.isSome)

/-- The occurrence found no record: it is counted in FLT_STATUS.lost, and sets overflow at severity S2 or worse
(R485). -/
def State.loseFault (s : State) (sev : Nat) : State :=
  let s1 := s.addF F.fltStatus_lost 0 1
  if sev ≥ 2 then s1.setF F.fltStatus_overflow 0 1 else s1

/-- A fault report reaches the collector (R481, R485). A code outside the catalogue reports nothing. The overflow's own
fault 0x0304 neither begins nor ends an overflow (log entry 15). -/
def State.report (s : State) (f : FaultArg) : State :=
  match faultRow f.code with
  | none => s
  | some row =>
    let (s1, found) := s.takeFault f row
    let s2 :=
      if found then ({ s1 with flt := { s1.flt with overflowing := false } }).latchSupervisor evFaultNotice
      else
        let s3 := s1.loseFault row.severity
        if s3.flt.overflowing then s3
        else
          let s4 := { s3 with flt := { s3.flt with overflowing := true } }
          let g : FaultArg := { f with code := 0x0304, instance_ := 0, arg0 := 0, arg1 := 0, addr := 0 }
          let (s5, ok) := s4.takeFault g (evRow 0x0304 1)
          if ok then s5 else s5.loseFault 1
    s2.syncFlt.updatePins

/-- A fault as a block of the model reports it, stamped now. The spec does not say which address, master and access most
faults name (R487): those stand free (log entry 190). -/
def State.faultArg (s : State) (code inst arg0 arg1 : Nat) : FaultArg :=
  { code := code, instance_ := inst, arg0 := arg0, arg1 := arg1, addr := trunc 64 (Config.free s.drawn),
    master := Config.free (s.drawn + 1) % 6, masterIndex := trunc 10 (Config.free (s.drawn + 2)),
    access := Config.free (s.drawn + 3) % 6, sec := s.tm.sec, ns := s.tm.ns, cycle := s.cycle, late := false }

/-- A report with the free values of `State.faultArg` goes to the collector; those values are used up. -/
def State.sendFault (s : State) (f : FaultArg) : State := ({ s with drawn := s.drawn + 4 }).report f

/-- A block reports a fault now. -/
def State.raise (s : State) (code inst : Nat) (arg0 arg1 : Nat := 0) : State :=
  s.sendFault (s.faultArg code inst arg0 arg1)

/-- A record whose condition ended: live falls, and transient is set where it was not read (R483). -/
def FltRec.ended (r : FltRec) : FltRec :=
  { r with live := false, transient := r.transient || (r.live && !r.read) }

/-- A block tells the collector that a condition ended (R478, R480, R483, R508). -/
def State.endCondition (s : State) (code inst : Nat) : State :=
  match faultRow code with
  | none => s
  | some row =>
    if !(s.flt.live.any fun l => l.code == code && l.instance_ == inst) then s
    else
      let live := s.flt.live.filter fun l => !(l.code == code && l.instance_ == inst)
      let src := sourceOf code inst
      let hit := SMap.first? s.flt.records fun _ r => r.code == code && r.source == src
      let still := live.any fun l => l.code == code && sourceOf l.code l.instance_ == src
      let recs := match hit with
        | some (n, r) => if still then s.flt.records else SMap.set s.flt.records n r.ended
        | none => s.flt.records
      let transient := match hit with
        | some (_, r) => r.ended.transient
        | none => false
      let charged := s.flt.chargedLive.filter fun c => c != (code, inst)
      let s1 := { s with flt := { s.flt with live := live, records := recs, chargedLive := charged } }
      let s2 := s1.logWrite { s1.logBase 2 with
        severity := row.severity, transient := transient, code := code, source := src,
        record := (hit.map Prod.fst).getD 0xFFFF }
      let s3 := match row.reduction with
        | some b => if live.any (fun l => l.code == code) then s2 else s2.setReduction b false
        | none => s2
      let s4 := match s3.flt.lossOpen with
        | some v => if row.charged && !v.byS4 && s3.flt.chargedLive.isEmpty then s3.closeLoss true else s3
        | none => s3
      let s5 := if s4.flt.quietStart.isNone then s4.restartQuiet else s4
      s5.syncFlt.updatePins

/-- A declared loss in the trouble log (R31, R499, R501 kind 6). -/
def State.logLoss (s : State) (source lost what : Nat) : State :=
  s.logWrite { s.logBase 6 with source := source, detail0 := lost, detail1 := what }

end Sys2Proof.Machine
end

