-- ==== Sys2Proof/Machine/Operands.lean ====
section
/-! DEFINITION. Operand forms: how a command's parameters are checked and its answer put together (R453 to R456), and
the wrapper every Jaris command runs in (R455, R467 to R470). -/

namespace Sys2Proof.Machine

/-! ## Result codes (R456) -/

def eInval : Nat := 0x01
def eNoent : Nat := 0x02
def eExist : Nat := 0x03
def eNospace : Nat := 0x04
def eConflict : Nat := 0x05
def eConflictDebug : Nat := 0x06
def eBusy : Nat := 0x07
def eEpoch : Nat := 0x08
def eAuth : Nat := 0x09
def eState : Nat := 0x0A
def eTimeout : Nat := 0x0B
def eFault : Nat := 0x0C

/-- The detail word of a header fault or an unknown opcode (R456). -/
def headerFault : Nat := 0x80000000

/-- OK without a result. -/
def Rsp.ok : Rsp := ⟨0, 0, [], []⟩
/-- OK with result words: up to four in the completion, more in the data buffer (R454). -/
def Rsp.val (ws : List Nat) : Rsp := if ws.length ≤ 4 then ⟨0, 0, ws, []⟩ else ⟨0, 0, [], ws⟩
/-- OK with a bulk result. -/
def Rsp.bulkOf (ws data : List Nat) : Rsp := ⟨0, 0, ws, data⟩
/-- An error without a detail. -/
def Rsp.err (code : Nat) : Rsp := ⟨code, 0, [], []⟩
/-- E_INVAL: inline word `i` is the first faulty one (R456). -/
def Rsp.inval (i : Nat) : Rsp := ⟨eInval, i + 1, [], []⟩

/-- The index of the first check that fails. -/
def firstBad (checks : List Bool) : Option Nat :=
  let n := (checks.takeWhile id).length
  if n < checks.length then some n else none

/-! ## The command wrapper -/

/-- A command's attributes (R470): order-only, accepted on the SMBus mailbox, debug mailbox only. -/
structure CmdAttr where
  orderOnly : Bool
  smbus : Bool
  debugOnly : Bool
  deriving DecidableEq, Repr

/-- No attribute. -/
def attrNone : CmdAttr := ⟨false, false, false⟩
/-- Order-only (O). -/
def attrO : CmdAttr := ⟨true, false, false⟩
/-- Accepted on the SMBus mailbox (S). -/
def attrS : CmdAttr := ⟨false, true, false⟩
/-- Debug mailbox only and order-only (D and O). -/
def attrD : CmdAttr := ⟨true, false, true⟩

/-- Whether the boot ROM answers a command before firmware is ready: `rom` marks sys.identity, sys.status and log.read
(R467). -/
def State.romGate (s : State) (h : CmdHdr) (rom : Bool) : Bool :=
  h.mbx == 9 && !s.getB F.sysStatus_ready && !rom

/-- Whether an entry of the commands in flight may be a command's own: not begun, of its mailbox and tag. -/
def ownsEntry (h : CmdHdr) (e : Inflight) : Bool := e.mbx == h.mbx && e.cid == h.cid && !e.begun && e.rsp.isNone

/-- A command may begin (R27, R455): an ordered one where every earlier command of its mailbox has finished, one marked
unordered
where every earlier ordered one has. The earlier ones are those fetched before it. -/
def State.mayBegin (s : State) (h : CmdHdr) : Bool :=
  ((s.host.inflight.takeWhile fun e => !ownsEntry h e).filter fun e => e.mbx == h.mbx && !(h.unordered && e.unordered)).all fun e =>
    e.rsp.isSome

/-- Why a command is not carried out. -/
inductive CmdStop where
  /-- It is refused, with this answer. -/
  | refused (r : Rsp)
  /-- It may not begin yet (R455). -/
  | waits
  deriving DecidableEq, Repr

/-- Why a command is not carried out, before its own checks: it may not begin yet (R455); or it is refused, on the SMBus mailbox
where it is not marked S (R467), before firmware is ready (R467), on another while the ROM waits for an image unless
`recovery` marks it (R575), on the SMBus and debug mailboxes during a power failure (R503), as a debug command elsewhere or
locked (R468, R470), or as an order-only command marked unordered (R455). -/
def State.refuseCmd (s : State) (h : CmdHdr) (a : CmdAttr) (rom : Bool := false) (recovery : Bool := false) : Option CmdStop :=
  if !s.mayBegin h then some .waits
  else if s.boot.recovery && h.mbx != 9 && !recovery then some (.refused (.err eState))
  else if (h.mbx == 8 || h.mbx == 9) && s.flt.fetchStopped then some (.refused (.err eState))
  else if h.mbx == 9 && !a.smbus then some (.refused (.err eAuth))
  else if s.romGate h rom then some (.refused (.err eState))
  else if a.debugOnly && (h.mbx != 8 || !s.getB F.sysStatus_debugUnlocked) then some (.refused (.err eAuth))
  else if a.orderOnly && h.unordered then some (.refused ⟨eInval, headerFault, [], []⟩)
  else none

/-- The eight words of a completion, word 0 first, less the phase bit (R454). -/
def completionWords (cid sqHead : Nat) (r : Rsp) : List Nat :=
  [wordAt r.words 0, wordAt r.words 1, wordAt r.words 2, wordAt r.words 3, 4 * r.bulk.length, r.detail,
   trunc 16 sqHead <<< 16, r.code <<< 16 + trunc 16 cid]

/-- The entry of a command in flight, as the answer finishes it. -/
def answerIn (mbx cid : Nat) (r : Rsp) : List Inflight → Option (List Inflight)
  | [] => none
  | e :: es =>
    if e.mbx == mbx && e.cid == cid && e.rsp.isNone then some ({ e with begun := true, rsp := some r } :: es)
    else (answerIn mbx cid r es).map (e :: ·)

/-- A command has finished with an answer. On the SMBus mailbox the completion is ready to be read (R467); elsewhere
the command's entry waits for its completion to be posted, one being made where no fetch made it (log entry 11). -/
def State.answer (s : State) (mbx cid : Nat) (noIrq : Bool) (r : Rsp) : State :=
  if mbx == 9 then
    { s with host := { s.host with smbus := { s.host.smbus with
        busy := false, ready := true, completion := completionWords cid 0 r, page := r.bulk } } }
  else
    match answerIn mbx cid r s.host.inflight with
    | some l => { s with host := { s.host with inflight := l.filter fun e => !(e.discard && e.rsp.isSome) } }
    | none =>
      let e : Inflight := ⟨mbx, cid, 0, false, noIrq, s.getF F.mbxQstate_sqHead mbx, true, some r, false⟩
      { s with host := { s.host with inflight := s.host.inflight ++ [e] } }

/-- A command finishes with an answer. -/
def State.finish (s : State) (h : CmdHdr) (r : Rsp) : State := s.answer h.mbx h.cid h.noIrq r

/-- A firmware update that runs ends with E_FAULT (R584). -/
def State.failUpdate (s : State) : State :=
  match s.boot.update with
  | none => s
  | some u => ({ s with boot := { s.boot with update := none } }).answer u.mbx u.cid u.noIrq (.err eFault)

/-- The entry of a command in flight, changed where it is the first that may be the command's own; none where no fetch made
one. -/
def ownEntry (h : CmdHdr) (f : Inflight → Inflight) : List Inflight → Option (List Inflight)
  | [] => none
  | e :: es => if ownsEntry h e then some (f e :: es) else (ownEntry h f es).map (e :: ·)

/-- A command's entry noted: begun or not, one being made where no fetch made it (log entry 11). -/
def State.noteCmd (s : State) (h : CmdHdr) (begun : Bool) : State :=
  let made : Inflight := ⟨h.mbx, h.cid, 0, h.unordered, h.noIrq, s.getF F.mbxQstate_sqHead h.mbx, begun, none, false⟩
  { s with host := { s.host with
    inflight := (ownEntry h (fun e => { e with begun := begun }) s.host.inflight).getD (s.host.inflight ++ [made]) } }

/-- A command has begun and finishes at a later event (R455). -/
def State.beginCmd (s : State) (h : CmdHdr) : State := s.noteCmd h true

/-- A command that is not carried out: refused, or held until it may begin (R455; log entry 256). -/
def State.stopCmd (s : State) (c : Instr) (h : CmdHdr) : CmdStop → State
  | .refused r => s.finish h r
  | .waits =>
    let t := s.noteCmd h false
    { t with host := { t.host with waiting := t.host.waiting ++ [(h, c)] } }

/-- A Jaris command: held while it may not begin, refused for its mailbox or attributes, refused with E_INVAL for its first
faulty parameter, or carried out; then finished (R453, R455, R456). -/
def State.cmd (s : State) (c : Instr) (h : CmdHdr) (a : CmdAttr) (checks : List Bool) (body : State → State × Rsp) : State :=
  match s.refuseCmd h a with
  | some r => s.stopCmd c h r
  | none =>
    match firstBad checks with
    | some i => s.finish h (.inval i)
    | none =>
      let (s', r) := body s
      s'.finish h r

/-- A Jaris command that finishes at a later event unless its body answers at once. -/
def State.cmdLater (s : State) (c : Instr) (h : CmdHdr) (a : CmdAttr) (checks : List Bool)
    (body : State → State × Option Rsp) : State :=
  match s.refuseCmd h a with
  | some r => s.stopCmd c h r
  | none =>
    match firstBad checks with
    | some i => s.finish h (.inval i)
    | none =>
      match body s with
      | (s', some r) => s'.finish h r
      | (s', none) => s'.beginCmd h

/-- The first held command that may begin now, taken out. -/
def State.takeWaiting (s : State) : List (CmdHdr × Instr) → Option (Instr × List (CmdHdr × Instr))
  | [] => none
  | (h, c) :: rest =>
    if s.mayBegin h then some (c, rest) else (s.takeWaiting rest).map fun e => (e.1, (h, c) :: e.2)

end Sys2Proof.Machine
end

