-- ==== Sys2Proof/Machine/Gates.lean ====
section
/-! DEFINITION. Time gates: where a list stands at an instant, which gates are open, the fit test, activation (R357 to
R362). Instants are nanoseconds of network time. -/

namespace Sys2Proof.Machine

/-- Where a gate list stands: its entry, the states in force, and the instant they end. -/
structure GatePos where
  entry : Nat
  states : Nat
  stop : Nat
  deriving DecidableEq, Repr

/-- An instant that never comes. -/
def never : Nat := 2 ^ 100

/-- The entry in force at an offset into a cycle: its index, states and end. The last one holds until the cycle ends, and
no entry goes beyond it (R358). -/
def entryAt (cycle off : Nat) : List (Nat × Nat) → Nat → Nat → Nat × Nat × Nat
  | [], i, _ => (i, 255, cycle)
  | [(st, _)], i, _ => (i, st, cycle)
  | (st, iv) :: rest, i, start =>
    if off < start + iv then (i, st, Nat.min cycle (start + iv)) else entryAt cycle off rest (i + 1) (start + iv)

/-- The states of a list with the gates outside its mask open. -/
def GateList.open_ (l : GateList) (st : Nat) : Nat := Nat.lor st (255 - l.gateMask % 256)

/-- Nanoseconds into the list's cycle. -/
def GateList.offset (l : GateList) (t : Nat) : Nat := (((t : Int) - (l.base : Int)) % (l.cycleTime : Int)).toNat

/-- A list on its grid (R358). -/
def GateList.pos (l : GateList) (t : Nat) : GatePos :=
  let off := l.offset t
  let (i, st, e) := entryAt l.cycleTime off l.entries 0 0
  ⟨i, l.open_ st, t + (e - off)⟩

/-- A port's gate lists. -/
def State.gatePort (s : State) (p : Nat) : GatePort := SMap.getD s.egs.gates p GatePort.reset

/-- A port's gates changed. -/
def State.setGate (s : State) (p : Nat) (g : GatePort) : State :=
  { s with egs := { s.egs with gates := SMap.set s.egs.gates p g } }

/-- The old list while a change is pending: a cycle that would start within cycle_ext of the change is not started (R359
step 4). -/
def GatePort.oldPos (g : GatePort) (l new : GateList) (t : Nat) : GatePos :=
  let start := t - l.offset t
  if start ≥ g.pendingAt && g.changeAt - start < new.cycleExt then
    let last := l.pos (start - 1)
    { last with stop := g.changeAt }
  else
    let q := l.pos t
    { q with stop := Nat.min q.stop g.changeAt }

/-- Where a port's gates stand at an instant, by its lists (R358, R359). -/
def GatePort.posAt (g : GatePort) (t : Nat) : GatePos :=
  let old := g.oper.bind fun n => SMap.find? g.lists n
  match g.pending.bind fun n => SMap.find? g.lists n with
  | some new =>
    if t ≥ g.changeAt then new.pos t
    else match old with
      | some l => g.oldPos l new t
      | none => ⟨0, 255, g.changeAt⟩
  | none =>
    match old with
    | some l => l.pos t
    | none => ⟨0, 255, never⟩

/-- The earliest instant from `t` on at which a class's gate is closed; none where it stays open to `limit`. -/
def GatePort.closes (g : GatePort) (c limit : Nat) : Nat → Nat → Option Nat
  | 0, _ => none
  | fuel + 1, t =>
    let q := g.posAt t
    if !bitOf q.states c then some t else if q.stop ≥ limit then none else GatePort.closes g c limit fuel q.stop

/-- A class's gate is open at some instant from `t` to `limit`. -/
def GatePort.opens (g : GatePort) (c limit : Nat) : Nat → Nat → Bool
  | 0, _ => false
  | fuel + 1, t =>
    let q := g.posAt t
    bitOf q.states c || (decide (q.stop ≤ limit) && GatePort.opens g c limit fuel q.stop)

/-- Changes of states that two cycles and a change of list hold at most. -/
def gateFuel : Nat := 8192

/-- The cycle time that the look-ahead of R361 counts two of. -/
def GatePort.cycle (g : GatePort) : Nat :=
  let of_ (n : Option Nat) : Nat := (n.bind fun k => SMap.find? g.lists k).elim 0 (·.cycleTime)
  Nat.max (of_ g.oper) (of_ g.pending)

/-- A class is gate-controlled: in the gate_mask of the operating list (R357, R358). -/
def State.gateControlled (s : State) (p c : Nat) : Bool :=
  let g := s.gatePort p
  (g.oper.bind fun n => SMap.find? g.lists n).elim false fun l => bitOf l.gateMask c

/-- unlocked_gate_state where it governs a port's gates: while the servo is not locked, or a list is damaged (R360,
R362). -/
def State.gateMode (s : State) (p : Nat) : Option Nat :=
  if !s.locked || (s.gatePort p).damaged then some (s.getF F.egsCtrl_unlockedGateState (pipeOf p)) else none

/-- Whether a damaged list is to keep running: it holds the states it stands at (log entry 66). -/
def GatePort.held (g : GatePort) (c : Nat) : Bool := bitOf g.states c

/-- The gates' answer where unlocked_gate_state decides it: none where the lists do. -/
def State.gateOverride (s : State) (p c : Nat) : Option Bool :=
  match s.gateMode p with
  | some 0 => some true
  | some 2 => some (bitOf (s.getF F.egsCtrl_unlockedMask (pipeOf p)) c)
  | some _ => if (s.gatePort p).damaged then some ((s.gatePort p).held c) else none
  | none => none

/-- A class may be granted for its gate: open now or within gate_lead (R348). -/
def State.gateLead (s : State) (p c : Nat) : Bool :=
  if !s.gateControlled p c then true
  else
    match s.gateOverride p c with
    | some b => b
    | none => (s.gatePort p).opens c (s.now + s.getF F.egsCtrl_gateLead (pipeOf p)) gateFuel s.now

/-- The gate of a class is open now. -/
def State.gateOpen (s : State) (p c : Nat) : Bool :=
  if !s.gateControlled p c then true
  else (s.gateOverride p c).getD (bitOf ((s.gatePort p).posAt s.now).states c)

/-- The fit test of R361 for a frame of `len` bytes with FCS that would start at `d`, in 2^-16 ns, at `gbps`. -/
def State.fits (s : State) (p c d len gbps : Nat) : Bool :=
  if !s.gateControlled p c then true
  else
    match s.gateOverride p c with
    | some b => b
    | none =>
      let g := s.gatePort p
      let t := d / 2 ^ 16
      bitOf (g.posAt t).states c &&
        match g.closes c (t + 2 * g.cycle) gateFuel t with
        | none => true
        | some e => decide ((len + 8) * 8 * 2 ^ 16 + d * gbps ≤ e * 2 ^ 16 * gbps)

/-- EGS_STATUS shows a port's lists (R373). -/
def State.syncGate (s : State) (p : Nat) : State :=
  let g := s.gatePort p
  ((s.setBit F.egsStatus_gateOper (pipeOf p) (p % 8) g.oper.isSome).setBit F.egsStatus_operList (pipeOf p) (p % 8)
    (g.oper == some 1)).setBit F.egsStatus_gatePending (pipeOf p) (p % 8) g.pending.isSome

/-- The entry and states in force are those of the grid now (R358, R362). -/
def State.regrid (s : State) (p : Nat) : State :=
  let g := s.gatePort p
  if g.damaged || g.oper.isNone then s
  else
    let q := g.posAt s.now
    s.setGate p { g with current := q.entry, states := q.states }

/-- Gates that follow unlocked_gate_state are noted (R362). -/
def State.noteUnlocked (s : State) (p : Nat) : State :=
  if (s.gatePort p).oper.isSome && (s.gateMode p).isSome then s.setF F.egsEvent_unlockedSeen (pipeOf p) 1 else s

/-- Every port's lists stand where the grid puts them, and gates that no longer follow it are noted: lock was gained or
lost, or time stepped (R362). -/
def State.regridAll (s : State) : State := s.egs.gates.foldl (fun t e => (t.regrid e.1).noteUnlocked e.1) s

/-- The change instant of a list that becomes pending at `t` (R359 step 2). -/
def GateList.changeInstant (l : GateList) (t : Nat) : Nat :=
  if l.base ≥ t then l.base else l.base + ceilDiv (t - l.base) l.cycleTime * l.cycleTime

/-- The named list becomes pending at `t`, or the firing is ignored (R359 steps 1 and 2); `late` is the firing's flag. A
firing that finds a change pending is ignored too (log entry 67). -/
def State.gatePend (s : State) (p n t : Nat) (late : Bool) : State :=
  let g := s.gatePort p
  match SMap.find? g.lists n with
  | none => s.setF F.egsEvent_gateInvalidSeen (pipeOf p) 1
  | some l =>
    if !l.valid || g.pending.isSome then s.setF F.egsEvent_gateInvalidSeen (pipeOf p) 1
    else
      let at_ := l.changeInstant t
      let s1 := (s.setGate p { g with pending := some n, pendingAt := t, changeAt := at_ }).syncGate p
      s1.sendFault { s1.faultArg 0xB005 p n (at_ % 1000000000) with late := late }

/-- GATE_ENTRY_CHANGE (R358): the entry the grid gives now takes effect at a port. -/
def execGateEntryChange (port : Nat) (s : State) : Host.Outcome State Fault Refusal := .next ((s.regrid port).noteUnlocked port)

/-- GATE_CHANGE_INSTANT (R359 step 5): at S the pending list starts and the old one stops. -/
def execGateChangeInstant (port : Nat) (s : State) : Host.Outcome State Fault Refusal :=
  let g := s.gatePort port
  .next (match g.pending with
    | none => s
    | some n =>
      if s.now < g.changeAt then s
      else
        let s1 := (s.setGate port { g with oper := some n, pending := none }).syncGate port
        (((s1.setF F.egsEvent_gateChangeSeen (pipeOf port) 1).regrid port).noteUnlocked port))

/-! ## Memory errors (R360) -/

/-- EGS_ECC_CAPTURE takes an error while it holds none (R373). -/
def State.egsCapture (s : State) (pipe memory port index : Nat) (double : Bool) : State :=
  if s.getB F.egsEccCapture_valid pipe then s
  else ((((s.setF F.egsEccCapture_valid pipe 1).setB F.egsEccCapture_uncorrectable pipe double).setF
    F.egsEccCapture_memory pipe memory).setF F.egsEccCapture_port pipe port).setF F.egsEccCapture_index pipe index

/-- A memory error in a port's operating or pending list. -/
def State.gateEcc (s : State) (p : Nat) (e : EccErr) : State :=
  let pipe := pipeOf p
  let s1 := s.egsCapture pipe 0 (p % 8) e.index e.double
  if e.double then
    let g := s1.gatePort p
    (((s1.setGate p { g with damaged := true }).setF F.egsEvent_gateEccUncorrSeen pipe 1).noteUnlocked p).raise 0xB002 p
  else (s1.setF F.egsEvent_gateEccCorrSeen pipe 1).raise 0xB001 p

/-- GATE_LIST_REPAIR (R360): firmware rewrites the list and it rejoins its grid. -/
def execGateListRepair (port : Nat) (s : State) : Host.Outcome State Fault Refusal :=
  let g := s.gatePort port
  .next (if g.damaged then ((s.setGate port { g with damaged := false }).regrid port).endCondition 0xB002 port else s)

/-! ## Commands (R371) -/

/-- The seconds, nanoseconds and fraction that four container words hold, in nanoseconds (R34). -/
def containerNs (ws : List Nat) : Nat :=
  (wordAt ws 3 % 2 ^ 16 * 2 ^ 32 + wordAt ws 2) * 1000000000 + wordAt ws 1 % 2 ^ 30

/-- GATE_LIST_SET (R357): the header's fields, base_time as the four container words, word 0 first, and the entries as
states and interval. -/
def execGateListSet (h : CmdHdr) (port list : Nat) (valid : Bool) (gateMask : Nat) (base : List Nat)
    (cycleTime cycleExt : Nat) (entries : List (Nat × Nat)) (s : State) : Host.Outcome State Fault Refusal :=
  .next (s.cmd (.gateListSet h port list valid gateMask base cycleTime cycleExt entries) h attrO
    [decide (port < 256), decide (list < 2), true,
     decide (gateMask < 256), base.length == 4 && decide (wordAt base 1 % 2 ^ 30 < 1000000000),
     decide (1000 ≤ cycleTime) && decide (cycleTime ≤ 4000000000), decide (cycleExt ≤ cycleTime),
     decide (1 ≤ entries.length) && decide (entries.length ≤ 1024)
       && entries.all fun e => decide (e.1 < 256) && decide (64 ≤ e.2) && decide (e.2 < 2 ^ 32)]
    fun s =>
      if !s.portExists port then (s, .err eNoent)
      else
        let g := s.gatePort port
        if g.oper == some list || g.pending == some list then (s, .err eBusy)
        else
          let l : GateList := ⟨valid, gateMask, containerNs base, cycleTime, cycleExt, entries⟩
          (s.setGate port { g with lists := SMap.set g.lists list l }, .ok))

/-- GATE_ACTIVATE (R359): T is the first microsecond boundary at least 2 µs ahead; S is answered as full time. -/
def execGateActivate (h : CmdHdr) (port list : Nat) (s : State) : Host.Outcome State Fault Refusal :=
  .next (s.cmd (.gateActivate h port list) h attrO [decide (port < 256) && s.portExists port, decide (list < 2)] fun s =>
    let g := s.gatePort port
    if g.pending.isSome then (s, .err eBusy)
    else
      match SMap.find? g.lists list with
      | none => (s, .err eState)
      | some l =>
        if !l.valid then (s, .err eState)
        else
          let t := boundaryAfter s.now 2000
          let at_ := l.changeInstant t
          (s.gatePend port list t false, .val (fullTimeWords (at_ / 1000000000) (at_ % 1000000000) 0)))

/-- A list number as answered: 2 for none. -/
def listCode (n : Option Nat) : Nat := n.getD 2

/-- GATE_STATUS (R371): operating and pending list (2 for none), S, the current entry, and whether the gates follow
unlocked_gate_state. -/
def execGateStatus (h : CmdHdr) (port : Nat) (s : State) : Host.Outcome State Fault Refusal :=
  .next (s.cmd (.gateStatus h port) h attrNone [true] fun s =>
    if !s.portExists port then (s, .err eNoent)
    else
      let g := s.gatePort port
      (s, .val ([listCode g.oper, listCode g.pending] ++ fullTimeWords (g.changeAt / 1000000000)
        (g.changeAt % 1000000000) 0 ++ [g.current, b2n (s.gateMode port).isSome])))

end Sys2Proof.Machine
end

