-- ==== Sys2Proof/Machine/Shapers.lean ====
section
/-! DEFINITION. Shapers and the timing wheel (R351 to R356). -/

namespace Sys2Proof.Machine

/-- A byte in the units a shaper's level is held in: 1/(8·10^9) byte. -/
def byteUnit : Nat := 8000000000

/-- The number of a port's shaper: 0 to 7 the classes, 8 the port. -/
def shaperKey (port i : Nat) : Nat := 16 * port + i

/-- A shaper. -/
def State.shaper (s : State) (k : Nat) : Shaper := SMap.getD s.egs.shapers k Shaper.reset

/-- A shaper changed. -/
def State.setShaper (s : State) (k : Nat) (v : Shaper) : State :=
  { s with egs := { s.egs with shapers := SMap.put Shaper.reset s.egs.shapers k v } }

/-- The classes a shaper applies to (R351). -/
def State.shaperMask (s : State) (k : Nat) : Nat :=
  if k % 16 == 8 then SMap.getD s.egs.portShaped (k / 16) 0 else 1 <<< (k % 16)

/-- How a credit moves now (R353): a closed gate freezes it; a negative credit of an empty class returns to zero. -/
def State.creditStatus (s : State) (k : Nat) (level : Int) : Nat :=
  let port := k / 16
  let m := s.shaperMask k
  let mine := s.pk.copies.filter fun e => e.2.port == port && bitOf m e.2.cls
  if mine.any fun e => e.2.stage == .transmitting then 2
  else if (List.range 8).all fun c => !bitOf m c || !s.gateOpen port c then 0
  else if mine.any fun e => s.gateOpen port e.2.cls then 1
  else if level < 0 then 3
  else 0

/-- A class is empty: no frame waits or is in transmission. -/
def State.shaperIdle (s : State) (k : Nat) : Bool :=
  !s.pk.copies.any fun e => e.2.port == k / 16 && bitOf (s.shaperMask k) e.2.cls

/-- Units that a credit of a status moves in `dt` nanoseconds at a port of `gbps` (R353). -/
def Shaper.moved (h : Shaper) (dt gbps : Nat) : Int :=
  let up : Int := (h.rate * dt : Nat)
  match h.status with
  | 1 => up
  | 2 => up - (gbps * 1000000000 * dt : Nat)
  | 3 => if h.level + up > 0 then -h.level else up
  | _ => 0

/-- A value held inside bounds. -/
def clampIn (lo hi v : Int) : Int := if v < lo then lo else if v > hi then hi else v

/-- A credit brought up to date (R353). -/
def State.creditNow (s : State) (k : Nat) (h : Shaper) : Shaper :=
  let v := clampIn (h.lo * byteUnit) (h.hi * byteUnit) (h.level + h.moved (s.now - h.tRef) (s.portRate (k / 16)))
  let v1 := if v > 0 && s.shaperIdle k then 0 else v
  { h with level := v1, tRef := s.now, status := s.creditStatus k v1 }

/-- Tokens brought up to date (R352). -/
def tokensNow (now : Nat) (h : Shaper) : Shaper :=
  let gain : Int := ((now - h.tRef) * h.rate / byteUnit * byteUnit : Nat)
  let top : Int := (h.burst * byteUnit : Nat)
  { h with level := if h.level + gain > top then top else h.level + gain, tRef := now }

/-- A shaper examined: its tokens or credit brought up to date. One that waits for its wakeup is not examined. -/
def State.examine (s : State) (k : Nat) : State :=
  let h := s.shaper k
  if h.mode == 1 then (if SMap.has s.egs.wheel k then s else s.setShaper k (tokensNow s.now h))
  else if h.mode == 2 then s.setShaper k (s.creditNow k h)
  else s

/-- The credits of a port brought up to date, before or after something they depend on changes. -/
def State.touchCredits (s : State) (port : Nat) : State :=
  (List.range 9).foldl (fun t i => if (t.shaper (shaperKey port i)).mode == 2 then t.examine (shaperKey port i) else t) s

/-- Every shaper of a port examined. -/
def State.examinePort (s : State) (port : Nat) : State :=
  (List.range 9).foldl (fun t i => t.examine (shaperKey port i)) s

/-- A shaper is in debt: it waits for a wakeup, or its tokens or credit are below 0. -/
def State.shaperDebt (s : State) (k : Nat) : Bool :=
  (s.shaper k).mode != 0 && (SMap.has s.egs.wheel k || decide ((s.shaper k).level < 0))

/-- A class's shaper, or the port shaper of a port-shaped class, is in debt (R348). -/
def State.inDebt (s : State) (port c : Nat) : Bool :=
  s.shaperDebt (shaperKey port c) ||
    (bitOf (SMap.getD s.egs.portShaped port 0) c && s.shaperDebt (shaperKey port 8))

/-- A class is shaped: its own shaper or the port shaper applies to it (R349). -/
def State.isShaped (s : State) (port c : Nat) : Bool :=
  (s.shaper (shaperKey port c)).mode != 0 ||
    (bitOf (SMap.getD s.egs.portShaped port 0) c && (s.shaper (shaperKey port 8)).mode != 0)

/-! ## The wheel (R354) -/

/-- EGS_WHEEL_STATUS shows a pipeline's wheel (R373). -/
def State.syncWheel (s : State) (pipe : Nat) : State :=
  let mine := s.egs.wheel.filter fun e => e.1 / 128 == pipe
  ((s.setF F.egsWheelStatus_slot pipe (s.now / 8 % 8192)).setF F.egsWheelStatus_wheelEntries pipe
    (mine.filter fun e => !e.2.overflow).length).setF F.egsWheelStatus_listEntries pipe
    (mine.filter fun e => e.2.overflow).length

/-- The wheel's horizon, and the time of one turn. -/
def wheelTurn : Nat := 65536

/-- A shaper in debt is put on the wheel, or on the overflow list beyond the horizon, at its wake time (R354). -/
def State.park (s : State) (k : Nat) : State :=
  let h := s.shaper k
  if h.mode == 0 || h.level ≥ 0 || h.status == 2 then s
  else
    let due := ceilDiv (h.tRef + ceilDiv h.level.natAbs (Nat.max 1 h.rate)) 8 * 8
    let w : Wake := ⟨due, due, decide (due > s.now + wheelTurn)⟩
    { s with egs := { s.egs with wheel := SMap.set s.egs.wheel k w } }.syncWheel (k / 128)

/-- A shaper taken off the wheel. -/
def State.unpark (s : State) (k : Nat) : State :=
  { s with egs := { s.egs with wheel := SMap.del s.egs.wheel k } }.syncWheel (k / 128)

/-- A wakeup makes a shaper eligible; one whose credit was frozen meanwhile goes back. -/
def State.wake (s : State) (k : Nat) : State := ((s.unpark k).examine k).park k

/-- The entries of a pipeline's wheel whose slot has come. -/
def State.dueWakes (s : State) (pipe : Nat) : List (Nat × Wake) :=
  s.egs.wheel.filter fun e => e.1 / 128 == pipe && !e.2.overflow && decide (e.2.at_ ≤ s.now)

/-- SHAPER_WAKE (R354): the earliest slot that has come wakes up to 24 shapers; the rest move to the next slot. -/
def execShaperWake (pipe : Nat) (s : State) : Host.Outcome State Fault Refusal :=
  .next (match s.dueWakes pipe with
    | [] => s
    | e :: es =>
      let slot := es.foldl (fun a b => Nat.min a b.2.at_) e.2.at_
      let here := (e :: es).filter fun b => b.2.at_ == slot
      let s1 := (here.drop 24).foldl (fun t b =>
        { t with egs := { t.egs with wheel := SMap.set t.egs.wheel b.1 { b.2 with at_ := slot + 8 } } }) s
      (here.take 24).foldl (fun t b =>
        (t.maxF F.egsWheelStatus_lateMax pipe ((slot - b.2.due) / 8)).wake b.1) s1)

/-- WHEEL_TURN (R354): entries of the overflow list that fall within the turn now beginning move into their slots. -/
def execWheelTurn (pipe : Nat) (s : State) : Host.Outcome State Fault Refusal :=
  let stop := s.now / wheelTurn * wheelTurn + wheelTurn
  let w := s.egs.wheel.mapVal fun k v =>
    if k / 128 == pipe && v.overflow && decide (v.at_ < stop) then { v with overflow := false } else v
  .next ({ s with egs := { s.egs with wheel := w } }.syncWheel pipe)

/-- Every shaper brought up to date at the boundary of a step, before time moves. -/
def State.examineAll (s : State) : State :=
  s.egs.shapers.foldl (fun t e =>
    let h := t.shaper e.1
    if h.mode == 1 then t.setShaper e.1 (tokensNow t.now h) else t.examine e.1) s

/-- After a step every shaper's reference is the boundary, its level is kept and its wakeup recomputed (R355). -/
def State.restep (s : State) : State :=
  s.egs.shapers.foldl (fun t e =>
    let k := e.1
    let t1 := t.setShaper k { t.shaper k with tRef := t.now }
    if SMap.has t1.egs.wheel k then (t1.unpark k).park k else t1) s

/-! ## Use by transmit selection -/

/-- A frame that starts charges the token buckets that apply to it (R352): its length with FCS and the overhead. -/
def State.chargeShaper (s : State) (k len : Nat) (start : Bool) : State :=
  let h := s.shaper k
  let n := if start then len + h.overhead else len
  if h.mode == 1 && n > 0 then (s.setShaper k { h with level := h.level - (n * byteUnit : Nat) }).park k else s

/-- The shapers of a class charged for `len` bytes of a frame, FCS included, with the overhead at its start. -/
def State.chargeFrame (s : State) (port c len : Nat) (start : Bool) : State :=
  let s1 := s.chargeShaper (shaperKey port c) len start
  if bitOf (SMap.getD s1.egs.portShaped port 0) c then s1.chargeShaper (shaperKey port 8) len start else s1

/-- The credits of a port after a frame's start or end: brought up to date, and those in debt put on the wheel. -/
def State.settleCredits (s : State) (port : Nat) : State :=
  (List.range 9).foldl (fun t i =>
    let k := shaperKey port i
    if (t.shaper k).mode == 2 then
      let t1 := t.examine k
      if SMap.has t1.egs.wheel k then t1 else t1.park k
    else t) s

/-- A shaper's starting value under its reset_mode (R356). -/
def State.shaperStart (s : State) (k : Nat) (h : Shaper) : Shaper :=
  let full : Int := if h.mode == 1 then (h.burst : Int) else h.hi
  let v : Int := if h.zeroReset then 0 else full * byteUnit
  let v1 := if h.mode == 2 && v > 0 && s.shaperIdle k then 0 else v
  { h with level := v1, tRef := s.now, status := if h.mode == 2 then s.creditStatus k v1 else 0 }

/-- A memory error in a shaper's state (R370): a double-bit error resets it under its reset_mode. -/
def State.shaperEcc (s : State) (port : Nat) (e : EccErr) : State :=
  let pipe := pipeOf port
  let s1 := s.egsCapture pipe 2 (port % 8) e.index e.double
  if e.double then
    let k := shaperKey port e.index
    let s2 := s1.unpark k
    ((s2.setShaper k (s2.shaperStart k (s2.shaper k))).setF F.egsEvent_shaperEccSeen pipe 1).raise 0xB004 pipe
  else s1.raise 0xB001 pipe

/-- EGS_SHAPER_SET (R351, R356): mode 0 OFF, 1 TB with rate, burst and overhead, 2 CBS with idle_slope as rate and its
credits. -/
def execEgsShaperSet (h : CmdHdr) (port shaper mode rate burst overhead : Nat) (hi lo : Int) (zeroReset : Bool)
    (s : State) : Host.Outcome State Fault Refusal :=
  .next (s.cmd (.egsShaperSet h port shaper mode rate burst overhead hi lo zeroReset) h attrNone
    [decide (port < 256), decide (shaper < 9), decide (mode < 3),
     mode == 0 || (mode == 1 && decide (8000 ≤ rate) && decide (rate ≤ 1600000000000))
       || (mode == 2 && decide (rate ≤ s.portRate port * 1000000000)),
     mode != 1 || (decide (64 ≤ burst) && decide (burst ≤ 16 * 2 ^ 20)), mode != 1 || decide (overhead < 64),
     mode != 2 || decide (hi ≥ 0), mode != 2 || decide (lo ≤ 0)]
    fun s =>
      if !s.portExists port then (s, .err eNoent)
      else
        let k := shaperKey port shaper
        let v : Shaper := if mode == 0 then Shaper.reset
          else ⟨mode, rate, burst, overhead, hi, lo, zeroReset, 0, 0, 0⟩
        let s1 := s.unpark k
        (s1.setShaper k (if mode == 0 then v else s1.shaperStart k v), .ok))

end Sys2Proof.Machine
end

