-- ==== Sys2Proof/Machine/Ports.lean ====
section
/-! DEFINITION. Ports: link state, negotiation, flow control received, the watchdog, and the port commands (chapter 3).
Frames arriving stand in Arrival.lean. -/

namespace Sys2Proof.Machine

/-- Milliseconds as ticks. -/
def msTicks (ms : Nat) : Nat := ms * 1000000

/-! ## Link state (R80 to R82) -/

/-- A frame in transmission when the link goes down is truncated and counted in TX_LINK_ABORT (R81). DESIGN CHOICE: the
spec does
not say where it is cut; the model puts all its bytes that the MAC has received on the line, without FCS and marked as ending in
error (log entry 243). -/
def State.abortTx (s : State) (port : Nat) : State :=
  match SMap.first? s.pk.copies fun _ c => c.port == port && c.stage == .transmitting with
  | none => s
  | some (cid, c) =>
    let s1 := (s.sendLine port (s.txBytes c) true).count (C.txLinkAbort port)
    ((s1.leavePort c).dropCopy cid).settleCredits port

/-- The failover vector marks a port down and a notification names it (R368). -/
def State.failover (s : State) (port : Nat) : State :=
  if s.egs.down.contains port then s
  else
    let s1 := { s with egs := { s.egs with down := port :: s.egs.down, revertAt := SMap.del s.egs.revertAt port } }
    let s2 := (s1.setBit F.egsStatus_nhDown (pipeOf port) (port % 8) true).setF F.egsEvent_failoverSeen (pipeOf port) 1
    (s2.count (C.nhFailovers (pipeOf port))).raise 0xB006 (pipeOf port) port

/-- A link-fault detection instant: link down without debounce, failover, and the port sends what the fault asks for (R80, R81,
R368). -/
def State.linkFault (s : State) (port : Nat) : State :=
  let i := s.portInfo port
  let s1 := s.setPort port { i with clearSince := none }
  let s2 := if s1.linkUp port then
      ((s1.setF F.portStatus_linkUp port 0).setF F.portEvent_linkDownSeen port 1).abortTx port else s1
  (s2.failover port).lineChanged port

/-- LOCAL_LINK_FAULT (R80): cause 0 signal or block lock lost, 1 alignment lost, 2 hi_ber, 3 local fault received. -/
def execLocalLinkFault (port cause : Nat) (s : State) : Host.Outcome State Fault Refusal :=
  .next (if !s.portExists port then s
    else
      let s1 := s.setF F.portStatus_rxLocalFault port 1
      let s2 := if cause == 0 then (s1.setF F.portStatus_blockLock port 0).setF F.portStatus_fecLock port 0
        else if cause == 1 then s1.setF F.portStatus_alignLock port 0
        else if cause == 2 then (s1.setF F.portStatus_hiBer port 1).setF F.portEvent_hiBerSeen port 1
        else s1
      s2.linkFault port)

/-- REMOTE_LINK_FAULT (R80). -/
def execRemoteLinkFault (port : Nat) (s : State) : Host.Outcome State Fault Refusal :=
  .next (if !s.portExists port then s else (s.setF F.portStatus_rxRemoteFault port 1).linkFault port)

/-- Link up is declared, and the failover bit is to revert after revert_holdoff (R82, R368). -/
def State.declareUp (s : State) (port : Nat) : State :=
  if s.furled then s
  else
  let s1 := (s.setF F.portStatus_linkUp port 1).setF F.portEvent_linkUpSeen port 1
  if s1.egs.down.contains port then
    { s1 with egs := { s1.egs with
        revertAt := SMap.set s1.egs.revertAt port (s1.tm.ticks + msTicks s1.egs.revertHoldoff) } }
  else s1

/-- The receive side has been free of faults for link_up_holdoff (R82). -/
def State.holdoffSpent (s : State) (port : Nat) : Bool :=
  match (s.portInfo port).clearSince with
  | none => false
  | some t => decide (s.tm.ticks ≥ t + msTicks (s.portInfo port).holdoff)

/-- LINK_UP_HOLDOFF_EXPIRY (R82). -/
def execLinkUpHoldoffExpiry (port : Nat) (s : State) : Host.Outcome State Fault Refusal :=
  .next (if s.portExists port && !s.linkUp port && s.holdoffSpent port then s.declareUp port else s)

/-- RECEIVE_FAULT_CLEARED (R81, R82): the receive side has its locks again and sees no fault; the holdoff starts, and a
holdoff of zero is over at once. -/
def execReceiveFaultCleared (port : Nat) (s : State) : Host.Outcome State Fault Refusal :=
  .next (if !s.portExists port || s.linkUp port then s
    else
      let s1 := ((s.setF F.portStatus_rxLocalFault port 0).setF F.portStatus_rxRemoteFault port 0).setF
        F.portStatus_hiBer port 0
      let s2 := ((s1.setF F.portStatus_blockLock port 1).setF F.portStatus_alignLock port 1).setB
        F.portStatus_fecLock port (s.portFec port != 0)
      let s3 := (s2.setPort port { s.portInfo port with clearSince := some s.tm.ticks }).lineChanged port
      if (s.portInfo port).holdoff == 0 then s3.declareUp port else s3)

/-! ## Negotiation (R79) -/

/-- A combination of lanes, lane rate and FEC is in the table of R73. -/
def comboOk (lanes rate fec : Nat) : Bool :=
  (rate == 0 && lanes == 0 && fec == 0) || (rate == 1 && lanes == 0 && fec ≤ 1) || (rate == 1 && lanes == 2 && fec == 1)
    || (rate == 2 && lanes ≤ 3 && fec == 2) || (rate == 3 && lanes ≤ 3 && fec == 2)
    || (rate == 4 && lanes ≤ 3 && fec == 2)

/-- Every combination of R73: lanes, lane rate and FEC as PORT_CFG codes them. -/
def combos : List (Nat × Nat × Nat) :=
  ((List.range 4).flatMap fun l => (List.range 5).flatMap fun r => (List.range 3).map fun f => (l, r, f)).filter
    fun c => comboOk c.1 c.2.1 c.2.2

/-- A port advertises every ability that its lane count and lane rate allow (R79): no more lanes and no faster lanes than
its own
(DEDUCED, log entry 244). -/
def State.advertised (s : State) (port : Nat) : List (Nat × Nat × Nat) :=
  combos.filter fun c => decide (c.1 ≤ s.getF F.portCfg_lanes port) && decide (c.2.1 ≤ s.getF F.portCfg_laneRate port)

/-- An ability's rank in priority resolution: the port rate, then fewer lanes, then FEC (PRESUMED, log entry 244). -/
def anRank (c : Nat × Nat × Nat) : Nat := 100 * (2 ^ c.1 * laneGbps c.2.1) + 10 * (3 - c.1) + c.2.2

/-- The highest ability that a port and its partner have in common (R79). -/
def State.resolveAn (s : State) (port : Nat) (partner : List (Nat × Nat × Nat)) : Option (Nat × Nat × Nat) :=
  ((s.advertised port).filter partner.contains).foldl (fun best c =>
    match best with
    | none => some c
    | some b => if anRank c > anRank b then some c else best) none

/-- Criod firmware writes a port's latencies from its calibration, which the spec leaves open (R96). -/
def State.calibrate (s : State) (port : Nat) : State :=
  let s1 := (s.setF F.portTsLatency_txLat port s.freeVal).draw
  (s1.setF F.portTsLatency_rxLat port s1.freeVal).draw

/-- A negotiation or training failure: it restarts in 1 s (R79). -/
def State.anFailed (s : State) (port : Nat) : State :=
  ((s.setF F.portStatus_anState port 4).setF F.portEvent_anFail port 1).setPort port
    { s.portInfo port with ability := none, anRestart := some (s.tm.ticks + 1000000000) }

/-- AN_COMPLETE (R79, R96): a negotiation, or the link training that lt_en puts after it, has ended. `partner` is what the link
partner advertises, none where it failed; negotiation resolves to the highest common ability, and fails where there is none. -/
def execAnComplete (port : Nat) (partner : Option (List (Nat × Nat × Nat))) (s : State) :
    Host.Outcome State Fault Refusal :=
  let st := s.getF F.portStatus_anState port
  .next (if !s.portExists port || !s.getB F.portCfg_anEn port || (st != 1 && st != 2) then s
    else
      match partner with
      | none => s.anFailed port
      | some l =>
        if st == 2 then s.setF F.portStatus_anState port 3
        else
          match s.resolveAn port l with
          | none => s.anFailed port
          | some a =>
            let s1 := (s.setF F.portStatus_anState port (if s.getB F.portCfg_ltEn port then 2 else 3)).setPort port
              { s.portInfo port with ability := some a, anRestart := none }
            s1.calibrate port)

/-- AN_RESTART (R79). -/
def execAnRestart (port : Nat) (s : State) : Host.Outcome State Fault Refusal :=
  .next (match (s.portInfo port).anRestart with
    | some t =>
      if s.tm.ticks ≥ t then
        (s.setF F.portStatus_anState port 1).setPort port { s.portInfo port with anRestart := none }
      else s
    | none => s)

/-! ## Flow control received (R92, R93, R95) -/

/-- Ticks that `q` quanta of 512 bit times last at the port rate, rounded up (R93). -/
def State.quantaTicks (s : State) (port q : Nat) : Nat := ceilDiv (q * 512) (Nat.max 1 (s.portRate port))

/-- A class is held for `q` quanta, or released at once by none (R93). -/
def State.holdClass (s : State) (port c q : Nat) : State :=
  let i := s.portInfo port
  if SMap.has i.restoring c then s
  else if q == 0 then
    (s.setPort port { i with pauseEnd := SMap.del i.pauseEnd c, heldSince := SMap.del i.heldSince c }).setBit
      F.portStatus_rxPaused port c false
  else
    let since := SMap.getD i.heldSince c s.tm.ticks
    (s.setPort port { i with pauseEnd := SMap.set i.pauseEnd c (s.tm.ticks + s.quantaTicks port q),
                             heldSince := SMap.set i.heldSince c since }).setBit F.portStatus_rxPaused port c true

/-- A MAC control frame without error is counted and acted on (R85, R92, R93): PAUSE 0x0001 with one quanta, PFC 0x0101
with its class vector and eight quanta. A frame of the other kind than the port's mode is ignored (log entry 35). -/
def State.macControl (s : State) (port opcode classes : Nat) (quanta : List Nat) : State :=
  let m := s.getF F.portCfg_fcMode port
  if opcode == 0x0001 then
    let s1 := s.count (C.rxPause port)
    if m == 1 then (List.range 8).foldl (fun t c => t.holdClass port c (wordAt quanta 0 % 65536)) s1 else s1
  else if opcode == 0x0101 then
    (List.range 8).foldl (fun t c =>
      if bitOf classes c then
        let t1 := t.count (C.rxPfcClass port c)
        if m == 2 && bitOf (s.portInfo port).fcClasses c then t1.holdClass port c (wordAt quanta c % 65536) else t1
      else t) s
  else s.count (C.rxMacCtrlOther port)

/-- RX_MAC_CONTROL_FRAME (R93). -/
def execRxMacControlFrame (port opcode classes : Nat) (quanta : List Nat) (s : State) :
    Host.Outcome State Fault Refusal :=
  .next (if s.portExists port then (s.bwFrame port false 64).macControl port opcode classes quanta else s)

/-- PAUSE_EXPIRY (R93). -/
def execPauseExpiry (port cls : Nat) (s : State) : Host.Outcome State Fault Refusal :=
  .next (match SMap.find? (s.portInfo port).pauseEnd cls with
    | some t => if s.tm.ticks ≥ t then s.holdClass port cls 0 else s
    | none => s)

/-- XOFF_RESEND (R94): half the quanta time has passed since XOFF was last sent. -/
def execXoffResend (port cls : Nat) (s : State) : Host.Outcome State Fault Refusal :=
  let i := s.portInfo port
  .next (match SMap.find? i.xoffAt cls with
    | some t =>
      if s.getBit F.portStatus_txXoff port cls && s.tm.ticks ≥ t + s.quantaTicks port i.quanta / 2 then
        (s.sendFc port cls i.quanta).setPort port { i with xoffAt := SMap.set i.xoffAt cls s.tm.ticks }
      else s
    | none => s)

/-- The copies of a class of a port that wait, in their VOQs or at the port, are dropped and counted in PFC_WD_DROP (R95). -/
def State.watchdogDrop (s : State) (port c : Nat) : State :=
  (s.pk.copies.filter fun e => e.2.stage != .transmitting && e.2.port == port && e.2.cls == c).foldl
    (fun t e => (t.loseCopy e.1).count (C.pfcWdDrop port)) s

/-- PFC_WATCHDOG (R95). -/
def execPfcWatchdog (port cls : Nat) (s : State) : Host.Outcome State Fault Refusal :=
  let i := s.portInfo port
  .next (match SMap.find? i.heldSince cls with
    | none => s
    | some t =>
      if s.tm.ticks < t + msTicks i.watchdog then s
      else
        let s1 := s.holdClass port cls 0
        let s2 := s1.setPort port { s1.portInfo port with
          restoring := SMap.set i.restoring cls (s.tm.ticks + msTicks i.restore) }
        ((s2.watchdogDrop port cls).setF F.portEvent_pfcWdFired port 1).raise 0xA001 port cls)

/-- PFC_RESTORE_END (R95). -/
def execPfcRestoreEnd (port cls : Nat) (s : State) : Host.Outcome State Fault Refusal :=
  let i := s.portInfo port
  .next (match SMap.find? i.restoring cls with
    | some t => if s.tm.ticks ≥ t then s.setPort port { i with restoring := SMap.del i.restoring cls } else s
    | none => s)

/-! ## Commands (R97, R98) -/

/-- Two ports' lanes overlap. -/
def lanesOverlap (p k q j : Nat) : Bool := decide (p < q + j) && decide (q < p + k)

/-- Some other existing port holds a lane of `p`'s (R75). -/
def State.laneTaken (s : State) (p lanes : Nat) : Bool :=
  s.port.ports.any fun e => e.1 != p && lanesOverlap p (2 ^ lanes) e.1 (2 ^ s.getF F.portCfg_lanes e.1)

/-- A register instance back at its reset value. -/
def State.resetReg (s : State) (r : Reg) (i : Nat) : State := s.wr r i r.resetWord

/-- The fields of PORT_CFG that port.config sets, and the latencies that Criod firmware writes then (R96). -/
def State.writePortCfg (s : State) (port lanes rate fec medium : Nat) (anEn ltEn : Bool) (maxFrame : Nat)
    (ctEn : Bool) : State :=
  let s1 := (((s.setF F.portCfg_enable port 1).setF F.portCfg_lanes port lanes).setF F.portCfg_laneRate port
    rate).setF F.portCfg_fec port fec
  let s2 := (((s1.setF F.portCfg_medium port medium).setB F.portCfg_anEn port anEn).setB F.portCfg_ltEn port
    ltEn).setF F.portCfg_maxFrame port maxFrame
  let s3 := ((s2.setB F.portCfg_ctEn port ctEn).setF F.portCfg_lock port 1).setF F.portStatus_anState port (b2n anEn)
  s3.calibrate port

/-- PORT_CONFIG (R73 to R75, R78, R97, R98): lanes, rate, fec and medium by their codes of PORT_CFG. -/
def execPortConfig (h : CmdHdr) (port lanes laneRate fec medium : Nat) (anEn ltEn : Bool) (maxFrame : Nat)
    (ctEn : Bool) (holdoff : Nat) (s : State) : Host.Outcome State Fault Refusal :=
  .next (s.cmd (.portConfig h port lanes laneRate fec medium anEn ltEn maxFrame ctEn holdoff) h attrNone
    [decide (port < 256) && port % 2 ^ lanes == 0, decide (lanes < 4),
     comboOk lanes laneRate fec, decide (fec < 3), decide (medium < 3), !anEn || medium == 2, !ltEn || medium == 2,
     decide (64 ≤ maxFrame) && decide (maxFrame ≤ 9600), true, decide (holdoff ≤ 10000)]
    fun s =>
      let there := s.portExists port
      if (there && s.getF F.portCfg_lanes port != lanes) || s.laneTaken port lanes then (s, .err eExist)
      else if s.stk.lanes.any fun l => lanesOverlap port (2 ^ lanes) l 8 then (s, .err eExist)
      else
        let changed := there && (s.getF F.portCfg_laneRate port != laneRate || s.getF F.portCfg_fec port != fec
          || s.getF F.portCfg_medium port != medium)
        let s1 := if changed then s.linkFault port else s
        let s2 := (s1.writePortCfg port lanes laneRate fec medium anEn ltEn maxFrame ctEn).setPort port
          { s1.portInfo port with holdoff := holdoff, tsInvalid := false, ability := none, anRestart := none }
        if s2.reservesFit then (s2.lineChanged port, .ok) else (s, .err eNospace))

/-- A next hop, a mirror session or a gate list refers to a port (R98). -/
def State.portReferred (s : State) (p : Nat) : Bool :=
  s.cls.nextHops.any (fun e => e.2.port == p) || s.pk.sessions.any (fun e => e.2.dest == 0 && e.2.port == p)
    || (SMap.find? s.egs.gates p).any fun g => !g.lists.isEmpty

/-- PORT_DELETE (R97, R98, R526). -/
def execPortDelete (h : CmdHdr) (port : Nat) (s : State) : Host.Outcome State Fault Refusal :=
  .next (s.cmd (.portDelete h port) h attrNone [decide (port < 256)] fun s =>
    if !s.portExists port then (s, .err eNoent)
    else if s.portReferred port then (s, .err eState)
    else
      let s1 := s.linkFault port
      let s2 := { s1 with
        port := { s1.port with ports := SMap.del s1.port.ports port },
        cnt := { s1.cnt with windows := SMap.del s1.cnt.windows port },
        egs := { s1.egs with down := s1.egs.down.filter (· != port), revertAt := SMap.del s1.egs.revertAt port } }
      let s3 := (((s2.resetReg .portCfg port).resetReg .portStatus port).resetReg .portTsLatency port).resetReg
        .portEvent port
      (s3.setBit F.egsStatus_nhDown (pipeOf port) (port % 8) false |>.syncSynce, .ok))

/-- A permutation of the eight lanes. -/
def isPerm (l : List Nat) : Bool := l.length == 8 && (List.range 8).all fun i => l.contains i

/-- PORT_LANE_MAP (R76). -/
def execPortLaneMap (h : CmdHdr) (macro_ : Nat) (txOrder : List Nat) (txPol : Nat) (rxOrder : List Nat) (rxPol : Nat)
    (s : State) : Host.Outcome State Fault Refusal :=
  .next (s.cmd (.portLaneMap h macro_ txOrder txPol rxOrder rxPol) h attrNone
      [decide (macro_ < 32), isPerm txOrder, decide (txPol < 256), isPerm rxOrder,
      decide (rxPol < 256)] fun s =>
    if s.port.ports.any fun e => e.1 / 8 == macro_ then (s, .err eState)
    else ({ s with port := { s.port with
      lanes := SMap.set s.port.lanes macro_ ⟨txOrder, txPol, rxOrder, rxPol⟩ } }, .ok))

/-- XOFF ends for the classes that a port no longer protects; for all of them where its mode changes (DESIGN CHOICE: without a
frame, log entry 245). -/
def State.clearXoff (s : State) (port oldMode : Nat) : State :=
  let i := s.portInfo port
  let keep (c : Nat) : Bool := s.getF F.portCfg_fcMode port == oldMode && s.lossless port c
  let bits := (List.range 8).foldl (fun w c => if keep c then w else putBit w c false) (s.getF F.portStatus_txXoff port)
  (s.setF F.portStatus_txXoff port bits).setPort port { i with xoffAt := i.xoffAt.filter fun e => keep e.1 }

/-- PORT_FC_CONFIG (R92, R94, R95, R97, R310). DESIGN CHOICE: the spec gives xoff, xon and headroom no range of their own;
the model
takes any number of cells, and E_NOSPACE is what R94 and R310 say (log entry 246). -/
def execPortFcConfig (h : CmdHdr) (port mode classes xoff xon : Nat) (headroom : List Nat)
    (quanta watchdog restore : Nat) (s : State) : Host.Outcome State Fault Refusal :=
  .next (s.cmd (.portFcConfig h port mode classes xoff xon headroom quanta watchdog restore) h attrNone
    [decide (port < 256), decide (mode < 3), decide (classes < 256), true, true, headroom.length == 8, decide (quanta < 65536),
     decide (10 ≤ watchdog) && decide (watchdog ≤ 10000), decide (restore < 2 ^ 32)]
    fun s =>
      if !s.portExists port then (s, .err eNoent)
      else
        let s1 := (s.setF F.portCfg_fcMode port mode).setPort port { s.portInfo port with
          fcClasses := classes, xoff := xoff, xon := xon, headroom := headroom, quanta := quanta,
          watchdog := watchdog, restore := restore }
        if s1.headroomSum (pipeOf port) > 12288 || !s1.reservesFit then (s, .err eNospace)
        else ((s1.clearXoff port (s.getF F.portCfg_fcMode port)).fcUpdate port, .ok))

/-- PORT_STATUS (R97): PORT_STATUS, the negotiated ability as rate and FEC, and the eye margins of its lanes; zero of a lane
without a sample. -/
def execPortStatus (h : CmdHdr) (port : Nat) (s : State) : Host.Outcome State Fault Refusal :=
  .next (s.cmd (.portStatus h port) h attrS [true] fun s =>
    if !s.portExists port then (s, .err eNoent)
    else
      let eyes := (List.range (2 ^ s.getF F.portCfg_lanes port)).map fun k => SMap.getD (s.portInfo port).eyeMargin k 0
      (s, .val ([(s.rd .portStatus port).toNat, s.portRate port, s.portFec port] ++ eyes)))

end Sys2Proof.Machine
end

