-- ==== Sys2Proof/Machine/Locks.lean ====
section
/-! DEFINITION. What commands that change tables check first: locks of transactions (R259, R263, R604) and the epoch rule
(R163). -/

namespace Sys2Proof.Machine

/-- The transaction that holds a lock. -/
def State.lockHolder (s : State) (l : TxLock) : Option (Nat × Tx) :=
  SMap.first? s.fst.txs fun _ t => t.locks.contains l

/-- The result of a command's own transaction when one of its locks is held: it is the younger (R259), and a holder
under debug hold gives E_CONFLICT_DEBUG (R263). -/
def State.conflict (s : State) (ls : List TxLock) : Option Rsp :=
  match ls.filterMap s.lockHolder with
  | [] => none
  | hs => some (.err (if hs.any (·.2.held) then eConflictDebug else eConflict))

/-- A transaction's outcome counted at its coordinator (R269); outcomes without a counter count nothing. -/
def State.countTx (s : State) (shard code : Nat) : State :=
  if code == 0 then s.count (C.txCommit shard)
  else if code == eConflict then s.count (C.txConflict shard)
  else if code == eConflictDebug then s.count (C.txConflictDebug shard)
  else if code == eTimeout then s.count (C.txTimeout shard)
  else if code == eState then s.count (C.txCondFail shard)
  else if code == eFault then s.count (C.txFault shard)
  else s

/-- A command carried out as one transaction on the rule, forwarding or masked-search tables (R144, R604): its outcome is
counted at a shard that firmware chooses and the spec leaves open (R258). -/
def State.cmdTx (s : State) (c : Instr) (h : CmdHdr) (checks : List Bool) (body : State → State × Rsp) : State :=
  s.cmd c h attrNone checks fun t =>
    let (t1, r) := body t
    let counted := r.code == 0 || r.code == eConflict || r.code == eConflictDebug
    (if counted then t1.draw.countTx (t1.freeVal % 32) r.code else t1, r)

/-- An object is a member of the draining epoch only (R163); in a stack until its swap-complete (R562). -/
def State.oldOnly (s : State) (ep0 ep1 : Bool) : Bool :=
  (s.getB F.clsEpoch_draining || s.stk.swapHold) && (if s.getF F.clsEpoch_active == 1 then ep0 && !ep1 else ep1 && !ep0)

/-- The active epoch. -/
def State.epoch (s : State) : Nat := s.getF F.clsEpoch_active

/-- Membership bits as read by an epoch. -/
def memberOf (ep0 ep1 : Bool) (epoch : Nat) : Bool := if epoch == 0 then ep0 else ep1

/-- A field set alike in every instance of a per-pipeline or per-shard register. -/
def State.setAll (s : State) (f : Fld) (n v : Nat) : State := (List.range n).foldl (fun t i => t.setF f i v) s

end Sys2Proof.Machine
end

