-- ==== Sys2Proof/Machine/Memory.lean ====
section
/-! DEFINITION. How shard addresses map to the in-package memory, which units are poisoned and which pseudo-channels hold
requests (R376 to R380, R387, R388, R396, R397). -/

namespace Sys2Proof.Machine

/-- The global pseudo-channel of a unit of a shard's address space (R376 to R378). -/
def pcOfUnit (shard u : Nat) : Nat :=
  let j := u % 6
  32 * (3 * (shard / 16) + j / 2) + 2 * (shard % 16) + j % 2

/-- The offset of a unit within its pseudo-channel, in bytes (R378). -/
def offsetOfUnit (u : Nat) : Nat := u / 6 * 64

/-- The shard that owns a pseudo-channel, and which of its six it is (R377). -/
def shardOfPc (g : Nat) : Nat × Nat :=
  let stack := g / 32
  let p := g % 32
  (16 * (stack / 3) + p / 2, 2 * (stack % 3) + p % 2)

/-- The shard unit at an offset of a pseudo-channel. -/
def unitOfOffset (g offset : Nat) : Nat × Nat :=
  let (k, j) := shardOfPc g
  (k, 6 * (offset / 64) + j)

/-- The unit of an index bucket (R379). -/
def bucketUnit (gen : Bool) (b : Nat) : Nat := (if gen then 0x20000000 else 0) / 64 + b

/-- The first unit of a record (R379). -/
def heapUnit (handle : Nat) : Nat := 0x40000000 / 64 + handle % 2 ^ 24

/-- The unit of an ageing-bitmap block (R219, R379). -/
def bitmapUnit (block : Nat) : Nat := 0x80000000 / 64 + block

/-- The first unit of a row of the rigs' HBM tables in its slice (R380); rows are 64 bytes. -/
def rigRowUnit (row : Nat) : Nat := 0x81000000 / 64 + row / 32

/-- The units of a record of a size (R199). -/
def recordUnits (handle size : Nat) : List Nat := (List.range (2 ^ size)).map (heapUnit handle + ·)

/-- A shard unit as one number. -/
def unitKey (shard u : Nat) : Nat := 2 ^ 26 * shard + u

/-- A unit is poisoned (R387). -/
def State.poisoned (s : State) (shard u : Nat) : Bool := s.hbm.poison.contains (unitKey shard u)

/-- A unit written whole is poisoned no more (R387). -/
def State.cleanse (s : State) (shard : Nat) (us : List Nat) : State :=
  { s with hbm := { s.hbm with poison := s.hbm.poison.filter fun k => !us.any fun u => unitKey shard u == k } }

/-- A unit written with the poison codeword (R387). -/
def State.poisonUnit (s : State) (shard u : Nat) : State :=
  { s with hbm := { s.hbm with poison := unitKey shard u :: s.hbm.poison.filter (· != unitKey shard u) } }

/-- A stack holds its requests: a retraining window is open or it is in self-refresh (R396, R397). -/
def State.stackHolds (s : State) (stack : Nat) : Bool :=
  SMap.has s.hbm.windows stack || s.hbm.selfRefresh.contains stack

/-- A pseudo-channel holds its requests (R388, R396). -/
def State.pcHolds (s : State) (g : Nat) : Bool := SMap.has s.hbm.freezes g || s.stackHolds (g / 32)

/-- The pseudo-channel that holds one of some units of a shard, if one does. -/
def State.holder (s : State) (shard : Nat) (us : List Nat) : Option Nat :=
  (us.find? fun u => s.pcHolds (pcOfUnit shard u)).map (pcOfUnit shard)

/-- MCX_STATUS.held follows the held requests of a stack (R400). -/
def State.syncHeld (s : State) (stack : Nat) : State :=
  s.setF F.mcxStatus_held stack (Nat.min 65535 (s.hbm.held.filter fun e => e.1 / 32 == stack).length)

/-- A packet's request is held at a pseudo-channel: it counts once (R399, R400). -/
def State.holdRequest (s : State) (g pkt : Nat) : State :=
  if s.hbm.held.contains (g, pkt) then s
  else
    (({ s with hbm := { s.hbm with held := s.hbm.held ++ [(g, pkt)] } }).syncHeld (g / 32)).count (C.mcxHeldReq (g / 32))

/-- The held requests of a stack whose pseudo-channel holds them no longer issue again. -/
def State.releaseHeld (s : State) (stack : Nat) : State :=
  ({ s with hbm := { s.hbm with
    held := s.hbm.held.filter fun e => e.1 / 32 != stack || s.pcHolds e.1 } }).syncHeld stack

/-- A corrected error of a unit of a pseudo-channel (R386). -/
def State.hbmCorrected (s : State) (g unit : Nat) : State :=
  let stack := g / 32
  let s1 := (s.count (C.mcxCe g)).setF F.mcxEvent_ceSeen stack 1
  let s2 := if s1.getB F.mcxCeCapture_valid stack then s1
    else ((s1.setF F.mcxCeCapture_valid stack 1).setF F.mcxCeCapture_pc stack (g % 32)).setF F.mcxCeCapture_unit stack unit
  s2.sendFault { s2.faultArg 0x2001 g 0 0 with addr := g * 2 ^ 29 + 64 * unit, access := 0 }

end Sys2Proof.Machine
end

