-- ==== Sys2Proof/Machine/Bpm.lean ====
section
/-! DEFINITION. Record pools and control pools: the buffer pool manager (R249 to R256, R268, R270). -/

namespace Sys2Proof.Machine

/-! ## Free lists -/

/-- How many handles a free list holds. -/
def Ranges.count (r : Ranges) : Nat := r.foldl (fun a e => a + e.2) 0

/-- The `i`-th handle of a free list taken out; handles of a run lie `step` apart. -/
def Ranges.take (step : Nat) : Ranges → Nat → Option (Nat × Ranges)
  | [], _ => none
  | (a, n) :: rest, i =>
    if i < n then
      let lo : Ranges := if i > 0 then [(a, i)] else []
      let hi : Ranges := if n - i - 1 > 0 then [(a + (i + 1) * step, n - i - 1)] else []
      some (a + i * step, lo ++ hi ++ rest)
    else (Ranges.take step rest (i - n)).map fun e => (e.1, (a, n) :: e.2)

/-- A free list without the handle that covers a unit. -/
def Ranges.without (step unit : Nat) : Ranges → Ranges
  | [] => []
  | (a, n) :: rest =>
    if a ≤ unit && unit < a + n * step then
      match Ranges.take step [(a, n)] ((unit - a) / step) with
      | some (_, r) => r ++ rest
      | none => (a, n) :: rest
    else (a, n) :: Ranges.without step unit rest

/-- The key of a shard's list or cache of a heap pool. -/
def poolKey (shard p : Nat) : Nat := 4 * shard + p

/-- A shard's free list of a heap pool. -/
def State.freeList (s : State) (shard p : Nat) : Ranges := SMap.getD s.fst.free (poolKey shard p) []

/-- Free handles of a heap pool in the 32 lists (R250). -/
def State.globalFree (s : State) (p : Nat) : Nat :=
  (List.range 32).foldl (fun a k => a + (s.freeList k p).count) 0

/-- A shard's cache of a heap pool (R251). -/
def State.hCache (s : State) (shard p : Nat) : List Nat := SMap.getD s.fst.caches (poolKey shard p) []

/-- A shard's cache set. -/
def State.setCache (s : State) (shard p : Nat) (l : List Nat) : State :=
  { s with fst := { s.fst with caches := SMap.put [] s.fst.caches (poolKey shard p) l } }

/-- BPM_HEAP_FREE and BPM_STATUS.heap_empty follow the lists; a list set that empties leaves heap_empty_seen. -/
def State.syncHeap (s : State) (p : Nat) : State :=
  let n := s.globalFree p
  let was := s.getF F.bpmHeapFree_free p
  let s1 := (s.setF F.bpmHeapFree_free p n).setBit F.bpmStatus_heapEmpty 0 p (n == 0)
  if n == 0 && was > 0 then s1.setF F.bpmEvent_heapEmptySeen 0 1 else s1

/-- A shard's free list set. -/
def State.setList (s : State) (shard p : Nat) (r : Ranges) : State :=
  ({ s with fst := { s.fst with free := SMap.put [] s.fst.free (poolKey shard p) r } }).syncHeap p

/-- One handle taken from a shard's free list: which of its handles is left open (log entry 4). -/
def State.takeList (s : State) (shard p : Nat) : State × Option Nat :=
  let r := s.freeList shard p
  if r.count == 0 then (s, none)
  else
    match r.take (2 ^ p) (s.freeVal % r.count) with
    | none => (s, none)
    | some (h, rest) => (s.draw.setList shard p rest, some h)

/-- The other partition with the most free handles of a pool; of equal ones the lowest. -/
def State.richest (s : State) (but p : Nat) : Nat :=
  (List.range 32).foldl (fun b k =>
    if k != but && (b == but || (s.freeList k p).count > (s.freeList b p).count) then k else b) but

/-- A pool's handles are recalled from the shard caches, once at a time (R253). -/
def State.startRecall (s : State) (p : Nat) : State :=
  if !s.getB F.bpmCtrl_recallEn || s.getBit F.bpmStatus_recall 0 p
      || (List.range 32).all fun k => (s.hCache k p).isEmpty then s
  else ((s.setBit F.bpmStatus_recall 0 p true).setF F.bpmEvent_recallSeen 0 1).count C.bpmRecall

/-- Handles granted to a requester on a demand request (R251). -/
def State.grants (s : State) (requester p : Nat) : List Nat := SMap.getD s.fst.granted (poolKey requester p) []

/-- A requester's granted handles set. -/
def State.setGrants (s : State) (requester p : Nat) (l : List Nat) : State :=
  { s with fst := { s.fst with granted := SMap.put [] s.fst.granted (poolKey requester p) l } }

/-- A handle of a pool that a requester has at hand: one granted on demand, else, for a shard, one of its cache (R250 step 1,
R251). The Criod complex, requester 32, has no cache (R252). -/
def State.takeOwn (s : State) (requester p : Nat) : State × Option Nat :=
  match s.grants requester p, s.hCache requester p with
  | h :: rest, _ => (s.setGrants requester p rest, some h)
  | [], h :: rest => (s.setCache requester p rest, some h)
  | [], [] => (s, none)

/-- A handle of one pool for a requester, the record's owner to be `shard`: one at hand, the shard's list, then the richest
other list (R250 steps 1 to 3). -/
def State.takeFromPool (s : State) (requester shard p : Nat) : State × Option Nat :=
  match s.takeOwn requester p with
  | (s0, some h) => (s0, some h)
  | (s, none) =>
    match s.takeList shard p with
    | (s1, some h) => (s1, some h)
    | (s1, none) =>
      if s1.getB F.bpmCtrl_remoteEn then
        match s1.takeList (s1.richest shard p) p with
        | (s2, some h) => (s2.count C.bpmRemoteAlloc, some h)
        | (s2, none) => (s2.startRecall p, none)
      else (if s1.globalFree p == 0 then s1.startRecall p else s1, none)

/-- A handle of the smallest pool that fits a record size, larger pools after it: the handle and the pool (R250). -/
def State.takeHandle (s : State) (requester shard size : Nat) : State × Option (Nat × Nat) :=
  go s ([0, 1, 2].drop size)
where
  /-- The pools tried in turn. -/
  go (s : State) : List Nat → State × Option (Nat × Nat)
    | [] => (s, none)
    | p :: ps =>
      match s.takeFromPool requester shard p with
      | (s1, some h) => (s1, some (h, p))
      | (s1, none) => go (if ps.isEmpty then s1 else s1.count (C.bpmFallback p)) ps

/-- A failed allocation reports a severity S0 fault at most once per second per shard (R250). -/
def State.noHeap (s : State) (shard : Nat) : State :=
  let s1 := s.count (C.fstSetupNoheap shard)
  match SMap.find? s.fst.noheapAt shard with
  | some t =>
    if s.now < t + 1000000000 then s1
    else { s1 with fst := { s1.fst with noheapAt := SMap.set s1.fst.noheapAt shard s.now } }.raise 0x8005 shard
  | none => { s1 with fst := { s1.fst with noheapAt := SMap.set s1.fst.noheapAt shard s.now } }.raise 0x8005 shard

/-! ## Handle checks (R255) -/

/-- The offset at which a heap pool begins in a partition (R249): full, standard, lean. -/
def State.poolBase (s : State) (p : Nat) : Nat :=
  let (_, n128, n256) := s.fst.heapCfg
  if p == 2 then 0 else if p == 1 then 4 * n256 else 4 * n256 + 2 * n128

/-- The handles of a heap pool in a partition. -/
def State.poolSize (s : State) (p : Nat) : Nat :=
  if p == 2 then s.fst.heapCfg.2.2 else if p == 1 then s.fst.heapCfg.2.1 else s.fst.heapCfg.1

/-- The pool that a heap handle's position names; none beyond the partition. -/
def State.poolOf (s : State) (handle : Nat) : Option Nat :=
  let off := handle % 2 ^ 24
  [2, 1, 0].find? fun p => decide (s.poolBase p ≤ off) && decide (off < s.poolBase p + s.poolSize p * 2 ^ p)

/-- The check a heap handle fails: 0 range, 1 alignment. -/
def State.badHeap (s : State) (handle : Nat) : Option Nat :=
  if handle ≥ 2 ^ 29 then some 0
  else match s.poolOf handle with
    | none => some 0
    | some p => if (handle % 2 ^ 24 - s.poolBase p) % 2 ^ p != 0 then some 1 else none

/-- A rejected handle is counted, captured and reported (R255, R270). op: 0 free, 1 presented to a shard, 2 presented to
a command, 3 refcount change. -/
def State.rejectHandle (s : State) (handle chk op requester : Nat) : State :=
  let s1 := (s.count C.bpmBadHandle).setF F.bpmEvent_badHandleSeen 0 1
  let held := bitOf (s1.getF F.bpmBadCapture_value 1) 31
  let s2 := if held then s1
    else (s1.setF F.bpmBadCapture_value 0 handle).setF F.bpmBadCapture_value 1
      (1 <<< 31 + trunc 3 chk <<< 28 + trunc 4 op <<< 24 + trunc 8 requester <<< 16)
  s2.raise 0x1801 0 handle

/-- A heap handle goes back to its owning shard's cache; at 64 the shard returns 32 to its list (R251, R256). A retired
handle is never reused (R226). -/
def State.freeHandle (s : State) (handle : Nat) : State :=
  if s.fst.retired.contains handle then s
  else match s.badHeap handle, s.poolOf handle with
    | none, some p =>
      let k := handle / 2 ^ 24
      let c := handle :: s.hCache k p
      if c.length ≥ 64 then
        (s.setCache k p (c.drop 32)).setList k p ((c.take 32).map (fun h => (h, 1)) ++ s.freeList k p)
      else s.setCache k p c
    | chk, _ => s.rejectHandle handle (chk.getD 0) 0 (handle / 2 ^ 24 % 32)

/-! ## Control pools (R254) -/

/-- The 256-byte units of a control pool's buffer. -/
def ctrlUnits (p : Nat) : Nat := if p == 0 then 1 else if p == 1 then 8 else if p == 2 then 64 else 256

/-- Where a control pool begins, in 256-byte units: the largest pool first, so that every buffer is aligned (log entry
38). -/
def State.ctrlBase (s : State) (p : Nat) : Nat :=
  ([3, 2, 1, 0].takeWhile (· != p)).foldl (fun a q => a + s.fst.ctrlCfg.getD q 0 * ctrlUnits q) 0

/-- BPM_CTRL_FREE and BPM_STATUS.ctrl_empty follow the control pools. -/
def State.syncCtrl (s : State) (p : Nat) : State :=
  let n := (SMap.getD s.fst.ctrlFree p []).count
  let was := s.getF F.bpmCtrlFree_free p
  let s1 := (s.setF F.bpmCtrlFree_free p n).setBit F.bpmStatus_ctrlEmpty 0 p (n == 0)
  if n == 0 && was > 0 then s1.setF F.bpmEvent_ctrlEmptySeen 0 1 else s1

/-- A control buffer of one pool for a requester. -/
def State.takeCtrlOf (s : State) (p requester : Nat) : State × Option Nat :=
  let r := SMap.getD s.fst.ctrlFree p []
  if r.count == 0 then (s, none)
  else
    match r.take (ctrlUnits p) (s.freeVal % r.count) with
    | none => (s, none)
    | some (off, rest) =>
      let h := p * 2 ^ 30 + off
      let s1 := s.draw
      (({ s1 with fst := { s1.fst with
          ctrlFree := SMap.put [] s1.fst.ctrlFree p rest
          ctrlBufs := SMap.set s1.fst.ctrlBufs h (requester, 1) } }).syncCtrl p, some h)

/-- A control buffer for `bytes` bytes beside the 8 reserved ones: the smallest pool that fits, then larger ones
(R254). -/
def State.takeCtrl (s : State) (bytes requester : Nat) : State × Option Nat :=
  go s ([0, 1, 2, 3].filter fun p => decide (bytes + 8 ≤ 256 * ctrlUnits p))
where
  /-- The pools tried in turn. -/
  go (s : State) : List Nat → State × Option Nat
    | [] => (s, none)
    | p :: ps =>
      match s.takeCtrlOf p requester with
      | (s1, some h) => (s1, some h)
      | (s1, none) => go (if p < 3 && !ps.isEmpty then s1.count (C.bpmCtrlFallback p) else s1) ps

/-- The check a control handle fails. -/
def State.badCtrl (s : State) (handle : Nat) : Option Nat :=
  let p := handle / 2 ^ 30
  let off := handle % 2 ^ 25
  if handle ≥ 2 ^ 32 || bitsOf handle 29 25 != 0 || off < s.ctrlBase p
      || off ≥ s.ctrlBase p + s.fst.ctrlCfg.getD p 0 * ctrlUnits p then some 0
  else if (off - s.ctrlBase p) % ctrlUnits p != 0 then some 1 else none

/-- A control buffer goes back to its pool. -/
def State.freeCtrl (s : State) (handle requester : Nat) : State :=
  match s.badCtrl handle with
  | some c => s.rejectHandle handle c 0 requester
  | none =>
    if !SMap.has s.fst.ctrlBufs handle then s.rejectHandle handle 2 0 requester
    else
      let p := handle / 2 ^ 30
      let r := (handle % 2 ^ 25, 1) :: SMap.getD s.fst.ctrlFree p []
      ({ s with fst := { s.fst with
        ctrlFree := SMap.set s.fst.ctrlFree p r, ctrlBufs := SMap.del s.fst.ctrlBufs handle } }).syncCtrl p

/-! ## Events -/

/-- The arbiter of a pool: 0 to 2 heap, 3 to 6 control (R252). -/
def arbKey (ctrl : Bool) (p : Nat) : Nat := if ctrl then 3 + p else p

/-- Requesters in rank order from the pointer on (R252). -/
def rankFrom (ptr : Nat) (rs : List Nat) : List Nat :=
  (List.range 36).filterMap fun i => if rs.contains ((ptr + i) % 36) then some ((ptr + i) % 36) else none

/-- Who may request from a pool (R252, R254). -/
def mayRequest (ctrl : Bool) (r : Nat) : Bool := if ctrl then decide (32 ≤ r) && decide (r < 36) else decide (r < 33)

/-- One demand request granted, or refused: a heap handle of the requester's own list, else of the richest other where that is
permitted, a control buffer of the pool (R250, R254, R270). -/
def State.grantDemand (s : State) (ctrl : Bool) (p r : Nat) : State × Bool :=
  if ctrl then
    let (s1, h) := s.takeCtrlOf p r
    (s1, h.isSome)
  else
    let own := decide (r < 32) && decide ((s.freeList r p).count > 0)
    if !own && r < 32 && !s.getB F.bpmCtrl_remoteEn then (s, false)
    else
      let from_ := if own then r else s.richest (if r < 32 then r else 32) p
      match s.takeList from_ p with
      | (s1, some h) => ((if own then s1 else s1.count C.bpmRemoteAlloc).setGrants r p (s1.grants r p ++ [h]), true)
      | (s1, none) => (s1, false)

/-- Requesters served in rank order: those granted and those refused. -/
def State.grantAll (s : State) (ctrl : Bool) (p : Nat) : List Nat → State × List Nat × List Nat
  | [] => (s, [], [])
  | r :: rs =>
    let (s1, ok) := s.grantDemand ctrl p r
    let (s2, won, lost) := State.grantAll s1 ctrl p rs
    if ok then (s2, r :: won, lost) else (s2, won, r :: lost)

/-- Demand requests of one cycle for a pool, arbitrated by rank; those refused go on to the next larger pool, and where there is
none a shard's request fails with NOHEAP (R250, R252, R253). -/
def State.demand (s : State) (ctrl : Bool) : List Nat → List Nat → State
  | [], rs => if ctrl then s else (rs.filter (· < 32)).foldl State.noHeap s
  | p :: ps, rs =>
    if rs.isEmpty then s
    else
      let (s1, won, lost) := s.grantAll ctrl p (rankFrom (SMap.getD s.fst.arb (arbKey ctrl p) 0) rs)
      let s2 := match lost.isEmpty, won.getLast? with
        | false, some w =>
          let t := { s1 with fst := { s1.fst with arb := SMap.put 0 s1.fst.arb (arbKey ctrl p) ((w + 1) % 36) } }
          (((t.setF F.bpmStatus_arbPtr 0 ((w + 1) % 36)).setF F.bpmEvent_raceSeen 0 1).count C.bpmRaceLost lost.length)
        | _, _ => s1
      let s3 := if !lost.isEmpty && !ctrl && s2.globalFree p == 0 then s2.startRecall p else s2
      let s4 := if lost.isEmpty || ps.isEmpty then s3
        else if ctrl then s3.count (C.bpmCtrlFallback p) lost.length else s3.count (C.bpmFallback p) lost.length
      State.demand s4 ctrl ps lost

/-- BPM_DEMAND_REQUEST (R250, R252 to R254): demand requests of one cycle for one pool. -/
def execBpmDemandRequest (ctrl : Bool) (pool : Nat) (requesters : List Nat) (s : State) :
    Host.Outcome State Fault Refusal :=
  .next (s.demand ctrl ((if ctrl then [0, 1, 2, 3] else [0, 1, 2]).drop pool) (requesters.filter (mayRequest ctrl)))

/-- Handles moved from a shard's list to its cache, at most `n`. -/
def State.refill (s : State) (shard p : Nat) : Nat → State
  | 0 => s
  | n + 1 =>
    match s.takeList shard p with
    | (s1, some h) => State.refill (s1.setCache shard p (s1.hCache shard p ++ [h])) shard p n
    | (s1, none) => s1

/-- BPM_BATCH_REFILL (R251): a cache below 16 takes a batch of 32, one at 64 returns 32. -/
def execBpmBatchRefill (shard pool : Nat) (s : State) : Host.Outcome State Fault Refusal :=
  let c := s.hCache shard pool
  .next (if shard ≥ 32 || pool > 2 then s
    else if c.length < 16 then s.refill shard pool 32
    else if c.length ≥ 64 then
      (s.setCache shard pool (c.drop 32)).setList shard pool ((c.take 32).map (fun h => (h, 1)) ++ s.freeList shard pool)
    else s)

/-- BPM_RECALL_COMPLETE (R253): each shard has returned half its cached handles of a recalled pool. -/
def execBpmRecallComplete (pool : Nat) (s : State) : Host.Outcome State Fault Refusal :=
  .next (if !s.getBit F.bpmStatus_recall 0 pool || pool > 2 then s
    else
      let back := fun (t : State) (k : Nat) =>
        let c := t.hCache k pool
        let n := c.length / 2
        (t.setCache k pool (c.drop n)).setList k pool ((c.take n).map (fun h => (h, 1)) ++ t.freeList k pool)
      ((List.range 32).foldl back s).setBit F.bpmStatus_recall 0 pool false)

/-! ## Commands (R268) -/

/-- Some record is live. -/
def State.anyLive (s : State) : Bool := (List.range 32).any fun k => s.getF F.fstLive_live k > 0

/-- BPM_HEAP_CONFIG (R218, R249). -/
def execBpmHeapConfig (h : CmdHdr) (n64 n128 n256 : Nat) (s : State) : Host.Outcome State Fault Refusal :=
  .next (s.cmd (.bpmHeapConfig h n64 n128 n256) h attrO [decide (n64 ≤ 2 ^ 24), decide (n64 + 2 * n128 ≤ 2 ^ 24),
      decide (n64 + 2 * n128 + 4 * n256 ≤ 2 ^ 24)
        && !(decide (32 * 64 * (n64 + 2 * n128 + 4 * n256) > 2 ^ 32) && s.cls.flowProf.any fun e =>
          bitOf (wordAt e.2 7) 31 && !bitOf (wordAt e.2 7) 21)] fun s =>
    if s.anyLive then (s, .err eBusy)
    else
      let s1 := { s with fst := { s.fst with heapCfg := (n64, n128, n256), free := [], caches := [], granted := [] } }
      let fill := fun (t : State) (k : Nat) => [0, 1, 2].foldl (fun u p =>
        if u.poolSize p == 0 then u
        else
          let all : Ranges := [(k * 2 ^ 24 + u.poolBase p, u.poolSize p)]
          let ok := u.fst.retired.foldl (fun r x => Ranges.without (2 ^ p) x r) all
          { u with fst := { u.fst with free := SMap.put [] u.fst.free (poolKey k p) ok } }) t
      let s2 := (List.range 32).foldl fill s1
      (((s2.syncHeap 0).syncHeap 1).syncHeap 2, .ok))

/-- BPM_CTRL_CONFIG (R254, R380): at most 7,424 MiB of buffers. -/
def execBpmCtrlConfig (h : CmdHdr) (counts : List Nat) (s : State) : Host.Outcome State Fault Refusal :=
  .next (s.cmd (.bpmCtrlConfig h counts) h attrO
      [counts.length == 4 && decide ((counts.zipIdx.foldl (fun a e => a + e.1 * ctrlUnits e.2) 0) * 256
      ≤ 7424 * 2 ^ 20)] fun s =>
    if !s.fst.ctrlBufs.isEmpty then (s, .err eBusy)
    else
      let s1 := { s with fst := { s.fst with ctrlCfg := counts, ctrlFree := [] } }
      let fill := fun (t : State) (p : Nat) =>
        if t.fst.ctrlCfg.getD p 0 == 0 then t.syncCtrl p
        else ({ t with fst := { t.fst with
          ctrlFree := SMap.set t.fst.ctrlFree p [(t.ctrlBase p, t.fst.ctrlCfg.getD p 0)] } }).syncCtrl p
      ([0, 1, 2, 3].foldl fill s1, .ok))

/-- BPM_STATUS (R268): free handles per pool and list, cache occupancy per shard, recall state. -/
def execBpmStatus (h : CmdHdr) (s : State) : Host.Outcome State Fault Refusal :=
  .next (s.cmd (.bpmStatus h) h attrNone [] fun s =>
    let lists := (List.range 96).map fun i => (s.freeList (i / 3) (i % 3)).count
    let ctrl := (List.range 4).map fun p => (SMap.getD s.fst.ctrlFree p []).count
    let caches := (List.range 96).map fun i => (s.hCache (i / 3) (i % 3)).length
    (s, .val (lists ++ ctrl ++ caches ++ [s.getF F.bpmStatus_recall])))

end Sys2Proof.Machine
end

