-- ==== Sys2Proof/Machine/Rings.lean ====
section
/-! DEFINITION. DMA rings and notifications (R458 to R465): how a record or a copy reaches a ring, the ring's vector, the
ring commands and the writing of notifications. -/

namespace Sys2Proof.Machine

/-! ## Ring places (R458, R461) -/

/-- A ring as it is configured. -/
def State.ring (s : State) (r : Nat) : Ring := SMap.getD s.host.rings r Ring.reset

/-- A ring changed. -/
def State.setRing (s : State) (r : Nat) (v : Ring) : State :=
  { s with host := { s.host with rings := SMap.set s.host.rings r v } }

/-- A ring's slots. -/
def Ring.size (r : Ring) : Nat := 2 ^ r.logSlots

/-- Slots between a ring's consumer and producer index. -/
def Ring.used (r : Ring) : Nat := (r.producer + r.size - r.consumer) % r.size

/-- The producer index moved on by `n` slots; the phase is inverted on each wrap. -/
def Ring.advance (r : Ring) (n : Nat) : Ring :=
  { r with producer := (r.producer + n) % r.size, phase := if r.producer + n ≥ r.size then !r.phase else r.phase }

/-- The device may write to host memory: not in D3hot and not under dma_stop (R442, R474). -/
def State.dmaOn (s : State) : Bool := !s.getB F.pciStatus_d3hot && !s.getB F.pciCtrl_dmaStop

/-- A record or copy that no ring takes is dropped and counted (R458). -/
def State.ringDrop (s : State) (r : Nat) : State := (s.count (C.ringDrops r)).mbxEvent F.mbxEvent_ringDropSeen

/-- The condition under which an armed ring's vector is raised (R461). -/
def State.ringDue (s : State) (r : Ring) : Bool :=
  match r.pending with
  | [] => false
  | (_, t) :: _ => decide (r.pending.length ≥ r.coalesceCount) || decide (s.now ≥ t + 1000 * r.coalesceUs)

/-- An armed ring whose condition holds raises its vector once and is disarmed (R461). -/
def State.ringVector (s : State) (n : Nat) : State :=
  let r := s.ring n
  if r.armed && s.ringDue r then (s.setRing n { r with armed := false }).raiseVector r.vector else s

/-- Whether a record of `k` slots finds a ring of a type enabled and with room (R458). -/
def State.ringTakes (s : State) (n rtype k : Nat) : Bool :=
  let r := s.ring n
  s.dmaOn && r.enabled && r.rtype == rtype && decide (r.used + k < r.size)

/-- A record begins at the producer index and takes `k` slots. -/
def State.ringPut (s : State) (n k : Nat) : State :=
  let r := s.ring n
  ((s.setRing n { r.advance k with pending := r.pending ++ [(r.producer, s.now)] }).count (C.ringRecords n)).ringVector n

/-! ## RX slots (R459) -/

/-- Word 3 of an RX slot's header. -/
def rxSlotHeader (phase : Bool) (length : Nat) : List Nat :=
  List.replicate 12 0 ++ bytesLE 4 (b2n phase <<< 31 + length % 4096)

/-- A ring copy is written to an RX ring, or dropped: the copy is its 64-byte header and its data (R458, R459). -/
def State.ringCopyTo (s : State) (n : Nat) (copy : List Nat) : State × Bool :=
  if s.ringTakes n 1 1 then
    let r := s.ring n
    ((s.emit (.ringSlot n r.producer (rxSlotHeader r.phase copy.length ++ copy))).ringPut n 1, true)
  else (s.ringDrop n, false)

/-! ## Notifications (R462 to R465) -/

/-- The slots of a notification record. -/
def NotifRec.slots (r : NotifRec) : Nat := 1 + ceilDiv (r.payload.length - 16) 32

/-- Word 7 of a notification's first slot. -/
def notifWord7 (phase : Bool) (slots kind source : Nat) : Nat :=
  b2n phase <<< 31 + (slots - 1) <<< 28 + kind <<< 24 + source

/-- The bytes of a record's first slot: payload bytes 0 to 15, then words 4 to 7 (R462). -/
def NotifRec.first (r : NotifRec) (phase : Bool) : List Nat :=
  bytesAt r.payload 0 16 ++ bytesLE 4 r.sec ++ bytesLE 4 (b2n r.unlocked <<< 31 + b2n r.late <<< 30 + r.ns % 2 ^ 30)
    ++ bytesLE 4 r.seq ++ bytesLE 4 (notifWord7 phase r.slots r.kind (r.cls <<< 12 + r.index))

/-- The slots after the first, then the first, in the order they are written. -/
def NotifRec.slotBytes (r : NotifRec) (slot : Nat) (phase : Bool) : List (Nat × List Nat) :=
  ((List.range (r.slots - 1)).map fun i => (slot + 1 + i, bytesAt r.payload (16 + 32 * i) 32)) ++ [(slot, r.first phase)]

/-- A notification record is written into a NOTIFY ring, after a pad record where it would wrap, or dropped (R458,
R462). -/
def State.notifyRing (s : State) (n : Nat) (rec_ : NotifRec) : State :=
  let r := s.ring n
  let k := rec_.slots
  let left := r.size - r.producer
  let pad := if left < k then left else 0
  if s.ringTakes n 0 (pad + k) then
    let s1 := if pad > 0 then
        (s.emit (.ringSlot n r.producer (List.replicate 28 0 ++ bytesLE 4 (notifWord7 r.phase pad 0 0)))).setRing n
          (r.advance pad)
      else s
    let r1 := s1.ring n
    ((rec_.slotBytes r1.producer r1.phase).foldl (fun t e => t.emit (.ringSlot n e.1 e.2)) s1).ringPut n k
  else s.ringDrop n

/-- Where a record goes (R153, R240, R465). -/
def State.notifDest (s : State) (rec_ : NotifRec) : NotifTo :=
  match rec_.cls with
  | 0 => if s.getB F.clsCtrl_learnToHost rec_.index then .ring (s.getF F.clsCtrl_learnRing rec_.index) else .firmware
  | 1 => .firmware
  | 4 => SMap.getD s.host.bindings 4 .none
  | c => SMap.getD s.host.bindings c .firmware

/-- NOTIFICATION_WRITE (R28, R462 to R465): the oldest record waiting goes to its destination. -/
def execNotificationWrite (s : State) : Host.Outcome State Fault Refusal :=
  .next (match s.host.notifQ with
    | [] => s
    | rec_ :: rest =>
      let s1 := { s with host := { s.host with notifQ := rest } }
      match s1.notifDest rec_ with
      | .ring n => s1.notifyRing n rec_
      | .firmware => { s1 with host := { s1.host with fwInbox := s1.host.fwInbox ++ [rec_] } }
      | .none => s1)

/-- RING_COALESCE_TIMER (R461). -/
def execRingCoalesceTimer (ring : Nat) (s : State) : Host.Outcome State Fault Refusal := .next (s.ringVector ring)

/-! ## Doorbell and commands -/

/-- MBX_ERR_CAPTURE takes an error while it holds none (R475). -/
def State.mbxCapture (s : State) (kind unit value : Nat) : State :=
  if s.getB F.mbxErrCapture_valid then s
  else (((s.setF F.mbxErrCapture_valid 0 1).setF F.mbxErrCapture_kind 0 kind).setF F.mbxErrCapture_unit 0 unit).setF
    F.mbxErrCapture_value 0 value

/-- A rejected doorbell (R450). -/
def State.badDoorbell (s : State) (kind unit value : Nat) : State :=
  (s.mbxEvent F.mbxEvent_badDoorbellSeen).mbxCapture kind unit value

/-- Whether a ring index may be taken: below the size, the consumer not past the producer, the producer of a TX ring not
reaching the consumer (R450, R458, R475). -/
def Ring.indexOk (r : Ring) (index : Nat) : Bool :=
  decide (index < r.size) &&
    (if r.rtype == 2 then decide (r.used + (index + r.size - r.producer) % r.size < r.size)
     else decide ((index + r.size - r.consumer) % r.size ≤ r.used))

/-- A record's first slot lies at or beyond a new consumer index. -/
def Ring.beyond (r : Ring) (index slot : Nat) : Bool :=
  decide ((slot + r.size - index) % r.size < (r.producer + r.size - index) % r.size)

/-- A write of RING_DB (R458, R461, R475). -/
def State.ringDoorbell (s : State) (ring : Nat) (arm : Bool) (index : Nat) : State :=
  let r := s.ring ring
  if ring ≥ 64 then s
  else if !r.enabled || !r.indexOk index then s.badDoorbell 2 ring index
  else
    let r1 := if r.rtype == 2 then { r with producer := index }
      else { r with consumer := index, pending := r.pending.filter fun e => r.beyond index e.1 }
    (s.setRing ring { r1 with armed := r1.armed || arm }).ringVector ring

/-- RING_DOORBELL (R458, R461, R475). -/
def execRingDoorbell (ring : Nat) (arm : Bool) (index : Nat) (s : State) : Host.Outcome State Fault Refusal :=
  .next (s.ringDoorbell ring arm index)

/-- PCI_DMA_STATUS.rings_en counts the enabled rings. -/
def State.syncRings (s : State) : State :=
  s.setF F.pciDmaStatus_ringsEn 0 (s.host.rings.filter fun e => e.2.enabled).length

/-- RING_CONFIG (R458, R471): the 64-bit base takes two inline words; with enable clear the other parameters are ignored
(log entry 40). -/
def execRingConfig (h : CmdHdr) (ring rtype base n slotSize vector count us : Nat) (enable : Bool) (s : State) :
    Host.Outcome State Fault Refusal :=
  let off := !enable
  .next (s.cmd (.ringConfig h ring rtype base n slotSize vector count us enable) h attrO
      [decide (ring < 64), off || decide (rtype < 3), off || base % 4096 == 0,
      off || decide (base < 2 ^ 64), off || (decide (6 ≤ n) && decide (n ≤ 16)),
      off || (if rtype == 1 then slotSize == 1024 || slotSize == 2048 else slotSize == 32),
      off || (decide (16 ≤ vector) && decide (vector < 256)), off || (decide (1 ≤ count) && decide (count ≤ 65535)),
      off || decide (us ≤ 65535)] fun s =>
    let r := s.ring ring
    if off then ((s.setRing ring { r with enabled := false }).syncRings, .ok)
    else if r.enabled then (s, .err eBusy)
    else ((s.setRing ring ⟨rtype, base, n, slotSize, vector, count, us, true, 0, 0, true, true, []⟩).syncRings, .ok))

/-- RING_BIND (R465, R471). -/
def execRingBind (h : CmdHdr) (cls : Nat) (dest : NotifTo) (s : State) : Host.Outcome State Fault Refusal :=
  .next (s.cmd (.ringBind h cls dest) h attrO [decide (2 ≤ cls) && decide (cls ≤ 4), match dest with
      | .ring r => decide (r < 64)
      | _ => true] fun s =>
    ({ s with host := { s.host with bindings := SMap.set s.host.bindings cls dest } }, .ok))

/-- RING_STATUS (R471, R472). -/
def execRingStatus (h : CmdHdr) (ring : Nat) (s : State) : Host.Outcome State Fault Refusal :=
  .next (s.cmd (.ringStatus h ring) h attrNone [decide (ring < 64)] fun s =>
    let r := s.ring ring
    let two (v : Nat) : List Nat := [v % 2 ^ 32, v / 2 ^ 32]
    (s, .val ([r.producer, r.consumer, b2n r.armed] ++ two (s.ctr (C.ringRecords ring)).value
      ++ two (s.ctr (C.ringDrops ring)).value)))

end Sys2Proof.Machine
end

