-- ==== Sys2Proof/Machine/Rules.lean ====
section
/-! DEFINITION. The rule and forwarding tables as functions: actions, cuckoo placement, lookups, LPM, ECMP, flow-profile
fields (R136 to R157). -/

namespace Sys2Proof.Machine

/-! ## Actions (R146) -/

def aSetProfile (a : List Nat) : Bool := bitOf (wordAt a 3) 31
def aProfile (a : List Nat) : Nat := bitsOf (wordAt a 3) 30 25
def aSetVrf (a : List Nat) : Bool := bitOf (wordAt a 3) 24
def aVrf (a : List Nat) : Nat := bitsOf (wordAt a 3) 23 0
def aFwdOp (a : List Nat) : Nat := bitsOf (wordAt a 2) 31 30
def aTrap (a : List Nat) : Bool := bitOf (wordAt a 2) 29
def aMirrorEn (a : List Nat) : Bool := bitOf (wordAt a 2) 28
def aMirrorSession (a : List Nat) : Nat := bitsOf (wordAt a 2) 27 22
def aSetClass (a : List Nat) : Bool := bitOf (wordAt a 2) 21
def aClass (a : List Nat) : Nat := bitsOf (wordAt a 2) 20 18
def aFwdTarget (a : List Nat) : Nat := bitsOf (wordAt a 2) 17 0
def aSampleEn (a : List Nat) : Bool := bitOf (wordAt a 1) 31
def aSampleN (a : List Nat) : Nat := bitsOf (wordAt a 1) 30 7 + 1
def aRigMeta (a : List Nat) : Nat := wordAt a 0

/-- An action is four 32-bit words with its reserved bits zero. -/
def actionOk (a : List Nat) : Bool :=
  a.length == 4 && a.all (fun w => decide (w < 2 ^ 32)) && bitsOf (wordAt a 1) 6 0 == 0

/-! ## Flow profiles (R156) -/

def pValid (p : List Nat) : Bool := bitOf (wordAt p 7) 31
def pEp1 (p : List Nat) : Bool := bitOf (wordAt p 7) 30
def pEp0 (p : List Nat) : Bool := bitOf (wordAt p 7) 29
def pRecSize (p : List Nat) : Nat := bitsOf (wordAt p 7) 28 27
def pSetupMode (p : List Nat) : Nat := bitsOf (wordAt p 7) 26 25
def pMissForward (p : List Nat) : Bool := bitOf (wordAt p 7) 24
def pStrict (p : List Nat) : Bool := bitOf (wordAt p 7) 23
def pReeval (p : List Nat) : Bool := bitOf (wordAt p 7) 22
def pTwoPass (p : List Nat) : Bool := bitOf (wordAt p 7) 21
def pTemplate (p : List Nat) : Nat := bitsOf (wordAt p 7) 20 16
def pEntry (p : List Nat) : Nat := bitsOf (wordAt p 7) 15 8
def pExport (p : List Nat) : Nat := bitsOf (wordAt p 7) 7 0
def pKeySel (p : List Nat) : Nat := bitsOf (wordAt p 6) 31 10
def pKVrf (p : List Nat) : Bool := bitOf (wordAt p 6) 26
def pSrcLen (p : List Nat) : Nat := bitsOf (wordAt p 6) 25 18
def pDstLen (p : List Nat) : Nat := bitsOf (wordAt p 6) 17 10
def pIdle (p : List Nat) : Nat := bitsOf (wordAt p 5) 31 10
def pSynTimeout (p : List Nat) : Nat := bitsOf (wordAt p 4) 31 16
def pCloseTimeout (p : List Nat) : Nat := bitsOf (wordAt p 4) 15 0
def pExcAction (p : List Nat) : Nat := bitsOf (wordAt p 3) 31 30
def pExcRing (p : List Nat) : Nat := bitsOf (wordAt p 3) 29 24
def pProtected (p : List Nat) : Nat := bitsOf (wordAt p 3) 23 16
def pDefClass (p : List Nat) : Nat := bitsOf (wordAt p 3) 15 8

/-- Membership of a flow profile in an epoch. -/
def pMember (p : List Nat) (epoch : Nat) : Bool := if epoch == 0 then pEp0 p else pEp1 p

/-- Whether a flow profile may be written (R36, R156); one that is not valid may hold an idle timeout of 0 (log entry 187). -/
def flowProfileOk (p : List Nat) : Bool :=
  p.length == 8 && p.all (fun w => decide (w < 2 ^ 32)) && pRecSize p != 3 && decide (pSrcLen p ≤ 128)
    && decide (pDstLen p ≤ 128) && (!pValid p || decide (1 ≤ pIdle p)) && decide (pIdle p ≤ 2073600) && decide (pDefClass p < 8)
    && bitsOf (wordAt p 7) 3 2 == 0

/-- The leading `n` bits of a 16-byte address kept; an IPv4-mapped one keeps its mapping prefix (R156). -/
def maskAddress (a : List Nat) (n : Nat) : List Nat :=
  let isV4 := a.take 12 == List.replicate 10 0 ++ [255, 255]
  let keep := if isV4 then Nat.max n 96 else n
  let v := numBE a
  bytesBE 16 (v / 2 ^ (128 - Nat.min keep 128) * 2 ^ (128 - Nat.min keep 128))

/-- The canonical key completed for lookup: fields the profile omits are zeroed, then the profile number and, where
k_vrf is set, the VRF are written (R131). -/
def completeKey (key : List Nat) (prof : List Nat) (profNo vrf : Nat) : List Nat :=
  let w := wordAt prof 6
  let keep (b off n : Nat) : List Nat := if bitOf w b then bytesAt key off n else List.replicate n 0
  let src := if bitOf w 31 then maskAddress (bytesAt key 4 16) (pSrcLen prof) else List.replicate 16 0
  let dst := if bitOf w 30 then maskAddress (bytesAt key 20 16) (pDstLen prof) else List.replicate 16 0
  [profNo % 256] ++ (if pKVrf prof then bytesBE 3 vrf else [0, 0, 0]) ++ src ++ dst ++ keep 29 36 2 ++ keep 28 38 2
    ++ keep 27 40 1 ++ List.replicate 7 0

/-! ## Cuckoo placement (R140, R143) -/

/-- A cuckoo table: how entries find their two buckets, which take a pair of slots, where the stash begins and how many
places it has. -/
structure Cuckoo (α : Type) where
  cands : α → Nat × Nat
  wide : α → Bool
  stashBase : Nat
  stashLen : Nat

/-- Whether slot `i` of bucket `b` is taken: an entry stands there, or a wide one in the slot before it. -/
def Cuckoo.taken {α : Type} (c : Cuckoo α) (m : SMap α) (b i : Nat) : Bool :=
  SMap.has m (4 * b + i) ||
    (i % 2 == 1 && (SMap.find? m (4 * b + i - 1)).elim false c.wide)

/-- The slot of a bucket that a new entry can take: a free slot, or a free aligned pair. -/
def Cuckoo.room {α : Type} (c : Cuckoo α) (m : SMap α) (b : Nat) (wide : Bool) : Option Nat :=
  if wide then
    ([0, 2] : List Nat).find? fun i => !c.taken m b i && !c.taken m b (i + 1)
  else ([0, 1, 2, 3] : List Nat).find? fun i => !c.taken m b i

/-- The residents of a bucket of a width: their places, those of `seen` left out. -/
def Cuckoo.residents {α : Type} (c : Cuckoo α) (m : SMap α) (b : Nat) (wide : Bool) (seen : List Nat) : List Nat :=
  (([0, 1, 2, 3] : List Nat).map (4 * b + ·)).filter fun k =>
    !seen.contains k && (SMap.find? m k).elim false fun e => c.wide e == wide

/-- The resident at a place moved to its alternate bucket, by a chain of at most `fuel` kicks that makes room there, no
place moved
twice; the original is cleared after its copy stands (R143). -/
def Cuckoo.kick {α : Type} (c : Cuckoo α) (wide : Bool) : Nat → SMap α → List Nat → Nat → Option (SMap α)
  | 0, _, _, _ => none
  | fuel + 1, m, seen, k =>
    match SMap.find? m k with
    | none => none
    | some e =>
      let (b1, b2) := c.cands e
      let alt := if b1 == k / 4 then b2 else b1
      if alt == k / 4 then none
      else
        match c.room m alt wide with
        | some i => some (SMap.del (SMap.set m (4 * alt + i) e) k)
        | none =>
          match (c.residents m alt wide (k :: seen)).head? with
          | none => none
          | some k' => (Cuckoo.kick c wide fuel m (k :: seen) k').map fun m' => SMap.del (SMap.set m' k' e) k

/-- Room made in one of two buckets by moving one of its residents (R143): each is tried in turn. The map after it, and the
place
that is free. -/
def Cuckoo.makeRoom {α : Type} (c : Cuckoo α) (wide : Bool) (m : SMap α) (b1 b2 : Nat) : Option (SMap α × Nat) :=
  (c.residents m b1 wide [] ++ c.residents m b2 wide []).findSome? fun k => (c.kick wide 16 m [] k).map fun m' => (m', k)

/-- Where a new entry goes: a candidate bucket, by kicks, or the stash; none when no place is found and the table stays
as it was. -/
def Cuckoo.place {α : Type} (c : Cuckoo α) (m : SMap α) (e : α) : Option (SMap α × Bool) :=
  let (b1, b2) := c.cands e
  let direct := match c.room m b1 (c.wide e) with
    | some i => some (4 * b1 + i)
    | none => (c.room m b2 (c.wide e)).map (4 * b2 + ·)
  match direct with
  | some k => some (SMap.set m k e, false)
  | none =>
    match c.makeRoom (c.wide e) m b1 b2 with
    | some (m', k) => some (SMap.set m' k e, false)
    | none =>
      match (List.range c.stashLen).find? fun i => !SMap.has m (c.stashBase + i) with
      | some i => some (SMap.set m (c.stashBase + i) e, true)
      | none => none

/-- Two candidate buckets, made different where the hashes agree (log entry 20). -/
def twoBuckets (n h1 h2 : Nat) : Nat × Nat :=
  let a := h1 % n
  let b := h2 % n
  if a == b then (a, Nat.xor a 1) else (a, b)

/-- The rule store's placement (R139, R140, R143). -/
def emCuckoo (seed : Nat) : Cuckoo RuleEntry where
  cands e := twoBuckets 65536 (Config.hash 2 seed (e.table :: e.key.take (8 * e.keyUnits)))
    (Config.hash 3 seed (e.table :: e.key.take (8 * e.keyUnits)))
  wide e := e.wide
  stashBase := 262144
  stashLen := 128

/-- The L2 table's placement (R147). -/
def l2Cuckoo : Cuckoo L2Entry where
  cands e := twoBuckets 262144 (Config.hash 4 0 [e.vlan, e.mac]) (Config.hash 5 0 [e.vlan, e.mac])
  wide _ := false
  stashBase := 1048576
  stashLen := 256

/-- The host-route table's placement (R147). -/
def hostCuckoo : Cuckoo Route where
  cands e := twoBuckets 524288 (Config.hash 6 0 [e.vrf, b2n e.v6, e.addr]) (Config.hash 7 0 [e.vrf, b2n e.v6, e.addr])
  wide _ := false
  stashBase := 2097152
  stashLen := 256

/-! ## Lookups -/

/-- Membership of a rule entry in an epoch. -/
def RuleEntry.member (e : RuleEntry) (epoch : Nat) : Bool := if epoch == 0 then e.ep0 else e.ep1

/-- The exact-match lookup of a key (R141): the slot and entry that match in the stamped epoch. -/
def emLookup (p : ClassifyPart) (table : Nat) (key : List Nat) (epoch : Nat) : Option (Nat × RuleEntry) :=
  match SMap.find? p.emTables table with
  | none => none
  | some t =>
    SMap.first? p.em fun _ e =>
      e.table == table && e.wide == t.wide && e.keyUnits == t.keyUnits && e.member epoch
        && e.key.take (8 * t.keyUnits) == key.take (8 * t.keyUnits)

/-- The L2 entry of a VLAN and MAC. -/
def l2Find (p : ClassifyPart) (vlan mac : Nat) : Option (Nat × L2Entry) :=
  SMap.first? p.l2 fun _ e => e.vlan == vlan && e.mac == mac

/-- A router MAC entry matches, of the 16 that the table has (R147). DESIGN CHOICE: the spec gives the table no command and no
reset contents, so what the entries that State does not name hold is left open (log entry 257). -/
def routerHit (p : ClassifyPart) (vlan mac : Nat) : Bool :=
  ((p.routerMacs ++ Config.routerMacs).take 16).any fun r => r.1 == mac && (r.2.elim true fun v => v == vlan)

/-- The bits of an address. -/
def addrBits (v6 : Bool) : Nat := if v6 then 128 else 32

/-- A prefix covers an address. -/
def Route.covers (r : Route) (vrf : Nat) (v6 : Bool) (addr : Nat) : Bool :=
  r.vrf == vrf && r.v6 == v6 && r.addr / 2 ^ (addrBits v6 - r.plen) == addr / 2 ^ (addrBits v6 - r.plen)

/-- The longest of a list of prefixes. -/
def longest : List Route → Option Route
  | [] => none
  | r :: rs =>
    match longest rs with
    | none => some r
    | some q => if q.plen > r.plen then some q else some r

/-- The route of an address: the host route, else the longest matching prefix (R148). -/
def routeLookup (p : ClassifyPart) (vrf : Nat) (v6 : Bool) (addr : Nat) : Option Route :=
  match SMap.first? p.hostRoutes fun _ r => r.vrf == vrf && r.v6 == v6 && r.addr == addr with
  | some (_, r) => some r
  | none => longest (p.lpm.filter fun r => r.covers vrf v6 addr)

/-- The fields of the canonical key an ECMP hash select names (R149): bit i of the select keeps the i-th of source
address, destination address, source port, destination port, protocol and VRF (log entry 23). -/
def ecmpFields (sel : Nat) (key : List Nat) : List Nat :=
  let part (b off n : Nat) : List Nat := if bitOf sel b then bytesAt key off n else []
  part 0 4 16 ++ part 1 20 16 ++ part 2 36 2 ++ part 3 38 2 ++ part 4 40 1 ++ part 5 1 3

/-- The member entry that an ECMP group takes for a key: base + ((h × m) >> 16) (R149). -/
def ecmpEntry (p : ClassifyPart) (group : Nat) (key : List Nat) : Option Nat :=
  (SMap.find? p.ecmpGroups group).map fun g =>
    let h := Config.hash 8 0 (ecmpFields g.hashSel key) % 65536
    g.base + (h * g.count) >>> 16

/-- The member of an ECMP group for a key (R149). -/
def ecmpMember (p : ClassifyPart) (group : Nat) (key : List Nat) : Option Nat :=
  (ecmpEntry p group key).bind fun i => SMap.find? p.ecmpMembers i

/-- A canonical key with its VRF written into bytes 1 to 3 (R131, R138). -/
def withVrf (key : List Nat) (vrf : Nat) : List Nat :=
  if key.isEmpty then [] else key.take 1 ++ bytesBE 3 vrf ++ key.drop 4

/-- The index of the LPM entry that holds a prefix (log entry 258). -/
def Route.lpmIndex (r : Route) : Nat := Config.lpmIndex r.vrf r.v6 r.addr r.plen % 2 ^ 21

/-- The runs of ECMP member entries that other groups hold (R149). -/
def ecmpHeld (p : ClassifyPart) (group : Nat) : List (Nat × Nat) :=
  (p.ecmpGroups.filter fun e => e.1 != group).map fun e => (e.2.base, e.2.base + e.2.count)

/-- The lowest run of `n` member entries free of the held runs; none when no run is long enough. -/
def ecmpRun (held : List (Nat × Nat)) (n : Nat) : Option Nat :=
  let starts := 0 :: held.map Prod.snd
  let ok := starts.filter fun b => decide (b + n ≤ 524288) && held.all fun r => decide (b + n ≤ r.1) || decide (r.2 ≤ b)
  match ok with
  | [] => none
  | b :: bs => some (bs.foldl Nat.min b)

end Sys2Proof.Machine
end

