-- ==== Sys2Proof/Machine/Copies.lean ====
section
/-! DEFINITION. Ring copies: sampling, the copy's header, its token, buffer and delivery (R333 to R337). -/

namespace Sys2Proof.Machine

/-! ## Sampling (R334) -/

/-- A source of rate `n` takes a packet for a 24-bit random number. -/
def sampleTakes (n r : Nat) : Bool := n != 0 && decide (r % 2 ^ 24 < ceilDiv (2 ^ 24) n)

/-- A fresh random number is drawn for a source that is on: its bit where it takes the packet. -/
def State.drawSample (s : State) (n bit : Nat) : State × Nat :=
  if n == 0 then (s, 0) else (s.draw, if sampleTakes n s.freeVal then bit else 0)

/-! ## The copy (R335) -/

/-- The 64 header bytes of a ring copy, words 0 to 15. -/
def copyHeader (p : Pkt) (c : CopyReq) (len seq : Nat) : List Nat :=
  let total := p.head.length + p.body.length
  let w15 := trunc 4 c.kind <<< 28 + trunc 3 c.sources <<< 25 + b2n (decide (total > len)) <<< 24
    + trunc 8 p.inPort <<< 16 + trunc 16 len
  let w14 := trunc 14 total <<< 18 + trunc 3 p.cls <<< 15 + (if c.kind == 2 then trunc 6 c.session else 0) <<< 9
    + trunc 1 p.epoch <<< 8 + trunc 5 p.pipe <<< 3 + b2n p.edited <<< 2
  let w12 := match p.handle with
    | some h => 1 <<< 31 + trunc 29 h
    | none => 0
  let w11 := match p.profile with
    | some n => trunc 6 n <<< 26 + 1 <<< 25
    | none => 0
  ([0, 0, 0, 0, 0, 0, 0, seq, p.rigMeta, trunc 2 p.fwdOp <<< 30 + trunc 18 p.fwdTarget <<< 12, trunc 24 p.vrf <<< 8,
    w11, w12, shortTime (p.tIn / 2 ^ 16), w14, w15] : List Nat).flatMap (bytesLE 4)

/-- The bucket of a pipeline filled up to now: copy_rate tokens each microsecond, at most 64 (R336). -/
def State.copyBucket (s : State) (pipe : Nat) : Nat :=
  let us := s.tm.ticks / 1000
  match SMap.find? s.pk.copyTokens pipe with
  | some (n, t) => Nat.min 64 (n + (us - t) * s.getF F.iqmCtrl_copyRate pipe)
  | none => 64

/-- A copy that is not delivered (R336). -/
def State.copyLost (s : State) (pipe : Nat) (c : CtrId) : State :=
  (s.count c).setF F.iqmEvent_copyDropSeen pipe 1

/-- A copy reaches Criod firmware or its ring. -/
def State.deliverCopy (s : State) (c : CopyReq) (bytes : List Nat) : State × Bool :=
  if c.toCriod then ({ s with host := { s.host with fwCopies := s.host.fwCopies ++ [bytes] } }, true)
  else s.ringCopyTo c.ring bytes

/-- A ring copy is made: its number is taken, then a token, a control buffer and its ring (R333, R335, R336). A parser
trap that finds its ring full is counted in PRS_TRAP_DROP too (R122). -/
def State.ringCopy (s : State) (p : Pkt) (c : CopyReq) : State :=
  let key := 128 * p.pipe + (if c.toCriod then 64 else c.ring)
  let seq := SMap.getD s.pk.copySeq key 0
  let tokens := s.copyBucket p.pipe
  let s1 := { s with pk := { s.pk with copySeq := SMap.put 0 s.pk.copySeq key ((seq + 1) % 2 ^ 32) } }
  if tokens == 0 then s1.copyLost p.pipe (C.iqmCopyRateDrop p.pipe)
  else
    let s2 := { s1 with pk := { s1.pk with
      copyTokens := SMap.set s1.pk.copyTokens p.pipe (tokens - 1, s.tm.ticks / 1000) } }
    let len := Nat.min (Nat.max 64 (Nat.min 512 c.len)) (p.head.length + p.body.length)
    match s2.takeCtrl (64 + len) 33 with
    | (s3, none) => s3.copyLost p.pipe (C.iqmCopyNobuf p.pipe)
    | (s3, some h) =>
      let (s4, took) := s3.deliverCopy c (copyHeader p c len seq ++ p.data.take len)
      let s5 := s4.freeCtrl h 33
      if took then s5
      else
        let s6 := s5.copyLost p.pipe (C.iqmCopyRingDrop p.pipe)
        if c.kind == 3 then (s6.count (C.prsTrapDrop p.pipe)).setF F.prsEvent_trapDropSeen p.pipe 1 else s6

/-- The sample copy of a packet, if a source selected it (R334). -/
def Pkt.sampleReq (p : Pkt) (len : Nat) : List CopyReq :=
  if p.sampled == 0 then []
  else [⟨0, decide (Config.sampleDest > 63), Config.sampleDest % 64, len, 0, p.sampled⟩]

/-- A trap copy's destination by VRF (R337). -/
def State.trapReq (s : State) (p : Pkt) : CopyReq :=
  let t := SMap.getD s.pk.traps (p.vrf % 4096) ⟨true, 0, 256⟩
  ⟨1, t.toCriod, t.ring, t.len, 0, 0⟩

/-- The ring copies a packet asks for, in order: sample, traps, then mirror sessions that name a ring or Criod. -/
def State.ringReqs (s : State) (p : Pkt) : List CopyReq :=
  p.sampleReq (s.getF F.iqmCtrl_sampleLen p.pipe) ++ p.copies ++
    p.mirrors.filterMap fun n =>
      (SMap.find? s.pk.sessions n).bind fun m =>
        if m.dest == 0 then none else some ⟨2, m.dest == 2, m.ring, if m.trunc == 0 then 512 else m.trunc, n, 0⟩

/-- Ring copies are counted by kind (R343). -/
def State.countCopy (s : State) (pipe : Nat) (c : CopyReq) : State :=
  if c.kind == 0 then s.count (C.iqmSamples pipe)
  else if c.kind == 2 then s.count (C.iqmMirrorCopies pipe)
  else s.count (C.iqmTraps pipe)

/-- Every ring copy of a packet is made, once, for the union of what its passes asked for (R330, R333). -/
def State.makeRingCopies (s : State) (id : Nat) : State :=
  match SMap.find? s.pk.pkts id with
  | none => s
  | some p => (s.ringReqs p).foldl (fun t c => (t.countCopy p.pipe c).ringCopy p c) s

end Sys2Proof.Machine
end

