-- ==== Sys2Proof/Machine/Records.lean ====
section
/-! DEFINITION. Flow records and index slots as functions: signatures, buckets, record layouts, keys (R195 to R203, R232,
R248). A record's image is its words in the layout of standard and full records; a lean one is expanded to it. -/

namespace Sys2Proof.Machine

/-! ## Signatures and slots (R195, R196) -/

/-- The signature of a canonical key under a seed: 72 bits. -/
def signature (seed : Nat) (key : List Nat) : Nat := Config.hash 11 seed key % 2 ^ 72

/-- The two buckets of a signature in an index of 2^k buckets. -/
def sigBuckets (sig k : Nat) : Nat × Nat :=
  let b1 := bitsOf sig 22 0 % 2 ^ k
  let b2 := Nat.xor (bitsOf sig 45 23) (bitsOf sig 68 46) % 2 ^ k
  (b1, if b1 == b2 then Nat.xor b1 1 else b2)

/-- The cache set of a signature. -/
def sigSet (sig : Nat) : Nat := (bitsOf sig 71 56 * 1536) >>> 16

/-- The home shard of a key (R15). -/
def homeShard (seed : Nat) (key : List Nat) : Nat := Config.hash 1 seed key % 32

/-- The shard that owns a handle (R13). -/
def ownerOf (handle : Nat) : Nat := handle / 2 ^ 24 % 32

/-- An index slot's place: shard, generation, bucket and slot as one number. -/
def slotKey (shard : Nat) (gen : Bool) (bucket i : Nat) : Nat := (2 * shard + b2n gen) * 2 ^ 25 + 4 * bucket + i

/-- The four words of an index slot (R196), word 0 first. -/
def Slot.words (e : Slot) (gen : Bool) : List Nat :=
  [bitsOf e.sig 15 0 <<< 16, bitsOf e.sig 47 16, bitsOf e.handle 7 0 <<< 24 + bitsOf e.sig 71 48,
   1 <<< 31 + b2n gen <<< 30 + trunc 2 e.size <<< 28 + trunc 1 e.dir <<< 27 + trunc 6 e.profile <<< 21
     + bitsOf e.handle 28 8]

/-! ## Record words (R199 to R203) -/

/-- Twelve key words: bytes 0 to 47 of a canonical key as record words. -/
def keyWords (key : List Nat) : List Nat := (List.range 12).map fun i => numLE (bytesAt key (4 * i) 4)

/-- The canonical key that twelve words hold. -/
def wordsKey (ws : List Nat) : List Nat := ws.flatMap (bytesLE 4)

/-- Both addresses of a canonical key are IPv4-mapped. -/
def bothMapped (key : List Nat) : Bool :=
  let m := List.replicate 10 0 ++ [255, 255]
  bytesAt key 4 12 == m && bytesAt key 20 12 == m

/-- The compressed key of a lean record: words 8 to 15 (R203). -/
def leanKey (key : List Nat) : List Nat :=
  let bs := bytesAt key 0 4 ++ bytesAt key 16 4 ++ bytesAt key 32 4 ++ bytesAt key 36 5 ++ List.replicate 15 0
  (List.range 8).map fun i => numLE (bytesAt bs (4 * i) 4)

/-- The canonical key a compressed one expands to. -/
def leanExpand (ws : List Nat) : List Nat :=
  let bs := ws.flatMap (bytesLE 4)
  bytesAt bs 0 4 ++ mapped (bytesAt bs 4 4) ++ mapped (bytesAt bs 8 4) ++ bytesAt bs 12 5 ++ List.replicate 7 0
where
  /-- An IPv4 address in IPv4-mapped form. -/
  mapped (a : List Nat) : List Nat := List.replicate 10 0 ++ [255, 255] ++ a

/-- The image of a record's words: 32 words for lean and standard, 64 for full. -/
def toImage (size : Nat) (ws : List Nat) : List Nat :=
  if size == 0 then
    let w (i : Nat) : Nat := wordAt ws i
    [0, 0, 0, 0, 0, 0, 0, 0, w 1, w 2, w 3, w 4, bitsOf (w 6) 15 0 <<< 16, w 5, bitsOf (w 6) 31 16 <<< 16,
     w 7] ++ keyWords (leanExpand (ws.drop 8)) ++ [0, 0, 0, 0]
  else ws

/-- The words of a record whose image is given; what a lean record has no field for is lost. -/
def ofImage (size : Nat) (im : List Nat) : List Nat :=
  if size == 0 then
    let w (i : Nat) : Nat := wordAt im i
    [0, w 8, w 9, w 10, w 11, w 13, bitsOf (w 14) 31 16 <<< 16 + bitsOf (w 12) 31 16, w 15]
      ++ leanKey (wordsKey ((im.drop 16).take 12))
  else (im ++ List.replicate 64 0).take (if size == 1 then 32 else 64)

/-- The bits of an image word that a record of a size holds. -/
def fieldMask (size word : Nat) : Nat :=
  if size == 0 then
    (if word < 8 then 0 else if word == 12 || word == 14 then 0xFFFF0000 else if word < 28 then 0xFFFFFFFF else 0)
  else if size == 1 then (if word < 32 then 0xFFFFFFFF else 0)
  else 0xFFFFFFFF

/-! ## Hot-slice fields of an image (R200) -/

def iTclass (im : List Nat) : Nat := bitsOf (wordAt im 15) 31 30
def iLive (im : List Nat) : Bool := bitOf (wordAt im 15) 23
def iSecond (im : List Nat) : Bool := bitOf (wordAt im 15) 22
def iStatic (im : List Nat) : Bool := bitOf (wordAt im 15) 20
def iExportPending (im : List Nat) : Bool := bitOf (wordAt im 15) 17
def iEntry (im : List Nat) : Nat := bitsOf (wordAt im 15) 15 8
def iResEpoch (im : List Nat) : Nat := bitsOf (wordAt im 15) 7 7
def iRefcount (im : List Nat) : Nat := bitsOf (wordAt im 14) 31 24
def iTpass (im : List Nat) : Nat := bitsOf (wordAt im 14) 23 16
def iXlateAddr (im : List Nat) : Nat := wordAt im 13
def iXlatePort (im : List Nat) : Nat := bitsOf (wordAt im 12) 31 16
def iXlateAux (im : List Nat) : Nat := bitsOf (wordAt im 12) 15 0
def iBytes (im : List Nat) : Nat := wordAt im 11 * 2 ^ 16 + bitsOf (wordAt im 10) 31 16
def iPackets (im : List Nat) : Nat := bitsOf (wordAt im 10) 15 0 * 2 ^ 24 + bitsOf (wordAt im 9) 31 8
def iLastSeen (im : List Nat) : Nat := wordAt im 8
def iKey (im : List Nat) : List Nat := wordsKey ((im.drop 16).take 12)

/-- A field of a word replaced. -/
def putField (w hi lo v : Nat) : Nat := w - bitsOf w hi lo <<< lo + (v % 2 ^ (hi - lo + 1)) <<< lo

/-- A field of an image's word replaced. -/
def imPut (im : List Nat) (word hi lo v : Nat) : List Nat := setAt im word (putField (wordAt im word) hi lo v)

/-- Byte and packet counts with their saturation flags (R200). -/
def imCounts (im : List Nat) (bytes packets : Nat) : List Nat :=
  let b := iBytes im + bytes
  let p := iPackets im + packets
  let bv := Nat.min b (2 ^ 48 - 1)
  let pv := Nat.min p (2 ^ 40 - 1)
  let w9 := wordAt im 9
  let sat := b2n (bitOf w9 7 || decide (b > 2 ^ 48 - 1)) <<< 7 + b2n (bitOf w9 6 || decide (p > 2 ^ 40 - 1)) <<< 6
  setAt (setAt (setAt im 11 (bv / 2 ^ 16)) 10 ((bv % 2 ^ 16) <<< 16 + pv / 2 ^ 24)) 9
    ((pv % 2 ^ 24) <<< 8 + sat + w9 % 64)

/-- One masked word write of an image. -/
def imWrite (im : List Nat) (w : WordWrite) : List Nat :=
  let old := wordAt im w.word
  setAt im w.word (old - Nat.land old w.mask + Nat.land w.value w.mask)

/-! ## Keys (R201, R248) -/

/-- A canonical key put together: profile, VRF, addresses of 16 bytes, ports, protocol. -/
def mkKey (profile vrf : Nat) (src dst : List Nat) (sport dport proto : Nat) : List Nat :=
  [profile % 256] ++ bytesBE 3 vrf ++ bytesAt src 0 16 ++ bytesAt dst 0 16 ++ bytesBE 2 sport ++ bytesBE 2 dport
    ++ [proto % 256] ++ List.replicate 7 0

def kSrc (key : List Nat) : List Nat := bytesAt key 4 16
def kDst (key : List Nat) : List Nat := bytesAt key 20 16
def kSport (key : List Nat) : Nat := beAt key 36 2
def kDport (key : List Nat) : Nat := beAt key 38 2
def kProto (key : List Nat) : Nat := key.getD 40 0
def kProfile (key : List Nat) : Nat := key.getD 0 0

/-- An IPv4 address as 16 bytes in IPv4-mapped form. -/
def mapped4 (a : Nat) : List Nat := List.replicate 10 0 ++ [255, 255] ++ bytesBE 4 a

/-- The second key of a record image (R201); none where it has none. -/
def secondKey (size : Nat) (im : List Nat) : Option (List Nat) :=
  if size == 0 then none
  else if size == 2 then (if iSecond im then some (wordsKey ((im.drop 52).take 12)) else none)
  else
    let k := iKey im
    let prof := bitsOf (wordAt im 31) 31 24
    let vrf := bitsOf (wordAt im 31) 23 0
    match bitsOf (wordAt im 28) 31 30 with
    | 1 => some (mkKey prof vrf (kDst k) (mapped4 (iXlateAddr im)) (kDport k) (iXlatePort im) (kProto k))
    | 2 => some (mkKey prof vrf (mapped4 (iXlateAddr im)) (kSrc k) (iXlatePort im) (kSport k) (kProto k))
    | _ => none

/-- A record answers a key in a role (R201, R208). -/
def verifyRec (size : Nat) (im key : List Nat) (dir : Nat) : Bool :=
  iLive im && (if dir == 0 then iKey im == key else secondKey size im == some key)

end Sys2Proof.Machine
end

