-- ==== Sys2Proof/Machine/MissQueue.lean ====
section
/-! DEFINITION. A shard's miss queue and the miss-overflow action (R209, R210), and the requester's side of remote lookups
in a pooled stack (R554 to R556, R559). -/

namespace Sys2Proof.Machine

/-! ## The miss queue (R209) -/

/-- A shard's miss queue. -/
def State.mqOf (s : State) (shard : Nat) : List MqEntry := SMap.getD s.fst.mq shard []

/-- An entry awaits setup. -/
def MqEntry.inSetup (e : MqEntry) : Bool := e.wait == .setup || e.wait == .fwEnd || e.wait == .verdict

/-- FST_MQ_STATUS and FST_MQ_PEAK follow the queue. -/
def State.syncMq (s : State) (shard : Nat) : State :=
  let q := s.mqOf shard
  let n := q.length
  let m := (q.filter MqEntry.inSetup).length
  (((s.setF F.fstMqStatus_occ shard n).setF F.fstMqStatus_setupPending shard m).maxF F.fstMqPeak_occPeak shard n).maxF
    F.fstMqPeak_setupPeak shard m

/-- A shard's miss queue set. -/
def State.setMq (s : State) (shard : Nat) (q : List MqEntry) : State :=
  { s with fst := { s.fst with mq := SMap.put [] s.fst.mq shard q } }.syncMq shard

/-- The entries of some packets leave a shard's queue. -/
def State.mqDrop (s : State) (shard : Nat) (pkts : List Nat) : State :=
  s.setMq shard ((s.mqOf shard).filter fun e => !pkts.contains e.pkt)

/-- An entry changed. -/
def State.mqSet (s : State) (shard pkt : Nat) (f : MqEntry → MqEntry) : State :=
  s.setMq shard ((s.mqOf shard).map fun e => if e.pkt == pkt then f e else e)

/-- An entry appended. -/
def State.mqAdd (s : State) (shard : Nat) (e : MqEntry) : State := s.setMq shard (s.mqOf shard ++ [e])

/-- The entries chained behind an entry of a key, oldest first. -/
def State.mqChain (s : State) (shard : Nat) (key : List Nat) : List MqEntry :=
  (s.mqOf shard).filter fun e => e.key == key && e.wait == .chained

/-! ## Overflow (R210) -/

/-- An answer sent. -/
def State.sendAnswer (s : State) (pkt : Nat) (a : Option Answer) : State :=
  { s with fst := { s.fst with answers := s.fst.answers ++ [(pkt, a)] } }

/-- The flow-profile words of a key. -/
def State.profOf (s : State) (key : List Nat) : List Nat := SMap.getD s.cls.flowProf (kProfile key) []

/-- A packet forwarded on its profile's defaults, without flow state. -/
def State.forwardStateless (s : State) (pkt : Nat) (key : List Nat) : State :=
  (s.modPkt pkt fun p => { p with cls := pDefClass (s.profOf key) }).sendAnswer pkt none

/-- The miss-overflow action of a key's profile. -/
def State.overflow (s : State) (pkt : Nat) (key : List Nat) : State :=
  if pMissForward (s.profOf key) then s.forwardStateless pkt key else s.dropPkt pkt

/-- The overflow action for an entry and every entry chained behind it, in order; the entries leave the queue. -/
def State.overflowAll (s : State) (shard pkt : Nat) (key : List Nat) : State :=
  let ids := pkt :: (s.mqChain shard key).map (·.pkt)
  ids.foldl (fun t id => t.overflow id key) (s.mqDrop shard ids)

/-! ## Remote lookups (R554 to R556, R559) -/

/-- STK_REMOTE follows the requests parked on DEFER. -/
def State.syncParked (s : State) : State :=
  let n := s.fst.mq.foldl (fun a e => a + (e.2.filter fun x => x.wait == .parked).length) 0
  (s.setF F.stkRemote_parked 0 (Nat.min n (2 ^ 17 - 1))).maxF F.stkRemote_parkedPeak 0 n

/-- The local shard whose miss queue parks requests of a key: of the home shard's number (R554, R556). -/
def State.parkShard (s : State) (key : List Nat) : Nat := homeShard s.fst.shardSeed key

/-- Packets whose requests can reach no owner, each counted (R559). -/
def State.unreachable (s : State) (pkts : List Nat) (key : List Nat) : State :=
  (pkts.foldl (fun t id => (t.count C.stkRemoteUnreach).overflow id key) s).syncParked

/-- A packet's request waits for the request field of a link to the owner that the flow's hash chooses; with no link up,
the packet and those chained behind it take the overflow action (R553, R554, R559). -/
def State.sendRequest (s : State) (id member hash : Nat) (key : List Nat) : State :=
  match s.linkTo member hash with
  | some l =>
    { s with stk := { s.stk with requests := SMap.put [] s.stk.requests l (SMap.getD s.stk.requests l [] ++ [id]) } }
  | none =>
    let k := s.parkShard key
    let parked := (s.mqOf k).any fun e => e.pkt == id
    if parked then
      let ids := id :: (s.mqChain k key).map (·.pkt)
      (s.mqDrop k ids).unreachable ids key
    else s.unreachable [id] key

/-- A lookup of a key that another member owns is issued: chained behind one of its key that is parked, else sent (R554,
R556). -/
def State.issueRemote (s : State) (id member hash : Nat) (p : Pkt) (key : List Nat) : State :=
  let k := s.parkShard key
  if (s.mqOf k).any fun e => e.key == key then
    (if (s.mqOf k).length < 4096 then s.mqAdd k ⟨id, p.pipe, key, .chained, false, none, none, 0⟩
      else ((s.setF F.fstEvent_mqOverflowSeen k 1).count (C.fstMqOverflowChained k)).dropPkt id)
  else s.sendRequest id member hash key

end Sys2Proof.Machine
end

