-- ==== Sys2Proof/Machine/ParseGraph.lean ====
section
/-! DEFINITION. The parser as a function of bytes: the header graph, one parse step, the whole parse, and the keys formed
from it (R101 to R132, R605). -/

namespace Sys2Proof.Machine

/-! ## Entries (R109) -/

def gValid (e : List Nat) : Bool := bitOf (wordAt e 7) 31
def gState (e : List Nat) : Nat := bitsOf (wordAt e 7) 23 16
def gSelOff (e : List Nat) : Nat := bitsOf (wordAt e 7) 15 10
def gMatch (e : List Nat) : Nat := wordAt e 6
def gMask (e : List Nat) : Nat := wordAt e 5
def gType (e : List Nat) : Nat := bitsOf (wordAt e 4) 31 26
def gLenMode (e : List Nat) : Nat := bitsOf (wordAt e 4) 25 24
def gLenFixed (e : List Nat) : Nat := bitsOf (wordAt e 4) 23 16
def gLenOff (e : List Nat) : Nat := bitsOf (wordAt e 4) 15 10
def gLenShift (e : List Nat) : Nat := bitsOf (wordAt e 4) 9 6
def gLenMult (e : List Nat) : Nat := bitsOf (wordAt e 4) 5 4
def gLenFmask (e : List Nat) : Nat := bitsOf (wordAt e 3) 31 24
def gLenAdd (e : List Nat) : Nat := bitsOf (wordAt e 3) 23 16
def gNext (e : List Nat) : Nat := bitsOf (wordAt e 3) 15 8
def gLenMin (e : List Nat) : Nat := bitsOf (wordAt e 3) 7 0
def gCheck (e : List Nat) : Nat := bitsOf (wordAt e 2) 31 29
def gScan (e : List Nat) : Nat := bitsOf (wordAt e 2) 28 27
def gInner (e : List Nat) : Bool := bitOf (wordAt e 2) 26
def gTerminal (e : List Nat) : Bool := bitOf (wordAt e 2) 25
def gPtp (e : List Nat) : Bool := bitOf (wordAt e 2) 24
def gRole (e : List Nat) : Nat := bitsOf (wordAt e 2) 23 20
def gKeyClass (e : List Nat) : Nat := bitsOf (wordAt e 2) 19 15
def gFrag (e : List Nat) : Bool := bitOf (wordAt e 2) 14

/-- Whether a header-graph entry may be written (R108, R109, R112): word sizes, no reserved len_mode, and a length when it is
not terminal. DESIGN CHOICE: reserved codes of len_check, scan and role are refused too, as those of len_mode are; a reserved
layer_type and reserved bits are taken (log entry 248). -/
def graphEntryOk (e : List Nat) : Bool :=
  e.length == 8 && e.all (fun w => decide (w < 2 ^ 32)) && gLenMode e != 2 && decide (gCheck e < 4)
    && decide (gScan e < 3) && decide (gRole e < 6)
    && !(gLenMode e == 0 && gLenFixed e == 0 && !gTerminal e)

/-! ## One parse step -/

/-- What the parser sees of a packet: the parse window, the frame data's length where it is at most 256 bytes, and the
configured scan targets (R101, R104). -/
structure ParseIn where
  window : List Nat
  longer : Bool
  len : Nat
  scanIpv4 : List Nat
  scanGeneve : List (Nat × Nat)
  deriving DecidableEq, Repr

/-- The entry used: the lowest-indexed valid one of the state whose match the select value meets under its mask
(R107). State 0x00 is never matched. -/
def findEntry (graph : SMap (List Nat)) (bad : List Nat) (win : List Nat) (state pos : Nat) :
    Option (Nat × List Nat) :=
  if state == 0 then none
  else SMap.first? graph fun idx e =>
    gValid e && gState e == state && !bad.contains idx
      && Nat.land (beAt win (pos + gSelOff e) 4) (gMask e) == Nat.land (gMatch e) (gMask e)

/-- The length of the layer an entry defines (R108). -/
def layerLen (e : List Nat) (win : List Nat) (pos : Nat) : Nat :=
  if gLenMode e == 1 then
    Nat.land (beAt win (pos + gLenOff e) 2 >>> gLenShift e) (gLenFmask e) * 2 ^ gLenMult e + gLenAdd e
  else gLenFixed e

/-- The hits of one option on the four targets: those not yet found take its offset. DESIGN CHOICE: where a packet has several
scan steps, the first hit over all of them stands (log entry 249). -/
def takeHits (hits : List (Option Nat)) (same : List Bool) (off : Nat) : List (Option Nat) :=
  List.zipWith (fun h m => match h with
    | some v => some v
    | none => if m then some off else none) hits same

/-- IPv4 options from `off` to `stop` (R104): the hits, or none for an overrun. -/
def scanV4 (win targets : List Nat) : Nat → Nat → Nat → List (Option Nat) → Option (List (Option Nat))
  | 0, _, _, hits => some hits
  | fuel + 1, off, stop, hits =>
    if off ≥ stop then some hits
    else
      let t := win.getD off 0
      let hits' := takeHits hits (targets.map (· == t)) off
      if t == 0 || t == 1 then scanV4 win targets fuel (off + 1) stop hits'
      else
        let l := win.getD (off + 1) 0
        if off + 1 ≥ stop || l < 2 || off + l > stop then none
        else scanV4 win targets fuel (off + l) stop hits'

/-- Geneve options from `off` to `stop` (R104). -/
def scanGnv (win : List Nat) (targets : List (Nat × Nat)) :
    Nat → Nat → Nat → List (Option Nat) → Option (List (Option Nat))
  | 0, _, _, hits => some hits
  | fuel + 1, off, stop, hits =>
    if off ≥ stop then some hits
    else
      let cls := beAt win off 2
      let typ := win.getD (off + 2) 0
      let l := 4 + 4 * (win.getD (off + 3) 0 % 32)
      if off + l > stop then none
      else scanGnv win targets fuel (off + l) stop (takeHits hits (targets.map fun t => t == (cls, typ)) off)

/-- The scan of a layer: 1 IPv4 options after 20 bytes, 2 Geneve options after 8 (R104). -/
def scanLayer (i : ParseIn) (code pos stop : Nat) (hits : List (Option Nat)) : Option (List (Option Nat)) :=
  if code == 1 then scanV4 i.window i.scanIpv4 256 (pos + 20) stop hits
  else if code == 2 then scanGnv i.window i.scanGeneve 64 (pos + 8) stop hits
  else some hits

/-- Cycles a scan over the option bytes holds its stage beyond the first (R103). -/
def scanHold (code pos stop : Nat) : Nat :=
  let s := if code == 1 then stop - (pos + 20) else if code == 2 then stop - (pos + 8) else 0
  if s > 64 then 2 * ((s + 63) / 64) - 1 else 0

/-- The check of an IP or UDP length at a layer (R120): whether it fails, and the bounds it leaves. -/
def lenCheck (i : ParseIn) (code pos len : Nat) (bounds udps : List Nat) : Bool × List Nat × List Nat :=
  if code == 1 then
    let total := beAt i.window (pos + 2) 2
    let bad := decide (total < len) || (!i.longer && decide (pos + total > i.len))
    (bad, (pos + total) :: bounds, udps)
  else if code == 2 then
    let b := pos + 40 + beAt i.window (pos + 4) 2
    (!i.longer && decide (b > i.len), b :: bounds, udps)
  else if code == 3 then
    let u := beAt i.window (pos + 4) 2
    match bounds with
    | b :: _ => (decide (u < 8) || decide (pos + u > b), bounds, udps)
    | [] =>
      if i.longer then (decide (u < 8), bounds, (pos + u) :: udps)
      else (decide (u < 8) || decide (pos + u > i.len), bounds, udps)
  else (false, bounds, udps)

/-- The encapsulation of a PTP header by the outer layers before it (R118). -/
def ptpEncap (layers : List Layer) : Nat :=
  if layers.any (fun l => l.ltype == 0x0C) then (if layers.any (fun l => l.ltype == 0x05) then 2 else 1) else 0

/-- Nothing parsed yet. -/
def ParseRes.empty : ParseRes :=
  ⟨[], false, false, false, false, 0, [none, none, none, none], [], [], none, 0, []⟩

/-- The checks of a step that come after the minimum check, in the order of R121: none when the layer stands, else
whether it truncates (`true`) or conflicts (`false`). -/
def layerFault (i : ParseIn) (e : List Nat) (pos stop : Nat) (r : ParseRes) : Option Bool :=
  if i.longer && stop > 256 then some true
  else if !i.longer && stop > i.len then some false
  else if r.ipBounds.head?.elim false (fun b => decide (stop > b)) then some false
  else if (lenCheck i (gCheck e) pos (stop - pos) r.ipBounds r.udpEnds).1 then some false
  else if (scanLayer i (gScan e) pos stop r.scans).isNone then some false
  else none

/-- The result with a layer recorded (R108, R111, R117, R118, R125). -/
def recordLayer (i : ParseIn) (e : List Nat) (pos stop : Nat) (inner : Bool) (r : ParseRes) : ParseRes :=
  let (_, bounds, udps) := lenCheck i (gCheck e) pos (stop - pos) r.ipBounds r.udpEnds
  { r with
    layers := r.layers ++ [⟨gType e, pos, stop, gRole e, inner⟩]
    fragment := r.fragment || gFrag e
    keyClass := if gKeyClass e == 0 then r.keyClass else gKeyClass e
    scans := (scanLayer i (gScan e) pos stop r.scans).getD r.scans
    ipBounds := bounds
    udpEnds := udps
    ptp := if gPtp e && !inner && r.ptp.isNone && !r.layers.any (·.ltype == 0x03) then some (pos, ptpEncap r.layers)
      else r.ptp }

/-- The parse from a state and position on, `fuel` steps being left of the twelve (R107 to R121). -/
def parseFrom (graph : SMap (List Nat)) (bad : List Nat) (i : ParseIn) :
    Nat → Nat → Nat → Bool → ParseRes → ParseRes
  | 0, _, _, _, r => r
  | fuel + 1, state, pos, inner, r =>
    match findEntry graph bad i.window state pos with
    | none => { r with unmatched := true }
    | some (idx, e) =>
      let r := { r with used := r.used ++ [idx] }
      let farSel := i.longer && decide (pos + gSelOff e + 4 > 256)
      let farLen := i.longer && gLenMode e == 1 && decide (pos + gLenOff e + 2 > 256)
      if gLenMode e == 3 || farSel || farLen then { r with truncated := true }
      else
        let len := layerLen e i.window pos
        if len < Nat.max (gLenMin e) 1 then { r with conflict := true }
        else
          let r := { r with scanCycles := r.scanCycles + scanHold (gScan e) pos (Nat.min (pos + len) i.window.length) }
          match layerFault i e pos (pos + len) r with
          | some true => { r with truncated := true }
          | some false => { r with conflict := true }
          | none =>
            if fuel == 0 && !gTerminal e then { r with truncated := true }
            else
              let r' := recordLayer i e pos (pos + len) inner r
              if gTerminal e || gFrag e then r'
              else parseFrom graph bad i fuel (gNext e) (pos + len) (inner || gInner e) r'

/-- The parse of a packet from its start state: at most twelve steps (R103, R107, R119). -/
def parsePacket (graph : SMap (List Nat)) (bad : List Nat) (i : ParseIn) (start : Nat) : ParseRes :=
  parseFrom graph bad i 12 start 0 false ParseRes.empty

/-! ## Layers by role (R111) -/

/-- The layer of a role the key builder uses: the first among the outer layers, the last among the inner. -/
def ParseRes.roleLayer (r : ParseRes) (role : Nat) (inner : Bool) : Option Layer :=
  let ls := r.layers.filter fun l => l.role == role && l.inner == inner
  if inner then ls.getLast? else ls.head?

/-- The tunnel layer: the first of role tunnel. -/
def ParseRes.tunnel (r : ParseRes) : Option Layer := r.layers.find? fun l => l.role == 4

/-- Parsing ended early (R127). -/
def ParseRes.early (r : ParseRes) : Bool := r.truncated || r.conflict || r.unmatched

/-- The end of the last recorded layer. -/
def ParseRes.lastEnd (r : ParseRes) : Nat := r.layers.getLast?.elim 0 (·.stop)

/-- Inner layers are present. -/
def ParseRes.hasInner (r : ParseRes) : Bool := r.layers.any (·.inner)

/-- An L3 layer is IPv6. -/
def isIpv6 (l : Option Layer) : Bool := l.elim false fun x => x.ltype == 0x05

/-! ## Key building (R126 to R130) -/

/-- An outer PTP header of an event message, message types 0 to 3 (R41, R118; log entry 192). -/
def ParseRes.ptpEvent (r : ParseRes) (window : List Nat) : Bool :=
  r.ptp.elim false fun e => decide (window.getD e.1 0 % 16 ≤ 3)

/-- The metadata view (R128); bytes 4 to 6, the presence vector, are filled in for rig programs. -/
def metadataView (inPort epoch group : Nat) (window : List Nat) (r : ParseRes) (presence : Nat) : List Nat :=
  let b1 := b2n r.truncated * 128 + b2n r.conflict * 64 + b2n r.unmatched * 32 + b2n r.fragment * 16
    + b2n (r.ptpEvent window) * 8 + b2n r.hasInner * 4 + b2n (isIpv6 (r.roleLayer 2 false)) * 2
    + b2n (isIpv6 (r.roleLayer 2 true))
  [inPort % 256, b1, epoch % 2 * 128 + group % 4 * 32 + r.keyClass % 32, r.layers.length] ++ bytesLE 3 presence ++ [0]
    ++ (List.range 12).flatMap fun j =>
        match r.layers[j]? with
        | some l => [l.ltype, l.start % 256]
        | none => [0, 0]

/-- Where a source of an extraction starts (R126); none where it is absent. -/
def sourceStart (r : ParseRes) (src : Nat) : Option Nat :=
  match src with
  | 1 => (r.roleLayer 1 false).map (·.start)
  | 2 => (r.roleLayer 2 false).map (·.start)
  | 3 => (r.roleLayer 3 false).map (·.start)
  | 4 => r.tunnel.map (·.start)
  | 5 => (r.roleLayer 1 true).map (·.start)
  | 6 => (r.roleLayer 2 true).map (·.start)
  | 7 => (r.roleLayer 3 true).map (·.start)
  | 8 => (r.scans[0]?).join
  | 9 => (r.scans[1]?).join
  | 10 => (r.scans[2]?).join
  | 11 => (r.scans[3]?).join
  | 12 => ((r.roleLayer 5 false).orElse fun _ => r.roleLayer 5 true).map (·.start)
  | 13 => some 0
  | _ => none

/-- One byte of an extraction; none where it reads as zero and clears the presence bit (R127). -/
def extractByte (i : ParseIn) (r : ParseRes) (mdata : List Nat) (src off : Nat) : Option Nat :=
  if src == 0 then (if off < 32 then mdata[off]? else none)
  else
    match sourceStart r src with
    | none => none
    | some st =>
      let p := st + off
      if p ≥ 256 || (!i.longer && p ≥ i.len) || (r.early && p ≥ r.lastEnd) then none else i.window[p]?

/-- The keys in building: exact-match bytes (64), masked-search bytes (80) and the presence vector. -/
structure KeyBuf where
  em : List Nat
  msk : List Nat
  presence : Nat
  deriving DecidableEq, Repr

/-- One extraction instruction, number `n` (R126, R127). -/
def runExtract (i : ParseIn) (r : ParseRes) (mdata : List Nat) (n w : Nat) (k : KeyBuf) : KeyBuf :=
  let src := bitsOf w 31 28
  let off := bitsOf w 27 20
  let width := bitsOf w 19 16 + 1
  let dst := bitsOf w 14 8
  let got := (List.range width).map fun j => extractByte i r mdata src (off + j)
  let bytes := got.map (·.getD 0)
  let k1 := if bitOf w 15 then { k with msk := putBytes k.msk dst bytes } else { k with em := putBytes k.em dst bytes }
  { k1 with presence := putBit' k1.presence n (got.all Option.isSome) }
where
  /-- Bit `b` of a number set or cleared. -/
  putBit' (v b : Nat) (on : Bool) : Nat := v - (b2n (bitOf v b)) <<< b + (b2n on) <<< b

/-- The two keys a key profile builds (R126, R127): its instructions in index order over zero bytes. -/
def buildKeys (prof : List Nat) (i : ParseIn) (r : ParseRes) (mdata : List Nat) : KeyBuf :=
  let n := bitsOf (wordAt prof 0) 4 0
  ((prof.drop 1).take n).zipIdx.foldl (fun k wi => runExtract i r mdata wi.2 wi.1 k)
    ⟨List.replicate 64 0, List.replicate 80 0, 0⟩

/-- Whether a key profile may be written (R126): word sizes, codes, and instructions within their key's length. -/
def keyProfileOk (p : List Nat) : Bool :=
  let c := wordAt p 0
  let n := bitsOf c 4 0
  p.length == 25 && p.all (fun w => decide (w < 2 ^ 32)) && bitsOf c 31 30 != 3 && decide (bitsOf c 29 28 < 2)
    && decide (bitsOf c 27 24 ≤ 8) && decide (bitsOf c 23 20 ≤ 4) && decide (n ≤ 24)
    && ((p.drop 1).take n).all fun w =>
        decide (bitsOf w 31 28 < 14)
          && decide (bitsOf w 14 8 + bitsOf w 19 16 + 1
              ≤ (if bitOf w 15 then bitsOf c 23 20 * 20 else bitsOf c 27 24 * 8))

/-- Whether a key source (1 outer; 2 inner, or outer when there is no inner L3) means the inner layers. -/
def useInner (r : ParseRes) (src : Nat) : Bool := src == 2 && (r.roleLayer 2 true).isSome

/-- An IPv4 address in IPv4-mapped form (R130). -/
def mapped (a : List Nat) : List Nat := List.replicate 10 0 ++ [255, 255] ++ a

/-- The upper-layer protocol of an L3 layer: the IPv4 protocol, or the last IPv6 next-header value (R130). -/
def upperProto (win : List Nat) (r : ParseRes) (l3 : Layer) : Nat :=
  if l3.ltype == 0x04 then win.getD (l3.start + 9) 0
  else
    let after := (r.layers.dropWhile fun l => decide (l.start ≤ l3.start)).takeWhile
      fun l => l.ltype == 0x06 || l.ltype == 0x07 || l.ltype == 0x08
    match after.getLast? with
    | some l => win.getD l.start 0
    | none => win.getD (l3.start + 6) 0

/-- The ports of the canonical key (R130). -/
def keyPorts (win : List Nat) (r : ParseRes) (inner : Bool) (proto : Nat) : List Nat :=
  let l4 := r.roleLayer 3 inner
  let icmp := (r.layers.filter fun l => l.inner == inner && (l.ltype == 0x09 || l.ltype == 0x0A)).getLast?
  if r.fragment then [0, 0, 0, 0]
  else if proto == 6 || proto == 17 || proto == 132 then
    match l4 with
    | some l => bytesAt win l.start 4
    | none => [0, 0, 0, 0]
  else if proto == 1 || proto == 58 then
    match icmp with
    | some l =>
      let t := win.getD l.start 0
      let echo := if l.ltype == 0x09 then t == 8 || t == 0 else t == 128 || t == 129
      if echo then bytesAt win (l.start + 4) 2 ++ [0, 0] else [0, 0, 0, 0]
    | none => [0, 0, 0, 0]
  else [0, 0, 0, 0]

/-- The canonical key as the key builder leaves it, profile and VRF still zero (R129, R130); none where flow_src is 0
or there is no L3 layer of the chosen kind (R132). -/
def canonicalKey (win : List Nat) (r : ParseRes) (flowSrc : Nat) : Option (List Nat) :=
  if flowSrc == 0 then none
  else
    let inner := useInner r flowSrc
    match r.roleLayer 2 inner with
    | none => none
    | some l3 =>
      let v6 := l3.ltype == 0x05
      let src := if v6 then bytesAt win (l3.start + 8) 16 else mapped (bytesAt win (l3.start + 12) 4)
      let dst := if v6 then bytesAt win (l3.start + 24) 16 else mapped (bytesAt win (l3.start + 16) 4)
      let proto := upperProto win r l3
      some ([0, 0, 0, 0] ++ src ++ dst ++ keyPorts win r inner proto ++ [proto] ++ List.replicate 7 0)

/-- The frame whose L2 keys are used: the inner Ethernet frame when chosen and present, else the outer (R148). -/
def fwdFrame (r : ParseRes) (fwdSrc : Nat) : Option Layer :=
  if fwdSrc == 1 then (r.roleLayer 1 true).orElse fun _ => r.roleLayer 1 false else r.roleLayer 1 false

/-- The VLAN identifier of a frame's outermost tag, if it carries one (R148). -/
def frameVlan (win : List Nat) (r : ParseRes) (l2 : Layer) : Option Nat :=
  match r.layers.dropWhile (fun l => decide (l.start ≤ l2.start)) with
  | l :: _ => if l.ltype == 0x02 then some (beAt win l.start 2 % 4096) else none
  | [] => none

/-- The destination address of the L3 layer the forwarding keys use (R127, R148): IPv6 or not, and its bytes. -/
def fwdAddress (win : List Nat) (r : ParseRes) (fwdSrc : Nat) : Option (Bool × List Nat) :=
  let inner := fwdSrc == 1 && (r.roleLayer 2 true).isSome
  (r.roleLayer 2 inner).map fun l =>
    if l.ltype == 0x05 then (true, bytesAt win (l.start + 24) 16) else (false, bytesAt win (l.start + 16) 4)

/-! ## The standard graph (R116, R605) -/

/-- An entry put together from its fields (R109). -/
def gEntry (state selOff mtch mask ltype lenMode lenFixed lenOff lenShift lenMult fmask add next min check scan : Nat)
    (inner term ptp : Bool) (role kc : Nat) (frag : Bool) : List Nat :=
  [0, 0,
   check <<< 29 + scan <<< 27 + b2n inner <<< 26 + b2n term <<< 25 + b2n ptp <<< 24 + role <<< 20 + kc <<< 15
     + b2n frag <<< 14,
   fmask <<< 24 + add <<< 16 + next <<< 8 + min,
   ltype <<< 26 + lenMode <<< 24 + lenFixed <<< 16 + lenOff <<< 10 + lenShift <<< 6 + lenMult <<< 4,
   mask, mtch, 1 <<< 31 + state <<< 16 + selOff <<< 10]

/-- An entry with a fixed length. -/
def gFixed (state selOff mtch mask ltype len next check : Nat) (inner term : Bool) (role kc : Nat) : List Nat :=
  gEntry state selOff mtch mask ltype 0 len 0 0 0 0 0 next 0 check 0 inner term false role kc false

/-- The EtherTypes the graph recognises and the states they lead to, tags first. -/
def etherNext (tag : Nat) : List (Nat × Nat) :=
  [(0x8100, tag), (0x88A8, tag), (0x8847, 0x05), (0x8848, 0x05), (0x0800, 0x10), (0x86DD, 0x11), (0x88F7, 0x20)]

/-- Entries of an Ethernet or tag state. -/
def etherEntries (state selOff ltype len role tag : Nat) (last : Bool) : List (List Nat) :=
  (etherNext tag).map (fun en =>
    if last && (en.1 == 0x8100 || en.1 == 0x88A8) then
      gEntry state selOff (en.1 <<< 16) 0xFFFF0000 ltype 3 0 0 0 0 0 0 0 0 0 0 false false false role 0 false
    else gFixed state selOff (en.1 <<< 16) 0xFFFF0000 ltype len en.2 0 false false role 0)
  ++ [gFixed state selOff 0 0 ltype len 0 0 false true role 0]

/-- Entries of an MPLS state. -/
def mplsEntries (state : Nat) : List (List Nat) :=
  [if state == 0x0A then
      gEntry state 2 0 0x01000000 0x03 3 0 0 0 0 0 0 0 0 0 0 false false false 0 0 false
    else gFixed state 2 0 0x01000000 0x03 4 (state + 1) 0 false false 0 0,
   gFixed state 2 0x01004000 0x0100F000 0x03 4 0x10 0 false false 0 0,
   gFixed state 2 0x01006000 0x0100F000 0x03 4 0x11 0 false false 0 0,
   gFixed state 2 0 0 0x03 4 0 0 false true 0 0]

/-- An IPv4 entry (R116 and its encoding example). -/
def ipv4Entry (mtch mask next : Nat) (term : Bool) (kc : Nat) (frag : Bool) : List Nat :=
  gEntry 0x10 6 mtch mask 0x04 1 0 0 8 2 0x0F 0 next 20 1 1 false term false 2 kc frag

/-- The IPv4 entries. -/
def ipv4Entries : List (List Nat) :=
  ([(6, 0x18), (17, 0x19), (132, 0x1A), (1, 0x1B), (47, 0x1D)] : List (Nat × Nat)).map
    (fun pn => ipv4Entry pn.1 0x3FFF00FF pn.2 false 1 false)
  ++ [ipv4Entry 0 0x3FFF0000 0 true 1 false, ipv4Entry 0 0 0 true 4 true]

/-- Next-header values that lead to a state after IPv6 and its extension headers. -/
def ipv6Next : List (Nat × Nat) := [(44, 0x16), (6, 0x18), (17, 0x19), (132, 0x1A), (58, 0x1C), (47, 0x1D)]

/-- The IPv6 entries. -/
def ipv6Entries : List (List Nat) :=
  (([(0, 0x12), (43, 0x12), (60, 0x12)] : List (Nat × Nat)) ++ ipv6Next).map
    (fun pn => gFixed 0x11 4 (pn.1 <<< 8) 0x0000FF00 0x05 40 pn.2 2 false false 2 2)
  ++ [gFixed 0x11 4 0 0 0x05 40 0 2 false true 2 2]

/-- An extension-header entry. -/
def extEntry (state mtch mask ltype next : Nat) (term : Bool) : List Nat :=
  gEntry state 0 mtch mask ltype 1 0 0 0 3 0xFF 8 next 8 0 0 false term false 0 2 false

/-- The entries of an extension-header state: routing type 4 is an SRH whatever its next header. -/
def extEntries (state : Nat) : List (List Nat) :=
  let more : List (List Nat) := [0, 43, 60].flatMap fun nh =>
    if state == 0x15 then
      [gEntry state 0 (nh <<< 24) 0xFF000000 0x06 3 0 0 0 0 0 0 0 0 0 0 false false false 0 2 false]
    else [extEntry state (nh <<< 24 + 4 <<< 8) 0xFF00FF00 0x08 (state + 1) false,
          extEntry state (nh <<< 24) 0xFF000000 0x06 (state + 1) false]
  let up : List (List Nat) := ipv6Next.flatMap fun pn =>
    [extEntry state (pn.1 <<< 24 + 4 <<< 8) 0xFF00FF00 0x08 pn.2 false,
     extEntry state (pn.1 <<< 24) 0xFF000000 0x06 pn.2 false]
  more ++ up ++ [extEntry state (4 <<< 8) 0x0000FF00 0x08 0 true, extEntry state 0 0 0x06 0 true]

/-- The layer-4 entries and the PTP entry. -/
def l4Entries : List (List Nat) :=
  [gEntry 0x16 0 0 0 0x07 0 8 0 0 0 0 0 0 0 0 0 false true false 0 5 true,
   gEntry 0x18 0 0 0 0x0B 1 0 12 12 2 0x0F 0 0 20 0 0 false true false 3 0 false,
   gFixed 0x19 2 (4789 <<< 16) 0xFFFF0000 0x0C 8 0x1E 3 false false 3 0,
   gFixed 0x19 2 (6081 <<< 16) 0xFFFF0000 0x0C 8 0x1F 3 false false 3 0,
   gFixed 0x19 2 (319 <<< 16) 0xFFFF0000 0x0C 8 0x20 3 false false 3 0,
   gFixed 0x19 2 0 0 0x0C 8 0 3 false true 3 0,
   gFixed 0x1A 0 0 0 0x0D 12 0 0 false true 3 0,
   gFixed 0x1B 0 0 0 0x09 8 0 0 false true 3 0,
   gFixed 0x1C 0 0 0 0x0A 8 0 0 false true 3 0,
   gEntry 0x20 0 0 0 0x11 0 34 0 0 0 0 0 0 0 0 0 false true true 5 3 false]

/-- A GRE entry for given C and K flags: the S flag's four bytes come from the length field. -/
def greEntry (c k : Nat) (proto mask next : Nat) (term : Bool) : List Nat :=
  gEntry 0x1D 0 (c <<< 31 + k <<< 29 + proto) (0xA0000000 + mask) 0x0E 1 0 0 12 2 1 (4 + 4 * (c + k)) next 0 0 0
    (!term) term false 4 0 false

/-- The tunnel entries. -/
def tunnelEntries : List (List Nat) :=
  ([(0, 0), (0, 1), (1, 0), (1, 1)] : List (Nat × Nat)).flatMap (fun ck =>
    [greEntry ck.1 ck.2 0x6558 0xFFFF 0x01 false, greEntry ck.1 ck.2 0x0800 0xFFFF 0x10 false,
     greEntry ck.1 ck.2 0x86DD 0xFFFF 0x11 false, greEntry ck.1 ck.2 0x8847 0xFFFF 0x05 false,
     greEntry ck.1 ck.2 0 0 0 true])
  ++ [gFixed 0x1E 0 0 0 0x0F 8 0x01 0 true false 4 0,
      gEntry 0x1F 0 0x6558 0xFFFF 0x10 1 0 0 8 2 0x3F 8 0x01 0 0 2 true false false 4 0 false,
      gEntry 0x1F 0 0 0 0x10 1 0 0 8 2 0x3F 8 0 0 0 2 false true false 4 0 false]

/-- The standard graph's entries, in the order they are loaded from entry 0 on (R116). -/
def standardEntries : List (List Nat) :=
  etherEntries 0x01 12 0x01 14 1 0x02 false ++ etherEntries 0x02 2 0x02 4 0 0x03 false
  ++ etherEntries 0x03 2 0x02 4 0 0x04 false ++ etherEntries 0x04 2 0x02 4 0 0 true
  ++ [0x05, 0x06, 0x07, 0x08, 0x09, 0x0A].flatMap mplsEntries ++ ipv4Entries ++ ipv6Entries
  ++ [0x12, 0x13, 0x14, 0x15].flatMap extEntries ++ l4Entries ++ tunnelEntries

/-- The header graph as firmware loads it at initialisation (R116). -/
def standardGraph : SMap (List Nat) := standardEntries.zipIdx.map fun e => (e.2, e.1)

end Sys2Proof.Machine
end

