-- ==== Sys2Proof/Machine/Masked.lean ====
section
/-! DEFINITION. The masked search arrays: the search, the scrubber and the masked-search commands (chapter 6). -/

namespace Sys2Proof.Machine

/-- A bank's settings; at reset its width is 1 and its rank its number (R170). -/
def State.mskBank (s : State) (b : Nat) : MskBank := SMap.getD s.msk.banks b ⟨1, b⟩

/-- The physical index of entry `i` of a bank (R171). -/
def State.mskIndex (s : State) (b i : Nat) : Nat := 1024 * b + i * (s.mskBank b).width

/-- Two byte lists agree under two masks. -/
def maskedEq : List Nat → List Nat → List Nat → List Nat → Bool
  | v :: vs, m :: ms, k :: ks, g :: gs => Nat.land (Nat.land (Nat.xor k v) m) g == 0 && maskedEq vs ms ks gs
  | _, _, _, _ => true

/-- A word list as its bytes, most significant first. -/
def wordBytes (ws : List Nat) : List Nat := ws.flatMap (bytesBE 4)

/-- The global mask of a lookup profile: 80 bytes, byte 0 in word 19 (R173). -/
def gmaskOf (p : List Nat) : List Nat := wordBytes (p.take 20).reverse

/-- Banks a lookup profile selects; none when it is not valid (R173, R174). -/
def bankSel (p : List Nat) : Nat := if bitOf (wordAt p 20) 31 then wordAt p 20 % 65536 else 0

/-- Control bits and whole-entry action of an entry nothing has written. -/
def MskEntry.none : MskEntry := ⟨false, false, false, 1, [], [], [0, 0, 0, 0]⟩

/-- The action at a physical index. -/
def State.mskAction (s : State) (phys : Nat) : List Nat := SMap.getD s.msk.actions phys [0, 0, 0, 0]

/-- A unit's shroud copy (R184). -/
def State.mskUnit (s : State) (phys : Nat) : MskUnit := SMap.getD s.msk.units phys MskUnit.zero

/-- A unit of a pipeline's array: upset contents where an upset struck it, else as its shroud copy (R184, R186). -/
def State.mskRow (s : State) (pipe phys : Nat) : MskUnit := SMap.getD s.msk.arrays (16384 * pipe + phys) (s.mskUnit phys)

/-- An entry put together from its `w` units; its control bits stand in the first (R172). -/
def MskEntry.ofUnits (get : Nat → MskUnit) (phys w : Nat) (action : List Nat) : MskEntry :=
  let us := (List.range w).map fun i => get (phys + i)
  let u := get phys
  ⟨u.valid, u.ep0, u.ep1, u.width, us.flatMap (·.value), us.flatMap (·.mask), action⟩

/-- The entry at a physical index, as the shroud copies hold it. -/
def State.mskAt (s : State) (phys : Nat) : MskEntry :=
  MskEntry.ofUnits s.mskUnit phys (s.mskBank (phys / 1024)).width (s.mskAction phys)

/-- The entry at a physical index, as a pipeline's array holds it. -/
def State.mskSeen (s : State) (pipe phys : Nat) : MskEntry :=
  MskEntry.ofUnits (s.mskRow pipe) phys (s.mskBank (phys / 1024)).width (s.mskAction phys)

/-- An entry matches a key under a profile's global mask (R175), on upset contents too (R186); a suspect one matches
every key (R187). -/
def State.mskMatches (s : State) (pipe phys : Nat) (e : MskEntry) (key gm : List Nat) (epoch : Nat) : Bool :=
  s.msk.suspect.contains (16384 * pipe + phys) ||
    (e.valid && memberOf e.ep0 e.ep1 epoch && maskedEq e.value e.mask key gm)

/-- The physical indexes a search looks at, each the first unit of an entry: those with a unit that is listed, upset in
the pipeline or suspect in it; any other entry is not valid. -/
def State.mskPlaces (s : State) (pipe : Nat) : List Nat :=
  let here := fun (l : List Nat) => (l.filter fun k => k / 16384 == pipe).map (· % 16384)
  let all := SMap.keys s.msk.units ++ here (SMap.keys s.msk.arrays) ++ here s.msk.suspect
  (all.filter fun p => p % 1024 % (s.mskBank (p / 1024)).width == 0).eraseDups

/-- The matching entries of a search, each as its bank's rank, its position and its physical index. -/
def State.mskMatchList (s : State) (pipe sel : Nat) (key gm : List Nat) (epoch : Nat) : List (Nat × Nat × Nat) :=
  (s.mskPlaces pipe).filterMap fun phys =>
    if bitOf sel (phys / 1024) && s.mskMatches pipe phys (s.mskSeen pipe phys) key gm epoch then
      some ((s.mskBank (phys / 1024)).prio, phys % 1024, phys)
    else none

/-- Lower rank first, then lower position. -/
def mskBefore (a b : Nat × Nat × Nat) : Bool := decide (a.1 < b.1) || (a.1 == b.1 && decide (a.2.1 < b.2.1))

/-- The best of a list of matches; of equal ones the lower physical index (R176). -/
def mskBest : List (Nat × Nat × Nat) → Option (Nat × Nat × Nat)
  | [] => none
  | m :: ms =>
    match mskBest ms with
    | none => some m
    | some b => some (if mskBefore m b || (!mskBefore b m && m.2.2 < b.2.2) then m else b)

/-- A masked search: counts, hit bit, the winner's physical index (R174, R176, R177). -/
def State.mskSearch (s : State) (pipe profile : Nat) (key : List Nat) (epoch : Nat) : State × Option Nat :=
  let p := SMap.getD s.msk.profiles profile []
  let sel := bankSel p
  let banks := ((List.range 16).filter fun b => bitOf sel b).length
  let ms := s.mskMatchList pipe sel key (gmaskOf p) epoch
  let s1 := s.count (C.mskBankSearches pipe) banks
  match mskBest ms with
  | none => (s1.count (C.mskMiss pipe), none)
  | some b =>
    let tied := (ms.filter fun m => m.1 == b.1 && m.2.1 == b.2.1).length > 1
    let s2 := if tied then (s1.count (C.mskMultiMatch pipe)).setF F.mskEvent_multiMatchSeen pipe 1 else s1
    let k := 16384 * pipe + b.2.2
    let hits := if s2.msk.hits.contains k then s2.msk.hits else k :: s2.msk.hits
    (({ s2 with msk := { s2.msk with hits := hits } }).count (C.mskHit pipe), some b.2.2)

/-- MSK_SCRUB_CAPTURE takes an event while it holds none (R192). -/
def State.mskCapture (s : State) (pipe kind phys : Nat) : State :=
  if s.getB F.mskScrubCapture_valid pipe then s
  else (((s.setF F.mskScrubCapture_valid pipe 1).setF F.mskScrubCapture_kind pipe kind).setF F.mskScrubCapture_bank pipe
    (phys / 1024)).setF F.mskScrubCapture_unit pipe (phys % 1024)

/-- MSK_STATUS of a pipeline follows the arrays. -/
def State.syncMsk (s : State) (pipe : Nat) : State :=
  let units := s.msk.units.foldl (fun a e => if e.2.valid then a + e.2.width else a) 0
  (s.setF F.mskStatus_validUnits pipe units).setB F.mskStatus_suspectPresent pipe
    (s.msk.suspect.any fun k => k / 16384 == pipe)

/-- MSK_STATUS of every pipeline. -/
def State.syncMskAll (s : State) : State := (List.range 32).foldl State.syncMsk s

/-- The first unit of the entry that a unit belongs to. -/
def State.entryOfUnit (s : State) (phys : Nat) : Nat :=
  1024 * (phys / 1024) + phys % 1024 / (s.mskBank (phys / 1024)).width * (s.mskBank (phys / 1024)).width

/-- An upset changes a unit of a pipeline's array (R186); contents equal to the shroud copy's are no difference. -/
def State.mskUpset (s : State) (pipe : Nat) (u : MskUpset) : State :=
  let k := 16384 * pipe + u.phys
  let a := if u.row = s.mskUnit u.phys then SMap.del s.msk.arrays k else SMap.set s.msk.arrays k u.row
  { s with msk := { s.msk with arrays := a } }

/-- Units of a pipeline's array rewritten from their shroud copies. -/
def State.mskRestore (s : State) (pipe phys w : Nat) : State :=
  let off := fun (k : Nat) (_ : MskUnit) => !(16384 * pipe + phys ≤ k && k < 16384 * pipe + phys + w)
  { s with msk := { s.msk with arrays := SMap.keep off s.msk.arrays } }

/-- The next unit of a pipeline is compared with its shroud copy (R185, R187). -/
def State.mskVisit (s : State) (pipe shroud : Nat) : State :=
  let pos := s.getF F.mskStatus_scrubPos pipe
  let s1 := s.setF F.mskStatus_scrubPos pipe ((pos + 1) % 16384)
  let k := 16384 * pipe + s.entryOfUnit pos
  let unlike := SMap.has s.msk.arrays (16384 * pipe + pos)
  let s2 := if shroud == 1 then
      ((s1.setF F.mskEvent_shroudCorrSeen pipe 1).mskCapture pipe 1 pos).raise 0x4202 pipe
    else if shroud == 2 then
      let t := (s1.setF F.mskEvent_shroudUncorrSeen pipe 1).mskCapture pipe 2 pos
      if unlike then
        ({ t with msk := { t.msk with suspect := k :: t.msk.suspect.filter (· != k) } }).syncMsk pipe
      else { t with msk := { t.msk with badShroud := k :: t.msk.badShroud.filter (· != k) } }
    else s1
  if unlike && shroud < 2 then
    ((((s2.mskRestore pipe pos 1).count (C.mskScrubFix pipe)).setF F.mskEvent_scrubFixSeen pipe 1).mskCapture pipe 0
      pos).raise 0x4201 pipe
  else s2

/-- MSK_SCRUB_VISIT (R185 to R187): an upset that struck the pipeline's array since the last visit takes effect, whichever
unit it struck, and the scrubber visits its next unit. `shroud` is what the read of the shroud copy finds: 0 good, 1 a
single-bit error, 2 a double-bit error. -/
def execMskScrubVisit (pipe : Nat) (upset : Option MskUpset) (shroud : Nat) (s : State) : Host.Outcome State Fault Refusal :=
  .next (if pipe ≥ 32 then s
    else
      let s1 := match upset with
        | some u => s.mskUpset pipe u
        | none => s
      if s1.getB F.mskCtrl_scrubEn pipe then s1.mskVisit pipe shroud else s1)

/-- MSK_SUSPECT_REPAIR (R187): firmware rewrites the entry in array and shroud. -/
def execMskSuspectRepair (pipe bank unit : Nat) (s : State) : Host.Outcome State Fault Refusal :=
  let k := 16384 * pipe + 1024 * bank + unit
  .next (if s.msk.suspect.contains k || s.msk.badShroud.contains k then
      let t := s.mskRestore pipe (1024 * bank + unit) (s.mskBank bank).width
      (({ t with msk := { t.msk with
          suspect := t.msk.suspect.filter (· != k), badShroud := t.msk.badShroud.filter (· != k) } }).syncMsk
        pipe).raise 0x4203 pipe
    else s)

/-- MSK_ACTION_REPAIR (R188): firmware rewrites the action in the pipeline. -/
def execMskActionRepair (pipe bank unit : Nat) (s : State) : Host.Outcome State Fault Refusal :=
  let k := 16384 * pipe + 1024 * bank + unit
  .next (if s.msk.badAction.contains k then
      ({ s with msk := { s.msk with badAction := s.msk.badAction.filter (· != k) } }).raise 0x4205 pipe
    else s)

/-! ## Commands (R190) -/

/-- MSK_BANK_CONFIG (R170): `width` in units. -/
def execMskBankConfig (h : CmdHdr) (bank width prio : Nat) (s : State) : Host.Outcome State Fault Refusal :=
  .next (s.cmd (.mskBankConfig h bank width prio) h attrNone
      [decide (bank < 16), width == 1 || width == 2 || width == 4, decide (prio < 16)] fun s =>
    if width != (s.mskBank bank).width && s.msk.units.any (fun e => e.1 / 1024 == bank && e.2.valid) then
      (s, .err eBusy)
    else ({ s with msk := { s.msk with banks := SMap.set s.msk.banks bank ⟨width, prio⟩ } }, .ok))

/-- MSK_PROFILE_SET (R173). -/
def execMskProfileSet (h : CmdHdr) (index : Nat) (words : List Nat) (s : State) : Host.Outcome State Fault Refusal :=
  .next (s.cmd (.mskProfileSet h index words) h attrNone
      [decide (index < 64), words.length == 21 && words.all (fun w => decide (w < 2 ^ 32))
      && bitsOf (wordAt words 20) 30 16 == 0] fun s =>
    ({ s with msk := { s.msk with profiles := SMap.set s.msk.profiles index words } }, .ok))

/-- Entry `index` exists in a bank of its width. -/
def State.mskIn (s : State) (bank index : Nat) : Bool := decide (index * (s.mskBank bank).width < 1024)

/-- The lock of a masked-search entry. -/
def mskLock (bank index : Nat) : TxLock := ⟨5, bank, index⟩

/-- A unit written in its shroud copy and in every pipeline's array in the same cycle (R184). -/
def State.mskPutUnit (s : State) (phys : Nat) (u : MskUnit) : State :=
  { s with msk := { s.msk with units := SMap.put MskUnit.zero s.msk.units phys u,
                                arrays := SMap.keep (fun k _ => k % 16384 != phys) s.msk.arrays } }

/-- The control bits of an entry's first unit written in its shroud copy and in every array (R180, R184); an upset of the
unit's value or mask stays. -/
def State.mskControl (s : State) (phys : Nat) (f : MskUnit → MskUnit) : State :=
  let u := f (s.mskUnit phys)
  let c := fun (r : MskUnit) => { u with value := r.value, mask := r.mask }
  { s with msk := { s.msk with
      units := SMap.put MskUnit.zero s.msk.units phys u,
      arrays := SMap.keep (fun k r => k % 16384 != phys || r != u)
        (SMap.mapVal (fun k r => if k % 16384 == phys then c r else r) s.msk.arrays) } }

/-- An entry's action written in every pipeline; a damaged one is sound again (R180, R188). -/
def State.mskPutAction (s : State) (phys : Nat) (action : List Nat) : State :=
  { s with msk := { s.msk with actions := SMap.put [0, 0, 0, 0] s.msk.actions phys action,
                                badAction := s.msk.badAction.filter fun k => k % 16384 != phys } }

/-- Unit `i` of an entry, over what the unit held: only the first one's control bits are written (R172, R178). -/
def MskEntry.unit (e : MskEntry) (i : Nat) (old : MskUnit) : MskUnit :=
  let v := (e.value.drop (20 * i)).take 20
  let m := (e.mask.drop (20 * i)).take 20
  if i == 0 then ⟨e.valid, e.ep0, e.ep1, e.width, v, m⟩ else { old with value := v, mask := m }

/-- An entry written: its units, its action; suspect and damage go, the hit bit stays (R172, R178, R187, R188). -/
def State.mskSet (s : State) (bank index : Nat) (e : MskEntry) : State :=
  let phys := s.mskIndex bank index
  let s1 := (List.range (s.mskBank bank).width).foldl
    (fun t i => t.mskPutUnit (phys + i) (e.unit i (t.mskUnit (phys + i)))) s
  let off := fun (k : Nat) => k % 16384 != phys
  let s2 := s1.mskPutAction phys e.action
  ({ s2 with msk := { s2.msk with
      suspect := s2.msk.suspect.filter off, badShroud := s2.msk.badShroud.filter off } }).syncMskAll

/-- An entry stops matching; its other contents stay (R180). -/
def State.mskInvalidate (s : State) (bank index : Nat) : State :=
  (s.mskControl (s.mskIndex bank index) fun u => { u with valid := false }).syncMskAll

/-- Bytes of a key image. -/
def keyBytesOk (l : List Nat) (n : Nat) : Bool := l.length == n && l.all fun b => decide (b < 256)

/-- An entry of the old epoch only may not change until swap-complete (R181). -/
def State.mskFrozen (s : State) (bank index : Nat) : Bool :=
  let e := s.mskAt (s.mskIndex bank index)
  e.valid && s.oldOnly e.ep0 e.ep1

/-- MSK_WRITE (R178, R179, R181, R190). -/
def execMskWrite (h : CmdHdr) (bank index : Nat) (ep0 ep1 : Bool) (width : Nat) (value mask action : List Nat)
    (s : State) : Host.Outcome State Fault Refusal :=
  .next (s.cmdTx (.mskWrite h bank index ep0 ep1 width value mask action) h
    [decide (bank < 16), s.mskIn bank index, ep0 || ep1, true, width == (s.mskBank bank).width,
     keyBytesOk value (20 * (s.mskBank bank).width), keyBytesOk mask (20 * (s.mskBank bank).width), actionOk action]
    fun s =>
      if s.mskFrozen bank index then (s, .err eEpoch)
      else match s.conflict [mskLock bank index] with
        | some r => (s, r)
        | none => (s.mskSet bank index ⟨true, ep0, ep1, width, value, mask, action⟩, .ok))

/-- A command that changes one valid entry in one write-port cycle (R180, R181, R190). -/
def State.mskChange (s : State) (bank index : Nat) (f : State → State) : State × Rsp :=
  if !(s.mskIn bank index && (s.mskAt (s.mskIndex bank index)).valid) then (s, .err eNoent)
  else if s.mskFrozen bank index then (s, .err eEpoch)
  else match s.conflict [mskLock bank index] with
    | some r => (s, r)
    | none => (f s, .ok)

/-- MSK_MODIFY_ACTION (R180). -/
def execMskModifyAction (h : CmdHdr) (bank index : Nat) (action : List Nat) (s : State) :
    Host.Outcome State Fault Refusal :=
  .next (s.cmdTx (.mskModifyAction h bank index action) h [decide (bank < 16), true, actionOk action] fun s =>
    s.mskChange bank index fun t => t.mskPutAction (t.mskIndex bank index) action)

/-- MSK_SET_MEMBERSHIP (R180, R190). -/
def execMskSetMembership (h : CmdHdr) (bank index : Nat) (ep0 ep1 : Bool) (s : State) :
    Host.Outcome State Fault Refusal :=
  .next (s.cmdTx (.mskSetMembership h bank index ep0 ep1) h [decide (bank < 16), s.mskIn bank index, ep0 || ep1] fun s =>
    s.mskChange bank index fun t => t.mskControl (t.mskIndex bank index) fun u => { u with ep0 := ep0, ep1 := ep1 })

/-- MSK_DELETE (R180): the entry stops matching; its other contents stay. -/
def execMskDelete (h : CmdHdr) (bank index : Nat) (s : State) : Host.Outcome State Fault Refusal :=
  .next (s.cmdTx (.mskDelete h bank index) h [decide (bank < 16)] fun s =>
    s.mskChange bank index fun t => t.mskInvalidate bank index)

/-- The image of an entry, word 0 first (R172). -/
def mskImage (e : MskEntry) (w : Nat) (suspect hit : Bool) : List Nat :=
  let code := if e.width == 1 then 0 else if e.width == 2 then 1 else 2
  let word (bs : List Nat) (i : Nat) : Nat := beAt bs (4 * i) 4
  let vals := ((List.range (5 * w)).map fun i => word e.value i).reverse
  let masks := ((List.range (5 * w)).map fun i => word e.mask i).reverse
  e.action ++ masks ++ vals ++ [b2n hit <<< 31,
    b2n e.valid <<< 31 + b2n e.ep1 <<< 30 + b2n e.ep0 <<< 29 + code <<< 27 + b2n suspect <<< 26]

/-- MSK_READ (R172, R190): hit is set where the entry won a search in any pipeline. -/
def execMskRead (h : CmdHdr) (bank index : Nat) (clearHit : Bool) (s : State) : Host.Outcome State Fault Refusal :=
  .next (s.cmd (.mskRead h bank index clearHit) h attrNone [decide (bank < 16), s.mskIn bank index] fun s =>
    let phys := s.mskIndex bank index
    let here := fun (k : Nat) => k % 16384 == phys
    let img := mskImage (s.mskAt phys) (s.mskBank bank).width (s.msk.suspect.any here) (s.msk.hits.any here)
    let s1 := if clearHit then { s with msk := { s.msk with hits := s.msk.hits.filter fun k => !here k } } else s
    (s1, .val img))

/-- MSK_SCRUB_CONFIG (R190, R192): Criod writes all 32 instances alike. -/
def execMskScrubConfig (h : CmdHdr) (scrubEn : Bool) (s : State) : Host.Outcome State Fault Refusal :=
  .next (s.cmd (.mskScrubConfig h scrubEn) h attrNone [true] fun s => (s.setAll F.mskCtrl_scrubEn 32 (b2n scrubEn), .ok))

end Sys2Proof.Machine
end

