-- ==== Sys2Proof/Machine/Tables.lean ====
section
/-! DEFINITION. The rule and forwarding tables' commands and events: rule entries, L2, routes, next hops, ECMP, profiles,
repairs, the L2 ager (chapter 5). -/

namespace Sys2Proof.Machine

/-! ## Memory errors (R155) -/

/-- CLS_ECC_CAPTURE takes an error while it holds none. -/
def State.clsCapture (s : State) (pipe table index : Nat) (unc : Bool) : State :=
  if s.getB F.clsEccCapture_valid pipe then s
  else (((s.setF F.clsEccCapture_valid pipe 1).setB F.clsEccCapture_uncorrectable pipe unc).setF F.clsEccCapture_table pipe
    table).setF F.clsEccCapture_index pipe index

/-- A memory error a lookup of a pipeline met: a single-bit error is corrected; a double-bit error damages the entry on
the pipeline's die, or, in both copies, reports severity S2 (R155). -/
def State.clsEcc (s : State) (pipe : Nat) (e : EccErr) : State :=
  let die := pipe / 16
  if e.double then
    let s1 := (s.setF F.clsEvent_eccUncorrSeen pipe 1).clsCapture pipe e.table e.index true
    let rest := s1.cls.damaged.filter (· != (die, e.table, e.index))
    let s2 := { s1 with cls := { s1.cls with damaged := (die, e.table, e.index) :: rest } }
    if s.cls.damaged.contains (1 - die, e.table, e.index) then s2.raise 0x4103 pipe else s2
  else ((s.setF F.clsEvent_eccCorrSeen pipe 1).clsCapture pipe e.table e.index false).raise 0x4101 pipe

/-- CLS_ENTRY_REPAIR (R155): firmware rewrites the entry of a die from the other die's copy; an entry damaged in both
copies stays invalid until software rewrites it. -/
def execClsEntryRepair (die table index : Nat) (s : State) : Host.Outcome State Fault Refusal :=
  .next (if s.cls.damaged.contains (die, table, index) && !s.cls.damaged.contains (1 - die, table, index) then
      ({ s with cls := { s.cls with damaged := s.cls.damaged.filter (· != (die, table, index)) } }).raise 0x4102
        (16 * die)
    else s)

/-- A command's write makes an entry whole on both dies; damage in both copies ends with it (R155). -/
def State.mendCls (s : State) (table index : Nat) : State :=
  let hit := s.cls.damaged.any fun d => d.2 == (table, index)
  let s1 := { s with cls := { s.cls with damaged := s.cls.damaged.filter fun d => d.2 != (table, index) } }
  if hit then (List.range 32).foldl (fun t p => t.endCondition 0x4103 p) s1 else s1

/-- The entries that an insertion wrote, the new one and those it moved, are whole (R143, R155). -/
def State.mendNew {α : Type} [DecidableEq α] (s : State) (table : Nat) (old new : SMap α) : State :=
  (new.filter fun e => decide (SMap.find? old e.1 ≠ some e.2)).foldl (fun t e => t.mendCls table e.1) s

/-! ## Rule entries (R139 to R145, R163, R604) -/

/-- The rule-store lock of an entry: its two candidate buckets (R259). -/
def ruleLocks (seed : Nat) (e : RuleEntry) : List TxLock :=
  let (a, b) := (emCuckoo seed).cands e
  [⟨4, a, 0⟩, ⟨4, b, 0⟩]

/-- The rule entry of a table and key that is a member of an epoch. -/
def State.emFind (s : State) (table : Nat) (key : List Nat) (epoch : Nat) : Option (Nat × RuleEntry) :=
  SMap.first? s.cls.em fun _ e => e.table == table && e.key == key && e.member epoch

/-- Another entry of the table and key shares a membership bit (R142). -/
def State.emDup (s : State) (table : Nat) (key : List Nat) (ep0 ep1 : Bool) (but : Option Nat) : Bool :=
  s.cls.em.any fun e => some e.1 != but && e.2.table == table && e.2.key == key
    && ((ep0 && e.2.ep0) || (ep1 && e.2.ep1))

/-- The rule store with other entries. -/
def State.setEm (s : State) (m : SMap RuleEntry) : State := { s with cls := { s.cls with em := m } }

/-- A stash was used in every pipeline's event register. -/
def State.stashUsed (s : State) : State := s.setAll F.clsEvent_stashUsedSeen 32 1

/-- An entry inserted, or why not (R142, R143, R163). -/
def State.emInsert (s : State) (e : RuleEntry) : State × Rsp :=
  if s.oldOnly e.ep0 e.ep1 then (s, .err eEpoch)
  else if s.emDup e.table e.key e.ep0 e.ep1 none then (s, .err eExist)
  else match s.conflict (ruleLocks s.cls.ruleSeed e) with
    | some r => (s, r)
    | none =>
      match (emCuckoo s.cls.ruleSeed).place s.cls.em e with
      | none => (s, .err eNospace)
      | some (m, stash) =>
        let s1 := (s.setEm m).mendNew 0 s.cls.em m
        (if stash then s1.stashUsed else s1, .ok)

/-- An entry changed under the epoch rule and its locks. -/
def State.emChange (s : State) (table : Nat) (key : List Nat) (epoch : Nat)
    (f : State → Nat → RuleEntry → State × Rsp) : State × Rsp :=
  match s.emFind table key epoch with
  | none => (s, .err eNoent)
  | some (k, e) =>
    if s.oldOnly e.ep0 e.ep1 then (s, .err eEpoch)
    else match s.conflict (ruleLocks s.cls.ruleSeed e) with
      | some r => (s, r)
      | none => f s k e

/-- A table is declared, and a key has its length. -/
def State.emKeyOk (s : State) (table : Nat) (key : List Nat) : Bool :=
  match SMap.find? s.cls.emTables table with
  | some t => keyBytesOk key (8 * t.keyUnits)
  | none => false

/-- The data a wide entry passes to the rig: 40 bytes; none in a 64-byte entry. -/
def State.emDataOk (s : State) (table : Nat) (data : List Nat) : Bool :=
  match SMap.find? s.cls.emTables table with
  | some t => if t.wide then keyBytesOk data 40 else data.isEmpty
  | none => false

/-- EM_TABLE_CONFIG (R139, R140, R166). -/
def execEmTableConfig (h : CmdHdr) (table : Nat) (wide : Bool) (keyUnits : Nat) (s : State) :
    Host.Outcome State Fault Refusal :=
  .next (s.cmd (.emTableConfig h table wide keyUnits) h attrNone
      [decide (table < 16), true, decide (1 ≤ keyUnits) && decide (keyUnits ≤ if wide then 8 else 5)]
    fun s =>
      if s.cls.em.any fun e => e.2.table == table then (s, .err eBusy)
      else ({ s with cls := { s.cls with emTables := SMap.set s.cls.emTables table ⟨wide, keyUnits⟩ } }, .ok))

/-- EM_INSERT (R142, R143, R604). -/
def execEmInsert (h : CmdHdr) (table : Nat) (key : List Nat) (ep0 ep1 : Bool) (action data : List Nat) (s : State) :
    Host.Outcome State Fault Refusal :=
  .next (s.cmdTx (.emInsert h table key ep0 ep1 action data) h
      [(SMap.has s.cls.emTables table), s.emKeyOk table key, ep0 || ep1, true, actionOk action,
      s.emDataOk table data] fun s =>
    let t := SMap.getD s.cls.emTables table ⟨false, 1⟩
    s.emInsert ⟨t.wide, table, t.keyUnits, ep0, ep1, false, key, action, data⟩)

/-- EM_MODIFY (R163, R166). -/
def execEmModify (h : CmdHdr) (table : Nat) (key : List Nat) (epoch : Nat) (action data : List Nat) (s : State) :
    Host.Outcome State Fault Refusal :=
  .next (s.cmdTx (.emModify h table key epoch action data) h
      [decide (table < 16), true, decide (epoch < 2), actionOk action] fun s =>
    s.emChange table key epoch fun t k e =>
      (((t.setEm (SMap.set t.cls.em k { e with action := action, data := if e.wide then data else [] })).mendCls 0 k), .ok))

/-- EM_DELETE (R163, R166). -/
def execEmDelete (h : CmdHdr) (table : Nat) (key : List Nat) (epoch : Nat) (s : State) :
    Host.Outcome State Fault Refusal :=
  .next (s.cmdTx (.emDelete h table key epoch) h [decide (table < 16), true, decide (epoch < 2)] fun s =>
    s.emChange table key epoch fun t k _ => ((t.setEm (SMap.del t.cls.em k)).mendCls 0 k, .ok))

/-- EM_SET_MEMBERSHIP (R142, R163, R604). -/
def execEmSetMembership (h : CmdHdr) (table : Nat) (key : List Nat) (epoch : Nat) (ep0 ep1 : Bool) (s : State) :
    Host.Outcome State Fault Refusal :=
  .next (s.cmdTx (.emSetMembership h table key epoch ep0 ep1) h
      [decide (table < 16), true, decide (epoch < 2), ep0 || ep1] fun s =>
    s.emChange table key epoch fun t k e =>
      if t.emDup table key ep0 ep1 (some k) then (t, .err eExist)
      else ((t.setEm (SMap.set t.cls.em k { e with ep0 := ep0, ep1 := ep1 })).mendCls 0 k, .ok))

/-- The image of a rule entry, word 0 first (R145). -/
def ruleImage (e : RuleEntry) : List Nat :=
  let n := if e.wide then 16 else 10
  let keys := ((List.range n).map fun i => beAt e.key (4 * i) 4).reverse
  let dataW := if e.wide then ((List.range 10).map fun i => beAt e.data (4 * i) 4).reverse else []
  dataW ++ e.action ++ keys ++ [b2n e.hit <<< 31,
    1 <<< 31 + b2n e.ep1 <<< 30 + b2n e.ep0 <<< 29 + b2n e.wide <<< 28 + e.table <<< 24 + e.keyUnits <<< 20]

/-- EM_READ (R145, R166). -/
def execEmRead (h : CmdHdr) (table : Nat) (key : List Nat) (epoch : Nat) (clearHit : Bool) (s : State) :
    Host.Outcome State Fault Refusal :=
  .next (s.cmd (.emRead h table key epoch clearHit) h attrNone [decide (table < 16), true, decide (epoch < 2)] fun s =>
    match s.emFind table key epoch with
    | none => (s, .err eNoent)
    | some (k, e) =>
      (if clearHit then s.setEm (SMap.set s.cls.em k { e with hit := false }) else s, .val (ruleImage e)))

/-! ## Profiles and ports -/

/-- CLS_CLASS_PROFILE (R136). -/
def execClsClassProfile (h : CmdHdr) (index word : Nat) (s : State) : Host.Outcome State Fault Refusal :=
  .next (s.cmd (.clsClassProfile h index word) h attrNone
      [decide (index < 32), decide (word < 2 ^ 32) && bitsOf word 10 0 == 0] fun s =>
    (({ s with cls := { s.cls with classProf := SMap.set s.cls.classProf index word } }).mendCls 7 index, .ok))

/-- CLS_PORT_CONFIG (R604). -/
def execClsPortConfig (h : CmdHdr) (port vrf vlan unknownSa staticMove : Nat) (s : State) :
    Host.Outcome State Fault Refusal :=
  .next (s.cmd (.clsPortConfig h port vrf vlan unknownSa staticMove) h attrNone
      [decide (port < 256), decide (vrf < 2 ^ 24), decide (vlan < 4096), decide (unknownSa < 2),
      decide (staticMove < 2)] fun s =>
    if !s.portExists port then (s, .err eNoent)
    else ({ s with cls := { s.cls with ports := SMap.set s.cls.ports port ⟨vrf, vlan, unknownSa, staticMove⟩ } }, .ok))

/-- The heap size in bytes that bpm.heap_config set (R249). -/
def State.heapBytes (s : State) : Nat :=
  32 * 64 * (s.fst.heapCfg.1 + 2 * s.fst.heapCfg.2.1 + 4 * s.fst.heapCfg.2.2)

/-- A profile ages in TIMESTAMP mode (R156, R218). -/
def pTimestamp (p : List Nat) : Bool := pValid p && !pTwoPass p

/-- Fields a profile with live records may not change (R157): key fields, prefix lengths, record size, ageing. -/
def frozenFields (p : List Nat) : List Nat := [bitsOf (wordAt p 6) 31 10, pRecSize p, b2n (pTwoPass p)]

/-- CLS_PROFILE_SET (R36, R156, R157, R163, R218). -/
def execClsProfileSet (h : CmdHdr) (index : Nat) (words : List Nat) (s : State) : Host.Outcome State Fault Refusal :=
  .next (s.cmd (.clsProfileSet h index words) h attrNone [decide (index < 64),
      flowProfileOk words && !(pTimestamp words && s.heapBytes > 2 ^ 32)
        && !(pTwoPass words && decide ((s.fst.descs.filter fun e => bitOf e.2 index).length ≥ 2))] fun s =>
    let old := SMap.getD s.cls.flowProf index []
    if (pValid old && s.oldOnly (pEp0 old) (pEp1 old)) || (!pValid old && pValid words && s.oldOnly (pEp0 words) (pEp1 words))
    then (s, .err eEpoch)
    else if SMap.getD s.cls.liveCount index 0 > 0 && frozenFields old != frozenFields words then (s, .err eBusy)
    else (({ s with cls := { s.cls with flowProf := SMap.set s.cls.flowProf index words } }).mendCls 6 index, .ok))

/-! ## L2 (R147, R150 to R154) -/

/-- Now in coarse time. -/
def State.coarseNow (s : State) : Nat := coarseTime s.now

/-- L2_INSERT (R143, R153). -/
def execL2Insert (h : CmdHdr) (vlan mac port : Nat) (isStatic : Bool) (s : State) : Host.Outcome State Fault Refusal :=
  .next (s.cmdTx (.l2Insert h vlan mac port isStatic) h
      [decide (vlan < 4096), decide (mac < 2 ^ 48), decide (port < 256)] fun s =>
    match l2Find s.cls vlan mac with
    | some _ => (s, .err eExist)
    | none =>
      match l2Cuckoo.place s.cls.l2 ⟨vlan, mac, port, isStatic, s.coarseNow, false, false⟩ with
      | none => (s, .err eNospace)
      | some (m, stash) =>
        let s1 := { s with cls := { s.cls with l2 := m } }.mendNew 1 s.cls.l2 m
        (if stash then s1.stashUsed else s1, .ok))

/-- L2_DELETE (R153). -/
def execL2Delete (h : CmdHdr) (vlan mac : Nat) (s : State) : Host.Outcome State Fault Refusal :=
  .next (s.cmdTx (.l2Delete h vlan mac) h [decide (vlan < 4096), decide (mac < 2 ^ 48)] fun s =>
    match l2Find s.cls vlan mac with
    | none => (s, .err eNoent)
    | some (k, _) => (({ s with cls := { s.cls with l2 := SMap.del s.cls.l2 k } }).mendCls 1 k, .ok))

/-- L2_LEARN_CONFIG (R152 to R154): l2_age_time and l2_sweep_period in seconds. -/
def execL2LearnConfig (h : CmdHdr) (toHost : Bool) (ring holdoff rate ageTime sweepPeriod : Nat) (s : State) :
    Host.Outcome State Fault Refusal :=
  .next (s.cmd (.l2LearnConfig h toHost ring holdoff rate ageTime sweepPeriod) h attrNone
      [true, decide (ring < 64), decide (holdoff < 256), decide (rate < 65536),
      decide (1 ≤ ageTime) && decide (ageTime ≤ 2073600), decide (1 ≤ sweepPeriod) && decide (sweepPeriod ≤ 600)]
    fun s =>
      let s1 := ((s.setAll F.clsCtrl_learnToHost 32 (b2n toHost)).setAll F.clsCtrl_learnRing 32 ring).setAll
        F.clsCtrl_learnHoldoff 32 holdoff
      let s2 := s1.setAll F.clsCtrl_learnRate 32 rate
      ({ s2 with cls := { s2.cls with l2AgeTime := ageTime, l2SweepPeriod := sweepPeriod } }, .ok))

/-- Seconds in coarse units, rounded up. -/
def coarseSeconds (sec : Nat) : Nat := ceilDiv (sec * 1000000000) (2 ^ 20)

/-- L2_AGER_VISIT (R154, R491): a die's ager visits an entry; the first visit of a die after a time step or a bare-poles
exit writes last_seen = now. -/
def execL2AgerVisit (die slot : Nat) (s : State) : Host.Outcome State Fault Refusal :=
  .next (match SMap.find? s.cls.l2 slot with
    | none => s
    | some e =>
      if s.getB F.fltStatus_barePoles || s.furled || die > 1 then s
      else
        let marked := if die == 0 then e.stepFore else e.stepAft
        if marked then
          let e' := { e with lastSeen := s.coarseNow, stepFore := e.stepFore && die != 0, stepAft := e.stepAft && die != 1 }
          { s with cls := { s.cls with l2 := SMap.set s.cls.l2 slot e' } }
        else if !e.isStatic && wrapDiff s.coarseNow e.lastSeen 32 > coarseSeconds s.cls.l2AgeTime then
          let s1 := { s with cls := { s.cls with l2 := SMap.del s.cls.l2 slot } }
          s1.notify 6 3 die false (bytesLE 2 e.vlan ++ bytesBE 6 e.mac ++ [e.port, 0, 0, 0] ++ bytesLE 4 e.lastSeen)
        else s)

/-! ## Routes, next hops, ECMP (R147 to R149, R604) -/

/-- A fwd_op and its target: next hop 0 to 262,143, ECMP group 0 to 16,383, or drop. -/
def fwdOk (op target : Nat) : Bool :=
  (op == 1 && target < 262144) || (op == 2 && target < 16384) || (op == 3 && target < 262144)

/-- An address has its family's bits. -/
def addrOk (v6 : Bool) (addr : Nat) : Bool := decide (addr < 2 ^ addrBits v6)

/-- ROUTE_HOST_ADD (R147, R166): the prefix length is the full length. -/
def execRouteHostAdd (h : CmdHdr) (vrf : Nat) (v6 : Bool) (addr plen fwdOp fwdTarget : Nat) (s : State) :
    Host.Outcome State Fault Refusal :=
  .next (s.cmdTx (.routeHostAdd h vrf v6 addr plen fwdOp fwdTarget) h
      [decide (vrf < 2 ^ 24), true, addrOk v6 addr, plen == addrBits v6, fwdOp == 1 || fwdOp == 2 || fwdOp == 3,
      fwdOk fwdOp fwdTarget] fun s =>
    if s.cls.hostRoutes.any fun e => e.2.vrf == vrf && e.2.v6 == v6 && e.2.addr == addr then (s, .err eExist)
    else match hostCuckoo.place s.cls.hostRoutes ⟨vrf, v6, addr, plen, fwdOp, fwdTarget⟩ with
      | none => (s, .err eNospace)
      | some (m, stash) =>
        let s1 := { s with cls := { s.cls with hostRoutes := m } }.mendNew 2 s.cls.hostRoutes m
        (if stash then s1.stashUsed else s1, .ok))

/-- ROUTE_LPM_ADD (R147, R604). -/
def execRouteLpmAdd (h : CmdHdr) (vrf : Nat) (v6 : Bool) (addr plen fwdOp fwdTarget : Nat) (s : State) :
    Host.Outcome State Fault Refusal :=
  .next (s.cmdTx (.routeLpmAdd h vrf v6 addr plen fwdOp fwdTarget) h [decide (vrf < 2 ^ 24), true,
      addrOk v6 addr && addr % 2 ^ (addrBits v6 - plen) == 0, decide (plen ≤ addrBits v6),
      fwdOp == 1 || fwdOp == 2 || fwdOp == 3, fwdOk fwdOp fwdTarget] fun s =>
    if s.cls.lpm.any fun r => r.vrf == vrf && r.v6 == v6 && r.addr == addr && r.plen == plen then (s, .err eExist)
    else if (s.cls.lpm.filter fun r => r.v6 == v6).length ≥ (if v6 then 1048576 else 2097152) then (s, .err eNospace)
    else
      let r : Route := ⟨vrf, v6, addr, plen, fwdOp, fwdTarget⟩
      (({ s with cls := { s.cls with lpm := r :: s.cls.lpm } }).mendCls 3 r.lpmIndex, .ok))

/-- ROUTE_DELETE (R604). -/
def execRouteDelete (h : CmdHdr) (table vrf : Nat) (v6 : Bool) (addr plen : Nat) (s : State) :
    Host.Outcome State Fault Refusal :=
  .next (s.cmdTx (.routeDelete h table vrf v6 addr plen) h [decide (table < 2), decide (vrf < 2 ^ 24), true, addrOk v6 addr,
      if table == 0 then plen == addrBits v6 else decide (plen ≤ addrBits v6)] fun s =>
    if table == 0 then
      match SMap.first? s.cls.hostRoutes fun _ r => r.vrf == vrf && r.v6 == v6 && r.addr == addr with
      | none => (s, .err eNoent)
      | some (k, _) => (({ s with cls := { s.cls with hostRoutes := SMap.del s.cls.hostRoutes k } }).mendCls 2 k, .ok)
    else
      let hit := fun (r : Route) => r.vrf == vrf && r.v6 == v6 && r.addr == addr && r.plen == plen
      match s.cls.lpm.find? hit with
      | some r => (({ s with cls := { s.cls with lpm := s.cls.lpm.filter fun r => !hit r } }).mendCls 3 r.lpmIndex, .ok)
      | none => (s, .err eNoent))

/-- NH_SET (R147). -/
def execNhSet (h : CmdHdr) (index port rewrite backup : Nat) (backupValid : Bool) (s : State) :
    Host.Outcome State Fault Refusal :=
  .next (s.cmdTx (.nhSet h index port rewrite backup backupValid) h
      [decide (index < 262144), decide (port < 256), decide (rewrite < 65536),
      decide (backup < 262144)] fun s =>
    (({ s with cls := { s.cls with nextHops := SMap.set s.cls.nextHops index ⟨port, rewrite, backup, backupValid⟩ } }).mendCls
      4 index, .ok))

/-- A list written from a place of a map on. -/
def SMap.setRun {α : Type} (m : SMap α) (base : Nat) (l : List α) : SMap α :=
  l.zipIdx.foldl (fun t e => SMap.set t (base + e.2) e.1) m

/-- ECMP_SET (R147, R149). -/
def execEcmpSet (h : CmdHdr) (group hashSel : Nat) (members : List Nat) (s : State) : Host.Outcome State Fault Refusal :=
  .next (s.cmdTx (.ecmpSet h group hashSel members) h [decide (group < 16384), decide (hashSel < 64),
      decide (1 ≤ members.length) && decide (members.length ≤ 512) && members.all fun m => decide (m < 262144)] fun s =>
    match ecmpRun (ecmpHeld s.cls group) members.length with
    | none => (s, .err eNospace)
    | some b =>
      let s1 := { s with cls := { s.cls with
        ecmpGroups := SMap.set s.cls.ecmpGroups group ⟨b, members.length, hashSel⟩,
        ecmpMembers := SMap.setRun s.cls.ecmpMembers b members } }
      ((List.range members.length).foldl (fun t i => t.mendCls 5 (16384 + b + i)) (s1.mendCls 5 group), .ok))

end Sys2Proof.Machine
end

