-- ==== Sys2Proof/Machine/Parser.lean ====
section
/-! DEFINITION. The dealer, the parser's repairs and the parser commands (chapter 4). The release from the reorder stage
stands in Classify.lean. -/

namespace Sys2Proof.Machine

/-! ## Memory errors (R115) -/

/-- PRS_ECC_CAPTURE takes an error while it holds none. -/
def State.prsCapture (s : State) (pipe : Nat) (e : EccErr) : State :=
  if s.getB F.prsEccCapture_valid pipe then s
  else ((((s.setF F.prsEccCapture_valid pipe 1).setB F.prsEccCapture_uncorrectable pipe e.double).setF
    F.prsEccCapture_table pipe e.table).setF F.prsEccCapture_word pipe e.word).setF F.prsEccCapture_index pipe e.index

/-- The table entries of a pipeline that read as invalid until repaired. -/
def State.prsBad (s : State) (pipe table : Nat) : List Nat :=
  (s.prs.damaged.filter fun d => d.1 == pipe && d.2.1 == table).map (·.2.2)

/-- A memory error a parser read met in a pipeline (R115). The drop of the packet is its caller's. -/
def State.prsEcc (s : State) (pipe : Nat) (e : EccErr) : State :=
  if e.double then
    let rest := s.prs.damaged.filter (· != (pipe, e.table, e.index))
    let s1 := { s with prs := { s.prs with damaged := (pipe, e.table, e.index) :: rest } }
    (s1.setF F.prsEvent_eccUncorrSeen pipe 1).prsCapture pipe e
  else ((s.setF F.prsEvent_eccCorrSeen pipe 1).prsCapture pipe e).raise 0x4001 pipe

/-- PRS_ENTRY_REPAIR (R115): firmware rewrites an entry from its copy in shared SRAM. -/
def execPrsEntryRepair (pipe table index : Nat) (s : State) : Host.Outcome State Fault Refusal :=
  .next (if s.prs.damaged.contains (pipe, table, index) then
      ({ s with prs := { s.prs with damaged := s.prs.damaged.filter (· != (pipe, table, index)) } }).raise 0x4002 pipe
    else s)

/-- A command's write makes an entry whole in every pipeline. DESIGN CHOICE: it ends the damage without the report that the
repair
makes (log entry 250). -/
def State.mendPrs (s : State) (table index : Nat) : State :=
  { s with prs := { s.prs with damaged := s.prs.damaged.filter fun d => d.2 != (table, index) } }

/-! ## Dealing and parsing (R102 to R121) -/

/-- A packet's parse window is complete: the whole frame has been received, or more than 256 bytes of frame data, so that
a frame of at most 256 bytes is parsed with its end known (R102). -/
def Pkt.windowReady (p : Pkt) : Bool :=
  !p.arriving || beAt p.head 12 2 != 0x8808 && decide (p.head.length + p.body.length > 256)

/-- What the parser sees of a packet (R101). -/
def State.parseInput (s : State) (p : Pkt) : ParseIn :=
  let len := p.head.length + p.body.length
  ⟨(p.head ++ p.body).take 256, decide (len > 256), len, s.prs.scanIpv4, s.prs.scanGeneve⟩

/-- The start state a packet parses from: its port's on the first pass of an arriving frame, else its own (R106,
R107). -/
def State.startOf (s : State) (p : Pkt) : Nat :=
  if p.src == p.inPort && p.pass == 1 then (SMap.getD s.prs.portStart p.inPort (1, 0)).1 else p.startState

/-- The parser's counts and events of a parse (R114, R117, R119, R122, R134). -/
def State.countParse (s : State) (pipe : Nat) (r : ParseRes) : State :=
  let s1 := if r.truncated then (s.count (C.prsTruncated pipe)).setF F.prsEvent_truncSeen pipe 1 else s
  let s2 := if r.conflict then (s1.count (C.prsConflict pipe)).setF F.prsEvent_conflictSeen pipe 1 else s1
  let s3 := if r.unmatched then (s2.count (C.prsUnmatched pipe)).setF F.prsEvent_unmatchedSeen pipe 1 else s2
  let s4 := if r.fragment then s3.count (C.prsFrag pipe) else s3
  if r.scanCycles > 0 then s4.count (C.prsScanCycles pipe) r.scanCycles else s4

/-- The ends that the parser recorded and the MAC compares with the frame's end (R123). -/
def ParseRes.bounds (r : ParseRes) : List Nat := r.ipBounds ++ r.udpEnds

/-- A bound that the parser recorded lies beyond the end of the frame data (R123). -/
def lateConflict (bounds : List Nat) (len : Nat) : Bool := decide (len > 256) && bounds.any fun b => decide (b > len)

/-- A late conflict is counted (R123, R134). -/
def State.countLate (s : State) (pipe : Nat) : State :=
  (s.count (C.prsConflictLate pipe)).setF F.prsEvent_conflictLateSeen pipe 1

/-- The recorded bounds pass to the ingress MAC while the frame arrives (R123), those of a later pass without the bytes by which
splices have moved them. -/
def State.passBounds (s : State) (id : Nat) (growth : Int) (bounds : List Nat) : State :=
  let mine := bounds.map fun (b : Nat) => ((b : Int) - growth).toNat
  { s with pk := { s.pk with
    rx := SMap.mapVal (fun _ r => if r.pkt == some id then { r with bounds := r.bounds ++ mine } else r) s.pk.rx } }

/-- A packet is parsed and stands in the reorder stage; a double-bit error in an entry it reads drops it (R115), and so does
a bound beyond the end of a frame that has ended before its parse (R123). -/
def State.parseAndPlace (s : State) (id : Nat) (p : Pkt) (err : Option EccErr) : State :=
  let r := parsePacket s.prs.graph (s.prsBad p.pipe 0) (s.parseInput p) (s.startOf p)
  let hit := err.filter fun e => e.table == 0 && r.used.contains e.index
  let s1 := match hit with
    | some e => s.prsEcc p.pipe e
    | none => s
  if hit.elim false (·.double) then (s1.count (C.prsEccDrop p.pipe)).dropPkt id
  else if !p.arriving && p.src == p.inPort && lateConflict r.bounds (p.head.length + p.body.length) then
    ((s1.countParse p.pipe r).countLate p.pipe).dropPkt id
  else
    let lane := (SMap.getD s1.prs.nextLane p.pipe 0 + 1) % 4
    let seq := s1.prs.dealt
    let s0 := s1.passBounds id p.growth r.bounds
    let s2 := { s0 with prs := { s1.prs with dealt := seq + 1, nextLane := SMap.put 0 s1.prs.nextLane p.pipe lane } }
    ((s2.modPkt id fun q => { q with stage := .reorder, seq := seq, par := r }).countParse p.pipe r).syncReorder p.pipe

/-- A packet whose rig run is still ahead was marked at the drain deadline: it is dropped when it resumes (R162). -/
def State.lateDrop (s : State) (id : Nat) (pipe : Nat) : State :=
  ((s.count (C.clsEpochLateDrop pipe)).setF F.clsEvent_epochLateDropSeen pipe 1).dropPkt id

/-- A recirculated pass is too old at re-entry (R159). -/
def State.tooOld (s : State) (p : Pkt) : Bool :=
  wrapDiff (shortTime s.now) (shortTime (p.tIn / 2 ^ 16)) 32 > 4000

/-- The stage the dealer takes from: 0 arriving frames, 1 the recirculation queue, 2 injected packets. -/
def dealStage (kind : Nat) : Stage := if kind == 0 then .waiting else if kind == 1 then .recirc else .inject

/-- DEAL (R102 to R122, R159, R162): the dealer hands a packet to a parser lane and the lane parses it; `err` is a
memory error a read of this parse meets. -/
def execDeal (pipe kind : Nat) (err : Option EccErr) (s : State) : Host.Outcome State Fault Refusal :=
  .next (match (s.atStage pipe (dealStage kind)).find? fun e => e.2.windowReady with
    | none => s
    | some (id, p) =>
      if (s.atStage pipe .reorder).length ≥ 64 || s.getB F.fltStatus_barePoles then s
      else if kind == 1 && p.marked then s.lateDrop id pipe
      else if kind == 1 && s.tooOld p then
        ((s.count (C.clsRecircAgeDrop pipe)).setF F.clsEvent_recircDropSeen pipe 1).dropPkt id
      else s.parseAndPlace id p err)

/-! ## Commands (R133) -/

/-- PRS_STATUS.graph_valid of every pipeline counts the valid entries. -/
def State.syncGraph (s : State) : State :=
  s.setAll F.prsStatus_graphValid 32 (s.prs.graph.filter fun e => gValid e.2).length

/-- PRS_GRAPH_WRITE (R112). -/
def execPrsGraphWrite (h : CmdHdr) (index : Nat) (words : List Nat) (s : State) : Host.Outcome State Fault Refusal :=
  .next (s.cmd (.prsGraphWrite h index words) h attrNone [decide (index < 512), graphEntryOk words] fun s =>
    ((({ s with prs := { s.prs with graph := SMap.set s.prs.graph index words } }).mendPrs 0 index).syncGraph, .ok))

/-- PRS_GRAPH_READ (R133): an entry never written reads as zeros. -/
def execPrsGraphRead (h : CmdHdr) (index : Nat) (s : State) : Host.Outcome State Fault Refusal :=
  .next (s.cmd (.prsGraphRead h index) h attrNone [decide (index < 512)] fun s =>
    (s, .val (SMap.getD s.prs.graph index [0, 0, 0, 0, 0, 0, 0, 0])))

/-- PRS_PORT_START (R107, R125). -/
def execPrsPortStart (h : CmdHdr) (port start group : Nat) (s : State) : Host.Outcome State Fault Refusal :=
  .next (s.cmd (.prsPortStart h port start group) h attrNone
      [decide (port < 256), decide (start < 256), decide (group < 4)] fun s =>
    ({ s with prs := { s.prs with portStart := SMap.set s.prs.portStart port (start, group) } }, .ok))

/-- PRS_KEY_PROFILE (R126). -/
def execPrsKeyProfile (h : CmdHdr) (index : Nat) (words : List Nat) (s : State) : Host.Outcome State Fault Refusal :=
  .next (s.cmd (.prsKeyProfile h index words) h attrNone [decide (index < 32), keyProfileOk words] fun s =>
    (({ s with prs := { s.prs with keyProfiles := SMap.set s.prs.keyProfiles index words } }).mendPrs 1 index, .ok))

/-- PRS_KEY_MAP (R125). -/
def execPrsKeyMap (h : CmdHdr) (group keyClass profile : Nat) (s : State) : Host.Outcome State Fault Refusal :=
  .next (s.cmd (.prsKeyMap h group keyClass profile) h attrNone
      [decide (group < 4), decide (keyClass < 32), decide (profile < 32)] fun s =>
    ({ s with prs := { s.prs with keyMap := SMap.put 0 s.prs.keyMap (32 * group + keyClass) profile } }, .ok))

/-- PRS_SCAN_CONFIG (R104). -/
def execPrsScanConfig (h : CmdHdr) (ipv4 : List Nat) (geneve : List (Nat × Nat)) (s : State) :
    Host.Outcome State Fault Refusal :=
  .next (s.cmd (.prsScanConfig h ipv4 geneve) h attrNone [ipv4.length == 4 && ipv4.all fun t => decide (t < 256),
      geneve.length == 4 && geneve.all fun t => decide (t.1 < 65536) && decide (t.2 < 256)] fun s =>
    ({ s with prs := { s.prs with scanIpv4 := ipv4, scanGeneve := geneve } }, .ok))

/-- PRS_EXC_CONFIG (R122, R135). -/
def execPrsExcConfig (h : CmdHdr) (conflictAction : Nat) (trapEn trapToCriod : Bool) (trapRing trapLen : Nat)
    (s : State) : Host.Outcome State Fault Refusal :=
  .next (s.cmd (.prsExcConfig h conflictAction trapEn trapToCriod trapRing trapLen) h attrNone
      [decide (conflictAction < 2), true, true, decide (trapRing < 64),
      decide (64 ≤ trapLen) && decide (trapLen ≤ 256)] fun s =>
    let s1 := (s.setAll F.prsCtrl_conflictAction 32 conflictAction).setAll F.prsCtrl_trapEn 32 (b2n trapEn)
    let s2 := (s1.setAll F.prsCtrl_trapToCriod 32 (b2n trapToCriod)).setAll F.prsCtrl_trapRing 32 trapRing
    (s2.setAll F.prsCtrl_trapLen 32 trapLen, .ok))

end Sys2Proof.Machine
end

