-- ==== Sys2Proof/Machine/Classify.lean ====
section
/-! DEFINITION. Release from the parser's reorder stage: key building, classification, learning, and the issue of the
flow lookup (R105, R122 to R132, R136 to R157, R174 to R188, R271, R273). -/

namespace Sys2Proof.Machine

/-! ## Damage (R115, R155, R187, R188) -/

/-- An entry damaged on both dies reads as invalid (R155). -/
def State.clsDead (s : State) (table index : Nat) : Bool :=
  s.cls.damaged.contains (0, table, index) && s.cls.damaged.contains (1, table, index)

/-- The tables as lookups read them: without the entries damaged on both dies. -/
def State.clsView (s : State) : ClassifyPart :=
  if s.cls.damaged.isEmpty then s.cls
  else { s.cls with
    em := s.cls.em.keep fun k _ => !s.clsDead 0 k
    l2 := s.cls.l2.keep fun k _ => !s.clsDead 1 k
    hostRoutes := s.cls.hostRoutes.keep fun k _ => !s.clsDead 2 k
    lpm := s.cls.lpm.filter fun r => !s.clsDead 3 r.lpmIndex
    nextHops := s.cls.nextHops.keep fun k _ => !s.clsDead 4 k
    ecmpGroups := s.cls.ecmpGroups.keep fun k _ => !s.clsDead 5 k
    ecmpMembers := s.cls.ecmpMembers.keep fun k _ => !s.clsDead 5 (16384 + k)
    flowProf := s.cls.flowProf.keep fun k _ => !s.clsDead 6 k
    classProf := s.cls.classProf.keep fun k _ => !s.clsDead 7 k }

/-- A run of entries that a lookup reads: the table as CLS_ECC_CAPTURE numbers it, the first index, how many. Of table 5,
groups by
number and member entries from 16,384 on (log entry 258). -/
structure TableRead where
  table : Nat
  first : Nat
  count : Nat
  deriving DecidableEq, Repr

/-- An entry is among those read. -/
def isRead (reads : List TableRead) (table index : Nat) : Bool :=
  reads.any fun r => r.table == table && decide (r.first ≤ index) && decide (index < r.first + r.count)

/-- A lookup read an entry that is damaged on its die and awaits its rewrite (R155). -/
def State.readsDamaged (s : State) (pipe : Nat) (reads : List TableRead) : Bool :=
  s.cls.damaged.any fun d => d.1 == pipe / 16 && isRead reads d.2.1 d.2.2 && !s.clsDead d.2.1 d.2.2

/-- What a lookup of a cuckoo table reads: two buckets and the whole stash (R143). -/
def bucketReads (table stashBase stashLen : Nat) (b : Nat × Nat) : List TableRead :=
  [⟨table, 4 * b.1, 4⟩, ⟨table, 4 * b.2, 4⟩, ⟨table, stashBase, stashLen⟩]

/-- An error in a masked-search action that a search's winner reads (R188): a double-bit one damages the action. -/
def State.mskActionError (s : State) (pipe phys : Nat) (errs : List EccErr) : State :=
  match errs.find? fun e => e.table == 9 && e.index == phys with
  | none => s
  | some e =>
    if e.double then
      let k := 16384 * pipe + phys
      let t := (s.setF F.mskEvent_actionUncorrSeen pipe 1).mskCapture pipe 4 phys
      { t with msk := { t.msk with badAction := k :: t.msk.badAction.filter (· != k) } }
    else ((s.setF F.mskEvent_actionCorrSeen pipe 1).mskCapture pipe 3 phys).raise 0x4204 pipe

/-! ## Keys (R125 to R130) -/

/-- The key group of a packet's ingress port. -/
def State.keyGroup (s : State) (p : Pkt) : Nat := (SMap.getD s.prs.portStart p.inPort (1, 0)).2

/-- The key profile of a packet and its words; a damaged one is treated as invalid (R115, R125). DESIGN CHOICE: an invalid key
profile, and one never written, is read as all zeros, so it builds no key (log entry 250). -/
def State.keyProfileOf (s : State) (p : Pkt) : Nat × List Nat :=
  let n := SMap.getD s.prs.keyMap (32 * s.keyGroup p + p.par.keyClass) 0
  (n, if (s.prsBad p.pipe 1).contains n then [] else SMap.getD s.prs.keyProfiles n [])

/-- The keys of a packet are built: exact-match key, masked-search key and the metadata view with its presence vector
(R126 to R128). -/
def State.buildPktKeys (s : State) (p : Pkt) : Pkt :=
  let (n, w) := s.keyProfileOf p
  let g := s.keyGroup p
  let i := s.parseInput p
  let k := buildKeys w i p.par (metadataView p.inPort p.epoch g i.window p.par 0)
  { p with keyProfile := n, em := k.em, msk := k.msk,
           mview := metadataView p.inPort p.epoch g i.window p.par k.presence }

/-! ## Rule lookups (R136, R137, R141, R174) -/

/-- What the rule lookups of a packet gave: the actions that hit, the entry's data, the reads they made, and whether a
damaged masked-search entry drops the packet. -/
structure RuleHits where
  em : Option (List Nat)
  data : List Nat
  msk : Option (List Nat)
  reads : List TableRead
  mskDrop : Bool
  deriving DecidableEq, Repr

/-- The two candidate buckets of a key in a rule table. -/
def emBuckets (seed table keyUnits : Nat) (key : List Nat) : Nat × Nat :=
  (emCuckoo seed).cands ⟨false, table, keyUnits, false, false, false, key, [], []⟩

/-- What an exact-match lookup reads (R140, R143). -/
def State.emReads (s : State) (table : Nat) (key : List Nat) : List TableRead :=
  bucketReads 0 262144 128 (emBuckets s.cls.ruleSeed table ((SMap.find? s.cls.emTables table).elim 1 (·.keyUnits)) key)

/-- The exact-match lookup of a packet (R140, R141): counts and the hit bit. -/
def State.emStage (s : State) (p : Pkt) (cw : Nat) : State × RuleHits :=
  let none_ : RuleHits := ⟨none, [], none, [], false⟩
  if !bitOf cw 31 then (s, none_)
  else
    let table := bitsOf cw 30 27
    let reads := s.emReads table p.em
    match emLookup s.clsView table p.em p.epoch with
    | none => (s.count (C.clsEmMiss p.pipe), { none_ with reads := reads })
    | some (k, e) =>
      let s1 := (s.setEm (SMap.set s.cls.em k { e with hit := true })).count (C.clsEmHit p.pipe)
      (s1, { none_ with em := some e.action, data := e.data, reads := reads })

/-- The masked search of a packet (R174 to R177, R187, R188). -/
def State.mskStage (s : State) (p : Pkt) (cw : Nat) (errs : List EccErr) (h : RuleHits) : State × RuleHits :=
  if !bitOf cw 26 then (s, h)
  else
    match s.mskSearch p.pipe (bitsOf cw 25 20) p.msk p.epoch with
    | (s1, none) => (s1, h)
    | (s1, some phys) =>
      let s2 := s1.mskActionError p.pipe phys errs
      let k := 16384 * p.pipe + phys
      if s2.msk.suspect.contains k || s2.msk.badAction.contains k then
        ((s2.count (C.mskEccDrop p.pipe)).setF F.mskEvent_eccDropSeen p.pipe 1, { h with mskDrop := true })
      else (s2, { h with msk := some (s2.mskAt phys).action })

/-- The first of two actions that sets a field. -/
def RuleHits.pick {α : Type} (h : RuleHits) (sets : List Nat → Bool) (get : List Nat → α) : Option α :=
  ([h.em, h.msk].filterMap fun a => a).find? sets |>.map get

/-- Either action drops (R137). -/
def RuleHits.denies (h : RuleHits) : Bool := [h.em, h.msk].any fun a => a.elim false fun w => aFwdOp w == 3

/-! ## Forwarding (R147, R148) -/

/-- What the forwarding lookups gave. -/
inductive FwdRes where
  /-- A fwd_op and its target; 4 an egress port, 5 a flood group. -/
  | to (op target : Nat)
  /-- A route of fwd_op drop. -/
  | deny
  | routeMiss
  | noFwd
  deriving DecidableEq, Repr

/-- The L2 key of a packet: VLAN, destination MAC and source MAC (R148, R151). -/
def State.l2Key (s : State) (p : Pkt) (fwdSrc : Nat) : Nat × Nat × Nat :=
  let win := (s.parseInput p).window
  match fwdFrame p.par fwdSrc with
  | none => ((SMap.getD s.cls.ports p.inPort ClsPort.reset).vlan, beAt win 0 6, beAt win 6 6)
  | some l =>
    ((frameVlan win p.par l).getD (SMap.getD s.cls.ports p.inPort ClsPort.reset).vlan, beAt win l.start 6,
      beAt win (l.start + 6) 6)

/-- The route of a packet whose L2 key is a router MAC (R148 steps 2 to 4). A host-route miss reads the LPM entries of the
prefixes that
cover the address. -/
def State.routeStage (s : State) (p : Pkt) (fwdSrc vrf : Nat) : FwdRes × List TableRead :=
  match fwdAddress (s.parseInput p).window p.par fwdSrc with
  | none => (.routeMiss, [])
  | some (v6, a) =>
    let host := s.cls.hostRoutes.any fun e => e.2.vrf == vrf && e.2.v6 == v6 && e.2.addr == numBE a
    let tree := if host then [] else
      (s.cls.lpm.filter fun r => r.covers vrf v6 (numBE a)).map fun r => TableRead.mk 3 r.lpmIndex 1
    let reads := bucketReads 2 2097152 256 (hostCuckoo.cands ⟨vrf, v6, numBE a, 0, 0, 0⟩) ++ tree
    match routeLookup s.clsView vrf v6 (numBE a) with
    | none => (.routeMiss, reads)
    | some r => (if r.fwdOp == 3 then .deny else .to r.fwdOp r.target, reads)

/-- What an L2 lookup reads. -/
def l2Reads (vlan mac : Nat) : List TableRead := bucketReads 1 1048576 256 (l2Cuckoo.cands ⟨vlan, mac, 0, false, 0, false, false⟩)

/-- What taking a forwarding result reads: a next hop, or an ECMP group, its member and that member's next hop (R147, R149). -/
def State.hopReads (s : State) (key : List Nat) (op target : Nat) : List TableRead :=
  if op == 1 then [⟨4, target, 1⟩]
  else if op == 2 then
    let entry := ecmpEntry s.cls target key
    let hop := entry.bind fun i => SMap.find? s.cls.ecmpMembers i
    ⟨5, target, 1⟩ :: (entry.toList.map fun i => ⟨5, 16384 + i, 1⟩) ++ hop.toList.map fun n => ⟨4, n, 1⟩
  else []

/-- The forwarding lookups of a packet (R148): the result, whether it floods, and the reads. -/
def State.fwdStage (s : State) (p : Pkt) (cw fwdSrc vrf : Nat) : FwdRes × Bool × List TableRead :=
  if !bitOf cw 19 then (.noFwd, false, [])
  else
    let (vlan, dmac, _) := s.l2Key p fwdSrc
    if bitOf cw 18 && routerHit s.clsView vlan dmac then
      let (r, reads) := s.routeStage p fwdSrc vrf
      (r, false, reads)
    else
      let group := dmac / 2 ^ 40 % 2 == 1
      match if group then none else l2Find s.clsView vlan dmac with
      | some (_, e) => (.to 4 e.port, false, l2Reads vlan dmac)
      | none => (.to 5 (Config.floodGroup vlan), true, if group then [] else l2Reads vlan dmac)

/-! ## Learning (R151 to R154) -/

/-- A learn event passes the filter and the rate, or is suppressed or dropped (R152). -/
def State.sendLearn (s : State) (pipe kind vlan mac port old : Nat) : State :=
  let hold := s.getF F.clsCtrl_learnHoldoff pipe * 100000
  let seen := SMap.getD s.cls.learnFilter pipe []
  let ms := s.now / 1000000
  let sent := match SMap.find? s.cls.learnSent pipe with
    | some (m, n) => if m == ms then n else 0
    | none => 0
  if seen.any fun l => l.vlan == vlan && l.mac == mac && l.port == port && decide (s.now < l.at_ + hold) then
    s.count (C.clsLearnSuppressed pipe)
  else if sent ≥ s.getF F.clsCtrl_learnRate pipe then
    (s.count (C.clsLearnDrop pipe)).setF F.clsEvent_learnDropSeen pipe 1
  else
    let rest := seen.filter fun l => !(l.vlan == vlan && l.mac == mac && l.port == port)
    let s1 := { s with cls := { s.cls with
      learnFilter := SMap.set s.cls.learnFilter pipe ((LearnSeen.mk vlan mac port s.now :: rest).take 1024),
      learnSent := SMap.set s.cls.learnSent pipe (ms, sent + 1) } }
    (s1.count (C.clsLearnSent pipe)).notify 1 0 pipe false
      (bytesLE 2 (kind <<< 14 + vlan) ++ bytesBE 6 mac ++ [port, old, 0, 0] ++ bytesLE 4 s.coarseNow)

/-- The source lookup of a packet (R151, R154): a hit refreshes last_seen once it is 1,024 coarse units old; a miss or a
move raises a learn event. True where the packet is dropped. -/
def State.learnStage (s : State) (p : Pkt) (fwdSrc : Nat) : State × Bool × List TableRead :=
  let (vlan, _, smac) := s.l2Key p fwdSrc
  let cfg := SMap.getD s.cls.ports p.inPort ClsPort.reset
  let reads := l2Reads vlan smac
  match l2Find s.clsView vlan smac with
  | none => (s.sendLearn p.pipe 0 vlan smac p.inPort 0, cfg.unknownSa == 1, reads)
  | some (k, e) =>
    let s1 := if wrapDiff s.coarseNow e.lastSeen 32 ≥ 1024 then
        { s with cls := { s.cls with l2 := SMap.set s.cls.l2 k { e with lastSeen := s.coarseNow } } }
      else s
    if e.port == p.inPort then (s1, false, reads)
    else if e.isStatic then
      ((s1.sendLearn p.pipe 2 vlan smac p.inPort e.port).setF F.clsEvent_staticMoveSeen p.pipe 1, cfg.staticMove == 1,
        reads)
    else (s1.sendLearn p.pipe 1 vlan smac p.inPort e.port, cfg.unknownSa == 1, reads)

/-! ## Results -/

/-- Copies asked for on more than one pass are made once (R330). -/
def addCopy (l : List CopyReq) (c : CopyReq) : List CopyReq := if l.contains c then l else l ++ [c]

/-- A packet that classification drops: its ring copies are made first (R333). -/
def State.dropClassified (s : State) (id : Nat) : State := (s.makeRingCopies id).dropPkt id

/-- A packet's head cells are written, from its edit buffer (R303); where the pipeline has no cell for them the packet is
dropped
as one whose body finds none (R309; log entry 30). -/
def State.storeHead (s : State) (id : Nat) : State :=
  match SMap.find? s.pk.pkts id with
  | none => s
  | some p =>
    match s.freeCells p.pipe (p.headCells - p.headNos.length) with
    | none => ((s.count (C.iqmArrivalDrop p.pipe)).setF F.iqmEvent_arrivalDropSeen p.pipe 1).endPkt id true
    | some l => ((s.modPkt id fun _ => s.withDesc { p with headNos := p.headNos.take p.headCells ++ l }).syncIqm
        p.pipe).fcUpdate p.inPort

/-- The packets of a pipeline whose programs have not started: those of the dispatch window's 32 places (R271). One that a
REPLAY runs
again has had its place (log entry 269). -/
def State.unstarted (s : State) (pipe : Nat) : Nat := ((s.atStage pipe .window).filter fun e => e.2.runs == 0).length

/-- The dispatch window is full. -/
def State.windowFull (s : State) (pipe : Nat) : Bool := decide (s.unstarted pipe ≥ 32)

/-- The packets that hold a place of the rig reorder stage: a packet takes its place as it enters the rig stage, and leaves
it to be
released or set aside (R274; log entry 269). -/
def State.rigPlaces (s : State) (pipe : Nat) : Nat :=
  s.unstarted pipe + (s.atStage pipe .rig).length + (s.atStage pipe .finished).length

/-- The rig reorder stage, of 128 packets, is full. -/
def State.rigFull (s : State) (pipe : Nat) : Bool := decide (s.rigPlaces pipe ≥ 128)

/-- A packet that runs no program goes to the rig reorder stage (R273), its head cells written at once (R303). -/
def State.bypass (s : State) (id : Nat) (pipe : Nat) : State :=
  let n := s.prs.dealt
  let s1 := { s with prs := { s.prs with dealt := n + 1 } }
  ((s1.modPkt id fun p => { p with stage := .finished, seq := n }).count (C.rigBypass pipe)).storeHead id

/-- A packet enters its pipeline's dispatch window (R271); during a contained restart it is dropped (R292). -/
def State.enterWindow (s : State) (id pipe : Nat) : State :=
  if s.getB F.rigCtrl_restartActive pipe then (s.count (C.rigRestartDrop pipe)).dropPkt id
  else
    let w := SMap.getD s.rig.window pipe []
    let n := s.prs.dealt
    let s1 := { s with rig := { s.rig with window := SMap.set s.rig.window pipe (w ++ [id]) },
                       prs := { s.prs with dealt := n + 1 } }
    s1.modPkt id fun q => { q with stage := .window, seq := n }

/-- The flow profile of a packet, used only where it is valid and a member of its epoch (R138). -/
def State.useProfile (s : State) (p : Pkt) (n : Option Nat) : State × Option (Nat × List Nat) :=
  match n with
  | none => (s, none)
  | some k =>
    let w := SMap.getD s.clsView.flowProf k []
    if pValid w && pMember w p.epoch then (s, some (k, w))
    else ((s.count (C.clsProfileNotMember p.pipe)).setF F.clsEvent_notMemberSeen p.pipe 1, none)

/-- The ECMP hash of a packet's flow (R149). -/
def Pkt.flowHash (p : Pkt) : Nat := Config.hash 8 0 (ecmpFields 0x3F p.ckey) % 65536

/-- A flow lookup is issued to the home shard of the completed key (R14, R15, R131), or to the member that owns it
(R554). -/
def State.issueLookup (s : State) (id : Nat) (p : Pkt) (key : List Nat) : State :=
  let s1 := s.modPkt id fun q => { q with stage := .lookup, key := key }
  match s1.remoteOwner key with
  | some m => s1.issueRemote id m p.flowHash p key
  | none =>
  { s1 with fst := { s1.fst with reqs := s1.fst.reqs ++ [⟨id, p.pipe, homeShard s1.fst.shardSeed key, key, none⟩] } }

/-- What follows classification (R122, R119, R132, R138, R271, R273): the exception action, a lookup, a stateless run,
or no program. -/
def State.afterClassify (s : State) (id : Nat) (p : Pkt) (prof : Option (Nat × List Nat)) (flowSrc : Nat) : State :=
  let win := (s.parseInput p).window
  if p.par.truncated then
    match prof with
    | none => s.bypass id p.pipe
    | some (_, w) =>
      if pExcAction w == 1 then s.dropClassified id
      else
        let copy : CopyReq := ⟨4, pExcAction w == 2, pExcRing w, (s.trapReq p).len, 0, 0⟩
        let s1 := if pExcAction w ≥ 2 then s.modPkt id fun q => { q with copies := addCopy q.copies copy } else s
        s1.bypass id p.pipe
  else if p.noProg then s.bypass id p.pipe
  else
    match if p.par.conflict then none else canonicalKey win p.par flowSrc, prof with
    | none, prof =>
      let s1 := s.count (C.prsNoFlowKey p.pipe)
      if !p.par.conflict && prof.any (fun e => pSetupMode e.2 == 3) then s1.enterWindow id p.pipe
      else s1.bypass id p.pipe
    | some _, none => s.bypass id p.pipe
    | some key, some (n, w) =>
      if pSetupMode w == 3 then
        (s.modPkt id fun q => { q with key := completeKey key w n p.vrf }).enterWindow id p.pipe
      else s.issueLookup id p (completeKey key w n p.vrf)

/-- The fields classification resolves, written into the packet (R137). -/
def State.resolved (s : State) (p : Pkt) (h : RuleHits) (prof : Option Nat) (vrf op target : Nat) : Pkt :=
  let trap := (h.pick aTrap fun _ => true).isSome
  let p1 := { p with
    profile := prof, vrf := vrf, fwdOp := op, fwdTarget := target,
    cls := (h.pick aSetClass aClass).getD p.cls,
    rigMeta := ((h.em.orElse fun _ => h.msk).map aRigMeta).getD 0, ruleData := h.data,
    mirrors := match h.pick aMirrorEn aMirrorSession with
      | some m => if p.mirrors.contains m then p.mirrors else p.mirrors ++ [m]
      | none => p.mirrors }
  if trap then { p1 with copies := addCopy p1.copies (s.trapReq p1) } else p1

/-- The sample sources of a pass draw their numbers (R334): the port on the first pass, then rule and profile. -/
def State.sampleStage (s : State) (p : Pkt) (h : RuleHits) (prof : Option Nat) : State × Nat :=
  let (s1, a) := s.drawSample (if p.pass == 1 then (SMap.getD s.pk.qports p.inPort QPort.reset).sampleN else 0) 4
  let (s2, b) := s1.drawSample ((h.pick aSampleEn aSampleN).getD 0) 2
  let (s3, c) := s2.drawSample (prof.elim 0 fun n => SMap.getD s2.pk.sampleProf n 0) 1
  (s3, Nat.lor (Nat.lor a b) (Nat.lor c p.sampled))

/-- Classification of a packet whose keys stand (R136 to R157), up to what follows it. A packet marked PARSE_TRUNCATED is
forwarded on
its outer headers (R119). -/
def State.classify (s : State) (id : Nat) (p : Pkt) (errs : List EccErr) : State :=
  let pipe := p.pipe
  let cw := SMap.getD s.clsView.classProf p.keyProfile 0
  let kw := (s.keyProfileOf p).2
  let fwdSrc := if p.par.truncated then 0 else bitsOf (wordAt kw 0) 29 28
  let (s1, h1) := s.emStage p cw
  let (s2, h) := s1.mskStage p cw errs h1
  let prof := (h.pick aSetProfile aProfile).orElse fun _ => if bitOf cw 17 then some (bitsOf cw 16 11) else none
  let vrf := (h.pick aSetVrf aVrf).getD (SMap.getD s.cls.ports p.inPort ClsPort.reset).vrf
  let p := { p with ckey := withVrf ((canonicalKey (s.parseInput p).window p.par (bitsOf (wordAt kw 0) 31 30)).getD []) vrf }
  let (fwd, flood, fr) := match h.pick (fun a => aFwdOp a != 0) fun a => (aFwdOp a, aFwdTarget a) with
    | some (op, t) => (FwdRes.to op t, false, [])
    | none => s2.fwdStage p cw fwdSrc vrf
  let (s3, saDrop, lr) := if bitOf cw 19 then s2.learnStage p fwdSrc else (s2, false, [])
  let hops := match fwd with
    | .to op t => s2.hopReads p.ckey op t
    | _ => []
  let reads := ⟨7, p.keyProfile, 1⟩ :: (prof.toList.map fun n => TableRead.mk 6 n 1) ++ h.reads ++ fr ++ lr ++ hops
  let met := errs.filter fun e => decide (e.table < 8) && isRead reads e.table e.index
  let s4 := met.foldl (fun t e => t.clsEcc pipe e) s3
  if h.mskDrop then s4.dropPkt id
  else if s4.readsDamaged pipe reads || met.any (·.double) then (s4.count (C.clsEccDrop pipe)).dropPkt id
  else
    let (s5, smp) := s4.sampleStage p h ((s4.useProfile p prof).2.map Prod.fst)
    let (op, target) := match fwd with
      | .to op t => (op, t)
      | _ => (0, 0)
    let p1 := { s5.resolved p h prof vrf op target with sampled := smp }
    let s6 := s5.modPkt id fun _ => p1
    if h.denies || fwd == .deny then (s6.count (C.clsDeny pipe)).dropClassified id
    else if fwd == .routeMiss then
      ((s6.count (C.clsRouteMiss pipe)).setF F.clsEvent_routeMissSeen pipe 1).dropClassified id
    else if fwd == .noFwd then (s6.count (C.clsNoFwd pipe)).dropClassified id
    else if saDrop then s6.dropClassified id
    else
      let s7 := if flood then s6.count (C.clsL2Flood pipe) else s6
      let (s8, use) := s7.useProfile p1 prof
      let p2 := { p1 with profile := use.map Prod.fst }
      (s8.modPkt id fun _ => p2).afterClassify id p2 use (bitsOf (wordAt kw 0) 31 30)

/-- The parser trap's copy (R122, R135). -/
def State.parserTrap (s : State) (p : Pkt) : Pkt :=
  if p.par.conflict && s.getB F.prsCtrl_trapEn p.pipe then
    let copy : CopyReq := ⟨3, s.getB F.prsCtrl_trapToCriod p.pipe, s.getF F.prsCtrl_trapRing p.pipe,
      s.getF F.prsCtrl_trapLen p.pipe, 0, 0⟩
    { p with copies := addCopy p.copies copy }
  else p

/-- The packet of a source that the parser's reorder stage releases next: the one dealt first (R105). -/
def State.nextInOrder (s : State) (pipe src : Nat) : Option (Nat × Pkt) :=
  ((s.atStage pipe .reorder).filter fun e => e.2.src == src).foldl
    (fun a e => match a with
      | none => some e
      | some b => if e.2.seq < b.2.seq then some e else some b) none

/-- A packet leaves the parser's reorder stage: conflict handling, keys, classification. -/
def State.parserRelease (s : State) (id : Nat) (p0 : Pkt) (errs : List EccErr) : State :=
  let pipe := p0.pipe
  let p1 := s.parserTrap p0
  let s1 := (s.modPkt id fun _ => { p1 with stage := .lookup }).syncReorder pipe
  if p1.par.conflict && s1.getF F.prsCtrl_conflictAction pipe == 0 then s1.dropClassified id
  else
    let kp := (s1.keyProfileOf p1).1
    match errs.find? fun e => e.table == 8 && e.index == kp with
    | some e =>
      let s2 := s1.prsEcc pipe { e with table := 1 }
      if e.double then (s2.count (C.prsEccDrop pipe)).dropPkt id
      else
        let p2 := s2.buildPktKeys { p1 with stage := .lookup }
        (s2.modPkt id fun _ => p2).classify id p2 errs
    | none =>
      let p2 := s1.buildPktKeys { p1 with stage := .lookup }
      (s1.modPkt id fun _ => p2).classify id p2 errs

/-- A release that the rig stage has no place for waits (R271, R274, R275). -/
def State.orStall (s t : State) (pipe : Nat) : State :=
  if t.unstarted pipe > Nat.max 32 (s.unstarted pipe) || t.rigPlaces pipe > Nat.max 128 (s.rigPlaces pipe) then s else t

/-- PARSER_REORDER_RELEASE (R105, R122 to R138, R275): the reorder stage of a pipeline releases the next packet of a
source, unless the
rig stage has no place for it;
`errs` are the memory errors that its reads meet, tables numbered as CLS_ECC_CAPTURE does, 8 for key profiles, 9 for
masked-search actions. -/
def execParserReorderRelease (pipe src : Nat) (errs : List EccErr) (s : State) : Host.Outcome State Fault Refusal :=
  .next (match s.nextInOrder pipe src with
    | none => s
    | some (id, p) => s.orStall (s.parserRelease id p errs) pipe)

end Sys2Proof.Machine
end

