-- ==== Sys2Proof/Machine/ExportQ.lean ====
section
/-! DEFINITION. The export queue of the crow's nest (R527, R530, R534): which removed records are exported, and how a record
enters and leaves the queue. -/

namespace Sys2Proof.Machine

/-- Its template set. -/
def pExpSet (prof : List Nat) : Nat := bitsOf (wordAt prof 7) 7 4
/-- Exported in export windows. -/
def pExpInterval (prof : List Nat) : Bool := bitOf (wordAt prof 7) 1
/-- Exported at removal. -/
def pExpEnd (prof : List Nat) : Bool := bitOf (wordAt prof 7) 0

/-- The crow's nest as a requester of buffers and a holder of references (R252, R254). -/
def crowsNest : Nat := 34

/-- Records that one 2 KiB buffer of the queue holds (log entry 131). -/
def queueRoom : Nat := 255

/-- A record enters the queue; false where it finds no control buffer (R534). -/
def State.queueExport (s : State) (r : ExpRecord) : State × Bool :=
  let put (t : State) : State := { t with cnt := { t.cnt with expQueue := t.cnt.expQueue ++ [r] } }
  if s.cnt.expQueue.length < queueRoom * s.cnt.expQueueBufs.length then (put s, true)
  else
    match s.takeCtrl (8 * queueRoom) crowsNest with
    | (t, none) => (t.count C.expDropNobuf, false)
    | (t, some b) => (put { t with cnt := { t.cnt with expQueueBufs := t.cnt.expQueueBufs ++ [b] } }, true)

/-- A record has left the queue: a buffer no longer needed goes back. -/
def State.shrinkQueue (s : State) : State :=
  match s.cnt.expQueueBufs.getLast? with
  | none => s
  | some b =>
    if s.cnt.expQueue.length > queueRoom * (s.cnt.expQueueBufs.length - 1) then s
    else ({ s with cnt := { s.cnt with expQueueBufs := s.cnt.expQueueBufs.dropLast } }).freeCtrl b crowsNest

/-- The next record of the queue: end exports first, else the oldest (R534). -/
def State.nextExport (s : State) : Option ExpRecord :=
  match s.cnt.expQueue.find? (·.isEnd) with
  | some r => some r
  | none => s.cnt.expQueue.head?

/-- The export_mark of a standard record image (R202). -/
def iExportMark (im : List Nat) : Nat := wordAt im 29

/-- A removed record is exported (R530): its profile has end set, and its last export did not already carry reason 3 with
nothing seen since. -/
def State.exportsEnd (s : State) (handle size : Nat) (im : List Nat) : Bool :=
  s.cnt.expEnabled && pExpEnd (SMap.getD s.cls.flowProf (kProfile (iKey im)) [])
    && !(size == 1 && s.cnt.expLast3.contains handle && decide (wrapDiff (iLastSeen im) (iExportMark im) 32 ≤ 0))

/-- The end export of a record that goes (R530): the state, and whether the crow's nest now holds the record. -/
def State.endExport (s : State) (handle size why : Nat) (im : List Nat) : State × Bool :=
  let s1 := { s with cnt := { s.cnt with expLast3 := s.cnt.expLast3.filter (· != handle) } }
  if why == 0 || !s.exportsEnd handle size im then (s1, false)
  else s1.queueExport ⟨handle, pExpSet (SMap.getD s.cls.flowProf (kProfile (iKey im)) []), why, true⟩

end Sys2Proof.Machine
end

