-- ==== Sys2Proof/Machine/Shard.lean ====
section
/-! DEFINITION. A shard's resources as operations: cache lines and their victims, index slots and stash, records in heap
and cache, the miss queue, declared losses (R193 to R217, R226). -/

namespace Sys2Proof.Machine

/-! ## Cache lines (R204, R205) -/

/-- A way of a set of a shard as one number. -/
def lineKey (shard set way : Nat) : Nat := (1536 * shard + set) * 16 + way

/-- The shard of a line. -/
def lineShard (k : Nat) : Nat := k / 24576

/-- FST_CACHE_STATUS follows the lines. -/
def State.syncCache (s : State) (shard : Nat) : State :=
  let ls := s.fst.lines.filter fun e => lineShard e.1 == shard
  (s.setF F.fstCacheStatus_validLines shard ls.length).setF F.fstCacheStatus_dirtyLines shard
    (ls.filter fun e => e.2.dirty).length

/-- A line set. -/
def State.setLine (s : State) (k : Nat) (l : Line) : State :=
  { s with fst := { s.fst with lines := SMap.set s.fst.lines k l } }.syncCache (lineShard k)

/-- A line invalidated. -/
def State.delLine (s : State) (k : Nat) : State :=
  { s with fst := { s.fst with lines := SMap.del s.fst.lines k } }.syncCache (lineShard k)

/-- The line of a record in its owning shard: kind 0 HEAD, 1 EXT. -/
def State.recLine (s : State) (kind handle : Nat) : Option (Nat × Line) :=
  SMap.first? s.fst.lines fun k l => lineShard k == ownerOf handle && l.kind == kind && l.handle == handle

/-- The cache set of a key. -/
def State.setOfKey (s : State) (key : List Nat) : Nat := sigSet (signature s.fst.setSeed key)

/-- The lines of a set, with their ways. -/
def State.setLines (s : State) (shard set : Nat) : List (Nat × Line) :=
  s.fst.lines.filter fun e => e.1 / 16 == 1536 * shard + set

/-- The HEAD or LINK line a key is found by (R204, R208). -/
def State.probe (s : State) (shard : Nat) (key : List Nat) : Option (Nat × Line) :=
  (s.setLines shard (s.setOfKey key)).find? fun e => e.2.kind != 1 && e.2.key == key

/-- The ways under a node of a pseudo-LRU tree, least recently used first: bit `node` set sends the next victim to the
upper half. -/
def plruOrder (tree : Nat) : Nat → Nat → Nat → List Nat
  | 0, _, base => [base]
  | d + 1, node, base =>
    let lo := plruOrder tree d (2 * node + 1) base
    let hi := plruOrder tree d (2 * node + 2) (base + 2 ^ d)
    if bitOf tree node then hi ++ lo else lo ++ hi

/-- A tree after a use of a way: every node on the way points to the other half. -/
def plruTouch (tree way : Nat) : Nat :=
  (List.range 4).foldl (fun t d =>
    let node := 2 ^ d - 1 + way / 2 ^ (4 - d)
    putBit t node (!bitOf way (3 - d))) tree

/-- A way was used. -/
def State.touchWay (s : State) (k : Nat) : State :=
  let set := k / 16
  { s with fst := { s.fst with
    plru := SMap.put 0 s.fst.plru set (plruTouch (SMap.getD s.fst.plru set 0) (k % 16)) } }

/-- A line that no install passes over: not locked, no answer outstanding, nor the EXT partner of such a line. -/
def State.mayEvict (s : State) (e : Nat × Line) : Bool :=
  let free := fun (l : Line) => (s.lockHolder ⟨1, l.handle, 0⟩).isNone && l.inflight == 0
  if e.2.kind == 1 then (s.recLine 0 e.2.handle).elim true fun h => free h.2 else free e.2

/-- The descriptor whose mask names a profile: the lowest (log entry 43). -/
def State.descOf (s : State) (profile : Nat) : Option Nat :=
  (List.range 16).find? fun d => bitOf (SMap.getD s.fst.descs d 0) profile

/-- A shard's pass number for a profile's descriptor. -/
def State.passOf (s : State) (shard profile : Nat) : Nat :=
  (s.descOf profile).elim 0 fun d => SMap.getD s.fst.passNo (16 * shard + d) 0

/-- A shard rebuilds its index. -/
def State.rebuilding (s : State) (shard : Nat) : Bool := SMap.has s.fst.rebuilds shard

/-- Ageing bits of a record set and cleared (R219): 1 A, 2 T, 4 C. -/
def State.ageBitsSet (s : State) (handle on off : Nat) : State :=
  let v := SMap.getD s.fst.ageBits handle 0
  let v' := Nat.lor v on - Nat.land (Nat.lor v on) off
  { s with fst := { s.fst with ageBits := SMap.put 0 s.fst.ageBits handle v' } }

/-- A record whose image takes tclass 2 has C set (R221). -/
def State.noteClosing (s : State) (handle : Nat) (before after : List Nat) : State :=
  if iTclass after == 2 && iTclass before != 2 then s.ageBitsSet handle 4 0 else s

/-- The words of a record as lookups read them: its cached lines over its heap units. -/
def State.recNow (s : State) (handle : Nat) : Option FlowRec :=
  match SMap.find? s.fst.heap handle with
  | none => none
  | some r =>
    let head := (s.recLine 0 handle).elim (r.words.take 32) fun e => e.2.words
    let ext := (s.recLine 1 handle).elim (r.words.drop 32) fun e => e.2.words
    some ⟨r.size, head ++ ext⟩

/-- The image of a record as it stands. -/
def State.imageNow (s : State) (handle : Nat) : List Nat :=
  (s.recNow handle).elim [] fun r => toImage r.size r.words

/-- A record's words written, in the heap and in the lines that hold it. -/
def State.putWords (s : State) (handle size : Nat) (ws : List Nat) (dirty : Bool := false) : State :=
  let fix := fun (t : State) (kind : Nat) (part : List Nat) => match t.recLine kind handle with
    | some (k, l) => t.setLine k { l with words := part, dirty := l.dirty || dirty }
    | none => t
  fix (fix { s with fst := { s.fst with heap := SMap.set s.fst.heap handle ⟨size, ws⟩ } } 0 (ws.take 32)) 1
    (ws.drop 32)

/-- A hot-slice change of a cached record: the lines only (R205). -/
def State.putCached (s : State) (handle : Nat) (ws : List Nat) : State :=
  let fix := fun (t : State) (kind : Nat) (part : List Nat) => match t.recLine kind handle with
    | some (k, l) => if l.words == part then t else t.setLine k { l with words := part, dirty := true }
    | none => t
  fix (fix s 0 (ws.take 32)) 1 (ws.drop 32)

/-- A dirty line written back (R205): a HEAD line's hot slice is one unit, an EXT line's extension two; the key and auxiliary
words are never written back. -/
def State.writeBack (s : State) (l : Line) : State :=
  match l.dirty, SMap.find? s.fst.heap l.handle with
  | true, some r =>
    let hot := if r.size == 0 then 8 else 16
    let ws := if l.kind == 0 then l.words.take hot ++ r.words.drop hot else r.words.take 32 ++ l.words
    let us := if l.kind == 0 then [heapUnit l.handle] else [heapUnit l.handle + 2, heapUnit l.handle + 3]
    ({ s with fst := { s.fst with heap := SMap.set s.fst.heap l.handle ⟨r.size, ws⟩ } }.cleanse (ownerOf l.handle)
      us).count (C.fstEvictWb (ownerOf l.handle))
  | _, _ => s

/-- A touched line that goes records its touch once per pass, but not during a rebuild (R220, R224). -/
def State.noteTouch (s : State) (l : Line) : State :=
  let k := ownerOf l.handle
  let im := toImage l.size l.words
  let pass := s.passOf k (kProfile (iKey im)) % 256
  if l.kind != 0 || !l.touched || s.rebuilding k || iTpass im == pass then s
  else
    match SMap.find? s.fst.heap l.handle with
    | none => s
    | some r =>
      let ws := ofImage r.size (imPut (toImage r.size r.words) 14 23 16 pass)
      (s.ageBitsSet l.handle 2 0).putWords l.handle r.size ws

/-- A line evicted, its partner with it. -/
def State.evict (s : State) (k : Nat) (l : Line) : State :=
  let one := fun (t : State) (e : Nat × Line) => ((t.delLine e.1).writeBack e.2).noteTouch e.2
  if l.kind == 2 then s.delLine k
  else
    let other := s.recLine (1 - l.kind) l.handle
    match other with
    | some p => if l.kind == 0 then one (one s (k, l)) p else one (one s p) (k, l)
    | none => one s (k, l)

/-- `n` free ways of a set (1 or 2): empty ones first, then victims in pseudo-LRU order; none, and nothing changed, where
no way qualifies. -/
def State.freeWays (s : State) (shard set n : Nat) : Option (State × List Nat) :=
  go 3 s
where
  /-- Victims taken one after another. -/
  go : Nat → State → Option (State × List Nat)
    | fuel, t =>
      let here := t.setLines shard set
      let empty := (List.range 16).filter fun w => !here.any fun e => e.1 % 16 == w
      if empty.length ≥ n then some (t, empty.take n)
      else
        match fuel with
        | 0 => none
        | fuel + 1 =>
          let order := plruOrder (SMap.getD t.fst.plru (1536 * shard + set) 0) 4 0 0
          match order.findSome? fun w => here.find? fun e => e.1 % 16 == w && t.mayEvict e with
          | none => none
          | some (k, l) => go fuel (t.evict k l)

/-- A record installed in its owning shard: a HEAD line, and an EXT line for a full record (R204). None while no way
qualifies. -/
def State.installRec (s : State) (handle : Nat) : Option State :=
  match s.recLine 0 handle, SMap.find? s.fst.heap handle with
  | some _, _ => some s
  | none, none => none
  | none, some r =>
    let k := ownerOf handle
    let key := iKey (toImage r.size r.words)
    let set := s.setOfKey key
    match s.freeWays k set (if r.size == 2 then 2 else 1) with
    | none => none
    | some (t, ways) =>
      let base : Line := ⟨0, handle, r.size, 0, key, r.words.take 32, false, false, 0, none⟩
      let a := lineKey k set (ways.getD 0 0)
      let t1 := (t.setLine a base).touchWay a
      if r.size == 2 then
        some (t1.setLine (lineKey k set (ways.getD 1 0)) { base with kind := 1, words := r.words.drop 32 })
      else some t1

/-- A LINK line installed in a home shard (R204). -/
def State.installLink (s : State) (shard handle dir : Nat) (key : List Nat) : Option State :=
  let set := s.setOfKey key
  match s.probe shard key with
  | some _ => some s
  | none =>
    match s.freeWays shard set 1 with
    | none => none
    | some (t, ways) =>
      let a := lineKey shard set (ways.getD 0 0)
      some ((t.setLine a ⟨2, handle, 0, dir, key, [], false, false, 0, none⟩).touchWay a)

/-- Every line that answers for a record goes: its own lines, and LINK lines in the home shards (R222). -/
def State.dropLines (s : State) (handle : Nat) : State :=
  (s.fst.lines.filter fun e => e.2.handle == handle).foldl (fun t e => t.delLine e.1) s

/-! ## Index (R195 to R198, R212 to R216) -/

/-- The generation that is current in a shard. -/
def State.curGen (s : State) (shard : Nat) : Bool := s.getB F.fstStatus_curGen shard

/-- log2 of the buckets of a generation. -/
def State.genK (s : State) (shard : Nat) (gen : Bool) : Nat :=
  if gen == s.curGen shard then s.getF F.fstStatus_kCur shard else s.getF F.fstStatus_kNew shard

/-- The index seed of a generation: a rebuild with a new seed draws it for the generation it builds (R215). -/
def State.genSeed (s : State) (shard : Nat) (gen : Bool) : Nat :=
  let building := s.rebuilding shard && gen != s.curGen shard
  if building && !s.getB F.fstStatus_newSeed shard then (if gen then s.fst.seed0 else s.fst.seed1)
  else if gen then s.fst.seed1 else s.fst.seed0

/-- The generation inserts go to (R212). -/
def State.insertGen (s : State) (shard : Nat) : Bool :=
  if s.rebuilding shard then !s.curGen shard else s.curGen shard

/-- A key's two buckets in a generation, and its signature there. -/
def State.bucketsOf (s : State) (shard : Nat) (gen : Bool) (key : List Nat) : Nat × Nat × Nat :=
  let sig := signature (s.genSeed shard gen) key
  let b := sigBuckets sig (s.genK shard gen)
  (b.1, b.2, sig)

/-- The generations and buckets a lookup reads (R216), with the signature to match. -/
def State.route (s : State) (shard : Nat) (key : List Nat) : List (Bool × Nat × Nat × Nat) :=
  let cur := s.curGen shard
  let o := s.bucketsOf shard cur key
  match SMap.find? s.fst.rebuilds shard with
  | none => [(cur, o)]
  | some r =>
    let n := s.bucketsOf shard (!cur) key
    if o.1 < r.line && o.2.1 < r.line then [(!cur, n)] else [(cur, o), (!cur, n)]

/-- An index slot as a lookup meets it: in the stash or not, its place there, its generation. -/
structure Found where
  stash : Bool
  place : Nat
  gen : Bool
  slot : Slot
  deriving DecidableEq, Repr

/-- A slot matches a key's signature (R197). -/
def Slot.matches (e : Slot) (profile sig : Nat) : Bool := e.profile == profile && e.sig == sig

/-- The slots that match a key, in the order of R197: bucket by bucket, then the stash. -/
def State.candidates (s : State) (shard : Nat) (key : List Nat) : List Found :=
  let prof := kProfile key
  let r := s.route shard key
  let inBucket (g : Bool) (b sig : Nat) : List Found := (List.range 4).filterMap fun i =>
    (SMap.find? s.fst.index (slotKey shard g b i)).bind fun e =>
      if e.matches prof sig then some ⟨false, slotKey shard g b i, g, e⟩ else none
  let gens := if s.rebuilding shard then [s.curGen shard, !s.curGen shard] else [s.curGen shard]
  let inStash : List Found := gens.flatMap fun g => (List.range 256).filterMap fun i =>
    (SMap.find? s.fst.stash (256 * shard + i)).bind fun e =>
      if e.1 == g && e.2.matches prof (s.bucketsOf shard g key).2.2 then some ⟨true, 256 * shard + i, g, e.2⟩ else none
  (r.flatMap fun (g, b1, b2, sig) => inBucket g b1 sig ++ inBucket g b2 sig) ++ inStash

/-- The stash slots in use follow FST_STATUS.stash_occ. -/
def State.syncStash (s : State) (shard : Nat) : State :=
  s.setF F.fstStatus_stashOcc shard (s.fst.stash.filter fun e => e.1 / 256 == shard).length

/-- A slot taken out of its place. -/
def State.clearSlot (s : State) (shard : Nat) (f : Found) : State :=
  if f.stash then { s with fst := { s.fst with stash := SMap.del s.fst.stash f.place } }.syncStash shard
  else { s with fst := { s.fst with index := SMap.del s.fst.index f.place,
                                    toClear := s.fst.toClear.filter (· != f.place) } }

/-- The free place of a bucket: a slot not in use, or one whose relocated original is still to be cleared. -/
def State.freeSlot (s : State) (shard : Nat) (gen : Bool) (b : Nat) : Option Nat :=
  (List.range 4).findSome? fun i =>
    let k := slotKey shard gen b i
    if !SMap.has s.fst.index k || s.fst.toClear.contains k then some k else none

/-- The free place of a shard's stash. -/
def State.freeStash (s : State) (shard : Nat) : Option Nat :=
  (List.range 256).findSome? fun i => if SMap.has s.fst.stash (256 * shard + i) then none else some (256 * shard + i)

/-- A relocation chain of at most 16 kicks from a bucket (R212): the victims' places with the places they move to, first
victim first. `rot` is the rotating slot index. -/
def State.kickPath (s : State) (shard : Nat) (gen : Bool) (k : Nat) :
    Nat → Nat → Nat → List Nat → Option (List (Nat × Nat))
  | 0, _, _, _ => none
  | fuel + 1, b, rot, seen =>
    let order := (List.range 4).map fun i => slotKey shard gen b ((rot + i) % 4)
    match order.find? fun p => !seen.contains p && SMap.has s.fst.index p with
    | none => none
    | some p =>
      match SMap.find? s.fst.index p with
      | none => none
      | some e =>
        let c := sigBuckets e.sig k
        let alt := if c.1 == b then c.2 else c.1
        match s.freeSlot shard gen alt with
        | some q => some [(p, q)]
        | none =>
          match State.kickPath s shard gen k fuel alt (rot + 1) (p :: seen) with
          | none => none
          | some [] => none
          | some ((p2, q2) :: rest) => some ((p, p2) :: (p2, q2) :: rest)

/-- The bucket lock of an index place (R259). -/
def slotLock (place : Nat) : TxLock := ⟨0, place / 4, 0⟩

/-- A relocation chain carried out, last first: copies stand, the first victim's original waits to be cleared (R213). -/
def State.relocate (s : State) (shard : Nat) (path : List (Nat × Nat)) : State :=
  let moved := path.reverse.foldl (fun m (p, q) => match SMap.find? s.fst.index p with
    | some e => SMap.set m q e
    | none => m) s.fst.index
  let orig := (path.head?.map Prod.fst).toList
  { s with fst := { s.fst with index := moved, toClear := s.fst.toClear ++ orig,
                               rotor := SMap.put 0 s.fst.rotor shard
                                 ((SMap.getD s.fst.rotor shard 0 + path.length) % 4) } }.count
    (C.fstKicks shard) path.length

/-- What an insert found. -/
inductive Room where
  /-- A place in the index, its bucket lock. -/
  | at_ (place : Nat)
  /-- The stash. -/
  | stash
  | full
  /-- Locks of others stand in the way, on a free place or on a relocation chain. -/
  | locked (ls : List TxLock) (path : Bool)
  deriving DecidableEq, Repr

/-! ## Losses (R31, R226, R464) -/

/-- The notification of a loss (R464), held while a capture window holds the notifications of its source (R28, R486). -/
def State.notifyLoss (s : State) (pay : List Nat) : State :=
  match s.flt.window with
  | none => s.notify 5 4 0 false pay
  | some _ =>
    let f : FaultArg := ⟨0, 0, 0, 0, 0, 0, 0, 0, s.tm.sec, s.tm.ns, s.cycle, false⟩
    { s with flt := { s.flt with windowFaults := s.flt.windowFaults ++ [⟨f, 0, true, !s.locked, pay⟩] } }

/-- A loss is declared: notification of kind 5, FST_LAST_LOSS, the trouble log. -/
def State.declareLoss (s : State) (region shard location n tag : Nat) : State :=
  let pay := [region, shard, 0, 0] ++ bytesLE 4 location ++ bytesLE 4 n ++ bytesLE 4 tag
  let s1 := (s.notifyLoss pay).logLoss (0x8000 + shard) n (region <<< 29 + location)
  if s1.getB F.fstLastLoss_valid shard then s1
  else ((s1.setF F.fstLastLoss_valid shard 1).setF F.fstLastLoss_region shard region).setF F.fstLastLoss_location shard
    location

/-- A poisoned index bucket is rewritten empty (R226). -/
def State.emptyBucket (s : State) (shard : Nat) (gen : Bool) (b : Nat) : State :=
  let lost := s.fst.index.filter fun e => e.1 / 4 == slotKey shard gen b 0 / 4
  let s1 := { s with fst := { s.fst with
    index := s.fst.index.keep fun k _ => k / 4 != slotKey shard gen b 0 / 4
    toClear := s.fst.toClear.filter fun k => k / 4 != slotKey shard gen b 0 / 4 } }
  ((s1.cleanse shard [bucketUnit gen b]).setF F.fstEvent_poisonSeen shard 1).declareLoss 1 shard b lost.length 0

/-- A poisoned bucket that an insert, a removal or a relocation reads is rewritten empty (R226). -/
def State.mendBucket (s : State) (shard : Nat) (b : Bool × Nat) : State :=
  if s.poisoned shard (bucketUnit b.1 b.2) then s.emptyBucket shard b.1 b.2 else s

/-- Places found for a slot of a signature in a generation, relocating residents where that makes room (R212). `locked`
tells whether a lock is held by another; `stashTaken` counts stash places promised to prepared transactions. Before
fst.rebuild has sized an index it holds no buckets. A poisoned bucket on a relocation chain is rewritten empty and the
search begins again. -/
def State.makeRoom (s : State) (shard : Nat) (gen : Bool) (sig : Nat) (locked : TxLock → Bool) (stashTaken : Nat) :
    State × Room :=
  if s.genK shard gen == 0 then full s
  else
    let (b1, b2) := sigBuckets sig (s.genK shard gen)
    go 17 b1 b2 ((s.mendBucket shard (gen, b1)).mendBucket shard (gen, b2))
where
  /-- No place. -/
  full (t : State) : State × Room :=
    ((t.count (C.fstInsertNospace shard)).setF F.fstEvent_nospaceSeen shard 1, .full)
  /-- The search with buckets b1 and b2. -/
  go : Nat → Nat → Nat → State → State × Room
    | 0, _, _, t => full t
    | fuel + 1, b1, b2, t =>
      match (t.freeSlot shard gen b1).orElse fun _ => t.freeSlot shard gen b2 with
      | some p => if locked (slotLock p) then (t, .locked [slotLock p] false) else (t, .at_ p)
      | none =>
        match t.kickPath shard gen (t.genK shard gen) 16 b1 (SMap.getD t.fst.rotor shard 0) [] with
        | some path =>
          let bad := path.filter fun (_, q) => t.poisoned shard (bucketUnit gen (q / 4 % 2 ^ 23))
          if !bad.isEmpty then go fuel b1 b2 (bad.foldl (fun u (_, q) => u.mendBucket shard (gen, q / 4 % 2 ^ 23)) t)
          else
            match (path.flatMap fun (p, q) => [slotLock p, slotLock q]).filter locked with
            | [] => (t.relocate shard path, .at_ ((path.head?.map Prod.fst).getD 0))
            | ls => (t, .locked ls true)
        | none =>
          if (t.fst.stash.filter fun e => e.1 / 256 == shard).length + stashTaken < 256 then (t, .stash) else full t

/-- A slot written where there is room for it: index first, then stash (R212, R214). -/
def State.putSlot (s : State) (shard : Nat) (gen : Bool) (e : Slot) (stashOnly : Bool := false) : State :=
  let (b1, b2) := sigBuckets e.sig (s.genK shard gen)
  match if stashOnly then none else (s.freeSlot shard gen b1).orElse fun _ => s.freeSlot shard gen b2 with
  | some p => { s with fst := { s.fst with index := SMap.set s.fst.index p e,
                                           toClear := s.fst.toClear.filter (· != p) } }
  | none =>
    match s.freeStash shard with
    | some p => (({ s with fst := { s.fst with stash := SMap.set s.fst.stash p (gen, e) } }.syncStash shard).count
        (C.fstStashInserts shard)).setF F.fstEvent_stashUsedSeen shard 1
    | none => s

/-- After a slot of a bucket is freed, one stash slot whose candidates include the bucket moves into it (R214). -/
def State.unstash (s : State) (shard : Nat) (f : Found) : State :=
  if f.stash then s
  else
    let b := f.place / 4 % 2 ^ 23
    match SMap.first? s.fst.stash fun p e => p / 256 == shard && e.1 == f.gen
        && (let c := sigBuckets e.2.sig (s.genK shard f.gen); c.1 == b || c.2 == b) with
    | none => s
    | some (p, e) =>
      { s with fst := { s.fst with stash := SMap.del s.fst.stash p,
                                   index := SMap.set s.fst.index f.place e.2 } }.syncStash shard

/-- A key's slot in a shard, of whatever role, naming a live record that verifies (R197, R198). -/
def State.findKey (s : State) (shard : Nat) (key : List Nat) : Option Found :=
  (s.candidates shard key).find? fun f => (s.recNow f.slot.handle).elim false fun r =>
    verifyRec r.size (toImage r.size r.words) key f.slot.dir

/-- The slots of a record's key in its home shard. -/
def State.slotsOf (s : State) (key : List Nat) (handle : Nat) : List Found :=
  (s.candidates (homeShard s.fst.shardSeed key) key).filter fun f => f.slot.handle == handle

/-! ## Answers (R14, R206, R208) -/

/-- An answer of a record as it stands. -/
def State.answerOf (s : State) (handle dir : Nat) : Option Answer :=
  (s.recNow handle).map fun r =>
    let im := toImage r.size r.words
    ⟨handle, r.size, dir, im, false, iEntry im⟩

/-- A cached record answers a packet: touched set, inflight one more (R206). False where inflight stands at its limit. -/
def State.answerLine (s : State) (k : Nat) (l : Line) (pkt dir : Nat) : State × Bool :=
  if l.inflight ≥ 1023 then (s, false)
  else
    let s1 := (s.setLine k { l with touched := true, inflight := l.inflight + 1 }).touchWay k
    (s1.sendAnswer pkt (s1.answerOf l.handle dir), true)

/-- A hop sent to a record's owner (R16). -/
def State.sendHop (s : State) (shard pkt pipe : Nat) (key : List Nat) (handle dir : Nat) (set : Option Nat) : State :=
  let r : LookReq := ⟨pkt, pipe, ownerOf handle, key, some (handle, dir, set)⟩
  { s with fst := { s.fst with reqs := s.fst.reqs ++ [r] } }.count (C.fstRecordHops shard)

/-! ## Updates (R25, R272, R282) -/

/-- last_seen as a later-of write (R282). -/
def laterSeen (im : List Nat) (v : Option Nat) : List Nat :=
  match v with
  | some t => if wrapDiff t (iLastSeen im) 32 > 0 then setAt im 8 t else im
  | none => im

/-- A record image with an update applied. -/
def updatedImage (im : List Nat) (u : Update) : List Nat :=
  laterSeen (imCounts (u.writes.foldl imWrite im) u.addBytes u.addPackets) u.lastSeen

/-- A record as a pipeline's runs leave it without what was discarded: the committed image with the pipeline's updates that are
on their way or held. For a record of another member, the image of the answer. -/
def State.committedImage (s : State) (pipe : Nat) (a : Answer) : List Nat :=
  if a.handle ≥ 2 ^ 29 then a.image
  else
    let all := s.fst.updates ++ s.pk.pkts.flatMap fun e => e.2.held
    (all.filter fun u => u.handle == a.handle && u.pipe == pipe).foldl updatedImage (s.imageNow a.handle)

/-! ## Poisoned records (R226) -/

/-- FST_LIVE and the profile's live records change by one (R157, R229). -/
def State.countLive (s : State) (handle profile : Nat) (up : Bool) : State :=
  let n := s.getF F.fstLive_live (ownerOf handle)
  let m := SMap.getD s.cls.liveCount profile 0
  let s1 := s.setF F.fstLive_live (ownerOf handle) (if up then n + 1 else n - 1)
  { s1 with cls := { s1.cls with liveCount := SMap.put 0 s1.cls.liveCount profile (if up then m + 1 else m - 1) } }

/-- A handle whose record is poisoned is retired (R226): never used again, counted, and declared lost at its owner; its
record is
live no more. -/
def State.retireHandle (s : State) (h profile : Nat) : State :=
  if s.fst.retired.contains h then s
  else
    let k := ownerOf h
    let s1 := (s.dropLines h).countLive h profile false
    let s2 := { s1 with fst := { s1.fst with retired := s1.fst.retired ++ [h], heap := SMap.del s1.fst.heap h } }
    ((s2.count (C.fstPoisonRetired k)).setF F.fstEvent_poisonSeen k 1).declareLoss 0 k h 1 0

/-- A key's flow is relearned when it is set up again (R31, R226). -/
def State.loseKey (s : State) (key : List Nat) : State :=
  if s.fst.lostKeys.contains key then s else { s with fst := { s.fst with lostKeys := s.fst.lostKeys ++ [key] } }

/-- A poisoned or retired record met by a lookup: the slot it came through is removed and the handle retired; the flow will
be set
up again with relearned set (R226). -/
def State.retireRec (s : State) (shard : Nat) (f : Found) (key : List Nat) : State :=
  (((s.clearSlot shard f).unstash shard f).loseKey key).retireHandle f.slot.handle f.slot.profile

/-- The slots that name a handle, in whatever shard, with that shard. -/
def State.slotsNaming (s : State) (h : Nat) : List (Nat × Found) :=
  let inIndex := s.fst.index.filterMap fun e =>
    if e.2.handle == h then some (e.1 / 2 ^ 26, Found.mk false e.1 (e.1 / 2 ^ 25 % 2 == 1) e.2) else none
  let inStash := s.fst.stash.filterMap fun e =>
    if e.2.2.handle == h then some (e.1 / 256, Found.mk true e.1 e.2.1 e.2.2) else none
  inIndex ++ inStash

/-- A pass meets a record that is poisoned or retired: the handle is retired, every slot that names it goes, and its ageing bits
(R226). -/
def State.retireMet (s : State) (h : Nat) : State :=
  let fs := s.slotsNaming h
  let prof := (fs.head?.map fun e => e.2.slot.profile).getD 0
  ((fs.foldl (fun t e => (t.clearSlot e.1 e.2).unstash e.1 e.2) s).retireHandle h prof).ageBitsSet h 0 7

end Sys2Proof.Machine
end

