-- ==== Sys2Proof/Machine/Nat.lean ====
section
/-! DEFINITION. NAT pools, port blocks and port bitmaps as functions (R241 to R248). -/

namespace Sys2Proof.Machine

/-- Blocks per outside address. -/
def NatPool.bpa (p : NatPool) : Nat := (65536 - p.portLo) / p.blockSize

/-- Ports of a subscriber. -/
def NatPool.ports (p : NatPool) : Nat := p.m * p.blockSize

/-- The bitmap of a subscriber and protocol as one number: protocol 0 TCP, 1 UDP, 2 ICMP identifiers (R243). -/
def natKey (pool sub proto : Nat) : Nat := (pool * 2 ^ 22 + sub) * 4 + proto

/-- The shard that owns a bitmap (R243). -/
def natShard (key : Nat) : Nat := (key / 4 % 2 ^ 22 + key / 2 ^ 24) % 32

/-- The bitmap a protocol uses; none for one that is not translated (R244). ICMP without an identifier is not an echo:
its key then has source port 0 and it is told by its type (R130). -/
def natProto (proto : Nat) : Option Nat :=
  if proto == 6 then some 0 else if proto == 17 then some 1 else if proto == 1 || proto == 58 then some 2 else none

/-- The subscriber of an inside address (R242). -/
def NatPool.subscriber (p : NatPool) (a : Nat) : Option Nat :=
  if a < p.insideBase then none
  else
    let s := (a - p.insideBase) >>> p.insideShift
    if s ≥ p.subCount then none else some s

/-- The outside address and port of a subscriber's bit (R242, R245). -/
def NatPool.outside (p : NatPool) (sub bit : Nat) : Nat × Nat :=
  let g := sub * p.m + bit / p.blockSize
  (p.outsideBase + g / p.bpa, p.portLo + (g % p.bpa) * p.blockSize + bit % p.blockSize)

/-- The subscriber and bit of an outside address and port; none outside the pool. -/
def NatPool.inside (p : NatPool) (addr port : Nat) : Option (Nat × Nat) :=
  if addr < p.outsideBase || port < p.portLo || p.blockSize == 0 then none
  else
    let g := (addr - p.outsideBase) * p.bpa + (port - p.portLo) / p.blockSize
    let sub := g / p.m
    if sub ≥ p.subCount then none else some (sub, g % p.m * p.blockSize + (port - p.portLo) % p.blockSize)

/-- A set bit of a bitmap. -/
def State.natBit (s : State) (key bit : Nat) : Bool := bitOf (SMap.getD s.fst.natBits key 0) bit

/-- A bit of a bitmap written. -/
def State.setNatBit (s : State) (key bit : Nat) (on : Bool) : State :=
  { s with fst := { s.fst with
    natBits := SMap.put 0 s.fst.natBits key (putBit (SMap.getD s.fst.natBits key 0) bit on) } }

/-- The first free bit from the start on, wrapping, of those a test lets through (R245, R558). -/
def State.choosePort (s : State) (p : NatPool) (key pIn : Nat) (here : Nat → Bool) : Option Nat :=
  let n := p.ports
  (List.range n).findSome? fun i =>
    let b := (pIn % n + i) % n
    if s.natBit key b || !here b then none else some b

/-- An address lies within the NAT64 prefix. -/
def NatPool.inPrefix (p : NatPool) (a : Nat) : Bool :=
  a >>> (128 - p.len64) == p.prefix64 >>> (128 - p.len64)

/-- The IPv4 address that RFC 6052 embeds in an IPv6 address under a prefix length: bits 64 to 71 are passed over. -/
def NatPool.embedded (p : NatPool) (a : List Nat) : Nat :=
  let ix := if p.len64 == 32 then [4, 5, 6, 7] else if p.len64 == 40 then [5, 6, 7, 9]
    else if p.len64 == 48 then [6, 7, 9, 10] else if p.len64 == 56 then [7, 9, 10, 11]
    else if p.len64 == 64 then [9, 10, 11, 12] else [12, 13, 14, 15]
  numBE (ix.map fun i => a.getD i 0)

/-! ## Templates (R234) -/

def tValid (w : List Nat) : Bool := bitOf (wordAt w 7) 31
def tNatMode (w : List Nat) : Nat := bitsOf (wordAt w 7) 30 29
def tNatPool (w : List Nat) : Nat := bitsOf (wordAt w 7) 28 23
def tTcpGate (w : List Nat) : Bool := bitOf (wordAt w 7) 22
def tInitState (w : List Nat) : Nat := bitsOf (wordAt w 7) 21 16
def tInitTclass (w : List Nat) : Nat := bitsOf (wordAt w 7) 15 14
def tRevProfile (w : List Nat) : Nat := bitsOf (wordAt w 7) 13 8
def tRevVrf (w : List Nat) : Nat := bitsOf (wordAt w 6) 31 8
def tPolIndex (w : List Nat) : Nat := bitsOf (wordAt w 5) 31 16
def tPolEn (w : List Nat) : Bool := bitOf (wordAt w 5) 15

/-- The template of a key's profile. -/
def State.templateOf (s : State) (key : List Nat) : List Nat :=
  SMap.getD s.fst.templates (pTemplate (s.profOf key)) []

/-- The bitmap and bit that a record of nat_mode 1 or 3 holds (R247). The record itself tells its nat_mode: under 1 and 3, and
not under 2, its second key's destination is xlate_addr (R248), and the subscriber of its source holds the bit of its port
(log entry 261). -/
def State.natOfRecord (s : State) (size : Nat) (im : List Nat) : Option (Nat × Nat) :=
  let pool := iXlateAux im % 64
  match secondKey size im, natProto (kProto (iKey im)), SMap.find? s.fst.natPools pool with
  | some k2, some pr, some p =>
    match p.inside (iXlateAddr im) (iXlatePort im) with
    | some (sub, bit) =>
      let key := natKey pool sub pr
      if kDst k2 == mapped4 (iXlateAddr im) && p.subscriber (numBE (kSrc (iKey im))) == some sub && s.natBit key bit then
        some (key, bit)
      else none
    | none => none
  | _, _, _ => none

/-- A port's bit is due to be cleared nat_hold after a removal; a full release list releases its oldest at once (R247). -/
def State.holdPort (s : State) (shard key bit : Nat) : State :=
  let l := SMap.getD s.fst.holds shard []
  let new : NatHold := ⟨key, bit, s.now + s.fst.natHold * 1000000000⟩
  match l with
  | e :: rest =>
    if l.length ≥ 4096 then
      let t := { s with fst := { s.fst with holds := SMap.set s.fst.holds shard (rest ++ [new]) } }
      (t.setNatBit e.key e.bit false).count (C.fstNatHoldShort shard)
    else { s with fst := { s.fst with holds := SMap.set s.fst.holds shard (l ++ [new]) } }
  | [] => { s with fst := { s.fst with holds := SMap.set s.fst.holds shard [new] } }

/-- NAT_HOLD_RELEASE (R247, R258): the oldest port of a shard's release list that is due is freed by a single-write
transaction at the bitmap shard. -/
def execNatHoldRelease (shard : Nat) (s : State) : Host.Outcome State Fault Refusal :=
  .next (match SMap.getD s.fst.holds shard [] with
    | e :: rest =>
      if s.now < e.due then s
      else
        match s.conflict [⟨2, e.key, e.bit⟩] with
        | some r => s.countTx (natShard e.key) r.code
        | none =>
          (({ s with fst := { s.fst with holds := SMap.put [] s.fst.holds shard rest } }).setNatBit e.key e.bit
            false).countTx (natShard e.key) 0
    | [] => s)

/-! ## Commands (R241, R268) -/

/-- Bits set in a number of at most `n` bits. -/
def popCount (v n : Nat) : Nat := ((List.range n).filter fun i => bitOf v i).length

/-- A pool's ports in use or in hold, and those in hold (R243, R247). -/
def State.natUsed (s : State) (pool : Nat) : Nat × Nat :=
  ((s.fst.natBits.filter fun e => e.1 / 2 ^ 24 == pool).foldl (fun a e => a + popCount e.2 4096) 0,
   s.fst.holds.foldl (fun a e => a + (e.2.filter fun x => x.key / 2 ^ 24 == pool).length) 0)

/-- A pool that a NAT template names has live bindings: set bits in its bitmaps that are not in hold (R241). -/
def State.natLive (s : State) (pool : Nat) : Bool :=
  (s.fst.templates.any fun e => (tNatMode e.2 == 1 || tNatMode e.2 == 3) && tNatPool e.2 == pool)
    && decide ((s.natUsed pool).1 > (s.natUsed pool).2)

/-- Bytes of a subscriber's three bitmaps, each in whole 64-byte units (R243). -/
def NatPool.mapBytes (p : NatPool) : Nat := 3 * (64 * ((p.ports + 511) / 512))

/-- Bytes of the bitmaps of a pool in a shard's slice: its subscribers s with (s + pool) mod 32 the shard (R243). -/
def NatPool.sliceBytes (p : NatPool) (pool shard : Nat) : Nat :=
  p.mapBytes * ((p.subCount + 31 - (shard + 32 - pool % 32) % 32) / 32)

/-- The bitmaps of all pools fit the 8 MiB NAT bitmap area of every slice (R243, R380). -/
def natFits (pools : SMap NatPool) : Bool :=
  (List.range 32).all fun k => decide ((pools.map fun e => e.2.sliceBytes e.1 k).sum ≤ 8 * 2 ^ 20)

/-- The DIRECT row of a NAT pool's summary (R285). -/
def natRow (pool : Nat) : Nat := 17408 + pool

/-- A NAT pool written, and its DIRECT summary: its first outside address and their number (R285, R295; log entry 266). -/
def State.putPool (s : State) (pool : Nat) (p : NatPool) : State :=
  { s with
    fst := { s.fst with natPools := SMap.set s.fst.natPools pool p }
    rig := { s.rig with direct := SMap.set s.rig.direct (natRow pool) [p.outsideBase, p.addrCount, 0, 0] } }

/-- NAT_POOL_SET (R241, R285, R380). -/
def execNatPoolSet (h : CmdHdr) (pool insideBase insideShift subCount outsideBase addrCount portLo blockSize m prefix64
    len64 : Nat) (s : State) : Host.Outcome State Fault Refusal :=
  let p : NatPool := ⟨insideBase, insideShift, subCount, outsideBase, addrCount, portLo, blockSize, m, prefix64, len64⟩
  .next (s.cmd (.natPoolSet h pool insideBase insideShift subCount outsideBase addrCount portLo blockSize m prefix64 len64) h
    attrNone [decide (pool < 64), decide (insideBase < 2 ^ 128), decide (insideShift ≤ 64),
      decide (1 ≤ subCount) && decide (subCount ≤ 2 ^ 22), decide (outsideBase < 2 ^ 32),
      decide (1 ≤ addrCount) && decide (addrCount ≤ 65536), decide (1024 ≤ portLo) && decide (portLo ≤ 61440),
      [64, 128, 256, 512, 1024, 2048, 4096].contains blockSize,
      decide (1 ≤ m) && decide (m ≤ 16) && decide (m * blockSize ≤ 4096) && decide (subCount * m ≤ addrCount * p.bpa),
      decide (prefix64 < 2 ^ 128), [32, 40, 48, 56, 64, 96].contains len64, natFits (SMap.set s.fst.natPools pool p)] fun s =>
    if s.natLive pool then (s, .err eBusy)
    else (s.putPool pool p, .ok))

/-- NAT_POOL_STATUS (R268): live bindings, ports in hold, exhausted subscribers, and a subscriber's bitmaps. -/
def execNatPoolStatus (h : CmdHdr) (pool : Nat) (sub : Option Nat) (s : State) : Host.Outcome State Fault Refusal :=
  .next (s.cmd (.natPoolStatus h pool sub) h attrNone [decide (pool < 64) && SMap.has s.fst.natPools pool,
      match sub, SMap.find? s.fst.natPools pool with
      | some k, some p => decide (k < p.subCount)
      | _, _ => true] fun s =>
    let (used, held) := s.natUsed pool
    let maps := match sub with
      | some k => (List.range 3).flatMap fun pr =>
        let w := SMap.getD s.fst.natBits (natKey pool k pr) 0
        (List.range 128).map fun i => bitsOf w (32 * i + 31) (32 * i)
      | none => []
    let full := s.fst.natBits.filter fun e =>
      e.1 / 2 ^ 24 == pool && popCount e.2 4096 == (SMap.find? s.fst.natPools pool).elim 0 NatPool.ports
    let subs := (full.map fun e => e.1 / 4).eraseDups.length
    (s, .bulkOf [used - held, held, subs] maps))

/-- NAT_HOLD_CONFIG (R36, R247): 0 to 600 s. -/
def execNatHoldConfig (h : CmdHdr) (seconds : Nat) (s : State) : Host.Outcome State Fault Refusal :=
  .next (s.cmd (.natHoldConfig h seconds) h attrNone [decide (seconds ≤ 600)] fun s =>
    ({ s with fst := { s.fst with natHold := seconds } }, .ok))

end Sys2Proof.Machine
end

