-- ==== Sys2Proof/Machine/Txn.lean ====
section
/-! DEFINITION. Hardware transactions: prepare, commit point, apply, acknowledgement, abort (R257 to R265). -/

namespace Sys2Proof.Machine

/-! ## What a transaction touches (R257) -/

/-- The shard a write goes to; none for rule, masked-search and counter writes. -/
def TxWrite.shard : TxWrite → Option Nat
  | .slotPut k _ => some k
  | .slotDel k _ _ => some k
  | .recPut h _ _ => some (ownerOf h)
  | .recMask h _ _ _ => some (ownerOf h)
  | .recHot h _ _ => some (ownerOf h)
  | .recGone h _ => some (ownerOf h)
  | .bits h _ _ => some (ownerOf h)
  | .natBit key _ _ => some (natShard key)
  | .ruleDel _ _ _ => none
  | .rulePut _ => none
  | .ruleMod _ _ => none
  | .mskPut _ _ _ => none
  | .mskDel _ _ => none
  | .counter _ _ => none

/-- The writes a write counts as: a record counts its 64-byte units. -/
def TxWrite.weight : TxWrite → Nat
  | .recPut _ size _ => 2 ^ size
  | _ => 1

/-- The shards a list of writes touches. -/
def writeShards (ws : List TxWrite) : List Nat := (ws.filterMap TxWrite.shard).eraseDups

/-- A transaction within its limits. -/
def txFits (ws : List TxWrite) : Bool :=
  decide (ws.foldl (fun a w => a + w.weight) 0 ≤ 64) && decide ((writeShards ws).length ≤ 4)

/-- A transaction's class (R257). -/
def Tx.cls (t : Tx) : Nat := t.source / 4096

/-- The record that a transaction writes for a handle: its size and words. -/
def recInWrites (ws : List TxWrite) (handle : Nat) : Option (Nat × List Nat) :=
  ws.findSome? fun w => match w with
    | .recPut h size words => if h == handle then some (size, words) else none
    | _ => none

/-- The key a slot of a transaction answers. -/
def State.keyOfSlot (s : State) (ws : List TxWrite) (e : Slot) : List Nat :=
  let r := (recInWrites ws e.handle).orElse fun _ => (s.recNow e.handle).map fun r => (r.size, r.words)
  match r with
  | none => []
  | some (size, words) =>
    let im := toImage size words
    if e.dir == 0 then iKey im else (secondKey size im).getD []

/-- The places of a record's slot of a role in its home shard. -/
def State.slotPlaces (s : State) (key : List Nat) (e : Slot) : List Found :=
  (s.slotsOf key e.handle).filter fun f => f.slot.dir == e.dir

/-- The locks of a write whose place is known before prepare (R259). -/
def State.locksOf (s : State) : TxWrite → List TxLock
  | .slotPut _ _ => []
  | .slotDel _ e key => ((s.slotPlaces key e).filter fun f => !f.stash).map fun f => slotLock f.place
  | .recPut h _ _ => [⟨1, h, 0⟩]
  | .recMask h _ _ _ => [⟨1, h, 0⟩]
  | .recHot h _ _ => [⟨1, h, 0⟩]
  | .recGone h _ => [⟨1, h, 0⟩]
  | .bits h _ _ => [⟨3, ownerOf h, h % 2 ^ 24 / 128⟩]
  | .natBit key bit _ => [⟨2, key, bit⟩]
  | .ruleDel table epoch key => (s.emFind table key epoch).elim [] fun e => ruleLocks s.cls.ruleSeed e.2
  | .rulePut e => ruleLocks s.cls.ruleSeed e
  | .ruleMod _ e => ruleLocks s.cls.ruleSeed e
  | .mskPut b i _ => [mskLock b i]
  | .mskDel b i => [mskLock b i]
  | .counter _ _ => []

/-- The units a write's prepare reads (R259, R388): index buckets and the records it changes. -/
def State.readsOf (s : State) (ws : List TxWrite) : TxWrite → List (Nat × Nat)
  | .slotPut k e =>
    let (b1, b2, _) := s.bucketsOf k (s.insertGen k) (s.keyOfSlot ws e)
    [(k, bucketUnit (s.insertGen k) b1), (k, bucketUnit (s.insertGen k) b2)]
  | .slotDel k e key => (s.slotPlaces key e).map fun f => (k, bucketUnit f.gen (f.place / 4 % 2 ^ 23))
  | .recMask h _ _ _ => [(ownerOf h, heapUnit h)]
  | .recHot h _ _ => [(ownerOf h, heapUnit h)]
  | .recGone h _ => [(ownerOf h, heapUnit h)]
  | _ => []

/-! ## Applying writes (R260) -/

/-- Requests of a key whose reads fell before a removal's commit read again (R222). -/
def State.markRestarts (s : State) (key : List Nat) : State :=
  let mark := fun (e : MqEntry) => if e.key == key && (e.wait == .reads || e.wait == .install) then
    { e with restart := true, wait := .reads, target := none } else e
  { s with fst := { s.fst with mq := s.fst.mq.mapVal fun _ l => l.map mark } }

/-- A record that hops named is gone: the requests that the owner still holds for a key go back to the key's home shard and
look it
up again there, ahead of the requests that the home shard holds (R14, R16, R24, R222): first those in the owner's miss queue,
then the hops on their way. Where the home shard's queue is full the last are dropped (R210). -/
def State.recall (s : State) (handle : Nat) (key : List Nat) : State :=
  let owner := ownerOf handle
  let home := homeShard s.fst.shardSeed key
  let named := fun (r : LookReq) => r.shard == owner && r.key == key && r.hop.elim false fun h => h.1 == handle
  let back := ((s.mqOf owner).filter fun e => e.key == key).map (fun e => (e.pkt, e.pipe))
    ++ (s.fst.reqs.filter named).map fun r => (r.pkt, r.pipe)
  if owner == home || back.isEmpty then s
  else
    let s1 := { s with fst := { s.fst with reqs := s.fst.reqs.filter fun r => !named r } }.mqDrop owner (back.map Prod.fst)
    let q := s1.mqOf home
    let busy := q.any fun e => e.key == key && e.wait != .reads && e.wait != .chained && e.wait != .install
    let fresh := back.take (4096 - q.length)
    let lead := fun (e : MqEntry) (first : Bool) => if first && !busy then { e with wait := .reads } else e
    let mine := fresh.zipIdx.map fun x => lead ⟨x.1.1, x.1.2, key, .chained, false, none, none, 0⟩ (x.2 == 0)
    let behind := q.map fun e => if e.key == key && !busy then { e with wait := .chained, restart := false, target := none } else e
    let s2 := s1.setMq home (if busy then behind ++ mine else mine ++ behind)
    (back.drop fresh.length).foldl (fun t e =>
      ((t.setF F.fstEvent_mqOverflowSeen home 1).count (C.fstMqOverflowChained home)).dropPkt e.1) s2

/-- A record leaves the store: A, T and C cleared, its lines invalidated, its port to the release list, and requests that
met it look
again (R222, R247). -/
def State.unlinkRec (s : State) (handle : Nat) (r : FlowRec) : State :=
  let im := toImage r.size r.words
  let s1 := ((s.dropLines handle).countLive handle (kProfile (iKey im)) false).ageBitsSet handle 0 7
  let s2 := match s1.natOfRecord r.size im with
    | some (key, bit) => s1.holdPort (ownerOf handle) key bit
    | none => s1
  (iKey im :: (secondKey r.size im).toList).foldl (fun t k => (t.recall handle k).markRestarts k) s2

/-- A record out of the store, with `left` holders: freed where there are none, else no longer live (R222, R256). -/
def State.freeRec (s : State) (handle left : Nat) (r : FlowRec) : State :=
  if left == 0 then ({ s with fst := { s.fst with heap := SMap.del s.fst.heap handle } }).freeHandle handle
  else
    let im' := imPut (imPut (toImage r.size r.words) 15 23 23 0) 14 31 24 left
    { s with fst := { s.fst with heap := SMap.set s.fst.heap handle ⟨r.size, ofImage r.size im'⟩ } }

/-- A record removed; `n` index slots went with it; an end export takes a reference, and the record is freed when its last
holder lets go (R222, R247, R256, R530). -/
def State.removeRec (s : State) (handle n why : Nat) : State :=
  match s.recNow handle with
  | none => s
  | some r =>
    let im := toImage r.size r.words
    let (s1, held) := (s.unlinkRec handle r).endExport handle r.size why im
    s1.freeRec handle (iRefcount im - n + b2n held) r

/-- A record whose dirty state a restart discarded: its flow is set up again as a new one (R31; log entry 255), so its
slots and the
record go. -/
def State.loseRec (s : State) (handle : Nat) : State :=
  match SMap.find? s.fst.heap handle with
  | none => s
  | some r =>
    let im := toImage r.size r.words
    if !iLive im then s
    else
      let clear := fun (t : State) (key : List Nat) => (t.slotsOf key handle).foldl (fun u f =>
        let home := homeShard u.fst.shardSeed key
        (u.clearSlot home f).unstash home f) t
      let keys := iKey im :: (secondKey r.size im).toList
      let n := (keys.map fun k => (s.slotsOf k handle).length).sum
      (((keys.foldl clear s).loseKey (iKey im)).unlinkRec handle r).freeRec handle (iRefcount im - n) r

/-- A rule entry found and replaced, its hit bit kept. -/
def State.ruleReplace (s : State) (epoch : Nat) (e : RuleEntry) : State :=
  match s.emFind e.table e.key epoch with
  | some (k, old) => (s.setEm (SMap.set s.cls.em k { e with ep0 := old.ep0, ep1 := old.ep1, hit := old.hit })).mendCls 0 k
  | none => s

/-- One write applied. -/
def State.applyWrite (s : State) (ws : List TxWrite) : TxWrite → State
  | .slotPut k e =>
    let g := s.insertGen k
    s.putSlot k g { e with sig := signature (s.genSeed k g) (s.keyOfSlot ws e) }
  | .slotDel k e key => (s.slotPlaces key e).foldl (fun t f => (t.clearSlot k f).unstash k f) s
  | .recPut h size words =>
    let s1 := { s with fst := { s.fst with heap := SMap.set s.fst.heap h ⟨size, words⟩ } }
    (s1.cleanse (ownerOf h) (recordUnits h size)).countLive h (kProfile (iKey (toImage size words))) true
  | .recMask h base mask words =>
    match s.recNow h with
    | none => s
    | some r =>
      let ws := (List.range 16).foldl (fun l i => if bitOf mask i then setAt l (base + i) (wordAt words i) else l) r.words
      (s.putWords h r.size ws).noteClosing h (toImage r.size r.words) (toImage r.size ws)
  | .recHot h mask words =>
    match s.recNow h with
    | none => s
    | some r =>
      let im := (List.range 16).foldl (fun l i => if bitOf mask i then setAt l i (wordAt words i) else l)
        (toImage r.size r.words)
      (s.putWords h r.size (ofImage r.size im)).noteClosing h (toImage r.size r.words) im
  | .recGone h why =>
    let slots := ws.filter fun w => match w with
      | .slotDel _ _ _ => true
      | _ => false
    s.removeRec h slots.length why
  | .bits h on off => s.ageBitsSet h on off
  | .natBit key bit on => s.setNatBit key bit on
  | .ruleDel table epoch key =>
    match s.emFind table key epoch with
    | some (k, _) => (s.setEm (SMap.del s.cls.em k)).mendCls 0 k
    | none => s
  | .rulePut e =>
    match (emCuckoo s.cls.ruleSeed).place s.cls.em e with
    | some (m, stash) =>
      let s1 := (s.setEm m).mendNew 0 s.cls.em m
      if stash then s1.stashUsed else s1
    | none => s
  | .ruleMod epoch e => s.ruleReplace epoch e
  | .mskPut b i e => s.mskSet b i e
  | .mskDel b i => s.mskInvalidate b i
  | .counter key value => { s with ctrs := SMap.put ⟨0, false⟩ s.ctrs key ⟨trunc 64 value, false⟩ }

/-- Records are written before the slots that name them, and removed after the slots that named them. -/
def writeRank : TxWrite → Nat
  | .recPut _ _ _ => 0
  | .recGone _ _ => 2
  | _ => 1

/-- The 64-byte units that writes put into a shard's commit buffer (R260). -/
def unitsAt (ws : List TxWrite) (shard : Nat) : Nat := ((ws.filter fun w => w.shard == some shard).map TxWrite.weight).sum

/-- Writes to HBM regions enter the commit buffers of their shards (R260). -/
def State.bufferWrites (s : State) (ws : List TxWrite) : State :=
  (writeShards ws).foldl (fun t k =>
    { t with fst := { t.fst with commitBuf := SMap.update 0 t.fst.commitBuf k (· + unitsAt ws k) } }) s

/-- Some of a shard's buffered writes to HBM have completed; how many is left open (R260; log entry 265). -/
def State.drainCommits (s : State) (shard : Nat) : State :=
  let n := SMap.getD s.fst.commitBuf shard 0
  if n == 0 then s
  else { s.draw with fst := { s.draw.fst with commitBuf := SMap.put 0 s.fst.commitBuf shard (s.freeVal % (n + 1)) } }

/-- The writes of a transaction that a test selects, applied in one cycle. -/
def State.applyAll (s : State) (ws : List TxWrite) (p : TxWrite → Bool) : State :=
  ([0, 1, 2].foldl (fun t r => (ws.filter fun w => p w && writeRank w == r).foldl (fun u w => u.applyWrite ws w) t) s).bufferWrites
    (ws.filter p)

/-! ## Ends (R237 to R239, R258, R265, R269) -/

/-- BPM_STATUS.open_tx counts the prepared transactions (R270). -/
def State.syncTx (s : State) : State :=
  s.setF F.bpmStatus_openTx 0 (s.fst.txs.filter fun e => e.2.phase == .prepared).length

/-- A transaction set. -/
def State.setTx (s : State) (id : Nat) (t : Tx) : State :=
  { s with fst := { s.fst with txs := SMap.set s.fst.txs id t } }.syncTx

/-- A transaction gone, its locks with it. -/
def State.delTx (s : State) (id : Nat) : State :=
  { s with fst := { s.fst with txs := SMap.del s.fst.txs id } }.syncTx

/-- A transaction opened. -/
def State.openTx (s : State) (t : Tx) : State × Nat :=
  let id := s.fst.nextTx
  (({ s with fst := { s.fst with nextTx := id + 1 } }).setTx id t, id)

/-- A transaction with its writes, and nothing prepared. -/
def Tx.new (source coord : Nat) (ws : List TxWrite) : Tx :=
  { source := source, coord := coord, writes := ws, locks := [], start := 0, phase := .opened, conds := [],
    toApply := [], toAck := [], setup := none, cmd := none, result := [], gen := 0, held := false, faulted := false,
    lost := 0, attempts := 0, kicks := 0, answered := false, merge := none, removal := none, peers := [], origin := none }

/-- Handles taken for records that were never written go back (R238). -/
def State.returnHandles (s : State) (ws : List TxWrite) : State :=
  ws.foldl (fun t w => match w with
    | .recPut h _ _ => t.freeHandle h
    | _ => t) s

/-- A packet set back to before its first run: the frame, its marks and its cells as they are, the rest as it entered the rig
stage (log entry 58). -/
def Pkt.restored (p before : Pkt) : Pkt :=
  { before with body := p.body, arriving := p.arriving, bad := p.bad, charge := p.charge, desc := p.desc, headNos := p.headNos,
                bodyNos := p.bodyNos, refs := p.refs, admitted := p.admitted, badCells := p.badCells, counted := p.counted,
                marked := p.marked, runs := p.runs, seq := p.seq, tx := p.tx, awaiting := false, held := [], run := none }

/-- What a packet holds of the rig stage is given up: its rig, its place in the window, its answer's place in the chain
(R272). -/
def State.leaveRig (s : State) (id : Nat) (p : Pkt) : State :=
  let s1 := match p.run with
    | some r => s.setBit F.rigCtrl_rigBusy p.pipe r.rig false
    | none => s
  let rest := (SMap.getD s1.rig.window p.pipe []).filter (· != id)
  let s2 := { s1 with rig := { s1.rig with window := SMap.set s1.rig.window p.pipe rest } }
  match p.ans with
  | some a => if p.stage == .window || p.stage == .rig || !p.held.isEmpty then s2.endChain p.pipe a.handle else s2
  | none => s2

/-- A trigger whose setup failed after its provisional answer was sent (R25, R210, R238). An answer still on its way becomes one
without flow state. A trigger that has it is dropped, or goes on as it was before its program ran, on the profile's default
class (log entry 44). -/
def State.failTrigger (s : State) (pkt : Nat) (key : List Nat) : State :=
  if isProxy pkt then (s.sendProxy pkt (.failed (proxyTag pkt))).forgetProxy pkt
  else
    match SMap.find? s.pk.pkts pkt with
    | none => s
    | some p =>
      let mine (a : Nat × Option Answer) : Bool := a.1 == pkt && a.2.isSome
      if s.fst.answers.any mine then
        { s with fst := { s.fst with answers := s.fst.answers.filter fun a => !mine a } }.overflow pkt key
      else
        let s1 := s.leaveRig pkt p
        let q := { p.restored (SMap.getD s.rig.saved pkt p) with ans := none, handle := none }
        if pMissForward (s.profOf key) then
          (s1.modPkt pkt fun _ => { q with stage := .finished, cls := pDefClass (s.profOf key) }).storeHead pkt
        else (s1.modPkt pkt fun _ => q).dropPkt pkt

/-- A setup failed on a good frame: the overflow action for its trigger and every request chained behind it, in order
(R238). -/
def State.endFailed (s : State) (shard pkt : Nat) (key : List Nat) (answered : Bool) : State :=
  let ids := (s.mqChain shard key).map (·.pkt)
  let s1 := s.mqDrop shard (pkt :: ids)
  let s2 := if answered then s1.failTrigger pkt key else s1.overflow pkt key
  ids.foldl (fun t id => t.overflow id key) s2

/-- A setup has failed (R238): its entry waits for the end of its trigger's frame, which decides between the overflow action and
the end of a bad frame. -/
def State.failSetup (s : State) (shard pkt : Nat) (key : List Nat) (answered : Bool) : State :=
  if (SMap.find? s.pk.pkts pkt).any (·.arriving) then s.mqSet shard pkt fun e => { e with wait := .failed answered, tx := none }
  else s.endFailed shard pkt key answered

/-- The key of a setup's entry. -/
def State.setupKey (s : State) (shard pkt : Nat) : List Nat :=
  (((s.mqOf shard).find? fun e => e.pkt == pkt).map (·.key)).getD []

/-- The command a transaction completes gets its result; a Criod thread's transaction is journalled (R432). -/
def State.answerTx (s : State) (t : Tx) (code : Nat) : State :=
  let s1 := if t.cls == 6 then s.journal (t.source % 64) t.gen code (t.cmd.map fun c => (c.1, c.2.1)) else s
  match t.cmd with
  | some (mbx, cid, noIrq) => s1.answer mbx cid noIrq ⟨code, 0, if code == 0 then t.result else [], []⟩
  | none => s1

/-- What an abort tells the members that take part, and the one that coordinates (R557). -/
def State.tellAbort (s : State) (id code : Nat) (t : Tx) : State :=
  let s1 := t.peers.foldl (fun u e => u.sendTo e.1 (.txAbort id)) s
  match t.origin with
  | some (m, ref) => s1.sendTo m (.txVote ref code)
  | none => s1

/-- A transaction that has not reached its commit point aborts with a result: its locks go, nothing it wrote takes
effect. A fast setup in conflict is tried three times (R238); a crow's nest clear that finds word 15 changed is counted
(R533). -/
def State.txAbort (s : State) (id code : Nat) : State :=
  match SMap.find? s.fst.txs id with
  | none => s
  | some t =>
    let s1 := s.countTx t.coord code
    let s2 := if code == eTimeout then s1.setF F.bpmEvent_txTimeoutSeen 0 1 else s1
    let again := t.cls == 0 && (code == eConflict || code == eConflictDebug) && decide (t.attempts < 2)
    if again then s2.setTx id { t with locks := [], phase := .opened, attempts := t.attempts + 1 }
    else
      let s3 := (((s2.delTx id).returnHandles t.writes).answerTx t code).tellAbort id code t
      let s4 := if t.removal.isSome && code == eState then s3.count (C.fstAgeKept t.coord)
        else if t.cls == 5 && code == eState then s3.count C.expClearRetry else s3
      match t.cls, t.setup with
      | 0, some (shard, pkt) => s4.failSetup shard pkt (s4.setupKey shard pkt) t.answered
      | _, _ => s4

/-! ## Prepare (R259, R262) -/

/-- A Criod thread's transaction carries a fenced generation (R264). -/
def State.fenced (s : State) (t : Tx) : Bool :=
  t.cls == 6 && decide (t.gen < s.fenceOf (t.source % 4096 / 16))

/-- A fenced transaction is turned away (R264). -/
def State.rejectFenced (s : State) (id : Nat) : State :=
  (((s.setF F.bpmEvent_fenceRejectSeen 0 1).setF F.crdEvent_fenceRejectSeen 0 1).count C.crdFenceRejects).txAbort id eState

/-- One transaction is older than another (R259). -/
def Tx.older (a b : Tx) : Bool := decide (a.start < b.start) || (a.start == b.start && decide (a.source < b.source))

/-- What meeting locks of others leads to. -/
inductive Meet where
  | free
  | fails (code : Nat)
  | waits
  | wounds (ids : List Nat)
  deriving DecidableEq, Repr

/-- The holders of locks other than a transaction itself. -/
def State.holders (s : State) (id : Nat) (ls : List TxLock) : List (Nat × Tx) :=
  s.fst.txs.filter fun e => e.1 != id && e.2.locks.any fun l => ls.contains l

/-- A transaction meets locks (R259, R263): a holder under debug hold wins, an older one wins, one that is committing is
waited for, a younger one is wounded. -/
def State.meet (s : State) (id : Nat) (t : Tx) (ls : List TxLock) : Meet :=
  match s.holders id ls with
  | [] => .free
  | hs =>
    if hs.any (·.2.held) then .fails eConflictDebug
    else if hs.any fun h => h.2.older t then .fails eConflict
    else if hs.any fun h => h.2.phase == .committing then .waits
    else .wounds (hs.map Prod.fst)

/-- The result of a rule or masked-search write's checks (R142, R143, R163, R181). -/
def State.checkWrite (s : State) : TxWrite → Nat
  | .ruleDel table epoch key => (s.emFind table key epoch).elim eNoent fun e => if s.oldOnly e.2.ep0 e.2.ep1 then eEpoch else 0
  | .rulePut e => if s.oldOnly e.ep0 e.ep1 then eEpoch else if s.emDup e.table e.key e.ep0 e.ep1 none then eExist
    else if ((emCuckoo s.cls.ruleSeed).place s.cls.em e).isNone then eNospace else 0
  | .ruleMod epoch e => (s.emFind e.table e.key epoch).elim eNoent fun o => if s.oldOnly o.2.ep0 o.2.ep1 then eEpoch else 0
  | .mskPut b i _ => if s.mskFrozen b i then eEpoch else 0
  | .mskDel b i => if !(s.mskAt (s.mskIndex b i)).valid then eNoent else if s.mskFrozen b i then eEpoch else 0
  | _ => 0

/-- The first failure among a transaction's shardless writes, each checked after those before it. -/
def State.checkWrites (s : State) (ws : List TxWrite) : List TxWrite → Nat
  | [] => 0
  | w :: rest =>
    if w.shard.isSome then State.checkWrites s ws rest
    else
      let c := s.checkWrite w
      if c != 0 then c else State.checkWrites (s.applyWrite ws w) ws rest

/-- Stash places of a shard that prepared transactions may need. -/
def State.stashClaims (s : State) (id shard : Nat) : Nat :=
  (s.fst.txs.filter fun e => e.1 != id && (e.2.phase == .prepared || e.2.phase == .waiting)).foldl (fun a e =>
    a + (e.2.writes.filter fun w => match w with
      | .slotPut k _ => k == shard
      | _ => false).length) 0

/-- A prepare would overflow a shard's commit buffer of 512 units, the writes of prepared transactions counted (R260). -/
def State.commitFull (s : State) (id : Nat) (ws : List TxWrite) : Bool :=
  (writeShards ws).any fun k =>
    let claims := (s.fst.txs.filter fun e => e.1 != id && e.2.phase == .prepared).map fun e => unitsAt e.2.writes k
    decide (SMap.getD s.fst.commitBuf k 0 + claims.sum + unitsAt ws k > 512)

/-- What placing a transaction's slots came to. -/
inductive Places where
  | ok (locks : List TxLock)
  | err (code : Nat)
  | blocked (ls : List TxLock) (path : Bool)
  deriving DecidableEq, Repr

/-- Places for the slots a transaction inserts (R198, R212): the key must be free in both roles. -/
def State.placeSlots (s : State) (id : Nat) (ws : List TxWrite) : List TxWrite → List TxLock → State × Places
  | [], ls => (s, .ok ls)
  | .slotPut k e :: rest, ls =>
    let key := s.keyOfSlot ws e
    let g := s.insertGen k
    let bs := (s.route k key).flatMap fun (g, b1, b2, _) => [(g, b1), (g, b2)]
    let s := bs.foldl (fun t b => t.mendBucket k b) s
    if (s.findKey k key).isSome then (s, .err eExist)
    else
      let other := fun l => !(s.holders id [l]).isEmpty
      match s.makeRoom k g (signature (s.genSeed k g) key) other (s.stashClaims id k) with
      | (t, .full) => (t, .err eNospace)
      | (t, .locked bs p) => (t, .blocked bs p)
      | (t, .stash) => State.placeSlots t id ws rest ls
      | (t, .at_ p) => State.placeSlots t id ws rest (slotLock p :: ls)
  | _ :: rest, ls => State.placeSlots s id ws rest ls

/-- The poisoned buckets that a removal of slots reads are rewritten empty (R226). -/
def State.mendDeletes (s : State) (ws : List TxWrite) : State :=
  ws.foldl (fun t w => match w with
    | .slotDel k _ key => ((t.route k key).flatMap fun (g, b1, b2, _) => [(g, b1), (g, b2)]).foldl (fun u b => u.mendBucket k b) t
    | _ => t) s

/-- A transaction's prepare: all its locks, or an abort, or a wait (R259), also for room in a commit buffer (R260). Its age
is the cycle of its first prepare. A conflict
on a relocation chain is tried again three times (R212). -/
def State.prepareWith (s : State) (fuel id : Nat) : State :=
  match fuel, SMap.find? s.fst.txs id with
  | 0, _ => s
  | _, none => s
  | fuel + 1, some t0 =>
    let t := if t0.phase == .waiting then t0 else { t0 with start := s.cycle }
    let wait (u : State) (t : Tx) : State := u.setTx id { t with phase := .waiting }
    if t.phase != .opened && t.phase != .waiting then s
    else if s.fenced t then s.rejectFenced id
    else if t.phase == .waiting && !t.locks.isEmpty then
      if t.writes.any fun w => (s.readsOf t.writes w).any fun r => s.pcHolds (pcOfUnit r.1 r.2) then s
      else s.setTx id { t with phase := .prepared }
    else
      let s := (writeShards t.writes).foldl State.drainCommits (s.mendDeletes t.writes)
      let base := t.writes.flatMap s.locksOf
      if s.commitFull id t.writes then wait s t
      else
      match s.meet id t base with
      | .fails c => s.txAbort id c
      | .waits => wait s t
      | .wounds ids => State.prepareWith (ids.foldl (fun u i => u.txAbort i eConflict) (s.setTx id t)) fuel id
      | .free =>
        let c := s.checkWrites t.writes t.writes
        if c != 0 then s.txAbort id c
        else
          match s.placeSlots id t.writes t.writes [] with
          | (u, .err c) => u.txAbort id c
          | (u, .blocked ls path) =>
            match u.meet id t ls with
            | .fails c => if path && t.kicks < 3 then wait u { t with kicks := t.kicks + 1 } else u.txAbort id c
            | .wounds ids => State.prepareWith (ids.foldl (fun v i => v.txAbort i eConflict) (u.setTx id t)) fuel id
            | _ => wait u t
          | (u, .ok ls) =>
            let held := t.writes.any fun w => (u.readsOf t.writes w).any fun r => u.pcHolds (pcOfUnit r.1 r.2)
            u.setTx id { t with locks := (base ++ ls).eraseDups, phase := if held then .waiting else .prepared }

/-- A transaction's prepare. -/
def State.prepareTx (s : State) (id : Nat) : State := s.prepareWith 8 id

/-! ## Commit (R260, R261) -/

/-- The words under a condition hold the values it expects. -/
def State.condHolds (s : State) (c : Nat × List WordWrite) : Bool :=
  match s.recNow c.1 with
  | none => false
  | some r => c.2.all fun w => Nat.land (wordAt r.words w.word) w.mask == Nat.land w.value w.mask

/-- The removal condition of R222: nobody uses the line, and the record is as the pass saw it. -/
def State.removalHolds (s : State) (handle obs : Nat) (twoPass : Bool) : Bool :=
  let busy := (s.recLine 0 handle).elim false fun e => e.2.touched || decide (e.2.inflight > 0)
  !busy && (if twoPass then !bitOf (SMap.getD s.fst.ageBits handle 0) 1 else iLastSeen (s.imageNow handle) == obs)

/-- A transaction's conditions (R261). -/
def State.txHolds (s : State) (t : Tx) : Bool :=
  t.conds.all s.condHolds && (match t.removal with
    | some (h, prof, _, obs) => s.removalHolds h obs (pTwoPass (SMap.getD s.cls.flowProf prof []))
    | none => true)

/-- A delete waits until no answer for its record is outstanding (R227). -/
def State.deleteWaits (s : State) (t : Tx) : Bool :=
  t.removal.isNone && t.writes.any fun w => match w with
    | .recGone h _ => (s.recLine 0 h).elim false fun e => decide (e.2.inflight > 0)
    | _ => false

/-- first_seen in the container of R34. -/
def State.fullNow (s : State) : List Nat := fullTimeWords s.tm.sec s.tm.ns s.frac16

/-- A new record as it is committed: last_seen, first_seen and export_mark take the commit time (R202, R227, R235). -/
def State.stampNew (s : State) : TxWrite → TxWrite
  | .recPut h size words =>
    let im := setAt (toImage size words) 8 s.coarseNow
    let im1 := if size == 1 then setAt (setAt im 30 s.coarseNow) 29 s.coarseNow
      else if size == 2 then s.fullNow.zipIdx.foldl (fun l e => setAt l (48 + e.2) e.1) im else im
    .recPut h size (ofImage size im1)
  | w => w

/-- The commit point: conditions, own writes, COMMIT to every participant (R260, R264). -/
def State.commitPoint (s : State) (id : Nat) : State :=
  match SMap.find? s.fst.txs id with
  | none => s
  | some t =>
    if t.phase != .prepared || t.faulted then s
    else if s.fenced t then s.rejectFenced id
    else if !s.txHolds t then s.txAbort id eState
    else
      let ws := t.writes.map s.stampNew
      let others := (writeShards ws).filter (· != t.coord)
      let s1 := t.peers.foldl (fun u e => u.sendTo e.1 (.txCommit id)) s
      (s1.applyAll ws fun w => (w.shard.getD t.coord) == t.coord).setTx id
        { t with writes := ws, phase := .committing, toApply := others, toAck := others, peers := t.peers.map fun e => (e.1, 2) }

/-- A participant applies its writes (R260). -/
def State.applyAt (s : State) (id shard : Nat) : State :=
  match SMap.find? s.fst.txs id with
  | none => s
  | some t =>
    if t.phase != .committing || !t.toApply.contains shard then s
    else (s.applyAll t.writes fun w => w.shard == some shard).setTx id
      { t with toApply := t.toApply.filter (· != shard) }

/-! ## After a setup (R237, R239) -/

/-- A chained request of a hop, answered from the record's line where it still verifies (R16, R209): none where the record
must be
read first, false where the line can take no more answers (R206). -/
def State.serveHop (s : State) (shard : Nat) (e : MqEntry) (handle dir : Nat) : Option (State × Bool) :=
  match s.recLine 0 handle with
  | none => none
  | some (k, l) =>
    if !verifyRec l.size (s.imageNow handle) e.key dir then none
    else
      match s.answerLine k l e.pkt dir with
      | (_, false) => some (s, false)
      | (t, true) => some ((t.mqDrop shard [e.pkt]).count (C.fstHits shard), true)

/-- Chained requests of a key are answered in arrival order from the installed line; where there is none, the first of
them reads the index, or the record its hop names (R209, R239). -/
def State.serveChained (s : State) (shard : Nat) (key : List Nat) : State :=
  if (s.mqOf shard).any fun e => e.key == key && e.wait != .chained then s
  else go (s.mqChain shard key) s
where
  /-- One after another. -/
  go : List MqEntry → State → State
    | [], s => s
    | e :: rest, s =>
      let read := s.mqSet shard e.pkt fun x => { x with wait := .reads }
      match e.target with
      | some (h, d) =>
        match s.serveHop shard e h d with
        | none => read
        | some (t, more) => if more then go rest t else t
      | none =>
        match s.probe shard key with
        | none => read
        | some (k, l) =>
          if l.kind == 2 then
            go rest (((s.mqDrop shard [e.pkt]).count (C.fstHits shard)).sendHop shard e.pkt e.pipe key l.handle l.dir
              l.ownerSet)
          else
            match s.answerLine k l e.pkt 0 with
            | (_, false) => s
            | (t, true) => go rest ((t.mqDrop shard [e.pkt]).count (C.fstHits shard))

/-- A committed setup: the packet may leave, its entry goes, the record's line is installed and the chained requests are
answered (R237, R239). -/
def State.setupDone (s : State) (shard pkt handle : Nat) : State :=
  let key := s.setupKey shard pkt
  let s0 := s.mqDrop shard [pkt]
  let s1 := { s0 with fst := { s0.fst with acks := s0.fst.acks ++ [pkt] } }
  let s2 := if (s1.mqChain shard key).isEmpty then s1
    else if ownerOf handle == shard then (s1.installRec handle).getD s1
    else (s1.installLink shard handle 0 key).getD s1
  s2.serveChained shard key

/-- The record a transaction writes. -/
def newHandle (ws : List TxWrite) : Nat := (ws.findSome? fun w => match w with
  | .recPut h _ _ => some h
  | _ => none).getD 0

/-- The age-out notification of a removal (R222, R464). -/
def State.sendAgeOut (s : State) (shard handle : Nat) (r : FlowRec) (reason : Nat) : State :=
  let im := toImage r.size r.words
  let key := iKey im
  s.notify 3 2 shard false (bytesAt key 0 48 ++ bytesLE 4 handle ++ [kProfile key, reason, 0, 0] ++ bytesLE 6 (iBytes im)
    ++ [wordAt im 9 % 256 / 64 * 64, 0] ++ bytesLE 5 (iPackets im) ++ List.replicate 11 0)

/-- Every acknowledgement is in: the completion is posted and the locks go (R260, R265). -/
def State.ackAll (s : State) (id : Nat) : State :=
  match SMap.find? s.fst.txs id with
  | none => s
  | some t =>
    if t.phase != .committing || !t.toApply.isEmpty || !t.peers.isEmpty then s
    else
      let code := if t.faulted then eFault else 0
      let s0 := ((s.countTx t.coord code).delTx id).answerTx t code
      let s1 := match t.origin with
        | some (m, ref) => s0.sendTo m (.txDone ref code t.result)
        | none => s0
      match t.cls, t.setup with
      | 0, some (shard, pkt) => s1.setupDone shard pkt (newHandle t.writes)
      | 6, some (shard, pkt) => s1.mqSet shard pkt fun e => { e with wait := .reads }
      | _, _ => s1

/-! ## Events -/

/-- TX_COMMIT_POINT (R260, R261, R557): of a transaction that no packet's frame end decides; it waits for the votes of other
members, and a part of another's transaction for its COMMIT. -/
def execTxCommitPoint (tx : Nat) (s : State) : Host.Outcome State Fault Refusal :=
  .next (match SMap.find? s.fst.txs tx with
    | none => s
    | some t => if t.cls == 0 || t.cls == 1 || s.deleteWaits t || t.origin.isSome || t.peers.any (fun e => e.2 == 0) then s
      else s.commitPoint tx)

/-- TX_COMMIT_RECEIPT (R260). -/
def execTxCommitReceipt (tx shard : Nat) (s : State) : Host.Outcome State Fault Refusal := .next (s.applyAt tx shard)

/-- TX_ACK_ALL (R239, R247, R260). -/
def execTxAckAll (tx : Nat) (s : State) : Host.Outcome State Fault Refusal := .next (s.ackAll tx)

/-- TX_PREPARE_TIMEOUT (R262, R263, R265): 10 µs after prepare start; a transaction under debug hold does not time
out, and one whose coordinator restarted ends with E_FAULT. -/
def execTxPrepareTimeout (tx : Nat) (s : State) : Host.Outcome State Fault Refusal :=
  .next (match SMap.find? s.fst.txs tx with
    | none => s
    | some t =>
      if (t.phase != .waiting && t.phase != .prepared) || t.locks.isEmpty || t.held || s.cycle < t.start + 15000 then s
      else s.txAbort tx (if t.faulted then eFault else eTimeout))

/-- GENERATION_FENCE (R264, R430): commits of a core that has failed are turned away from now on. -/
def execGenerationFence (core : Nat) (s : State) : Host.Outcome State Fault Refusal :=
  .next (if core ≥ 4 then s else s.setFence core (s.getF F.crdCoreStatus_ctrlGen core + 1))

end Sys2Proof.Machine
end

