-- ==== Sys2Proof/Machine/Setup.lean ====
section
/-! DEFINITION. Flow setup: fast templates, firmware setups, the records they build (R230 to R248), and the transaction of
flow.insert. -/

namespace Sys2Proof.Machine

/-! ## Records built (R232, R235, R248) -/

/-- The record size of a new flow (R232). -/
def setupSize (prof tmpl key : List Nat) : Nat :=
  let mode := tNatMode tmpl
  let a := if !bothMapped key || mode == 1 || mode == 2 then 1 else 0
  let icmp := kProto key == 1 || kProto key == 58
  let b := if mode == 3 || (icmp && (mode == 1 || mode == 3)) then 2 else 0
  Nat.max (pRecSize prof) (Nat.max a b)

/-- The second key of a flow whose translated address and port stand (R248). -/
def State.natSecond (s : State) (tmpl key : List Nat) (addr port : Nat) : List Nat :=
  let mode := tNatMode tmpl
  let prof := tRevProfile tmpl
  let vrf := tRevVrf tmpl
  let icmp := kProto key == 1 || kProto key == 58
  let dst := mapped4 addr
  let src := if mode == 3 then
      mapped4 ((SMap.find? s.fst.natPools (tNatPool tmpl)).elim 0 fun p => p.embedded (kDst key))
    else kDst key
  if mode == 2 then mkKey prof vrf dst (kSrc key) port (kSport key) (kProto key)
  else if icmp then mkKey prof vrf src dst port 0 1
  else mkKey prof vrf src dst (kDport key) port (kProto key)

/-- The last words of an image: auxiliary words of a standard record, extension of a full one (R202). -/
def extWords (size revMode revProfile revVrf coarse : Nat) (full second : List Nat) : List Nat :=
  if size == 2 then
    List.replicate 17 0 ++ [1 <<< 15, 0, 0] ++ full
      ++ (if second.isEmpty then List.replicate 12 0 else keyWords second)
  else [trunc 2 revMode <<< 30, coarse, coarse, trunc 8 revProfile <<< 24 + trunc 24 revVrf]

/-- The record image of a setup (R235). -/
def State.setupImage (s : State) (shard size : Nat) (key prof tmpl : List Nat) (epoch : Nat) (picked : Bool)
    (nat : Option (Nat × Nat)) (second : List Nat) : List Nat :=
  let pol := SMap.find? s.rig.policers (tPolIndex tmpl)
  let polOn := tPolEn tmpl
  let two := b2n !second.isEmpty
  let rev := if tNatMode tmpl == 1 then 1 else if tNatMode tmpl == 2 then 2 else 0
  let w15 := tInitTclass tmpl <<< 30 + tInitState tmpl <<< 24 + 1 <<< 23 + two <<< 22 + b2n picked <<< 21
    + b2n (s.fst.lostKeys.contains key) <<< 19 + pEntry prof <<< 8 + trunc 1 epoch <<< 7
  let w14 := (1 + two) <<< 24 + (s.passOf shard (kProfile key) % 256) <<< 16
  let (addr, port) := nat.getD (0, 0)
  let aux := if tNatMode tmpl == 1 || tNatMode tmpl == 3 then tNatPool tmpl else 0
  let bucket := fun (f : PolProfile → Nat) => if polOn then pol.elim 0 f else 0
  [wordAt tmpl 1, wordAt tmpl 2, wordAt tmpl 3, wordAt tmpl 4, if polOn then shortTime s.now else 0,
   bucket (·.pbs), bucket (·.cbs), if polOn then tPolIndex tmpl <<< 16 else 0, s.coarseNow, 0, 0, 0,
   port <<< 16 + aux, addr, w14, w15] ++ keyWords key
    ++ extWords size rev (tRevProfile tmpl) (tRevVrf tmpl) s.coarseNow
      s.fullNow second

/-- An index slot for a record. -/
def mkSlot (size dir profile handle : Nat) : Slot := ⟨size, dir, profile, handle, 0⟩

/-- The writes that create a flow (R237): record, ageing bits, slots. -/
def State.createWrites (s : State) (handle size : Nat) (im key second : List Nat) : List TxWrite :=
  let home := homeShard s.fst.shardSeed key
  let a : List TxWrite := [.slotPut home (mkSlot size 0 (kProfile key) handle)]
  let b : List TxWrite := if second.isEmpty then [] else
    [.slotPut (homeShard s.fst.shardSeed second) (mkSlot size 1 (kProfile second) handle)]
  a ++ [.recPut handle size (ofImage size im), .bits handle (if iTclass im == 2 then 7 else 3) 0] ++ b

/-! ## Fast setup (R234 to R238, R242 to R246) -/

/-- The SYN and ACK flags of a packet's TCP header for its key: the inner header where the key came from it. -/
def State.synOnly (s : State) (pkt : Nat) : Bool :=
  if isProxy pkt then (SMap.find? s.stk.owned pkt).any (·.2.syn)
  else
  match SMap.find? s.pk.pkts pkt with
  | none => false
  | some p =>
    let inner := useInner p.par (bitsOf (wordAt (s.keyProfileOf p).2 0) 31 30)
    match p.par.roleLayer 3 inner with
    | none => false
    | some l =>
      let f := (s.parseInput p).window.getD (l.start + 13) 0
      bitOf f 1 && !bitOf f 4

/-- The packet's message is an ICMP or ICMPv6 echo (R244). -/
def State.isEcho (s : State) (pkt : Nat) : Bool :=
  if isProxy pkt then (SMap.find? s.stk.owned pkt).any (·.2.echo)
  else
  match SMap.find? s.pk.pkts pkt with
  | none => false
  | some p => !p.par.fragment && p.par.layers.any fun l =>
    let t := (s.parseInput p).window.getD l.start 0
    (l.ltype == 0x09 && (t == 8 || t == 0)) || (l.ltype == 0x0A && (t == 128 || t == 129))

/-- The outcome of the port choice: subscriber's bitmap key, bit, address and port; or a failure, true where ports are
exhausted, with the subscriber. -/
inductive NatChoice where
  | none_
  | port (key bit addr port : Nat)
  | fails (exhausted : Bool) (sub : Nat)
  deriving DecidableEq, Repr

/-- The translated port of a setup (R242 to R246, R248); in a pooled stack one whose second key this member owns
(R558). -/
def State.choose (s : State) (pkt : Nat) (tmpl key : List Nat) : NatChoice :=
  let mode := tNatMode tmpl
  if mode != 1 && mode != 3 then .none_
  else
    match SMap.find? s.fst.natPools (tNatPool tmpl), natProto (kProto key) with
    | some p, some pr =>
      if pr == 2 && !s.isEcho pkt then .fails false 0
      else if mode == 3 && !p.inPrefix (numBE (kDst key)) then .fails false 0
      else
        match p.subscriber (numBE (kSrc key)) with
        | none => .fails false 0
        | some sub =>
          let k := natKey (tNatPool tmpl) sub pr
          let here (b : Nat) : Bool := let (a, q) := p.outside sub b; (s.remoteOwner (s.natSecond tmpl key a q)).isNone
          match s.choosePort p k (kSport key) here with
          | none => .fails true sub
          | some bit => let (a, b) := p.outside sub bit; .port k bit a b
    | _, _ => .fails false 0

/-- A failed port choice is counted, and exhaustion reported at most once per second per pool (R246). -/
def State.natFailed (s : State) (shard pool : Nat) (exhausted : Bool) (sub : Nat) : State :=
  let s1 := s.count (C.fstSetupNatFail shard)
  let due := (SMap.find? s1.fst.natFaultAt pool).elim true fun t => decide (s1.now ≥ t + 1000000000)
  if exhausted && due then
    { s1 with fst := { s1.fst with natFaultAt := SMap.set s1.fst.natFaultAt pool s1.now } }.raise 0x8006 shard pool sub
  else s1

/-- A prepared setup sends its provisional answer, once (R237). -/
def State.provisional (s : State) (id : Nat) : State :=
  match SMap.find? s.fst.txs id with
  | none => s
  | some t =>
    match t.setup with
    | none => s
    | some (_, pkt) =>
      if t.cls != 0 || t.phase != .prepared || t.answered then s
      else
        let h := newHandle t.writes
        let (size, words) := (recInWrites t.writes h).getD (0, [])
        let im := toImage size words
        (s.setTx id { t with answered := true }).sendAnswer pkt (some ⟨h, size, 0, im, true, iEntry im⟩)

/-- The transaction of a setup under the port choice of its prepare: its writes, or the failed choice (R237, R245). -/
def State.setupWrites (s : State) (shard pkt handle size epoch : Nat) (key : List Nat) : Except (Bool × Nat) (List TxWrite) :=
  let prof := s.profOf key
  let tmpl := s.templateOf key
  let gated := tTcpGate tmpl && kProto key == 6 && !s.synOnly pkt
  match s.choose pkt tmpl key with
  | .fails ex sub => .error (ex, sub)
  | .none_ => .ok (s.createWrites handle size (s.setupImage shard size key prof tmpl epoch gated none []) key [])
  | .port k b a q =>
    let second := s.natSecond tmpl key a q
    .ok (s.createWrites handle size (s.setupImage shard size key prof tmpl epoch gated (some (a, q)) second) key second
      ++ [.natBit k b true])

/-- A setup's next prepare chooses its port again; one that has sent its provisional answer keeps its port, and meets a conflict
where the port's bit is set by now (R245, R259; log entry 264). -/
def State.rechoose (s : State) (id : Nat) (t : Tx) : State :=
  match t.cls, t.setup with
  | 0, some (shard, pkt) =>
    let key := s.setupKey shard pkt
    let h := newHandle t.writes
    let size := ((recInWrites t.writes h).map Prod.fst).getD 0
    if t.phase == .prepared || !t.locks.isEmpty then s
    else if t.answered then
      let taken := t.writes.any fun w => match w with
        | .natBit k b true => s.natBit k b
        | _ => false
      if taken then s.txAbort id eConflict else s
    else
      match s.setupWrites shard pkt h size ((SMap.find? s.pk.pkts pkt).elim 0 (·.epoch)) key with
      | .ok ws => s.setTx id { t with writes := ws }
      | .error (ex, sub) =>
        (((s.delTx id).returnHandles t.writes).natFailed shard (tNatPool (s.templateOf key)) ex sub).failSetup shard pkt key false
  | _, _ => s

/-- A fast setup starts: handle, image, port, transaction, provisional answer (R237). -/
def State.fastSetup (s : State) (shard : Nat) (e : MqEntry) (p : Pkt) : State :=
  let key := e.key
  let prof := s.profOf key
  let tmpl := s.templateOf key
  let s0 := (s.count (C.fstSetupFast shard)).mqSet shard e.pkt fun x => { x with wait := .setup }
  if !tValid tmpl then s0.failSetup shard e.pkt key false
  else if tTcpGate tmpl && kProto key == 6 && !s0.synOnly e.pkt && pStrict prof then
    let ids := e.pkt :: (s0.mqChain shard key).map (·.pkt)
    ids.foldl (fun t id => t.dropPkt id) ((s0.mqDrop shard ids).count (C.fstSetupPickupDrop shard) ids.length)
  else
    match s0.takeHandle shard shard (setupSize prof tmpl key) with
    | (s1, none) => (s1.noHeap shard).failSetup shard e.pkt key false
    | (s1, some (h, size)) =>
      match s1.setupWrites shard e.pkt h size p.epoch key with
      | .error (ex, sub) => ((s1.freeHandle h).natFailed shard (tNatPool tmpl) ex sub).failSetup shard e.pkt key false
      | .ok ws =>
        let (s2, id) := s1.openTx { Tx.new shard shard ws with setup := some (shard, e.pkt) }
        let s3 := s2.mqSet shard e.pkt fun x => { x with tx := some id }
        (s3.prepareTx id).provisional id

/-! ## Firmware setup (R240) -/

/-- The frame data of a packet with its length. -/
def Pkt.first128 (p : Pkt) : List Nat := bytesAt p.data 0 128

/-- A shard asks firmware for a verdict: the new-flow notification (R240, R464). -/
def State.askFirmware (s : State) (shard pkt : Nat) (p : Pkt) : State :=
  let key := s.setupKey shard pkt
  let pay := bytesAt key 0 48 ++ [p.inPort, p.epoch % 2] ++ bytesLE 2 p.data.length ++ [0, 0, 0, 0] ++ p.first128
    ++ List.replicate 24 0
  (s.mqSet shard pkt fun e => { e with wait := .verdict, asked := s.tm.ticks }).notify 2 1 shard false pay

/-- An entry ends because its trigger's frame ended bad: the first request chained behind it looks the key up again and
triggers its own setup (R238). -/
def State.badTrigger (s : State) (shard pkt : Nat) (key : List Nat) : State :=
  ((s.mqDrop shard [pkt]).count (C.fstSetupBadEnd shard)).serveChained shard key

/-- A fast setup whose trigger's frame ended bad: aborted, its handle returned (R233, R238). -/
def State.badSetup (s : State) (shard pkt : Nat) (key : List Nat) : State :=
  match SMap.first? s.fst.txs fun _ t => t.cls == 0 && t.setup == some (shard, pkt) with
  | none => s
  | some (id, t) => (((s.countTx t.coord eState).delTx id).returnHandles t.writes).badTrigger shard pkt key

/-- The owner of a parked request's flow, which the frame's end decides there, learns that the frame has ended (R238, R240,
R557). -/
def State.tellFrameEnd (s : State) (pkt : Nat) (p : Pkt) : State :=
  match s.remoteOwner p.key with
  | some m =>
    if pSetupMode (s.profOf p.key) == 1 || pSetupMode (s.profOf p.key) == 2 then
      s.sendTo m (.frameEnd (pkt % 2 ^ 32) p.bad p.data.length p.first128)
    else s
  | none => s

/-- The end of a frame reaches the entry that waits for it, here or on another member: firmware is asked (R240), a failed setup
takes its end, and a setup whose answer its trigger has not taken ends with a bad frame (R238). -/
def State.setupFrameEnd (s : State) (pkt : Nat) (p : Pkt) : State :=
  match s.fst.mq.findSome? fun q => (q.2.find? fun x => x.pkt == pkt && x.wait != .chained).map fun x => (q.1, x) with
  | none => s
  | some (shard, e) =>
    match e.wait with
    | .parked => s.tellFrameEnd pkt p
    | .fwEnd => if p.bad then s.badTrigger shard pkt e.key else s.askFirmware shard pkt p
    | .setup => if p.bad && p.ans.isNone then s.badSetup shard pkt e.key else s
    | .failed answered =>
      if answered && p.ans.isSome then s
      else if p.bad then s.badTrigger shard pkt e.key else s.endFailed shard pkt e.key answered
    | _ => s

/-! ## Full misses (R210, R230) -/

/-- A full miss is set up as its profile says (R230); one whose entry point is not a member of the packet's epoch goes on
without flow state (R288). -/
def State.fullMiss (s : State) (shard : Nat) (e : MqEntry) : State :=
  let s0 := s.count (C.fstFullMisses shard)
  match SMap.find? s0.pk.pkts e.pkt with
  | none => (s0.mqDrop shard [e.pkt]).serveChained shard e.key
  | some p =>
    if ((s0.mqOf shard).filter MqEntry.inSetup).length ≥ s0.getF F.fstCtrl_setupCap shard then
      ((s0.count (C.fstSetupCapOverflow shard)).setF F.fstEvent_mqOverflowSeen shard 1).overflowAll shard e.pkt e.key
    else
      let ep := (SMap.getD s0.rig.entries (pEntry (s0.profOf e.key)) (0, 0)).2
      let member := bitOf ep 31 && bitOf ep (if p.epoch % 2 == 1 then 30 else 29)
      if (pSetupMode (s0.profOf e.key) == 1 || pSetupMode (s0.profOf e.key) == 2) && !member then
        ((if p.pipe < 32 then (s0.mqDrop shard [e.pkt]).count (C.rigEpNotMember p.pipe) else s0.mqDrop shard
          [e.pkt]).sendAnswer e.pkt none).serveChained shard e.key
      else
      match pSetupMode (s0.profOf e.key) with
      | 1 => s0.fastSetup shard e p
      | 2 =>
        let s1 := (s0.count (C.fstSetupFw shard)).mqSet shard e.pkt fun x => { x with wait := .fwEnd }
        if p.arriving then s1 else s1.setupFrameEnd e.pkt p
      | _ => (s0.count (C.fstSetupNone shard)).overflowAll shard e.pkt e.key

/-! ## Merge and commit (R233, R237, R238) -/

/-- The changes of an update applied to a record image (R282). -/
def imUpdate (im : List Nat) (u : Update) : List Nat :=
  let a := u.writes.foldl imWrite im
  let b := imCounts a u.addBytes u.addPackets
  match u.lastSeen with
  | some v => setAt b 8 v
  | none => b

/-- A setup's record with the program's changes merged in; under nat_mode 2 its second key and slot (R235, R248). -/
def State.mergeSetup (s : State) (t : Tx) (u : Update) : List TxWrite :=
  let h := newHandle t.writes
  match recInWrites t.writes h with
  | none => t.writes
  | some (size, words) =>
    let im0 := toImage size words
    let key := iKey im0
    let tmpl := s.templateOf key
    let im1 := imUpdate im0 u
    let im2 := if tPolEn tmpl then setAt im1 4 (shortTime s.now) else im1
    let dst := tNatMode tmpl == 2 && size != 0
    let second := if dst then s.natSecond tmpl key (iXlateAddr im2) (iXlatePort im2) else []
    let im3 := if dst then
        let a := imPut (imPut im2 15 22 22 1) 14 31 24 2
        if size == 2 then a.take 52 ++ keyWords second else a
      else im2
    let ws := t.writes.map fun w => match w with
      | .recPut h' z _ => TxWrite.recPut h' z (ofImage size im3)
      | .bits h' _ off => TxWrite.bits h' (if iTclass im3 == 2 then 7 else 3) off
      | x => x
    if dst then ws ++ [.slotPut (homeShard s.fst.shardSeed second) (mkSlot size 1 (kProfile second) h)] else ws

/-- A key whose flow a restart lost is no longer to be marked relearned (R31). -/
def State.takeLost (s : State) (key : List Nat) : State :=
  if s.fst.lostKeys.contains key then
    { s with fst := { s.fst with lostKeys := s.fst.lostKeys.filter (· != key) } } else s

/-- A prepared setup that holds its trigger's changes merges them and commits (R233, R237, R261); a conflict on the way
keeps them
for the next try (R238). -/
def State.commitSetup (s : State) (id : Nat) : State :=
  match SMap.find? s.fst.txs id with
  | none => s
  | some t =>
    match t.merge, t.setup with
    | some u, some (shard, pkt) =>
      if t.phase != .prepared then s
      else
        let key := s.setupKey shard pkt
        let ws := s.mergeSetup t u
        let s1 := s.takeLost key
        let added := ws.drop t.writes.length
        let away := added.any fun w => match w with
          | .slotPut _ e => (s1.remoteOwner (s1.keyOfSlot ws e)).isSome
          | _ => false
        if away then ((s1.count C.stkSplitFail).setF F.stkEvent_splitSeen 0 1).txAbort id eState
        else
        match s1.placeSlots id ws added t.locks with
        | (s2, .ok ls) => (s2.setTx id { t with writes := ws, locks := ls }).commitPoint id
        | (s2, .err c) => s2.txAbort id c
        | (s2, .blocked _ _) => s2.txAbort id eConflict
    | _, _ => s

/-- A setup's update flit arrives: its changes are held for the commit on a good frame end; a bad one, or a packet that its
program
dropped, aborts the setup (R233, R237, R238, R261, R295). One that failed before ends now. -/
def State.setupUpdate (s : State) (pkt : Nat) (u : Update) : State :=
  match SMap.first? s.fst.txs fun _ t => t.cls == 0 && t.setup.elim false fun x => x.2 == pkt with
  | none =>
    match s.fst.mq.findSome? fun q => (q.2.find? fun x => x.pkt == pkt && x.wait == .failed true).map fun x => (q.1, x.key) with
    | none => s
    | some (shard, key) => if u.badEnd then s.badTrigger shard pkt key else s.endFailed shard pkt key true
  | some (id, t) =>
    if u.badEnd then s.badSetup t.coord pkt (s.setupKey t.coord pkt)
    else if !SMap.has s.pk.pkts pkt then s.txAbort id eState
    else (s.setTx id { t with merge := some u }).commitSetup id

/-- TX_PREPARE (R237, R238, R259): a transaction's prepare, or another try of it; a setup whose changes have come commits
once it is
prepared. -/
def execTxPrepare (tx : Nat) (s : State) : Host.Outcome State Fault Refusal :=
  .next (match SMap.find? s.fst.txs tx with
    | none => s
    | some t =>
      if t.phase == .opened && s.deleteWaits t then s
      else (((s.rechoose tx t).prepareTx tx).provisional tx).commitSetup tx)

/-! ## Firmware's transactions (R240, R227) -/

/-- The control generation of a source's core (R264). -/
def State.genOf (s : State) (source : Nat) : Nat := s.getF F.crdCoreStatus_ctrlGen (source % 4096 / 16)

/-- The Criod thread that carries out a command's transaction, which the spec leaves open, as a source number (R257): a
thread of a
core that is not fenced (R264). -/
def State.threadSource (s : State) : Nat :=
  let cores := [0, 1, 2, 3].filter fun c => decide (s.fenceOf c ≤ s.genOf (16 * c))
  6 * 4096 + 16 * cores.getD (s.freeVal / 16 % 4 % Nat.max cores.length 1) 0 + s.freeVal % 16

/-- Whether the parameters of a new flow are well formed, in their order (R227). -/
def State.flowNewOk (s : State) (n : FlowNew) : List Bool :=
  [decide (n.profile < 64) && pValid (SMap.getD s.cls.flowProf n.profile []), keyBytesOk n.key 48,
   decide (n.revMode ≤ 3), decide (n.revProfile < 64), decide (n.revVrf < 2 ^ 24),
   if n.revMode == 3 then keyBytesOk n.second 48 else n.second.isEmpty,
   n.hot.length == 16 && n.hot.all fun w => decide (w < 2 ^ 32)]

/-- The image of a new flow: the hot slice given, with live, second, refcount, tpass and last_seen as setup sets them
(R227, R235; log entry 45). -/
def State.newImage (s : State) (n : FlowNew) (key : List Nat) (size owner : Nat) : List Nat :=
  let body := (n.hot ++ keyWords key)
    ++ extWords size (if n.revMode == 3 then 0 else n.revMode) n.revProfile n.revVrf s.coarseNow s.fullNow n.second
  let two := (secondKey size (imPut body 15 22 22 (b2n (size == 2 && n.revMode == 3)))).isSome
  imPut (imPut (imPut (setAt body 8 s.coarseNow) 15 23 22 (2 + b2n two)) 14 31 24 (1 + b2n two)) 14 23 16
    (s.passOf owner n.profile % 256)

/-- The writes that a flow.insert makes, its handle taken (R227, R250); none where no pool has one. -/
def State.insertWrites (s : State) (n : FlowNew) : State × Option (Nat × List TxWrite) :=
  let key := n.profile :: n.key.drop 1
  let prof := SMap.getD s.cls.flowProf n.profile []
  let want := if n.revMode == 3 then 2 else if n.revMode != 0 || !bothMapped key then 1 else 0
  match s.takeHandle 32 (homeShard s.fst.shardSeed key) (Nat.max (pRecSize prof) want) with
  | (s1, none) => (s1, none)
  | (s1, some (h, size)) =>
    let im := s1.newImage n key size (ownerOf h)
    let second := (secondKey size im).getD []
    (s1, some (h, s1.createWrites h size im key second))

/-- A firmware transaction opened: its source, its coordinator the first shard it names, else one that is left open
(R257, R258). -/
def State.openFirmware (s : State) (source : Nat) (ws : List TxWrite) (f : Tx → Tx) : State × Nat :=
  let (s1, coord) := match writeShards ws with
    | k :: _ => (s, k)
    | [] => (s.draw, s.freeVal % 32)
  s1.openTx (f { Tx.new source coord ws with gen := s.genOf source })

/-- The entry of a shard's queue that is the `place`-th of those in a state. -/
def State.mqNth (s : State) (shard place : Nat) (w : MqWait) : Option MqEntry :=
  ((s.mqOf shard).filter fun e => e.wait == w)[place]?

/-- FW_SETUP_VERDICT (R240): set up with a transaction of a thread, drop, or stateless. A verdict whose entry is gone is
discarded, and its transaction still commits. -/
def execFwSetupVerdict (shard place verdict thread : Nat) (flow : Option FlowNew) (s : State) :
    Host.Outcome State Fault Refusal :=
  let e := s.mqNth shard place .verdict
  let all (x : MqEntry) : List Nat := x.pkt :: (s.mqChain shard x.key).map (·.pkt)
  .next (match verdict, flow with
    | 0, some n =>
      if !(s.flowNewOk n).all id then s
      else
        match s.insertWrites n with
        | (s1, none) => s1.noHeap shard
        | (s1, some (_, ws)) =>
          (s1.openFirmware (6 * 4096 + thread % 64) ws fun t => { t with setup := e.map fun x => (shard, x.pkt) }).1
    | 1, _ => e.elim s fun x => (all x).foldl (fun t id => t.dropPkt id) (s.mqDrop shard (all x))
    | 2, _ => e.elim s fun x => (all x).foldl (fun t id => t.forwardStateless id x.key) (s.mqDrop shard (all x))
    | _, _ => s)

/-- FW_SETUP_TIMEOUT (R240). -/
def execFwSetupTimeout (shard place : Nat) (s : State) : Host.Outcome State Fault Refusal :=
  .next (match s.mqNth shard place .verdict with
    | none => s
    | some e =>
      if s.tm.ticks < e.asked + 1000 * s.fst.fwTimeout then s
      else (s.count (C.fstSetupFwTimeout shard)).overflowAll shard e.pkt e.key)

end Sys2Proof.Machine
end

