-- ==== Sys2Proof/Machine/Lookup.lean ====
section
/-! DEFINITION. The lookup path: requests, record hops, link fills, miss reads, installs, answers (R14, R16, R207 to R211,
R226, R271), and the contained restart of a shard (R265, R496). -/

namespace Sys2Proof.Machine

/-! ## Contained restart of a shard (R207, R265, R496) -/

/-- Packets dropped by a restart, each counted. -/
def State.restartDrop (s : State) (shard : Nat) (pkts : List Nat) : State :=
  pkts.foldl (fun t id => if SMap.has t.pk.pkts id then (t.dropPkt id).count (C.fltShardRestartDrop shard) else t) s

/-- An open transaction meets the restart of a shard (R265). -/
def State.restartTx (s : State) (shard : Nat) (e : Nat × Tx) : State :=
  let t := e.2
  let mine := t.writes.filter fun w => w.shard == some shard
  if t.coord == shard && t.phase != .committing then s.setTx e.1 { t with faulted := true, setup := none }
  else if mine.isEmpty then s
  else if t.phase == .committing then
    if t.toApply.contains shard then
      (s.setTx e.1 { t with faulted := true, lost := t.lost + mine.length, toApply := t.toApply.filter (· != shard) }).declareLoss
        3 shard 0 mine.length e.1
    else s
  else s.txAbort e.1 eFault

/-- A shard restarts: it halts, drops what waits in it, ends its transactions, declares its dirty lines lost, with the
flows whose
state they held (R31), and hands its cached handles back (R496). A second trigger makes the restart fail. -/
def State.shardRestart (s : State) (shard : Nat) : State :=
  if s.fst.restarting.contains shard then
    let failed := s.fst.restartFailed.filter (· != shard) ++ [shard]
    (({ s with fst := { s.fst with restartFailed := failed } }).endCondition 0x8003 shard).raise 0x8007 shard
  else
    let waiting := (s.mqOf shard).map (·.pkt) ++ (s.fst.reqs.filter fun r => r.shard == shard).map (·.pkt)
      ++ (s.pk.pkts.filter fun e => e.2.awaiting && e.2.ans.elim false fun a => decide (a.handle < 2 ^ 29) && ownerOf a.handle == shard).map Prod.fst
    let s0 := { s with fst := { s.fst with
      restarting := s.fst.restarting ++ [shard]
      reqs := s.fst.reqs.filter fun r => r.shard != shard
      fills := s.fst.fills.filter fun f => f.1 != shard } }
    let s1 := ((s0.raise 0x8003 shard).setMq shard []).restartDrop shard waiting
    let s2 := s1.fst.txs.foldl (fun t e => t.restartTx shard e) s1
    let dirty := s2.fst.lines.filter fun e => lineShard e.1 == shard && e.2.dirty
    let s3 := ({ s2 with fst := { s2.fst with
      lines := s2.fst.lines.filter fun e => lineShard e.1 != shard
      plru := s2.fst.plru.filter fun e => e.1 / 1536 != shard } }.syncCache shard).declareLoss 3 shard 0 dirty.length 0
    let s4 := (dirty.map (·.2.handle)).eraseDups.foldl State.loseRec s3
    [0, 1, 2].foldl (fun t p =>
      let c := t.hCache shard p
      if c.isEmpty then t else (t.setCache shard p []).setList shard p (c.map (fun h => (h, 1)) ++ t.freeList shard p)) s4

/-! ## Errors of the cache, stash and miss queue (R207, R496) -/

/-- FST_ECC_CAPTURE takes an error while it is free. -/
def State.fstCapture (s : State) (shard : Nat) (e : EccErr) : State :=
  if s.getB F.fstEccCapture_valid shard then s
  else
    let cell := e.table < 2
    ((((s.setF F.fstEccCapture_valid shard 1).setB F.fstEccCapture_uncorrectable shard e.double).setF
      F.fstEccCapture_where shard e.table).setF F.fstEccCapture_set shard (if cell then e.index / 16 else e.index)).setF
      F.fstEccCapture_way shard (if cell then e.index % 16 else 0)

/-- A clean line with a double-bit error is invalidated, and the record is read again from HBM (R207): at once where answers are
outstanding or the other line of the record is dirty, so that updates still find the record in the cache; else when a lookup
misses, the record's other line gone with it. -/
def State.loseLine (s : State) (k : Nat) (l : Line) : State :=
  if l.kind == 2 then s.delLine k
  else
    let head := s.recLine 0 l.handle
    let other := s.recLine (1 - l.kind) l.handle
    let used := (head.elim false fun e => decide (e.2.inflight > 0)) || other.elim false fun e => e.2.dirty
    match used, SMap.find? s.fst.heap l.handle with
    | true, some r => s.setLine k { l with words := if l.kind == 0 then r.words.take 32 else r.words.drop 32 }
    | _, _ => other.elim (s.delLine k) fun e => (s.delLine k).delLine e.1

/-- An error in a shard's memories: table 0 cache tag, 1 cache data, with the index 16 × set + way; 2 stash, 3 miss
queue. A corrected one is reported; a double one in a clean line invalidates the line; any other starts a restart. -/
def State.fstEcc (s : State) (shard : Nat) (e : EccErr) : State :=
  let s1 := s.fstCapture shard e
  if !e.double then (s1.setF F.fstEvent_cacheCorrSeen shard 1).raise 0x8001 shard
  else
    let k := lineKey shard (e.index / 16) (e.index % 16)
    let s2 := s1.setF F.fstEvent_cacheUncorrSeen shard 1
    if e.table ≥ 2 then s2.shardRestart shard
    else
      match SMap.find? s2.fst.lines k with
      | some l => if l.dirty then s2.shardRestart shard else (s2.loseLine k l).raise 0x8002 shard
      | none => s2.raise 0x8002 shard

/-! ## Requests (R208 to R210) -/

/-- The first request that meets a test, taken out. -/
def takeReq (p : LookReq → Bool) : List LookReq → Option (LookReq × List LookReq)
  | [] => none
  | r :: rs => if p r then some (r, rs) else (takeReq p rs).map fun e => (e.1, r :: e.2)

/-- A request without a line gets a miss-queue entry, or the handling of R210. -/
def State.enqueue (s : State) (shard : Nat) (r : LookReq) (target : Option (Nat × Nat)) : State :=
  let q := s.mqOf shard
  let chain := q.any fun e => e.key == r.key
  let e : MqEntry := ⟨r.pkt, r.pipe, r.key, if chain then .chained else .reads, false, target, none, 0⟩
  if q.length < 4096 then (if chain then s else s.count (C.fstMisses shard)).mqAdd shard e
  else
    let s1 := s.setF F.fstEvent_mqOverflowSeen shard 1
    if chain then (s1.count (C.fstMqOverflowChained shard)).dropPkt r.pkt
    else ((s1.count (C.fstMisses shard)).count (C.fstMqOverflow shard)).overflow r.pkt r.key

/-- A hit that would raise inflight past its limit waits in the miss queue, or, where that is full, in the network (R206). -/
def State.waitHit (s : State) (shard : Nat) (r : LookReq) (target : Option (Nat × Nat)) (back : State) : State :=
  if (s.mqOf shard).length < 4096 then s.mqAdd shard ⟨r.pkt, r.pipe, r.key, .chained, false, target, none, 0⟩ else back

/-- A request at its home shard: hit, hop, chain or miss (R208). -/
def State.homeLookup (s : State) (shard : Nat) (r : LookReq) (back : State) : State :=
  let s1 := s.count (C.fstLookups shard)
  if (s1.mqOf shard).any fun e => e.key == r.key then s1.enqueue shard r none
  else
    match s1.probe shard r.key with
    | none => s1.enqueue shard r none
    | some (k, l) =>
      if l.kind == 2 then
        ((s1.touchWay k).count (C.fstHits shard)).sendHop shard r.pkt r.pipe r.key l.handle l.dir l.ownerSet
      else
        match s1.answerLine k l r.pkt 0 with
        | (t, true) => t.count (C.fstHits shard)
        | (_, false) => s1.waitHit shard r none back

/-- FLOW_LOOKUP_REQUEST (R208): the first request that waits for a shard. -/
def execFlowLookupRequest (shard : Nat) (err : Option EccErr) (s : State) : Host.Outcome State Fault Refusal :=
  let s0 := err.elim s fun e => s.fstEcc shard e
  .next (match takeReq (fun r => r.shard == shard && r.hop.isNone) s0.fst.reqs with
    | none => s0
    | some (r, rest) =>
      let s1 := { s0 with fst := { s0.fst with reqs := rest } }
      if !SMap.has s1.pk.pkts r.pkt then s1
      else if s1.fst.restarting.contains shard then s1.restartDrop shard [r.pkt]
      else s1.homeLookup shard r s0)

/-- RECORD_HOP (R16, R208): the first hop that waits for an owning shard; it counts as a lookup there. -/
def execRecordHop (shard : Nat) (s : State) : Host.Outcome State Fault Refusal :=
  .next (match takeReq (fun r => r.shard == shard && r.hop.isSome) s.fst.reqs with
    | none => s
    | some (r, rest) =>
      let s0 := { s with fst := { s.fst with reqs := rest } }
      if !SMap.has s0.pk.pkts r.pkt then s0
      else if s0.fst.restarting.contains shard then s0.restartDrop shard [r.pkt]
      else
        let s1 := s0.count (C.fstLookups shard)
        match r.hop with
        | none => s1
        | some (h, dir, set) =>
          match s1.badHeap h with
          | some c => (s1.rejectHandle h c 1 shard).overflow r.pkt r.key
          | none =>
          let busy := (s1.mqOf shard).any fun e => e.key == r.key
          match if busy || set.isNone then none else s1.recLine 0 h with
          | none => s1.enqueue shard r (some (h, dir))
          | some (k, l) =>
            if !verifyRec l.size (s1.imageNow h) r.key dir then s1.enqueue shard r (some (h, dir))
            else
              match s1.answerLine k l r.pkt dir with
              | (t, true) => t.count (C.fstHits shard)
              | (_, false) => s1.waitHit shard r (some (h, dir)) s)

/-- LINK_FILL (R208): the first link-fill flit of a home shard completes its LINK line. -/
def execLinkFill (shard : Nat) (s : State) : Host.Outcome State Fault Refusal :=
  .next (match s.fst.fills.find? fun f => f.1 == shard with
    | none => s
    | some (k, h, set) =>
      let s1 := { s with fst := { s.fst with fills := s.fst.fills.erase (k, h, set) } }
      match SMap.first? s1.fst.lines fun a l => lineShard a == shard && l.kind == 2 && l.handle == h with
      | some (a, l) => s1.setLine a { l with ownerSet := some set }
      | none => s1)

/-! ## Miss reads (R208, R216, R226) -/

/-- What a walk of the index found. -/
inductive Walk where
  | hit (handle dir : Nat)
  | hop (handle dir : Nat)
  | miss
  /-- A pseudo-channel holds a read. -/
  | held (g : Nat)
  deriving DecidableEq, Repr

/-- The candidates of a key verified in turn (R197, R208, R226). -/
def State.walkSlots (s : State) (shard : Nat) (key : List Nat) : List Found → State × Walk
  | [] => (s, .miss)
  | f :: rest =>
    let h := f.slot.handle
    if ownerOf h != shard then (s, .hop h f.slot.dir)
    else
      match s.badHeap h with
      | some c => State.walkSlots (s.rejectHandle h c 1 shard) shard key rest
      | none =>
      let us := recordUnits h f.slot.size
      match if (s.recLine 0 h).isSome then none else s.holder shard us with
      | some g => (s, .held g)
      | none =>
        if s.fst.retired.contains h || ((s.recLine 0 h).isNone && us.any fun u => s.poisoned shard u) then
          State.walkSlots (s.retireRec shard f key) shard key rest
        else
          match s.recNow h with
          | some r => if verifyRec r.size (toImage r.size r.words) key f.slot.dir then (s, .hit h f.slot.dir)
            else State.walkSlots s shard key rest
          | none => State.walkSlots s shard key rest

/-- The index walk of a key: damaged buckets are rewritten empty first (R226). -/
def State.walk (s : State) (shard : Nat) (key : List Nat) : State × Walk :=
  let buckets := (s.route shard key).flatMap fun (g, b1, b2, _) => [(g, b1), (g, b2)]
  if s.getF F.fstStatus_kCur shard == 0 && !s.rebuilding shard then (s, .miss)
  else
    match s.holder shard (buckets.map fun b => bucketUnit b.1 b.2) with
    | some g => (s, .held g)
    | none =>
      let s1 := buckets.foldl (fun t b => if t.poisoned shard (bucketUnit b.1 b.2) then t.emptyBucket shard b.1 b.2 else t) s
      s1.walkSlots shard key (s1.candidates shard key)

/-- A record found for an entry: installed and answered, or the install waits (R205, R208). In a home shard of another's
record, a LINK line and a hop. -/
def State.installAnswer (s : State) (shard : Nat) (e : MqEntry) (handle dir : Nat) : State :=
  let wait (t : State) : State := t.mqSet shard e.pkt fun x => { x with wait := .install, target := some (handle, dir) }
  if ownerOf handle != shard then
    match s.installLink shard handle dir e.key with
    | none => wait s
    | some t => (((t.mqDrop shard [e.pkt]).sendHop shard e.pkt e.pipe e.key handle dir none)).serveChained shard e.key
  else
    match s.installRec handle with
    | none => wait s
    | some t =>
      match t.recLine 0 handle with
      | none => wait s
      | some (k, l) =>
        match t.answerLine k l e.pkt dir with
        | (_, false) => wait t
        | (u, true) =>
          let home := homeShard u.fst.shardSeed e.key
          let unknown := (u.probe home e.key).elim false fun x => x.2.kind == 2 && x.2.ownerSet.isNone
          let u1 := if home != shard && unknown then
              { u with fst := { u.fst with fills := u.fst.fills ++ [(home, handle, k / 16 % 1536)] } } else u
          (u1.mqDrop shard [e.pkt]).serveChained shard e.key

/-- A hop whose record is gone: the home shard's LINK line goes and the requests look the key up again at home, in order. -/
def State.hopGone (s : State) (e : MqEntry) (handle : Nat) : State :=
  let s1 := match s.probe (homeShard s.fst.shardSeed e.key) e.key with
    | some (k, l) => if l.kind == 2 && l.handle == handle then s.delLine k else s
    | none => s
  s1.recall handle e.key

/-- A record read for a hop returns (R16, R208). -/
def State.hopReturn (s : State) (shard : Nat) (e : MqEntry) (handle dir : Nat) : State :=
  match s.recNow handle with
  | none => s.hopGone e handle
  | some r =>
    let us := recordUnits handle r.size
    let cached := (s.recLine 0 handle).isSome
    match if cached then none else s.holder shard us with
    | some g => s.holdRequest g e.pkt
    | none =>
      if !cached && us.any fun u => s.poisoned shard u then
        let home := homeShard s.fst.shardSeed e.key
        let t := match (s.candidates home e.key).find? fun f => f.slot.handle == handle with
          | some f => s.retireRec home f e.key
          | none => s
        t.hopGone e handle
      else if verifyRec r.size (toImage r.size r.words) e.key dir then s.installAnswer shard e handle dir
      else s.hopGone e handle

/-- Reads return for the `place`-th entry of a shard that waits for them (R208 to R211, R226, R230). -/
def State.missReads (s : State) (shard place : Nat) : State :=
  match s.mqNth shard place .reads with
    | none => s
    | some e =>
      if !SMap.has s.pk.pkts e.pkt then (s.mqDrop shard [e.pkt]).serveChained shard e.key
      else
        match e.target with
        | some (h, d) => s.hopReturn shard e h d
        | none =>
          match s.walk shard e.key with
          | (t, .held g) => t.holdRequest g e.pkt
          | (t, .hop h d) => t.installAnswer shard e h d
          | (t, .miss) => t.fullMiss shard e
          | (t, .hit h d) =>
            if e.restart then t.mqSet shard e.pkt fun x => { x with restart := false } else t.installAnswer shard e h d

/-- MISS_READ_RETURN (R208 to R211, R226, R230, R386): reads return, `corrected` naming the units (pseudo-channel, unit)
that came back corrected. -/
def execMissReadReturn (shard place : Nat) (corrected : List (Nat × Nat)) (s : State) :
    Host.Outcome State Fault Refusal :=
  .next ((corrected.foldl (fun t e => t.hbmCorrected e.1 e.2) s).missReads shard place)

/-- INSTALL_RETRY (R205): the `place`-th install that waits for a way tries again. -/
def execInstallRetry (shard place : Nat) (s : State) : Host.Outcome State Fault Refusal :=
  .next (match s.mqNth shard place .install with
    | none => s
    | some e =>
      match e.target with
      | some (h, d) => s.installAnswer shard e h d
      | none => s)

/-! ## Answers (R271) -/

/-- The first answer for a pipeline, or for a packet that is gone, taken out. -/
def State.takeAnswer (s : State) (pipe : Nat) : List (Nat × Option Answer) → Option ((Nat × Option Answer) × List (Nat × Option Answer))
  | [] => none
  | a :: rest =>
    if !isProxy a.1 && (SMap.find? s.pk.pkts a.1).elim true fun p => p.pipe == pipe then some (a, rest)
    else (s.takeAnswer pipe rest).map fun e => (e.1, a :: e.2)

/-- A record's answers outstanding in a pipeline: one more, the image kept where there is one (R272). -/
def State.chainAnswer (s : State) (pipe : Nat) (a : Answer) : State :=
  let k := 2 ^ 32 * pipe + a.handle
  let (n, im) := SMap.getD s.rig.chains k (0, a.image)
  { s with rig := { s.rig with chains := SMap.set s.rig.chains k (n + 1, im) } }

/-- LOOKUP_ANSWER (R271): an answer reaches its pipeline; the packet enters the dispatch window of 32 places, or goes on
without a program. -/
def execLookupAnswer (pipe : Nat) (s : State) : Host.Outcome State Fault Refusal :=
  .next (match s.takeAnswer pipe s.fst.answers with
    | none => s
    | some ((id, ans), rest) =>
      let s1 := { s with fst := { s.fst with answers := rest } }
      match SMap.find? s1.pk.pkts id, ans with
      | none, none => s1
      | none, some a => s1.pushUpdate (releaseOf a 32 id)
      | some _, none => if s1.rigFull pipe then s else s1.bypass id pipe
      | some _, some a =>
        if !s1.getB F.rigCtrl_restartActive pipe && (s1.windowFull pipe || s1.rigFull pipe) then s
        else ((s1.modPkt id fun q => { q with ans := some a, handle := some a.handle }).chainAnswer pipe a).enterWindow id
          pipe)

end Sys2Proof.Machine
end

