-- ==== Sys2Proof/Machine/Age.lean ====
section
/-! DEFINITION. Relocation clears, index rebuilds, ageing passes and removals (R213 to R226). -/

namespace Sys2Proof.Machine

/-- RELOCATION_CLEAR (R213): the oldest relocated original of a shard is cleared. -/
def execRelocationClear (shard : Nat) (s : State) : Host.Outcome State Fault Refusal :=
  .next (match s.fst.toClear.find? fun k => k / 2 ^ 26 == shard with
    | none => s
    | some k => { s with fst := { s.fst with index := SMap.del s.fst.index k, toClear := s.fst.toClear.filter (· != k) } })

/-! ## Rebuilds (R215 to R217) -/

/-- A slot as the generation that is built holds it (R215): under a new seed its signature is taken again from the record's key;
none where the record is gone. -/
def State.newSlot (s : State) (shard : Nat) (newSeed : Bool) (e : Slot) : Option Slot :=
  if !newSeed then some e
  else
    match s.keyOfSlot [] e with
    | [] => none
    | key => some { e with sig := signature (s.genSeed shard (!s.curGen shard)) key }

/-- Slots put into the generation that is built; none where one finds no place. -/
def State.rebuildSlots (s : State) (shard : Nat) (newSeed : Bool) : List Slot → Option State
  | [] => some s
  | e :: rest =>
    let g := !s.curGen shard
    match s.newSlot shard newSeed e with
    | none => State.rebuildSlots s shard newSeed rest
    | some e' =>
      match s.makeRoom shard g e'.sig (fun l => (s.lockHolder l).isSome) (s.stashClaims s.fst.nextTx shard) with
      | (_, .full) => none
      | (_, .locked _ _) => none
      | (t, .stash) => State.rebuildSlots (t.putSlot shard g e' true) shard newSeed rest
      | (t, .at_ p) =>
        let clear := t.fst.toClear.filter (· != p)
        State.rebuildSlots { t with fst := { t.fst with index := SMap.set t.fst.index p e', toClear := clear } } shard
          newSeed rest

/-- The line at the end: stash slots of the old generation go into the new one, or stay in the stash with the new gen
(R216). -/
def State.rebuildStash (s : State) (shard : Nat) (r : Rebuild) : State :=
  let old := s.curGen shard
  let olds := s.fst.stash.filter fun e => e.1 / 256 == shard && e.2.1 == old
  let one := fun (t : State) (e : Nat × (Bool × Slot)) =>
    let free := { t with fst := { t.fst with stash := SMap.del t.fst.stash e.1 } }.syncStash shard
    match free.rebuildSlots shard r.newSeed [e.2.2] with
    | some u => u
    | none =>
      let kept := (t.newSlot shard r.newSeed e.2.2).getD e.2.2
      { t with fst := { t.fst with stash := SMap.set t.fst.stash e.1 (!old, kept) } }
  let s1 := olds.foldl one s
  { s1 with fst := { s1.fst with rebuilds := SMap.set s1.fst.rebuilds shard { r with done := true } } }

/-- REBUILD_BUCKET (R215): the old bucket at a shard's sweep line moves, unless a lock holds it. -/
def execRebuildBucket (shard : Nat) (s : State) : Host.Outcome State Fault Refusal :=
  .next (match SMap.find? s.fst.rebuilds shard with
    | none => s
    | some r =>
      let k := s.getF F.fstStatus_kCur shard
      let old := s.curGen shard
      let n := if k == 0 then 0 else 2 ^ k
      if r.done then s
      else if r.line ≥ n then s.rebuildStash shard r
      else if (s.lockHolder (slotLock (slotKey shard old r.line 0))).isSome then s
      else
        let s0 := if s.poisoned shard (bucketUnit old r.line) then s.emptyBucket shard old r.line else s
        let slots := (List.range 4).filterMap fun i =>
          let p := slotKey shard old r.line i
          if s0.fst.toClear.contains p then none else SMap.find? s0.fst.index p
        match s0.rebuildSlots shard r.newSeed slots with
        | none => s
        | some t =>
          let r' := { r with line := r.line + 1 }
          let t1 := ({ t with fst := { t.fst with rebuilds := SMap.set t.fst.rebuilds shard r' } }).setF
            F.fstRebuildLine_line shard r'.line
          if r'.line ≥ n then t1.rebuildStash shard r' else t1)

/-- A shard's new generation becomes current; the old one is released (R217). -/
def State.rebuildFlip (s : State) (shard : Nat) : State :=
  let old := s.curGen shard
  let base := 2 * shard + b2n old
  let s1 := { s with fst := { s.fst with
    index := s.fst.index.filter fun e => e.1 / 2 ^ 25 != base
    toClear := s.fst.toClear.filter fun k => k / 2 ^ 25 != base
    rebuilds := SMap.del s.fst.rebuilds shard } }
  ((((((s1.setB F.fstStatus_curGen shard (!old)).setF F.fstStatus_kCur shard (s1.getF F.fstStatus_kNew shard)).setF
    F.fstStatus_kNew shard 0).setF F.fstStatus_newSeed shard 0).setF F.fstStatus_rebuilding shard 0).setF
    F.fstRebuildLine_line shard 0).setF F.fstEvent_rebuildDoneSeen shard 1

/-- REBUILD_COMPLETE (R217, R224): every shard's line has reached the end. -/
def execRebuildComplete (s : State) : Host.Outcome State Fault Refusal :=
  .next (if s.fst.rebuilds.isEmpty || s.fst.rebuilds.any fun e => !e.2.done then s
    else
      let newSeed := s.fst.rebuilds.any fun e => e.2.newSeed
      let old := s.curGen 0
      let s0 := if newSeed then s
        else if old then { s with fst := { s.fst with seed0 := s.fst.seed1 } }
        else { s with fst := { s.fst with seed1 := s.fst.seed0 } }
      let s1 := (s0.fst.rebuilds.map Prod.fst).foldl State.rebuildFlip s0
      { s1 with fst := { s1.fst with gracePass := List.range 512 } }.raise 0x8004 0)

/-! ## Passes (R218, R219, R223 to R225) -/

/-- Ageing-bitmap blocks of a partition. -/
def State.ageBlocks (s : State) : Nat :=
  let (a, b, c) := s.fst.heapCfg
  ceilDiv (a + 2 * b + 4 * c) 128

/-- A pass begins. -/
def State.startPass (s : State) (shard desc : Nat) : State :=
  let k := 16 * shard + desc
  let n := (SMap.getD s.fst.passNo k 0 + 1) % 256
  let reb := s.rebuilding shard
  let sw : Sweep := ⟨desc, 0, reb, s.fst.gracePass.contains k && !reb, s.fst.rebase.contains k, !s.fst.passed.contains k⟩
  let s1 := { s with fst := { s.fst with
    sweeps := SMap.set s.fst.sweeps shard sw
    passNo := SMap.put 0 s.fst.passNo k n
    passed := if s.fst.passed.contains k then s.fst.passed else s.fst.passed ++ [k]
    gracePass := if reb then s.fst.gracePass else s.fst.gracePass.filter (· != k)
    rebase := s.fst.rebase.filter (· != k) } }
  ((s1.setF F.fstSweepStatus_running shard 1).setF F.fstSweepStatus_desc shard desc).setF F.fstSweepStatus_pass shard n

/-- A start that cannot be taken (R223, R491). -/
def State.sweepOverrun (s : State) (shard : Nat) : State :=
  (s.count (C.fstSweepOverrun shard)).setF F.fstEvent_sweepOverrunSeen shard 1

/-- A start of a descriptor's pass reaches a shard (R218, R223, R491): it begins, waits, or is dropped as an overrun. -/
def State.startSweep (s : State) (shard desc : Nat) : State :=
  let q := SMap.getD s.fst.sweepQ shard []
  if desc ≥ 16 || shard ≥ 32 || !s.getB F.fstCtrl_ageEn shard then s
  else if s.getB F.fltStatus_barePoles then s.sweepOverrun shard
  else
    match SMap.find? s.fst.sweeps shard with
    | none => s.startPass shard desc
    | some sw =>
      if sw.desc == desc || q.contains desc then s.sweepOverrun shard
      else ({ s with fst := { s.fst with sweepQ := SMap.set s.fst.sweepQ shard (q ++ [desc]) } }).setBit
        F.fstSweepStatus_queued shard desc true

/-- AGEING_PASS_START (R218, R223, R491). -/
def execAgeingPassStart (shard desc : Nat) (s : State) : Host.Outcome State Fault Refusal := .next (s.startSweep shard desc)

/-- A pass ends; the oldest waiting start begins. -/
def State.endPass (s : State) (shard : Nat) : State :=
  let s1 := ({ s with fst := { s.fst with sweeps := SMap.del s.fst.sweeps shard } }).setF F.fstSweepStatus_running shard 0
  match SMap.getD s1.fst.sweepQ shard [] with
  | [] => s1
  | d :: rest =>
    (({ s1 with fst := { s1.fst with sweepQ := SMap.put [] s1.fst.sweepQ shard rest } }).setBit F.fstSweepStatus_queued
      shard d false).startPass shard d

/-- A removal transaction for a record, prepared at once (R222). -/
def State.openRemoval (s : State) (shard handle reason : Nat) (r : FlowRec) : State :=
  let im := toImage r.size r.words
  let prof := kProfile (iKey im)
  let second := secondKey r.size im
  let home := homeShard s.fst.shardSeed (iKey im)
  let del0 := if (s.slotsOf (iKey im) handle).isEmpty then [] else [TxWrite.slotDel home (mkSlot r.size 0 prof handle) (iKey im)]
  let del1 := match second with
    | some k2 => if (s.slotsOf k2 handle).isEmpty then [] else
      [TxWrite.slotDel (homeShard s.fst.shardSeed k2) (mkSlot r.size 1 (kProfile k2) handle) k2]
    | none => []
  let why := if del0.isEmpty then 3 else reason
  let endReason := if why == 2 then 3 else if why == 3 then 4 else 1
  let t := { Tx.new (1 * 4096 + shard) shard ([TxWrite.recGone handle endReason, .bits handle 0 7] ++ del0 ++ del1) with
    removal := some (handle, prof, why, iLastSeen im) }
  let (s1, id) := s.openTx t
  s1.prepareTx id

/-- A touched flag cleared on a record's HEAD line. -/
def State.clearTouched (s : State) (handle : Nat) : State :=
  match s.recLine 0 handle with
  | some (k, l) => s.setLine k { l with touched := false }
  | none => s

/-- last_seen of a record set to now, in the cache where it is there (R225). -/
def State.restamp (s : State) (handle : Nat) (r : FlowRec) : State :=
  s.putWords handle r.size (ofImage r.size (setAt (toImage r.size r.words) 8 s.coarseNow))

/-- A timeout has run out: `t` in coarse units (R218). -/
def State.idleFor (s : State) (im : List Nat) (t : Nat) : Bool := decide (wrapDiff s.coarseNow (iLastSeen im) 32 > (t : Int))

/-- The timeout of a timeout class, in coarse units (R156, R218); a reserved class counts as idle (log entry 46). -/
def classTimeout (prof : List Nat) (tclass : Nat) : Nat :=
  coarseSeconds (if tclass == 1 then pSynTimeout prof else if tclass == 2 then pCloseTimeout prof else pIdle prof)

/-- One record of a block judged by a pass (R218 to R221, R224, R225). -/
def State.visitRec (s : State) (shard : Nat) (sw : Sweep) (handle : Nat) (r : FlowRec) : State :=
  let im := toImage r.size r.words
  let prof := SMap.getD s.cls.flowProf (kProfile (iKey im)) []
  let bits := SMap.getD s.fst.ageBits handle 0
  let two := pTwoPass prof
  let tc := iTclass im
  let remove := fun (t : State) (reason : Nat) =>
    if sw.first || iStatic im then t else (t.clearTouched handle).openRemoval shard handle reason r
  if bitOf bits 2 && tc == 2 && (pCloseTimeout prof == 0 || s.idleFor im (classTimeout prof 2)) then
    if sw.rebase && !two then s.restamp handle r else remove (if two then s.ageBitsSet handle 0 2 else s) 2
  else if !two then
    if sw.rebase then s.restamp handle r
    else if s.idleFor im (classTimeout prof tc) then remove s (if tc == 3 then 0 else tc)
    else s
  else if sw.noTwoPass then s
  else if bitOf bits 1 then s.ageBitsSet handle 0 2
  else
    match s.recLine 0 handle with
    | some (k, l) =>
      if l.touched then s.setLine k { l with touched := false }
      else if l.inflight > 0 || sw.grace then s else remove s (if tc == 1 then 1 else 0)
    | none => if sw.grace then s else remove s (if tc == 1 then 1 else 0)

/-- A poisoned bitmap block is rebuilt from the index: A for each record a dir-0 slot names, T for all (R226). -/
def State.rebuildBlock (s : State) (shard block : Nat) : State :=
  let lo := shard * 2 ^ 24 + 128 * block
  let here := fun (h : Nat) => decide (lo ≤ h) && decide (h < lo + 128)
  let named := fun (h : Nat) => (s.fst.index.any fun e => e.2.handle == h && e.2.dir == 0)
    || s.fst.stash.any fun e => e.2.2.handle == h && e.2.2.dir == 0
  let hs := (s.fst.heap.filter fun e => here e.1 && named e.1).map Prod.fst
  let s1 := { s with fst := { s.fst with ageBits := s.fst.ageBits.keep fun h _ => !here h } }
  let s2 := hs.foldl (fun t h => t.ageBitsSet h 3 0) s1
  ((s2.cleanse shard [bitmapUnit block]).setF F.fstEvent_poisonSeen shard 1).declareLoss 2 shard block hs.length 0

/-- AGEING_BLOCK_VISIT (R219): a pass reads and rewrites its next bitmap block and judges the records it covers. -/
def execAgeingBlockVisit (shard : Nat) (s : State) : Host.Outcome State Fault Refusal :=
  .next (match SMap.find? s.fst.sweeps shard with
    | none => s
    | some sw =>
      if s.getB F.fltStatus_barePoles || s.furled || s.fst.restarting.contains shard then s
      else if (s.holder shard [bitmapUnit sw.block]).isSome then s
      else
        let s1 := if s.poisoned shard (bitmapUnit sw.block) then s.rebuildBlock shard sw.block else s
        let lo := shard * 2 ^ 24 + 128 * sw.block
        let mask := SMap.getD s1.fst.descs sw.desc 0
        let visit := fun (t : State) (e : Nat × Nat) =>
          if !bitOf (SMap.getD t.fst.ageBits e.1 0) 0 then t
          else
            match t.recNow e.1 with
            | none => if t.fst.retired.contains e.1 then t.retireMet e.1 else t
            | some r =>
              let im := toImage r.size r.words
              let bad := (t.recLine 0 e.1).isNone && (recordUnits e.1 r.size).any fun u => t.poisoned shard u
              if bad then t.retireMet e.1
              else if !bitOf mask (kProfile (iKey im)) then t else t.visitRec shard sw e.1 r
        let s2 := (s1.fst.ageBits.filter fun e => decide (lo ≤ e.1) && decide (e.1 < lo + 128)).foldl visit s1
        if sw.block + 1 ≥ s2.ageBlocks then s2.endPass shard
        else { s2 with fst := { s2.fst with sweeps := SMap.set s2.fst.sweeps shard { sw with block := sw.block + 1 } } })

/-- The counter of a removal by its reason (R228). -/
def ageCounter (shard reason : Nat) : CtrId :=
  if reason == 1 then C.fstAgedOpening shard else if reason == 2 then C.fstAgedClosing shard
  else if reason == 3 then C.fstAgedOrphan shard else C.fstAgedIdle shard

/-- AGE_REMOVAL_COMMIT (R222, R247): the oldest prepared removal of a shard reaches its commit cycle; its condition
decides whether the record goes, with its notification, or is kept. -/
def execAgeRemovalCommit (shard : Nat) (s : State) : Host.Outcome State Fault Refusal :=
  .next (match SMap.first? s.fst.txs fun _ t => t.cls == 1 && t.coord == shard && t.phase == .prepared with
    | none => s
    | some (id, t) =>
      match t.removal with
      | none => s
      | some (h, _, reason, _) =>
        match s.recNow h with
        | none => s.txAbort id eState
        | some r =>
          let s1 := s.commitPoint id
          if (SMap.find? s1.fst.txs id).elim false fun x => x.phase == .committing then
            (s1.count (ageCounter shard reason)).sendAgeOut shard h r reason
          else s1)

end Sys2Proof.Machine
end

