-- ==== Sys2Proof/Machine/FlowCmds.lean ====
section
/-! DEFINITION. Commands of the flow store, setup and transactions, and refcount operations (R227, R256, R266 to R268). -/

namespace Sys2Proof.Machine

/-! ## Refcounts (R256) -/

/-- An increment past 255 is refused: counted, and its requester told E_BUSY (R256). -/
def State.refFull (s : State) (handle requester : Nat) : State :=
  ((s.count C.bpmRefcountFull).setF F.bpmEvent_refcountFullSeen 0 1).emit (.refBusy handle requester)

/-- A control buffer's count changed: refused at 255, freed at zero, rejected where it is already zero. -/
def State.refCtrl (s : State) (handle requester : Nat) (add : Bool) : State :=
  match s.badCtrl handle, SMap.find? s.fst.ctrlBufs handle with
  | some c, _ => s.rejectHandle handle c 3 requester
  | none, none => s.rejectHandle handle 2 3 requester
  | none, some (owner, n) =>
    if add && n ≥ 255 then s.refFull handle requester
    else if add then { s with fst := { s.fst with ctrlBufs := SMap.set s.fst.ctrlBufs handle (owner, n + 1) } }
    else if n > 1 then { s with fst := { s.fst with ctrlBufs := SMap.set s.fst.ctrlBufs handle (owner, n - 1) } }
    else s.freeCtrl handle requester

/-- A record's count changed at its owning shard. -/
def State.refHeap (s : State) (handle requester : Nat) (add : Bool) : State :=
  match s.badHeap handle, s.recNow handle with
  | some c, _ => s.rejectHandle handle c 3 requester
  | none, none => s.rejectHandle handle 2 3 requester
  | none, some r =>
    let im := toImage r.size r.words
    let n := iRefcount im
    let put (m : Nat) : State := s.putWords handle r.size (ofImage r.size (imPut im 14 31 24 m))
    if add && n ≥ 255 then s.refFull handle requester
    else if add then put (n + 1)
    else if n == 0 then s.rejectHandle handle 2 3 requester
    else if n > 1 then put (n - 1)
    else (({ s with fst := { s.fst with heap := SMap.del s.fst.heap handle } }).dropLines handle).freeHandle handle

/-- REFCOUNT_OP (R256): an atomic add or subtract, at the BPM for a control buffer. -/
def execRefcountOp (ctrl : Bool) (handle requester : Nat) (add : Bool) (s : State) : Host.Outcome State Fault Refusal :=
  .next (if ctrl then s.refCtrl handle requester add else s.refHeap handle requester add)

/-! ## Flows (R227) -/

/-- A rebuild has reached the end of a shard and is completing. -/
def State.rebuildEnds (s : State) (shard : Nat) : Bool := (SMap.find? s.fst.rebuilds shard).elim false (·.done)

/-- The target, op and data words of a descriptor. -/
def dTarget (d : List Nat) : Nat := bitsOf (wordAt d 7) 31 28
def dOp (d : List Nat) : Nat := bitsOf (wordAt d 7) 27 24
def dLen (d : List Nat) : Nat := bitsOf (wordAt d 7) 23 16
def dData (d : List Nat) : List Nat := (d.drop 8).take (2 * dLen d)

/-- The parameters of a flow.insert in a descriptor's data: profile, key, rev_mode, rev_profile, rev_vrf, second key,
hot-slice image, the keys in 12 words each (log entry 47). -/
def flowOfData (d : List Nat) : FlowNew :=
  let rev := wordAt d 13
  ⟨wordAt d 0, wordsKey ((d.drop 1).take 12), rev, wordAt d 14, wordAt d 15,
   if rev == 3 then wordsKey ((d.drop 16).take 12) else [], (d.drop 28).take 16⟩

/-- The descriptors of a flow's insertion and of its removal. -/
def insertDesc (f : FlowNew) : List Nat :=
  [0, 0, 0, 0, 0, 0, 0, 3 <<< 24 + 22 <<< 16] ++ (f.profile :: keyWords f.key)
    ++ [f.revMode, f.revProfile, f.revVrf] ++ (if f.second.isEmpty then List.replicate 12 0 else keyWords f.second) ++ f.hot
def deleteDesc (key : List Nat) : List Nat := [0, 0, 0, 0, 0, 0, 0, 2 <<< 24 + 6 <<< 16] ++ keyWords key

/-- The member that a descriptor's flow lies on, where that is another (R554, R557). -/
def State.descOwner (s : State) (d : List Nat) : Option Nat :=
  if dTarget d != 0 then none
  else if dOp d == 3 then (let f := flowOfData (dData d); s.remoteOwner (f.profile :: f.key.drop 1))
  else s.remoteOwner (wordsKey ((dData d).take 12))

/-- The members that descriptors name, with their descriptors. -/
def State.spanOf (s : State) (ds : List (List Nat)) : List (Nat × List (List Nat)) :=
  ((ds.filterMap s.descOwner).eraseDups).map fun m => (m, ds.filter fun d => s.descOwner d == some m)

/-- The parts of a transaction go to their members (R557). -/
def State.sendParts (s : State) (id : Nat) (parts : List (Nat × List (List Nat))) : State :=
  parts.foldl (fun t e => t.sendTo e.1 (.txPrepare id e.2)) s

/-- A command whose flow lies on another member is a transaction that spans both; E_FAULT with no link to it (R557,
R559). -/
def State.spanCmd (s : State) (h : CmdHdr) (ds : List (List Nat)) : State × Option Rsp :=
  let parts := s.spanOf ds
  if parts.any fun e => (s.linksTo e.1).isEmpty then (s, some (.err eFault))
  else
    let (s1, id) := s.draw.openFirmware s.threadSource [] fun t =>
      { t with cmd := some (h.mbx, h.cid, h.noIrq), peers := parts.map fun e => (e.1, 0) }
    (s1.sendParts id parts, none)

/-- FLOW_INSERT (R227, R240, R250, R257). -/
def execFlowInsert (h : CmdHdr) (flow : FlowNew) (s : State) : Host.Outcome State Fault Refusal :=
  .next (s.cmdLater (.flowInsert h flow) h attrNone (s.flowNewOk flow) fun s =>
    let key := flow.profile :: flow.key.drop 1
    let home := homeShard s.fst.shardSeed key
    if (s.remoteOwner key).isSome then s.spanCmd h [insertDesc flow]
    else if s.rebuildEnds home then (s, some (.err eBusy))
    else
      match s.insertWrites flow with
      | (s1, none) => (s1, some (.err eNospace))
      | (s1, some (handle, ws)) =>
        ((s1.draw.openFirmware s1.threadSource ws fun t =>
          { t with cmd := some (h.mbx, h.cid, h.noIrq), result := [handle] }).1, none))

/-- A record by its key in its home shard: the handle. -/
def State.handleOf (s : State) (key : List Nat) : Option Nat :=
  (s.findKey (homeShard s.fst.shardSeed key) key).map (·.slot.handle)

/-- The cache tag state of a record: valid [31], kind [30:29], dirty [28], touched [27], lock [26], inflight [9:0]. -/
def State.tagState (s : State) (handle : Nat) : Nat :=
  match s.recLine 0 handle with
  | none => 0
  | some (_, l) => 1 <<< 31 + l.kind <<< 29 + b2n l.dirty <<< 28 + b2n l.touched <<< 27
    + b2n (s.lockHolder ⟨1, handle, 0⟩).isSome <<< 26 + l.inflight % 1024

/-- FLOW_READ (R227, R255): by key, or by handle. -/
def execFlowRead (h : CmdHdr) (byHandle : Bool) (handle : Nat) (key : List Nat) (s : State) :
    Host.Outcome State Fault Refusal :=
  let show_ (t : State) (k : Nat) : State × Rsp := match t.recNow k with
    | some r => if iLive (toImage r.size r.words) then (t, .bulkOf [k, r.size, t.tagState k] r.words) else (t, .err eNoent)
    | none => (t, .err eNoent)
  .next (s.cmd (.flowRead h byHandle handle key) h attrNone [true, true, byHandle || keyBytesOk key 48] fun s =>
    if byHandle then
      match s.badHeap handle with
      | some c => (s.rejectHandle handle c 2 32, .inval 1)
      | none => show_ s handle
    else
      match s.handleOf key with
      | some k => show_ s k
      | none => (s, .err eNoent))

/-- FLOW_MODIFY (R227): masked words of the hot slice; a field that a lean record lacks is refused. -/
def execFlowModify (h : CmdHdr) (key : List Nat) (mask : Nat) (words : List Nat) (s : State) :
    Host.Outcome State Fault Refusal :=
  .next (s.cmdLater (.flowModify h key mask words) h attrNone [keyBytesOk key 48, decide (mask < 2 ^ 16),
      words.length == 16 && words.all fun w => decide (w < 2 ^ 32)] fun s =>
    match s.handleOf key with
    | none => (s, some (.err eNoent))
    | some k =>
      let size := (s.recNow k).elim 0 (·.size)
      if (List.range 16).any fun i => bitOf mask i && Nat.land (wordAt words i) (fieldMask size i) != wordAt words i
          || bitOf mask i && fieldMask size i == 0 then (s, some (.inval 1))
      else ((s.draw.openFirmware s.threadSource [.recHot k mask words] fun t =>
        { t with cmd := some (h.mbx, h.cid, h.noIrq) }).1, none))

/-- The writes that remove a flow. -/
def State.removeWrites (s : State) (handle : Nat) : List TxWrite :=
  match s.recNow handle with
  | none => []
  | some r =>
    let im := toImage r.size r.words
    let del (dir : Nat) (k : List Nat) : List TxWrite := if (s.slotsOf k handle).isEmpty then [] else
      [.slotDel (homeShard s.fst.shardSeed k) (mkSlot r.size dir (kProfile k) handle) k]
    [.recGone handle 4, .bits handle 0 7] ++ del 0 (iKey im) ++ ((secondKey r.size im).elim [] fun k => del 1 k)

/-- FLOW_DELETE (R227). -/
def execFlowDelete (h : CmdHdr) (key : List Nat) (s : State) : Host.Outcome State Fault Refusal :=
  .next (s.cmdLater (.flowDelete h key) h attrNone [keyBytesOk key 48] fun s =>
    if (s.remoteOwner key).isSome then s.spanCmd h [deleteDesc key]
    else
    match s.handleOf key with
    | none => (s, some (.err eNoent))
    | some k => ((s.draw.openFirmware s.threadSource (s.removeWrites k) fun t =>
        { t with cmd := some (h.mbx, h.cid, h.noIrq) }).1, none))

/-! ## The index and its sweeps (R215, R218, R227) -/

/-- FST_REBUILD (R195, R215): every shard starts; a new seed is drawn by firmware and left open. -/
def execFstRebuild (h : CmdHdr) (k : Nat) (newSeed : Bool) (s : State) : Host.Outcome State Fault Refusal :=
  .next (s.cmd (.fstRebuild h k newSeed) h attrO [decide (16 ≤ k) && decide (k ≤ 23)] fun s =>
    if !s.fst.rebuilds.isEmpty then (s, .err eBusy)
    else
      let s0 := if !newSeed then s
        else if s.curGen 0 then { s.draw with fst := { s.fst with seed0 := s.freeVal } }
        else { s.draw with fst := { s.fst with seed1 := s.freeVal } }
      let r : Rebuild := ⟨0, newSeed, false⟩
      let one := fun (t : State) (i : Nat) =>
        let u := { t with fst := { t.fst with
          rebuilds := SMap.set t.fst.rebuilds i r, sweeps := SMap.modify t.fst.sweeps i fun w => { w with noTwoPass := true } } }
        (((u.setF F.fstStatus_rebuilding i 1).setF F.fstStatus_kNew i k).setB F.fstStatus_newSeed i newSeed).setF
          F.fstRebuildLine_line i 0
      ((List.range 32).foldl one s0, .ok))

/-- FST_SWEEP_CONFIG (R218): no TWO_PASS profile may be in two descriptors. -/
def execFstSweepConfig (h : CmdHdr) (desc mask : Nat) (s : State) : Host.Outcome State Fault Refusal :=
  .next (s.cmd (.fstSweepConfig h desc mask) h attrNone [decide (desc < 16), decide (mask < 2 ^ 64)
      && !(List.range 64).any fun p => bitOf mask p && pValid (SMap.getD s.cls.flowProf p [])
        && pTwoPass (SMap.getD s.cls.flowProf p [])
        && s.fst.descs.any fun e => e.1 != desc && bitOf e.2 p] fun s =>
    ({ s with fst := { s.fst with descs := SMap.put 0 s.fst.descs desc mask } }, .ok))

/-- FST_MQ_CONFIG (R209). -/
def execFstMqConfig (h : CmdHdr) (setupCap : Nat) (s : State) : Host.Outcome State Fault Refusal :=
  .next (s.cmd (.fstMqConfig h setupCap) h attrNone [decide (1 ≤ setupCap) && decide (setupCap ≤ 4096)] fun s =>
    (s.setAll F.fstCtrl_setupCap 32 setupCap, .ok))

/-- FST_STATUS (R227): FST_STATUS, FST_MQ_STATUS and FST_LIVE of a shard. -/
def execFstStatus (h : CmdHdr) (shard : Nat) (s : State) : Host.Outcome State Fault Refusal :=
  .next (s.cmd (.fstStatus h shard) h attrNone [decide (shard < 32)] fun s =>
    (s, .val [(s.rd .fstStatus shard).toNat, (s.rd .fstMqStatus shard).toNat, (s.rd .fstLive shard).toNat]))

/-- SETUP_TEMPLATE_SET (R234): the whole template takes effect at once. -/
def execSetupTemplateSet (h : CmdHdr) (index : Nat) (words : List Nat) (s : State) : Host.Outcome State Fault Refusal :=
  .next (s.cmd (.setupTemplateSet h index words) h attrNone
      [decide (index < 32), words.length == 8 && (words.all fun w => decide (w < 2 ^ 32))
      && tInitTclass words != 3] fun s =>
    ({ s with fst := { s.fst with templates := SMap.set s.fst.templates index words } }, .ok))

/-- SETUP_FW_CONFIG (R240): 10 to 10,000 µs. -/
def execSetupFwConfig (h : CmdHdr) (timeout : Nat) (s : State) : Host.Outcome State Fault Refusal :=
  .next (s.cmd (.setupFwConfig h timeout) h attrNone [decide (10 ≤ timeout) && decide (timeout ≤ 10000)] fun s =>
    ({ s with fst := { s.fst with fwTimeout := timeout } }, .ok))

/-! ## Host transactions (R266, R267) -/

/-- An open transaction of a mailbox. -/
def State.hostTxOf (s : State) (mbx tx : Nat) : Option HostTx :=
  (SMap.find? s.fst.hostTx tx).bind fun t => if t.mbx == mbx then some t else none

/-- TX_OPEN (R266): at most 16 open transactions a mailbox. -/
def execTxOpen (h : CmdHdr) (s : State) : Host.Outcome State Fault Refusal :=
  .next (s.cmd (.txOpen h) h attrO [] fun s =>
    if (s.fst.hostTx.filter fun e => e.2.mbx == h.mbx).length ≥ 16 then (s, .err eNospace)
    else
      let id := s.fst.nextTx
      ({ s with fst := { s.fst with nextTx := id + 1, hostTx := SMap.set s.fst.hostTx id ⟨h.mbx, []⟩ } }, .val [id]))

/-- A descriptor's form is one of R267: its combination, its length, its data as long as its header says. -/
def descOk (d : List Nat) : Bool :=
  let combo := [(0, 2), (0, 3), (1, 0), (1, 1), (2, 0), (2, 2), (2, 3), (3, 0), (3, 2), (4, 0)].contains (dTarget d, dOp d)
  combo && decide (dLen d ≤ 32) && decide (d.length = 8 + (2 * dLen d + 3) / 4 * 4) && d.all fun w => decide (w < 2 ^ 32)

/-- TX_ADD (R266, R267). -/
def execTxAdd (h : CmdHdr) (tx : Nat) (descs : List (List Nat)) (s : State) : Host.Outcome State Fault Refusal :=
  .next (s.cmd (.txAdd h tx descs) h attrO [] fun s =>
    match s.hostTxOf h.mbx tx with
    | none => (s, .err eNoent)
    | some t =>
      if !descs.all descOk then (s, .inval 1)
      else ({ s with fst := { s.fst with hostTx := SMap.set s.fst.hostTx tx { t with descs := t.descs ++ descs } } }, .ok))

/-- The rule entry of an image (R145). -/
def ruleOfImage (w : List Nat) : Option RuleEntry :=
  let wide := w.length == 32
  let top := wordAt w (w.length - 1)
  let units := bitsOf top 23 20
  let keyLen := 8 * units
  let field := wordBytes ((w.drop (if wide then 14 else 4)).take (if wide then 16 else 10)).reverse
  if (w.length != 16 && w.length != 32) || units == 0 || units > (if wide then 8 else 5) || bitOf top 28 != wide then none
  else some ⟨wide, bitsOf top 27 24, units, bitOf top 29, bitOf top 30, false, field.take keyLen,
    (w.drop (if wide then 10 else 0)).take 4, if wide then wordBytes (w.take 10).reverse else []⟩

/-- The masked-search entry of an image (R172). -/
def mskOfImage (w : List Nat) : Option MskEntry :=
  let n := (w.length - 6) / 10
  let top := wordAt w (w.length - 1)
  let code := if n == 1 then 0 else if n == 2 then 1 else 2
  if w.length != 10 * n + 6 || !([1, 2, 4].contains n) || bitsOf top 28 27 != code then none
  else some ⟨bitOf top 31, bitOf top 29, bitOf top 30, n, wordBytes ((w.drop (5 * n + 4)).take (5 * n)).reverse,
    wordBytes ((w.drop 4).take (5 * n)).reverse, w.take 4⟩

/-- What a descriptor comes to: writes and conditions, or a result code. -/
inductive Expand where
  | ok (ws : List TxWrite) (conds : List (Nat × List WordWrite))
  | err (code : Nat)
  deriving DecidableEq, Repr

/-- A descriptor expanded into its writes (R267). -/
def State.expand (s : State) (d : List Nat) : State × Expand :=
  let hi := wordAt d 6
  let lo := wordAt d 5
  let data := dData d
  match dTarget d, dOp d with
  | 0, 3 =>
    let n := flowOfData data
    if data.length != 44 || !(s.flowNewOk n).all id then (s, .err eInval)
    else match s.insertWrites n with
      | (t, none) => (t, .err eNospace)
      | (t, some (_, ws)) => (t, .ok ws [])
  | 0, 2 => (s, match s.handleOf (wordsKey (data.take 12)) with
      | some k => .ok (s.removeWrites k) []
      | none => .err eNoent)
  | 1, op =>
    match s.badHeap hi with
    | some c => (s.rejectHandle hi c 2 32, .err eInval)
    | none =>
      if (s.recNow hi).isNone then (s, .err eNoent)
      else
        let base := 16 * bitsOf lo 31 30
        let mask := lo % 65536
        let new := if op == 1 then data.drop 16 else data
        let cond := (List.range 16).filterMap fun i =>
          if bitOf mask i then some (WordWrite.mk (base + i) 0xFFFFFFFF (wordAt data i)) else none
        if data.length != (if op == 1 then 32 else 16) || bitsOf lo 29 16 != 0 then (s, .err eInval)
        else (s, .ok [.recMask hi base mask new] (if op == 1 then [(hi, cond)] else []))
  | 2, op =>
    match ruleOfImage data with
    | none => (s, .err eInval)
    | some e =>
      let table := bitsOf hi 31 28
      let ep := bitsOf hi 27 27
      if e.table != table || !s.emKeyOk table e.key || !s.emDataOk table e.data then (s, .err eInval)
      else if op == 3 && !(e.ep0 || e.ep1) then (s, .err eInval)
      else (s, .ok [if op == 3 then .rulePut e else if op == 0 then .ruleMod ep e else .ruleDel table ep e.key] [])
  | 3, op =>
    let bank := bitsOf hi 31 28
    let index := bitsOf hi 27 18
    if !s.mskIn bank index then (s, .err eInval)
    else if op == 2 then (s, .ok [.mskDel bank index] [])
    else match mskOfImage data with
      | some e => if e.width == (s.mskBank bank).width && (e.ep0 || e.ep1) then (s, .ok [.mskPut bank index e] [])
        else (s, .err eInval)
      | none => (s, .err eInval)
  | _, _ =>
    let g := bitsOf hi 30 29
    let i := bitsOf hi 17 0
    if i ≥ ctrSlots g || data.length != 2 then (s, .err eInval)
    else (s, .ok [.counter (CtrId.key ⟨g, i⟩) (wordAt data 0 + wordAt data 1 * 2 ^ 32)] [])

/-- Every descriptor expanded in order, up to the first failure. -/
def State.expandAll (s : State) : List (List Nat) → List TxWrite → List (Nat × List WordWrite) → State × Expand
  | [], ws, cs => (s, .ok ws cs)
  | d :: ds, ws, cs =>
    match s.expand d with
    | (t, .ok a b) => State.expandAll t ds (ws ++ a) (cs ++ b)
    | (t, .err c) => (t.returnHandles ws, .err c)

/-- TX_COMMIT (R257, R266): the number is consumed; the transaction prepares and commits and its result completes the
command. -/
def execTxCommit (h : CmdHdr) (tx : Nat) (s : State) : Host.Outcome State Fault Refusal :=
  .next (s.cmdLater (.txCommit h tx) h attrO [] fun s =>
    match s.hostTxOf h.mbx tx with
    | none => (s, some (.err eNoent))
    | some t =>
      let s1 := { s with fst := { s.fst with hostTx := SMap.del s.fst.hostTx tx } }
      let parts := s1.spanOf t.descs
      if parts.any fun e => (s1.linksTo e.1).isEmpty then (s1, some (.err eFault))
      else
      match s1.expandAll (t.descs.filter fun d => (s1.descOwner d).isNone) [] [] with
      | (s2, .err c) => (s2, some (.err c))
      | (s2, .ok ws cs) =>
        let (s3, coord) := match writeShards ws with
          | k :: _ => (s2, k)
          | [] => (s2.draw, s2.freeVal % 32)
        if !txFits ws || cs.any fun c => ownerOf c.1 != coord then (s3.returnHandles ws, some (.err eInval))
        else
          let (s4, id) := s3.openTx { Tx.new (7 * 4096 + h.mbx) coord ws with
            conds := cs, cmd := some (h.mbx, h.cid, h.noIrq), peers := parts.map fun e => (e.1, 0) }
          (s4.sendParts id parts, none))

/-- TX_ABORT (R266). -/
def execTxAbort (h : CmdHdr) (tx : Nat) (s : State) : Host.Outcome State Fault Refusal :=
  .next (s.cmd (.txAbort h tx) h attrO [] fun s =>
    match s.hostTxOf h.mbx tx with
    | none => (s, .err eNoent)
    | some _ => ({ s with fst := { s.fst with hostTx := SMap.del s.fst.hostTx tx } }, .ok))

end Sys2Proof.Machine
end

