-- ==== Sys2Proof/Machine/Micro.lean ====
section
/-! DEFINITION. The rigs' microcode: microwords, conditions, operand spaces, units (R275 to R288). -/

namespace Sys2Proof.Machine

/-! ## Microwords (R277) -/

/-- Quarter `q` of a microword: bits [48q + 47:48q] (R276). -/
def quarterOf (w : List Nat) (q : Nat) : Nat :=
  bitsOf ((w.take 6).zipIdx.map fun e => e.1 <<< (32 * e.2)).sum (48 * q + 47) (48 * q)

/-- The number of one bits of a quarter is odd. -/
def oddOnes (v : Nat) : Bool := ((List.range 48).filter fun i => bitOf v i).length % 2 == 1

/-- The parity bits that the store's write port generates: odd parity over each quarter (R276). -/
def parityOf (w : List Nat) : Nat := ((List.range 4).map fun q => b2n (!oddOnes (quarterOf w q)) <<< q).sum

/-- A microword as the store holds it, with its parity bits. -/
def withParity (w : List Nat) : List Nat := w.take 6 ++ [parityOf w]

/-- The quarters whose parity fails on a fetch (R276). -/
def badQuarters (w : List Nat) : Nat := Nat.xor (parityOf w) (wordAt w 6)

/-- A store word as a pipeline fetches it: what was written, with what upsets flipped in its copy. -/
def State.fetchWord (s : State) (pipe addr : Nat) : List Nat :=
  let w := SMap.getD s.rig.store addr (withParity [0, 0, 0, 0, 0, 0])
  match SMap.find? s.rig.upsets (8192 * pipe + addr) with
  | some f => w.zipWith Nat.xor f
  | none => w

/-- An upset strikes a pipeline's control store. -/
def State.rigUpset (s : State) (pipe : Nat) (u : RigUpset) : State :=
  let zero := List.replicate 7 0
  let k := 8192 * pipe + u.addr
  { s with rig := { s.rig with
      upsets := SMap.put zero s.rig.upsets k ((SMap.getD s.rig.upsets k zero).zipWith Nat.xor u.flips) } }

def uDur (w : List Nat) : Nat := bitsOf (wordAt w 5) 31 30 + 1
def uUnit (w : List Nat) : Nat := bitsOf (wordAt w 5) 29 26
def uOp (w : List Nat) : Nat := bitsOf (wordAt w 5) 25 20
def uCond (w : List Nat) : Nat := bitsOf (wordAt w 5) 19 16
def uRd (w : List Nat) : Nat := bitsOf (wordAt w 5) 15 12
def uRa (w : List Nat) : Nat := bitsOf (wordAt w 5) 11 8
def uRb (w : List Nat) : Nat := bitsOf (wordAt w 5) 7 4
def uImmB (w : List Nat) : Bool := bitOf (wordAt w 5) 3
def uSetf (w : List Nat) : Bool := bitOf (wordAt w 5) 2
def uEnd (w : List Nat) : Bool := bitOf (wordAt w 5) 1
def uSpace (w : List Nat) : Nat := bitsOf (wordAt w 4) 31 29
def uOffset (w : List Nat) : Nat := bitsOf (wordAt w 4) 28 20
def uLo (w : List Nat) : Nat := bitsOf (wordAt w 4) 19 14
def uWidth (w : List Nat) : Nat := bitsOf (wordAt w 4) 13 8 + 1
def uLay (w : List Nat) : Nat := bitsOf (wordAt w 4) 7 5
def uTarget (w : List Nat) : Nat := bitsOf (wordAt w 3) 31 19
def uAux (w : List Nat) : Nat := bitsOf (wordAt w 3) 18 0
def uImm (w : List Nat) : Nat := wordAt w 1 % 2 ^ 32 + wordAt w 2 % 2 ^ 32 * 2 ^ 32

/-- A register of a run. -/
def RigRun.reg (r : RigRun) (i : Nat) : Nat := wordAt r.regs i

/-- A register written. -/
def RigRun.setReg (r : RigRun) (i v : Nat) : RigRun := { r with regs := setAt r.regs i (v % 2 ^ 64) }

/-- Operand B. -/
def RigRun.b (r : RigRun) (w : List Nat) : Nat := if uImmB w then uImm w else r.reg (uRb w)

/-- Whether a microword's condition holds (R279). -/
def condTrue (r : RigRun) (p : Pkt) (c : Nat) : Bool :=
  let size := p.ans.elim 3 (·.size)
  match c with
  | 0 => true
  | 1 => r.z
  | 2 => !r.z
  | 3 => r.n
  | 4 => !r.n
  | 5 => r.c
  | 6 => !r.c
  | 7 => p.ans.elim false (·.setupPending)
  | 8 => p.ans.elim false fun a => a.dir == 1
  | 9 => r.replay
  | 10 => size == 0
  | 11 => p.ans.isNone
  | 12 => r.hit
  | 13 => !r.hit
  | _ => false

/-! ## Fields (R277, R280) -/

/-- Where a header base stands in the edit buffer; none where the layer is absent. -/
def layBase (p : Pkt) (lay : Nat) : Option Nat :=
  match lay with
  | 0 => some 0
  | 1 => sourceStart p.par 1
  | 2 => sourceStart p.par 2
  | 3 => sourceStart p.par 3
  | 4 => sourceStart p.par 5
  | 5 => sourceStart p.par 6
  | 6 => sourceStart p.par 7
  | _ => sourceStart p.par 4

/-- `width` bits of bytes from bit `pos` on, network order; zero beyond their end. -/
def netBits (bs : List Nat) (pos width : Nat) : Nat :=
  let first := pos / 8
  let n := (pos + width + 7) / 8 - first
  (beAt bs first n >>> (8 * n - (pos % 8) - width)) % 2 ^ width

/-- Bits of bytes written, those beyond the end discarded. -/
def setNetBits (bs : List Nat) (pos width v : Nat) : List Nat :=
  let first := pos / 8
  let n := (pos + width + 7) / 8 - first
  let sh := 8 * n - (pos % 8) - width
  let old := beAt bs first n
  let new := old - ((old >>> sh) % 2 ^ width) <<< sh + (v % 2 ^ width) <<< sh
  putBytes bs first (bytesBE n new)

/-- Bits of a 64-bit value formed by two words of a list. -/
def wordBits (ws : List Nat) (off lo width : Nat) : Nat :=
  ((wordAt ws (off / 4) + wordAt ws (off / 4 + 1) * 2 ^ 32) >>> lo) % 2 ^ width

/-- The metadata words of a run (R128, R280). -/
def metaWords (p : Pkt) (r : RigRun) : List Nat :=
  let base := (List.range 8).map fun i => numLE (bytesAt p.mview (4 * i) 4)
  let dir := b2n (p.ans.elim false fun a => a.dir == 1)
  let w8 := trunc 16 r.len + trunc 3 p.cls <<< 16 + trunc 2 p.colour <<< 19 + dir <<< 21
    + b2n (p.ans.elim false (·.setupPending)) <<< 22 + b2n r.replay <<< 23
    + b2n (p.ans.elim false fun a => a.size == 0) <<< 24 + b2n p.ans.isNone <<< 25
  base ++ [w8, shortTime (p.tIn / 2 ^ 16), p.rigMeta, trunc 2 p.fwdOp <<< 18 + trunc 18 p.fwdTarget, 0, 0, 0, 0]

/-- A field read (R280). -/
def loadField (p : Pkt) (r : RigRun) (w : List Nat) : Nat :=
  let off := uOffset w
  match uSpace w with
  | 1 => (layBase p (uLay w)).elim 0 fun b => netBits p.head (8 * (b + off) + uLo w) (uWidth w)
  | 2 => if p.ans.isNone then 0 else wordBits (r.image.take 16) off (uLo w) (uWidth w)
  | 3 => if p.ans.isNone || off < 64 then 0 else wordBits r.image off (uLo w) (uWidth w)
  | 4 => wordBits (metaWords p r) off (uLo w) (uWidth w)
  | 5 => wordBits ((List.range 10).map fun i => numLE (bytesAt p.ruleData (4 * i) 4)) off (uLo w) (uWidth w)
  | 6 => wordBits r.tbl off (uLo w) (uWidth w)
  | _ => 0

/-! ## Record writes (R281, R282) -/

/-- The bits of an image word that a program may write (R281). The auxiliary words that a lean record lacks are discarded
as R203
says, not as read-only ones. -/
def allowMask (size i : Nat) : Nat :=
  if i < 14 then 0xFFFFFFFF
  else if i == 14 then 0xFFFF
  else if i == 15 then 0xFFFFFFFF - (1 <<< 23 + 1 <<< 22 + 1 <<< 20 + 1 <<< 19)
  else if i < 28 then 0
  else if size == 2 then (if i < 52 then 0xFFFFFFFF else 0)
  else if size == 1 then (if i == 28 then 0x3FFFFFFF else if i == 29 then 0xFFFFFFFF else 0)
  else if i < 32 then 0xFFFFFFFF
  else 0

/-- A write to an image word is of the transition class. -/
def transWord (size i : Nat) : Bool := i == 15 || i == 12 || i == 13 || (size == 2 && i ≥ 28)

/-- The bits of an image word that a transition compares (R283): all but the running fields of R282 and word 14. -/
def compareMask (size i : Nat) : Nat :=
  if i == 7 then 0xFFFFFFFF
  else if i == 9 then 0x3F
  else if i < 12 || i == 14 then 0
  else if size == 1 && i == 28 then 0xC0000000
  else if size == 1 && i == 29 then 0
  else 0xFFFFFFFF

/-- The words compared for the units a run wrote. -/
def comparedWords (size : Nat) (start : List Nat) (ws : List WordWrite) : List WordWrite :=
  let units := (ws.map fun w => w.word / 4).eraseDups
  units.flatMap fun u => (List.range 4).filterMap fun j =>
    let i := 4 * u + j
    let m := compareMask size i
    if m == 0 then none else some ⟨i, m, wordAt start i⟩

/-- One write by a program, of record words under masks: what is allowed is written, the rest discarded; the write counts
once in
each counter it concerns (R203, R281). -/
def State.recWrites (s : State) (p : Pkt) (r : RigRun) (ws : List WordWrite) : State × RigRun :=
  match p.ans with
  | none => (s, r)
  | some a =>
    let allowed := fun (w : WordWrite) => Nat.land w.mask (allowMask a.size w.word)
    let kept := fun (w : WordWrite) => Nat.land (allowed w) (fieldMask a.size w.word)
    let k := ownerOf a.handle
    let s1 := if ws.any fun w => allowed w != w.mask then (s.count (C.rigRoWrite p.pipe)).setF F.rigEvent_roWriteSeen p.pipe 1
      else s
    let s2 := if ws.any fun w => kept w != allowed w then
        (s1.count (C.fstLeanDiscard k)).setF F.fstEvent_leanDiscardSeen k 1 else s1
    let one := fun (r : RigRun) (w : WordWrite) =>
      if kept w == 0 then r
      else
        let w' : WordWrite := ⟨w.word, kept w, Nat.land w.value (kept w)⟩
        { r with image := imWrite r.image w', writes := r.writes ++ [w'], trans := r.trans || transWord a.size w.word }
    (s2, ws.foldl one r)

/-- One masked write of a record word by a program. -/
def State.recWrite (s : State) (p : Pkt) (r : RigRun) (i mask value : Nat) : State × RigRun :=
  s.recWrites p r [⟨i, mask, value⟩]

/-- A field written (R280, R281). -/
def State.storeField (s : State) (p : Pkt) (r : RigRun) (w : List Nat) (v : Nat) : State × Pkt × RigRun :=
  let off := uOffset w
  match uSpace w with
  | 1 => match layBase p (uLay w) with
    | none => (s, p, r)
    | some b => (s, { p with head := setNetBits p.head (8 * (b + off) + uLo w) (uWidth w) v }, r)
  | sp =>
    if (sp != 2 && sp != 3) || (sp == 3 && off < 64) then (s, p, r)
    else
      let m64 := (2 ^ uWidth w - 1) <<< uLo w
      let v64 := (v % 2 ^ uWidth w) <<< uLo w
      let i := off / 4
      let part := fun (j : Nat) =>
        let m := bitsOf m64 (32 * j + 31) (32 * j)
        if m == 0 || (sp == 2 && i + j ≥ 16) || i + j ≥ 64 then none
        else some (WordWrite.mk (i + j) m (bitsOf v64 (32 * j + 31) (32 * j)))
      let (s1, r1) := s.recWrites p r ([0, 1].filterMap part)
      (s1, p, r1)

/-! ## Units (R278) -/

/-- The ALU's result and carry; none for what the spec leaves open. -/
def aluResult (op a b : Nat) : Option Nat :=
  match op with
  | 0 => some b
  | 1 => some ((a + b) % 2 ^ 64)
  | 2 => some ((a + 2 ^ 64 - b) % 2 ^ 64)
  | 3 => some (Nat.land a b)
  | 4 => some (Nat.lor a b)
  | 5 => some (Nat.xor a b)
  | 6 => if b < 64 then some ((a <<< b) % 2 ^ 64) else none
  | 7 => if b < 64 then some (a >>> b) else none
  | 8 => some ((a + 2 ^ 64 - b) % 2 ^ 64)
  | 9 => some (Nat.land a b)
  | 10 => some (Nat.min a b)
  | 11 => some (Nat.max a b)
  | _ => if b == 0 || b > 2 ^ 17 then none else some (a % b)

/-- An ALU word. The carry flag is stated for CMP only; SUB computes the same difference, and other operations leave it
open (log entry 56). -/
def State.alu (s : State) (r : RigRun) (w : List Nat) : State × RigRun :=
  let a := r.reg (uRa w)
  let b := r.b w
  let op := uOp w
  let (s1, v) := match aluResult op a b with
    | some v => (s, v)
    | none => (s.draw, s.freeVal % 2 ^ 64)
  let r1 := if op == 8 || op == 9 then r else r.setReg (uRd w) v
  if !uSetf w then (s1, r1)
  else
    let known := op == 2 || op == 8
    let c := if known then decide (a < b) else s1.freeVal % 2 == 1
    (if known then s1 else s1.draw, { r1 with z := v == 0, n := bitOf v 63, c := c })

/-- The ones' complement sum of a value's 16-bit pieces. -/
def ocSum (v width : Nat) : Nat :=
  (List.range ((width + 15) / 16)).foldl (fun a i => a + bitsOf v (16 * i + 15) (16 * i)) 0

/-- A sum folded to 16 bits. -/
def fold16 (v : Nat) : Nat :=
  let a := v % 65536 + v / 65536
  let b := a % 65536 + a / 65536
  b % 65536 + b / 65536

/-- RFC 1624: a checksum updated for a change of a value. -/
def csumUpdate (hc old new width : Nat) : Nat :=
  65535 - fold16 ((65535 - hc) + ocSum (2 ^ (16 * ((width + 15) / 16)) - 1 - old) width + ocSum new width)

/-- A header base is the UDP header of an IPv4 packet. -/
def udpOverV4 (p : Pkt) (lay : Nat) : Bool :=
  let inner := lay == 6
  (lay == 3 || lay == 6) && ((p.par.roleLayer 3 inner).elim false fun l => l.ltype == 0x0C)
    && !isIpv6 (p.par.roleLayer 2 inner)

/-- CSUM at one place of the edit buffer (R278, R46). -/
def csumAt (p : Pkt) (lay off old new width : Nat) : Pkt :=
  match layBase p lay with
  | none => p
  | some b =>
    let hc := beAt p.head (b + off) 2
    if udpOverV4 p lay && hc == 0 then p
    else
      let v := csumUpdate hc (old % 2 ^ width) (new % 2 ^ width) width
      { p with head := putBytes p.head (b + off) (bytesBE 2 (if udpOverV4 p lay && v == 0 then 65535 else v)) }

/-- Tokens of a policer bucket after `dt` ns (R286). -/
def refillTokens (tokens cap rate dt : Nat) : Nat := Nat.min cap (tokens + dt * rate / 8000000)

/-- POL: the two-rate three-colour meter of R286. -/
def State.police (s : State) (p : Pkt) (r : RigRun) (w : List Nat) : State × RigRun :=
  let index := bitsOf (wordAt r.image 7) 31 16
  match if index < 16384 then SMap.find? s.rig.policers index else none with
  | none => ((s.count (C.rigPolBadprof p.pipe)).count (C.rigPolRed p.pipe), r.setReg (uRd w) 2)
  | some q =>
    let full := wrapDiff s.coarseNow (iLastSeen r.image) 32 ≥ 2048
    let dt := (wrapDiff (shortTime s.now) (wordAt r.image 4) 32).toNat
    let tc := if full then q.cbs else refillTokens (wordAt r.image 6) q.cbs q.cir dt
    let tp := if full then q.pbs else refillTokens (wordAt r.image 5) q.pbs q.pir dt
    let n := r.len
    let (c, tc', tp') :=
      if (q.aware && p.colour == 2) || tp < n then (2, tc, tp)
      else if (q.aware && p.colour == 1) || tc < n then (1, tc, tp - n)
      else (0, tc - n, tp - n)
    let s1 := if c == 1 then s.count (C.rigPolYellow p.pipe) else if c == 2 then s.count (C.rigPolRed p.pipe) else s
    let put := fun (x : State × RigRun) (e : Nat × Nat) => x.1.recWrite p x.2 e.1 0xFFFFFFFF e.2
    let (s2, r1) := [(6, tc'), (5, tp'), (4, shortTime s.now)].foldl put (s1, r)
    (s2, r1.setReg (uRd w) c)

/-- Layers after a splice point move. -/
def moveLayers (par : ParseRes) (at_ : Nat) (d : Int) : ParseRes :=
  let mv := fun (x : Nat) => if x ≥ at_ then ((x : Int) + d).toNat else x
  { par with layers := par.layers.map fun l => { l with start := mv l.start, stop := mv l.stop }
             scans := par.scans.map fun o => o.map mv
             ptp := par.ptp.map fun e => (mv e.1, e.2) }

/-- SPLICE: none where the packet's net growth would pass 64 bytes (R278). -/
def splice (p : Pkt) (at_ : Nat) (n : Int) : Option Pkt :=
  let g := p.growth + n
  if n > 64 || n < -64 || g > 64 || g < -64 then none
  else
    let head := if n ≥ 0 then p.head.take at_ ++ List.replicate n.toNat 0 ++ p.head.drop at_
      else p.head.take at_ ++ p.head.drop (at_ + (-n).toNat)
    some { p with head := head, growth := g, par := moveLayers p.par (if n ≥ 0 then at_ else at_ + (-n).toNat) n,
                  edited := true }

/-- A 64-bit number as a signed one. -/
def signed64 (v : Nat) : Int := if v ≥ 2 ^ 63 then (v : Int) - 2 ^ 64 else v

/-- PKT operations (R278); true where a splice faults. -/
def State.pktOp (s : State) (p : Pkt) (r : RigRun) (w : List Nat) : State × Pkt × Bool :=
  let b := r.b w
  match uOp w with
  | 0 => (s, { p with fwdOp := bitsOf (uImm w) 19 18, fwdTarget := bitsOf (uImm w) 17 0 }, false)
  | 1 => (s.count (C.rigProg p.pipe (uImm w % 4096)), { p with dropped := true }, false)
  | 2 => (s, { p with copies := addCopy p.copies (s.trapReq p) }, false)
  | 3 => (s, { p with cls := b % 8 }, false)
  | 4 => (s, { p with colour := b % 4 }, false)
  | 5 => (s, { p with mirrors := if p.mirrors.contains (b % 64) then p.mirrors else p.mirrors ++ [b % 64] }, false)
  | 6 => (s, { p with again := some (uImm w % 256, bitOf (uImm w) 8) }, false)
  | 7 => (s, { p with mcast := some (b % 65536) }, false)
  | 8 => (s, { p with verdict := b % 4 }, false)
  | 9 =>
    match layBase p (uLay w) with
    | none => (s, p, false)
    | some base => match splice p (base + uOffset w + uLo w / 8) (signed64 (uImm w)) with
      | some q => (s, q, false)
      | none => (s, p, true)
  | _ => (s, p, false)

/-- CNT (R287). -/
def State.cntOp (s : State) (p : Pkt) (r : RigRun) (w : List Nat) : State × RigRun :=
  if uOp w == 1 then (s.count (C.rigProg p.pipe (uImm w % 4096)) (r.reg (uRb w)), r)
  else if p.ans.isNone then (s, r)
  else
    (s, { r with image := setAt (imCounts r.image r.len 1) 8 s.coarseNow, addBytes := r.addBytes + r.len,
                 addPackets := r.addPackets + 1, lastSeen := some s.coarseNow })

/-- A microword whose condition holds, carried out; true where a splice faults. Its program counter is the next word's
unless it branches. -/
def State.execWord (s : State) (p : Pkt) (r : RigRun) (w : List Nat) : State × Pkt × RigRun × Bool :=
  match uUnit w with
  | 0 => let (s1, r1) := s.alu r w; (s1, p, r1, false)
  | 1 => (s, p, r.setReg (uRd w) (loadField p r w), false)
  | 2 => let (s1, p1, r1) := s.storeField p r w (r.b w); (s1, { p1 with edited := p1.edited || uSpace w == 1 }, r1, false)
  | 3 => (s, p, { r with pc := if uOp w == 1 then r.reg (uRa w) % 8192 else uTarget w }, false)
  | 4 =>
    let a := r.reg (uRa w)
    let b := r.reg (uRb w)
    let p1 := csumAt p (uLay w) (uOffset w) a b (uWidth w)
    let x := uAux w
    let p2 := if bitOf x 18 then csumAt p1 (bitsOf x 17 15) (bitsOf x 14 6) a b (uWidth w) else p1
    (s, { p2 with edited := true }, r, false)
  | 5 =>
    let n := uAux w % 8 + 1
    (s, p, r.setReg (uRd w)
      (Config.hash 12 (r.reg (uRb w)) ((List.range n).map fun i => r.reg ((uRa w + i) % 16)) % 2 ^ 32), false)
  | 6 =>
    let kind := bitsOf (uAux w) 18 17
    let n := if kind == 0 then 5 else if kind == 3 then 6 else 1
    (s, p, { r with call := some (kind, bitsOf (uAux w) 16 13, (List.range n).map fun i => r.reg ((uRa w + i) % 16)) },
      false)
  | 7 => let (s1, r1) := s.police p r w; (s1, p, r1, false)
  | 8 => let (s1, r1) := s.cntOp p r w; (s1, p, r1, false)
  | 9 => (s, p, r.setReg (uRd w) (if uAux w % 2 == 1 then s.coarseNow else shortTime s.now), false)
  | 10 => let (s1, p1, f) := s.pktOp p r w; (s1, p1, r, f)
  | 11 => (s, p, { r with trans := true }, false)
  | _ => (s, p, r, false)

/-- How a stretch of a run came to its end. -/
inductive RunEnd where
  | done
  /-- A table call is out. -/
  | waits
  /-- The cycle limit, or a fetch outside the region. -/
  | overrun
  | spliceFault
  /-- A parity error on a fetch: the word, the quarters. -/
  | machineCheck (addr quarters : Nat)
  deriving DecidableEq, Repr

/-- A run from its program counter on (R275, R276, R279, R292): every fetch checks the word's parity. A word that ends the
run by
its limit ends it well. Every word takes at least a cycle, so `fuel` beyond the limit is never used. -/
def State.runFrom : Nat → State → Pkt → RigRun → State × Pkt × RigRun × RunEnd
  | 0, s, p, r => (s, p, r, .overrun)
  | fuel + 1, s, p, r =>
    if r.pc / 4096 != r.region then (s, p, r, .overrun)
    else
      let w := s.fetchWord p.pipe r.pc
      if badQuarters w != 0 then (s, p, r, .machineCheck r.pc (badQuarters w))
      else
        let on := condTrue r p (uCond w)
        let r1 := { r with pc := r.pc + 1, cycles := r.cycles + uDur w }
        let (s2, p2, r2, fault) := if on then s.execWord p r1 w else (s, p, r1, false)
        if fault then (s2, p2, r2, .spliceFault)
        else if r2.call.isSome then (s2, p2, { r2 with last := on && uEnd w }, .waits)
        else if on && uEnd w && r2.cycles ≤ r2.limit then (s2, p2, r2, .done)
        else if r2.cycles ≥ r2.limit then (s2, p2, r2, .overrun)
        else State.runFrom fuel s2 p2 r2

end Sys2Proof.Machine
end

