-- ==== Sys2Proof/Machine/Programs.lean ====
section
/-! DEFINITION. The standard programs (R293 to R299): what an entry point of the standard image does, where the store
holds that image. Its microwords are not printed, so the programs stand as the spec states them (log entry 57). -/

namespace Sys2Proof.Machine

/-- A packet in a standard program: the device, the packet and its run. -/
structure Prog where
  s : State
  p : Pkt
  r : RigRun
  deriving DecidableEq, Repr

/-- How a program goes on: it ends, or a table call is out with its kind and words (R285). -/
inductive ProgEnd where
  | done
  | calls (kind : Nat) (words : List Nat)
  deriving DecidableEq, Repr

/-- A record write of a program, bits `hi` down to `lo` of an image word, made only where it changes the value. -/
def Prog.put (c : Prog) (word hi lo v : Nat) : Prog :=
  let w := wordAt c.r.image word
  if bitsOf w hi lo == v % 2 ^ (hi - lo + 1) then c
  else
    let mask := (2 ^ (hi - lo + 1) - 1) <<< lo
    let (s1, r1) := c.s.recWrite c.p c.r word mask (v <<< lo)
    { c with s := s1, r := r1 }

/-- A count of RIG_PROG (R293). -/
def Prog.count (c : Prog) (n : Nat) : Prog := { c with s := c.s.count (C.rigProg c.p.pipe n) }

/-- The packet dropped with its RIG_PROG reason. -/
def Prog.drop (c : Prog) (n : Nat) : Prog := { c.count n with p := { c.p with dropped := true } }

/-- CNT FLOW. -/
def Prog.countFlow (c : Prog) : Prog :=
  let (s1, r1) := c.s.cntOp c.p c.r [0, 0, 0, 0, 0, 0]
  { c with s := s1, r := r1 }

/-- The lookup came through a dir-1 slot. -/
def Prog.dir (c : Prog) : Nat := c.p.ans.elim 0 (·.dir)
/-- The record is provisional. -/
def Prog.isNew (c : Prog) : Bool := c.p.ans.elim false (·.setupPending)
/-- A field of rig_meta. -/
def Prog.rm (c : Prog) (hi lo : Nat) : Nat := bitsOf c.p.rigMeta hi lo
/-- Bytes of the record. -/
def Prog.recBytes (c : Prog) (off n : Nat) : List Nat := bytesAt (c.r.image.flatMap (bytesLE 4)) off n

/-! ## Headers of the packet: the outer ones (log entry 57) -/

/-- The first layer of a role. -/
def Prog.layer (c : Prog) (role : Nat) : Option Layer := c.p.par.roleLayer role false
/-- Its L3 start, where it is of a type: 4 IPv4, 5 IPv6. -/
def Prog.l3 (c : Prog) (t : Nat) : Option Nat := (c.layer 2).bind fun l => if l.ltype == t then some l.start else none
/-- The L4 header's type and start: 9 ICMP, 10 ICMPv6, 11 TCP, 12 UDP. -/
def Prog.l4 (c : Prog) : Option (Nat × Nat) := (c.layer 3).map fun l => (l.ltype, l.start)

/-- Bytes of the packet written. -/
def Prog.poke (c : Prog) (at_ : Nat) (bs : List Nat) : Prog :=
  { c with p := { c.p with head := putBytes c.p.head at_ bs, edited := true } }

/-- A 16-bit checksum at a place updated for bytes that change (RFC 1624); of UDP over IPv4 under the rule of R46. -/
def Prog.fix (c : Prog) (at_ : Nat) (udp4 : Bool) (old new : List Nat) : Prog :=
  let hc := beAt c.p.head at_ 2
  if udp4 && hc == 0 then c
  else
    let wo := 8 * old.length
    let wn := 8 * new.length
    let v := 65535 - fold16 ((65535 - hc) + ocSum (2 ^ wo - 1 - numBE old) wo + ocSum (numBE new) wn)
    c.poke at_ (bytesBE 2 (if udp4 && v == 0 then 65535 else v))

/-- Where an L4 header's checksum stands. -/
def ckOff (t : Nat) : Nat := if t == 0x0B then 16 else if t == 0x0C then 6 else 2

/-- An ICMP message is an echo, which alone has an identifier to rewrite (R244, R295). -/
def Prog.echoAt (c : Prog) (l4 : Nat) : Bool :=
  let t := c.p.head.getD l4 0
  t == 8 || t == 0

/-- An address and the port beside it rewritten over IPv4, with both checksums: `src` the source side, else the
destination. The echo identifier of ICMP stands for either port. -/
def Prog.rewrite4 (c : Prog) (src : Bool) (addr port : List Nat) : Prog :=
  match c.l3 4 with
  | none => c
  | some l3 =>
    let ao := l3 + (if src then 12 else 16)
    let oldA := bytesAt c.p.head ao 4
    let c1 := (c.fix (l3 + 10) false oldA addr).poke ao addr
    match c1.l4 with
    | none => c1
    | some (t, l4) =>
      if t != 0x0B && t != 0x0C && !(t == 0x09 && c1.echoAt l4) then c1
      else
        let po := if t == 0x09 then l4 + 4 else l4 + (if src then 0 else 2)
        let oldP := bytesAt c1.p.head po 2
        let c2 := if t == 0x09 then c1 else c1.fix (l4 + ckOff t) (t == 0x0C) oldA addr
        (c2.fix (l4 + ckOff t) (t == 0x0C) oldP port).poke po port

/-! ## TCP state (R294) -/

/-- What a TCP event does: the next state and tclass, the direction of the first FIN, whether the packet is dropped, and
whether a flow is reopened; none where nothing changes. -/
structure TcpNext where
  code : Nat
  fin : Nat
  tclass : Nat
  dropped : Bool
  reopen : Bool
  deriving DecidableEq, Repr

/-- The table of R294: RST before the other rows, then the rows in order. -/
def tcpNext (code fin dir flags : Nat) (second : Bool) : Option TcpNext :=
  let isFin := bitOf flags 0
  let syn := bitOf flags 1
  let rst := bitOf flags 2
  let ack := bitOf flags 4
  let drop : Option TcpNext := some ⟨code, fin, 0, true, false⟩
  if rst && 1 ≤ code && code ≤ 5 then some ⟨6, fin, 2, false, false⟩
  else if code == 1 && syn && dir == 0 then some ⟨1, fin, 1, false, false⟩
  else if (code == 1 || code == 2) && syn && ack && dir == 1 then some ⟨2, fin, 1, false, false⟩
  else if code == 1 && ack && !syn && dir == 0 && !second then some ⟨3, fin, 0, false, false⟩
  else if code == 2 && ack && !syn && dir == 0 then some ⟨3, fin, 0, false, false⟩
  else if code == 1 || code == 2 then drop
  else if code == 3 && isFin then some ⟨4, dir, 2, false, false⟩
  else if code == 3 && syn then drop
  else if code == 4 && isFin && dir != fin then some ⟨5, fin, 2, false, false⟩
  else if (code == 5 || code == 6) && syn && !ack && dir == 0 then some ⟨1, 0, 1, false, true⟩
  else none

/-- State, direction of the first FIN and tclass written. -/
def Prog.tcpSet (c : Prog) (code fin tclass : Nat) : Prog :=
  ((c.put 15 26 24 code).put 15 27 27 fin).put 15 31 30 tclass

/-- The TCP step of a program (R294): true where the packet is dropped. A provisional record takes its first state. -/
def Prog.tcp (c : Prog) : Prog × Bool :=
  match c.l4 with
  | some (0x0B, l4) =>
    if c.p.ans.isNone || c.p.par.fragment then (c, false)
    else
      let flags := c.p.head.getD (l4 + 13) 0
      let w := wordAt c.r.image 15
      if c.isNew then
        (if bitOf flags 1 && !bitOf flags 4 && !bitOf w 21 then c.tcpSet 1 0 1 else c.tcpSet 3 0 0, false)
      else
        match tcpNext (bitsOf w 26 24) (bitsOf w 27 27) c.dir flags (bitOf w 22) with
        | none => (c, false)
        | some n =>
          if n.dropped then (c.drop 0, true)
          else ((if n.reopen then c.count 1 else c).tcpSet n.code n.fin n.tclass, false)
  | _ => (c, false)

/-! ## NAT44 (R295) -/

/-- The endpoint on the far side: for dir 0 the destination, for dir 1 the source; its port or echo identifier. -/
def Prog.remote (c : Prog) (l3 : Nat) : List Nat × Nat :=
  let side := if c.dir == 0 then 2 else 0
  let addr := bytesAt c.p.head (l3 + 12 + 2 * side) 4
  let port := match c.l4 with
    | some (t, l4) => if t == 0x09 then beAt c.p.head (l4 + 4) 2 else beAt c.p.head (l4 + side) 2
    | none => 0
  (addr, port)

/-- The permit list: address, port and time of its seven entries, words 28 to 41. -/
def Prog.permits (c : Prog) : List (Nat × Nat × Nat) := (List.range 7).map fun i =>
  (wordAt c.r.image (28 + 2 * i), bitsOf (wordAt c.r.image (29 + 2 * i)) 31 16, bitsOf (wordAt c.r.image (29 + 2 * i)) 15 0)

/-- The entry a new endpoint takes: an empty one, else the oldest. -/
def permitSlot (now : Nat) (l : List (Nat × Nat × Nat)) : Nat :=
  match l.findIdx? fun e => e.1 == 0 && e.2.1 == 0 with
  | some i => i
  | none =>
    (l.zipIdx.foldl (fun (a : Nat × Int) e =>
      let age := wrapDiff (now % 65536) e.1.2.2 16
      if age > a.2 then (e.2, age) else a) (0, -32769)).1

/-- Address-and-port-dependent filtering: true where the packet is dropped. -/
def Prog.filter (c : Prog) (l3 : Nat) : Prog × Bool :=
  if c.rm 10 10 == 0 then (c, false)
  else
    let (a, port) := c.remote l3
    let l := c.permits
    if l.any fun e => e.1 == numBE a && e.2.1 == port then (c, false)
    else if c.dir == 1 then (c.drop 2, true)
    else
      let i := permitSlot c.s.coarseNow l
      let old := l.getD i (0, 0, 0)
      let c1 := if old.1 == 0 && old.2.1 == 0 then c else c.count 3
      ((c1.put (28 + 2 * i) 31 0 (numBE a)).put (29 + 2 * i) 31 0 (port <<< 16 + c.s.coarseNow % 65536), false)

/-- The inbound key of a hairpinned packet: its own translation as source, under the profile and VRF of the record's
second key. -/
def Prog.inboundKey (c : Prog) (dst : List Nat) (dport proto : Nat) : List Nat :=
  let second := (secondKey (c.p.ans.elim 0 (·.size)) c.r.image).getD []
  let prof := kProfile second
  let src := mapped4 (iXlateAddr c.r.image)
  let k := mkKey 0 0 src (List.replicate 10 0 ++ [255, 255] ++ dst) (iXlatePort c.r.image) dport proto
  completeKey k (SMap.getD c.s.cls.flowProf prof []) prof (beAt second 1 3)

/-- Destination and source of a hairpinned packet rewritten, and a pass without lookup asked for (RIG_PROG[4]); the
record found stands in TBL. -/
def Prog.hairpin (c : Prog) (tbl : List Nat) : Prog :=
  let key := tbl.flatMap (bytesLE 4)
  let c1 := c.rewrite4 false (bytesAt key 16 4) (bytesAt key 36 2)
  let c2 := c1.rewrite4 true (bytesBE 4 (iXlateAddr c.r.image)) (bytesBE 2 (iXlatePort c.r.image))
  { c2.count 4 with p := { c2.p with again := some (c.s.startOf c.p, true) } }

/-- A row of the DIRECT table (R285); one never written reads as zero. -/
def State.directRow (s : State) (row : Nat) : List Nat := SMap.getD s.rig.direct row [0, 0, 0, 0]

/-- A destination lies in the outside range that a pool's DIRECT summary gives (R285, R295; log entry 266). -/
def State.inOutside (s : State) (pool addr : Nat) : Bool :=
  let row := s.directRow (natRow pool)
  pool < 64 && decide (wordAt row 0 ≤ addr) && decide (addr < wordAt row 0 + wordAt row 1)

/-- The translation itself. -/
def Prog.translate (c : Prog) (l3 : Nat) : Prog × ProgEnd :=
  if c.dir == 1 then (c.rewrite4 false (c.recBytes 80 4) (c.recBytes 100 2), .done)
  else
    let (dst, dport) := c.remote l3
    if c.s.inOutside (c.rm 9 0) (numBE dst) then
      match c.r.results with
      | [] =>
        let key := c.inboundKey dst dport (c.p.head.getD (l3 + 9) 0)
        (c, .calls 3 ((List.range 6).map fun i => beAt key (8 * i) 8))
      | (true, tbl) :: _ => (c.hairpin tbl, .done)
      | (false, _) :: _ => (c.drop 5, .done)
    else (c.rewrite4 true (bytesBE 4 (iXlateAddr c.r.image)) (bytesBE 2 (iXlatePort c.r.image)), .done)

/-- Entry points 2 and 3: NAT44, with TCP state in entry 2. -/
def Prog.nat44 (c : Prog) (withTcp : Bool) : Prog × ProgEnd :=
  if c.p.par.fragment then (c.drop 6, .done)
  else
    let (c1, bad1) := if withTcp then c.tcp else (c, false)
    if bad1 then (c1, .done)
    else
      match c1.l3 4 with
      | none => (c1.countFlow, .done)
      | some l3 =>
        let (c2, bad2) := c1.filter l3
        if bad2 then (c2, .done) else c2.countFlow.translate l3

/-! ## NAT64 (R296) -/

/-- Bytes at a place of the edit buffer replaced by others, the layers moved. -/
def Prog.spliceAt (c : Prog) (at_ : Nat) (n : Int) : Prog :=
  match splice c.p at_ n with
  | some q => { c with p := q }
  | none => c

/-- The type of the L3 layer after a translation. -/
def Prog.setL3 (c : Prog) (l3 t : Nat) : Prog :=
  { c with p := { c.p with par := { c.p.par with
      layers := c.p.par.layers.map fun l => if l.start == l3 && l.role == 2 then { l with ltype := t } else l } } }

/-- An IPv4 header's checksum over its 20 bytes with a zero checksum field. -/
def headerSum (bs : List Nat) : Nat := 65535 - fold16 (ocSum (numBE bs) 160)

/-- The next headers of the IPv6 extension headers that the standard graph knows (R116): hop-by-hop, routing, fragment and
destination options. -/
def ipv6Extension (nh : Nat) : Bool := [0, 43, 44, 60].contains nh

/-- NAT64 towards IPv4: TCP, UDP and ICMPv6 echo with their ports and checksums, SCTP with its port, any other protocol
with its header
alone (log entry 267). -/
def Prog.to4 (c : Prog) (l3 : Nat) : Prog :=
  let h := bytesAt c.p.head l3 40
  let plen := beAt h 4 2
  let nh := h.getD 6 0
  let src := bytesBE 4 (iXlateAddr c.r.image)
  let dst := c.recBytes 224 4
  let proto := if nh == 58 then 1 else nh
  let tos := beAt h 0 2 / 16 % 256
  let hdr := [0x45, tos] ++ bytesBE 2 (plen + 20) ++ [0, 0, 0x40, 0, h.getD 7 0, proto, 0, 0] ++ src ++ dst
  let full := putBytes hdr 10 (bytesBE 2 (headerSum hdr))
  let c1 := ((c.spliceAt l3 (-20)).poke l3 full).poke (l3 - 2) [0x08, 0x00]
  let c2 := c1.setL3 l3 4
  let l4 := l3 + 20
  let port := bytesBE 2 (iXlatePort c.r.image)
  let t := c2.p.head.getD l4 0
  if nh == 58 && (t == 128 || t == 129) then
    let t' := if t == 128 then 8 else 0
    let pseudo := bytesAt h 8 32 ++ bytesBE 4 plen ++ [0, 0, 0, 58]
    let c3 := c2.fix (l4 + 2) false (pseudo ++ [t, 0] ++ bytesAt c2.p.head (l4 + 4) 2) ([t', 0] ++ port)
    (c3.poke l4 [t']).poke (l4 + 4) port
  else if nh == 6 || nh == 17 then
    let ck := l4 + (if nh == 6 then 16 else 6)
    let c3 := c2.fix ck (nh == 17) (bytesAt h 8 32 ++ bytesAt c2.p.head l4 2) (src ++ dst ++ port)
    c3.poke l4 port
  else if nh == 132 then c2.poke l4 port else c2

/-- NAT64 towards IPv6. -/
def Prog.to6 (c : Prog) (l3 : Nat) : Prog :=
  let h := bytesAt c.p.head l3 20
  let plen := beAt h 2 2 - 20
  let pr := h.getD 9 0
  let nh := if pr == 1 then 58 else pr
  let src := c.recBytes 84 16
  let dst := c.recBytes 68 16
  let tos := h.getD 1 0
  let hdr := bytesBE 4 (6 <<< 28 + tos <<< 20) ++ bytesBE 2 plen ++ [nh, h.getD 8 0] ++ src ++ dst
  let c1 := ((c.spliceAt l3 20).poke l3 hdr).poke (l3 - 2) [0x86, 0xDD]
  let c2 := c1.setL3 l3 5
  let l4 := l3 + 40
  let port := c.recBytes 100 2
  if pr == 1 && c2.echoAt l4 then
    let t := c2.p.head.getD l4 0
    let t' := if t == 8 then 128 else 129
    let pseudo := src ++ dst ++ bytesBE 4 plen ++ [0, 0, 0, 58]
    let c3 := c2.fix (l4 + 2) false ([t, 0] ++ bytesAt c2.p.head (l4 + 4) 2) (pseudo ++ [t', 0] ++ port)
    (c3.poke l4 [t']).poke (l4 + 4) port
  else if pr == 6 || pr == 17 then
    let ck := l4 + (if pr == 6 then 16 else 6)
    let c3 := c2.fix ck false (bytesAt h 12 8 ++ bytesAt c2.p.head (l4 + 2) 2) (src ++ dst ++ port)
    c3.poke (l4 + 2) port
  else if pr == 132 then c2.poke (l4 + 2) port else c2

/-- Entry point 4. -/
def Prog.nat64 (c : Prog) : Prog :=
  if c.dir == 0 then
    match c.l3 5 with
    | none => c.countFlow
    | some l3 =>
      let nh := c.p.head.getD (l3 + 6) 0
      if ipv6Extension nh then c.drop 7 else c.countFlow.to4 l3
  else
    match c.l3 4 with
    | none => c.countFlow
    | some l3 =>
      let options := c.p.head.getD l3 0 % 16 != 5
      let frag := beAt c.p.head (l3 + 6) 2 % 0x4000 != 0
      let noSum := c.p.head.getD (l3 + 9) 0 == 17 && beAt c.p.head (l3 + 26) 2 == 0
      if options || frag || noSum then c.drop 7 else c.countFlow.to6 l3

/-! ## Load balancing (R297) -/

/-- A backend's state: 0 ACTIVE, 1 DRAIN, 2 DOWN. -/
def State.backendState (s : State) (b : Nat) : Nat := bitsOf (wordAt (s.directRow b) 1) 1 0

/-- The pool row's DIRECT row. -/
def poolRow (pool : Nat) : Nat := 16384 + pool

/-- The backend that a slot-table row names for a slot: two bytes. -/
def slotBackend (tbl : List Nat) (slot : Nat) : Nat := numLE (bytesAt (tbl.flatMap (bytesLE 4)) (2 * (slot % 32)) 2)

/-- The address and port of a backend pinned to the record. -/
def Prog.pin (c : Prog) (b : Nat) : Prog :=
  let row := c.s.directRow b
  ((c.put 13 31 0 (wordAt row 0)).put 12 31 16 (bitsOf (wordAt row 1) 31 16)).put 12 15 0 b

/-- The probes of a selection: up to eight slots, each an HBM call; a poisoned row names no backend (R387). -/
def Prog.probe (c : Prog) (base start : Nat) : Nat → List (Bool × List Nat) → Prog × ProgEnd
  | n, [] => if n ≥ 8 then (c.drop 8, .done) else (c, .calls 2 [base + (start + n) % 65537 / 32])
  | n, (hit, tbl) :: rest =>
    if n ≥ 8 then (c.drop 8, .done)
    else
      let b := slotBackend tbl ((start + n) % 65537)
      if hit && c.s.backendState b == 0 then (c.pin b, .done) else Prog.probe c base start (n + 1) rest

/-- The selection of a backend for the packet. -/
def Prog.select (c : Prog) : Prog × ProgEnd :=
  let row := c.s.directRow (poolRow (c.rm 9 0))
  let l3 := (c.l3 4).getD 0
  let l4 := (c.l4).elim 0 (·.2)
  let data := [beAt c.p.head (l3 + 12) 4, beAt c.p.head l4 2, beAt c.p.head (l3 + 16) 4, beAt c.p.head (l4 + 2) 2,
    c.p.head.getD (l3 + 9) 0]
  Prog.probe c (wordAt row 1) (Config.hash 14 (wordAt row 0) data % 65537) 0 c.r.results

/-- Entry point 5. -/
def Prog.balance (c : Prog) : Prog × ProgEnd :=
  let (c1, bad) := c.tcp
  if bad then (c1, .done)
  else if c1.dir == 1 then
    (c1.countFlow.rewrite4 true (c1.recBytes 96 4) (c1.recBytes 102 2), .done)
  else
    let down := !c1.isNew && c1.s.backendState (iXlateAux c1.r.image) == 2
    let (c2, e) := if c1.isNew || down then (if down then c1.count 9 else c1).select else (c1, .done)
    match e with
    | .calls k w => (c2, .calls k w)
    | .done =>
      if c2.p.dropped then (c2, .done)
      else
        (c2.countFlow.rewrite4 false (bytesBE 4 (iXlateAddr c2.r.image)) (bytesBE 2 (iXlatePort c2.r.image)), .done)

/-! ## Policing, FRER and telemetry (R286, R298, R299) -/

/-- Entry point 6: the standard policing program. -/
def Prog.policing (c : Prog) : Prog :=
  let (s1, r1) := c.s.police c.p c.r [0, 0, 0, 0, 0, 1 <<< 12]
  let colour := r1.reg 1
  let c1 := (({ c with s := s1, r := r1 } : Prog).put 7 15 14 colour).countFlow
  if colour == 2 then c1.drop 10 else { c1 with p := { c1.p with colour := colour } }

/-- Entry point 7: FRER_GEN. -/
def Prog.frerGen (c : Prog) : Prog :=
  let seq := bitsOf (wordAt c.r.image 14) 15 0
  let at_ := (c.layer 2).elim (tagEnd c.p.head 3 12) fun l => l.start - 2
  let c1 := ((c.put 14 15 0 (seq + 1)).countFlow.spliceAt at_ 6).poke at_ ([0xF1, 0xC1, 0, 0] ++ bytesBE 2 seq)
  if c.rm 15 0 == 0 then c1 else { c1 with p := { c1.p with mcast := some (c.rm 15 0) } }
where
  /-- Where the EtherType after the VLAN tags stands. -/
  tagEnd (head : List Nat) : Nat → Nat → Nat
    | 0, off => off
    | n + 1, off =>
      if beAt head off 2 == 0x8100 || beAt head off 2 == 0x88A8 then tagEnd head n (off + 4) else off

/-- The vector recovery of R298: last, history, take_any, the verdict and the RIG_PROG it counts. -/
def frerRecover (seq last hist : Nat) (takeAny expired : Bool) : Nat × Nat × Bool × Nat × Option Nat :=
  if takeAny || expired then (seq, 1, false, 1, if takeAny then none else some 14)
  else
    let d := wrapDiff seq last 16
    if d ≥ 64 || d ≤ -64 then (last, hist, false, 2, some 12)
    else if d > 0 then (seq, Nat.lor ((hist <<< d.toNat) % 2 ^ 64) 1, false, 1, none)
    else if bitOf hist (-d).toNat then (last, hist, false, 2, some 11)
    else (last, putBit hist (-d).toNat true, false, 1, some 13)

/-- Entry point 8: FRER_RCV. A frame without an R-TAG passes without a verdict. -/
def Prog.frerRcv (c : Prog) : Prog :=
  let at_ := Prog.frerGen.tagEnd c.p.head 3 12
  if beAt c.p.head at_ 2 != 0xF1C1 then c.countFlow
  else
    let seq := beAt c.p.head (at_ + 4) 2
    let im := c.r.image
    let hist := wordAt im 46 + wordAt im 47 * 2 ^ 32
    let reset := c.rm 23 16
    let expired := reset > 0 && decide (wrapDiff c.s.coarseNow (iLastSeen im) 32 > (reset : Int))
    let (last', hist', take', v, n) := frerRecover seq (bitsOf (wordAt im 45) 31 16) hist (bitOf (wordAt im 45) 15) expired
    let c1 := n.elim c fun k => c.count k
    let c2 := ((c1.put 45 31 16 last').put 45 15 15 (b2n take')).put 46 31 0 (hist' % 2 ^ 32)
    let c3 := (c2.put 47 31 0 (hist' / 2 ^ 32)).countFlow
    let c4 : Prog := { c3 with p := { c3.p with verdict := v } }
    if v != 1 then c4
    else
      let c5 := if c.rm 11 11 == 1 then c4.spliceAt at_ (-6) else c4
      if c.rm 12 12 == 1 then { c5 with p := { c5.p with again := some (c.rm 31 24, false) } } else c5

/-- The RTT sample of a SYN+ACK (R299). -/
def Prog.rtt (c : Prog) : Prog :=
  let d := wrapDiff (shortTime (c.p.tIn / 2 ^ 16)) (wordAt c.r.image 3) 32
  let v := d.toNat
  let c1 := c.count 15
  let first := wordAt c.r.image 43 == 0 && wordAt c.r.image 44 == 0
  let c2 := if v > wordAt c1.r.image 43 then c1.put 43 31 0 v else c1
  if first || v < wordAt c.r.image 44 then c2.put 44 31 0 v else c2

/-- Entry point 9: telemetry, on each packet, also one that R294 drops. -/
def Prog.telemetry (c : Prog) : Prog :=
  let (c1, _) := c.tcp
  match c1.l4 with
  | some (0x0B, l4) =>
    if c1.p.par.fragment then c1.countFlow
    else
      let flags := c1.p.head.getD (l4 + 13) 0
      let c2 := c1.countFlow.put 42 31 24 (Nat.lor (bitsOf (wordAt c1.r.image 42) 31 24) flags)
      let synAck := bitOf flags 1 && bitOf flags 4
      let c3 := if bitOf flags 1 && c.dir == 0 then c2.put 3 31 0 (shortTime (c.p.tIn / 2 ^ 16))
        else if synAck && c.dir == 1 then c2.rtt else c2
      if bitOf flags 0 || bitOf flags 2 then c3.put 15 17 17 1 else c3
  | _ => c1.countFlow

/-! ## Entry points -/

/-- What an entry point of the standard image does (R289, R293): an entry it leaves undefined runs DEFAULT. -/
def Prog.entry (c : Prog) (e : Nat) : Prog × ProgEnd :=
  match e with
  | 1 => let (c1, bad) := c.tcp; (if bad then c1 else c1.countFlow, .done)
  | 2 => c.nat44 true
  | 3 => c.nat44 false
  | 4 => (c.nat64, .done)
  | 5 => c.balance
  | 6 => (c.policing, .done)
  | 7 => (c.frerGen, .done)
  | 8 => (c.frerRcv, .done)
  | 9 => (c.telemetry, .done)
  | _ => (c.countFlow, .done)

/-- Cycles of an entry point on its usual path (R293). -/
def usualCycles (e : Nat) : Nat := [1, 6, 10, 8, 16, 9, 7, 6, 9, 8].getD e 1

/-- A run of a standard program: the cycles are those of R293 on the usual path, a free value below the limit of a
program on every other (log entry 57). -/
def State.runStandard (s : State) (p : Pkt) (r : RigRun) : State × Pkt × RigRun × RunEnd :=
  match ({ s := s, p := p, r := r } : Prog).entry r.entry with
  | (_, .calls kind ws) => (s, p, { r with call := some (kind, 0, ws) }, .waits)
  | (c, .done) =>
    let usual := !c.isNew && !c.r.trans && r.results.isEmpty && (!c.p.dropped || r.entry == 6)
    let n := if usual then usualCycles r.entry - b2n (c.p.dropped && r.entry == 6) else c.s.freeVal % 2047 + 1
    let r1 := { c.r with cycles := r.cycles + n }
    (if usual then c.s else c.s.draw, c.p, r1, if r1.cycles > r1.limit then .overrun else .done)

/-- A word of a region whose parity fails in a pipeline, with the quarters that fail. -/
def State.damagedWord (s : State) (pipe region : Nat) : Option (Nat × Nat) :=
  s.rig.upsets.findSome? fun e =>
    let q := ((List.range 4).map fun q => b2n (oddOnes (quarterOf e.2 q) != bitOf (wordAt e.2 6) q) <<< q).sum
    if e.1 / 4096 == 2 * pipe + region && q != 0 then some (e.1 % 8192, q) else none

/-- A stretch of a run, by the standard program or by the store's microwords. Which words a standard program fetches is not
printed:
whether a run meets a damaged word of its region is a free value (log entry 57). -/
def State.runOn (s : State) (p : Pkt) (r : RigRun) : State × Pkt × RigRun × RunEnd :=
  if s.rig.standard.contains r.region then
    match s.damagedWord p.pipe r.region with
    | some (addr, q) => if s.freeVal % 2 == 1 then (s.draw, p, r, .machineCheck addr q) else s.draw.runStandard p r
    | none => s.runStandard p r
  else s.runFrom (r.limit + 1) p r

end Sys2Proof.Machine
end

