-- ==== Sys2Proof/Machine/Rig.lean ====
section
/-! DEFINITION. The rig stage: dispatch, runs, table calls, updates and their application at the owning shard, replays,
machine checks and contained restarts (R165, R206, R271 to R292). -/

namespace Sys2Proof.Machine

/-! ## Chaining (R272) -/

/-- The image a packet's run starts on: as the last run in its pipeline left it, else its answer's; where changes of that run
were discarded, the committed one (R25). -/
def State.chainImage (s : State) (pipe : Nat) (a : Answer) : List Nat :=
  let im := (SMap.getD s.rig.chains (chainKey pipe a.handle) (0, a.image)).2
  if im.isEmpty then s.committedImage pipe a else im

/-- A record's image in a pipeline as a run left it. -/
def State.setChain (s : State) (pipe handle : Nat) (im : List Nat) : State :=
  { s with rig := { s.rig with chains := SMap.modify s.rig.chains (chainKey pipe handle) fun c => (c.1, im) } }

/-- No other packet of the pipeline with the same record is in a rig or awaits an acknowledgement. -/
def State.chainFree (s : State) (id : Nat) (p : Pkt) : Bool :=
  match p.ans with
  | none => true
  | some a => !s.pk.pkts.any fun e =>
      e.1 != id && e.2.pipe == p.pipe && (e.2.stage == .rig || e.2.awaiting)
        && e.2.ans.elim false fun b => b.handle == a.handle

/-! ## Entry points (R165, R288) -/

/-- An entry point's cycle limit. -/
def entryLimit (w1 : Nat) : Nat := if bitsOf w1 28 20 == 0 then 2048 else 4 * bitsOf w1 28 20

/-- An entry point that a packet of an epoch may resolve. -/
def entryMember (w1 epoch : Nat) : Bool := bitOf w1 31 && bitOf w1 (if epoch % 2 == 1 then 30 else 29)

/-- An entry point's start word under an epoch. -/
def entryStart (w0 epoch : Nat) : Nat := if epoch % 2 == 1 then bitsOf w0 28 16 else bitsOf w0 12 0

/-- An entry point's two words. -/
def State.entryOf (s : State) (e : Nat) : Nat × Nat := SMap.getD s.rig.entries e (0, 0)

/-- What a packet runs: an entry point, and whether the record takes it with a new resolved epoch; none where the entry
point it would resolve is not a member of its epoch. -/
def State.resolveEntry (s : State) (p : Pkt) (im : List Nat) : Option (Nat × Bool) :=
  let own := pEntry (SMap.getD s.cls.flowProf (p.profile.getD 0) [])
  let fresh := p.ans.isNone || (pReeval (SMap.getD s.cls.flowProf (p.profile.getD 0) []) && p.epoch % 2 != iResEpoch im)
  if !fresh then some (iEntry im, false)
  else if entryMember (s.entryOf own).2 p.epoch then some (own, p.ans.isSome)
  else none

/-! ## Updates (R282, R283) -/

/-- The update a run sends for its packet's answer. -/
def runUpdate (id : Nat) (p : Pkt) (a : Answer) (r : RigRun) : Update :=
  let trans := r.trans && (!r.writes.isEmpty || r.addPackets > 0)
  { handle := a.handle, pipe := p.pipe, pkt := if trans || a.setupPending then some id else none, transition := trans,
    setup := a.setupPending, release := true,
    compare := if trans then comparedWords a.size r.start r.writes else [],
    writes := r.writes, addBytes := r.addBytes, addPackets := r.addPackets, lastSeen := r.lastSeen, partial_ := false,
    badEnd := false }

/-- An update sent to its shard; one for a record of a member that no link reaches is lost, and what waits for it goes on
without flow state (R557, R559). -/
def State.sendUpdate (s : State) (u : Update) : State :=
  let s1 := s.pushUpdate u
  match handleMember u.handle, u.pkt with
  | some m, some id =>
    if !(s.linksTo m).isEmpty then s1
    else
      match SMap.find? s1.pk.pkts id with
      | some p => if p.stage == .gone then (s1.modPkt id fun q => { q with ans := none, awaiting := false }).endPkt id p.dropped
        else s1.failTrigger id p.key
      | none => s1
  | _, _ => s1

/-- Updates sent to their shards. -/
def State.sendUpdates (s : State) (us : List Update) : State := us.foldl State.sendUpdate s

/-- A rig takes no packet now. -/
def State.freeRig (s : State) (pipe rig : Nat) : State := s.setBit F.rigCtrl_rigBusy pipe rig false

/-- A run ended (R282): its update is held while the frame arrives (R124), else sent. A dropped packet goes, at once or
after its updates; a drop with setup pending aborts the setup (R295). -/
def State.finishRun (s : State) (id : Nat) (p : Pkt) (r : RigRun) : State :=
  let s1 := (s.freeRig p.pipe r.rig).count (C.rigCycles p.pipe) r.cycles
  let q := { p with run := none, runs := p.runs + 1, stage := if p.dropped then .gone else .finished }
  match p.ans with
  | none => if p.dropped then (s1.modPkt id fun _ => q).dropPkt id else s1.modPkt id fun _ => q
  | some a =>
    let s2 := s1.setChain p.pipe a.handle r.image
    if p.dropped && a.setupPending then (s2.modPkt id fun _ => q).dropPkt id
    else
      let u := runUpdate id p a r
      let wait := u.transition || u.setup
      let q1 := { q with awaiting := wait, noCt := p.noCt || wait, counted := q.counted && !p.dropped }
      let q2 := { q1 with ans := if wait then p.ans else none }
      if p.arriving then (s2.modPkt id fun _ => { q2 with held := p.held ++ [u] }).syncEpoch p.pipe
      else
        let s3 := ((s2.modPkt id fun _ => q2).sendUpdates [u]).syncEpoch p.pipe
        if p.dropped && !wait then s3.dropPkt id else s3

/-! ## Machine check (R292) -/

/-- A packet from the dispatch window to the rig reorder stage. -/
def Pkt.inRigStage (p : Pkt) : Bool :=
  p.stage == .window || p.stage == .rig || p.stage == .finished || p.stage == .ackWait || p.stage == .gone

/-- A parity error on a fetch: the rig stage's packets are dropped and a contained restart begins. -/
def State.machineCheck (s : State) (pipe rig addr quarters : Nat) : State :=
  let ids := (s.pk.pkts.filter fun e => e.2.pipe == pipe && e.2.inRigStage).map Prod.fst
  let s1 := ids.foldl (fun t id => (t.dropPkt id).count (C.rigMchkDrop pipe)) s
  let s2 := if s1.getB F.rigEvent_mchkSeen pipe then s1
    else (((s1.setF F.rigEvent_mchkSeen pipe 1).setF F.rigEvent_mchkRig pipe rig).setF F.rigEvent_mchkParity pipe
      quarters).setF F.rigEvent_mchkAddr pipe addr
  let s3 := ((s2.setF F.rigCtrl_restartActive pipe 1).addF F.rigCtrl_restarts pipe 1).setF F.rigCtrl_rigBusy pipe 0
  { s3 with rig := { s3.rig with restarts := SMap.set s3.rig.restarts pipe ⟨s3.tm.ticks, false⟩,
                                 window := SMap.del s3.rig.window pipe } }.raise 0x4301 pipe

/-- Both store regions and the entry-point table of a pipeline written from the golden copy (R276, R292): what upsets
flipped in its
store is gone. -/
def State.reloadGolden (s : State) (pipe : Nat) : State :=
  { s with rig := { s.rig with
      store := s.rig.golden.1, entries := s.rig.golden.2.1, standard := s.rig.golden.2.2
      upsets := SMap.keep (fun k _ => k / 8192 != pipe) s.rig.upsets } }

/-- RIG_RESTART_COMPLETE (R292): the store and the entry table are reloaded from the golden copy; a golden-copy word that
cannot be read without error fails the restart. -/
def execRigRestartComplete (pipe : Nat) (goldenOk : Bool) (s : State) : Host.Outcome State Fault Refusal :=
  .next (match SMap.find? s.rig.restarts pipe with
    | none => s
    | some r =>
      if r.failed then s
      else if goldenOk then
        let t := s.reloadGolden pipe
        ({ t with rig := { t.rig with restarts := SMap.del t.rig.restarts pipe } }.setF F.rigCtrl_restartActive pipe
          0).endCondition 0x4301 pipe
      else
        ({ s with rig := { s.rig with restarts := SMap.set s.rig.restarts pipe { r with failed := true } } }.setF
          F.rigEvent_restartFailSeen pipe 1).endCondition 0x4301 pipe |>.raise 0x4302 pipe)

/-! ## Dispatch and runs (R271, R279) -/

/-- A stretch of a run has come to its end. -/
def settleRun (id : Nat) (x : State × Pkt × RigRun × RunEnd) : State :=
  let (t, p, r, e) := x
  match e with
  | .done => t.finishRun id p r
  | .waits => t.modPkt id fun _ => { p with run := some r }
  | .overrun =>
    ((((t.freeRig p.pipe r.rig).count (C.rigCycles p.pipe) r.cycles).count (C.rigOverrun p.pipe)).setF
      F.rigEvent_overrunSeen p.pipe 1).dropPkt id
  | .spliceFault =>
    ((((t.freeRig p.pipe r.rig).count (C.rigCycles p.pipe) r.cycles).count (C.rigSpliceFault p.pipe)).setF
      F.rigEvent_spliceFaultSeen p.pipe 1).dropPkt id
  | .machineCheck addr q => t.machineCheck p.pipe r.rig addr q

/-- The idle enabled rig that the round robin gives. -/
def State.idleRig (s : State) (pipe : Nat) : Option Nat :=
  let next := SMap.getD s.rig.nextRig pipe 0
  ((List.range 8).map fun i => (next + i) % 8).find? fun r =>
    s.getBit F.rigCtrl_rigEn pipe r && !s.getBit F.rigCtrl_rigBusy pipe r

/-- The frame length a run sees: data and FCS; a free value while the frame arrives (log entry 59). -/
def State.runLength (s : State) (p : Pkt) : State × Nat :=
  if p.arriving then (s.draw, s.freeVal % 2 ^ 16) else (s, p.data.length + 4)

/-- A packet starts a run in a rig. -/
def State.startRun (s : State) (id rig : Nat) (p : Pkt) : State :=
  let pipe := p.pipe
  let im := p.ans.elim [] fun a => s.chainImage pipe a
  match s.resolveEntry p im with
  | none =>
    let rel := p.ans.toList.map fun a => releaseOf a pipe id
    ((s.modPkt id fun q => { q with stage := .finished, ans := none }).sendUpdates rel).count (C.rigEpNotMember pipe)
      |>.count (C.rigBypass pipe)
  | some (e, takes) =>
    let (w0, w1) := s.entryOf e
    let (s1, len) := s.runLength p
    let pc := entryStart w0 p.epoch
    let r0 : RigRun := ⟨rig, e, pc, List.replicate 16 0, false, false, false, false, 0, entryLimit w1, pc / 4096, im, im,
      [], decide (p.runs > 0), [], 0, 0, none, false, 0, len, none, false, []⟩
    let s2 := if p.runs == 0 then
        { s1 with rig := { s1.rig with saved := SMap.set s1.rig.saved id p } }.count (C.rigPackets pipe)
      else s1.count (C.rigReplay pipe)
    let (s3, r1) := if takes then s2.recWrite p r0 15 0xFF80 (e <<< 8 + (p.epoch % 2) <<< 7) else (s2, r0)
    let r2 := { r1 with start := im }
    let s4 := { s3.setBit F.rigCtrl_rigBusy pipe rig true with
      rig := { s3.rig with nextRig := SMap.put 0 s3.rig.nextRig pipe ((rig + 1) % 8) } }
    let q := { p with stage := .rig, run := some r2 }
    settleRun id ((s4.modPkt id fun _ => q).runOn q r2)

/-- The packets of a dispatch window, oldest first. -/
def State.windowOf (s : State) (pipe : Nat) : List (Nat × Pkt) :=
  (SMap.getD s.rig.window pipe []).filterMap fun id =>
    (SMap.find? s.pk.pkts id).bind fun p => if p.stage == .window && p.pipe == pipe then some (id, p) else none

/-- The oldest eligible packet of a pipeline's window goes to an idle rig and its program runs, to its end or to its first
table call.
A full wait area holds packets whose programs have not started (R271, R272, R274). -/
def State.dispatch (s : State) (pipe : Nat) : State :=
  let full := (s.atStage pipe .ackWait).length ≥ 64
  match (s.windowOf pipe).find? fun e => s.chainFree e.1 e.2 && !(full && e.2.runs == 0), s.idleRig pipe with
  | some (id, p), some rig =>
    let s1 := { s with rig := { s.rig with
      window := SMap.set s.rig.window pipe ((s.windowOf pipe).map Prod.fst |>.filter (· != id)) } }
    if p.marked then s1.lateDrop id pipe else s1.startRun id rig p
  | _, _ => s

/-- RIG_DISPATCH (R162, R165, R271 to R275, R279 to R288, R292): an upset that struck the pipeline's control store takes
effect, and
the dispatcher assigns a packet. -/
def execRigDispatch (pipe : Nat) (upset : Option RigUpset) (s : State) : Host.Outcome State Fault Refusal :=
  .next ((upset.elim s (s.rigUpset pipe)).dispatch pipe)

/-! ## Table calls (R285) -/

/-- The key bytes that registers hold, the first byte of each in its most significant bits. -/
def callKey (ws : List Nat) : List Nat := ws.flatMap (bytesBE 8)

/-- A table call's result: none while the memory holds it; else the state, whether it hit, and TBL's words. -/
def State.tableCall (s : State) (p : Pkt) (kind table : Nat) (ws : List Nat) : Option (State × Bool × List Nat) :=
  match kind with
  | 0 =>
    match emLookup s.clsView table (callKey ws) p.epoch with
    | none => some (s, false, [])
    | some (k, e) =>
      some (s.setEm (SMap.set s.cls.em k { e with hit := true }), true,
        e.action ++ (List.range 10).map fun i => numLE (bytesAt e.data (4 * i) 4))
  | 1 => some (s, true, s.directRow (wordAt ws 0 % 65536))
  | 2 =>
    let row := wordAt ws 0 % 2 ^ 23
    let u := rigRowUnit row
    if s.poisoned (row % 32) u then some (s, false, [])
    else if s.pcHolds (pcOfUnit (row % 32) u) then none
    else some (s, true, SMap.getD s.rig.hbmRows row (List.replicate 16 0))
  | _ =>
    let key := bytesAt (callKey ws) 0 48
    match s.findKey (homeShard s.fst.shardSeed key) key with
    | none => some (s, false, [])
    | some f =>
      let im := s.imageNow f.slot.handle
      some (s, true, (im.drop 16).take 12 ++ [wordAt im 12, wordAt im 13, f.slot.handle])

/-- A run goes on with its call's result; one whose last word made the call ends by its limit (R279). -/
def State.resumeRun (s : State) (id : Nat) (p : Pkt) (r : RigRun) : State :=
  if r.last && r.cycles ≤ r.limit then settleRun id (s, p, r, .done)
  else if r.cycles ≥ r.limit then settleRun id (s, p, r, .overrun)
  else settleRun id (s.runOn p r)

/-- The call of a rig returns after `wait` cycles: TBL and HIT are set and the run goes on (R155, R285, R387). -/
def State.callReturn (s : State) (pipe rig wait : Nat) : State :=
  match SMap.first? s.pk.pkts fun _ p => p.pipe == pipe && p.stage == .rig && p.run.elim false fun r => r.rig == rig with
  | none => s
  | some (id, p) =>
    match p.run.bind fun r => r.call.map fun c => (r, c) with
    | none => s
    | some (r, kind, table, ws) =>
      if kind == 0 && s.readsDamaged pipe (s.emReads table (callKey ws)) then
        (((s.freeRig pipe r.rig).count (C.rigCycles pipe) r.cycles).count (C.clsEccDrop pipe)).dropPkt id
      else
      match s.tableCall p kind table ws with
      | none => s
      | some (s1, hit, tbl) =>
        (s1.count (C.rigTcallWait pipe) wait).resumeRun id p
          { r with call := none, hit := hit, tbl := tbl, cycles := r.cycles + wait, waited := r.waited + wait,
                   results := r.results ++ [(hit, tbl)] }

/-- TCALL_RESULT (R155, R285, R292, R387): an upset that struck the pipeline's control store takes effect, and a rig's call
returns. -/
def execTcallResult (pipe rig wait : Nat) (upset : Option RigUpset) (s : State) : Host.Outcome State Fault Refusal :=
  .next ((upset.elim s (s.rigUpset pipe)).callReturn pipe rig wait)

/-! ## Updates at the owning shard (R206, R219, R282, R283) -/

/-- The setup transaction an update belongs to. -/
def State.setupOf (s : State) (u : Update) : Option (Nat × Tx) :=
  if u.setup then SMap.first? s.fst.txs fun _ t => t.cls == 0 && t.setup.elim false fun x => some x.2 == u.pkt else none

/-- The shard an update goes to: its setup's coordinator, else the record's owner. -/
def State.updateShard (s : State) (u : Update) : Nat := (s.setupOf u).elim (ownerOf u.handle) fun e => e.2.coord

/-- The first update for a shard that no lock holds back (R259), taken out. -/
def State.takeUpdate (s : State) (shard : Nat) : List Update → Option (Update × List Update)
  | [] => none
  | u :: us =>
    if u.handle < 2 ^ 29 && s.updateShard u == shard && (u.setup || (s.lockHolder ⟨1, u.handle, 0⟩).isNone) then some (u, us)
    else (s.takeUpdate shard us).map fun e => (e.1, u :: e.2)

/-- One answer less outstanding on a record's line; requests that waited for that are answered (R206, R209). -/
def State.lowerInflight (s : State) (handle : Nat) : State :=
  match s.recLine 0 handle with
  | some (k, l) =>
    let s1 := s.setLine k { l with inflight := l.inflight - 1 }
    if l.inflight < 1023 then s1
    else
      let im := s.imageNow handle
      (iKey im :: (secondKey l.size im).toList).foldl (fun t key => t.serveChained (ownerOf handle) key) s1
  | none => s

/-- Every compared word still holds the value read. -/
def compareHolds (im : List Nat) (u : Update) : Bool :=
  u.compare.all fun w => Nat.land (wordAt im w.word) w.mask == Nat.land w.value w.mask

/-- An update's changes applied to its record in one cycle. -/
def State.applyUpdate (s : State) (u : Update) : State :=
  match s.recNow u.handle with
  | none => s
  | some r =>
    let im := toImage r.size r.words
    let im0 := updatedImage im u
    let im1 := if u.partial_ then imPut im0 15 18 18 1 else im0
    (s.putCached u.handle (ofImage r.size im1)).noteClosing u.handle im im1

/-- UPDATE_FLIT (R203, R206, R283): the first update or release for a shard. A shard in a contained restart discards it and
drops the packet that waits for it (R496). -/
def execUpdateFlit (shard : Nat) (s : State) : Host.Outcome State Fault Refusal :=
  .next (match s.takeUpdate shard s.fst.updates with
    | none => s
    | some (u, rest) =>
      let s0 := ({ s with fst := { s.fst with updates := rest } })
      if s0.fst.restarting.contains shard then (s0.endChain u.pipe u.handle).restartDrop shard u.pkt.toList
      else if let some c := s0.badHeap u.handle then
        u.pkt.toList.foldl State.dropPkt ((s0.endChain u.pipe u.handle).rejectHandle u.handle c 1 shard)
      else if u.setup then (s0.endChain u.pipe u.handle).setupUpdate (u.pkt.getD 0) u
      else
        let im := s0.imageNow u.handle
        let waiter := u.pkt.bind fun id =>
          if isProxy id then some (id, (⟨u.handle, 0, 0, [], false, 0⟩ : Answer))
          else (SMap.find? s0.pk.pkts id).bind fun p => p.ans.map fun a => (id, a)
        match if u.transition && !compareHolds im u then waiter else none with
        | some (id, a) =>
          { s0 with fst := { s0.fst with replays := s0.fst.replays ++ [(id, u.pipe, { a with image := im })] } }
        | none =>
          let s1 := if u.transition && !compareHolds im u then s0 else s0.applyUpdate u
          let s2 := if u.release then (s1.lowerInflight u.handle).endChain u.pipe u.handle else s1
          if u.transition then { s2 with fst := { s2.fst with acks := s2.fst.acks ++ u.pkt.toList } } else s2)

/-! ## Acknowledgements and replays (R274, R283) -/

/-- The first of a pipeline's messages, or of a packet that is gone, taken out. -/
def State.takeAck (s : State) (pipe : Nat) : List Nat → Option (Nat × List Nat)
  | [] => none
  | a :: rest =>
    if !isProxy a && (SMap.find? s.pk.pkts a).elim true fun p => p.pipe == pipe then some (a, rest)
    else (s.takeAck pipe rest).map fun e => (e.1, a :: e.2)

/-- A packet is acknowledged: it may leave, or goes where its program dropped it. -/
def State.acknowledge (s : State) (id : Nat) (p : Pkt) : State :=
  let s1 := s.modPkt id fun q => { q with awaiting := false, ans := none, stage := if q.stage == .ackWait then .finished else q.stage }
  if p.dropped then s1.dropPkt id else s1

/-- TRANSITION_ACK (R237, R272, R274, R283). -/
def execTransitionAck (pipe : Nat) (s : State) : Host.Outcome State Fault Refusal :=
  .next (match s.takeAck pipe s.fst.acks with
    | none => s
    | some (id, rest) =>
      let s1 := { s with fst := { s.fst with acks := rest } }
      match SMap.find? s1.pk.pkts id with
      | none => s1
      | some p => s1.acknowledge id p)

/-- The first REPLAY reply of a pipeline, taken out. -/
def takeReplay (pipe : Nat) : List (Nat × Nat × Answer) → Option ((Nat × Answer) × List (Nat × Nat × Answer))
  | [] => none
  | (id, n, a) :: rest =>
    if n == pipe then some ((id, a), rest) else (takeReplay pipe rest).map fun e => (e.1, (id, n, a) :: e.2)

/-- A packet set back to its first run, on the image of a REPLAY (log entry 58). -/
def rewound (p before : Pkt) (a : Answer) : Pkt :=
  { p.restored before with ans := some a, noCt := true, stage := .window }

/-- REPLAY_REPLY (R162, R206, R283): the packet runs again from its entry point on the current image, ahead of the packets
whose programs have not started; its third mismatch drops it. -/
def execReplayReply (pipe : Nat) (s : State) : Host.Outcome State Fault Refusal :=
  .next (match takeReplay pipe s.fst.replays with
    | none => s
    | some ((id, a), rest) =>
      let s1 := { s with fst := { s.fst with replays := rest } }
      match SMap.find? s1.pk.pkts id with
      | none => s1.sendUpdates [releaseOf a pipe id]
      | some p =>
        let s2 := (s1.modPkt id fun q => { q with awaiting := false }).setChain pipe a.handle a.image
        if p.runs ≥ 3 then
          ((s2.count (C.rigReplayDrop pipe)).setF F.rigEvent_replayDropSeen pipe 1).dropPkt id
        else if p.marked then s2.lateDrop id pipe
        else
          let before := SMap.getD s2.rig.saved id p
          let s3 := s2.modPkt id fun _ => rewound p before a
          { s3 with rig := { s3.rig with window := SMap.set s3.rig.window pipe (id :: SMap.getD s3.rig.window pipe []) } })

end Sys2Proof.Machine
end

