-- ==== Sys2Proof/Machine/Admit.lean ====
section
/-! DEFINITION. The rig reorder stage's release: recirculation, replication, failover, elimination, admission to the VOQs
and mirror copies (R274, R311 to R314, R322, R325 to R330, R338, R339, R363 to R368). -/

namespace Sys2Proof.Machine

/-- Where a queue copy is bound: port, class, next hop. -/
structure Dest where
  port : Nat
  cls : Nat
  nextHop : Option Nat
  deriving DecidableEq, Repr

/-! ## Copy lists (R147, R149, R326, R368) -/

/-- A copy under the failover vector (R368): its next hop's backup where its port is down, one level only; none where the
backup's port is down too. -/
def State.failedOver (s : State) (pipe : Nat) (d : Dest) (n : NextHop) : State × Option Dest :=
  if !s.egs.down.contains d.port || !n.backupValid then (s, some d)
  else if s.readsDamaged pipe [⟨4, n.backup, 1⟩] then (s.count (C.clsEccDrop pipe), none)
  else
    match SMap.find? s.clsView.nextHops n.backup with
    | none => (s, none)
    | some b =>
      if s.egs.down.contains b.port then
        ((s.count (C.nhBackupDown pipe)).setF F.egsEvent_backupDownSeen pipe 1, none)
      else (s, some ⟨b.port, d.cls, some n.backup⟩)

/-- A copy by its next hop. One that was never set takes none (log entry 68); one that awaits its rewrite drops the copy
(R155). -/
def State.viaNextHop (s : State) (pipe nh c : Nat) : State × Option Dest :=
  if s.readsDamaged pipe [⟨4, nh, 1⟩] then (s.count (C.clsEccDrop pipe), none)
  else
    match SMap.find? s.clsView.nextHops nh with
    | none => (s, none)
    | some n => s.failedOver pipe ⟨n.port, c, some nh⟩ n

/-- A member's copy: its port, with its next hop's rewrite and backup where that is set; none while the next hop awaits its
rewrite
(R155). -/
def State.viaMember (s : State) (pipe : Nat) (d : Dest) (nh : Nat) : State × Option Dest :=
  if s.readsDamaged pipe [⟨4, nh, 1⟩] then (s.count (C.clsEccDrop pipe), none)
  else
  match SMap.find? s.clsView.nextHops nh with
  | none => (s, some d)
  | some n => s.failedOver pipe d n

/-- A frame's replication group: PKT MCAST's, else a flood group (R326). -/
def Pkt.group (p : Pkt) : Option Nat :=
  match p.mcast with
  | some g => some g
  | none => if p.fwdOp == 5 then some p.fwdTarget else none

/-- The member copies of a group, in member order; the ingress port's is left out when prune is set (R326), and link ports
of a frame that came over a link, since traffic between two members never passes through a third (R548). -/
def State.members (s : State) (p : Pkt) (g : ReplGroup) : State × List Dest :=
  g.members.foldl (fun (t, l) m =>
    if g.prune && m.1 == p.inPort && p.src == p.inPort then (t, l)
    else if p.src ≥ 2048 && (t.linkOfPort m.1).isSome then (t, l)
    else
      let (t1, d) := t.viaMember p.pipe ⟨m.1, m.2.2.getD p.cls, some m.2.1⟩ m.2.1
      (t1, l ++ d.toList)) (s, [])

/-- A copy bound for a link port takes the up link to that member which the flow's hash chooses (R553). -/
def State.viaLink (s : State) (p : Pkt) (d : Dest) : Dest :=
  match s.linkOfPort d.port with
  | none => d
  | some l => (s.linkTo (s.getF F.stkLink_peerId l) p.flowHash).elim d fun k => { d with port := 8 * s.getF F.stkLink_macro k }

/-- The queue copies of a frame before links are chosen, in order. -/
def State.rawDests (s : State) (p : Pkt) : State × List Dest :=
  match p.direct with
  | some (port, c, nh) =>
    let (t, d) := s.viaMember p.pipe ⟨port, c, some nh⟩ nh
    (t, d.toList)
  | none =>
    match p.group with
    | some g => s.members p (SMap.getD s.pk.groups g ⟨false, []⟩)
    | none =>
      match p.fwdOp with
      | 1 =>
        let (t, d) := s.viaNextHop p.pipe p.fwdTarget p.cls
        (t, d.toList)
      | 2 =>
        if s.readsDamaged p.pipe (s.hopReads p.ckey 2 p.fwdTarget) then (s.count (C.clsEccDrop p.pipe), [])
        else
        match ecmpMember s.clsView p.fwdTarget p.ckey with
        | some nh =>
          let (t, d) := s.viaNextHop p.pipe nh p.cls
          (t, d.toList)
        | none => (s, [])
      | 4 => (s, [⟨p.fwdTarget, p.cls, none⟩])
      | _ => (s, [])

/-- The queue copies of a frame before mirroring, in order. -/
def State.destsOf (s : State) (p : Pkt) : State × List Dest :=
  let (t, ds) := s.rawDests p
  (t, ds.map (t.viaLink p))

/-! ## Admission of a copy (R311 to R314) -/

/-- How a copy was refused (R313). -/
inductive Refused where
  | entries
  | threshold
  | buffer
  deriving DecidableEq, Repr

/-- The frame data length L that admission counts with, the first known of the final length, the end that the outermost IP
header
states, in the frame as it arrived, and the port's max_frame (R312). DEDUCED: of several IP bounds it is the outermost (log
entry 252). -/
def State.admitLength (s : State) (p : Pkt) : Nat :=
  if !p.arriving then 256 + p.body.length
  else match p.par.ipBounds.getLast? with
    | some b => ((b : Int) - p.growth).toNat
    | none => s.getF F.portCfg_maxFrame p.inPort - 4

/-- The cell count n at admission: the edited head's cells and those beyond byte 256 of the frame (R303, R312). -/
def State.admitCells (s : State) (p : Pkt) : Nat := p.headCells + ceilDiv (s.admitLength p - 256) 256

/-- Cells charged under a VOQ's min_cells. -/
def State.minUsed (s : State) (pipe key : Nat) : Nat :=
  s.sumPkts pipe fun p => if p.charge.voq == key then p.charge.minCells else 0

/-- A VOQ's unused min_cells. -/
def State.minFree (s : State) (pipe : Nat) (d : Dest) : Nat :=
  (s.qclass d.port d.cls).minCells - s.minUsed pipe (voqKey pipe d.port d.cls)

/-- Shared cells that a frame can take: those free and those it holds. -/
def State.sharedFor (s : State) (p : Pkt) : Nat := s.sharedFree p.pipe + p.charge.shared

/-- Cells that the destination accounts can still take (R313). -/
def State.available (s : State) (p : Pkt) (d : Dest) (multi : Bool) : Nat :=
  (if multi then s.mcFree p.pipe else s.minFree p.pipe d) + s.sharedFor p

/-- The dynamic limit of a VOQ for a frame's colour (R311, R313). -/
def State.voqLimit (s : State) (p : Pkt) (d : Dest) : Nat :=
  let q := s.qclass d.port d.cls
  let lim := Nat.min q.maxCells (q.minCells + s.sharedFree p.pipe * 2 ^ q.alpha / 64)
  if p.colour == 1 then lim * q.yellow / 8 else if p.colour == 2 then lim * q.red / 8 else lim

/-- A frame is lossless: its arrival class is PFC-enabled on its ingress port (R313). -/
def State.losslessPkt (s : State) (p : Pkt) : Bool :=
  p.src == p.inPort && s.getF F.portCfg_fcMode p.inPort == 2 && bitOf (s.portInfo p.inPort).fcClasses p.arrCls

/-- A pipeline's queue entries free (R306). -/
def State.entriesFree (s : State) (pipe : Nat) : Nat :=
  49152 - (s.pk.copies.filter fun e => e.2.pipe == pipe && e.2.stage == .queued).length

/-- R313's admit_copy: none where the copy is accepted. `first` where no copy of the frame has been accepted yet. -/
def State.admitCopy (s : State) (p : Pkt) (d : Dest) (n : Nat) (multi first : Bool) : Option Refused :=
  if s.entriesFree p.pipe == 0 then some .entries
  else if s.losslessPkt p then none
  else if s.voqCells p.pipe d.port d.cls + n > Nat.max (s.voqLimit p d) (s.qclass d.port d.cls).minCells then
    some .threshold
  else if (if first then n else 0) > s.available p d multi then some .buffer
  else none

/-- A refusal is counted at the egress port and in the pipeline (R314). -/
def State.countRefused (s : State) (pipe port : Nat) (r : Refused) : State :=
  let c := match r with
    | .entries => C.qDropEntries port
    | .threshold => C.qDropThresh port
    | .buffer => C.qDropBuffer port
  ((s.count c).count (C.iqmRefused pipe)).setF F.iqmEvent_refusedSeen pipe 1

/-- A frame's charge after its first accepted copy (R313): what no destination account can take of a lossless frame stays
in headroom. -/
def State.admittedCharge (s : State) (p : Pkt) (d : Dest) (n : Nat) (multi : Bool) : Charge :=
  let a := Nat.min n (if multi then s.mcFree p.pipe else s.minFree p.pipe d)
  let b := Nat.min (n - a) (s.sharedFor p)
  { arrival := 0, shared := b, headroom := n - a - b, mc := if multi then a else 0,
    minCells := if multi then 0 else a, voq := voqKey p.pipe d.port d.cls }

/-! ## Cut-through (R322) -/

/-- A copy may ask for cut-through. -/
def State.ctOk (s : State) (p : Pkt) (d : Dest) : Bool :=
  let stateless := p.profile.any fun n => pSetupMode (SMap.getD s.cls.flowProf n []) == 3
  p.src == p.inPort && p.direct.isNone && (s.voq p.pipe d.port d.cls).isEmpty
    && s.getB F.iqmCtrl_ctEn p.pipe && s.getB F.portCfg_ctEn d.port
    && decide (s.portRate d.port ≤ s.portRate p.inPort)
    && !p.noCt && (p.handle.isSome || stateless)
    && (s.linkOfPort d.port).isNone && !s.gateControlled d.port d.cls && !s.getBit F.portStatus_rxPaused d.port d.cls && s.linkUp d.port

/-! ## Queueing -/

/-- A VOQ that holds no copy that waits for a grant. -/
def State.voqFresh (s : State) (pipe port c : Nat) : Bool := (s.voq pipe port c).all fun e => e.2.ct

/-- A VOQ sends REQ (R316). -/
def State.sendReq (s : State) (pipe port c : Nat) : State :=
  { s with pk := { s.pk with voqMsgs := s.pk.voqMsgs ++ [(false, ⟨pipe, port, c, 0⟩)] } }

/-- An accepted copy is queued: stored, with a REQ where its VOQ becomes non-empty, or with a CT_REQ (R316, R323). -/
def State.queueCopy (s : State) (id : Nat) (p : Pkt) (d : Dest) (mirror : Option (Nat × Bool)) (ct : Bool) : State :=
  let s0 := s.touchCredits d.port
  let fresh := s0.voqFresh p.pipe d.port d.cls
  let c : Copy := ⟨id, p.pipe, d.port, d.cls, d.nextHop, s.freeEntry p.pipe, mirror, .queued, ct, 0, 0, 0, 0,
    shortTime (s0.nowAt (pipePoint p.pipe)), [], 0, false, 0, false, false⟩
  let s1 := { s0 with pk := { s0.pk with
    copies := SMap.set s0.pk.copies s0.pk.nextCopy c, nextCopy := s0.pk.nextCopy + 1 } }
  let s2 := if ct then { s1 with pk := { s1.pk with ctReqs := s1.pk.ctReqs ++ [⟨p.pipe, d.port, d.cls, 0⟩] } }
    else if fresh then s1.sendReq p.pipe d.port d.cls else s1
  s2.touchCredits d.port

/-- The tally of an admission: copies accepted, whether a member copy was refused, member copies eliminated, and the
ports of accepted member copies. -/
structure Tally where
  /-- Places of the copy list gone through (R326). -/
  listed : Nat
  count : Nat
  refused : Bool
  eliminated : Bool
  ports : List Nat
  deriving DecidableEq, Repr

/-- An accepted copy takes the frame's charge with it the first time. -/
def State.accept (s : State) (id : Nat) (d : Dest) (n : Nat) (multi first : Bool) (mirror : Option (Nat × Bool))
    (ct : Bool) : State :=
  match SMap.find? s.pk.pkts id with
  | none => s
  | some p =>
    let s1 := if first then s.modPkt id fun q => { q with charge := s.admittedCharge p d n multi } else s
    s1.queueCopy id p d mirror ct

/-- While a class's watchdog restores it, frames that arrive for it are dropped and counted (R95). -/
def State.restoringAt (s : State) (d : Dest) : Bool := SMap.has (s.portInfo d.port).restoring d.cls

/-- A member copy: eliminated, accepted or refused (R95, R313, R327, R364). -/
def State.admitMember (id n : Nat) (multi : Bool) (x : State × Tally) (d : Dest) : State × Tally :=
  let (s, k) := x
  match SMap.find? s.pk.pkts id with
  | none => x
  | some p =>
    if s.restoringAt d then (s.count (C.pfcWdDrop d.port), k)
    else if p.verdict == 2 && !s.egs.noElim.contains d.port then
      (s.count (C.frerEliminated d.port), { k with eliminated := true })
    else
      match s.admitCopy p d n multi (k.count == 0) with
      | some r => (s.countRefused p.pipe d.port r, { k with refused := true })
      | none => (s.accept id d n multi (k.count == 0) none (s.ctOk p d),
          { k with count := k.count + 1, ports := k.ports ++ [d.port] })

/-! ## Mirror copies (R338, R339) -/

/-- A mirror copy that is not made. -/
def State.mirrorLost (s : State) (pipe n : Nat) : State :=
  (s.count (C.iqmMirrorDrop pipe) n).setF F.iqmEvent_mirrorDropSeen pipe 1

/-- Cells that a pipeline's mirror copies hold. -/
def State.mirrorCells (s : State) (pipe : Nat) : Nat :=
  s.pk.copies.foldl (fun a e =>
    if e.2.pipe == pipe && e.2.mirror.isSome && e.2.stage == .queued then
      a + (SMap.find? s.pk.pkts e.2.pkt).elim 0 fun p => p.headCells + p.bodyCells
    else a) 0

/-- A mirror copy of a session whose destination is a port is admitted, or refused and counted (R339). -/
def State.admitMirror (id n : Nat) (multi : Bool) (x : State × Tally) (m : Nat × Bool) : State × Tally :=
  let (s, k) := x
  match SMap.find? s.pk.pkts id, SMap.find? s.pk.sessions m.1 with
  | some p, some ms =>
    if ms.dest != 0 then x
    else if k.listed ≥ 511 then (s.mirrorLost p.pipe 1, k)
    else
      let k := { k with listed := k.listed + 1 }
      let d : Dest := ⟨ms.port, ms.cls, if ms.gre then some ms.nextHop else none⟩
      if s.restoringAt d then ((s.count (C.pfcWdDrop d.port)).mirrorLost p.pipe 1, k)
      else if s.mirrorCells p.pipe ≥ s.pk.mirrorMax then (s.mirrorLost p.pipe 1, k)
      else
        match s.admitCopy p d n multi (k.count == 0) with
        | some r => ((s.countRefused p.pipe d.port r).mirrorLost p.pipe 1, k)
        | none => ((s.accept id d n multi (k.count == 0) (some m) false).count (C.iqmMirrorCopies p.pipe),
            { k with count := k.count + 1 })
  | _, _ => x

/-- An egress session whose destination is a ring or Criod makes a ring copy. -/
def State.egressRing (s : State) (id : Nat) (m : Nat) : State :=
  match SMap.find? s.pk.pkts id, SMap.find? s.pk.sessions m with
  | some p, some ms =>
    if ms.dest == 0 then s
    else
      let c : CopyReq := ⟨2, ms.dest == 2, ms.ring, if ms.trunc == 0 then 512 else ms.trunc, m, 0⟩
      (s.countCopy p.pipe c).ringCopy p c
  | _, _ => s

/-- The egress sessions of the ports that accepted a member copy. -/
def State.egressSessions (s : State) (ports : List Nat) : List Nat :=
  ports.filterMap fun q => (SMap.getD s.pk.qports q QPort.reset).egSession

/-! ## Frame admission -/

/-- partial_delivery is sent as an OR with the frame's update, held while the frame arrives (R124, R328). -/
def State.setPartial (s : State) (id : Nat) (p : Pkt) : State :=
  match p.handle with
  | none => s
  | some h =>
    let u : Update := {
      handle := h, pipe := p.pipe, pkt := none, transition := false, setup := false, release := false,
      compare := [], writes := [], addBytes := 0, addPackets := 0, lastSeen := none, partial_ := true, badEnd := false }
    let s1 := if p.arriving then
        s.modPkt id fun q =>
          let mine := q.held.any fun v => v.handle == h
          let l := if mine then q.held.map fun v => if v.handle == h then { v with partial_ := true } else v else q.held ++ [u]
          { q with held := l }
      else s.sendUpdates [u]
    (s1.count (C.iqmMcPartial p.pipe)).setF F.iqmEvent_mcPartialSeen p.pipe 1

/-- RED counts a frame once for the monitor of its handle (R367). -/
def State.redCount (s : State) (p : Pkt) : State :=
  match p.handle with
  | none => s
  | some h =>
    if !s.getB F.redCtrl_latentEn || p.verdict == 0 || p.verdict == 3 then s
    else
      let bump (m : Monitor) : Monitor :=
        if m.handle != h then m
        else if p.verdict == 1 then { m with passed := m.passed + 1 }
        else { m with discarded := m.discarded + 1 }
      { s with egs := { s.egs with monitors := s.egs.monitors.mapVal fun _ m => bump m } }

/-- A frame's copies are queued: its cells take their reference counts and it waits for its copies (R329). -/
def State.settleAdmitted (s : State) (id n count : Nat) (multi : Bool) : State :=
  match SMap.find? s.pk.pkts id with
  | none => s
  | some p =>
    let refs := List.replicate (p.headCells + p.bodyCells) count
    let extra := p.charge.total - p.headCells - p.bodyCells
    let s1 := s.modPkt id fun q => { q with
      stage := .queued, tAdm := shortTime (s.nowAt (pipePoint p.pipe)), refs := refs,
      admitted := count, charge := if q.arriving then q.charge else q.charge.release extra }
    let s2 := ((s1.count (C.iqmAdmitFrames p.pipe)).count (C.iqmAdmitCells p.pipe) n).syncIqm p.pipe
    (if multi then s2.count (C.iqmMcFrames p.pipe) else s2).fcUpdate p.inPort

/-- A frame is admitted (R311 to R314, R326 to R329, R363, R364): members, then ingress mirror copies, then egress mirror
copies; dropped where no copy is accepted. -/
def State.admitTo (s : State) (id : Nat) : State :=
  let s := s.storeHead id
  match SMap.find? s.pk.pkts id with
  | none => s
  | some p =>
    if p.stage == .gone then s
    else
    let multi := p.group.isSome && p.direct.isNone
    let n := s.admitCells p
    let (s0, all) := s.destsOf p
    let s1 := if all.length > 511 then s0.mirrorLost p.pipe (all.length - 511) else s0
    let (s2, k) := (all.take 511).foldl (State.admitMember id n multi) (s1, ⟨Nat.min 511 all.length, 0, false, false, []⟩)
    if k.count == 0 && !k.eliminated then s2.endPkt id true
    else
      let eg := s2.egressSessions k.ports
      let sessions := p.mirrors.map (·, false) ++ eg.map (·, true)
      let (s3, k1) := sessions.foldl (State.admitMirror id n multi) (s2, k)
      let s4 := eg.foldl (fun t m => t.egressRing id m) s3
      let s5 := if k.count > 0 && k.refused then s4.setPartial id p else s4
      if k1.count == 0 then s5.endPkt id false else s5.settleAdmitted id n k1.count multi

/-! ## The release (R274) -/

/-- The packet that a source's release looks at: the earliest of the pipeline's rig stage. -/
def State.rigNext (s : State) (pipe src : Nat) : Option (Nat × Pkt) :=
  (s.pk.pkts.filter fun e => e.2.pipe == pipe && e.2.src == src
      && (e.2.stage == .window || e.2.stage == .rig || e.2.stage == .finished)).foldl
    (fun a e => match a with
      | none => some e
      | some b => if e.2.seq < b.2.seq then some e else some b) none

/-- A packet whose program asked for a new pass: the recirculation queue takes it, or it is dropped (R159, R330). -/
def State.recirculate (s : State) (id : Nat) (p : Pkt) (st : Nat) (noProg : Bool) : State :=
  let pipe := p.pipe
  if p.pass ≥ 3 then
    ((s.count (C.clsRecircPassDrop pipe)).setF F.clsEvent_recircDropSeen pipe 1).endPkt id true
  else if (s.atStage pipe .recirc).length ≥ 64 then
    ((s.count (C.iqmRecircDrop pipe)).setF F.iqmEvent_recircDropSeen pipe 1).endPkt id true
  else
    let q := { p with stage := .recirc, pass := p.pass + 1, startState := st, noProg := noProg, ans := none, runs := 0,
                      again := none, run := none }
    let s1 := { s with rig := { s.rig with saved := SMap.del s.rig.saved id } }
    (s1.modPkt id fun _ => q).count (C.iqmRecirc pipe)

/-- The message type of a PTP message in the outermost layer (R41, R118). -/
def Pkt.ptpType (p : Pkt) : Option Nat := p.par.ptp.map fun e => p.head.getD e.1 0 % 16

/-- A peer-delay message that P2P mode traps to Criod firmware (R42). -/
def State.ptpTrap (s : State) (p : Pkt) : Bool :=
  s.tm.tcMode == 2 && p.src == p.inPort && s.tm.tcPorts.contains p.inPort
    && (p.ptpType == some 2 || p.ptpType == some 3 || p.ptpType == some 0xA)

/-- The ingress session of a packet's port is among its mirrors (R338). -/
def State.withPortSession (s : State) (p : Pkt) : Pkt :=
  if p.src != p.inPort then p
  else
    match (SMap.getD s.pk.qports p.inPort QPort.reset).inSession with
    | some m => if p.mirrors.contains m then p else { p with mirrors := p.mirrors ++ [m] }
    | none => p

/-- A packet leaves the rig reorder stage on its last pass: it leaves the epoch's count (R161), its ring copies are made
(R330, R333), and its frame is admitted. -/
def State.lastPass (s : State) (id : Nat) (p : Pkt) : State :=
  let pipe := p.pipe
  let p1 := s.withPortSession { p with counted := false }
  let s1 := { s with rig := { s.rig with saved := SMap.del s.rig.saved id } }
  let s2 := ((s1.modPkt id fun _ => p1).syncEpoch pipe).makeRingCopies id
  if s2.furled then s2.endPkt id false
  else if s2.pk.qmRestart.contains pipe then (s2.count (C.iqmRestartDrop pipe)).endPkt id true
  else if s2.ptpTrap p1 then
    { s2 with host := { s2.host with fwCopies := s2.host.fwCopies ++ [p1.data] } }.endPkt id false
  else (s2.redCount p1).admitTo id

/-- RIG_REORDER_RELEASE (R14, R159, R161, R274, R311 to R314, R322, R326 to R330, R364, R367, R368): the next packet of a
source leaves the stage, is set aside to wait for its acknowledgement, starts a new pass, or is admitted. -/
def execRigReorderRelease (pipe src : Nat) (s : State) : Host.Outcome State Fault Refusal :=
  .next (match s.rigNext pipe src with
    | none => s
    | some (id, p) =>
      if p.stage != .finished then s
      else if p.awaiting then
        (if (s.atStage pipe .ackWait).length ≥ 64 then s else s.modPkt id fun q => { q with stage := .ackWait })
      else
        match p.again with
        | some (st, noProg) => s.recirculate id p st noProg
        | none => s.lastPass id p)

end Sys2Proof.Machine
end

