-- ==== Sys2Proof/Machine/Fabric.lean ====
section
/-! DEFINITION. Credits, the crossbar, cut-through requests, age limits and the queue manager's memory errors (R315 to
R324, R341, R346 to R349). -/

namespace Sys2Proof.Machine

/-! ## Age limits (R315) -/

/-- A copy is older than its class's limit. -/
def State.expired (s : State) (c : Copy) : Bool :=
  decide (wrapDiff (shortTime (s.nowAt (pipePoint c.pipe))) c.tAdm 32 > ((s.qclass c.port c.cls).ageLimit * 1000 : Nat))

/-- An expired copy is dropped and counted. -/
def State.ageDrop (s : State) (cid : Nat) (c : Copy) : State :=
  ((((s.touchCredits c.port).count (C.qDropAge c.port)).count (C.iqmAgeDrop c.pipe c.cls)).setF
    F.iqmEvent_ageDropSeen c.pipe 1).loseCopy cid

/-- Expired copies dropped from a list's head, up to `fuel` of them. -/
def State.dropExpired : Nat → List (Nat × Copy) → State → State
  | 0, _, s => s
  | _, [], s => s
  | n + 1, (cid, c) :: rest, s => if s.expired c then State.dropExpired n rest (s.ageDrop cid c) else s

/-- HEAD_SCAN (R315): the scan of a pipeline visits its next VOQ. -/
def execHeadScan (pipe : Nat) (s : State) : Host.Outcome State Fault Refusal :=
  let v := SMap.getD s.pk.scanAt pipe 0
  let s1 := { s with pk := { s.pk with scanAt := SMap.put 0 s.pk.scanAt pipe ((v + 1) % 2048) } }
  .next (if s.getB F.iqmCtrl_ageScanEn pipe then State.dropExpired 4 (s.voq pipe (v / 8) (v % 8)) s1 else s)

/-! ## Backlog bits (R316) -/

/-- Two messages of one VOQ. -/
def QMsg.same (a b : QMsg) : Bool := a.pipe == b.pipe && a.port == b.port && a.cls == b.cls

/-- The first message of a kind for an egress pipeline that no earlier message of its VOQ precedes, taken out. -/
def takeVoqMsg (empty : Bool) (egress : Nat) : List QMsg → List (Bool × QMsg) → Option (QMsg × List (Bool × QMsg))
  | _, [] => none
  | before, (e, m) :: rest =>
    if e == empty && pipeOf m.port == egress && !before.any (·.same m) then some (m, rest)
    else (takeVoqMsg empty egress (m :: before) rest).map fun x => (x.1, (e, m) :: x.2)

/-- A class's scheduling at a port. -/
def State.schedOf (s : State) (port c : Nat) : SchedClass := SMap.getD s.egs.sched (8 * port + c) SchedClass.reset

/-- A class's deficit changed. -/
def State.setDeficit (s : State) (port c : Nat) (v : Int) : State :=
  { s with egs := { s.egs with sched := SMap.modify s.egs.sched (8 * port + c) fun k => { k with deficit := v } } }

/-- The ingress pipelines whose backlog bit is set for a port and class. -/
def State.backlogged (s : State) (port c : Nat) : List Nat :=
  (List.range 32).filter fun n => s.pk.backlog.contains (voqKey n port c)

/-- VOQ_REQ (R316). -/
def execVoqReq (egress : Nat) (s : State) : Host.Outcome State Fault Refusal :=
  .next (match takeVoqMsg false egress [] s.pk.voqMsgs with
    | none => s
    | some (m, rest) =>
      let k := voqKey m.pipe m.port m.cls
      let b := if s.pk.backlog.contains k then s.pk.backlog else k :: s.pk.backlog
      { s with pk := { s.pk with voqMsgs := rest, backlog := b } })

/-- VOQ_EMPTY (R316, R348): the backlog bit clears, unused credit returns to the window and to the class's deficit, and the
deficit is 0 once no bit is left. -/
def execVoqEmpty (egress : Nat) (s : State) : Host.Outcome State Fault Refusal :=
  .next (match takeVoqMsg true egress [] s.pk.voqMsgs with
    | none => s
    | some (m, rest) =>
      let s1 := { s with pk := { s.pk with
        voqMsgs := rest,
        backlog := s.pk.backlog.filter (· != voqKey m.pipe m.port m.cls),
        credits := SMap.update 0 s.pk.credits (voqKey m.pipe m.port m.cls) (· - m.credit) } }
      let d := (s1.schedOf m.port m.cls).deficit + m.credit
      s1.setDeficit m.port m.cls (if (s1.backlogged m.port m.cls).isEmpty then 0 else d))

/-! ## Grants (R317, R346 to R349) -/

/-- A port's window in credits. -/
def State.window (s : State) (port : Nat) : Nat := Nat.max 2 (ceilDiv (12 * s.portRate port) 1600)

/-- Credits outstanding over the classes of a port that meet a test: of each VOQ those whose bytes have not all left. A VOQ that
has sent beyond its credits has none outstanding, and takes nothing from another's (R317, R318; log entry 33). -/
def State.outstanding (s : State) (port : Nat) (f : Nat → Bool) : Nat :=
  s.pk.credits.foldl (fun a e =>
    if e.1 / 8 % 256 == port && f (e.1 % 8) then a + ceilDiv e.2.toNat 2048 else a) 0

/-- A class that R349 limits. -/
def State.heldBack (s : State) (port c : Nat) : Bool := s.isShaped port c || s.gateControlled port c

/-- A class may be granted (R348, R349). -/
def State.grantable (s : State) (port c : Nat) : Bool :=
  !(s.backlogged port c).isEmpty && !s.getBit F.portStatus_rxPaused port c && !s.inDebt port c && s.gateLead port c
    && (!s.heldBack port c || decide (s.outstanding port (s.heldBack port) < s.window port - 1))

/-- A round of deficit round robin: every weighted class that may be granted gains its weight (R348). -/
def State.dwrrRound (s : State) (port : Nat) (cs : List Nat) : State :=
  cs.foldl (fun t c => t.setDeficit port c ((t.schedOf port c).deficit + ((t.schedOf port c).weight * 2048 : Nat))) s

/-- The weighted class served next: the first from the round robin's place with a positive deficit. -/
def State.dwrrPick (s : State) (port : Nat) (cs : List Nat) : Option Nat :=
  let at_ := SMap.getD s.egs.dwrrNext port 0
  ((List.range 8).map fun i => (at_ + i) % 8).find? fun c => cs.contains c && decide ((s.schedOf port c).deficit > 0)

/-- Rounds until a class has a positive deficit; each adds at least 2,048 to each, so few are needed. -/
def State.dwrrNextClass (port : Nat) (cs : List Nat) : Nat → State → State × Option Nat
  | 0, s => (s, none)
  | n + 1, s =>
    match s.dwrrPick port cs with
    | some c => (s, some c)
    | none => State.dwrrNextClass port cs n (s.dwrrRound port cs)

/-- The class a port grants: the highest strict one, else by deficit round robin, whose deficit it is charged to. -/
def State.grantClass (s : State) (port : Nat) : State × Option Nat :=
  let cs := (List.range 8).filter fun c => s.grantable port c
  let sp := cs.filter fun c => !(s.schedOf port c).dwrr
  match sp.getLast? with
  | some c => (s, some c)
  | none =>
    if cs.isEmpty then (s, none)
    else
      match State.dwrrNextClass port cs 16 s with
      | (s1, none) => (s1, none)
      | (s1, some c) =>
        let d := (s1.schedOf port c).deficit - 2048
        let s2 := s1.setDeficit port c d
        let nxt := if d > 0 then c else (c + 1) % 8
        ({ s2 with egs := { s2.egs with dwrrNext := SMap.put 0 s2.egs.dwrrNext port nxt } }, some c)

/-- GRANT_ISSUE (R317, R346 to R349): a port's scheduler issues one grant of 2,048 bytes, the ingress pipelines in
round-robin order, while its link is up, its window has room and no cut-through copy holds it. -/
def execGrantIssue (port : Nat) (s : State) : Host.Outcome State Fault Refusal :=
  let s0 := s.examinePort port
  .next (if !s.linkUp port || s.pk.reserved.contains port
        || s0.outstanding port (fun _ => true) ≥ s0.window port then s0
    else
      match s0.grantClass port with
      | (s1, none) => s1
      | (s1, some c) =>
        let v := 8 * port + c
        let from_ := SMap.getD s1.pk.grantRr v 0
        match ((List.range 32).map fun i => (from_ + i) % 32).find? fun n => s1.pk.backlog.contains (voqKey n port c) with
        | none => s1
        | some n =>
          { s1 with pk := { s1.pk with
              grants := s1.pk.grants ++ [⟨n, port, c, 2048⟩],
              credits := SMap.update 0 s1.pk.credits (voqKey n port c) (· + 2048),
              grantRr := SMap.put 0 s1.pk.grantRr v ((n + 1) % 32) } })

/-! ## Memory errors (R341) -/

/-- IQM_ECC_CAPTURE takes an error while it holds none (R344). -/
def State.iqmCapture (s : State) (pipe : Nat) (e : EccErr) : State :=
  if s.getB F.iqmEccCapture_valid pipe then s
  else (((s.setF F.iqmEccCapture_valid pipe 1).setB F.iqmEccCapture_uncorrectable pipe e.double).setF
    F.iqmEccCapture_memory pipe e.table).setF F.iqmEccCapture_index pipe e.index

/-- FAB_ECC_CAPTURE takes an error while it holds none (R345). -/
def State.fabCapture (s : State) (input output : Nat) (double : Bool) : State :=
  if s.getB F.fabEccCapture_valid then s
  else (((s.setF F.fabEccCapture_valid 0 1).setB F.fabEccCapture_uncorrectable 0 double).setF
    F.fabEccCapture_input 0 input).setF F.fabEccCapture_output 0 output

/-- A copy whose cell cannot be read: finished under R88 if its transmission has begun, else dropped. -/
def State.eccCopy (s : State) (cid : Nat) : State :=
  match SMap.find? s.pk.copies cid with
  | none => s
  | some c => if c.stage == .transmitting then (s.stompTx cid).settleCredits c.port
    else (s.count (C.qDropEcc c.port)).loseCopy cid

/-- A copy of the pipeline whose queue manager restarts (R341). -/
def State.restartCopy (s : State) (pipe : Nat) (e : Nat × Copy) : State :=
  if e.2.pipe != pipe then s
  else if e.2.stage == .queued then (s.count (C.iqmRestartDrop pipe)).loseCopy e.1
  else if !e.2.ct then s
  else if e.2.stage == .transmitting then (s.stompTx e.1).settleCredits e.2.port
  else (s.count (C.iqmRestartDrop pipe)).loseCopy e.1

/-- The frames of a pipeline that no copy holds any more, their remaining bytes discarded. -/
def State.dropOrphans (s : State) (pipe : Nat) : State :=
  s.pk.pkts.foldl (fun t e =>
    if e.2.pipe == pipe && e.2.stage == .queued && !(t.pk.copies.any fun c => c.2.pkt == e.1) then
      { t with pk := { t.pk with pkts := SMap.del t.pk.pkts e.1 } }.detachRx e.1
    else t) s

/-- A contained restart of a pipeline's queue manager begins (R341): every copy it holds is dropped, each VOQ sends EMPTY,
and arrivals are dropped until it ends. -/
def State.qmRestartBegin (s : State) (pipe : Nat) : State :=
  if s.pk.qmRestart.contains pipe then s
  else
    let s1 := (s.pk.copies.foldl (fun t e => t.restartCopy pipe e) s).dropOrphans pipe
    let s2 := { s1 with pk := { s1.pk with
      qmRestart := pipe :: s1.pk.qmRestart,
      ctReqs := s1.pk.ctReqs.filter fun m => m.pipe != pipe,
      denies := s1.pk.denies.filter fun m => m.pipe != pipe } }
    (((s2.setF F.iqmEvent_restartSeen pipe 1).setF F.iqmStatus_restartActive pipe 1).syncIqm pipe).raise 0x4403 pipe

/-- QM_RESTART_COMPLETE (R341). -/
def execQmRestartComplete (pipe : Nat) (s : State) : Host.Outcome State Fault Refusal :=
  .next (if s.pk.qmRestart.contains pipe then
      ({ s with pk := { s.pk with qmRestart := s.pk.qmRestart.filter (· != pipe) } }.setF F.iqmStatus_restartActive pipe
        0).endCondition 0x4403 pipe
    else s)

/-- The number of the cell, descriptor or queue entry that a memory error of a copy's frame stands in (R344). -/
def State.eccIndex (s : State) (c : Copy) (e : EccErr) : Nat :=
  if e.table == 3 then c.entry
  else (SMap.find? s.pk.pkts c.pkt).elim 0 fun p => if e.table == 2 then p.desc.getD 0 else p.cellNos.getD e.word 0

/-- A memory error that the reading or the crossing of a copy's cell meets (R341). Tables: 0 cell data, 1 link entry,
2 descriptor, 3 queue entry, 4 a crossbar cell store; `word` is the cell's place in the frame's chain. -/
def State.copyEcc (s : State) (cid : Nat) (c : Copy) (e : EccErr) : State :=
  if e.table == 4 then
    let s1 := s.fabCapture c.pipe (pipeOf c.port) e.double
    if e.double then
      (((s1.setF F.fabEvent_eccUncorrSeen 0 1).count C.fabEccBad).raise 0xC002 c.pipe (pipeOf c.port)).eccCopy cid
    else (s1.setF F.fabEvent_eccCorrSeen 0 1).raise 0xC001 c.pipe (pipeOf c.port)
  else
    let s1 := s.iqmCapture c.pipe { e with index := s.eccIndex c e }
    if !e.double then (s1.setF F.iqmEvent_eccCorrSeen c.pipe 1).raise 0x4401 c.pipe e.table
    else
      let s2 := s1.setF F.iqmEvent_eccUncorrSeen c.pipe 1
      if e.table == 0 then
        ((s2.modPkt c.pkt fun p => { p with badCells := e.word :: p.badCells }).raise 0x4402 c.pipe).eccCopy cid
      else s2.qmRestartBegin c.pipe

/-! ## Sending (R318, R320, R324) -/

/-- A copy of a map changed. -/
def State.modCopy (s : State) (cid : Nat) (f : Copy → Copy) : State :=
  { s with pk := { s.pk with copies := SMap.modify s.pk.copies cid f } }

/-- Bytes that a copy's sending takes from its VOQ's credit: the frame as stored, with its FCS. -/
def Pkt.creditBytes (p : Pkt) : Nat := p.head.length + p.body.length + 4

/-- A stored copy is read into the crossbar: its bytes leave the VOQ's balance and its cells lose a reference (R318,
R329). -/
def State.sendCopy (s : State) (cid : Nat) (c : Copy) (p : Pkt) : State :=
  let k := voqKey c.pipe c.port c.cls
  let s1 := { s with pk := { s.pk with balance := SMap.update 0 s.pk.balance k (· - (p.creditBytes : Int)) } }
  let s2 := s1.modCopy cid fun q => { q with stage := .crossing, sent := p.refs.length, paid := p.creditBytes }
  s2.releaseCells c.pkt fun refs => lowerRefs refs 0

/-- A VOQ sends head copies while its balance is positive, dropping expired ones (R315, R318). A stored copy is sent once
its frame's end is known, since a frame that ends bad is dropped where it stands (R87; log entry 73). -/
def State.sendVoqFrom : List (Nat × Copy) → Option EccErr → State → State
  | [], _, s => s
  | (cid, c) :: rest, err, s =>
    if SMap.getD s.pk.balance (voqKey c.pipe c.port c.cls) 0 ≤ 0 then s
    else if s.expired c then State.sendVoqFrom rest err (s.ageDrop cid c)
    else
      match SMap.find? s.pk.pkts c.pkt with
      | none => s
      | some p =>
        if c.ct || p.arriving then s
        else
          let s1 := err.elim s fun e => s.copyEcc cid c e
          if !SMap.has s1.pk.copies cid then State.sendVoqFrom rest none s1
          else if !p.badCells.isEmpty then State.sendVoqFrom rest none (s1.eccCopy cid)
          else State.sendVoqFrom rest none (s1.sendCopy cid c p)

/-- A VOQ sends what its balance pays for, and EMPTY once its last copy has left (R316, R318). -/
def State.sendVoq (s : State) (pipe port c : Nat) (err : Option EccErr := none) : State :=
  let s1 := State.sendVoqFrom (s.voq pipe port c) err s
  if decide (SMap.getD s1.pk.balance (voqKey pipe port c) 0 > 0) || !(s.voq pipe port c).isEmpty then
    s1.sendEmpty pipe port c
  else s1

/-- The `place`-th message for a pipeline, taken out. -/
def takeQMsg (pipe : Nat) : Nat → List QMsg → Option (QMsg × List QMsg)
  | _, [] => none
  | n, m :: ms =>
    if m.pipe == pipe then
      match n with
      | 0 => some (m, ms)
      | k + 1 => (takeQMsg pipe k ms).map fun e => (e.1, m :: e.2)
    else (takeQMsg pipe n ms).map fun e => (e.1, m :: e.2)

/-- GRANT_ARRIVAL (R94, R315, R318, R341): a grant reaches its VOQ; `err` is a memory error that reading the first copy
meets. -/
def execGrantArrival (pipe place : Nat) (err : Option EccErr) (s : State) : Host.Outcome State Fault Refusal :=
  .next (match takeQMsg pipe place s.pk.grants with
    | none => s
    | some (m, rest) =>
      let s1 := { s with pk := { s.pk with
        grants := rest, balance := SMap.update 0 s.pk.balance (voqKey pipe m.port m.cls) (· + m.credit) } }
      ((s1.touchCredits m.port).sendVoq pipe m.port m.cls err).touchCredits m.port)

/-! ## Landing (R319 to R321, R324) -/

/-- A copy is on its way to its landing buffer. -/
def Copy.coming (c : Copy) : Bool := (c.stage == .crossing && (c.landSeq == 0 || c.ct)) || (c.stage == .transmitting && c.ct)

/-- Cells of a frame as far as they are written. -/
def Pkt.writtenCells (p : Pkt) : Nat := p.headCells + p.bodyCells

/-- Bytes of a copy that its first `n` cells hold. -/
def Pkt.cellBytes (p : Pkt) (n : Nat) : Nat :=
  if n ≥ p.headCells then p.head.length + Nat.min p.body.length (256 * (n - p.headCells)) else 256 * n

/-- Copies of an egress pipeline whose next cell can land, none overtaking an earlier copy of its VOQ. -/
def State.comingCopies (s : State) (egress : Nat) : List (Nat × Copy) :=
  s.pk.copies.filter fun e =>
    pipeOf e.2.port == egress && e.2.coming
      && (SMap.find? s.pk.pkts e.2.pkt).elim false (fun p => decide (e.2.landed < p.writtenCells))
      && !s.pk.copies.any fun b => decide (b.1 < e.1) && b.2.stage == .crossing && b.2.landSeq == 0
        && b.2.pipe == e.2.pipe && b.2.port == e.2.port && b.2.cls == e.2.cls

/-- A copy can be started: a stored copy with all its cells, a cut-through one with 256 bytes or its whole frame (R91,
R319). -/
def startable (c : Copy) (p : Pkt) : Bool :=
  let whole := !p.arriving && decide (c.landed ≥ p.writtenCells)
  whole || (c.ct && decide (p.cellBytes c.landed ≥ 256))

/-- Cells in an egress pipeline's landing buffer (R319). -/
def State.landed (s : State) (egress : Nat) : Nat :=
  s.pk.copies.foldl (fun a e => if pipeOf e.2.port == egress && e.2.stage != .queued then a + e.2.landed else a) 0

/-- The direction in which a copy's cells cross the die bridge: 0 fore to aft, 1 aft to fore (R320, R345). -/
def Copy.over (c : Copy) : Option Nat :=
  if c.pipe < 16 then (if pipeOf c.port ≥ 16 then some 0 else none) else if pipeOf c.port < 16 then some 1 else none

/-- The bytes that a copy's next cell crosses the bridge with: a header of 16 and its occupied bytes, in units of 16 (R20). -/
def crossBytes (c : Copy) (p : Pkt) : Nat := 16 + 16 * ceilDiv (p.cellBytes (c.landed + 1) - p.cellBytes c.landed) 16

/-- A direction's count of cell bytes brought to the present microsecond. -/
def State.bridgeNow (s : State) (d : Nat) : Nat × Nat × Nat :=
  let us := s.tm.ticks / 1000
  let (t, now, last) := SMap.getD s.pk.bridge d (0, 0, 0)
  if t == us then (t, now, last) else (us, 0, if t + 1 == us then now else 0)

/-- The bridge has room for a cell: 36 Tbit/s each way, 4,500,000 bytes in a microsecond. DESIGN CHOICE: the cells alone
are counted
against it (log entry 253). -/
def State.bridgeRoom (s : State) (c : Copy) (p : Pkt) : Bool :=
  c.over.elim true fun d => decide ((s.bridgeNow d).2.1 + crossBytes c p ≤ 4500000)

/-- A cell crosses the bridge and is counted (R20, R343, R345). -/
def State.crossBridge (s : State) (c : Copy) (p : Pkt) : State :=
  match c.over with
  | none => s
  | some d =>
    let (t, now, last) := s.bridgeNow d
    { s with pk := { s.pk with bridge := SMap.set s.pk.bridge d (t, now + crossBytes c p, last) } }.count
      (if d == 0 then C.fabCellsFa else C.fabCellsAf)

/-- The FAB registers show the cells that wait for the bridge, those read into the crossbar and not landed, and the load of
the last
microsecond in Gbit/s (R345; log entry 253). -/
def State.syncFab (s : State) : State :=
  let wait (d : Nat) : Nat := s.pk.copies.foldl (fun a e =>
    if e.2.stage == .crossing && e.2.over == some d then a + (e.2.sent - e.2.landed) else a) 0
  let load (d : Nat) : Nat := (s.bridgeNow d).2.2 * 8 / 1000
  (((s.setF F.fabStatus_waitFa 0 (wait 0)).setF F.fabStatus_waitAf 0 (wait 1)).setF F.fabBridgeLoad_loadFa 0 (load 0)).setF
    F.fabBridgeLoad_loadAf 0 (load 1)

/-- One more cell of a copy is in the landing buffer. -/
def State.landCell (s : State) (cid : Nat) (c : Copy) : State :=
  let s1 := (SMap.find? s.pk.pkts c.pkt).elim s fun p => s.crossBridge c p
  let c1 := { c with landed := c.landed + 1, sent := if c.ct then c.landed + 1 else c.sent }
  let s2 := s1.modCopy cid fun _ => c1
  let s3 := if c.ct then s2.releaseCells c.pkt fun refs =>
      refs.zipIdx.map fun e => if e.2 == c.landed then e.1 - 1 else e.1
    else s2
  match SMap.find? s3.pk.pkts c.pkt with
  | none => s3
  | some p =>
    if c1.landSeq == 0 && startable c1 p then
      let s4 := s3.modCopy cid fun q => { q with landSeq := s3.pk.nextLand + 1 }
      { s4 with pk := { s4.pk with nextLand := s4.pk.nextLand + 1 } }
    else s3

/-- The copies that a crossbar output may take a cell of next: those of the first input with cells waiting, from the round
robin's
place on (R320). -/
def State.nextInput (s : State) (egress : Nat) : List (Nat × Copy) :=
  let l := s.comingCopies egress
  let at_ := SMap.getD s.pk.xbarRr egress 0
  match ((List.range 32).map fun i => (at_ + i) % 32).find? fun n => l.any fun e => e.2.pipe == n with
  | none => []
  | some n => l.filter fun e => e.2.pipe == n

/-- CELL_LANDING (R20, R88, R319 to R321, R324, R329, R341): a crossbar output takes a cell of the next input in
round-robin order,
that of the `place`-th copy coming from it; it waits while the landing buffer is full or the bridge has no room. `err` is a
memory
error of its reading or its crossing. -/
def execCellLanding (egress place : Nat) (err : Option EccErr) (s : State) : Host.Outcome State Fault Refusal :=
  .next (match (s.nextInput egress)[place]? with
    | none => s
    | some (cid, c) =>
      if s.landed egress ≥ 1024 then s
      else if !(SMap.find? s.pk.pkts c.pkt).elim true (s.bridgeRoom c) then s.setF F.fabEvent_bridgeWaitSeen 0 1
      else
      let s0 := { s with pk := { s.pk with xbarRr := SMap.put 0 s.pk.xbarRr egress ((c.pipe + 1) % 32) } }
      let s1 := err.elim s0 fun e => s0.copyEcc cid c e
      match SMap.find? s1.pk.copies cid, SMap.find? s1.pk.pkts c.pkt with
      | some c1, some p =>
        if p.badCells.contains c1.landed then s1.eccCopy cid else s1.landCell cid c1
      | _, _ => s1)

/-! ## Cut-through requests (R322, R323) -/

/-- The scheduler may grant cut-through at a port. -/
def State.ctGrantable (s : State) (port : Nat) : Bool :=
  !(s.pk.copies.any fun e => e.2.port == port && (e.2.stage == .transmitting || e.2.landSeq != 0))
    && (List.range 8).all (fun c => (s.backlogged port c).isEmpty)
    && decide (s.outstanding port (fun _ => true) < s.window port) && !s.pk.reserved.contains port && s.linkUp port

/-- The copy that a CT_REQ asks for. -/
def State.ctCopy (s : State) (m : QMsg) : Option (Nat × Copy) :=
  (s.voq m.pipe m.port m.cls).find? fun e => e.2.ct

/-- CT_REQUEST (R323, R324): of the CT_REQs that have reached a port, the one that the rotating priority gives is granted
and takes a credit and the port, or is answered DENY. -/
def execCtRequest (port : Nat) (s : State) : Host.Outcome State Fault Refusal :=
  let from_ := SMap.getD s.pk.ctRr port 0
  let here := s.pk.ctReqs.filter fun m => m.port == port
  .next (match ((List.range 32).map fun i => (from_ + i) % 32).findSome? fun n => here.find? fun m => m.pipe == n with
    | none => s
    | some m =>
      let s1 := { s with pk := { s.pk with
        ctReqs := s.pk.ctReqs.erase m, ctRr := SMap.put 0 s.pk.ctRr port ((m.pipe + 1) % 32) } }
      match s1.ctCopy m with
      | none => s1
      | some (cid, _) =>
        if s1.ctGrantable port then
          let s2 := { s1 with pk := { s1.pk with
            credits := SMap.update 0 s1.pk.credits (voqKey m.pipe port m.cls) (· + 2048), reserved := port :: s1.pk.reserved } }
          ((s2.modCopy cid fun q => { q with stage := .crossing, paid := 2048 }).count (C.iqmCtFrames m.pipe)).syncIqm m.pipe
        else { s1 with pk := { s1.pk with denies := s1.pk.denies ++ [m] } })

/-- CT_DENY (R323): the copy is queued in its VOQ and a REQ follows. -/
def execCtDeny (pipe : Nat) (s : State) : Host.Outcome State Fault Refusal :=
  .next (match takeQMsg pipe 0 s.pk.denies with
    | none => s
    | some (m, rest) =>
      let s1 := { s with pk := { s.pk with denies := rest } }.count (C.iqmCtDenied pipe)
      match s1.ctCopy m with
      | none => s1
      | some (cid, _) => (s1.modCopy cid fun q => { q with ct := false }).sendReq pipe m.port m.cls)

/-! ## The words of the packet buffer (R304 to R306) -/

/-- The link entry of the `k`-th cell of a frame's chain (R304). -/
def Pkt.linkEntry (p : Pkt) (k : Nat) : Nat :=
  let used := p.cellBytes (k + 1) - p.cellBytes k
  (p.cellNos.getD (k + 1) 0x7FFF) <<< 17 + (p.refs.getD k 0) <<< 8 + (used - 1)

/-- The eight words of a frame's descriptor, word 0 first (R305). -/
def State.descWords (s : State) (id : Nat) (p : Pkt) : List Nat :=
  let ct := s.pk.copies.any fun e => e.2.pkt == id && e.2.ct
  let (off, encap) := p.par.ptp.getD (0, 0)
  [p.inPort <<< 24,
   (if p.fwdOp == 1 then p.fwdTarget else 0) <<< 14 + p.verdict <<< 12 + b2n p.par.ptp.isSome <<< 11 + encap <<< 9 + off <<< 1,
   (p.group.getD 0) <<< 16 + b2n (!p.mirrors.isEmpty) <<< 15 + (p.mirrors.head?.getD 0) <<< 9 + p.colour <<< 7,
   b2n p.handle.isSome <<< 31 + p.handle.getD 0,
   shortTime (p.tIn / 2 ^ 16),
   p.tAdm,
   (if p.arriving then s.admitLength p else p.data.length) <<< 18 + (p.cellNos.getLast?.getD 0) <<< 3,
   1 <<< 31 + b2n (decide (p.admitted > 1)) <<< 30 + b2n ct <<< 29 + b2n (!p.arriving) <<< 28 + b2n p.bad <<< 27 + p.cls <<< 24
     + p.admitted <<< 15 + p.cellNos.headD 0]

/-- The two words of a copy's queue entry, word 0 first (R306). -/
def State.entryWords (s : State) (cid : Nat) (c : Copy) : List Nat :=
  let later := (s.voq c.pipe c.port c.cls).filter fun e => decide (cid < e.1)
  let desc := ((SMap.find? s.pk.pkts c.pkt).bind (·.desc)).getD 0
  [c.port <<< 24 + (c.nextHop.getD 0) <<< 6 + c.cls <<< 3,
   (later.head?.elim 0xFFFF fun e => e.2.entry) <<< 16 + desc <<< 1 + b2n c.mirror.isSome]

end Sys2Proof.Machine
end

