-- ==== Sys2Proof/Machine/Egress.lean ====
section
/-! DEFINITION. Transmit selection, egress edit and the end of a frame's transmission (R39 to R47, R86, R88, R91, R340,
R350, R361, R369, R370, R460). -/

namespace Sys2Proof.Machine

/-! ## Headers of the frame as bytes -/

/-- Where the EtherType after the VLAN tags stands. -/
def typeOffset (bs : List Nat) : Nat → Nat → Nat
  | 0, off => off
  | n + 1, off =>
    let t := beAt bs off 2
    if t == 0x8100 || t == 0x88A8 then typeOffset bs n (off + 4) else off

/-- The outer IP layer: its offset and whether it is IPv6. An IP layer below another EtherType is no outer one (log
entry 74). -/
def outerIp (bs : List Nat) : Option (Nat × Bool) :=
  let o := typeOffset bs 3 12
  let t := beAt bs o 2
  if t == 0x0800 then some (o + 2, false) else if t == 0x86DD then some (o + 2, true) else none

/-- The PTP header of an injected frame in its outermost layer: its offset and encapsulation (R41). -/
def findPtp (bs : List Nat) : Option (Nat × Nat) :=
  let o := typeOffset bs 3 12
  if beAt bs o 2 == 0x88F7 then some (o + 2, 0)
  else
    match outerIp bs with
    | some (i, false) =>
      let u := i + bs.getD i 0 % 16 * 4
      if bs.getD (i + 9) 0 == 17 && beAt bs (u + 2) 2 == 319 then some (u + 8, 1) else none
    | some (i, true) =>
      if bs.getD (i + 6) 0 == 17 && beAt bs (i + 42) 2 == 319 then some (i + 48, 2) else none
    | none => none

/-! ## Rewrite (R369, R370) -/

/-- Why egress edit drops a copy. -/
inductive EditDrop where
  | rewrite
  | ttl
  | mtu
  deriving DecidableEq, Repr

/-- The rewrite index of a next hop; 0 where it has none. -/
def State.rewriteOf (s : State) (nh : Option Nat) : Nat :=
  (nh.bind fun n => SMap.find? s.cls.nextHops n).elim 0 (·.rewrite)

/-- The entry that a copy reads: none where it is invalid or damaged. -/
def State.rewriteEntry (s : State) (i : Nat) : Option (List Nat) :=
  (SMap.find? s.egs.rewrites i).filter fun w => bitOf (wordAt w 3) 31 && !s.egs.badRewrite.contains i

/-- The destination and source MAC of a rewrite entry. -/
def rwDmac (w : List Nat) : List Nat := bytesBE 2 (wordAt w 3 % 2 ^ 16) ++ bytesBE 4 (wordAt w 2)
def rwSmac (w : List Nat) : List Nat := bytesBE 4 (wordAt w 1) ++ bytesBE 2 (wordAt w 0 / 2 ^ 16)

/-- The VLAN operation of a rewrite entry on a frame; replacing or popping the tag of an untagged frame changes nothing
(log entry 75). -/
def rwVlan (w : List Nat) (bs : List Nat) : List Nat :=
  let op := bitsOf (wordAt w 3) 30 29
  let tagged := beAt bs 12 2 == 0x8100 || beAt bs 12 2 == 0x88A8
  let vid := bitsOf (wordAt w 0) 11 0
  let pcp := bitsOf (wordAt w 0) 14 12
  let set := bitOf (wordAt w 0) 15
  if op == 1 && tagged then
    let old := beAt bs 14 2
    putBytes bs 14 (bytesBE 2 ((if set then pcp <<< 13 + old / 4096 % 2 * 4096 else old / 4096 * 4096) + vid))
  else if op == 2 then bs.take 12 ++ [0x81, 0x00] ++ bytesBE 2 ((if set then pcp <<< 13 else 0) + vid) ++ bs.drop 12
  else if op == 3 && tagged then bs.take 12 ++ bs.drop 16
  else bs

/-- A rewrite entry's MACs and VLAN operation on a frame. -/
def rwApply (w : List Nat) (bs : List Nat) : List Nat :=
  let b1 := if bitOf (wordAt w 3) 27 then putBytes bs 0 (rwDmac w) else bs
  let b2 := if bitOf (wordAt w 3) 26 then putBytes b1 6 (rwSmac w) else b1
  rwVlan w b2

/-- The TTL or hop limit decremented; none where it drops the copy (R369). -/
def decTtl (bs : List Nat) : Option (List Nat) :=
  match outerIp bs with
  | none => some bs
  | some (i, true) =>
    let h := bs.getD (i + 7) 0
    if h ≤ 1 then none else some (setAt bs (i + 7) (h - 1))
  | some (i, false) =>
    let t := bs.getD (i + 8) 0
    if t ≤ 1 then none
    else
      let old := beAt bs (i + 8) 2
      let b1 := setAt bs (i + 8) (t - 1)
      some (putBytes b1 (i + 10) (bytesBE 2 (csumUpdate (beAt bs (i + 10) 2) old (beAt b1 (i + 8) 2) 16)))

/-! ## Mirror copies (R340) -/

/-- Header bytes that a session's GRE wrap adds. -/
def greBytes (m : MirrorSession) : Nat := if m.ipv6 then 62 else 42

/-- The outer IPv4 header with its checksum; the identification is open. -/
def greIpv4 (m : MirrorSession) (len ident : Nat) : List Nat :=
  let hd (c : Nat) : List Nat := [0x45, trunc 6 m.dscp <<< 2] ++ bytesBE 2 (len + 20) ++ bytesBE 2 ident ++ [0x40, 0, m.ttl % 256, 47]
    ++ bytesBE 2 c ++ bytesAt m.srcAddr 0 4 ++ bytesAt m.dstAddr 0 4
  hd (65535 - fold16 (ocSum (numBE (hd 0)) 160))

/-- The outer IPv6 header; the flow label is open. -/
def greIpv6 (m : MirrorSession) (len label : Nat) : List Nat :=
  bytesBE 4 (6 <<< 28 + trunc 6 m.dscp <<< 22 + label % 2 ^ 20) ++ bytesBE 2 len ++ [47, m.ttl % 256]
    ++ bytesAt m.srcAddr 0 16 ++ bytesAt m.dstAddr 0 16

/-- A mirrored frame wrapped in GRE. -/
def greWrap (m : MirrorSession) (mac : List Nat) (session inPort : Nat) (egress : Bool) (open_ : Nat) (bs : List Nat) :
    List Nat :=
  let gre := [0x20, 0, 0x65, 0x58, session % 256, inPort % 256] ++ bytesBE 2 (b2n egress <<< 15) ++ bs
  let ip := if m.ipv6 then greIpv6 m gre.length open_ else greIpv4 m gre.length (open_ % 2 ^ 16)
  mac ++ bytesBE 2 (if m.ipv6 then 0x86DD else 0x0800) ++ ip ++ gre

/-- The frame data of a mirror copy: cut to trunc_len and to what the mirror port's max_frame lets pass. -/
def State.mirrorData (s : State) (c : Copy) (m : MirrorSession) (bs : List Nat) : State × List Nat :=
  let room := s.getF F.portCfg_maxFrame c.port - 4 - (if m.gre then greBytes m else 0)
  let n := if m.trunc == 0 then room else Nat.min m.trunc room
  if bs.length > n then (s.count (C.iqmMirrorTrunc c.pipe), bs.take n) else (s, bs)

/-! ## PTP (R39, R41 to R47) -/

/-- A correctionField with residence and link delay added, in 2^-16 ns; it stops at its top (R44). -/
def corrNew (old : Nat) (r : Int) (lin : Nat) : Nat :=
  let top : Nat := 0x7FFFFFFFFFFFFFFF
  let o : Int := if old ≥ 2 ^ 63 then (old : Int) - 2 ^ 64 else old
  let v := o + r + lin
  if old == top || v > top then top else (v % 2 ^ 64).toNat

/-- Bytes of a PTP message replaced and a UDP checksum kept right (R46). -/
def ptpPut (bs : List Nat) (off encap at_ : Nat) (v : List Nat) : List Nat :=
  let w := 8 * v.length
  let b1 := putBytes bs (off + at_) v
  let hc := beAt bs (off - 2) 2
  if encap == 0 || hc == 0 then b1
  else
    let x := csumUpdate hc (beAt bs (off + at_) v.length) (numBE v) w
    putBytes b1 (off - 2) (bytesBE 2 (if x == 0 then 0xFFFF else x))

/-- Residence time in 2^-16 ns (R44). -/
def residence (d tIn : Nat) : Int :=
  wrapDiff (shortTime (d / 2 ^ 16)) (shortTime (tIn / 2 ^ 16)) 32 * 2 ^ 16 + ((d % 2 ^ 16 : Nat) : Int) - (tIn % 2 ^ 16 : Nat)

/-- The timestamps of a port may not be used for one-step correction (R39, R96). -/
def State.pointInvalid (s : State) (port : Nat) : Bool :=
  (SMap.getD s.tm.points port TsPoint.good).invalid || (s.portInfo port).tsInvalid

/-- A residence entry written: the oldest is replaced when the table is full (R45). -/
def State.addResidence (s : State) (pipe : Nat) (e : ResEntry) : State :=
  let l := SMap.getD s.tm.residence pipe []
  let s1 := if l.length ≥ 256 then s.addF F.egsTcCount_tcRtEvict pipe 1 else s
  { s1 with tm := { s1.tm with residence := SMap.set s1.tm.residence pipe (e :: l.take 255) } }

/-- The residence entry that a follow-up message matches. -/
def sameResidence (port : Nat) (m : List Nat) (e : ResEntry) : Bool :=
  e.port == port && e.domainNumber == m.getD 4 0 && e.source == bytesAt m 20 10 && e.seqId == beAt m 30 2

/-- A message the transparent clock leaves unchanged is counted (R39, R42, R46). -/
def State.tcSkip (s : State) (port : Nat) (bs : List Nat) : State × List Nat := (s.count (C.tcSkip port), bs)

/-- A packet's ingress side is enabled for correction: its ingress port is; of a frame from another member that member has
looked
(log entry 242). -/
def State.tcIngress (s : State) (p : Pkt) : Bool := p.src ≥ 2048 || s.tm.tcPorts.contains p.inPort

/-- Transparent-clock correction of a frame that leaves `port` at `d` (R41 to R46). -/
def State.tcEdit (s : State) (p : Pkt) (port d off encap : Nat) (bs : List Nat) : State × List Nat :=
  let m := bs.drop off
  let kind := m.getD 0 0 % 16
  let p2p := s.tm.tcMode == 2
  let lin := if p2p && p.src < 2048 then SMap.getD s.tm.linkDelay p.inPort 0 else 0
  let event := kind == 0 || (!p2p && (kind == 1 || kind == 2 || kind == 3))
  let bad := encap == 2 && beAt bs (off - 2) 2 == 0
  if s.tm.tcMode == 0 || !s.tcIngress p || !s.tm.tcPorts.contains port then (s, bs)
  else if p2p && kind == 1 then s.tcSkip port bs
  else if event then
    let r := residence d p.tIn
    if p.tInvalid || s.pointInvalid port then s.tcSkip port bs
    else if bitOf (m.getD 6 0) 1 then
      (s.addResidence (pipeOf port) ⟨port, m.getD 4 0, bytesAt m 20 10, beAt m 30 2, r, if p.src ≥ 2048 then 512 else p.inPort,
        p.tIn, s.now, false⟩, bs)
    else if bad then s.tcSkip port bs
    else (s, ptpPut bs off encap 8 (bytesBE 8 (corrNew (beAt m 8 8) r (if kind == 0 then lin else 0))))
  else if kind == 8 || (!p2p && kind == 0xA) then
    let l := SMap.getD s.tm.residence (pipeOf port) []
    match l.find? (sameResidence port m) with
    | none => (s.addF F.egsTcCount_tcFuNomatch (pipeOf port) 1, bs)
    | some e =>
      let s1 := { s with tm := { s.tm with residence := SMap.put [] s.tm.residence (pipeOf port) (l.erase e) } }
      if bad || e.invalid then s1.tcSkip port bs
      else (s1, ptpPut bs off encap 8 (bytesBE 8 (corrNew (beAt m 8 8) e.r (if kind == 8 then lin else 0))))
  else (s, bs)

/-- The origin timestamp of a one-step event message that was injected (R47): D's seconds and whole nanoseconds, and D's
fraction added to correctionField. -/
def originEdit (d off encap : Nat) (bs : List Nat) : List Nat :=
  let m := bs.drop off
  if m.getD 0 0 % 16 ≤ 3 && !bitOf (m.getD 6 0) 1 then
    let ns := d / 2 ^ 16
    let b1 := ptpPut bs off encap 34 (bytesBE 6 (ns / 1000000000) ++ bytesBE 4 (ns % 1000000000))
    ptpPut b1 off encap 8 (bytesBE 8 (corrNew (beAt m 8 8) ((d % 2 ^ 16 : Nat) : Int) 0))
  else bs

/-- A packet was injected through a ring or by a Criod thread (R106, R332). -/
def Pkt.injected (p : Pkt) : Bool := 256 ≤ p.src && p.src < 2048

/-- PTP handling of a copy (R369 step 4): an injected event message takes its origin timestamp, any other is corrected.
`moved` is by how much the VLAN operation moved the header. -/
def State.ptpEdit (s : State) (c : Copy) (p : Pkt) (d : Nat) (moved : Int) (bs : List Nat) : State × List Nat :=
  if p.injected then
    match findPtp bs with
    | some (off, encap) => (s, originEdit d off encap bs)
    | none => (s, bs)
  else
    match p.par.ptp with
    | some (off, encap) => s.tcEdit p c.port d ((off : Int) + moved).toNat encap bs
    | none => (s, bs)

/-! ## Egress edit (R369) -/

/-- A memory error in the rewrite entry that a copy reads (R370). -/
def State.rewriteEcc (s : State) (port i : Nat) (errs : List EccErr) : State :=
  match errs.find? fun e => e.table == 1 && e.index == i with
  | none => s
  | some e =>
    let s1 := s.egsCapture (pipeOf port) 1 (port % 8) i e.double
    if e.double then
      { s1 with egs := { s1.egs with badRewrite := i :: s1.egs.badRewrite.filter (· != i) } }
    else s1.raise 0xB001 (pipeOf port)

/-- Rewrite and TTL of a copy (steps 1 and 2), on the bytes given: the bytes and by how much headers behind the tags
moved. -/
def State.rewriteEdit (s : State) (c : Copy) (bs : List Nat) : Except EditDrop (List Nat × Int) :=
  let i := s.rewriteOf c.nextHop
  if i == 0 then .ok (bs, 0)
  else
    match s.rewriteEntry i with
    | none => .error .rewrite
    | some w =>
      let b1 := rwApply w bs
      let moved : Int := (b1.length : Int) - bs.length
      if bitOf (wordAt w 3) 28 then (match decTtl b1 with
        | some b2 => .ok (b2, moved)
        | none => .error .ttl)
      else .ok (b1, moved)

/-- A frame padded to 60 bytes; the padding is open (R86). -/
def State.padFrame (s : State) (bs : List Nat) : State × List Nat :=
  if bs.length ≥ 60 then (s, bs)
  else (s.draw, bs ++ (List.range (60 - bs.length)).map fun i => s.freeVal / 256 ^ i % 256)

/-- A GRE-wrapped mirror copy (R340). -/
def State.greEdit (s : State) (c : Copy) (p : Pkt) (n : Nat) (egress : Bool) (m : MirrorSession) :
    State × Except EditDrop (List Nat) :=
  match s.rewriteEntry (s.rewriteOf (some m.nextHop)) with
  | none => (s, .error .rewrite)
  | some w =>
    let (s1, bs) := s.mirrorData c m p.data
    (s1.draw, .ok (greWrap m (rwDmac w ++ rwSmac w) n p.inPort egress s1.freeVal bs))

/-- Egress edit of a copy that would be launched at `d`: the frame without FCS, or why it is dropped. A cut-through copy's
head alone is edited. -/
def State.egressEdit (s : State) (c : Copy) (p : Pkt) (d : Nat) : State × Except EditDrop (List Nat) :=
  let maxLen := s.getF F.portCfg_maxFrame c.port
  let session := c.mirror.bind fun m => (SMap.find? s.pk.sessions m.1).map fun x => (m, x)
  if (s.linkOfPort c.port).isSome then (s, .ok p.data)
  else
  match session with
  | some ((n, egress), m) =>
    if m.gre then s.greEdit c p n egress m
    else
      let (s1, bs) := s.mirrorData c m p.data
      let (s2, b2) := s1.ptpEdit c p d 0 bs
      let (s3, b3) := s2.padFrame b2
      (s3, .ok b3)
  | none =>
    match s.rewriteEdit c (if c.ct then p.head else p.data) with
    | .error e => (s, .error e)
    | .ok (b1, moved) =>
      let (s1, b2) := s.ptpEdit c p d moved b1
      let (s2, b3) := if c.ct then (s1, b2) else s1.padFrame b2
      if b3.length + (if c.ct then p.body.length else 0) + 4 > maxLen then (s, .error .mtu) else (s2, .ok b3)

/-- A copy that egress edit drops is counted in its egress pipeline (R369, R370); one cut through that is too long is
counted as stomped too. -/
def State.editDrop (s : State) (cid : Nat) (c : Copy) (e : EditDrop) : State :=
  let n := pipeOf c.port
  let s1 := match e with
    | .rewrite => (s.count (C.egsRewriteDrop n)).setF F.egsEvent_rewriteDropSeen n 1
    | .ttl => (s.count (C.egsTtlDrop n)).setF F.egsEvent_ttlDropSeen n 1
    | .mtu => (s.count (C.egsMtuDrop n)).setF F.egsEvent_mtuDropSeen n 1
  if e == .mtu && c.ct then
    let s2 := match SMap.find? s1.pk.pkts c.pkt with
      | some p => s1.modCopy cid fun q =>
        if q.stage == CopyStage.transmitting then q else { q with stage := CopyStage.transmitting, out := p.head }
      | none => s1
    (s2.stompTx cid).settleCredits c.port
  else s1.loseCopy cid

/-! ## Transmit selection (R350) -/

/-- The first transmit start position of a port at or after `t` (R43). -/
def State.startPosition (s : State) (port t : Nat) : Nat :=
  let iv := Config.startInterval (s.getF F.portCfg_laneRate port) (s.getF F.portCfg_lanes port)
  let r := (t + Config.startPhase port) % iv
  if iv == 0 || r == 0 then t else t + (iv - r)

/-- The correction of a port's PCS at a time, in 2^-16 ns; of PAM4 ports only (R73, R96). -/
def State.pcsCorrection (s : State) (port t : Nat) : Int :=
  if s.getF F.portCfg_laneRate port ≥ 2 then Config.pcsPosition port t else 0

/-- The launch instant of a frame whose egress edit is now, at the MDI: the first start position at or after the time plus the
launch latency, in the port's copy of network time, corrected by tx_lat and the PCS (R37, R40, R43, R96). -/
def State.launchAt (s : State) (port : Nat) : Nat :=
  let t := s.startPosition port (s.copyAt port + Config.launchLatency port)
  ((t + s.getF F.portTsLatency_txLat port * 2 ^ 10 : Nat) + s.pcsCorrection port t).toNat

/-- The head landed copy of a class. -/
def State.landedHead (s : State) (port c : Nat) : Option (Nat × Copy) :=
  (s.pk.copies.filter fun e => e.2.port == port && e.2.cls == c && e.2.stage == .crossing && e.2.landSeq != 0).foldl
    (fun a e => match a with
      | none => some e
      | some b => if e.2.landSeq < b.2.landSeq then some e else some b) none

/-- Insertion by landing order. -/
def insertLanded (e : Nat × Copy) : List (Nat × Copy) → List (Nat × Copy)
  | [] => [e]
  | b :: bs => if e.2.landSeq < b.2.landSeq then e :: b :: bs else b :: insertLanded e bs

/-- The head landed copies of a port in rank order: strict classes from the highest, then weighted ones as their heads
landed. -/
def State.txOrder (s : State) (port : Nat) : List (Nat × Copy) :=
  let sp := ((List.range 8).reverse.filter fun c => !(s.schedOf port c).dwrr).filterMap fun c => s.landedHead port c
  let wr := ((List.range 8).filter fun c => (s.schedOf port c).dwrr).filterMap fun c => s.landedHead port c
  sp ++ wr.foldr insertLanded []

/-- A frame is counted once when it does not fit its gate window (R361). -/
def State.noFit (s : State) (cid : Nat) (c : Copy) : State :=
  if c.nofit then s
  else ((s.modCopy cid fun q => { q with nofit := true }).count (C.gateNofit c.port)).setF F.egsEvent_gateNofitSeen
    (pipeOf c.port) 1

/-- A copy is started on the MAC: its shapers are charged and its credit falls from now on. -/
def State.startTx (s : State) (cid : Nat) (c : Copy) (d : Nat) (bs : List Nat) : State :=
  let len := (s.txBytes { c with out := bs }).length + 4
  let s1 := s.modCopy cid fun q => { q with stage := .transmitting, out := bs, launch := d, charged := len }
  (s1.chargeFrame c.port c.cls len true).settleCredits c.port

/-- The first eligible copy of a port's heads is started; a copy that its edit drops goes and the next is looked at. -/
def State.tryHeads (errs : List EccErr) : List (Nat × Copy) → State → State
  | [], s => s
  | (cid, c) :: rest, s =>
    if s.getBit F.portStatus_rxPaused c.port c.cls || s.inDebt c.port c.cls then State.tryHeads errs rest s
    else
      match SMap.find? s.pk.pkts c.pkt with
      | none => State.tryHeads errs rest s
      | some p =>
        let d := s.launchAt c.port
        let s1 := s.rewriteEcc c.port (s.rewriteOf c.nextHop) errs
        match s1.egressEdit c p d with
        | (s2, .error e) => State.tryHeads errs rest (s2.editDrop cid c e)
        | (s2, .ok bs) =>
          let len := bs.length + (if c.ct then p.body.length else 0) + 4
          if s1.fits c.port c.cls d len (s1.portRate c.port) then s2.startTx cid c d bs
          else State.tryHeads errs rest (s1.noFit cid c)

/-- TRANSMIT_SELECTION (R43, R86, R91, R346, R350 to R353, R360, R361, R369, R370): the MAC of a port can accept a frame;
`errs` are memory errors that the selection meets: tables 0 gate list, 1 rewrite, 2 shaper state. -/
def execTransmitSelection (port : Nat) (errs : List EccErr) (s : State) : Host.Outcome State Fault Refusal :=
  .next (if !s.maySend port
        || s.pk.copies.any (fun e => e.2.port == port && e.2.stage == .transmitting) then s
    else
      let s1 := s.examinePort port
      let s2 := (errs.filter fun e => e.table == 0).foldl (fun t e => t.gateEcc port e) s1
      let s3 := (errs.filter fun e => e.table == 2).foldl (fun t e => t.shaperEcc port e) s2
      State.tryHeads errs (s3.txOrder port) s3)

/-! ## The end of a transmission -/

/-- The copy in transmission at a port. -/
def State.txCopy (s : State) (port : Nat) : Option (Nat × Copy) :=
  SMap.first? s.pk.copies fun _ c => c.port == port && c.stage == .transmitting

/-- A frame that has been sent reports to the TX ring that injected it (R460). -/
def State.txSent (s : State) (c : Copy) : State :=
  match SMap.find? s.pk.pkts c.pkt with
  | none => s
  | some p =>
    match p.tx with
    | none => s
    | some (ring, slot, ts) =>
      let ns := c.launch / 2 ^ 16
      let s1 := s.modPkt c.pkt fun q => { q with tx := none }
      if ts then s1.writeBack460 ring slot 0 (ns / 1000000000 % 2 ^ 32) (ns % 1000000000) (c.launch % 2 ^ 16)
      else s1.writeBack460 ring slot 0 0 0 0

/-- A frame leaves for another member, its stack header before it (R552). -/
def State.sendMember (s : State) (link : Nat) (c : Copy) (bs : List Nat) : State :=
  match SMap.find? s.pk.pkts c.pkt with
  | none => s
  | some p =>
    let h : StkHeader := {
      nextHop := c.nextHop.getD 0, group := if p.direct.isNone then p.group else none, cls := c.cls, colour := p.colour
      verdict := p.verdict, epoch := p.epoch, member := s.stkId, inPort := p.inPort
      ptp := if s.tcIngress p then p.par.ptp else none, tIn := p.tIn
      tInvalid := p.tInvalid }
    s.sendBulk link (.frame h bs)

/-- A frame's last byte has left a port: it is counted and its credit, landing buffer and cells are freed.
What a cut-through frame's start could not charge is charged now (log entry 76). -/
def State.txDone (s : State) (cid : Nat) (c : Copy) (bs : List Nat) : State :=
  let s2 := match s.linkOfPort c.port with
    | some l => s.sendMember l c bs
    | none =>
      let s1 := s.sendLine c.port (withFcs bs false) false
      ((s1.count (C.txFrames c.port)).count (C.txOctets c.port) (bs.length + 4)).count (C.txClassFrames c.port c.cls)
  let s3 := ((s2.txSent c).leavePort c).dropCopy cid
  (s3.chargeFrame c.port c.cls (bs.length + 4 - c.charged) false).settleCredits c.port

/-- TX_FRAME_END (R86, R94, R317, R319, R323, R369): the frame in transmission at a port ends; a cut-through frame only
once its own end is known and all its cells have landed. -/
def execTxFrameEnd (port : Nat) (s : State) : Host.Outcome State Fault Refusal :=
  .next (match s.txCopy port with
    | none => s
    | some (cid, c) =>
      match SMap.find? s.pk.pkts c.pkt with
      | none => s
      | some p =>
        if c.ct && (p.arriving || c.landed < p.writtenCells) then s
        else
          let (s1, bs) := if (s.linkOfPort port).isSome then (s, s.txBytes c) else s.padFrame (s.txBytes c)
          if c.ct && bs.length + 4 > s.getF F.portCfg_maxFrame port then s.editDrop cid c .mtu
          else s1.txDone cid c bs)

/-- CT_UNDERRUN (R88, R91): the MAC has run out of a cut-through frame's bytes. -/
def execCtUnderrun (port : Nat) (s : State) : Host.Outcome State Fault Refusal :=
  .next (match s.txCopy port with
    | none => s
    | some (cid, c) =>
      if c.ct then ((s.count (C.txUnderrun port)).stompTx cid).settleCredits port else s)

end Sys2Proof.Machine
end

