-- ==== Sys2Proof/Machine/Time.lean ====
section
/-! DEFINITION. Network time: the time base, the hardware servo, the time inputs and outputs and their commands (chapter
2). The halyard and step frames and the calendar, which reach into other chapters, stand in Calendar.lean. -/

namespace Sys2Proof.Machine

/-! ## The time base (R32, R57) -/

/-- The phases of the servo (R49, R72). -/
def phAcquire : Nat := 0
def phTrack : Nat := 1
def phHoldover : Nat := 2

/-- The servo's phase. -/
def State.phase (s : State) : Nat := s.getF F.tbsServoStatus_phase

/-- A frequency in 2^-28 ppb as the time one tick moves, in 2^-48 ns. -/
def tickMove (f : Int) : Int := f * 2 ^ 20 / 1000000000

/-- Time moved forward by an increment in 2^-48 ns. -/
def TimePart.advance (t : TimePart) (inc : Nat) : TimePart :=
  let fr := t.frac + inc
  let ns := t.ns + fr / 2 ^ 48
  { t with frac := fr % 2 ^ 48, ns := ns % 1000000000, sec := (t.sec + ns / 1000000000) % 2 ^ 48 }

/-- The slew term after a tick (R57): it ramps by `step` toward the rate, or down once the remaining bias is the
distance the down-ramp moves; its sign is opposite to the bias. -/
def slewNext (bias slew rate step : Int) : Int :=
  let dir : Int := if bias > 0 then -1 else 1
  let along := slew * dir
  if along < 0 then slew + dir * step
  else
    let down := tickMove (along * (along / step) / 2)
    if bias.natAbs ≤ down.natAbs then dir * (if along - step < step then step else along - step)
    else dir * (if along + step > rate then rate else along + step)

/-- The slew of one tick: the bias moved, the bias left and the next slew term. -/
def State.slewTick (s : State) : Int × Int × Int :=
  if s.phase == phTrack && s.tm.bias != 0 then
    let rate : Int := (s.getF F.tbsSlew_slewRate : Int) * 2 ^ 28
    let ramp : Int := (s.getF F.tbsSlew_slewRamp : Int) * 1000000
    let raw : Int := if ramp == 0 then rate else rate / ramp
    let step : Int := if raw < 1 then 1 else raw
    let m := tickMove s.tm.slew
    if m.natAbs ≥ s.tm.bias.natAbs && m * s.tm.bias ≤ 0 then (-s.tm.bias, 0, 0)
    else
      let b := s.tm.bias + m
      (m, b, slewNext b s.tm.slew rate step)
  else (0, s.tm.bias, s.tm.slew)

/-- TBS_FREQ, TBS_SLEW_BIAS and slew_active show the applied frequency and the remaining bias (R57, R72). -/
def State.showServo (s : State) : State :=
  let f := s.tm.fPi + (if s.phase == phTrack then s.tm.slew else 0)
  ((s.setF F.tbsFreq_freq 0 (signedField 32 (f / 2 ^ 18))).setF F.tbsSlewBias_bias 0
    (signedField 32 (s.tm.bias / 2 ^ 48))).setB F.tbsServoStatus_slewActive 0 (s.tm.bias != 0)

/-- One tick of the 1 GHz clock (R32): network time moves by 1 ns, the PI term and the slew term; elapsed time by one
tick. -/
def State.tick (s : State) : State :=
  let (m, b, sl) := s.slewTick
  let inc : Int := 2 ^ 48 + tickMove s.tm.fPi + m
  let t := s.tm.advance inc.toNat
  { s with tm := { t with ticks := t.ticks + 1, bias := b, slew := sl } }.showServo

/-- TIME_BASE_TICK (R32, R57). -/
def execTimeBaseTick (s : State) : Host.Outcome State Fault Refusal := .next s.tick

/-! ## The servo (R48 to R57) -/

/-- An integer held within ±`m`. -/
def clampTo (m v : Int) : Int := if v > m then m else if v < -m then -m else v

/-- f_max in 2^-28 ppb. -/
def State.fMax (s : State) : Int := (s.getF F.tbsFreqMax_fMax : Int) * 2 ^ 28

/-- PPS_OUT is held low while it is not driven, or squelched without lock (R66). -/
def State.syncPps (s : State) : State :=
  if s.getB F.tbsIoCtrl_ppsOutEn && !(s.getB F.tbsIoCtrl_ppsSquelch && !s.locked) then s
  else { s with tm := { s.tm with ppsOut := false } }

/-- Locked becomes set or clear, SYS_STATUS copies it, a change is reported and the time gates follow it; after a loss of
lock the offsets of R50 are counted afresh (R50, R362, R473, R479; log entry 188). -/
def State.setLocked (s : State) (b : Bool) : State :=
  if s.locked == b then s
  else
    let s0 := if b then s.bwRoll else
      let u := s.bwRoll.bwUnlocked
      { u with tm := { u.tm with lockRun := 0 } }
    ((((s0.setB F.tbsServoStatus_locked 0 b).setB F.sysStatus_locked 0 b).raise 0x0505 0 (b2n b)).regridAll).syncPps

/-- The servo enters ACQUIRE: bias and slew end, lock is lost, and the frequency stays (R49, R50). -/
def State.enterAcquire (s : State) : State :=
  let s1 := { s with tm := { s.tm with bias := 0, slew := 0, lockRun := 0, fPrev := s.tm.fPi, holdoverAt := none } }
  (((s1.setF F.tbsServoStatus_phase 0 phAcquire).setF F.tbsServoStatus_acqSecond 0 0).setLocked false).showServo

/-- The first offset of ACQUIRE: a step by its negative waits for the next microsecond boundary (R49). -/
def State.firstOffset (s : State) (theta : Int) : State :=
  { s with tm := { s.tm with theta1 := theta, t1 := s.now16, stepPending := some theta } }

/-- The second offset of ACQUIRE fixes the frequency, or counts a failure (R49). -/
def State.secondOffset (s : State) (theta : Int) : State :=
  let delta : Int := (s.now16 : Int) - s.tm.t1 + s.tm.theta1
  let i := s.tm.fPrev - 1000000000 * theta * 2 ^ 28 / delta
  if i.natAbs > s.fMax.natAbs then
    (s.setF F.tbsServoStatus_acqSecond 0 0).addF F.tbsServoStatus_acqFail 0 1
  else
    let s1 := { s with tm := { s.tm with fI := i, fPi := i, trackWindow := [], lockRun := 0 } }
    ((s1.setF F.tbsServoStatus_phase 0 phTrack).setF F.tbsServoStatus_acqSecond 0 0).showServo

/-- The offset less the domain bias, in 2^-16 ns. -/
def State.errorOf (s : State) (theta : Int) : Int := theta - s.tm.bias / 2 ^ 32

/-- A threshold in whole nanoseconds is passed. -/
def passes (e : Int) (ns : Nat) : Bool := decide (e.natAbs > ns * 2 ^ 16)

/-- The lock count of R50 after a TRACK offset. -/
def State.lockStep (s : State) (e : Int) : State :=
  let run := if passes e (s.getF F.tbsThresh_lockThreshold) then 0 else s.tm.lockRun + 1
  let s1 := { s with tm := { s.tm with lockRun := run } }
  if passes e (s.getF F.tbsThresh_unlockThreshold) then s1.setLocked false
  else if run ≥ s.getF F.tbsThresh_lockCount && run > 0 then s1.setLocked true else s1

/-- The PI equations of TRACK (R49). -/
def State.trackOffset (s : State) (theta : Int) : State :=
  let e := s.errorOf theta
  let i := clampTo s.fMax (s.tm.fI - (s.getF F.tbsServoGain_ki : Int) * e)
  let raw := i - 16 * (s.getF F.tbsServoGain_kp : Int) * e
  let s1 := { s with tm := { s.tm with
    fI := i, fPi := clampTo s.fMax raw, trackWindow := (raw :: s.tm.trackWindow).take 64, holdoverAt := none } }
  ((s1.setF F.tbsServoStatus_phase 0 phTrack).lockStep e).showServo

/-- An offset of the selected domain, by phase (R49). -/
def State.servoInput (s : State) (theta : Int) : State :=
  if s.phase == phAcquire then
    if s.tm.stepPending.isSome then s
    else if s.getB F.tbsServoStatus_acqSecond then
      if s.tm.ticks < s.tm.discardUntil then s else s.secondOffset theta
    else s.firstOffset theta
  else if passes (s.errorOf theta) (s.getF F.tbsStepThresh_stepThreshold) then
    s.enterAcquire.firstOffset theta
  else s.trackOffset theta

/-- The selected domain: 0 A, 1 B. -/
def State.selected (s : State) : Nat := s.getF F.tbsDomainCtrl_select

/-- A domain's record. -/
def State.domain (s : State) (d : Nat) : Domain := if d == 0 then s.tm.domA else s.tm.domB

/-- A domain's record replaced. -/
def State.setDomain (s : State) (d : Nat) (v : Domain) : State :=
  if d == 0 then { s with tm := { s.tm with domA := v } } else { s with tm := { s.tm with domB := v } }

/-- A domain is valid (R52). -/
def State.domainValid (s : State) (d : Nat) : Bool :=
  if d == 0 then s.getB F.tbsServoStatus_aValid else s.getB F.tbsServoStatus_bValid

/-- A domain's valid bit. -/
def State.setDomainValid (s : State) (d : Nat) (b : Bool) : State :=
  if d == 0 then s.setB F.tbsServoStatus_aValid 0 b else s.setB F.tbsServoStatus_bValid 0 b

/-- A domain's offset source (R48). -/
def State.domainSource (s : State) (d : Nat) : Nat :=
  if d == 0 then s.getF F.tbsDomainCtrl_srcA else s.getF F.tbsDomainCtrl_srcB

/-- The mean of a list of integers, rounded down; zero of none. -/
def meanOf (l : List Int) : Int := if l.isEmpty then 0 else l.foldl (· + ·) 0 / l.length

/-- The A–B difference of paired offsets, filtered (R52). DESIGN CHOICE: the spec does not say which offsets of A and B are
paired; the model pairs the latest of each once both have delivered one since the last pair (log entry 235). -/
def State.pairOffsets (s : State) (d : Nat) : State :=
  let other := s.domain (1 - d)
  if other.paired then
    let diff := s.tm.domA.offset - s.tm.domB.offset
    let ps := (diff :: s.tm.pairs).take 16
    let s1 := (s.setDomain d { s.domain d with paired := false }).setDomain (1 - d) { other with paired := false }
    { s1 with tm := { s1.tm with pairs := ps } }.setF F.tbsAbDiff_diff 0 (signedField 32 (meanOf ps / 2 ^ 16))
  else s

/-- An offset of a domain reaches the servo (R48, R49, R52). -/
def State.servoOffset (s : State) (d : Nat) (theta : Int) : State :=
  if d > 1 || s.domainSource d == 3 then s
  else
    let v := { s.domain d with offset := theta, at_ := some s.tm.ticks, nt := s.now, paired := true }
    let s1 := ((s.setDomain d v).setDomainValid d true).setF F.tbsDomainOffset_offset d
      (signedField 32 (theta / 2 ^ 16))
    let s2 := s1.pairOffsets d
    if s2.selected == d then s2.servoInput theta else s2

/-- SERVO_OFFSET (R49): `theta` in 2^-16 ns. -/
def execServoOffset (domain : Nat) (theta : Int) (s : State) : Host.Outcome State Fault Refusal :=
  .next (s.servoOffset domain theta)

/-- The selected domain changes; in TRACK and HOLDOVER the bias keeps the servo input continuous (R54, R56). DESIGN CHOICE: the
field TBS_DOMAIN_CTRL.select follows every switch, an automatic one (R55) too (log entry 236). -/
def State.switchDomain (s : State) (d : Nat) : State :=
  let old := s.selected
  let b := ((s.domain d).offset - (s.domain old).offset) * 2 ^ 32 + s.tm.bias
  let s1 := (s.setF F.tbsDomainCtrl_select 0 d).setF F.tbsServoStatus_selected 0 d
  if s.phase == phAcquire then s1 else { s1 with tm := { s1.tm with bias := b } }.showServo

/-- HOLDOVER is entered: the frequency freezes at the mean of the last 64 values, without the slew (R49, R50). -/
def State.enterHoldover (s : State) : State :=
  let f := if s.tm.trackWindow.isEmpty then s.tm.fPi else meanOf s.tm.trackWindow
  let s1 := { s with tm := { s.tm with fPi := f, holdoverAt := some s.tm.ticks } }
  let s2 := (s1.setF F.tbsServoStatus_phase 0 phHoldover).showServo
  if s.getF F.tbsHoldover_holdoverGrace == 0 then s2.setLocked false else s2

/-- A domain has delivered no offset for input_timeout of elapsed time (R52). -/
def State.domainSilent (s : State) (d : Nat) : Bool :=
  match (s.domain d).at_ with
  | none => true
  | some t => decide (s.tm.ticks ≥ t + s.getF F.tbsHoldover_inputTimeout * 1000000)

/-- A silent domain becomes invalid, with automatic switch or holdover where it was selected (R52, R55). -/
def State.domainTimeout (s : State) (d : Nat) : State :=
  if d > 1 || !s.domainValid d || !s.domainSilent d then s
  else
    let s1 := s.setDomainValid d false
    if s.selected != d then s1
    else if s.getB F.tbsDomainCtrl_autoSwitch && s.domainValid (1 - d) then
      ((s1.switchDomain (1 - d)).addF F.tbsServoStatus_autoSwitches 0 1).raise 0x0504 0 (1 - d)
    else if s.phase == phTrack then s1.enterHoldover
    else s1

/-- DOMAIN_TIMEOUT (R52, R55). -/
def execDomainTimeout (domain : Nat) (s : State) : Host.Outcome State Fault Refusal := .next (s.domainTimeout domain)

/-- holdover_grace of elapsed time has been spent in HOLDOVER (R50, R52). -/
def State.graceSpent (s : State) : Bool :=
  match s.tm.holdoverAt with
  | none => false
  | some t => s.phase == phHoldover &&
      decide (s.tm.ticks ≥ t + s.getF F.tbsHoldover_holdoverGrace * 1000000000)

/-- HOLDOVER_GRACE_EXPIRY (R50). -/
def execHoldoverGraceExpiry (s : State) : Host.Outcome State Fault Refusal :=
  .next (if s.graceSpent then s.setLocked false else s)

/-- Time moves by the negative of an offset in 2^-16 ns (R40, R49); time before zero stands at zero (log entry 7). -/
def TimePart.stepBy (t : TimePart) (theta : Int) : TimePart :=
  let total : Int := ((t.sec * 1000000000 + t.ns) * 2 ^ 16 + t.frac / 2 ^ 32 : Nat) - theta
  let n := total.toNat
  { t with sec := n / 2 ^ 16 / 1000000000 % 2 ^ 48, ns := n / 2 ^ 16 % 1000000000,
           frac := n % 2 ^ 16 * 2 ^ 32 + t.frac % 2 ^ 32 }

/-- The last whole second that network time, advanced by pps_out_comp, has crossed (R66). -/
def State.ppsCrossed (s : State) : Nat :=
  let c := s.getF F.tbsIoCtrl_ppsOutComp
  (((s.now : Int) + (if c < 128 then (c : Int) else (c : Int) - 256)) / 1000000000).toNat

/-- The servo's part of a step frame (R40, R49, R50): time steps, the step is counted, lock is lost, and offsets of the
next 10 ms are discarded; bandwidth windows realign (R526). A whole second that the step jumps over gives no PPS_OUT edge (log
entry 237). -/
def State.applyStep (s : State) (theta : Int) : State :=
  let t := s.tm.stepBy theta
  let s0 := { s with tm := { t with stepPending := none, discardUntil := t.ticks + 10000000, lockRun := 0 } }
  let s1 := { s0 with tm := { s0.tm with ppsSecond := s0.ppsCrossed } }.bwStep s.now (t.sec * 1000000000 + t.ns)
  ((s1.setF F.tbsServoStatus_acqSecond 0 1).addF F.tbsServoStatus_steps 0 1).setLocked false

/-! ## Commands (R71) -/

/-- TIME_SERVO_CONFIG (R71). -/
def execTimeServoConfig (h : CmdHdr) (kp ki fMax lockThreshold lockCount unlockThreshold stepThreshold inputTimeout
    holdoverGrace : Nat) (s : State) : Host.Outcome State Fault Refusal :=
  .next (s.cmd (.timeServoConfig h kp ki fMax lockThreshold lockCount unlockThreshold stepThreshold inputTimeout holdoverGrace) h attrNone
    [decide (kp < 2 ^ 16), decide (ki < 2 ^ 16), decide (fMax < 2 ^ 24), decide (lockThreshold < 2 ^ 12),
     decide (lockCount < 2 ^ 8), decide (unlockThreshold < 2 ^ 12), decide (stepThreshold < 2 ^ 32),
     decide (inputTimeout < 2 ^ 16), decide (holdoverGrace < 2 ^ 16)]
    fun s =>
      let s1 := ((s.setF F.tbsServoGain_kp 0 kp).setF F.tbsServoGain_ki 0 ki).setF F.tbsFreqMax_fMax 0 fMax
      let s2 := ((s1.setF F.tbsThresh_lockThreshold 0 lockThreshold).setF F.tbsThresh_lockCount 0 lockCount).setF
        F.tbsThresh_unlockThreshold 0 unlockThreshold
      let s3 := ((s2.setF F.tbsStepThresh_stepThreshold 0 stepThreshold).setF F.tbsHoldover_inputTimeout 0
        inputTimeout).setF F.tbsHoldover_holdoverGrace 0 holdoverGrace
      (s3, .ok))

/-- TIME_DOMAIN_CONFIG (R48, R71). -/
def execTimeDomainConfig (h : CmdHdr) (domain source port domainNumber : Nat) (meanPathDelay : Int)
    (autoSwitch : Bool) (s : State) : Host.Outcome State Fault Refusal :=
  .next (s.cmd (.timeDomainConfig h domain source port domainNumber meanPathDelay autoSwitch) h attrNone
    [decide (domain < 2), decide (source < 4), decide (port < 256), decide (domainNumber < 256)]
    fun s =>
      let s1 := s.setDomain domain { s.domain domain with domainNumber := domainNumber, meanPathDelay := meanPathDelay }
      let s2 := if domain == 0 then
          (s1.setF F.tbsDomainCtrl_srcA 0 source).setF F.tbsDomainCtrl_portA 0 port
        else (s1.setF F.tbsDomainCtrl_srcB 0 source).setF F.tbsDomainCtrl_portB 0 port
      (s2.setB F.tbsDomainCtrl_autoSwitch 0 autoSwitch, .ok))

/-- TIME_SELECT_DOMAIN (R53, R54, R56). -/
def execTimeSelectDomain (h : CmdHdr) (domain : Nat) (s : State) : Host.Outcome State Fault Refusal :=
  .next (s.cmd (.timeSelectDomain h domain) h attrNone [decide (domain < 2)] fun s =>
    if !s.domainValid domain then (s, .err eState) else (s.switchDomain domain, .ok))

/-- TIME_SLEW_CONFIG (R57, R71). -/
def execTimeSlewConfig (h : CmdHdr) (slewRate slewRamp : Nat) (s : State) : Host.Outcome State Fault Refusal :=
  .next (s.cmd (.timeSlewConfig h slewRate slewRamp) h attrNone
      [decide (slewRate < 2 ^ 16), decide (slewRamp < 2 ^ 16)] fun s =>
    ((s.setF F.tbsSlew_slewRate 0 slewRate).setF F.tbsSlew_slewRamp 0 slewRamp, .ok))

/-- TIME_TC_CONFIG (R42, R71): mode 0 OFF, 1 E2E, 2 P2P; the ports enabled; mean link delays in 2^-16 ns. -/
def execTimeTcConfig (h : CmdHdr) (mode : Nat) (ports : List Nat) (delays : List (Nat × Nat)) (s : State) :
    Host.Outcome State Fault Refusal :=
  .next (s.cmd (.timeTcConfig h mode ports delays) h attrNone
      [decide (mode < 3), ports.all fun p => decide (p < 256), delays.all fun d => decide (d.1 < 256)]
    fun s =>
      let dl := delays.foldl (fun m d => SMap.put 0 m d.1 d.2) s.tm.linkDelay
      ({ s with tm := { s.tm with tcMode := mode, tcPorts := ports, linkDelay := dl } }, .ok))

/-- A reference is present: 0 CLK_REF, 1 CLK10M_IN. -/
def State.refHere (s : State) (r : Nat) : Bool := if r == 0 then s.tm.refPresent else s.tm.ref10mPresent

/-- The fault of the lost selected reference carries arg0 1 while no reference remains (R69). -/
def State.markRefArg (s : State) (arg0 : Nat) : State :=
  { s with flt := { s.flt with
      records := SMap.mapVal (fun _ r => if r.code == 0x0503 then { r with arg0 := arg0 } else r) s.flt.records
      live := s.flt.live.map fun l => if l.code == 0x0503 then { l with arg0 := arg0 } else l } }

/-- The PLL is left without its selected reference: the fault is raised unless it holds already; ref_auto moves the PLL to the
other reference where that is present, and the condition ends (R69). DESIGN CHOICE: ref_sel then names the reference that the
PLL has moved to (log entry 238). -/
def State.refGone (s : State) : State :=
  let sel := s.getF F.tbsIoCtrl_refSel
  let other := s.refHere (1 - sel)
  let s1 := if s.tm.refLost then s.markRefArg (b2n (!other)) else s.raise 0x0503 0 (b2n (!other))
  if s.getB F.tbsIoCtrl_refAuto && other then
    ({ s1 with tm := { s1.tm with refLost := false, pllHoldover := false } }.setF F.tbsIoCtrl_refSel 0 (1 - sel)).endCondition
      0x0503 0
  else { s1 with tm := { s1.tm with refLost := true, pllHoldover := !other } }

/-- The PLL is looked at after a change of the references or of TBS_IO_CTRL: it runs from a present selected reference, or that
reference is gone (R69). -/
def State.settleRef (s : State) : State :=
  if s.refHere (s.getF F.tbsIoCtrl_refSel) then
    if s.tm.refLost then
      { s with tm := { s.tm with refLost := false, pllHoldover := false } }.endCondition 0x0503 0
    else s
  else s.refGone

/-- What follows TBS_IO_CTRL and TBS_SYNCE_CTRL once they are written (R66, R69, R70). -/
def State.afterIo (s : State) : State := s.syncPps.syncSynce.settleRef

/-- TIME_IO_CONFIG (R66, R68 to R71): the words of TBS_IO_CTRL and the two TBS_SYNCE_CTRL. -/
def execTimeIoConfig (h : CmdHdr) (ioCtrl synce0 synce1 : Nat) (s : State) : Host.Outcome State Fault Refusal :=
  .next (s.cmd (.timeIoConfig h ioCtrl synce0 synce1) h attrNone
    [decide (ioCtrl < 2 ^ 32) && decide (bitsOf ioCtrl 27 24 < 8) && decide (1 ≤ bitsOf ioCtrl 23 14)
       && decide (bitsOf ioCtrl 23 14 ≤ 999),
     decide (synce0 < 2 ^ 32) && bitsOf synce0 29 20 == 0, decide (synce1 < 2 ^ 32) && bitsOf synce1 29 20 == 0]
    fun s =>
      ((((s.wr .tbsIoCtrl 0 (BitVec.ofNat 32 ioCtrl)).wr .tbsSynceCtrl 0 (BitVec.ofNat 32 synce0)).wr .tbsSynceCtrl 1
        (BitVec.ofNat 32 synce1)).afterIo, .ok))

/-! ## Reading the time (R72) -/

/-- A read of TBS_TIME_FRAC latches the other three time registers and returns the fraction (R72). -/
def State.latchTime (s : State) : State :=
  (((s.setF F.tbsTimeFrac_frac 0 s.frac16).setF F.tbsTimeNs_ns 0 s.tm.ns).setF F.tbsTimeSecLo_secLo 0 s.tm.sec).wr
    .tbsTimeSecHi 0 (BitVec.ofNat 32 (b2n (!s.locked) <<< 16 + s.tm.sec / 2 ^ 32 % 2 ^ 16))

/-- TBS_TIME_LATCH (R72). -/
def execTbsTimeLatch (s : State) : Host.Outcome State Fault Refusal :=
  let s1 := s.latchTime
  .next (s1.emit (.regRead 0 (Reg.offset .tbsTimeFrac 0) (s1.rd .tbsTimeFrac 0).toNat))

/-! ## Time inputs and outputs (R66 to R69) -/

/-- PPS_OUT_EDGE (R66, R68): network time, advanced by pps_out_comp, has crossed a whole second: PPS_OUT rises where it is
driven and not squelched, and the time-of-day message of that second falls due tod_delay later, once a second whether or not the
pin is driven (log entry 237). -/
def execPpsOutEdge (s : State) : Host.Outcome State Fault Refusal :=
  .next (if s.ppsCrossed ≤ s.tm.ppsSecond then s
    else
      let due := s.tm.ticks + s.getF F.tbsIoCtrl_todDelay * 1000000
      { s with tm := { s.tm with
          ppsSecond := s.ppsCrossed, ppsRoseAt := s.tm.ticks, ppsOut := true
          todDue := some (s.ppsCrossed, due) } }.syncPps)

/-- PPS_OUT_FALL (R66): the pulse has been high for pps_width. -/
def execPpsOutFall (s : State) : Host.Outcome State Fault Refusal :=
  .next (if s.tm.ticks < s.tm.ppsRoseAt + s.getF F.tbsIoCtrl_ppsWidth * 1000000 then s
    else { s with tm := { s.tm with ppsOut := false } })

/-- PPS_IN_EDGE (R67): the edge is timestamped and waits for its time of day; one still waiting is discarded and
counted. -/
def execPpsInEdge (s : State) : Host.Outcome State Fault Refusal :=
  let s1 := (s.setF F.tbsPpsInCapture_valid 0 1).setF F.tbsPpsInCapture_ns 0 (s.nowAt inputPoint % 1000000000)
  .next { s1 with tm := { s1.tm with
    ppsWaiting := some ⟨s.copyAt inputPoint, s.tm.ticks, false⟩,
    ppsDiscarded := s.tm.ppsDiscarded + b2n s.tm.ppsWaiting.isSome } }

/-- The decimal number that characters spell; none where one is no digit or there is none. -/
def decimalOf (cs : List Nat) : Option Nat :=
  if cs.isEmpty then none
  else cs.foldl (fun a c => a.bind fun n => if 48 ≤ c && c ≤ 57 then some (n * 10 + (c - 48)) else none) (some 0)

/-- One uppercase hexadecimal digit. -/
def hexDigit (n : Nat) : Nat := if n < 10 then 48 + n else 55 + n

/-- The checksum's two characters: the XOR of characters (R68). -/
def todCheck (cs : List Nat) : List Nat :=
  let x := cs.foldl Nat.xor 0
  [hexDigit (x / 16 % 16), hexDigit (x % 16)]

/-- The decimal characters of a number. -/
def decimalChars (n : Nat) : List Nat := (Nat.toDigits 10 n).map Char.toNat

/-- The characters `GTOD,`. -/
def todHead : List Nat := [71, 84, 79, 68, 44]

/-- A time-of-day message (R68). -/
def todMessage (sec utc : Nat) (locked : Bool) : List Nat :=
  let body := todHead ++ decimalChars sec ++ [44] ++ decimalChars utc ++ [44] ++ [if locked then 76 else 85]
  [36] ++ body ++ [42] ++ todCheck body ++ [13, 10]

/-- The second a received time-of-day message names; none where the message is malformed (R68). -/
def todSecond (cs : List Nat) : Option Nat :=
  match cs with
  | 36 :: rest =>
    let body := rest.takeWhile (· != 42)
    let tail := rest.drop body.length
    if tail != [42] ++ todCheck body ++ [13, 10] || body.take 5 != todHead then none
    else
      let fields := body.drop 5
      let secs := fields.takeWhile (· != 44)
      let after := (fields.drop secs.length).drop 1
      let utc := after.takeWhile (· != 44)
      let flag := after.drop utc.length
      if (decimalOf utc).isNone || (flag != [44, 76] && flag != [44, 85]) then none else decimalOf secs
  | _ => none

/-- TOD_MESSAGE_RX (R67, R68): the message names the second of the waiting edge and yields an offset for each domain of
source 2; an edge whose timestamp is invalid yields none (R39; log entry 239). -/
def execTodMessageRx (chars : List Nat) (s : State) : Host.Outcome State Fault Refusal :=
  .next (match todSecond chars, s.tm.ppsWaiting with
    | some sec, some e =>
      if s.tm.ticks > e.ticks + 900000000 then s
      else
        let theta : Int := (e.time : Int) - ((sec * 1000000000 * 2 ^ 16 : Nat) : Int)
        let s1 := { s with tm := { s.tm with ppsWaiting := none } }
        if e.invalid then s1
        else
        let s2 := if s1.domainSource 0 == 2 then s1.servoOffset 0 theta else s1
        if s2.domainSource 1 == 2 then s2.servoOffset 1 theta else s2
    | _, _ => s)

/-- TOD_WINDOW_EXPIRY (R67). -/
def execTodWindowExpiry (s : State) : Host.Outcome State Fault Refusal :=
  .next (match s.tm.ppsWaiting with
    | some e =>
      if s.tm.ticks > e.ticks + 900000000 then
        { s with tm := { s.tm with ppsWaiting := none, ppsDiscarded := s.tm.ppsDiscarded + 1 } }
      else s
    | none => s)

/-- The baud rate that tod_baud names (R72); a code above 7 is not accepted by time.io_config and stands for the default. -/
def todBaud (code : Nat) : Nat :=
  [9600, 19200, 38400, 57600, 115200, 230400, 460800, 921600].getD code 115200

/-- TOD_OUTPUT (R68): once tod_delay has passed since the edge, its message is sent; it names the edge's second. -/
def execTodOutput (s : State) : Host.Outcome State Fault Refusal :=
  .next (match s.tm.todDue with
    | none => s
    | some (sec, due) =>
      if s.tm.ticks < due then s
      else
        { s with tm := { s.tm with todDue := none } }.emit
          (.tod (todBaud (s.getF F.tbsIoCtrl_todBaud)) (todMessage sec s.tm.utcOffset s.locked)))

/-- A reference's presence recorded. -/
def State.setRef (s : State) (r : Nat) (b : Bool) : State :=
  if r == 0 then { s with tm := { s.tm with refPresent := b } } else { s with tm := { s.tm with ref10mPresent := b } }

/-- REFERENCE_LOST (R69): a reference has had no edge for 10 µs. -/
def execReferenceLost (ref : Nat) (s : State) : Host.Outcome State Fault Refusal :=
  .next (if ref > 1 || !s.refHere ref then s else (s.setRef ref false).settleRef)

/-- REFERENCE_RELOCK (R69): a reference has returned and run for 1 ms: the PLL relocks to it where it may use it, that is
where it
is selected or ref_auto is set, and the condition ends. -/
def execReferenceRelock (ref : Nat) (s : State) : Host.Outcome State Fault Refusal :=
  .next (if ref > 1 then s else (s.setRef ref true).settleRef)

/-- RESIDENCE_ENTRY_EXPIRY (R45): entries of an egress pipeline unmatched for 1 s are freed. -/
def execResidenceEntryExpiry (pipeline : Nat) (s : State) : Host.Outcome State Fault Refusal :=
  let kept := (SMap.getD s.tm.residence pipeline []).filter fun e => decide (s.now < e.at_ + 1000000000)
  .next { s with tm := { s.tm with residence := SMap.put [] s.tm.residence pipeline kept } }

end Sys2Proof.Machine
end

