-- ==== Sys2Proof/Machine/Arrival.lean ====
section
/-! DEFINITION. Frames arriving: the head FIFO, body cells, the frame's end, its checks and what hangs on them; injection
from a TX ring (R84 to R90, R123, R124, R159, R307 to R309, R312, R332, R460). -/

namespace Sys2Proof.Machine

/-! ## A new packet -/

/-- A packet with nothing but where it enters. -/
def newPkt (pipe inPort src : Nat) (stage : Stage) (epoch tIn : Nat) : Pkt where
  pipe := pipe
  inPort := inPort
  src := src
  stage := stage
  seq := 0
  head := []
  body := []
  arriving := false
  bad := false
  charge := Charge.zero
  desc := none
  headNos := []
  bodyNos := []
  refs := []
  admitted := 0
  badCells := []
  arrCls := 0
  cls := 0
  colour := 0
  epoch := epoch
  marked := false
  counted := true
  pass := 1
  tIn := tIn
  tInvalid := false
  startState := 0
  noProg := false
  par := ParseRes.empty
  keyProfile := 0
  em := []
  msk := []
  mview := []
  ckey := []
  key := []
  profile := none
  vrf := 0
  fwdOp := 0
  fwdTarget := 0
  rigMeta := 0
  ruleData := []
  copies := []
  mirrors := []
  sampled := 0
  ans := none
  run := none
  held := []
  runs := 0
  awaiting := false
  growth := 0
  dropped := false
  again := none
  mcast := none
  verdict := 0
  edited := false
  noCt := false
  handle := none
  tAdm := 0
  direct := none
  tx := none

/-- A packet entered, with the number it takes. -/
def State.addPkt (s : State) (p : Pkt) : State × Nat :=
  ({ s with pk := { s.pk with pkts := SMap.set s.pk.pkts s.pk.nextPkt p, nextPkt := s.pk.nextPkt + 1 } }, s.pk.nextPkt)

/-! ## The end of a bad frame (R87 to R90, R124, R238) -/

/-- A copy of a frame that ended bad: finished if its transmission has begun, else dropped; dropped copies count in
TX_CT_DROP_PRESTART where the frame was cut through (R89; log entry 83). -/
def State.badCopy (cutThrough : Bool) (s : State) (e : Nat × Copy) : State :=
  if e.2.stage == .transmitting then (s.stompTx e.1).settleCredits e.2.port
  else
    let s1 := if cutThrough then s.count (C.txCtDropPrestart e.2.port) else s
    s1.loseCopy e.1

/-- A packet's held updates are discarded; an answer it holds is released, and a setup it triggered fails (R90, R124,
R238). -/
def State.discardHeld (s : State) (id : Nat) (p : Pkt) : State :=
  let s1 := s.modPkt id fun q => { q with held := [], ans := none, awaiting := false, bad := true, arriving := false }
  let s2 := (p.held.foldl State.staleChain s1).sendUpdates (p.releases id true)
  s2.setupFrameEnd id { p with bad := true }

/-- A frame has ended bad (R87 to R89): its copies end, or its packet does. -/
def State.frameBad (s : State) (id : Nat) : State :=
  match SMap.find? s.pk.pkts id with
  | none => s
  | some p =>
    let mine := s.pk.copies.filter fun e => e.2.pkt == id
    let began := mine.any fun e => e.2.stage == .transmitting
    let cut := began || mine.any fun e => e.2.ct && e.2.stage == .crossing
    let s1 := (s.detachRx id).discardHeld id p
    let s2 := if began then (s1.count (C.rxCtBad p.inPort)).setF F.portEvent_ctBadRxSeen p.inPort 1 else s1
    if p.stage != .queued then s2.dropPkt id
    else
      let s3 := mine.foldl (State.badCopy cut) s2
      s3.releaseCells id fun r => r

/-! ## Body cells (R303, R309) -/

/-- A frame takes body cells from headroom: its class is under PFC, or its port in PAUSE mode (R94). -/
def State.takesHeadroom (s : State) (p : Pkt) : Bool :=
  p.src == p.inPort && s.lossless p.inPort p.arrCls && s.headroomFree p.inPort p.arrCls > 0

/-- One body cell charged for a frame: arrival reserve, shared, headroom; headroom before shared while XOFF is asserted.
None where no account has one. -/
def State.cellCharge (s : State) (p : Pkt) : Option Charge :=
  let c := p.charge
  let shared := decide (s.sharedFree p.pipe > 0)
  let head := s.takesHeadroom p
  let xoff := s.getBit F.portStatus_txXoff p.inPort p.arrCls
  if s.arrivalFree p.pipe > 0 then some { c with arrival := c.arrival + 1 }
  else if head && (xoff || !shared) then some { c with headroom := c.headroom + 1 }
  else if shared then some { c with shared := c.shared + 1 }
  else none

/-- Room for one more cell of a frame, in its charge: an admitted frame's charge already holds n cells (R312). -/
def State.takeCell (s : State) (id : Nat) (p : Pkt) : Option Pkt :=
  (s.freeCells p.pipe 1).bind fun l =>
    let live := (s.pk.copies.filter fun e => e.2.pkt == id).length
    let p1 := s.withDesc { p with bodyNos := p.bodyNos ++ l }
    if p.stage == .queued then
      let q := { p1 with refs := p.refs ++ [live] }
      if p.charge.total > p.cells then some q else (s.cellCharge p).map fun c => { q with charge := c }
    else (s.cellCharge p).map fun c => { p1 with charge := c }

/-- A frame that finds no cell is ended bad at once and the rest of it discarded (R309). -/
def State.noCell (s : State) (id : Nat) (p : Pkt) : State :=
  let s1 := if p.src == p.inPort && s.lossless p.inPort p.arrCls then
      (s.count (C.iqmHeadroomDrop p.pipe)).setF F.iqmEvent_headroomDropSeen p.pipe 1
    else (s.count (C.iqmArrivalDrop p.pipe)).setF F.iqmEvent_arrivalDropSeen p.pipe 1
  s1.frameBad id

/-- Bytes stored behind a frame's window, one cell at a time; `fuel` bounds the cells. -/
def State.storeBody (id : Nat) : Nat → List Nat → State → State
  | 0, _, s => s
  | fuel + 1, bs, s =>
    match bs, SMap.find? s.pk.pkts id with
    | [], _ => s
    | _, none => s
    | _, some p =>
      let room := p.bodyCells * 256 - p.body.length
      if room > 0 then
        State.storeBody id fuel (bs.drop room) (s.modPkt id fun q => { q with body := q.body ++ bs.take room })
      else
        match s.takeCell id p with
        | none => s.noCell id p
        | some p1 =>
          State.storeBody id fuel (bs.drop 256) (s.modPkt id fun _ => { p1 with body := p1.body ++ bs.take 256 })

/-! ## Arrival (R307, R308) -/

/-- A frame's arrival class (R308). -/
def State.arrivalClass (s : State) (port : Nat) (head : List Nat) : Nat :=
  let q := SMap.getD s.pk.qports port QPort.reset
  let t := beAt head 12 2
  if t == 0x8100 || t == 0x88A8 then q.pcpMap.getD (head.getD 14 0 / 32) 0 else q.defClass

/-- Bytes that a pipeline's head FIFO holds or has promised to windows still filling (R307). -/
def State.headFifo (s : State) (pipe : Nat) : Nat :=
  (s.atStage pipe .waiting).foldl (fun a e => a + (if e.2.arriving then 256 else e.2.head.length)) 0

/-- What a port has of the frame arriving on it. -/
def State.setRx (s : State) (port : Nat) (r : Rx) : State := { s with pk := { s.pk with rx := SMap.set s.pk.rx port r } }

/-- Bytes handed to the packet of the frame arriving on a port: its window first, then its body. -/
def State.feed (s : State) (port id : Nat) (bs : List Nat) : State :=
  match SMap.find? s.pk.pkts id with
  | none => s
  | some p =>
    if p.stage == .gone && !p.dropped then s
    else
    let n := if p.stage == .waiting && p.body.isEmpty then 256 - p.head.length else 0
    let s1 := if n > 0 then s.modPkt id fun q =>
        let h := q.head ++ bs.take n
        let c := s.arrivalClass port h
        { q with head := h, arrCls := c, cls := c }
      else s
    ((State.storeBody id 64 (bs.drop n) s1).syncIqm p.pipe).fcUpdate port

/-- A frame's ingress timestamp at the MDI, in 2^-16 ns: the port's copy of network time corrected by rx_lat and the PCS
(R37, R40,
R96). -/
def State.ingressTime (s : State) (port : Nat) : Nat :=
  let t := s.copyAt port
  ((t : Int) - (s.getF F.portTsLatency_rxLat port * 2 ^ 10 : Nat) + s.pcsCorrection port t).toNat

/-- A frame begins to arrive on a port, with its packet. -/
def State.newRx (s : State) (port : Nat) (pkt : Option Nat) : Rx :=
  ⟨pkt, 0, [], [], s.ingressTime port, s.pointInvalid port⟩

/-- The first bytes of a frame: a packet takes a window of the head FIFO, or the frame is dropped whole (R307, R341,
R490). -/
def State.startFrame (s : State) (port : Nat) : State :=
  let pipe := pipeOf port
  if s.getB F.fltStatus_barePoles then (s.count C.fltBarepolesDrop).setRx port (s.newRx port none)
  else if s.furled then s.setRx port (s.newRx port none)
  else if s.pk.qmRestart.contains pipe then s.setRx port (s.newRx port none)
  else if s.headFifo pipe + 256 > 65536 then
    ((s.count (C.iqmIngressFull port)).setF F.iqmEvent_ingressFullSeen pipe 1).setRx port (s.newRx port none)
  else
    let p := { newPkt pipe port port .waiting s.epoch (s.ingressTime port) with
      arriving := true, tInvalid := s.pointInvalid port }
    let (s1, id) := s.addPkt p
    (s1.syncEpoch pipe).setRx port (s.newRx port (some id))

/-- More bytes of the frame arriving on a port. -/
def State.arrive (s : State) (port : Nat) (bs : List Nat) : State :=
  let s1 := if SMap.has s.pk.rx port then s else s.startFrame port
  match SMap.find? s1.pk.rx port with
  | none => s1
  | some r =>
    let s2 := s1.setRx port { r with len := r.len + bs.length, bytes := r.bytes ++ bs }
    match r.pkt with
    | none => s2
    | some id => s2.feed port id bs

/-- FRAME_ARRIVAL (R40, R85, R94, R96, R159, R307 to R309): frame data bytes of a port, the first of a frame or further
ones; nothing arrives on a port whose link is down. -/
def execFrameArrival (port : Nat) (bytes : List Nat) (s : State) : Host.Outcome State Fault Refusal :=
  .next (if s.portExists port && s.linkUp port then s.arrive port bytes else s)

/-! ## The end of a frame (R85 to R90, R123, R124) -/

/-- What the MAC's checks find (R85). -/
inductive RxCheck where
  | good
  | runt
  | stomp
  | errorBlock
  | fcs
  | oversize
  deriving DecidableEq, Repr

/-- The first condition of R85 that a frame meets, in the order of its counters. -/
def rxCheck (data : List Nat) (fcs maxFrame : Nat) (errorBlock errored : Bool) : RxCheck :=
  let want := crc32 data
  let len := data.length + 4
  if len < 64 then .runt
  else if errorBlock && fcs == 0xFFFFFFFF - want then .stomp
  else if errorBlock || errored then .errorBlock
  else if fcs != want then .fcs
  else if len > maxFrame then .oversize
  else .good

/-- The counter of a check. DESIGN CHOICE: RX_FRAMES_OK and RX_OCTETS_OK count the good frames that are no MAC control frames
(log entry 247). -/
def State.countCheck (s : State) (port len : Nat) (r : RxCheck) : State :=
  match r with
  | .good => (s.count (C.rxFramesOk port)).count (C.rxOctetsOk port) len
  | .runt => s.count (C.rxRunt port)
  | .stomp => s.count (C.rxStompSeen port)
  | .errorBlock => s.count (C.rxErrorBlock port)
  | .fcs => s.count (C.rxFcsErr port)
  | .oversize => s.count (C.rxOversize port)

/-- An update held for the frame's end, with the octets that its length adds (R90, R280). -/
def withLength (len : Nat) (u : Update) : Update := { u with addBytes := u.addPackets * (len + 4) }

/-- The VOQs that hold copies of a frame send what their balance pays for, now that its end is known. -/
def State.sendFrameVoqs (s : State) (id : Nat) : State :=
  (s.pk.copies.filter fun e => e.2.pkt == id && e.2.stage == .queued).foldl
    (fun t e => t.sendVoq e.2.pipe e.2.port e.2.cls) s

/-- The charge of an admitted frame corrected to the cells it uses (R312). -/
def State.correctCharge (s : State) (id : Nat) : State :=
  s.modPkt id fun q =>
    if q.stage != .queued then q
    else
      let used := q.cells
      if q.charge.total ≥ used then { q with charge := q.charge.release (q.charge.total - used) }
      else { q with charge := { q.charge with shared := q.charge.shared + (used - q.charge.total) } }

/-- A frame has ended good: its held updates go to their shards, a setup that waits for it goes on, its charge is
corrected and its copies may leave. -/
def State.frameGood (s : State) (id len : Nat) : State :=
  match SMap.find? s.pk.pkts id with
  | none => s
  | some p =>
    let us := p.held.map (withLength len)
    let p1 := { p with arriving := false, held := [] }
    let s1 := ((s.modPkt id fun _ => p1).sendUpdates us).setupFrameEnd id p1
    let s2 := (s1.correctCharge id).syncIqm p.pipe
    if p.stage == .gone && !p.awaiting then (if p.dropped then s2.dropPkt id else s2.discardPkt id)
    else if p.stage == .queued then (s2.sendFrameVoqs id).releaseCells id fun r => r
    else s2

/-- A MAC control frame as its bytes state it: opcode, classes and quanta (R92, R93). -/
def State.macBytes (s : State) (port : Nat) (bs : List Nat) : State :=
  let op := beAt bs 14 2
  if op == 0x0101 then s.macControl port op (bs.getD 17 0) ((List.range 8).map fun i => beAt bs (18 + 2 * i) 2)
  else s.macControl port op 0 [beAt bs 16 2]

/-- The end of a frame that is not a MAC control frame: its packet goes on, unless an error or a bound beyond the end makes
the frame bad (R87, R123). -/
def State.frameEnd (s : State) (id len : Nat) (good : Bool) : State := if good then s.frameGood id len else s.frameBad id

/-- A good Sync of one step that arrived on a port is an offset of each domain whose source 1 is that port and whose
domainNumber
it carries: T_in less its origin timestamp, correction and the mean path delay, in 2^-16 ns (R48). -/
def State.oneStepSync (s : State) (port : Nat) (r : Rx) : State :=
  match findPtp r.bytes with
  | none => s
  | some (off, _) =>
    let m := r.bytes.drop off
    let c := beAt m 8 8
    let corr : Int := if c ≥ 2 ^ 63 then (c : Int) - 2 ^ 64 else c
    let origin := (beAt m 34 6 * 1000000000 + beAt m 40 4) * 2 ^ 16
    let from_ (u : State) (d : Nat) : State :=
      let p := if d == 0 then u.getF F.tbsDomainCtrl_portA else u.getF F.tbsDomainCtrl_portB
      if u.domainSource d == 1 && p == port && (u.domain d).domainNumber == m.getD 4 0 then
        u.servoOffset d ((r.tIn : Int) - (origin : Nat) - corr - (u.domain d).meanPathDelay)
      else u
    if m.getD 0 0 % 16 != 0 || bitOf (m.getD 6 0) 1 || m.length < 44 || r.tInvalid then s else [0, 1].foldl from_ s

/-- Codewords counted on a port (R84). -/
def State.countFec (s : State) (port corrCw uncorrCw : Nat) : State :=
  let s1 := (s.count (C.fecCorrCw port) corrCw).count (C.fecUncorrCw port) uncorrCw
  if uncorrCw > 0 then s1.setF F.portEvent_fecUncorrSeen port 1 else s1

/-- A frame has ended with its FCS and errors: it is checked, counted, and acted on (R85 to R90, R123). -/
def State.endRx (s : State) (port fcs : Nat) (errorBlock errored : Bool) (r : Rx) : State :=
  let c := rxCheck r.bytes fcs (s.getF F.portCfg_maxFrame port) errorBlock errored
  let s1 := { s with pk := { s.pk with rx := SMap.del s.pk.rx port } }.bwFrame port false (r.len + 4)
  let s2 := if errorBlock then s1.setF F.portEvent_rxErrorBlockSeen port 1 else s1
  if beAt r.bytes 12 2 == 0x8808 && c == .good then
    let s3 := s2.macBytes port r.bytes
    r.pkt.elim s3 fun id => s3.discardPkt id
  else
    let s3 := s2.countCheck port (r.len + 4) c
    let late := lateConflict r.bounds r.len
    let s4 := if late then s3.countLate (pipeOf port) else s3
    let s5 := if c == .good then s4.oneStepSync port r else s4
    r.pkt.elim s5 fun id => s5.frameEnd id r.len (c == .good && !late)

/-- FRAME_END_STATUS (R48, R84, R85, R87 to R90, R92, R93, R120, R123, R124, R206, R233): the last bytes of the frame arriving
on a port and its FCS; whether it holds an error control block, or a block of an uncorrectable codeword; codewords corrected and
uncorrectable since the last report. With no frame arriving and no bytes it reports codewords alone. -/
def execFrameEndStatus (port : Nat) (bytes : List Nat) (fcs : Nat) (err : LineErr) (corrCw uncorrCw : Nat)
    (s : State) : Host.Outcome State Fault Refusal :=
  .next (if !s.portExists port then s
    else
      let s1 := s.countFec port corrCw uncorrCw
      let s2 := if bytes.isEmpty then s1 else s1.arrive port bytes
      match SMap.find? s2.pk.rx port with
      | none => s2
      | some r => s2.endRx port fcs err.block err.codeword r)

/-! ## Injection from a TX ring (R332, R460) -/

/-- A TX descriptor is well formed for the device as it stands. -/
def State.txDescOk (s : State) (w : List Nat) (frame : List Nat) : Bool :=
  let w7 := wordAt w 7
  let len := bitsOf (wordAt w 6) 13 0
  bitsOf w7 25 24 == 0 && decide (60 ≤ len) && decide (len ≤ 9596) && frame.length == len
    && (!bitOf w7 26 || s.portExists (bitsOf w7 23 16))

/-- Body cells of an injected frame are taken like an arriving frame's; false where one finds none. -/
def State.injectBody (s : State) (id : Nat) (bs : List Nat) : State := State.storeBody id 64 bs s

/-- The frame of a descriptor is injected by source `src`: dealt in pipeline mode, admitted green in direct mode. What
becomes of it
is returned to the ring's slot. -/
def State.inject (s : State) (src ring slot : Nat) (w : List Nat) (frame : List Nat) : State :=
  let w7 := wordAt w 7
  let pipe := bitsOf w7 4 0
  let cls := bitsOf w7 7 5
  let direct := bitOf w7 26
  let p0 := newPkt pipe 0 src (if direct then .finished else .inject) s.epoch s.now16
  let p := { p0 with
    head := frame.take 256, cls := cls, arrCls := cls, startState := bitsOf w7 15 8, noCt := direct, counted := !direct,
    direct := if direct then some (bitsOf w7 23 16, cls, bitsOf (wordAt w 6) 31 14) else none,
    tx := some (ring, slot, bitOf w7 27) }
  if s.getB F.fltStatus_barePoles then (s.count C.fltBarepolesDrop).txRefused p
  else if s.pk.qmRestart.contains pipe then s.txRefused p
  else
    let (s1, id) := s.addPkt p
    let s2 := (s1.injectBody id (frame.drop 256)).syncEpoch pipe
    if direct then s2.admitTo id else s2

/-- A Criod thread injects a frame with a descriptor of the same form (R106, R332); what becomes of it is returned to the
thread,
the slot being the descriptor's cookie (R47; log entry 251). -/
def State.injectThread (s : State) (thread : Nat) (words frame : List Nat) : State :=
  let cookie := wordAt words 3
  if !s.threadOn thread then s
  else if s.txDescOk words frame then s.inject (1024 + thread) (64 + thread) cookie words frame
  else s.writeBack460 (64 + thread) cookie 3 0 0 0

/-- TX_DESCRIPTOR_FETCH (R47, R106, R159, R332, R458, R460): the next descriptor of a TX ring, its eight words, word 0
first, and
its frame; ring 64 and on are the Criod threads. A frame that is neither sent nor refused is written back when it leaves. -/
def execTxDescriptorFetch (ring : Nat) (words frame : List Nat) (s : State) : Host.Outcome State Fault Refusal :=
  let r := s.ring ring
  .next (if ring ≥ 64 then s.injectThread (ring - 64) words frame
    else if !r.enabled || r.rtype != 2 || r.used == 0 || !s.dmaOn then s
    else
      let slot := r.consumer
      let s1 := s.setRing ring { r with consumer := (r.consumer + 1) % r.size }
      if s.txDescOk words frame then s1.inject (256 + ring) ring slot words frame else s1.writeBack460 ring slot 3 0 0 0)

end Sys2Proof.Machine
end

