-- ==== Sys2Proof/Machine/Hbm.lean ====
section
/-! DEFINITION. The in-package memory controllers: uncorrectable errors and freezes, retirement to the spare, refresh and
activate counts, patrol scrub, retraining windows and self-refresh, and the mcx commands (chapter 12). -/

namespace Sys2Proof.Machine

/-! ## Which data a unit of a pseudo-channel holds (R377, R378, R392) -/

/-- The first unit of a pseudo-channel's spare area (R375). -/
def spareUnit : Nat := 0x1F000000 / 64

/-- The pseudo-channel whose data the spare of a stack takes: retired, or being retired. -/
def State.sparePc (s : State) (stack : Nat) : Option Nat :=
  match SMap.find? s.hbm.retires stack with
  | some r => some r.pc
  | none => if s.getB F.mcxStatus_spareUsed stack then some (s.getF F.mcxStatus_sparePc stack) else none

/-- The copy line of a retirement at a device's nanosecond: 100 units a microsecond (R393). -/
def Retire.lineAt (r : Retire) (t : Nat) : Nat :=
  match r.since with
  | none => r.line
  | some b => Nat.min spareUnit (r.line + (t - b) / 10)

/-- Units of a stack's retired pseudo-channel that stand in the spare: all once it is retired, those below the copy line
meanwhile
(R393). -/
def State.moved (s : State) (stack : Nat) : Nat :=
  match SMap.find? s.hbm.retires stack with
  | some r => r.lineAt s.tm.ticks
  | none => spareUnit

/-- The shard and the unit of its address space that a unit of a pseudo-channel holds, if it holds data. -/
def State.dataUnit (s : State) (g unit : Nat) : Option (Nat × Nat) :=
  let p := g % 32
  if unit < spareUnit then
    if s.sparePc (g / 32) == some p && unit < s.moved (g / 32) then none else some (unitOfOffset g (64 * unit))
  else
    match s.sparePc (g / 32) with
    | none => none
    | some r =>
      if p == r then none
      else
        let q := 31 * (unit - spareUnit) + (if p < r then p else p - 1)
        if q < s.moved (g / 32) then some (unitOfOffset (32 * (g / 32) + r) (64 * q)) else none

/-! ## Retirement (R391 to R395) -/

/-- A retirement starts: the copy of R393 runs, or pauses while its pseudo-channel is frozen (R390). -/
def State.startRetire (s : State) (stack pc : Nat) : State :=
  let since := if SMap.has s.hbm.freezes (32 * stack + pc) then none else some s.tm.ticks
  let s1 := { s with hbm := { s.hbm with retires := SMap.set s.hbm.retires stack ⟨pc, 0, since⟩ } }
  ((s1.setF F.mcxStatus_retiring stack 1).setF F.mcxRetireLine_line stack 0).setF F.mcxEvent_retireStartSeen stack 1

/-- The copy of a pseudo-channel's retirement pauses at its line, or goes on from it (R390). -/
def State.pauseCopy (s : State) (g : Nat) (pause : Bool) : State :=
  let on (r : Retire) : Retire :=
    if r.pc != g % 32 then r
    else if pause then { r with line := r.lineAt s.tm.ticks, since := none } else { r with since := some s.tm.ticks }
  { s with hbm := { s.hbm with retires := SMap.modify s.hbm.retires (g / 32) on } }

/-- MCX_RETIRE_LINE shows the next unit that a running copy moves (R400). -/
def State.syncRetireLine (s : State) (stack : Nat) : State :=
  match SMap.find? s.hbm.retires stack with
  | some r => s.setF F.mcxRetireLine_line stack (r.lineAt s.tm.ticks)
  | none => s

/-- A pseudo-channel whose third counted error's freeze has ended is retired, or its stack's spare is in use (R391,
R394). -/
def State.retireIfDue (s : State) (g : Nat) : State :=
  let stack := g / 32
  if !s.hbm.retireDue.contains g then s
  else
    let s1 := { s with hbm := { s.hbm with retireDue := s.hbm.retireDue.filter (· != g) } }
    if s1.hbm.exhausted.contains g || (SMap.find? s1.hbm.retires stack).any fun r => r.pc == g % 32 then s1
    else if (s1.sparePc stack).isSome then
      let s2 := { s1 with hbm := { s1.hbm with exhausted := s1.hbm.exhausted ++ [g] } }
      (s2.setF F.mcxEvent_spareExhaustedSeen stack 1).raise 0x2004 stack
    else s1.startRetire stack (g % 32)

/-! ## The freeze (R387 to R390) -/

/-- 24 hours of network time in nanoseconds (R391). -/
def ueWindow : Nat := 24 * 3600 * 1000000000

/-- An uncorrectable error counted under R391, and MCX_UE_RECENT. -/
def State.noteUe (s : State) (g : Nat) : State :=
  let stack := g / 32
  let ts := (SMap.getD s.hbm.ueTimes g []).filter (fun t => decide (t + ueWindow ≥ s.now)) ++ [s.now]
  let due := decide (ts.length ≥ 3) && !s.hbm.retireDue.contains g
  let s1 := { s with hbm := { s.hbm with
    ueTimes := SMap.set s.hbm.ueTimes g ts
    retireDue := if due then s.hbm.retireDue ++ [g] else s.hbm.retireDue } }
  (s1.setF F.mcxUeRecent_pc stack (g % 32)).setF F.mcxUeRecent_count stack (Nat.min 3 ts.length)

/-- MCX_UE_RECENT.count is that of the 24 hours up to now (R400). -/
def State.syncUeRecent (s : State) (stack : Nat) : State :=
  let ts := SMap.getD s.hbm.ueTimes (32 * stack + s.getF F.mcxUeRecent_pc stack) []
  s.setF F.mcxUeRecent_count stack (Nat.min 3 (ts.filter fun t => decide (t + ueWindow ≥ s.now)).length)

/-- A unit found uncorrectable is poisoned and counted (R387, R388). -/
def State.poisonAt (s : State) (g unit : Nat) : State :=
  let s1 := s.count (C.mcxUe g)
  match s1.dataUnit g unit with
  | some (k, u) => s1.poisonUnit k u
  | none => s1

/-- MCX_UE_CAPTURE holds the first uncorrectable error (R400). -/
def State.captureUe (s : State) (g : Nat) (e : HbmUe) : State :=
  let i := 4 * (g / 32)
  let addr := g * 2 ^ 29 + 64 * e.unit
  if bitOf (s.getF F.mcxUeCapture_value (i + 1)) 31 then s
  else
    let w1 := 2 ^ 31 + (b2n e.persistent) <<< 30 + trunc 3 e.requester <<< 27 + trunc 5 (addr / 2 ^ 32)
    (((s.setF F.mcxUeCapture_value i (trunc 32 addr)).setF F.mcxUeCapture_value (i + 1) w1).setF F.mcxUeCapture_value
      (i + 2) s.tm.ns).setF F.mcxUeCapture_value (i + 3) (trunc 32 s.tm.sec)

/-- MCX_HIST_DATA shows the record of the captured history that MCX_HIST_INDEX names; with no history captured it stays. -/
def State.showHistory (s : State) (stack : Nat) : State :=
  match SMap.first? s.hbm.history fun g _ => g / 32 == stack with
  | none => s
  | some (_, rs) =>
    let r := rs.getD (s.getF F.mcxHistIndex_index stack) []
    (List.range 4).foldl (fun t i => t.setF F.mcxHistData_value (4 * stack + i) (trunc 32 (wordAt r i))) s

/-- A freeze starts in a pseudo-channel: its requests are held and the command history is kept (R388, R390). -/
def State.startFreeze (s : State) (g : Nat) (history : List (List Nat)) : State :=
  let stack := g / 32
  let kept := s.hbm.history.any fun e => e.1 / 32 == stack
  let s1 := { s with hbm := { s.hbm with
    freezes := SMap.set s.hbm.freezes g ⟨s.now, false⟩
    history := if kept then s.hbm.history else SMap.set s.hbm.history g history } }
  let s2 := ((s1.pauseCopy g true).setBit F.mcxPcFrozen_frozen stack (g % 32) true).count (C.mcxFreezes stack)
  (s2.setF F.mcxHistIndex_captured stack 1).showHistory stack

/-- PC_HELD stands while a held freeze lasts past its row check (R480). -/
def State.syncPcHeld (s : State) : State := s.setReduction redPcHeld (s.hbm.freezes.any fun e => e.2.past)

/-- A freeze ends: held requests issue in order, the history is given up, and a retirement may start (R388, R391). -/
def State.endFreeze (s : State) (g : Nat) : State :=
  let stack := g / 32
  let s1 := { s with hbm := { s.hbm with
    freezes := SMap.del s.hbm.freezes g, history := SMap.del s.hbm.history g } }
  let s2 := (s1.pauseCopy g false).setBit F.mcxPcFrozen_frozen stack (g % 32) false
  let s3 := if s2.hbm.history.any fun e => e.1 / 32 == stack then s2 else s2.setF F.mcxHistIndex_captured stack 0
  ((s3.releaseHeld stack).syncPcHeld.endCondition 0x2002 g).retireIfDue g

/-- The flow store's own handling of a unit it finds uncorrectable: a bucket is rewritten empty, a bitmap block rebuilt,
the stash shadow rewritten (R226). Records follow through the lookup that reads them. -/
def State.repairRegion (s : State) (k u : Nat) : State :=
  let a := 64 * u
  if a < 0x40000000 then
    let gen := decide (a ≥ 0x20000000)
    if gen == s.curGen k || s.rebuilding k then s.emptyBucket k gen (u % 2 ^ 23) else s
  else if a ≥ 0x80000000 && a < 0x80800000 then s.rebuildBlock k (u - 0x80000000 / 64)
  else if a ≥ 0x80800000 && a < 0x80810000 then s.cleanse k [u]
  else s

/-- A control buffer found uncorrectable is freed and never reissued (R387). -/
def State.loseCtrl (s : State) (handle : Nat) : State :=
  { s with fst := { s.fst with ctrlBufs := SMap.del s.fst.ctrlBufs handle } }

/-- What the requester of an uncorrectable read does (R387). -/
def State.poisonedRead (s : State) (g : Nat) (e : HbmUe) : State :=
  let s1 := match s.dataUnit g e.unit with
    | some (k, u) => if e.requester < 3 then s.repairRegion k u else s
    | none => s
  let s2 := match e.place with
    | some p => if e.requester == 0 then s1.missReads (shardOfPc g).1 p else s1
    | none => s1
  match e.buffer with
  | some h => if e.requester == 4 then s2.loseCtrl h else s2
  | none => s2

/-- The master a fault capture names for a requester (R487). -/
def ueMaster (g : Nat) (e : HbmUe) : Nat × Nat :=
  if e.requester < 3 then (1, (shardOfPc g).1)
  else if e.requester == 3 then (0, e.index) else if e.requester == 5 then (2, e.index) else (5, 0)

/-- An uncorrectable error found by a read (R388 to R391). -/
def State.hbmUncorrectable (s : State) (g : Nat) (e : HbmUe) : State :=
  let stack := g / 32
  let s1 := ((s.poisonAt g e.unit).captureUe g e).setF F.mcxEvent_ueSeen stack 1
  let s2 := if e.masked then s1.setF F.mcxEvent_rmwPoisonSeen stack 1 else s1
  let s3 := (s2.poisonedRead g e).noteUe g
  let s4 := e.corrected.foldl (fun t u => t.hbmCorrected g u) (e.further.foldl (fun t u => t.poisonAt g u) s3)
  let m := ueMaster g e
  let s5 := s4.sendFault { s4.faultArg 0x2002 g 0 0 with
    addr := g * 2 ^ 29 + 64 * e.unit, master := m.1, masterIndex := m.2, access := 0 }
  if SMap.has s5.hbm.freezes g || s5.hbm.deferred.contains g then s5
  else if SMap.has s5.hbm.windows stack then { s5 with hbm := { s5.hbm with deferred := s5.hbm.deferred ++ [g] } }
  else s5.startFreeze g e.history

/-- HBM_UNCORRECTABLE (R226, R387 to R391): a read finds a unit uncorrectable. A unit that is poisoned already is no new
error. -/
def execHbmUncorrectable (g : Nat) (e : HbmUe) (s : State) : Host.Outcome State Fault Refusal :=
  .next (
    let already := (s.dataUnit g e.unit).any fun x => s.poisoned x.1 x.2
    if g ≥ 192 || already then s else s.hbmUncorrectable g e)

/-- FREEZE_END (R388, R389, R391, R394): the row check of a freeze is done; the freeze ends unless its hold bit is set. -/
def execFreezeEnd (g : Nat) (s : State) : Host.Outcome State Fault Refusal :=
  .next (match SMap.find? s.hbm.freezes g with
    | none => s
    | some f =>
      if s.getBit F.mcxPcHold_hold (g / 32) (g % 32) then
        ({ s with hbm := { s.hbm with freezes := SMap.set s.hbm.freezes g { f with past := true } } }).syncPcHeld
      else s.endFreeze g)

/-- MCX_PC_HOLD is written: a held freeze whose bit is cleared ends at once (R389). -/
def State.writeHold (s : State) (stack value : Nat) : State :=
  let s1 := s.setF F.mcxPcHold_hold stack (trunc 32 value)
  (List.range 32).foldl (fun t p =>
    match SMap.find? t.hbm.freezes (32 * stack + p) with
    | some f => if f.past && !bitOf value p then t.endFreeze (32 * stack + p) else t
    | none => t) s1

/-- PC_HOLD_WRITE (R389): host software writes MCX_PC_HOLD of a stack. -/
def execPcHoldWrite (stack value : Nat) (s : State) : Host.Outcome State Fault Refusal :=
  .next (if stack ≥ 6 then s else s.writeHold stack value)

/-- RETIRE_COPY_COMPLETE (R390, R393, R395): the copy passes the last unit once its line has come to it. -/
def execRetireCopyComplete (stack : Nat) (s : State) : Host.Outcome State Fault Refusal :=
  .next (match SMap.find? s.hbm.retires stack with
    | none => s
    | some r =>
      let g := 32 * stack + r.pc
      if r.lineAt s.tm.ticks < spareUnit then s
      else
        let s1 := { s with hbm := { s.hbm with
          retires := SMap.del s.hbm.retires stack
          recorded := SMap.set s.hbm.recorded stack r.pc
          acts := SMap.del s.hbm.acts g
          refresh := SMap.del s.hbm.refresh g } }.eraseSector (Config.norSector 4)
        let s2 := ((s1.setBit F.mcxPcRetired_retired stack r.pc true).setF F.mcxStatus_retiring stack 0).setF
          F.mcxStatus_spareUsed stack 1
        let s3 := ((s2.setF F.mcxStatus_sparePc stack r.pc).setF F.mcxRetireLine_line stack spareUnit).setF
          F.mcxEvent_retireDoneSeen stack 1
        s3.raise 0x2003 stack r.pc)

/-! ## Refresh, temperature, activate counts, patrol (R384 to R386) -/

/-- A pseudo-channel is refreshed by its controller: not retired, and its stack not in self-refresh. -/
def State.refreshed (s : State) (g : Nat) : Bool :=
  decide (g < 192) && !s.getBit F.mcxPcRetired_retired (g / 32) (g % 32) && !s.stackHolds (g / 32)

/-- HBM_REFRESH (R384): the next bank of a pseudo-channel is refreshed; the history's four bank bits give 16 banks. -/
def execHbmRefresh (g : Nat) (s : State) : Host.Outcome State Fault Refusal :=
  .next (
    if s.refreshed g then
      { s with hbm := { s.hbm with
        refresh := SMap.put 0 s.hbm.refresh g ((SMap.getD s.hbm.refresh g 0 + 1) % 16) } }
    else s)

/-- HBM_TEMP_READ (R384): a stack's temperature in °C. -/
def execHbmTempRead (stack temp : Nat) (s : State) : Host.Outcome State Fault Refusal :=
  .next (
    if stack ≥ 6 then s
    else
      let s1 := (s.setF F.mcxTemp_temp stack (Nat.min 255 temp)).maxF F.mcxTemp_tempMax stack temp
      let s2 := if temp > 85 then s1.setF F.mcxTemp_hot stack 1 else s1
      let live := s2.flt.live.any fun l => l.code == 0x2005 && l.instance_ == stack
      let s3 := if temp > 95 && !live then (s2.setF F.mcxEvent_tempHighSeen stack 1).raise 0x2005 stack else s2
      if temp ≥ 83 then { s3 with hbm := { s3.hbm with coolSince := SMap.del s3.hbm.coolSince stack } }
      else
        match SMap.find? s3.hbm.coolSince stack with
        | none => { s3 with hbm := { s3.hbm with coolSince := SMap.set s3.hbm.coolSince stack s3.now } }
        | some t =>
          if s3.now ≥ t + 1000000000 then (s3.setF F.mcxTemp_hot stack 0).endCondition 0x2005 stack else s3)

/-- An activate-count table as activates go: its entries, the neighbour refreshes made, the highest count reached. -/
structure ActRun where
  table : List ActCount
  refreshes : Nat
  top : Nat
  deriving DecidableEq, Repr

/-- The first entry with the lowest count. -/
def lowestAct : List ActCount → Option ActCount
  | [] => none
  | a :: rest =>
    match lowestAct rest with
    | none => some a
    | some b => if a.count ≤ b.count then some a else some b

/-- An entry at its new count: at the threshold its neighbours are refreshed and it is freed (R385). -/
def ActRun.put (r : ActRun) (threshold : Nat) (a : ActCount) : ActRun :=
  let rest := r.table.filter fun e => !(e.bank == a.bank && e.row == a.row)
  if a.count ≥ threshold then ⟨rest, r.refreshes + 1, Nat.max r.top a.count⟩
  else ⟨rest ++ [a], r.refreshes, Nat.max r.top a.count⟩

/-- One activate of a row (R385). -/
def ActRun.activate (r : ActRun) (threshold bank row : Nat) : ActRun :=
  match r.table.find? fun e => e.bank == bank && e.row == row with
  | some e => r.put threshold { e with count := e.count + 1 }
  | none =>
    if r.table.length < 512 then r.put threshold ⟨bank, row, 1⟩
    else
      match lowestAct r.table with
      | none => r
      | some low =>
        let r1 : ActRun := ⟨r.table.erase low, if 2 * low.count ≥ threshold then r.refreshes + 1 else r.refreshes, r.top⟩
        r1.put threshold ⟨bank, row, low.count + 1⟩

/-- `n` activates of a row. -/
def ActRun.activates (r : ActRun) (threshold bank row : Nat) : Nat → ActRun
  | 0 => r
  | n + 1 => (r.activate threshold bank row).activates threshold bank row n

/-- NEIGHBOUR_REFRESH (R385): a row is activated `n` times; what that makes of the table, and the neighbour refreshes it
brings about. -/
def execNeighbourRefresh (g bank row n : Nat) (s : State) : Host.Outcome State Fault Refusal :=
  .next (
    if g ≥ 192 then s
    else
      let stack := g / 32
      let th := s.getF F.mcxRhCfg_threshold stack
      let table := SMap.getD s.hbm.acts g []
      let r := (ActRun.mk table 0 0).activates th bank row n
      let occ := if n == 0 || table.any (fun e => e.bank == bank && e.row == row) then table.length
        else Nat.min 512 (table.length + 1)
      let s1 := { s with hbm := { s.hbm with acts := SMap.put [] s.hbm.acts g r.table } }
      let s2 := (s1.maxF F.mcxRhStatus_countMax stack r.top).maxF F.mcxRhStatus_occMax stack occ
      if r.refreshes == 0 then s2
      else (s2.count (C.mcxNrefresh stack) r.refreshes).setF F.mcxEvent_nrefreshSeen stack 1)

/-- REFRESH_WINDOW_BOUNDARY (R385): a stack's activate counts are cleared. -/
def execRefreshWindowBoundary (stack : Nat) (s : State) : Host.Outcome State Fault Refusal :=
  .next { s with hbm := { s.hbm with acts := s.hbm.acts.keep fun g _ => g / 32 != stack } }

/-- PATROL_SCRUB_READ (R386): the scrub reads the next unit of a pseudo-channel, and what it finds is handled as any
read's find. -/
def execPatrolScrubRead (g : Nat) (corrected : Bool) (uncorrectable : Option HbmUe) (s : State) :
    Host.Outcome State Fault Refusal :=
  .next (
    let stack := g / 32
    if g ≥ 192 || !s.getB F.mcxCtrl_patrolEn stack || s.pcHolds g || s.getBit F.mcxPcRetired_retired stack (g % 32) then s
    else
      let unit := SMap.getD s.hbm.patrol g 0
      let s1 := { s with hbm := { s.hbm with patrol := SMap.put 0 s.hbm.patrol g ((unit + 1) % 2 ^ 23) } }
      let already := (s1.dataUnit g unit).any fun x => s1.poisoned x.1 x.2
      match uncorrectable with
      | some e => if already then s1 else s1.hbmUncorrectable g { e with unit := unit, requester := 6 }
      | none => if corrected then s1.hbmCorrected g unit else s1)

/-! ## Retraining windows and self-refresh (R390, R396, R397) -/

/-- A retraining window is due on a stack: opened, or skipped while a pseudo-channel of the stack is frozen (R390). -/
def State.openTrain (s : State) (stack length : Nat) : State :=
  if s.hbm.freezes.any fun e => e.1 / 32 == stack then
    ((s.addF F.mcxTrainStatus_skipped stack 1).setF F.mcxEvent_trainSkippedSeen stack 1).raise 0x2006 stack
  else if s.stackHolds stack then s
  else
    ({ s with hbm := { s.hbm with windows := SMap.set s.hbm.windows stack ⟨s.tm.ticks, length⟩ } }).setF
      F.mcxStatus_state stack 2

/-- RETRAIN_WINDOW_EXIT (R390, R396): once its length has passed the stack accepts its held requests; a freeze put off by the
window starts, with the commands of `history`. -/
def execRetrainWindowExit (stack : Nat) (history : List (List Nat)) (s : State) : Host.Outcome State Fault Refusal :=
  .next (
    if !(SMap.find? s.hbm.windows stack).any fun w => decide (w.at_ + w.length ≤ s.tm.ticks) then s
    else
      let due := s.hbm.deferred.filter fun g => g / 32 == stack
      let s1 := { s with hbm := { s.hbm with
        windows := SMap.del s.hbm.windows stack
        deferred := s.hbm.deferred.filter fun g => g / 32 != stack } }
      let s2 := ((s1.count (C.mcxTrainWindows stack)).addF F.mcxTrainStatus_windows stack 1).setF F.mcxStatus_state stack 1
      (due.foldl (fun t g => t.startFreeze g history) s2).releaseHeld stack)

/-- Self-refresh entry is attempted; `request` 0: none came; 1: one came before the issue cycle; 2: one came in or after
it (R397). -/
def State.enterSelfRefresh (s : State) (stack request : Nat) : State :=
  let s0 := { s with hbm := { s.hbm with srRetryAt := SMap.del s.hbm.srRetryAt stack } }
  if request == 1 then
    let s1 := { s0 with hbm := { s0.hbm with srRetryAt := SMap.set s0.hbm.srRetryAt stack (s0.now + 100000) } }
    ((s1.addF F.mcxSrStatus_furlAbandons stack 1).setF F.mcxEvent_furlAbandonSeen stack 1).count (C.mcxFurlAbandon stack)
  else
    let s1 := { s0 with hbm := { s0.hbm with selfRefresh := s0.hbm.selfRefresh.filter (· != stack) ++ [stack] } }
    let s2 := s1.setF F.mcxStatus_state stack 3
    if request == 0 then s2
    else
      let s3 := { s2 with hbm := { s2.hbm with srHeldAt := SMap.set s2.hbm.srHeldAt stack s2.now } }
      (s3.addF F.mcxStatus_held stack 1).count (C.mcxHeldReq stack)

/-- FURL_SELF_REFRESH_ENTRY (R397, R586): a controller of the furled device attempts self-refresh. -/
def execFurlSelfRefreshEntry (stack request : Nat) (s : State) : Host.Outcome State Fault Refusal :=
  .next (
    if stack ≥ 6 || s.getF F.sysStatus_bootState != 7 || s.stackHolds stack || SMap.has s.hbm.srRetryAt stack
        || s.hbm.srOut.contains stack then s
    else s.enterSelfRefresh stack request)

/-- FURL_ENTRY_RETRY (R397): an abandoned entry is tried again once 100 µs have passed without a request. -/
def execFurlEntryRetry (stack request : Nat) (s : State) : Host.Outcome State Fault Refusal :=
  .next (if (SMap.find? s.hbm.srRetryAt stack).any fun t => decide (t ≤ s.now) then s.enterSelfRefresh stack request else s)

/-- A stack leaves self-refresh and serves what it held. -/
def State.exitSelfRefresh (s : State) (stack : Nat) : State :=
  (({ s with hbm := { s.hbm with
      selfRefresh := s.hbm.selfRefresh.filter (· != stack)
      srHeldAt := SMap.del s.hbm.srHeldAt stack
      srRetryAt := SMap.del s.hbm.srRetryAt stack } }).setF F.mcxStatus_state stack 1).releaseHeld stack

/-- SELF_REFRESH_EXIT_HELD (R397): a stack in self-refresh that holds a request leaves it, and stays out until a new quiesce. -/
def execSelfRefreshExitHeld (stack : Nat) (s : State) : Host.Outcome State Fault Refusal :=
  .next (
    if s.hbm.selfRefresh.contains stack && (SMap.has s.hbm.srHeldAt stack || s.hbm.held.any fun e => e.1 / 32 == stack) then
      let s1 := s.exitSelfRefresh stack
      { s1 with hbm := { s1.hbm with srOut := stack :: s1.hbm.srOut.filter (· != stack) } }
    else s)

/-! ## Commands (R398) -/

/-- MCX_STATUS (`mcx.status`, R398): MCX_STATUS, the frozen, held and retired pseudo-channels, MCX_TEMP. -/
def execMcxStatus (h : CmdHdr) (stack : Nat) (s : State) : Host.Outcome State Fault Refusal :=
  .next (s.cmd (.mcxStatus h stack) h attrS [decide (stack < 6)] fun s =>
    let held := Nat.land (s.getF F.mcxPcHold_hold stack) (s.getF F.mcxPcFrozen_frozen stack)
    (s, .val [(s.rd .mcxStatus stack).toNat, s.getF F.mcxPcFrozen_frozen stack, held, s.getF F.mcxPcRetired_retired stack,
      (s.rd .mcxTemp stack).toNat]))

/-- MCX_HISTORY (`mcx.history`, R398): the captured command records, oldest first. -/
def execMcxHistory (h : CmdHdr) (stack : Nat) (s : State) : Host.Outcome State Fault Refusal :=
  .next (s.cmd (.mcxHistory h stack) h attrNone [decide (stack < 6)] fun s =>
    match SMap.first? s.hbm.history fun g _ => g / 32 == stack with
    | none => (s, .err eState)
    | some (_, rs) => (s, .bulkOf [] (rs.flatMap fun r => (List.range 4).map (wordAt r))))

/-- MCX_RH_CONFIG (`mcx.rh_config`, R385, R398). -/
def execMcxRhConfig (h : CmdHdr) (threshold : Nat) (s : State) : Host.Outcome State Fault Refusal :=
  .next (s.cmd (.mcxRhConfig h threshold) h attrNone [decide (256 ≤ threshold) && decide (threshold ≤ 65535)] fun s =>
    ((List.range 6).foldl (fun t i => t.setF F.mcxRhCfg_threshold i threshold) s, .ok))

/-- MCX_SCRUB_CONFIG (`mcx.scrub_config`, R381, R386, R398). -/
def execMcxScrubConfig (h : CmdHdr) (patrolEn : Bool) (scrubHours extLimit : Nat) (s : State) :
    Host.Outcome State Fault Refusal :=
  .next (s.cmd (.mcxScrubConfig h patrolEn scrubHours extLimit) h attrNone
      [true, decide (1 ≤ scrubHours) && decide (scrubHours ≤ 255),
      decide (16 ≤ extLimit) && decide (extLimit ≤ 200)] fun s =>
    ((List.range 6).foldl (fun t i => ((t.setB F.mcxCtrl_patrolEn i patrolEn).setF F.mcxCtrl_scrubHours i scrubHours).setF
      F.mcxCtrl_extLimit i extLimit) s, .ok))

/-- MCX_RETIRE (`mcx.retire`, R391, R398). -/
def execMcxRetire (h : CmdHdr) (stack pc : Nat) (s : State) : Host.Outcome State Fault Refusal :=
  .next (s.cmd (.mcxRetire h stack pc) h attrO [decide (stack < 6), decide (pc < 32)] fun s =>
    if SMap.has s.hbm.retires stack then (s, .err eBusy)
    else if s.getB F.mcxStatus_spareUsed stack then (s, .err eNospace)
    else (s.startRetire stack pc, .ok))

end Sys2Proof.Machine
end

