-- ==== Sys2Proof/Machine/Criod.lean ====
section
/-! DEFINITION. The Criod complex: wait-for-event, channels, the task scheduler, thread faults, becalmed, the backstay core
and takeover, debugger stops, and the crd and dbg commands (chapter 13). -/

namespace Sys2Proof.Machine

/-! ## The scheduler (R414 to R416) -/

/-- The ready list of a level. -/
def State.readyList (s : State) (level : Nat) : List Nat := SMap.getD s.crd.ready level []

/-- The ready list of a level set. -/
def State.setReady (s : State) (level : Nat) (l : List Nat) : State :=
  { s with crd := { s.crd with ready := SMap.put [] s.crd.ready level l } }

/-- A task takes a content. -/
def State.setTask (s : State) (id : Nat) (t : Task) : State :=
  { s with crd := { s.crd with tasks := SMap.set s.crd.tasks id t } }

/-- A task is appended to the tail of its level. -/
def State.readyTail (s : State) (id : Nat) (t : Task) : State :=
  (s.setTask id { t with phase := .ready }).setReady t.level (s.readyList t.level ++ [id])

/-- A task goes to the head of its level. -/
def State.readyHead (s : State) (id : Nat) : State :=
  match SMap.find? s.crd.tasks id with
  | none => s
  | some t => (s.setTask id { t with phase := .ready }).setReady t.level (id :: s.readyList t.level)

/-- CRD_SCHED_STATUS follows the lists. -/
def State.syncSched (s : State) : State :=
  let n := s.crd.ready.foldl (fun a e => a + e.2.length) 0
  let top := ((List.range 32).find? fun l => !(s.readyList l).isEmpty).getD 0
  ((s.setF F.crdSchedStatus_ready 0 n).setF F.crdSchedStatus_delayed 0 s.crd.delays.length).setF F.crdSchedStatus_topLevel
    0 top

/-- The first ready task of a core at the highest level that has one, below a bound: the level and the task. -/
def State.bestTask (s : State) (core bound : Nat) : Option (Nat × Nat) :=
  (List.range bound).findSome? fun l =>
    ((s.readyList l).find? fun id => (SMap.find? s.crd.tasks id).any fun t => t.core == core).map fun id => (l, id)

/-- A thread's next-task slot takes a task off its ready list; the task source latches (R409, R415). -/
def State.fillNext (s : State) (thread level id : Nat) : State :=
  let s1 := s.setReady level ((s.readyList level).filter (· != id))
  (s1.setThread thread { s1.thread thread with next := some id }).latch thread evTask

/-- A thread's slot as the scheduler keeps it: filled when empty, a higher task put in the place of a lower one (R415). -/
def State.serveSlot (s : State) (thread : Nat) : State :=
  let x := s.thread thread
  if !x.serves || x.halted || !s.threadOn thread || s.threadStopped thread then s
  else
    match x.next with
    | none =>
      match s.bestTask (thread / 16) 32 with
      | some (l, id) => s.fillNext thread l id
      | none => s
    | some held =>
      let level := (SMap.find? s.crd.tasks held).elim 32 (·.level)
      match s.bestTask (thread / 16) level with
      | some (l, id) => (s.readyHead held).fillNext thread l id
      | none => s

/-- The slots filled in ascending thread number (R415). -/
def State.schedule (s : State) : State := ((List.range 64).foldl (fun t i => t.serveSlot i) s).syncSched

/-- A thread's prefetched task goes back to the head of its level (R418, R424). -/
def State.dropNext (s : State) (thread : Nat) : State :=
  match (s.thread thread).next with
  | none => s
  | some id => (s.setThread thread { s.thread thread with next := none }).readyHead id

/-- A task is put on the delay list (R416): one entry per task. -/
def State.delayTask (s : State) (id ticks : Nat) : State :=
  match SMap.find? s.crd.tasks id with
  | none => s
  | some t =>
    let s1 := s.setTask id { t with phase := .delayed }
    { s1 with crd := { s1.crd with delays := (s1.crd.delays.filter fun e => e.1 != id) ++ [(id, ticks)] } }

/-- TASK_POST (R414): a free or waiting task is appended to the tail of its level; a free one takes the level, core and run
budget given. -/
def execTaskPost (task level core budget : Nat) (s : State) : Host.Outcome State Fault Refusal :=
  .next (
    if task ≥ 1024 || level ≥ 32 || core ≥ 4 || budget < 1 || budget > 65535 then s
    else
      match SMap.find? s.crd.tasks task with
      | none => (s.readyTail task ⟨level, core, budget, .ready⟩).schedule
      | some t => if t.phase == .waiting then (s.readyTail task t).schedule else s)

/-- The task a thread ran goes where it says (R414). -/
def State.leaveTask (s : State) (id : Nat) (how : TaskEnd) : State :=
  match SMap.find? s.crd.tasks id with
  | none => s
  | some t =>
    match how with
    | .ended => { s with crd := { s.crd with tasks := SMap.del s.crd.tasks id } }
    | .yielded => s.readyTail id t
    | .waits => s.setTask id { t with phase := .waiting }
    | .delays d => s.delayTask id (Nat.max 1 (Nat.min d (2 ^ 24)))

/-- A thread takes its prefetched task (R415). -/
def State.takeNext (s : State) (thread : Nat) : State :=
  let x := s.thread thread
  let s1 := s.setThread thread { x with next := none, running := x.next, runStart := s.tm.ticks }
  match x.next.bind fun id => (SMap.find? s1.crd.tasks id).map fun t => (id, t) with
  | some (id, t) => s1.setTask id { t with phase := .running }
  | none => s1

/-- TASK_SWITCH (R414, R415): a thread's task gives it up and the prefetched one takes its place. -/
def execTaskSwitch (thread : Nat) (how : TaskEnd) (s : State) : Host.Outcome State Fault Refusal :=
  .next (
    let x := s.thread thread
    if thread ≥ 64 || !x.serves || x.halted || s.threadStopped thread then s
    else
      let s1 := match x.running with
        | some id => s.leaveTask id how
        | none => s
      (s1.takeNext thread).schedule)

/-! ## Becalmed (R419 to R423) -/

/-- Something a thread started is outstanding, or a timed wake is armed (R419 item 2). -/
def State.wakeArmed (s : State) : Bool :=
  !s.crd.delays.isEmpty || (s.tm.tec.any fun e => decide (e.2.owner ≥ 0x8000)) || s.fst.txs.any fun e => e.2.cls == 6

/-- The becalmed condition (R419). The backstay core and the supervisor take no part. -/
def State.becalmed (s : State) : Bool :=
  let active := (List.range 4).filter fun c => s.getF F.crdCoreStatus_role c == 1
  let threads := active.flatMap fun c => (List.range 16).map (16 * c + ·)
  (threads.all fun t => !s.threadOn t || s.supervisor == some t || s.threadState t == 1)
    && !s.wakeArmed
    && (s.crd.channels.all fun e => e.2.messages.isEmpty && e.2.part.isEmpty)
    && ((List.range 4).all fun c => s.getF F.crdCoreStatus_stopped c == 0)
    && (active.all fun c => !s.getB F.crdCoreStatus_greedy c)
    && s.crd.takeover.isNone && s.getB F.crdCtrl_becalmedEn

/-- The monitor looks at the condition: live, and the microseconds it has held (R421). -/
def State.watchCalm (s : State) (us : Nat) : State :=
  if s.becalmed then
    (s.setF F.crdBecalmed_live 0 1).setF F.crdBecalmed_quietUs 0 (Nat.min 1000 (s.getF F.crdBecalmed_quietUs + us))
  else s.breakCalm

/-- BECALMED (R421, R423): the condition has held for 1 ms, the thousandth tick or the last part of a microsecond before
it; becalmed
is raised once until the condition has been false. -/
def execBecalmed (s : State) : Host.Outcome State Fault Refusal :=
  .next (
    let s0 := s.watchCalm 0
    if !s0.getB F.crdBecalmed_live || !s0.crd.armed || s0.getF F.crdBecalmed_quietUs < 999 then s0
    else
      let s1 := { s0 with crd := { s0.crd with armed := false } }.setF F.crdBecalmed_quietUs 0 1000
      let s2 := ((s1.setF F.crdBecalmed_latched 0 1).setF F.crdEvent_becalmedSeen 0 1).count C.crdBecalmed
      let s3 := (s2.setF F.crdBecalmedTime_value 0 s2.tm.ns).setF F.crdBecalmedTime_value 1 (trunc 32 s2.tm.sec)
      ((s3.raise 0x1002 0).raiseIrq irqBecalmed).latchSupervisor evBecalmed)

/-- A service's thread restarts from its newest checkpoint (R418, R433). -/
def State.restartThread (s : State) (t : Nat) : State :=
  (s.setThread t { s.thread t with halted := false, wait := none }).breakCalm

/-- BECALMED_ACTION (R422): the supervisor reads live; with becalmed_action 1 and the condition still true it restarts every
service of the active cores. -/
def execBecalmedAction (s : State) : Host.Outcome State Fault Refusal :=
  .next (
    let s0 := s.watchCalm 0
    if !s0.getB F.crdBecalmed_live || s0.getF F.crdCtrl_becalmedAction != 1 then s0
    else
      let ts := ((s0.crd.services.map Prod.snd).filter fun t => s0.getF F.crdCoreStatus_role (t / 16) == 1).eraseDups
      (ts.foldl (fun u t => u.restartThread t) s0).count C.crdBecalmedRestarts)

/-- SCHEDULER_TICK (R416, R421): the delay list counts down; entries that reach zero go to the tails of their levels in order
of insertion. -/
def execSchedulerTick (s : State) : Host.Outcome State Fault Refusal :=
  .next (
    let due := (s.crd.delays.filter fun e => e.2 ≤ 1).map Prod.fst
    let rest := (s.crd.delays.filter fun e => decide (e.2 > 1)).map fun e => (e.1, e.2 - 1)
    let s1 := { s with crd := { s.crd with delays := rest } }
    let s2 := due.foldl (fun t id => match SMap.find? t.crd.tasks id with
      | some k => t.readyTail id k
      | none => t) s1
    s2.schedule.watchCalm 1)

/-- HOUSEKEEPING (R420): the housekeeping task has run and goes back on the delay list for 10 ms. -/
def execHousekeeping (s : State) : Host.Outcome State Fault Refusal :=
  .next (match s.crd.housekeeping.bind fun id => (SMap.find? s.crd.tasks id).map fun t => (id, t) with
    | none => s
    | some (id, t) =>
      let s1 := s.setReady t.level ((s.readyList t.level).filter (· != id))
      let s2 := (List.range 64).foldl (fun u i =>
        let x := u.thread i
        if x.running == some id then u.takeNext i
        else if x.next == some id then u.setThread i { x with next := none } else u) s1
      (s2.delayTask id 10000).schedule)

/-! ## Channels and thread faults (R410 to R413, R418) -/

/-- The words a channel holds. -/
def Channel.used (c : Channel) : Nat := c.part.length + c.messages.foldl (fun a m => a + m.length) 0

/-- A channel takes writes in turn: an END write makes the partial message visible, a word with no room stalls its writer, and
a ninth word without END is misuse and discarded (R411, R412). Answers the channel and whether misuse came. -/
def Channel.accept (c : Channel) : List (Nat × Bool) → Channel × Bool
  | [] => (c, false)
  | (w, true) :: rest =>
    if c.used ≥ 8 && c.part.length < 8 then ({ c with stalled := (w, true) :: rest }, false)
    else ({ c with messages := c.messages ++ [c.part ++ [w]], part := [] }).accept rest
  | (w, false) :: rest =>
    if c.part.length ≥ 8 then (c, true)
    else if c.used ≥ 8 then ({ c with stalled := (w, false) :: rest }, false)
    else ({ c with part := c.part ++ [w] }).accept rest

/-- A channel set. -/
def State.setChannel (s : State) (i : Nat) (c : Channel) : State :=
  { s with crd := { s.crd with channels := SMap.set s.crd.channels i c } }

/-- The partial messages of a thread are discarded, and the writes that stall it (R418). -/
def State.dropPartials (s : State) (thread : Nat) : State :=
  { s with crd := { s.crd with channels := SMap.mapVal (fun _ c =>
      if c.writer == thread then { c with part := [], stalled := [] } else c) s.crd.channels } }

/-- A thread fault (R418). -/
def State.threadFault (s : State) (thread kind addr : Nat) : State :=
  let s0 := (s.dropNext thread).dropPartials thread
  let s1 := s0.setThread thread { s0.thread thread with halted := true, wait := none }
  let held := bitOf (s1.getF F.crdThreadFault_value 0) 31
  let w := 2 ^ 31 + (thread / 16) <<< 29 + (thread % 16) <<< 25 + trunc 4 kind <<< 21
  let s2 := if held then s1 else (s1.setF F.crdThreadFault_value 0 w).setF F.crdThreadFault_value 1 (trunc 32 addr)
  let s3 := ((s2.setF F.crdEvent_threadFaultSeen 0 1).count C.crdThreadFaults).breakCalm
  ((s3.raise 0x1001 (thread / 16) thread kind).latchSupervisor evThreadFault).schedule

/-- THREAD_FAULT (R418). -/
def execThreadFault (thread kind addr : Nat) (s : State) : Host.Outcome State Fault Refusal :=
  .next (if thread ≥ 64 || (s.thread thread).halted then s else s.threadFault thread kind addr)

/-- RUN_BUDGET_EXPIRY (R414, R418): a running task has run past its budget. -/
def execRunBudgetExpiry (thread addr : Nat) (s : State) : Host.Outcome State Fault Refusal :=
  .next (
    let x := s.thread thread
    match x.running.bind fun id => SMap.find? s.crd.tasks id with
    | none => s
    | some t => if x.halted || s.tm.ticks < x.runStart + 1000 * t.budget then s else s.threadFault thread 3 addr)

/-- Writes reach a channel; complete messages latch the reader's source (R409, R411, R412). -/
def State.writeChannel (s : State) (i : Nat) (c : Channel) (ws : List (Nat × Bool)) : State :=
  let (c1, bad) := c.accept ws
  let s1 := s.setChannel i c1
  let s2 := if c1.messages.length > c.messages.length then s1.latch c1.reader evReadable else s1
  if bad then s2.threadFault c.writer 2 0 else s2.breakCalm

/-- CHANNEL_END_WRITE (R410 to R413): a thread writes words to a channel's data address and, with `last`, one to its END
address; a thread that is not the channel's writer commits misuse. -/
def execChannelEndWrite (thread channel : Nat) (words : List Nat) (last : Option Nat) (s : State) :
    Host.Outcome State Fault Refusal :=
  .next (match SMap.find? s.crd.channels channel with
    | none => if thread < 64 then s.threadFault thread 2 0 else s
    | some c =>
      if c.writer != thread then (if thread < 64 then s.threadFault thread 2 0 else s)
      else
        let ws := (words.map fun w => (trunc 64 w, false)) ++ (last.toList.map fun w => (trunc 64 w, true))
        if !c.stalled.isEmpty then s.setChannel channel { c with stalled := c.stalled ++ ws }
        else s.writeChannel channel c ws)

/-- CHANNEL_READ_END (R410 to R412): the reader reads a complete message to its END word; its words are freed, and stalled
writes go on. With no complete message nothing changes. -/
def execChannelReadEnd (thread channel : Nat) (s : State) : Host.Outcome State Fault Refusal :=
  .next (match SMap.find? s.crd.channels channel with
    | none => if thread < 64 then s.threadFault thread 2 0 else s
    | some c =>
      if c.reader != thread then (if thread < 64 then s.threadFault thread 2 0 else s)
      else
        match c.messages with
        | [] => s
        | m :: rest =>
          let c1 := { c with messages := rest, stalled := [] }
          let s1 := (s.setThread thread { s.thread thread with message := m }).setChannel channel c1
          (s1.writeChannel channel c1 c.stalled).latch c.writer evSpace)

/-- WAIT_EVENT_WAKE (R409, R417, R418): sources latch for a thread, and with `wait` it executes wait-for-event with a mask. A
supervisor that enters it has dealt with the thread faults it was woken for: their threads restart. -/
def execWaitEventWake (thread : Nat) (wait : Option Nat) (sources : Nat) (s : State) :
    Host.Outcome State Fault Refusal :=
  .next (
    if thread ≥ 64 then s
    else
      let s1 := s.latch thread (trunc 14 sources)
      match wait with
      | none => s1
      | some m =>
        let x := s1.thread thread
        if x.halted || x.wait.isSome || s1.threadStopped thread || !s1.threadOn thread then s1
        else
          let boss := s1.supervisor == some thread
          let s2 := if boss && Nat.land x.woke evThreadFault != 0 then
              ((List.range 64).filter fun t => (s1.thread t).halted && s1.getF F.crdCoreStatus_role (t / 16) == 1).foldl
                (fun u t => u.restartThread t) s1
            else s1
          let mask := if boss then Nat.lor (trunc 32 m) evBecalmed else trunc 32 m
          (s2.setThread thread { s2.thread thread with wait := some mask, woke := 0 }).wakeThread thread)

/-! ## Core failure and takeover (R429 to R435) -/

/-- The backstay core. -/
def State.backstay (s : State) : Option Nat := (List.range 4).find? fun c => s.getF F.crdCoreStatus_role c == 2

/-- What a takeover moves from the failed core to the core that takes over (R431). -/
def State.moveCore (s : State) (failed core : Nat) : State :=
  let moved (t : Nat) : Nat := if t / 16 == failed then 16 * core + t % 16 else t
  let cross (i : Nat) (c : Channel) : Channel :=
    if i ≥ 256 && (c.writer / 16 == failed || c.reader / 16 == failed) then
      { c with writer := moved c.writer, reader := moved c.reader, part := [], stalled := [] } else c
  let there := (s.crd.channels.filter fun e => e.1 / 64 == failed && decide (e.1 < 256)).map fun e =>
    (64 * core + e.1 % 64, { e.2 with writer := moved e.2.writer, reader := moved e.2.reader, messages := [], part := [],
                                      stalled := [] : Channel })
  let kept := SMap.keep (fun i _ => !(decide (i < 256) && (i / 64 == failed || i / 64 == core))) s.crd.channels
  let chans := there.foldl (fun m e => SMap.set m e.1 e.2) (SMap.mapVal cross kept)
  let owner (o : Nat) : Nat := if o ≥ 0x8000 && (o - 0x8000) / 16 == failed then 0x8000 + 16 * core + o % 16 else o
  let s0 := ((List.range 16).map (16 * failed + ·)).foldl (fun u t => match (u.thread t).running with
    | some id => ((u.dropNext t).setThread t { (u.dropNext t).thread t with running := none }).readyHead id
    | none => u.dropNext t) s
  let s1 := { s0 with
    crd := { s0.crd with
      channels := chans
      tasks := SMap.mapVal (fun _ t => if t.core == failed then { t with core := core } else t) s0.crd.tasks
      services := SMap.mapVal (fun _ t => moved t) s0.crd.services }
    tm := { s0.tm with tec := SMap.mapVal (fun _ e => { e with owner := owner e.owner }) s0.tm.tec } }
  (List.range 16).foldl (fun u i =>
    let x := u.thread (16 * failed + i)
    (u.setThread (16 * core + i) { Thread.reset with latched := x.latched, wakeWord := x.wakeWord, serves := x.serves }).setThread
      (16 * failed + i) { Thread.reset with halted := true }) s1

/-- A core fails (R429, R430, R434): a takeover starts on the backstay core; with none available, or with the failure of the
backstay core during a takeover, severity S4. -/
def State.coreFail (s : State) (core : Nat) (planned : Bool) (cmd : Option (Nat × Nat × Bool)) : State :=
  let role := s.getF F.crdCoreStatus_role core
  let during := s.crd.takeover.isSome
  if role != 1 && !(role == 2 && during) then s
  else
    let s9 := if planned then s else s.failUpdate
    let s0 := ((s9.setF F.crdCoreStatus_role core 3).setF F.crdCoreStatus_stopped core 0).breakCalm
    match s0.backstay with
    | none => s0.raise 0x1005 core core
    | some b =>
      if during then s0.raise 0x1005 core core
      else
        let s1 := { s0 with crd := { s0.crd with takeover := some ⟨core, b, s0.tm.ticks, cmd⟩ } }
        let s2 := ((s1.setF F.crdTakeover_state 0 1).setF F.crdTakeover_failedCore 0 core).setF F.crdTakeover_newCore 0 b
        let s3 := ((s2.setB F.crdTakeover_planned 0 planned).setF F.crdEvent_takeoverSeen 0 1).count C.crdTakeovers
        let s4 := (s3.setF F.crdCoreStatus_greedy b 1).setF F.crdCoreStatus_greedyThread b 0
        ((s4.raise 0x1003 core core).moveCore core b).raiseIrq irqTakeover

/-- CORE_FAILURE (R429): of an active core, or of the backstay core during a takeover; `cause` 0 a register parity error, 1 a
local-SRAM double-bit error, 2 an error in the issue table or next-task slots, 3 the supervisor's policy. -/
def execCoreFailure (core cause : Nat) (s : State) : Host.Outcome State Fault Refusal :=
  .next (
    if core ≥ 4 then s
    else (if cause == 1 then s.setF F.crdEvent_eccUncorrSeen 0 1 else s).coreFail core false none)

/-- KICK_TIMEOUT (R429): an active core has not kicked for kick_period; a stopped thread suspends the watchdog (R424). -/
def execKickTimeout (core : Nat) (s : State) : Host.Outcome State Fault Refusal :=
  .next (
    if core ≥ 4 || s.getF F.crdCoreStatus_role core != 1 || s.getF F.crdCoreStatus_stopped core != 0 then s
    else ((s.setF F.crdEvent_kickMissSeen 0 1).count C.crdKickMisses).coreFail core false none)

/-- A register of thread classes and a slot table go with the services to the core that took over (R430). -/
def State.takeClasses (s : State) (failed core : Nat) : State :=
  let s1 := (s.setF F.crdThreadClass_deterministic core (s.getF F.crdThreadClass_deterministic failed)).setF
    F.crdThreadClass_elastic core (s.getF F.crdThreadClass_elastic failed)
  let s2 := { s1 with crd := { s1.crd with slots := match SMap.find? s1.crd.slots failed with
    | some tb => SMap.set s1.crd.slots core tb
    | none => s1.crd.slots } }
  (List.range 16).foldl (fun u i => (u.syncThread (16 * core + i)).syncThread (16 * failed + i)) s2

/-- TAKEOVER_COMPLETE (R430, R434): the new core is active with a new control generation, the old one is fenced, reset and
tested; until its first pass ends there is no backstay core. -/
def execTakeoverComplete (s : State) : Host.Outcome State Fault Refusal :=
  .next (match s.crd.takeover with
    | none => s
    | some t =>
      if s.getF F.crdCoreStatus_role t.core != 2 then s
      else
        let s1 := { s with crd := { s.crd with takeover := none, testing := s.crd.testing ++ [t.failed] } }
        let s2 := (s1.setF F.crdCoreStatus_role t.core 1).setF F.crdCoreStatus_greedy t.core 0
        let s3 := s2.setF F.crdCoreStatus_ctrlGen t.core ((s2.getF F.crdCoreStatus_ctrlGen t.core + 1) % 256)
        let s4 := s3.setFence t.failed ((s3.getF F.crdCoreStatus_ctrlGen t.failed + 1) % 256)
        let s5 := if s4.getB F.crdCoreStatus_supervisor t.failed then
            (s4.setF F.crdCoreStatus_supervisor t.failed 0).setF F.crdCoreStatus_supervisor t.core 1 else s4
        let s6 := (s5.takeClasses t.failed t.core).setF F.crdTakeover_state 0 3
        let s7 := (s6.setF F.crdTakeover_durationUs 0 ((s6.tm.ticks - t.start) / 1000)).endCondition 0x1003 t.failed
        let s9 := match s7.boot.update with
          | some u => { s7 with boot := { s7.boot with coreFw := SMap.set s7.boot.coreFw t.failed u.version } }
          | none => s7
        let s8 := (s9.raise 0x1004 t.failed).schedule
        match t.cmd with
        | some (mbx, cid, noIrq) => s8.answer mbx cid noIrq .ok
        | none => s8)

/-- A core ends its test after a takeover and becomes the backstay core (R434, R583). -/
def State.becomeBackstay (s : State) (core : Nat) : State :=
  let s1 := { s with crd := { s.crd with testing := s.crd.testing.filter (· != core) } }
  (((s1.setF F.crdCoreStatus_role core 2).setF F.crdCoreStatus_greedy core 1).setF F.crdCoreStatus_greedyThread core
    0).endCondition 0x1004 core

/-- A core that fails its self-test is offline (R428, R434). -/
def State.goOffline (s : State) (core : Nat) : State :=
  let s1 := { s with crd := { s.crd with testing := s.crd.testing.filter (· != core) } }
  (((s1.setF F.crdCoreStatus_role core 0).setF F.crdCoreStatus_greedy core 0).setF F.crdEvent_coreOfflineSeen 0 1).raise
    0x1004 core

/-- SELFTEST_PASS_END (R427, R428, R434): a pass of the backstay core, or of a core reset after a takeover, ends; bit i of
`failed` is test i of R427 in its order. The march test destroys the local SRAM. -/
def execSelftestPassEnd (core failed age service : Nat) (s : State) : Host.Outcome State Fault Refusal :=
  .next (
    let under := s.crd.testing.contains core
    if core ≥ 4 || !(under || s.getF F.crdCoreStatus_role core == 2) || s.crd.takeover.isSome then s
    else if under && s.boot.update.isSome then s
    else
      let n := (s.crd.passes + 1) % 65536
      let s1 := { s with crd := { s.crd with
        passes := n, sram := SMap.keep (fun k _ => k / 32768 != core) s.crd.sram } }
      let s2 := ((s1.setF F.crdHealth_value 0 (n <<< 16 + trunc 6 failed)).setF F.crdHealth_value 1
        (trunc 16 age <<< 16 + trunc 8 service <<< 8)).setF F.crdHealth_value 2 (trunc 32 s1.tm.sec)
      let s3 := (s2.count C.crdSelftestPasses).raise 0x1006 core n (trunc 6 failed)
      let s4 := if bitOf failed 4 then
          { s3 with crd := { s3.crd with forced := s3.crd.forced.filter (· != service) ++ [service] } } else s3
      let s5 := if bitOf failed 4 then (s4.setF F.crdEvent_healthFailSeen 0 1).count C.crdHealthFails else s4
      if trunc 3 failed != 0 then s5.goOffline core
      else if under then s5.becomeBackstay core else s5)

/-- SERVICE_CHECKPOINT (R428, R433): a service writes its older slot, the commit flag last. -/
def execServiceCheckpoint (service : Nat) (content : List Nat) (s : State) : Host.Outcome State Fault Refusal :=
  .next (
    if !SMap.has s.crd.services service then s
    else
      let c := SMap.getD s.crd.checkpoints service ⟨none, none, true⟩
      let c1 : Checkpoint := if c.newer1 then { c with slot0 := some (content, s.now), newer1 := false }
        else { c with slot1 := some (content, s.now), newer1 := true }
      { s with crd := { s.crd with
        checkpoints := SMap.set s.crd.checkpoints service c1
        forced := s.crd.forced.filter (· != service) } })

/-! ## What firmware sets at its start (R402, R407, R410, R420, R577) -/

/-- A slot table the core accepts: a deterministic thread's slots at least 4 cycles apart, circularly (R407). -/
def slotTableOk (det : Nat) (tb : List (Option Nat)) : Bool :=
  tb.length == 32 && (List.range 32).all fun i =>
    match tb.getD i none with
    | none => true
    | some t => !bitOf det t || ([1, 2, 3].all fun d => tb.getD ((i + d) % 32) none != some t)

/-- The complex as firmware sets it up: C0 to C2 active, the backstay core as CRD_CTRL names it, the supervisor on C0,
becalmed enabled and the housekeeping task on the delay list (R401, R417, R420, R577). -/
def State.startCriod (s : State) (u : CrdSetup) : State :=
  let bs := s.getF F.crdCtrl_backstay
  let s1 := (List.range 4).foldl (fun t c =>
    let (det, el) := u.classes.getD c (0, 0)
    let t1 := (t.setF F.crdThreadClass_deterministic c (trunc 16 det)).setF F.crdThreadClass_elastic c (trunc 16 el)
    let tb := u.slots.getD c []
    let t2 := if slotTableOk det tb then { t1 with crd := { t1.crd with slots := SMap.set t1.crd.slots c tb } } else t1
    if c == bs then ((t2.setF F.crdCoreStatus_role c 2).setF F.crdCoreStatus_greedy c 1).setF F.crdCoreStatus_greedyThread c 0
    else ((t2.setF F.crdCoreStatus_role c 1).setF F.crdCoreStatus_greedy c 0).setF F.crdCoreStatus_ctrlGen c
      ((t2.getF F.crdCoreStatus_ctrlGen c + 1) % 256)) s
  let s2 := s1.setF F.crdCoreStatus_supervisor 0 1
  let chans := (u.channels.filter fun c => decide (c.1 < 320) && decide (c.2.1 < 64) && decide (c.2.2 < 64)).foldl
    (fun m c => SMap.set m c.1 (⟨c.2.1, c.2.2, [], [], []⟩ : Channel)) []
  let s3 := { s2 with crd := { s2.crd with
    channels := chans
    services := u.services.foldl (fun (m : SMap Nat) (e : Nat × Nat) => SMap.set m e.1 (e.2 % 64)) [] } }
  let s4 := (List.range 64).foldl (fun t i =>
    t.setThread i { t.thread i with serves := u.servers.contains i }) s3
  let (id, level, core, budget) := u.housekeeping
  let s5 := s4.setTask (id % 1024) ⟨level % 32, core % 4, Nat.max 1 (Nat.min 65535 budget), .waiting⟩
  ({ s5 with crd := { s5.crd with housekeeping := some (id % 1024) } }).delayTask (id % 1024) 10000 |>.syncSched

/-! ## The crd commands (R436) -/

/-- CRD_STATUS (`crd.status`): the CRD registers in address order, the slot tables, the services and their threads. -/
def execCrdStatus (h : CmdHdr) (s : State) : Host.Outcome State Fault Refusal :=
  .next (s.cmd (.crdStatus h) h attrNone [] fun s =>
    let regs : List (Reg × Nat) := [(.crdCtrl, 1), (.crdCoreStatus, 4), (.crdThreadState, 4), (.crdThreadClass, 4),
      (.crdSchedStatus, 1), (.crdBecalmed, 1), (.crdBecalmedTime, 2), (.crdTakeover, 1), (.crdFence, 1), (.crdHealth, 3),
      (.crdThreadFault, 2), (.crdEvent, 1)]
    let rs := regs.flatMap fun r => (List.range r.2).map fun i => (s.rd r.1 i).toNat
    let slots := (List.range 4).flatMap fun c => (List.range 32).map fun i =>
      ((SMap.getD s.crd.slots c []).getD i none).getD 0xFFFFFFFF
    (s, .bulkOf [] (rs ++ slots ++ List.flatMap (fun (e : Nat × Nat) => [e.1, e.2]) s.crd.services)))

/-- CRD_TAKEOVER (`crd.takeover`, R435): the core writes fresh checkpoints and is taken over; the command ends with it. -/
def execCrdTakeover (h : CmdHdr) (core : Nat) (s : State) : Host.Outcome State Fault Refusal :=
  .next (s.cmdLater (.crdTakeover h core) h attrO [decide (core < 4) && s.getF F.crdCoreStatus_role core == 1] fun s =>
    if s.backstay.isNone || s.crd.takeover.isSome then (s, some (.err eState))
    else (s.coreFail core true (some (h.mbx, h.cid, h.noIrq)), none))

/-- CRD_CONFIG (`crd.config`). -/
def execCrdConfig (h : CmdHdr) (becalmedAction kickPeriod ckptPeriod : Nat) (s : State) :
    Host.Outcome State Fault Refusal :=
  .next (s.cmd (.crdConfig h becalmedAction kickPeriod ckptPeriod) h attrNone
      [decide (becalmedAction ≤ 1), decide (10 ≤ kickPeriod) && decide (kickPeriod ≤ 255),
      decide (ckptPeriod ≤ 255)] fun s =>
    (((s.setF F.crdCtrl_becalmedAction 0 becalmedAction).setF F.crdCtrl_kickPeriod 0 kickPeriod).setF F.crdCtrl_ckptPeriod 0
      ckptPeriod, .ok))

/-- CRD_HEALTH (`crd.health`, R428). -/
def execCrdHealth (h : CmdHdr) (s : State) : Host.Outcome State Fault Refusal :=
  .next (s.cmd (.crdHealth h) h attrS [] fun s => (s, .val ((List.range 3).map fun i => s.getF F.crdHealth_value i)))

/-! ## The debugger (R424 to R426) -/

/-- The transactions of a thread are under debug hold while it is stopped with debug hold set (R263, R426). -/
def State.syncHold (s : State) (t : Nat) : State :=
  let on := s.threadStopped t && (s.thread t).hold
  { s with fst := { s.fst with txs := SMap.mapVal (fun _ x =>
      if x.cls == 6 && x.source % 64 == t then { x with held := on } else x) s.fst.txs } }

/-- Whether a core and a thread exist, in the order of the parameters. -/
def threadOk (core thread : Nat) : List Bool := [decide (core < 4), decide (thread < 16)]

/-- DBG_STOP (`dbg.stop`, R424). -/
def execDbgStop (h : CmdHdr) (core thread : Nat) (s : State) : Host.Outcome State Fault Refusal :=
  .next (s.cmd (.dbgStop h core thread) h attrD (threadOk core thread) fun s =>
    let t := 16 * core + thread
    let s1 := (s.dropNext t).setBit F.crdCoreStatus_stopped core thread true
    ((((s1.syncThread t).syncHold t).breakCalm.setF F.crdEvent_debugStopSeen 0 1).schedule, .ok))

/-- DBG_RESUME (`dbg.resume`, R424): sources that latched are seen now. -/
def execDbgResume (h : CmdHdr) (core thread : Nat) (s : State) : Host.Outcome State Fault Refusal :=
  .next (s.cmd (.dbgResume h core thread) h attrD (threadOk core thread) fun s =>
    let t := 16 * core + thread
    if !s.threadStopped t then (s, .err eState)
    else
      let s1 := s.setBit F.crdCoreStatus_stopped core thread false
      ((((s1.syncThread t).syncHold t).wakeThread t).schedule, .ok))

/-- A thread's register as the debugger sees it. -/
def State.threadReg (s : State) (t r : Nat) : Nat := SMap.getD s.crd.regs (32 * t + r) 0

/-- A thread's register written. -/
def State.setThreadReg (s : State) (t r v : Nat) : State :=
  { s with crd := { s.crd with regs := SMap.put 0 s.crd.regs (32 * t + r % 32) (trunc 64 v) } }

/-- A word of a core's local SRAM written. -/
def State.setSram (s : State) (core a v : Nat) : State :=
  { s with crd := { s.crd with sram := SMap.put 0 s.crd.sram (32768 * core + a % 32768) (trunc 64 v) } }

/-- DBG_STEP (`dbg.step`, R424): one instruction issues. The Criod instruction set is not in the spec, so what the
instruction writes to the thread's registers is the command's input. -/
def execDbgStep (h : CmdHdr) (core thread : Nat) (writes : List (Nat × Nat)) (s : State) :
    Host.Outcome State Fault Refusal :=
  .next (s.cmd (.dbgStep h core thread writes) h attrD (threadOk core thread) fun s =>
    let t := 16 * core + thread
    if !s.threadStopped t then (s, .err eState)
    else (writes.foldl (fun u w => u.setThreadReg t w.1 w.2) s, .ok))

/-- DBG_HOLD (`dbg.hold`, R426). -/
def execDbgHold (h : CmdHdr) (core thread : Nat) (on : Bool) (s : State) : Host.Outcome State Fault Refusal :=
  .next (s.cmd (.dbgHold h core thread on) h attrD (threadOk core thread) fun s =>
    let t := 16 * core + thread
    ((s.setThread t { s.thread t with hold := on }).syncHold t, .ok))

/-- Whether a range of registers or of local SRAM words exists. -/
def debugRange (sram : Bool) (first count : Nat) : Bool := decide (first + count ≤ if sram then 32768 else 32)

/-- DBG_THREAD_READ (`dbg.thread_read`, R424): 64-bit values, each as two words, low word first. -/
def execDbgThreadRead (h : CmdHdr) (core thread : Nat) (sram : Bool) (first count : Nat) (s : State) :
    Host.Outcome State Fault Refusal :=
  .next (s.cmd (.dbgThreadRead h core thread sram first count) h attrD
      (threadOk core thread ++ [true, debugRange sram first count]) fun s =>
    let t := 16 * core + thread
    if !s.threadStopped t then (s, .err eState)
    else
      let vs := (List.range count).map fun i =>
        if sram then SMap.getD s.crd.sram (32768 * core + first + i) 0 else s.threadReg t (first + i)
      (s, .bulkOf [] (vs.flatMap fun v => [trunc 32 v, v / 2 ^ 32])))

/-- DBG_THREAD_WRITE (`dbg.thread_write`, R424). -/
def execDbgThreadWrite (h : CmdHdr) (core thread : Nat) (sram : Bool) (first : Nat) (values : List Nat) (s : State) :
    Host.Outcome State Fault Refusal :=
  .next (s.cmd (.dbgThreadWrite h core thread sram first values) h attrD
      (threadOk core thread ++ [true, debugRange sram first values.length]) fun s =>
    let t := 16 * core + thread
    if !s.threadStopped t then (s, .err eState)
    else
      let at_ := (List.range values.length).map fun i => (first + i, wordAt values i)
      (at_.foldl (fun u w => if sram then u.setSram core w.1 w.2 else u.setThreadReg t w.1 w.2) s, .ok))

/-- DBG_CHANNEL_READ (`dbg.channel_read`, R425): how many complete messages, then each message's length and its words, then
those of the partial message. -/
def execDbgChannelRead (h : CmdHdr) (channel : Nat) (s : State) : Host.Outcome State Fault Refusal :=
  .next (s.cmd (.dbgChannelRead h channel) h attrD [decide (channel < 320)] fun s =>
    let c := SMap.getD s.crd.channels channel ⟨0, 0, [], [], []⟩
    let words (m : List Nat) : List Nat := m.length :: m.flatMap fun v => [trunc 32 v, v / 2 ^ 32]
    (s, .bulkOf [] (c.messages.length :: (c.messages.flatMap words ++ words c.part))))

/-- DBG_CHANNEL_ABORT (`dbg.channel_abort`, R425): a stopped writer's partial message is discarded; complete ones stay. -/
def execDbgChannelAbort (h : CmdHdr) (channel : Nat) (s : State) : Host.Outcome State Fault Refusal :=
  .next (s.cmd (.dbgChannelAbort h channel) h attrD [decide (channel < 320)] fun s =>
    match SMap.find? s.crd.channels channel with
    | none => (s, .err eNoent)
    | some c =>
      if c.part.isEmpty then (s, .err eNoent)
      else if !s.threadStopped c.writer then (s, .err eState)
      else
        let c1 := { c with part := [], stalled := [] }
        (((s.setChannel channel c1).writeChannel channel c1 c.stalled).latch c.writer evSpace, .ok))

end Sys2Proof.Machine
end

