-- ==== Sys2Proof/Machine/HostIf.lean ====
section
/-! DEFINITION. The host interface: mailboxes, command fetch and completions, resets of the host interface, DMA errors, the
SMBus mailbox, and the sys and mbx commands this chapter owns (R439 to R457, R466 to R471). -/

namespace Sys2Proof.Machine

/-! ## Mailboxes (R447 to R451) -/

/-- A mailbox; 8 is the debug mailbox, whose queues have 32 entries (R468). -/
def State.mailbox (s : State) (m : Nat) : Mailbox := SMap.getD s.host.mboxes m Mailbox.reset

/-- A mailbox changed. -/
def State.setMailbox (s : State) (m : Nat) (v : Mailbox) : State :=
  { s with host := { s.host with mboxes := SMap.set s.host.mboxes m v } }

/-- Submission and completion queue sizes. -/
def Mailbox.sqSize (b : Mailbox) : Nat := 2 ^ (b.sqLog + 4)
def Mailbox.cqSize (b : Mailbox) : Nat := 2 ^ (b.cqLog + 4)

/-- A mailbox is ready (R449, R468). -/
def State.mbxReady (s : State) (m : Nat) : Bool :=
  if m < 8 then s.getBit F.mbxStatus_ready 0 m else m == 8 && s.getB F.mbxStatus_dbgReady

/-- A mailbox's ready bit. -/
def State.setMbxReady (s : State) (m : Nat) (b : Bool) : State :=
  if m < 8 then s.setBit F.mbxStatus_ready 0 m b else s.setB F.mbxStatus_dbgReady 0 b

/-- A mailbox's enable bit set or cleared. -/
def State.setMbxEn (s : State) (m : Nat) (b : Bool) : State :=
  if m < 8 then s.setBit F.mbxCtrl_en 0 m b else s.setB F.mbxCtrl_dbgEn 0 b

/-- MBX_STATUS.in_flight follows the commands between fetch and completion. -/
def State.syncInflight (s : State) : State := s.setF F.mbxStatus_inFlight 0 (Nat.min 63 s.host.inflight.length)

/-- A mailbox whose queue was closed becomes not ready with its last completion (R449). -/
def State.closeMailbox (s : State) (m : Nat) : State :=
  let b := s.mailbox m
  if b.closing && !(s.host.inflight.any fun e => e.mbx == m) then
    (s.setMailbox m { b with closing := false }).setMbxReady m false
  else s

/-- Firmware sets a mailbox up from its table entry (R448, R449); the debug mailbox needs none (R468). -/
def State.setupMailbox (s : State) (m : Nat) (entry : List Nat) : State :=
  let w7 := wordAt entry 7
  let sq := bitsOf w7 19 16
  let cq := bitsOf w7 15 12
  let sqBase := wordAt entry 5 * 2 ^ 32 + wordAt entry 4
  let cqBase := wordAt entry 3 * 2 ^ 32 + wordAt entry 2
  let good := m == 8 || (bitOf w7 31 && decide (sq ≤ 8) && decide (cq ≤ 8) && sqBase % 4096 == 0 && cqBase % 4096 == 0)
  if !good then (s.mbxEvent F.mbxEvent_setupErrorSeen).mbxCapture 3 m 0
  else
    let b : Mailbox := if m == 8 then ⟨1, 1, 0, 0, 0, 0, true, true, false⟩ else ⟨sq, cq, sqBase, cqBase, 0, 0, true, true, false⟩
    ((((s.setMailbox m b).setF F.mbxQstate_sqHead m 0).setF F.mbxQstate_cqTail m 0).setBit F.mbxStatus_stopped 0 m
      false).setMbxReady m true

/-- Firmware runs and may use DMA: mailboxes enabled before are set up now (R449, R579). While the ROM waits for an image
only mailbox 0 is (R575). -/
def State.lateSetups (s : State) : State :=
  if !s.dmaOn then s
  else if !s.getB F.sysStatus_ready then
    (match SMap.find? s.host.lateSetup 0 with
      | some e => if s.boot.recovery then
          ({ s with host := { s.host with lateSetup := SMap.del s.host.lateSetup 0 } }).setupMailbox 0 e else s
      | none => s)
  else s.host.lateSetup.foldl (fun t e => t.setupMailbox e.1 e.2) { s with host := { s.host with lateSetup := [] } }

/-- Host software enables a mailbox, and firmware reads its entry as soon as it can (R449, R579). -/
def State.enableMailbox (s : State) (mbx : Nat) (entry : List Nat) : State :=
  let s1 := s.setMbxEn mbx true
  ({ s1 with host := { s1.host with lateSetup := SMap.set s1.host.lateSetup mbx entry } }).lateSetups

/-- MBX_ENABLE (R449, R468, R579). -/
def execMbxEnable (mbx : Nat) (entry : List Nat) (s : State) : Host.Outcome State Fault Refusal :=
  .next (if mbx > 8 then s else s.enableMailbox mbx entry)

/-- Fetching from a mailbox stops, and it closes when its commands have ended (R449). -/
def State.disableMailbox (s : State) (m : Nat) : State :=
  let s1 := s.setMbxEn m false
  let s2 := { s1 with host := { s1.host with lateSetup := SMap.del s1.host.lateSetup m } }
  if s2.mbxReady m then (s2.setMailbox m { s2.mailbox m with closing := true }).closeMailbox m else s2

/-- MBX_DISABLE (R449). -/
def execMbxDisable (mbx : Nat) (s : State) : Host.Outcome State Fault Refusal :=
  .next (if mbx > 8 then s else s.disableMailbox mbx)

/-- A write of MBX_SQ_DB (R450): a new tail, rejected where the mailbox is not ready or the tail is out of range or past the
head. -/
def State.sqDoorbell (s : State) (mbx tail : Nat) : State :=
  let b := s.mailbox mbx
  let head := s.getF F.mbxQstate_sqHead mbx
  let used := (b.sqTail + b.sqSize - head) % b.sqSize
  let add := (tail + b.sqSize - b.sqTail) % b.sqSize
  if mbx > 8 then s
  else if !s.mbxReady mbx || tail ≥ b.sqSize || used + add ≥ b.sqSize then s.badDoorbell 0 mbx tail
  else s.setMailbox mbx { b with sqTail := tail }

/-- MBX_SQ_DOORBELL (R450). -/
def execMbxSqDoorbell (mbx tail : Nat) (s : State) : Host.Outcome State Fault Refusal := .next (s.sqDoorbell mbx tail)

/-- A write of MBX_CQ_DB (R450, R451, R461): a new head frees slots, and `arm` re-arms the vector. -/
def State.cqDoorbell (s : State) (mbx : Nat) (arm : Bool) (head : Nat) : State :=
  let b := s.mailbox mbx
  let tail := s.getF F.mbxQstate_cqTail mbx
  if mbx > 8 then s
  else if !s.mbxReady mbx || head ≥ b.cqSize
      || (head + b.cqSize - b.cqHead) % b.cqSize > (tail + b.cqSize - b.cqHead) % b.cqSize then s.badDoorbell 1 mbx head
  else s.setMailbox mbx { b with cqHead := head, armed := b.armed || arm }

/-- MBX_CQ_DOORBELL (R450, R451, R461). -/
def execMbxCqDoorbell (mbx : Nat) (arm : Bool) (head : Nat) (s : State) : Host.Outcome State Fault Refusal :=
  .next (s.cqDoorbell mbx arm head)

/-! ## Fetch (R451, R452, R469) -/

/-- The groups of the catalogue: base opcode and number of commands (R469). -/
def opcodeGroups : List (Nat × Nat) :=
  [(0x0000, 7), (0x0080, 4), (0x0100, 6), (0x0180, 2), (0x0200, 5), (0x0280, 7), (0x0300, 6), (0x0380, 3), (0x0400, 3),
   (0x0480, 5), (0x0500, 2), (0x0580, 8), (0x0600, 4), (0x0680, 4), (0x0700, 5), (0x0780, 3), (0x0800, 4), (0x0880, 7),
   (0x0900, 8), (0x0980, 6), (0x0A00, 5), (0x0A80, 5), (0x0B00, 4), (0x0B80, 8), (0x0C00, 7), (0x0C80, 7), (0x0D00, 4),
   (0x0D80, 2), (0x0E00, 3)]

/-- An opcode of the catalogue. -/
def knownOpcode (op : Nat) : Bool := opcodeGroups.any fun g => decide (g.1 ≤ op) && decide (op < g.1 + g.2)

/-- A command's header is well formed and its opcode known (R452, R456). -/
def headerOk (ws : List Nat) : Bool :=
  let w14 := wordAt ws 14
  let jcs := bitsOf w14 23 16
  bitsOf w14 29 24 == 0 && bitsOf w14 15 4 == 0 && (jcs == 0x14 || jcs == 0) && decide (bitsOf w14 3 0 ≤ 11)
    && wordAt ws 12 % 8 == 0 && decide (wordAt ws 11 ≤ 67108864) && knownOpcode (bitsOf (wordAt ws 15) 31 16)

/-- Whether the next command of a mailbox may be fetched (R442, R443, R449, R451, R474, R503). -/
def State.mayFetch (s : State) (m : Nat) : Bool :=
  let b := s.mailbox m
  s.mbxReady m && !b.closing && s.getF F.mbxQstate_sqHead m != b.sqTail
    && decide ((s.host.inflight.filter fun e => e.mbx == m).length < 8)

/-- A command of the debug mailbox lies in on-die memory, 16 words an entry (R468). -/
def State.debugEntry (s : State) (slot : Nat) : List Nat :=
  (List.range 16).map fun i => SMap.getD s.host.dbgMem (16 * slot + i) 0

/-- COMMAND_FETCH (R451, R452, R456, R468): the round robin fetches one command, which waits to begin; one with a bad header
or an unknown opcode is answered at once. -/
def execCommandFetch (words : List Nat) (s : State) : Host.Outcome State Fault Refusal :=
  .next (
    let order := (List.range 9).map fun i => (s.host.nextMbx + i) % 9
    if !s.dmaOn || s.flt.fetchStopped || s.host.inflight.length ≥ 64 then s
    else
      match order.find? s.mayFetch with
      | none => s
      | some m =>
        let head := s.getF F.mbxQstate_sqHead m
        let ws := if m == 8 then s.debugEntry head else words
        let next := (head + 1) % (s.mailbox m).sqSize
        let w15 := wordAt ws 15
        let w14 := wordAt ws 14
        let rsp : Option Rsp := if headerOk ws then none else some ⟨eInval, headerFault, [], []⟩
        let e : Inflight := ⟨m, w15 % 2 ^ 16, bitsOf w15 31 16, bitOf w14 31, bitOf w14 30, next, rsp.isSome, rsp, false⟩
        let s1 := { s with host := { s.host with inflight := s.host.inflight ++ [e], nextMbx := (m + 1) % 9 } }
        (s1.setF F.mbxQstate_sqHead m next).syncInflight)

/-! ## Completions (R451, R454, R461, R466) -/

/-- A completion is written into its CQ slot: the bulk result first, then the entry with its phase, then the vector. -/
def State.postEntry (s : State) (e : Inflight) (r : Rsp) : State :=
  let m := e.mbx
  let b := s.mailbox m
  let tail := s.getF F.mbxQstate_cqTail m
  let ws := completionWords e.cid e.sqHead r
  let ws1 := setAt ws 7 (wordAt ws 7 + b2n b.phase <<< 31)
  let s1 := if r.bulk.isEmpty then s else s.emit (.bulk m e.cid r.bulk)
  let s2 := if m == 8 then { s1 with host := { s1.host with
        dbgMem := (List.range 8).foldl (fun t i => SMap.put 0 t (512 + 8 * tail + i) (wordAt ws1 i)) s1.host.dbgMem } }
    else s1
  let next := (tail + 1) % b.cqSize
  let fire := b.armed && !e.noIrq
  let s3 := ((s2.emit (.completion m tail ws1)).setMailbox m
    { b with phase := if next == 0 then !b.phase else b.phase, armed := b.armed && !fire }).setF F.mbxQstate_cqTail m next
  if fire then s3.raiseVector m else s3

/-- COMPLETION_POST (R27, R451, R454): the first command of a mailbox has finished and its completion is posted, in
submission order; with no free slot it waits. -/
def execCompletionPost (mbx : Nat) (s : State) : Host.Outcome State Fault Refusal :=
  .next (match s.host.inflight.find? fun e => e.mbx == mbx with
    | none => s
    | some e =>
      match e.rsp with
      | none => s
      | some r =>
        let b := s.mailbox mbx
        let full := (s.getF F.mbxQstate_cqTail mbx + 1) % b.cqSize == b.cqHead
        if mbx < 8 && !s.dmaOn then s
        else if full then (s.setBit F.mbxStatus_cqFull 0 mbx true).mbxEvent F.mbxEvent_cqStallSeen
        else
          let s1 := (s.postEntry e r).setBit F.mbxStatus_cqFull 0 mbx false
          (({ s1 with host := { s1.host with inflight := s1.host.inflight.erase e } }).syncInflight).closeMailbox mbx)

/-! ## Resets of the host interface (R441, R457) -/

/-- A register of the PCI or MBX block (R444, R475). -/
def Reg.ofHost (r : Reg) : Bool :=
  r.place.bar == 2 || (decide (0x10000 ≤ r.place.base) && decide (r.place.base < 0x30000))

/-- The key of a register instance of the PCI or MBX block. -/
def hostRegKey (k : Nat) : Bool := allRegs.any fun r => r.ofHost && k % 256 == r.ctorIdx

/-- A packet injected from a ring has no descriptor to write back any more. -/
def Pkt.untied (p : Pkt) : Pkt := { p with tx := none }

/-- The host interface is reset: its registers, mailboxes, rings and MSI-X table. Commands not begun are discarded, those
begun run on and their completions are discarded, open host transactions go; everything else goes on (R441, R457). -/
def State.resetHost (s : State) : State :=
  let resets := s.getF F.pciStatus_resets
  let smb := s.getF F.mbxStatus_smbReady
  let lost := (s.host.inflight.filter fun e => e.begun && !e.discard).length
  let keep := (s.host.inflight.filter fun e => e.begun && e.rsp.isNone).map fun e => { e with discard := true }
  let s1 := { s with
    regs := SMap.keep (fun k _ => !hostRegKey k) s.regs
    host := { s.host with
      mboxes := [], inflight := keep, waiting := [], nextMbx := 0, lateSetup := [], dbgMem := [], msixTable := [], rings := []
      writeBacks := [], lostCompletions := lost }
    fst := { s.fst with hostTx := [] }
    pk := { s.pk with pkts := SMap.mapVal (fun _ p => p.untied) s.pk.pkts } }
  let s2 := (s1.setF F.pciStatus_resets 0 (satAdd 65535 resets 1)).setF F.mbxStatus_smbReady 0 smb
  if lost > 0 then s2.mbxEvent F.mbxEvent_flrLostSeen else s2

/-- FLR (R441, R457): flr_active is set until it completes; the link stays up. -/
def execFlr (s : State) : Host.Outcome State Fault Refusal :=
  .next (
    let link := (s.getF F.pciStatus_speed, s.getF F.pciStatus_width, s.getF F.pciStatus_linkUp)
    let s1 := ((s.resetHost.setF F.pciStatus_speed 0 link.1).setF F.pciStatus_width 0 link.2.1).setF F.pciStatus_linkUp 0
      link.2.2
    (s1.setF F.pciStatus_flrActive 0 1).setF F.pciEvent_flrSeen 0 1)

/-- FLR_COMPLETE (R441). -/
def execFlrComplete (s : State) : Host.Outcome State Fault Refusal := .next (s.setF F.pciStatus_flrActive 0 0)

/-- PERST (R439, R441, R457): PERST_N resets the host interface; when it is released the link trains to a speed and a width,
0 for none. -/
def execPerst (speed width : Nat) (s : State) : Host.Outcome State Fault Refusal :=
  .next (
    let s1 := s.resetHost
    if speed == 0 then s1
    else ((s1.setF F.pciStatus_speed 0 (Nat.min 5 speed)).setF F.pciStatus_width 0 width).setF F.pciStatus_linkUp 0 1)

/-! ## D3hot, dma_stop, DMA errors (R442, R443, R474) -/

/-- DMA goes on: write-backs that were held are written, and mailboxes that wait are set up. -/
def State.resumeDma (s : State) : State :=
  if !s.dmaOn then s
  else
    let s1 := { s with host := { s.host with writeBacks := [] } }
    (s.host.writeBacks.foldl (fun t w =>
      t.emit (.txWriteBack w.1 w.2.1 w.2.2.1 w.2.2.2.1 w.2.2.2.2.1 w.2.2.2.2.2)) s1).lateSetups

/-- D3HOT_ENTRY (R442). -/
def execD3hotEntry (s : State) : Host.Outcome State Fault Refusal := .next (s.setF F.pciStatus_d3hot 0 1)

/-- D3HOT_EXIT (R442). -/
def execD3hotExit (s : State) : Host.Outcome State Fault Refusal := .next ((s.setF F.pciStatus_d3hot 0 0).resumeDma)

/-- PCI_CTRL.dma_stop is written (R474). -/
def State.writeDmaStop (s : State) (stop : Bool) : State := (s.setB F.pciCtrl_dmaStop 0 stop).resumeDma

/-- DMA_STOP_WRITE (R474). -/
def execDmaStopWrite (stop : Bool) (s : State) : Host.Outcome State Fault Refusal := .next (s.writeDmaStop stop)

/-- PCI_ERR_CAPTURE takes an error while it holds none: kind is the bit of PCI_EVENT less 24 (R474). -/
def State.pciCapture (s : State) (kind target unit addr : Nat) : State :=
  if bitOf (s.getF F.pciErrCapture_value 1) 31 then s
  else
    let w1 := 2 ^ 31 + trunc 3 kind <<< 28 + trunc 2 target <<< 26 + trunc 6 unit <<< 20 + trunc 20 (addr / 2 ^ 32)
    (s.setF F.pciErrCapture_value 0 (trunc 32 addr)).setF F.pciErrCapture_value 1 w1

/-- DMA_READ_ERROR (R443): a read of the device ends in a completion timeout (kind 0), an unsupported request (1) or poisoned
data (2); `target` 0 the data of command `cid` of mailbox `unit`, 1 an SQ entry of mailbox `unit`, 2 the descriptor or frame
at the consumer index of TX ring `unit`. -/
def execDmaReadError (kind target unit cid addr : Nat) (s : State) : Host.Outcome State Fault Refusal :=
  .next (
    let bit := if kind == 0 then F.pciEvent_cplTimeoutSeen else if kind == 1 then F.pciEvent_urSeen else F.pciEvent_poisonSeen
    let s1 := (s.pciEvent bit).pciCapture (4 - Nat.min 2 kind) target unit addr
    if target == 0 then
      if s1.host.inflight.any fun e => e.mbx == unit && e.cid == cid && e.rsp.isNone then
        s1.answer unit cid false (.err eFault)
      else s1
    else if target == 1 then
      if unit ≥ 8 then s1
      else
        let s2 := (s1.setBit F.mbxStatus_stopped 0 unit true).setMbxReady unit false
        (s2.mbxEvent F.mbxEvent_fetchErrorSeen).mbxCapture 4 unit (s2.getF F.mbxQstate_sqHead unit)
    else
      let r := s1.ring unit
      if !r.enabled || r.rtype != 2 || r.consumer == r.producer then s1
      else (s1.setRing unit { r with consumer := (r.consumer + 1) % r.size }).writeBack460 unit r.consumer 2 0 0 0)

/-! ## The SMBus mailbox (R467) -/

/-- The SMBus mailbox's bits of MBX_STATUS. -/
def State.setSmbus (s : State) (v : SmbusPart) : State := { s with host := { s.host with smbus := v } }

/-- SMBUS_BLOCK_WRITE (R456, R467): a command, discarded with a bad PEC and refused while one runs; a bad header or an
unknown opcode is answered at once. -/
def execSmbusBlockWrite (words : List Nat) (pecGood : Bool) (s : State) : Host.Outcome State Fault Refusal :=
  .next (
    let b := s.host.smbus
    if !s.getB F.mbxCtrl_smbEn || b.busy then s
    else if !pecGood then (s.setSmbus { b with badPec := true }).mbxEvent F.mbxEvent_smbPecSeen
    else
      let s1 := s.setSmbus { b with busy := true, ready := false, badPec := false }
      if headerOk words then s1
      else s1.answer 9 (wordAt words 15 % 2 ^ 16) true ⟨eInval, headerFault, [], []⟩)

/-- SMBUS_STATUS_READ (R467). -/
def execSmbusStatusRead (s : State) : Host.Outcome State Fault Refusal :=
  .next (
    let b := s.host.smbus
    s.emit (.smbus 0x11 [b2n b.busy + 2 * b2n b.ready + 4 * b2n b.badPec]))

/-- SMBUS_COMPLETION_READ (R467): the 32-byte completion; ready is cleared. -/
def execSmbusCompletionRead (s : State) : Host.Outcome State Fault Refusal :=
  .next (
    let b := s.host.smbus
    (s.emit (.smbus 0x12 ((List.range 8).flatMap fun i => bytesLE 4 (wordAt b.completion i)))).setSmbus
      { b with ready := false })

/-- SMBUS_RESULT_READ (R467): the result page. -/
def execSmbusResultRead (s : State) : Host.Outcome State Fault Refusal :=
  .next (s.emit (.smbus 0x13 (s.host.smbus.page.flatMap fun w => bytesLE 4 w)))

/-- Bits of SYS_IRQ_STATUS cleared; INT_N follows (R466). -/
def State.clearIrq (s : State) (mask : Nat) : State :=
  let w := (s.rd .sysIrqStatus 0).toNat
  (s.wr .sysIrqStatus 0 (BitVec.ofNat 32 (w - Nat.land w mask))).updateIntN

/-- SMBUS_IRQ_CLEAR (R466, R467). -/
def execSmbusIrqClear (bit : Nat) (s : State) : Host.Outcome State Fault Refusal :=
  .next (if bit < 32 then s.clearIrq (2 ^ bit) else s)

/-! ## Commands (R467, R471) -/

/-- A command that the boot ROM answers on the SMBus mailbox before firmware is ready (R467, R576). -/
def State.cmdRom (s : State) (c : Instr) (h : CmdHdr) (checks : List Bool) (body : State → State × Rsp)
    (recovery : Bool := false) : State :=
  match s.refuseCmd h attrS true recovery with
  | some r => s.stopCmd c h r
  | none =>
    match firstBad checks with
    | some i => s.finish h (.inval i)
    | none =>
      let (s', r) := body s
      s'.finish h r

/-- JCS 1.4 (R452, R469). -/
def jcsVersion : Nat := 0x14

/-- SYS_IDENTITY (`sys.identity`, R471). -/
def execSysIdentity (h : CmdHdr) (s : State) : Host.Outcome State Fault Refusal :=
  .next (s.cmdRom (.sysIdentity h) h [] (fun s =>
    (s, .val [(s.rd .sysId 0).toNat, s.getF F.sysSerial_serial 0, s.getF F.sysSerial_serial 1, (s.rd .sysFwVersion 0).toNat,
      (s.rd .sysFwVersion 1).toNat, jcsVersion])) true)

/-- SYS_STATUS (`sys.status`, R457, R467, R471); the ROM returns the first two words only. -/
def execSysStatus (h : CmdHdr) (s : State) : Host.Outcome State Fault Refusal :=
  .next (s.cmdRom (.sysStatus h) h [] fun s =>
    let two := [(s.rd .sysStatus 0).toNat, (s.rd .sysResetCause 0).toNat]
    (s, .val (if s.getB F.sysStatus_ready then two ++ [s.reductions, s.host.lostCompletions] else two)))

/-- MBX_NOP (`mbx.nop`, R471). -/
def execMbxNop (h : CmdHdr) (s : State) : Host.Outcome State Fault Refusal := .next (s.cmd (.mbxNop h) h attrS
    [] fun s => (s, .ok))

end Sys2Proof.Machine
end

