-- ==== Sys2Proof/Machine/Faults.lean ====
section
/-! DEFINITION. Faults, reactions and recovery: reports, the first-error capture, the exits from reef mode and the bare-poles
state, the collector's own failures, shard restarts, last gasp, availability, and the flt, log and avail commands
(chapter 15). -/

namespace Sys2Proof.Machine

/-! ## Reports (R403, R481, R483) -/

/-- What a report of a Criod memory error shows in CRD beside it: a corrected error is counted, a double-bit error poisons the
word of the shared SRAM (R403, R437, R438). -/
def State.sramError (s : State) (code addr : Nat) : State :=
  if code == 0x1007 then (s.setF F.crdEvent_eccCorrSeen 0 1).count C.crdEccCorr
  else if code == 0x1008 then
    let s1 := s.setF F.crdEvent_eccUncorrSeen 0 1
    { s1 with crd := { s1.crd with poisoned := s1.crd.poisoned.filter (· != addr / 8) ++ [addr / 8] } }
  else s

/-- FAULT_REPORT (R476, R481, R485): a block reports a fault it has detected now, with its capture address and master. -/
def execFaultReport (code inst arg0 arg1 addr master masterIndex access : Nat) (s : State) :
    Host.Outcome State Fault Refusal :=
  .next (
    let s1 := s.sramError code addr
    s1.report { s1.faultArg code inst arg0 arg1 with
      addr := addr, master := master, masterIndex := masterIndex, access := access })

/-- CONDITION_END (R478, R480, R483, R508). -/
def execConditionEnd (code inst : Nat) (s : State) : Host.Outcome State Fault Refusal := .next (s.endCondition code inst)

/-! ## The first-error capture (R486 to R488) -/

/-- The stamp of a held fault in nanoseconds. -/
def HeldFault.stamp (h : HeldFault) : Nat := h.fault.sec * 1000000000 + h.fault.ns

/-- Its source number. -/
def HeldFault.source (h : HeldFault) : Nat := sourceOf h.fault.code h.fault.instance_

/-- A fault goes before another in the capture: higher severity, then lower source number (R488). -/
def HeldFault.before (a b : HeldFault) : Bool :=
  decide (a.severity > b.severity) || (a.severity == b.severity && decide (a.source < b.source))

/-- The fault captured among those that qualify. -/
def captured : List HeldFault → Option HeldFault
  | [] => none
  | h :: rest =>
    match captured rest with
    | none => some h
    | some k => if k.before h then some k else some h

/-- The capture registers take a fault (R487, R513). -/
def State.fillCapture (s : State) (h : HeldFault) (simul : Bool) : State :=
  let f := h.fault
  let s1 := (((s.setF F.fltFirstCode_valid 0 1).setF F.fltFirstCode_severity 0 h.severity).setB F.fltFirstCode_simultaneous 0
    simul).setB F.fltFirstCode_unlocked 0 h.unlocked
  let s2 := ((s1.setF F.fltFirstCode_code 0 f.code).setF F.fltFirstSource_source 0 h.source).setF F.fltFirstSource_master 0
    f.master
  let s3 := (s2.setF F.fltFirstSource_access 0 f.access).setF F.fltFirstSource_masterIndex 0 f.masterIndex
  let s4 := (s3.setF F.fltFirstAddr_addr 0 (trunc 32 f.addr)).setF F.fltFirstAddr_addr 1 (trunc 32 (f.addr / 2 ^ 32))
  let s5 := ((s4.setF F.fltFirstTime_value 0 (trunc 30 f.ns)).setF F.fltFirstTime_value 1 (trunc 32 f.sec)).setF
    F.fltFirstTime_value 2 (trunc 16 (f.sec / 2 ^ 32))
  (s5.setF F.fltFirstCycle_cycle 0 (trunc 32 f.cycle)).setF F.fltFirstCycle_cycle 1 (trunc 32 (f.cycle / 2 ^ 32))

/-- A tied fault's record and log record carry simultaneous (R482, R488, R501). -/
def State.markTied (s : State) (h : HeldFault) : State :=
  let hit (code source : Nat) : Bool := code == h.fault.code && source == h.source
  { s with flt := { s.flt with
      records := SMap.mapVal (fun _ r => if hit r.code r.source then { r with simultaneous := true } else r) s.flt.records
      log := SMap.mapVal (fun _ r => if r.kind == 1 && hit r.code r.source && r.ns == h.fault.ns && r.sec == h.fault.sec
        then { r with simultaneous := true } else r) s.flt.log } }

/-- A held fault inserted after those with no later stamp. -/
def insertStamp (h : HeldFault) : List HeldFault → List HeldFault
  | [] => [h]
  | k :: rest => if k.stamp ≤ h.stamp then k :: insertStamp h rest else h :: k :: rest

/-- CAPTURE_WINDOW_CLOSE (R486 to R488): 100 ns after the earliest stamp the capture is fixed, and the held notifications are
sent in the order of their stamps. -/
def execCaptureWindowClose (s : State) : Host.Outcome State Fault Refusal :=
  .next (match s.flt.window with
    | none => s
    | some start =>
      let all := s.flt.windowFaults.filter (·.loss.isEmpty)
      let min := s.getF F.fltCtrl_captureMin
      let tied := all.filter fun h => decide (h.severity ≥ min) && decide (h.stamp ≤ start + 1)
      let simul := decide (tied.length > 1)
      let s1 := { s with flt := { s.flt with window := none, windowFaults := [] } }
      let s2 := match captured tied with
        | none => s1
        | some h => (s1.fillCapture h simul).addF F.fltSimul_others 0 (tied.length - 1)
      let s3 := if simul then tied.foldl (fun t h => t.markTied h) s2 else s2
      let order := s.flt.windowFaults.foldl (fun l h => insertStamp h l) []
      order.foldl (fun t h =>
        if !h.notify then t
        else if !h.loss.isEmpty then t.notifyAt 5 4 0 false h.loss h.unlocked h.fault.sec h.fault.ns
        else t.sendFaultNotif h.fault h.severity (simul && tied.contains h) ((faultRow h.fault.code).any (·.condition))
          h.unlocked) s3)

/-! ## Exits (R491 to R494, R508) -/

/-- The quiet period has run for some nanoseconds. -/
def State.quietFor (s : State) (d : Nat) : Bool := s.flt.quietStart.any fun t => decide (s.now ≥ t + d)

/-- The class of an episode: the block code of its first fault of severity S2 or worse. -/
def State.episode (s : State) : Nat := s.flt.episodeClass.getD 0 % 256

/-- REEF_EXIT (R480, R489, R492): after 10 s of quiet outside the bare-poles state. -/
def execReefExit (s : State) : Host.Outcome State Fault Refusal :=
  .next (
    if !s.getB F.fltStatus_reef || s.getB F.fltStatus_barePoles || !s.quietFor 10000000000 then s
    else
      let s1 := (s.setReduction redSramPoison false).setReduction redIntegrity false
      let s2 := ((s1.setF F.fltStatus_reef 0 0).setF F.sysStatus_reef 0 0).count (C.fltRecoveryReef s.episode)
      let s3 := (s2.closeLoss false).logState 1
      ({ s3 with flt := { s3.flt with quietStart := none, episodeClass := none } }).syncFlt.updatePins)

/-- Idle times of flow records under TIMESTAMP passes and of L2 entries restart at the next visit (R154, R225, R491). -/
def State.restartIdle (s : State) : State :=
  { s with
    fst := { s.fst with rebase := List.range 512 }
    cls := { s.cls with l2 := SMap.mapVal (fun _ e => { e with stepFore := true, stepAft := true }) s.cls.l2 } }

/-- A unit that an S4 fault names restarts at the end of the bare-poles state (R292, R434, R492, R496). -/
def State.restartUnit (s : State) (u : Nat × Nat) : State :=
  let i := u.2
  if u.1 == 0x4302 then
    ({ s with rig := { s.rig with restarts := SMap.del s.rig.restarts i } }).setF F.rigCtrl_restartActive i 0
  else if u.1 == 0x8007 then
    ({ s with fst := { s.fst with
      restarting := s.fst.restarting.filter (· != i)
      restartFailed := s.fst.restartFailed.filter (· != i) } }).shardRestart i
  else if u.1 == 0x1005 then
    let taking := s.crd.takeover.any fun t => t.core == i
    let s1 := s.setF F.crdCoreStatus_role i (if taking then 2 else 1)
    let s2 := if taking then s1 else s1.setF F.crdCoreStatus_ctrlGen i ((s1.getF F.crdCoreStatus_ctrlGen i + 1) % 256)
    (List.range 16).foldl (fun t k => t.restartThread (16 * i + k)) s2
  else s

/-- The bare-poles state ends: its units restart, ports resume, idle times and TWO_PASS passes start again (R491, R492,
R508). -/
def State.endBarePoles (s : State) : State :=
  let class_ := s.episode
  let units := s.flt.s4Units.eraseDups
  let s1 := (((s.setF F.fltStatus_barePoles 0 0).setF F.fltReduction_barePoles 0 0).setF F.sysStatus_barePoles 0 0).syncLines
  let s2 := ((s1.closeLoss false).count (C.fltRecoveryBare class_)).logState 3
  let exits := (s2.flt.bareExits.filter fun t => decide (t + 3600000000000 > s2.now)) ++ [s2.now]
  let s3 := { s2 with flt := { s2.flt with
    s4Units := [], bareExits := exits
    episodeClass := if s2.getB F.fltStatus_reef then s2.flt.episodeClass else none } }
  let s4 := s3.restartIdle
  let s5 := ({ s4 with fst := { s4.fst with gracePass := List.range 512 } }).restartQuiet
  (units.foldl (fun t u => t.restartUnit u) s5).syncFlt.updatePins

/-- BARE_POLES_EXIT (R492, R493): after 60 s of quiet the state ends, or latches where the trailing 3,600 s hold three exits. -/
def execBarePolesExit (s : State) : Host.Outcome State Fault Refusal :=
  .next (
    if !s.getB F.fltStatus_barePoles || s.getB F.fltStatus_latched || !s.quietFor 60000000000 then s
    else
      let recent := (s.flt.bareExits.filter fun t => decide (t + 3600000000000 > s.now)).length
      if recent ≥ 3 then
        ((((s.setF F.fltStatus_latched 0 1).setF F.fltReduction_bareLatched 0 1).raise 0x0303 0).logState 4)
      else s.endBarePoles)

/-! ## The collector itself (R495) -/

/-- COLLECTOR_PARITY (R28, R463, R495): the bare-poles state; the record table and the capture start afresh, and
notifications held
for the capture window are lost, their numbers used up. -/
def execCollectorParity (s : State) : Host.Outcome State Fault Refusal :=
  .next (
    let s1 := s.raise 0x0301 0
    let regs : List (Reg × Nat) := [(.fltFirstCode, 1), (.fltFirstSource, 1), (.fltFirstAddr, 2), (.fltFirstTime, 3),
      (.fltFirstCycle, 2), (.fltSimul, 1)]
    let s2 := regs.foldl (fun t r => (List.range r.2).foldl (fun u i => u.wr r.1 i r.1.resetWord) t) s1
    let lost := (s2.flt.windowFaults.filter (·.notify)).length
    let s3 := { s2.skipNotif 4 0 lost with flt := { s2.flt with records := [], overflowing := false, window := none
                                                                windowFaults := [] } }
    (s3.setF F.fltStatus_collectorParity 0 1).syncFlt.updatePins)

/-- HEARTBEAT_CHECK (R495): every 100 µs the always-on domain looks for the collector's heartbeat; 1 ms without it raises
0x0302, which holds until it returns. -/
def execHeartbeatCheck (beat : Bool) (s : State) : Host.Outcome State Fault Refusal :=
  .next (
    if beat then ({ s with flt := { s.flt with heartbeatAt := s.tm.ticks } }).endCondition 0x0302 0
    else if s.s4Condition || s.tm.ticks < s.flt.heartbeatAt + 1000000 then s
    else s.raise 0x0302 0)

/-! ## Contained restart of a shard (R496) -/

/-- SHARD_RESTART (R496): a parity or double-bit error in a shard's miss queue, commit buffer, tags or control logic. -/
def execShardRestart (shard : Nat) (s : State) : Host.Outcome State Fault Refusal :=
  .next (if shard ≥ 32 then s else s.shardRestart shard)

/-- SHARD_RESTART_COMPLETE (R214, R496): the shard accepts requests again, its caches of handles refilled. -/
def execShardRestartComplete (shard : Nat) (s : State) : Host.Outcome State Fault Refusal :=
  .next (
    if !s.fst.restarting.contains shard || s.fst.restartFailed.contains shard then s
    else
      let s1 := { s with fst := { s.fst with restarting := s.fst.restarting.filter (· != shard) } }
      let s2 := [0, 1, 2].foldl (fun t p => t.refill shard p 32) s1
      (s2.syncStash shard).endCondition 0x8003 shard)

/-! ## Last gasp (R502 to R507) -/

/-- A power record in the trouble log (R499, R501): 0 asserted, 1 committed, 2 resumed. -/
def State.logPower (s : State) (what : Nat) : State := s.logWrite { s.logBase 7 with detail0 := what }

/-- A slot no last gasp has been written to. -/
def GaspSlot.empty : GaspSlot := ⟨false, 2, false, 0, false, 0, 0, 0, 0, [], []⟩

/-- A last-gasp slot. -/
def State.gaspSlot (s : State) (i : Nat) : GaspSlot := SMap.getD s.flt.slots i GaspSlot.empty

/-- The higher gasp_seq of the slots. -/
def State.topGasp (s : State) : Nat := Nat.max (s.gaspSlot 0).gaspSeq (s.gaspSlot 1).gaspSeq

/-- A slot prepared as the target: erased on NOR, its commit word written as 0 on persistent memory (R502). The target's
gasp_seq is one more than the highest found (R505). -/
def State.prepareSlot (s : State) (i : Nat) : State :=
  let seq := s.topGasp + 1
  let g := if s.flt.persistent then { s.gaspSlot i with commit := 0, prepared := true, gaspSeq := seq }
    else { GaspSlot.empty with prepared := true, gaspSeq := seq }
  let s1 := { s with flt := { s.flt with gaspTarget := i, slots := SMap.set s.flt.slots i g } }
  if s.flt.persistent then s1 else s1.eraseSector (Config.norSector (2 + i))

/-- The state block of a slot (R504). -/
def State.stateBlock (s : State) : List Nat :=
  let regs : List (Reg × Nat) := [(.fltFirstCode, 1), (.fltFirstSource, 1), (.fltFirstAddr, 2), (.fltFirstTime, 3),
    (.fltFirstCycle, 2), (.fltSimul, 1), (.fltStatus, 1), (.fltReduction, 1), (.fltAvailLoss, 2), (.fltAvailService, 1)]
  let regs2 : List (Reg × Nat) := [(.tbsServoStatus, 1), (.sysStatus, 1), (.sysResetCause, 1), (.mcxTemp, 6)]
  let words (l : List (Reg × Nat)) : List Nat := l.flatMap fun r => (List.range r.2).map fun i => (s.rd r.1 i).toNat
  words regs ++ [0] ++ words regs2 ++ List.replicate 7 0

/-- The newest trouble-log records, newest first, at most `n` (R504). -/
def State.newestLog (s : State) (n : Nat) : List LogRec :=
  let head := s.getF F.logStatus_head
  (List.range n).filterMap fun i => SMap.find? s.flt.log ((head + 65535 - i) % 65536)

/-- The target is written but for its commit word (R503 to R505). -/
def State.writeGasp (s : State) : State :=
  let t := s.gaspSlot s.flt.gaspTarget
  if !t.prepared then s
  else
    let recs := s.newestLog (if s.flt.persistent then 1020 else 60)
    let g : GaspSlot := { t with
      magic := true, crcGood := true, prepared := false, sec := s.tm.sec, ns := s.tm.ns
      logSeq := (recs.head?.map (·.seq)).getD 0, logHead := s.getF F.logStatus_head, stateBlock := s.stateBlock
      records := recs }
    { s with flt := { s.flt with slots := SMap.set s.flt.slots s.flt.gaspTarget g } }

/-- PWRFAIL_ASSERT (R503): PWRFAIL_N has been low for 1 µs; before firmware has reported ready it is logged only. -/
def execPwrfailAssert (s : State) : Host.Outcome State Fault Refusal :=
  .next (
    if s.flt.pwrfail.isSome || s.boot.tripped || !s.boot.powered then s
    else
      let s1 := ({ s with flt := { s.flt with pwrfail := some s.now } }).setF F.logEvent_pwrfailSeen 0 1
      if !s1.getB F.sysStatus_ready then s1.logPower 0
      else
        let s2 := (s1.raise 0x0001 0).logPower 0
        ({ s2 with flt := { s2.flt with fetchStopped := true, gaspActive := true } }).writeGasp)

/-- LAST_GASP_COMMIT (R503): the commit word is written last and a power record logged. -/
def execLastGaspCommit (s : State) : Host.Outcome State Fault Refusal :=
  .next (
    let t := s.gaspSlot s.flt.gaspTarget
    if !s.flt.gaspActive || !t.magic || t.prepared || t.commit == 1 then s
    else
      let s1 := { s with flt := { s.flt with slots := SMap.set s.flt.slots s.flt.gaspTarget { t with commit := 1 } } }
      (s1.setF F.logEvent_gaspCommittedSeen 0 1).logPower 1)

/-- PWRFAIL_RELEASE (R507): PWRFAIL_N has been high for 100 ms. -/
def execPwrfailRelease (s : State) : Host.Outcome State Fault Refusal :=
  .next (
    if s.flt.pwrfail.isNone then s
    else
      let s1 := { s with flt := { s.flt with pwrfail := none } }
      if !s1.flt.gaspActive then s1
      else
        let s2 := (s1.raise 0x0002 0).logPower 2
        let i := s2.flt.gaspTarget
        let s3 := { s2 with flt := { s2.flt with
          slots := SMap.set s2.flt.slots i { s2.gaspSlot i with commit := 0 }, gaspActive := false
          fetchStopped := false } }
        (s3.prepareSlot (1 - i)).setF F.logLastgasp_resumed 0 1)

/-! ## Availability (R510), the log's restart (R500) -/

/-- SERVICE_SECOND (R510): a whole second of network time while ready and not furled. -/
def execServiceSecond (s : State) : Host.Outcome State Fault Refusal :=
  .next (
    if s.getB F.sysStatus_ready && s.getF F.sysStatus_bootState != 7 then
      s.setF F.fltAvailService_service 0 ((s.getF F.fltAvailService_service + 1) % 2 ^ 32)
    else s)

/-- A stopped log resumes (R500). -/
def State.restartLog (s : State) : State :=
  ({ s with flt := { s.flt with logLeft := none } }).setF F.logStatus_stopped 0 0

/-- LOG_RESTART_WRITE (R500): 1 is written to LOG_CTRL.restart. -/
def execLogRestartWrite (s : State) : Host.Outcome State Fault Refusal := .next s.restartLog

/-! ## Commands (R471, R482, R484, R511) -/

/-- The eight words of a fault record, word 0 first (R482). -/
def FltRec.words (r : FltRec) : List Nat :=
  let w7 := 2 ^ 31 + trunc 3 r.severity <<< 28 + b2n r.live <<< 27 + b2n r.transient <<< 26 + b2n r.simultaneous <<< 25
    + b2n r.read <<< 24 + b2n r.condition <<< 23 + trunc 16 r.code
  [trunc 32 r.arg1, trunc 32 r.arg0, trunc 32 r.lastSec, trunc 30 r.lastNs, trunc 32 r.firstSec,
   b2n r.unlocked <<< 31 + trunc 30 r.firstNs, trunc 16 r.source <<< 16 + trunc 16 r.count, w7]

/-- The ten words of the first-error capture (R511). -/
def State.captureWords (s : State) : List Nat :=
  let regs : List (Reg × Nat) := [(.fltFirstCode, 1), (.fltFirstSource, 1), (.fltFirstAddr, 2), (.fltFirstTime, 3),
    (.fltFirstCycle, 2), (.fltSimul, 1)]
  regs.flatMap fun r => (List.range r.2).map fun i => (s.rd r.1 i).toNat

/-- FLT_READ (`flt.read`, R482, R511): the record as it stands, its read bit set from now on. -/
def execFltRead (h : CmdHdr) (index : Nat) (s : State) : Host.Outcome State Fault Refusal :=
  .next (s.cmd (.fltRead h index) h attrS [] fun s =>
    if index == 0xFFFFFFFF then
      if s.getB F.fltFirstCode_valid then (s, .val s.captureWords) else (s, .err eNoent)
    else
      match SMap.find? s.flt.records index with
      | none => (s, .err eNoent)
      | some r =>
        ({ s with flt := { s.flt with records := SMap.set s.flt.records index { r with read := true } } }, .val r.words))

/-- A cleared record whose condition still holds is recorded again with count 1 (R484). -/
def State.recordLive (s : State) (r : FltRec) : State :=
  match s.flt.live.find? fun l => l.code == r.code && sourceOf l.code l.instance_ == r.source, recordSlot s.flt.records with
  | some l, some n =>
    let r' : FltRec := { r with
      live := true, transient := false, simultaneous := false, read := false, count := 1, unlocked := !s.locked
      firstNs := s.tm.ns, firstSec := trunc 32 s.tm.sec, lastNs := s.tm.ns, lastSec := trunc 32 s.tm.sec, arg0 := l.arg0
      arg1 := l.arg1, taken := s.flt.takenCount }
    { s with flt := { s.flt with records := SMap.set s.flt.records n r', takenCount := s.flt.takenCount + 1 } }
  | _, _ => s

/-- FLT_CLEAR (`flt.clear`, R484, R485, R511). -/
def execFltClear (h : CmdHdr) (index : Nat) (s : State) : Host.Outcome State Fault Refusal :=
  .next (s.cmd (.fltClear h index) h attrNone [] fun s =>
    if index == 0xFFFFFFFF then (s.setF F.fltFirstCode_valid 0 0, .ok)
    else
      match SMap.find? s.flt.records index with
      | none => (s, .err eNoent)
      | some r =>
        let s1 := { s with flt := { s.flt with records := SMap.del s.flt.records index, overflowing := false } }
        ((s1.recordLive r).syncFlt.updatePins, .ok))

/-- FLT_CONFIG (`flt.config`, R486, R511). -/
def execFltConfig (h : CmdHdr) (code : Nat) (notify intn : Bool) (s : State) : Host.Outcome State Fault Refusal :=
  .next (s.cmd (.fltConfig h code notify intn) h attrNone [(faultRow code).isSome] fun s =>
    ({ s with flt := { s.flt with
      notifyEn := SMap.put true s.flt.notifyEn code notify
      intnEn := SMap.put false s.flt.intnEn code intn } }, .ok))

/-- LOG_READ (`log.read`, R467, R511): `count` records from log index `first`, ascending; also answered by the boot ROM. -/
def execLogRead (h : CmdHdr) (first count : Nat) (s : State) : Host.Outcome State Fault Refusal :=
  .next (s.cmdRom (.logRead h first count) h
      [decide (first < 65536), decide (1 ≤ count) && decide (count ≤ if h.mbx == 9 then 3 else 65536)]
    fun s =>
      let one (i : Nat) : List Nat :=
        ((SMap.find? s.flt.log ((first + i) % 65536)).map LogRec.words).getD (List.replicate 16 0)
      (s, .bulkOf [count] ((List.range count).flatMap one)))

/-- LOG_MARKER (`log.marker`, R499, R511). -/
def execLogMarker (h : CmdHdr) (code word : Nat) (s : State) : Host.Outcome State Fault Refusal :=
  .next (s.cmd (.logMarker h code word) h attrNone [decide (code < 2 ^ 16)] fun s =>
    (s.logWrite { s.logBase 4 with code := code, detail0 := trunc 32 word }, .ok))

/-- AVAIL_READ (`avail.read`, R508, R511): loss time, service time, whether an interval is open and its start. -/
def execAvailRead (h : CmdHdr) (s : State) : Host.Outcome State Fault Refusal :=
  .next (s.cmd (.availRead h) h attrS [] fun s =>
    let start := match s.flt.lossOpen with
      | some v => 1 :: fullTimeWords (v.start / 1000000000) (v.start % 1000000000) 0
      | none => [0, 0, 0, 0, 0]
    (s, .val ([s.getF F.fltAvailLoss_loss 0, s.getF F.fltAvailLoss_loss 1, s.getF F.fltAvailService_service] ++ start)))

/-- AVAIL_RESET (`avail.reset`, R510): both registers are zero, and an open interval goes on from now. -/
def execAvailReset (h : CmdHdr) (s : State) : Host.Outcome State Fault Refusal :=
  .next (s.cmd (.availReset h) h attrO [] fun s =>
    let s1 := (s.setLossTime 0).setF F.fltAvailService_service 0 0
    ({ s1 with flt := { s1.flt with lossOpen := s1.flt.lossOpen.map fun v =>
      { v with start := s1.now, from_ := v.from_.map fun _ => s1.now, counted := 0 } } }, .ok))

end Sys2Proof.Machine
end

