-- ==== Sys2Proof/Machine/Life.lean ====
section
/-! DEFINITION. The life monitor and the wear accumulators (R535 to R540, R543). -/

namespace Sys2Proof.Machine

/-! ## Hours and sources (R535) -/

/-- Cumulative powered hours: those restored at boot and those since. -/
def State.hours (s : State) : Nat := s.cnt.bootHours + s.tm.ticks / 3600000000000

/-- A wear source. -/
def State.source (s : State) (k : Nat) : WearSource := SMap.getD s.cnt.sources k WearSource.empty

/-- A wear source changed. -/
def State.setSource (s : State) (k : Nat) (w : WearSource) : State :=
  { s with cnt := { s.cnt with sources := SMap.set s.cnt.sources k w } }

/-- What LIFE_HOURS, LIFE_STATUS and LIFE_SENSOR_DATA show of hours and the selected sensor. -/
def State.syncLife (s : State) : State :=
  let w := s.source (s.getF F.lifeSensorSel_sensor)
  let d := match w.samples with
    | [] => 0
    | e :: _ => e.2.toNat
  let s1 := (s.setF F.lifeHours_hours 0 s.hours).setB F.lifeStatus_insufficient 0 (decide (s.hours < 168))
  let s2 := (s1.setB F.lifeStatus_noBaseline 0 (decide (s.hours < 24))).setF F.lifeSensorData_degradation 0
    (Nat.min 65535 d)
  s2.setF F.lifeSensorData_months 0 w.months

/-- Fault 0x0A01 of a source (R537, R538). -/
def State.lifeAlarm (s : State) (k months : Nat) : State :=
  (s.setF F.lifeEvent_alarmSeen 0 1).raise 0x0A01 0 k months

/-- A source has crossed its absolute threshold (R537). -/
def State.lifeExceeds (s : State) (k : Nat) : State :=
  let w := s.source k
  if w.exceeded then s
  else ((s.setSource k { w with exceeded := true }).setF F.lifeStatus_exceeded 0 1).lifeAlarm k w.months

/-- A sample of a source at the present hour. -/
def State.addSample (s : State) (k : Nat) (v : Int) : State :=
  let w := s.source k
  s.setSource k { w with samples := (s.hours, v) :: w.samples }

/-- The mean of samples, rounded down. -/
def meanInt (l : List Int) : Int := if l.isEmpty then 0 else l.foldl (· + ·) 0 / l.length

/-- A 15 min sample of an ageing sensor: d in 0.001 %, less the first sample's; four make an hour's. -/
def State.sampleSensor (s : State) (n stressed fresh : Nat) : State :=
  let d : Int := (((fresh : Int) - stressed) * 100000) / fresh
  let w := s.source n
  let base := w.base.getD d
  let part := w.part ++ [d - base]
  let w1 := { w with base := some base, part := part }
  if part.length < 4 then s.setSource n w1
  else (s.setSource n { w1 with part := [] }).addSample n (meanInt part)

/-- A daily sample of a pseudo-channel: errors corrected since the last one; until 24 cumulative hours there is no sample,
and those counted so far are judged against the absolute threshold (R537). -/
def State.sampleChannel (s : State) (g : Nat) : State :=
  let k := 0x100 + g
  let now := (s.ctr (C.mcxCe g)).value
  let w := s.source k
  let v := if now < w.last then now else now - w.last
  if s.hours < 24 then (if v ≥ 100 then s.lifeExceeds k else s)
  else (s.setSource k { w with last := now }).addSample k v

/-- The port a lane belongs to. -/
def State.laneOwner (s : State) (k : Nat) : Option Nat :=
  (SMap.first? s.port.ports fun p _ => decide (p ≤ k) && decide (k < p + 2 ^ s.getF F.portCfg_lanes p)).map Prod.fst

/-- An hourly sample of a lane, which port.status shows from then on (R97): for 24 h its margins make its baseline, and its
history restarts when its rate changes. -/
def State.sampleLane (s : State) (k margin : Nat) : State :=
  match s.laneOwner k with
  | none => s
  | some p =>
    let key := 0x200 + k
    let rate := s.getF F.portCfg_laneRate p
    let i := s.portInfo p
    let s := s.setPort p { i with eyeMargin := SMap.set i.eyeMargin (k - p) margin }
    let old := s.source key
    let fresh := old.base.isNone && old.part.isEmpty
    let w := if fresh || old.rate != rate then { WearSource.empty with rate := rate, start := s.hours, lastAlarm := old.lastAlarm }
      else old
    if s.hours < w.start + 24 then
      let s1 := s.setSource key { w with part := w.part ++ [(margin : Int)] }
      if margin < Config.laneMinimum k then s1.lifeExceeds key else s1
    else
      let base := w.base.getD (meanInt (if w.part.isEmpty then [(margin : Int)] else w.part))
      (s.setSource key { w with base := some base, part := [] }).addSample key ((margin : Int) * 100000 / base)

/-- Thermal cycles: the hotter die (log entry 141) falling by at least 25 °C below the highest temperature since, then
rising by at least 25 °C above the lowest since. -/
def State.sampleThermal (s : State) (fore aft : Int) : State :=
  let t := if fore < aft then aft else fore
  let x := s.cnt.thermalExtreme
  let s1 := (s.setF F.lifeThermal_foreTemp 0 (fore % 256).toNat).setF F.lifeThermal_aftTemp 0 (aft % 256).toNat
  let put (u : State) (falling : Bool) (e : Int) : State :=
    { u with cnt := { u.cnt with thermalFalling := falling, thermalExtreme := e } }
  if s.cnt.thermalFalling then
    (if t + 25 ≤ x then put s1 false t else put s1 true (if t > x then t else x))
  else if t ≥ x + 25 then
    let s2 := (put s1 true t).addF F.lifeThermal_cycles 0 1
    s2.addSample 0x400 (s2.getF F.lifeThermal_cycles)
  else put s1 false (if t < x then t else x)

/-- The source that a measure samples, and the ticks from one sample to the next (R535): 15 min, a day, an hour. A
sector and the die temperature are sampled as they come, and a pseudo-channel until its first day is over. -/
def State.samplePeriod (s : State) (m : Measure) : Option (Nat × Nat) :=
  let minute := 60000000000
  match m with
  | .sensor n _ _ => some (n, 15 * minute)
  | .channel g => if s.hours < 24 then none else some (0x100 + g, 24 * 60 * minute)
  | .lane k _ => some (0x200 + k, 60 * minute)
  | .sector _ => none
  | .thermal _ _ => none

/-- A sample is due; the next one is then due a period later. -/
def State.sampleDue (s : State) (m : Measure) : Bool :=
  (s.samplePeriod m).elim true fun e => decide ((s.source e.1).due ≤ s.tm.ticks)

/-- A sample has been taken. -/
def State.sampleTaken (s : State) (m : Measure) : State :=
  match s.samplePeriod m with
  | none => s
  | some e => s.setSource e.1 { s.source e.1 with due := s.tm.ticks + e.2 }

/-- LIFE_SAMPLE (R535, R537): a source is sampled when its sample is due; a sample out of range is discarded. -/
def execLifeSample (m : Measure) (good : Bool) (s : State) : Host.Outcome State Fault Refusal :=
  let bad := s.setF F.lifeEvent_sampleFailSeen 0 1
  .next (if !s.getB F.lifeCtrl_enable then s
    else if !s.sampleDue m then s
    else if !good then bad
    else ((match m with
      | .sensor n a b => if n ≥ 48 then s else if b == 0 then bad else s.sampleSensor n a b
      | .channel g => if g < 192 then s.sampleChannel g else s
      | .lane k v => if k < 256 then s.sampleLane k v else s
      | .sector n => if n < 64 then s.addSample (0x300 + n) ((SMap.getD s.cnt.norErases n 0 : Nat) : Int) else s
      | .thermal a b => s.sampleThermal a b).sampleTaken m).syncLife)

/-! ## Predictions (R536 to R538) -/

/-- The model of a source and its limit (R535). -/
def lifeModel (k : Nat) : Nat × Int :=
  if k < 0x100 then (0, 4000) else if k < 0x200 then (1, 1000) else if k < 0x300 then (2, 50000)
  else if k < 0x400 then (2, 100000) else (2, 20000)

/-- The months a source's samples predict. -/
def State.monthsOf (s : State) (k : Nat) (w : WearSource) : Nat :=
  if s.hours < 168 then 0xFFFF
  else
    let (model, limit) := lifeModel k
    match Config.reach model w.samples limit with
    | none => 1200
    | some t2 => Nat.min 1200 ((t2 - 2 * s.hours) / 1461)

/-- An alarm of a source whose prediction is below alarm_months, at most once per 24 h (R538). -/
def State.checkAlarm (s : State) (k months : Nat) : State :=
  let w := s.source k
  let due := match w.lastAlarm with
    | none => true
    | some t => decide (s.hours ≥ t + 24)
  if months < s.getF F.lifeCtrl_alarmMonths && due then
    (s.setSource k { w with lastAlarm := some s.hours }).lifeAlarm k months
  else s

/-- The sources that have samples, the device itself left out. -/
def State.fitted (s : State) : SMap WearSource := s.cnt.sources.filter fun e => e.1 != 0x500 && !e.2.samples.isEmpty

/-- A prediction for every source and for the device. -/
def State.predict (s : State) : State :=
  let ms := s.fitted.map fun e => (e.1, s.monthsOf e.1 e.2)
  let worst := ms.foldl (fun (a : Nat × Nat) e => if e.2 < a.2 then e else a) (0, 1200)
  let dev := if s.hours < 168 then (0, 0xFFFF) else worst
  let s1 := ms.foldl (fun t (e : Nat × Nat) => t.setSource e.1 { t.source e.1 with months := e.2 }) s
  let s2 := s1.setSource 0x500 { s1.source 0x500 with months := dev.2 }
  let s3 := (s2.setF F.lifeStatus_worstSource 0 dev.1).setF F.lifeStatus_deviceMonths 0 dev.2
  let s4 := { s3 with cnt := { s3.cnt with lastPrediction := s.hours } }
  ((ms ++ [(0x500, dev.2)]).foldl (fun (t : State) (e : Nat × Nat) => t.checkAlarm e.1 e.2) s4).syncLife

/-- LIFE_PREDICTION (R536): every 24 cumulative hours. -/
def execLifePrediction (s : State) : Host.Outcome State Fault Refusal :=
  .next (if !s.getB F.lifeCtrl_enable || s.hours < s.cnt.lastPrediction + 24 then s else s.predict)

/-! ## Wear accumulators (R539) -/

/-- A slot of the accumulators. -/
def State.accSlot (s : State) (i : Nat) : AccSlot :=
  SMap.getD s.cnt.accSlots i ⟨false, false, false, 0, 0, 0, 0, 0, 0, []⟩

/-- What the accumulators hold now, under a sequence number. -/
def State.accContent (s : State) (seq : Nat) (good : Bool) : AccSlot :=
  ⟨good, true, good, seq, s.hours, s.getF F.lifeThermal_cycles, s.lossTime, s.getF F.fltAvailService_service,
    s.getF F.sysResetCause_bootCount, s.cnt.sources⟩

/-- WEAR_ACC_WRITE (R539): the slot not written last is erased and written, its commit word last; a write that fails to
verify leaves the other slot standing. -/
def execWearAccWrite (verified : Bool) (s : State) : Host.Outcome State Fault Refusal :=
  .next (if s.hours < s.cnt.lastAccWrite + 6 then s
    else
      let i := 1 - s.getF F.lifeAcc_slot
      let seq := (s.accSlot (1 - i)).seq + 1
      let s1 := s.eraseSector (Config.norSector i)
      let s2 := { s1 with cnt := { s1.cnt with
        accSlots := SMap.set s1.cnt.accSlots i (s.accContent seq verified), lastAccWrite := s.hours } }
      if verified then
        ((s2.setF F.lifeAcc_slot 0 i).setF F.lifeAcc_seq 0 (seq % 2 ^ 30)).setF F.lifeEvent_accWriteSeen 0 1
      else s2.setF F.lifeEvent_accFailSeen 0 1)

/-- The slot a boot takes: valid, and of two valid ones the higher seq. -/
def State.accValid (s : State) : Option (Nat × AccSlot) :=
  let ok := s.cnt.accSlots.filter fun e => e.2.committed && e.2.magic && e.2.crcGood
  ok.foldl (fun (a : Option (Nat × AccSlot)) e => match a with
    | none => some e
    | some b => if e.2.seq > b.2.seq then some e else some b) none

/-- Firmware restores the accumulators at boot, and on a cold boot the availability registers from the later of the
accumulators and a last gasp (loss, service), that of the higher service time (R510, R539, R577 step 2; log entry
142). -/
def State.restoreWear (s : State) (cold : Bool) (gasp : Option (Nat × Nat)) : State :=
  let torn := s.cnt.accSlots.any fun e => e.2.magic && !(e.2.committed && e.2.crcGood)
  let s1 := s.setB F.lifeAcc_torn 0 torn
  let acc := s1.accValid.map fun e => (e.2.loss, e.2.service)
  let best := match acc, gasp with
    | some a, some g => some (if g.2 > a.2 then g else a)
    | a, g => a.orElse fun _ => g
  let s1 := match best with
    | some (loss, service) => if cold then (s1.setLossTime loss).setF F.fltAvailService_service 0 service else s1
    | none => s1
  match s1.accValid with
  | none =>
    { s1 with cnt := { s1.cnt with sources := [], bootHours := 0, lastPrediction := 0, lastAccWrite := 0 } }.syncLife
  | some (i, a) =>
    let s2 := { s1 with cnt := { s1.cnt with
      sources := SMap.mapVal (fun _ w => { w with due := 0 }) a.sources, bootHours := a.hours,
      lastPrediction := a.hours / 24 * 24, lastAccWrite := a.hours } }
    let s3 := ((s2.setF F.lifeThermal_cycles 0 a.cycles).setF F.lifeAcc_slot 0 i).setF F.lifeAcc_seq 0 (a.seq % 2 ^ 30)
    s3.syncLife

/-! ## Commands (R540) -/

/-- A source that life.report names: as arg0 of R538. -/
def sourceOk (k : Nat) : Bool :=
  decide (k < 48) || (decide (0x100 ≤ k) && decide (k < 0x100 + 192)) || (decide (0x200 ≤ k) && decide (k < 0x300))
    || (decide (0x300 ≤ k) && decide (k < 0x340)) || k == 0x400 || k == 0x500

/-- LIFE_REPORT (`life.report`, R536, R537): the months, and whether history is insufficient [0] or the threshold exceeded
[1]. -/
def execLifeReport (h : CmdHdr) (source : Nat) (s : State) : Host.Outcome State Fault Refusal :=
  .next (s.cmd (.lifeReport h source) h attrS [sourceOk source] fun s =>
    let w := s.source source
    (s, .val [w.months, b2n (decide (s.hours < 168)) + 2 * b2n w.exceeded]))

/-- LIFE_CONFIG (`life.config`, R538). -/
def execLifeConfig (h : CmdHdr) (alarmMonths : Nat) (s : State) : Host.Outcome State Fault Refusal :=
  .next (s.cmd (.lifeConfig h alarmMonths) h attrNone [decide (1 ≤ alarmMonths) && decide (alarmMonths ≤ 1200)] fun s =>
    (s.setF F.lifeCtrl_alarmMonths 0 alarmMonths, .ok))

end Sys2Proof.Machine
end

