-- ==== Sys2Proof/Machine/RigCmds.lean ====
section
/-! DEFINITION. The rig commands: images, entry points, rig tables, policer profiles, load-balancer pools (R276, R285 to
R291, R297, R300). -/

namespace Sys2Proof.Machine

/-! ## Images (R277, R278, R289) -/

/-- The least duration of an operation, in cycles. -/
def leastDur (unit op : Nat) : Nat :=
  if (unit == 0 && op == 12) || unit == 5 || unit == 7 || (unit == 10 && op == 9) then 2 else 1

/-- A microword that rig.load accepts: its duration, unit and space, and zero reserved fields. -/
def microwordOk (w : List Nat) : Bool :=
  decide (leastDur (uUnit w) (uOp w) ≤ uDur w) && decide (uUnit w < 12) && uSpace w != 7 && bitsOf (wordAt w 5) 0 0 == 0
    && bitsOf (wordAt w 4) 4 0 == 0 && wordAt w 0 == 0

/-- A microword with its branch target moved into a region. -/
def relocated (w : List Nat) (base : Nat) : List Nat :=
  setAt w 3 (putField (wordAt w 3) 31 19 ((uTarget w + base) % 8192))

/-- The parts of an image. -/
structure RigImage where
  major : Nat
  minor : Nat
  build : Nat
  default_ : Nat
  starts : List Nat
  words : List (List Nat)
  deriving DecidableEq, Repr

/-- An image read from its bytes; none for a format error. -/
def readImage (bs : List Nat) : Option RigImage :=
  let n := numLE (bytesAt bs 12 2)
  let build := numLE (bytesAt bs 10 2)
  let ws := (List.range n).map fun i => (List.range 6).map fun j => numLE (bytesAt bs (576 + 24 * i + 4 * j) 4)
  let starts := (List.range 256).map fun i => numLE (bytesAt bs (64 + 2 * i) 2)
  let d := numLE (bytesAt bs 14 2)
  if numLE (bytesAt bs 0 4) == 0x47523531 && numLE (bytesAt bs 4 4) == 1 && build < 4096 && 1 ≤ n && n ≤ 4096
      && bs.length == 672 + 24 * n && (bytesAt bs 16 48).all (· == 0) && d < n
      && starts.all (fun x => x == 0xFFFF || decide (x < n)) && ws.all microwordOk then
    some ⟨bs.getD 8 0, bs.getD 9 0, build, d, starts, ws⟩
  else none

/-- The active epoch's start words name a region. -/
def State.regionLive (s : State) (region : Nat) : Bool :=
  (List.range 256).any fun e => entryStart (s.entryOf e).1 s.epoch / 4096 == region

/-- A field of RIG_UCODE_VERSION in every pipeline's instance of an epoch. -/
def State.setVersion (s : State) (f : Fld) (epoch v : Nat) : State :=
  (List.range 32).foldl (fun t n => t.setF f (2 * n + epoch) v) s

/-- What RIG_UCODE_VERSION shows after a failed load (R291). -/
def State.failedLoad (s : State) (epoch : Nat) : State :=
  (s.setVersion F.rigUcodeVersion_sig epoch 3).setVersion F.rigUcodeVersion_loaded epoch 0

/-- An entry's start word under an epoch. -/
def setStart (w0 epoch start : Nat) : Nat := if epoch == 1 then putField w0 28 16 start else putField w0 12 0 start

/-- An image written to a region and to the golden copy, and the start words of an epoch set to it (R290). The entry-point
table of the
golden copy follows (log entry 268). -/
def State.loadImage (s : State) (im : RigImage) (region epoch key : Nat) : State :=
  let base := 4096 * region
  let store := SMap.setRun s.rig.store base (im.words.map fun w => withParity (relocated w base))
  let start (i : Nat) : Nat := let x := wordAt im.starts i; base + (if x == 0xFFFF then im.default_ else x)
  let entries := (List.range 256).foldl (fun m i =>
    let e := SMap.getD m i (0, 0)
    SMap.put (0, 0) m i (setStart e.1 epoch (start i), e.2)) s.rig.entries
  let standard := s.rig.standard.filter (· != region)
  let old := fun (k : Nat) (_ : List Nat) => !(base ≤ k % 8192 && k % 8192 < base + im.words.length)
  let s1 := { s with rig := { s.rig with store := store, entries := entries, standard := standard,
                                         golden := (store, entries, standard), upsets := SMap.keep old s.rig.upsets } }
  let s2 := ((s1.setVersion F.rigUcodeVersion_major epoch im.major).setVersion F.rigUcodeVersion_minor epoch
    im.minor).setVersion F.rigUcodeVersion_build epoch im.build
  ((s2.setVersion F.rigUcodeVersion_sig epoch key).setVersion F.rigUcodeVersion_region epoch region).setVersion
    F.rigUcodeVersion_loaded epoch 1

/-- RIG_LOAD (R289 to R291): `image` is what the host address holds, `key` the outcome of the signature check: 0 it fails,
1 it verifies against the key of fuse slot 0, 2 of slot 1, which counts only where that slot is programmed. -/
def execRigLoad (h : CmdHdr) (image : List Nat) (key : Nat) (s : State) : Host.Outcome State Fault Refusal :=
  .next (s.cmd (.rigLoad h image key) h attrO [] fun s =>
    let e := 1 - s.epoch
    if s.getB F.clsEpoch_draining || !s.rig.restarts.isEmpty then (s, .err eBusy)
    else if !(key == 1 || (key == 2 && s.boot.fuses.slot1)) then (s.failedLoad e, .err eAuth)
    else
      match readImage image with
      | none => (s.failedLoad e, .inval 0)
      | some im => (s.loadImage im (if s.regionLive 0 then 1 else 0) e key, .ok))

/-- RIG_ENTRY_SET (R163, R288). -/
def execRigEntrySet (h : CmdHdr) (entry : Nat) (valid ep0 ep1 : Bool) (limit : Nat) (s : State) :
    Host.Outcome State Fault Refusal :=
  .next (s.cmd (.rigEntrySet h entry valid ep0 ep1 limit) h attrO
      [decide (entry < 256), true, true, true, decide (limit < 512)] fun s =>
    let (w0, w1) := s.entryOf entry
    let new := b2n valid <<< 31 + b2n ep1 <<< 30 + b2n ep0 <<< 29 + limit <<< 20
    if (bitOf w1 31 && s.oldOnly (bitOf w1 29) (bitOf w1 30)) || (!bitOf w1 31 && valid && s.oldOnly ep0 ep1) then
      (s, .err eEpoch)
    else
      let table := SMap.put (0, 0) s.rig.entries entry (w0, new)
      ({ s with rig := { s.rig with entries := table, golden := (s.rig.golden.1, table, s.rig.golden.2.2) } }, .ok))

/-- RIG_STATUS (R300): both RIG_UCODE_VERSION values, the restarts counted in RIG_CTRL, and the entry table. -/
def execRigStatus (h : CmdHdr) (s : State) : Host.Outcome State Fault Refusal :=
  .next (s.cmd (.rigStatus h) h attrNone [] fun s =>
    let restarts := (List.range 32).foldl (fun a n => a + s.getF F.rigCtrl_restarts n) 0
    let table := (List.range 256).flatMap fun e => [(s.entryOf e).1, (s.entryOf e).2]
    (s, .bulkOf [(s.rd .rigUcodeVersion 0).toNat, (s.rd .rigUcodeVersion 1).toNat, restarts] table))

/-! ## Tables (R285, R286, R387) -/

/-- A row of the rigs' HBM table written whole: its poison goes. -/
def State.putHbmRow (s : State) (row : Nat) (ws : List Nat) : State :=
  { s with rig := { s.rig with hbmRows := SMap.set s.rig.hbmRows row ws } }.cleanse (row % 32) [rigRowUnit row]

/-- Rows of the rigs' HBM table written from a row on. -/
def State.putHbmRows (s : State) : Nat → List (List Nat) → State
  | _, [] => s
  | row, ws :: rest => State.putHbmRows (s.putHbmRow row ws) (row + 1) rest

/-- RIG_TABLE_WRITE (R285): kind 0 DIRECT with rows of four words, 1 HBM with rows of sixteen. -/
def execRigTableWrite (h : CmdHdr) (kind first : Nat) (rows : List (List Nat)) (s : State) :
    Host.Outcome State Fault Refusal :=
  let top := if kind == 0 then 65536 else 2 ^ 23
  let len := if kind == 0 then 4 else 16
  .next (s.cmd (.rigTableWrite h kind first rows) h attrNone
      [decide (kind < 2), decide (first < top), decide (first + rows.length ≤ top),
      rows.all fun r => r.length == len && r.all fun w => decide (w < 2 ^ 32)] fun s =>
    if kind == 0 then ({ s with rig := { s.rig with direct := SMap.setRun s.rig.direct first rows } }, .ok)
    else (s.putHbmRows first rows, .ok))

/-- POL_PROFILE_SET (R286). -/
def execPolProfileSet (h : CmdHdr) (index cir pir cbs pbs : Nat) (aware : Bool) (s : State) :
    Host.Outcome State Fault Refusal :=
  .next (s.cmd (.polProfileSet h index cir pir cbs pbs aware) h attrNone
      [decide (index < 16384), decide (cir < 2 ^ 32), decide (pir < 2 ^ 32), decide (cbs < 2 ^ 32),
      decide (pbs < 2 ^ 32)] fun s =>
    ({ s with rig := { s.rig with policers := SMap.set s.rig.policers index ⟨cir, pir, cbs, pbs, aware⟩ } }, .ok))

/-! ## Load balancing (R297) -/

/-- The slots each backend gets: ⌊65,537 / n⌋, and one more for those that hold the most, so that a table changes no
more than the new backends ask for. -/
def slotShares (held : SMap Nat) (backends : List Nat) : SMap Nat :=
  let n := backends.length
  let q := 65537 / n
  let sorted := backends.mergeSort fun a b => decide (SMap.getD held a 0 ≥ SMap.getD held b 0)
  sorted.zipIdx.foldl (fun m e => SMap.set m e.1 (q + b2n (decide (e.2 < 65537 % n)))) []

/-- How many slots each backend holds. -/
def slotCounts (slots : List Nat) : SMap Nat := slots.foldl (fun m b => SMap.update 0 m b (· + 1)) []

/-- Slots that their backend keeps, the others open; what each backend may still take. -/
def keepSlots : List Nat → SMap Nat → List (Option Nat) × SMap Nat
  | [], room => ([], room)
  | b :: bs, room =>
    if SMap.getD room b 0 > 0 then
      let (l, r) := keepSlots bs (SMap.set room b (SMap.getD room b 0 - 1))
      (some b :: l, r)
    else
      let (l, r) := keepSlots bs room
      (none :: l, r)

/-- Open slots filled by backends with room, in the order of the list. -/
def fillSlots : List (Option Nat) → List Nat → List Nat
  | [], _ => []
  | some b :: l, pool => b :: fillSlots l pool
  | none :: l, b :: pool => b :: fillSlots l pool
  | none :: l, [] => 0 :: fillSlots l []

/-- A pool's new slot table (R297; log entry 60). -/
def newSlots (old : List Nat) (backends : List Nat) : List Nat :=
  let shares := slotShares (slotCounts old) backends
  let (kept, room) := if old.isEmpty then (List.replicate 65537 none, shares) else keepSlots old shares
  fillSlots kept (backends.flatMap fun b => List.replicate (SMap.getD room b 0) b)

/-- The rows of a slot table: 32 slots of two bytes each. -/
def slotRows (slots : List Nat) : List (List Nat) :=
  (List.range 2049).map fun i =>
    (List.range 16).map fun j => wordAt slots (32 * i + 2 * j) + wordAt slots (32 * i + 2 * j + 1) <<< 16

/-- The slots of a live table. -/
def State.tableSlots (s : State) (base : Nat) : List Nat :=
  (List.range 65537).map fun i => slotBackend (SMap.getD s.rig.hbmRows (base + i / 32) []) i

/-- A place for a slot table that no pool's live table overlaps, the first from a free value on (log entry 60). -/
def State.tablePlace (s : State) : Option Nat :=
  let start := s.freeVal % 4094
  let used := s.rig.pools.map fun e => e.2.1 / 2049
  ((List.range (used.length + 1)).map fun i => (start + i) % 4094).find? (fun k => !used.contains k) |>.map (· * 2049)

/-- LB_POOL_SET (R297): a new copy of the table is filled, then the pool row switched in one write. -/
def execLbPoolSet (h : CmdHdr) (pool seed : Nat) (backends : List Nat) (s : State) : Host.Outcome State Fault Refusal :=
  .next (s.cmd (.lbPoolSet h pool seed backends) h attrNone [decide (pool < 1024), decide (seed < 2 ^ 32),
      decide (1 ≤ backends.length) && decide (backends.length ≤ 4096) && decide (backends.eraseDups = backends)
        && backends.all fun b => decide (b < 16384)] fun s =>
    match s.tablePlace with
    | none => (s, .err eNospace)
    | some base =>
      let old := (SMap.find? s.rig.pools pool).elim [] fun p => s.tableSlots p.1
      let s1 := s.draw.putHbmRows base (slotRows (newSlots old backends))
      ({ s1 with rig := { s1.rig with
          pools := SMap.set s1.rig.pools pool (base, backends),
          direct := SMap.set s1.rig.direct (poolRow pool) [seed, base, 0, 0] } }, .ok))

/-- LB_BACKEND_SET (R297): state 0 ACTIVE, 1 DRAIN, 2 DOWN. -/
def execLbBackendSet (h : CmdHdr) (backend address port state : Nat) (s : State) : Host.Outcome State Fault Refusal :=
  .next (s.cmd (.lbBackendSet h backend address port state) h attrNone
      [decide (backend < 16384), decide (address < 2 ^ 32), decide (port < 65536),
      decide (state < 3)] fun s =>
    ({ s with rig := { s.rig with
        direct := SMap.set s.rig.direct backend [address, port <<< 16 + state, 0, 0] } }, .ok))

end Sys2Proof.Machine
end

