-- ==== Sys2Proof/Machine/Boot.lean ====
section
/-! DEFINITION. Power-up, resets, the boot sequence, firmware update, debug unlock, the furled state, and what the package
adds: supply correction and thermal limits (chapters 18 and 19). -/

namespace Sys2Proof.Machine

/-! ## Resets (R569, R570) -/

/-- The boot state set. -/
def State.setBoot (s : State) (n : Nat) : State := s.setF F.sysStatus_bootState 0 n

/-- The straps are sampled (R570), and what stacking shows of them (R548, R568). -/
def State.sampleStraps (s : State) (v : Straps) : State :=
  let s1 := (((s.setF F.sysStraps_stkRole 0 v.role).setF F.sysStraps_stkId 0 v.id).setF F.sysStraps_bootSrc 0
    v.bootSrc).setB F.sysStraps_testEn 0 v.testEn
  (s1.setF F.stkStatus_role 0 v.role).setF F.stkStatus_id 0 v.id

/-- What no reset touches: the queue of commands and the model's own record, the fuses, and what the boot NOR and the
persistent memory hold (R502, R539, R571, R395). -/
def State.afterPowerOn (s : State) (persistent : Bool) : State :=
  { State.reset with
    pending := s.pending
    out := s.out
    drawn := s.drawn
    boot := { BootPart.reset with fuses := s.boot.fuses, slotA := s.boot.slotA, slotB := s.boot.slotB }
    cnt := { CountPart.reset with accSlots := s.cnt.accSlots, norErases := s.cnt.norErases }
    hbm := { HbmPart.reset with recorded := s.hbm.recorded }
    flt := { FaultPart.reset with slots := s.flt.slots, persistent := persistent } }

/-- Registers that a warm reset keeps whole: those with RWS fields, LOG_STATUS, LOG_SEQ and the straps (R499, R569,
R570). -/
def warmRegs : List (Reg × Nat) :=
  [(.sysResetCause, 1), (.sysScratch, 1), (.fltAvailLoss, 2), (.fltAvailService, 1), (.logStatus, 1), (.logSeq, 1),
   (.sysStraps, 1)]

/-- A warm reset with its cause flags; one of a latched bare-poles state sets that flag too, and a loss interval that is open
closes at its start (R493, R499, R508, R569). -/
def State.warmReset (s0 : State) (causes : List Fld) : State :=
  let s := s0.closeLoss false
  let t := s.afterPowerOn s.flt.persistent
  let t1 := { t with
    boot := { t.boot with cold := false, prefer := s.boot.prefer, watchdogs := s.boot.watchdogs }
    flt := { t.flt with log := s.flt.log, logLeft := s.flt.logLeft }
    tm := { t.tm with refPresent := s.tm.refPresent, ref10mPresent := s.tm.ref10mPresent } }
  let t2 := warmRegs.foldl (fun u r => (List.range r.2).foldl (fun v i => v.wr r.1 i (s.rd r.1 i)) u) t1
  let t3 := (t2.setF F.stkStatus_role 0 (s.getF F.sysStraps_stkRole)).setF F.stkStatus_id 0 (s.getF F.sysStraps_stkId)
  let latched := if s.getB F.fltStatus_latched then [F.sysResetCause_latchedBarePoles] else []
  (causes ++ latched).foldl (fun u f => u.setF f 0 1) t3

/-- The device is out of reset, powered and not held by a thermal trip. -/
def State.alive (s : State) : Bool := s.boot.powered && !s.boot.tripped

/-- POWER_ON_RESET (R569, R570): the rails rise; the straps are sampled as RESET_N rises. -/
def execPowerOnReset (straps : Straps) (persistent : Bool) (s : State) : Host.Outcome State Fault Refusal :=
  .next ((s.afterPowerOn persistent).sampleStraps straps)

/-- POWER_LOSS (R499, R597): everything volatile is lost; the device stays off until the rails rise. -/
def execPowerLoss (s : State) : Host.Outcome State Fault Refusal :=
  .next (
    let t := s.afterPowerOn s.flt.persistent
    { t with boot := { t.boot with powered := false } })

/-- PIN_RESET (R493, R569, R570, R603): RESET_N goes low and rises; it ends a thermal trip. -/
def execPinReset (straps : Straps) (s : State) : Host.Outcome State Fault Refusal :=
  .next (if !s.boot.powered then s else (s.warmReset [F.sysResetCause_pin]).sampleStraps straps)

/-- A write of SYS_CTRL that carries reset_key and warm_reset (R569). -/
def State.writeReset (s : State) (key : Nat) (warm : Bool) : State :=
  if key == 0xA5 && warm && s.alive then s.warmReset [F.sysResetCause_warm] else s

/-- WARM_RESET_WRITE (R569). -/
def execWarmResetWrite (key : Nat) (warm : Bool) (s : State) : Host.Outcome State Fault Refusal :=
  .next (s.writeReset key warm)

/-- THERMAL_TRIP (R569, R603): everything but the always-on domains is held in reset until RESET_N or power-on. -/
def execThermalTrip (s : State) : Host.Outcome State Fault Refusal :=
  .next (
    if !s.alive then s
    else
      let t := s.warmReset [F.sysResetCause_thermtrip]
      { t with boot := { t.boot with tripped := true } })

/-! ## Images (R571 to R573) -/

/-- Fields of a firmware image (R572). -/
def imgPayload (bs : List Nat) : Nat := numLE (bytesAt bs 12 4)
def imgSecver (bs : List Nat) : Nat := numLE (bytesAt bs 16 2)
def imgCompat (bs : List Nat) : Nat := numLE (bytesAt bs 18 2)

/-- The version word of an image, as SYS_FW_VERSION shows it. -/
def imgVersion (bs : List Nat) : Nat := bs.getD 8 0 % 256 <<< 24 + bs.getD 9 0 % 256 <<< 16 + numLE (bytesAt bs 10 2)

/-- Magic, format and length are correct (R572, R573). -/
def imgFormat (bs : List Nat) : Bool :=
  numLE (bytesAt bs 0 4) == 0x46573531 && numLE (bytesAt bs 4 4) == 1 && decide (imgPayload bs ≤ 1835008)
    && bs.length == 64 + imgPayload bs + 96

/-- A signature check's outcome that counts: the key of slot 0 unless owner_only is set, that of slot 1 where it is
programmed (R573). -/
def Fuses.keyOk (f : Fuses) (key : Nat) : Bool := (key == 1 && !f.ownerOnly) || (key == 2 && f.slot1)

/-- The signature verifies and the security version is high enough (R573). -/
def Fuses.imgAuth (f : Fuses) (bs : List Nat) (key : Nat) : Bool := f.keyOk key && decide (f.minSecver ≤ imgSecver bs)

/-- An image slot: 0 A, 1 B. -/
def State.norSlot (s : State) (i : Nat) : NorSlot := if i == 0 then s.boot.slotA else s.boot.slotB

/-- An image slot written: its sector is erased first (R572, R535). -/
def State.setNorSlot (s : State) (i : Nat) (v : NorSlot) : State :=
  let b := if i == 0 then { s.boot with slotA := v } else { s.boot with slotB := v }
  ({ s with boot := b }).eraseSector (Config.norSector (5 + i))

/-- The ROM accepts a slot (R573); one whose boot the watchdog ended twice in succession has failed (R576). -/
def State.slotPasses (s : State) (i : Nat) : Bool :=
  let v := s.norSlot i
  v.committed && imgFormat v.image && v.length == v.image.length && s.boot.fuses.imgAuth v.image v.key
    && decide (SMap.getD s.boot.watchdogs i 0 < 2)

/-- The order in which the ROM tries the slots (R570, R573, R576). -/
def State.slotOrder (s : State) : List Nat :=
  if s.getF F.sysStraps_bootSrc == 1 then [0]
  else
    let first := match s.boot.prefer with
      | some p => p
      | none => b2n (s.boot.slotB.committed && (!s.boot.slotA.committed
          || decide (s.boot.slotB.updateSeq > s.boot.slotA.updateSeq)))
    [first, 1 - first]

/-- The boot record of the trouble log (R499, R501, R573). -/
def State.logBoot (s : State) : State :=
  s.logWrite { s.logBase 5 with detail0 := (s.rd .sysResetCause 0).toNat, arg0 := s.boot.badSlots }

/-- Boot failed (R494, R576). -/
def State.bootFailed (s : State) : State := (s.logBoot.setBoot 6).updatePins

/-! ## The stages (R574 to R577) -/

/-- A core rail's target set and asked of its regulator (R598). -/
def State.setRail (s : State) (aft : Bool) (mv : Nat) : State :=
  let b := if aft then { s.boot with railAft := mv } else { s.boot with railFore := mv }
  ({ s with boot := b }).emit (.rail (b2n aft) mv)

/-- State 0 ends: the boot counts, the collector and the log run, the SMBus mailbox answers, the rails take their fused
targets; the image comes from the NOR or from the host (R494, R574, R575, R598). -/
def State.endRom (s : State) : State :=
  let s1 := s.addF F.sysResetCause_bootCount 0 1
  let s2 := ({ s1 with flt := { s1.flt with initialised := true } }).setF F.mbxStatus_smbReady 0 1
  let s3 := (s2.setRail false s2.boot.fuses.railFore).setRail true s2.boot.fuses.railAft
  let src := s3.getF F.sysStraps_bootSrc
  let s4 := s3.updatePins
  if src == 3 then s4.bootFailed
  else if src == 2 then (({ s4 with boot := { s4.boot with recovery := true } }).setBoot 1).lateSetups
  else s4.setBoot 1

/-- State 1 ends: the first slot that passes is booted (R573, R576); in recovery the ROM waits (R575). -/
def State.endCheck (s : State) : State :=
  if s.boot.recovery then s
  else
    let order := s.slotOrder
    let bad := order.takeWhile fun i => !s.slotPasses i
    let s1 := { s with boot := { s.boot with badSlots := bad.foldl (fun a i => a + 2 ^ i) 0 } }
    match order.find? s.slotPasses with
    | none => s1.bootFailed
    | some i => ({ s1 with boot := { s1.boot with bootSlot := i } }).setBoot 2

/-- State 2 ends: the stacks are trained and zeroed, and the recorded retirements applied (R383, R395). -/
def State.endTraining (s : State) : State :=
  let s1 := (List.range 6).foldl (fun t k => t.setF F.mcxStatus_state k 1) s
  let s2 := s1.hbm.recorded.foldl (fun t e =>
    ((((t.setBit F.mcxPcRetired_retired e.1 e.2 true).setF F.mcxStatus_spareUsed e.1 1).setF F.mcxStatus_sparePc e.1
      e.2).setF F.mcxRetireLine_line e.1 spareUnit)) s1
  s2.setBoot 3

/-- The last gasp read at boot: a committed slot with a good magic and CRC, of the higher gasp_seq (R506). -/
def State.bestGasp (s : State) : Option Nat :=
  let good (i : Nat) : Bool := (s.gaspSlot i).commit == 1 && (s.gaspSlot i).magic && (s.gaspSlot i).crcGood
  if good 0 && good 1 then some (b2n (decide ((s.gaspSlot 1).gaspSeq > (s.gaspSlot 0).gaspSeq)))
  else if good 0 then some 0 else if good 1 then some 1 else none

/-- The last gasp goes into the trouble log after the boot record, and the older slot is prepared (R502, R506). -/
def State.readGasp (s : State) : State :=
  let best := s.bestGasp
  let torn := [0, 1].any fun i => (s.gaspSlot i).magic && !((s.gaspSlot i).commit == 1 && (s.gaspSlot i).crcGood)
  let s1 := (s.setB F.logLastgasp_torn 0 torn).setB F.logLastgasp_medium 0 s.flt.persistent
  match best with
  | none => s1.prepareSlot 0
  | some i =>
    let g := s1.gaspSlot i
    let s2 := g.records.reverse.foldl (fun t r => t.logWrite r) s1
    let s3 := ((s2.setF F.logLastgasp_found 0 1).setF F.logLastgasp_slot 0 i).setF F.logLastgasp_gaspSeq 0
      (g.gaspSeq % 2 ^ 27)
    s3.prepareSlot (1 - i)

/-- The seeds of R577 item 3: the shard seed drawn or the master's, the rule seed, the index seed. -/
def State.drawSeeds (s : State) : State :=
  let own := s.stk.seed.isNone
  let (s1, shard) := match s.stk.seed with
    | some v => (s, v)
    | none => (s.draw, s.freeVal)
  let rule := s1.freeVal
  let s2 := s1.draw
  let index := s2.freeVal
  let s3 := s2.draw
  let s4 := { s3 with
    fst := { s3.fst with shardSeed := shard, seed0 := index, seed1 := index, setSeed := index }
    cls := { s3.cls with ruleSeed := rule } }
  s4.setB F.stkStatus_ownSeed 0 own

/-- The standard image in region 0: entry points 0 to 9, in both epochs, and RIG_UCODE_VERSION; start words and the image's
version are not in the spec (R291, R577; log entry 153). -/
def State.loadStandard (s : State) : State :=
  let v := s.freeVal
  let s1 := s.draw
  let entries := (List.range 10).map fun i =>
    (i, (Config.free (s1.drawn + i) % 4096 * (2 ^ 16 + 1), 7 <<< 29))
  let s2 := { s1 with
    drawn := s1.drawn + 10
    rig := { s1.rig with standard := [0], entries := entries, golden := ([], entries, [0]) } }
  let key := (s2.norSlot s2.boot.bootSlot).key
  [0, 1].foldl (fun t e =>
    let t1 := ((t.setVersion F.rigUcodeVersion_major e (v % 256)).setVersion F.rigUcodeVersion_minor e
      (v / 256 % 256)).setVersion F.rigUcodeVersion_build e (v / 65536 % 4096)
    ((t1.setVersion F.rigUcodeVersion_sig e key).setVersion F.rigUcodeVersion_region e 0).setVersion
      F.rigUcodeVersion_loaded e 1) s2

/-- The lock fields of the blocks that firmware configures; STK's is set at formation (R568, R577). -/
def lockFields : List Fld :=
  [F.tbsCtrl_lock, F.portCfg_lock, F.prsCtrl_lock, F.clsCtrl_lock, F.mskCtrl_lock, F.fstCtrl_lock, F.bpmCtrl_lock,
   F.rigCtrl_lock, F.iqmCtrl_lock, F.egsCtrl_lock, F.redCtrl_lock, F.mcxCtrl_lock, F.crdCtrl_lock, F.sysCtrl_lock,
   F.fltCtrl_lock, F.logCtrl_lock, F.cntCtrl_lock, F.lifeCtrl_lock]

/-- Every instance of the lock fields set, but those of ports that do not exist (R100). -/
def State.setLocks (s : State) : State :=
  lockFields.foldl (fun t f => (List.range f.reg.count).foldl (fun u i =>
    if f.reg == .portCfg && !u.portExists i then u else u.setF f i 1) t) s

/-- A device strapped master acts as one from its start, with generation 1 (R548, R564; log entry 160), and gives its peers
the shard seed (R549). -/
def State.startMaster (s : State) : State :=
  if s.getF F.stkStatus_role == 3 then
    let s1 := ((s.setF F.stkStatus_actingMaster 0 1).setF F.stkGen_genOwn 0 1).setF F.stkGen_genHeard 0 1
    let up := (List.range 4).filter fun l => s1.getB F.stkLink_up l
    up.foldl (fun t l => t.sendBulk l (.seed t.fst.shardSeed)) s1
  else s

/-- A recovery's sys.fw_update completes when its firmware runs (R575). -/
def State.endRecovery (s : State) : State :=
  match s.boot.update with
  | none => s
  | some u => ({ s with boot := { s.boot with update := none, recovery := false } }).answer u.mbx u.cid u.noIrq .ok

/-- State 4 ends (R577): the work of firmware's start, then ready. -/
def State.firmwareStart (s : State) (setup : CrdSetup) : State :=
  let slot := s.norSlot s.boot.bootSlot
  let version := imgVersion slot.image
  let s1 := (s.startCriod setup).wr .sysFwVersion 0 (BitVec.ofNat 32 version)
  let s2 := { s1 with boot := { s1.boot with
    coreFw := [(0, version), (1, version), (2, version), (3, version)], watchAt := none, prefer := none
    watchdogs := SMap.del s1.boot.watchdogs s1.boot.bootSlot, recovery := false } }
  let gasp := s2.bestGasp.map fun i =>
    let b := (s2.gaspSlot i).stateBlock
    (wordAt b 12 + wordAt b 13 * 2 ^ 32, wordAt b 14)
  let s3 := ((s2.restoreWear s2.boot.cold gasp).logBoot.readGasp).drawSeeds
  let s4 := ({ s3 with prs := { s3.prs with graph := standardGraph } }).syncGraph
  let s5 := (s4.loadStandard.setLocks.setF F.crdCtrl_becalmedEn 0 1).startMaster
  let s6 := ((s5.setF F.sysStatus_ready 0 1).setBoot 5).resumeLoss.raiseIrq irqReady
  s6.endRecovery.lateSetups

/-- The device has its shard seed, or need not wait for a master's (R549). -/
def State.seedSettled (s : State) : Bool :=
  let role := s.getF F.stkStatus_role
  role == 0 || role == 3 || s.stk.seed.isSome || s.getB F.stkStatus_ownSeed

/-- BOOT_STAGE_COMPLETE (R549, R570, R574 to R577): the present boot state's work is done; `setup` is what firmware sets up
in the Criod complex at its start. TEST_EN holds the device in state 0. -/
def execBootStageComplete (setup : CrdSetup) (s : State) : Host.Outcome State Fault Refusal :=
  .next (
    let n := s.getF F.sysStatus_bootState
    if !s.alive then s
    else if n == 0 then (if s.getB F.sysStraps_testEn then s else s.endRom)
    else if n == 1 then s.endCheck
    else if n == 2 then s.endTraining
    else if n == 3 then (let t := s.setBoot 4; { t with boot := { t.boot with watchAt := some t.tm.ticks } })
    else if n == 4 then (if s.seedSettled then s.firmwareStart setup else s)
    else s)

/-- BOOT_WATCHDOG (R576): ready is not set 4 s after state 4 began; a warm reset, and the other slot is tried first. -/
def execBootWatchdog (s : State) : Host.Outcome State Fault Refusal :=
  .next (match s.boot.watchAt with
    | none => s
    | some t0 =>
      if !s.alive || s.getB F.sysStatus_ready || s.tm.ticks < t0 + 4000000000 then s
      else
        let i := s.boot.bootSlot
        let n := SMap.getD s.boot.watchdogs i 0
        let s1 := { s with boot := { s.boot with watchdogs := SMap.set s.boot.watchdogs i (n + 1), prefer := some (1 - i) } }
        s1.warmReset [F.sysResetCause_warm])

/-! ## JTAG and debug unlock (R581, R582) -/

/-- IDCODE (R581): revision B0. -/
def State.idcode (s : State) : Nat := 1 <<< 28 + 0x5120 <<< 12 + trunc 11 s.boot.fuses.manufacturer <<< 1 + 1

/-- The debug port of the TAP is open (R581). -/
def State.jtagOpen (s : State) : Bool := s.boot.fuses.debugOpen || s.getB F.sysStatus_debugUnlocked

/-- SYS_DEBUG_CHALLENGE (`sys.debug_challenge`, R471, R582): a nonce of four words that the spec leaves open. -/
def execSysDebugChallenge (h : CmdHdr) (s : State) : Host.Outcome State Fault Refusal :=
  .next (s.cmd (.sysDebugChallenge h) h attrNone [] fun s =>
    if s.getB F.sysStatus_debugUnlocked then (s, .err eState)
    else if s.boot.unlockFails ≥ 3 then (s, .err eAuth)
    else
      let ws := (List.range 4).map fun i => trunc 32 (Config.free (s.drawn + i))
      ({ s with drawn := s.drawn + 4, boot := { s.boot with nonce := some (ws, s.tm.ticks) } }, .val ws))

/-- SYS_DEBUG_UNLOCK (`sys.debug_unlock`, R471, R582): `key` is the outcome of the signature check, as for an image. -/
def execSysDebugUnlock (h : CmdHdr) (key : Nat) (s : State) : Host.Outcome State Fault Refusal :=
  .next (s.cmd (.sysDebugUnlock h key) h attrO [] fun s =>
    match s.boot.nonce with
    | none => (s, .err eState)
    | some (_, t) =>
      let s1 := { s with boot := { s.boot with nonce := none } }
      if s.tm.ticks ≥ t + 60000000000 then (s1, .err eState)
      else if s1.boot.fuses.keyOk key then (s1.setF F.sysStatus_debugUnlocked 0 1, .ok)
      else ({ s1 with boot := { s1.boot with unlockFails := s1.boot.unlockFails + 1 } }, .err eAuth))

/-- NONCE_EXPIRY (R582): 60 s after the challenge. -/
def execNonceExpiry (s : State) : Host.Outcome State Fault Refusal :=
  .next (match s.boot.nonce with
    | some (_, t) => if s.tm.ticks < t + 60000000000 then s else { s with boot := { s.boot with nonce := none } }
    | none => s)

/-! ## Hitless firmware update (R583, R584) -/

/-- The next core of an update is rotated out, or the update ends: the new version shows, the banks change roles and the
command completes. -/
def State.rotate (s : State) : State :=
  match s.boot.update with
  | none => s
  | some u =>
    match u.cores with
    | c :: rest =>
      ({ s with boot := { s.boot with update := some { u with cores := rest } } }).coreFail c true none
    | [] =>
      let s1 := { s with boot := { s.boot with update := none, bank := 1 - s.boot.bank, bootSlot := u.slot } }
      (s1.wr .sysFwVersion 0 (BitVec.ofNat 32 u.version)).answer u.mbx u.cid u.noIrq .ok

/-- The ROM takes an image from host mailbox 0 (R575): checked, written to slot A and booted. -/
def State.recoverImage (s : State) (h : CmdHdr) (image : List Nat) (key : Nat) (written : Bool) : State × Option Rsp :=
  let seq := Nat.max s.boot.slotA.updateSeq s.boot.slotB.updateSeq + 1
  if s.boot.update.isSome then (s, some (.err eBusy))
  else if !imgFormat image then (s, some (.inval 0))
  else if !s.boot.fuses.imgAuth image key then (s, some (.err eAuth))
  else if !written then (s, some (.err eFault))
  else
    let s1 := s.setNorSlot 0 ⟨true, seq, image.length, image, key⟩
    let u : FwUpdate := ⟨h.mbx, h.cid, h.noIrq, 0, imgVersion image, []⟩
    (({ s1 with boot := { s1.boot with update := some u, bootSlot := 0 } }).setBoot 2, none)

/-- The running firmware takes an image (R583): checked, written to the slot that did not boot, and, where its checkpoints
are compatible, run on one core after another. -/
def State.updateImage (s : State) (h : CmdHdr) (image : List Nat) (key : Nat) (written : Bool) : State × Option Rsp :=
  let slot := 1 - s.boot.bootSlot
  let running := s.norSlot s.boot.bootSlot
  if s.crd.takeover.isSome || s.boot.update.isSome then (s, some (.err eBusy))
  else
    match s.backstay with
    | none => (s, some (.err eState))
    | some b =>
      if !imgFormat image then (s, some (.inval 0))
      else if !s.boot.fuses.imgAuth image key then (s, some (.err eAuth))
      else if !written then (s, some (.err eFault))
      else
        let s1 := s.setNorSlot slot ⟨true, running.updateSeq + 1, image.length, image, key⟩
        if imgCompat image != imgCompat running.image then (s1, some ⟨eState, 1, [], []⟩)
        else
          let version := imgVersion image
          let active := (List.range 4).filter fun c => s1.getF F.crdCoreStatus_role c == 1
          let u : FwUpdate := ⟨h.mbx, h.cid, h.noIrq, slot, version, active⟩
          (({ s1 with boot := { s1.boot with update := some u, coreFw := SMap.set s1.boot.coreFw b version } }).rotate,
            none)

/-- SYS_FW_UPDATE (`sys.fw_update`, R575, R583, R584): `key` is the outcome of the signature check, `written` that of
writing the slot. -/
def execSysFwUpdate (h : CmdHdr) (image : List Nat) (key : Nat) (written : Bool) (s : State) :
    Host.Outcome State Fault Refusal :=
  .next (match s.refuseCmd h attrO false true with
    | some r => s.stopCmd (.sysFwUpdate h image key written) h r
    | none =>
      match if s.boot.recovery then (if h.mbx == 0 then s.recoverImage h image key written else (s, some (.err eState)))
        else s.updateImage h image key written with
      | (s', some r) => s'.finish h r
      | (s', none) => s'.beginCmd h)

/-- CORE_LOGIC_TEST_END (R583, R584): the core rotated out has run its core-logic test alone. One that fails it goes
offline, and the update stops. -/
def execCoreLogicTestEnd (core : Nat) (passed : Bool) (s : State) : Host.Outcome State Fault Refusal :=
  .next (
    if s.boot.update.isNone || !s.crd.testing.contains core || s.crd.takeover.isSome then s
    else if passed then (s.becomeBackstay core).rotate
    else (s.goOffline core).failUpdate)

/-! ## The furled state (R586, R587) -/

/-- Arrivals are discarded and queued copies dropped; what the rigs and shards have in flight they finish (R586). -/
def State.furlTraffic (s : State) : State :=
  let ports := s.port.ports.map Prod.fst
  let s1 := ports.foldl (fun t p =>
    (((t.setF F.portStatus_blockLock p 0).setF F.portStatus_fecLock p 0).setF F.portStatus_rxLocalFault p 1).linkFault p) s
  let s2 := s1.pk.copies.foldl (fun t e => t.loseCopy e.1) s1
  let gone (p : Pkt) : Bool := p.arriving || p.stage == .waiting || p.stage == .inject
  let s3 := (s2.pk.pkts.filter fun e => gone e.2).foldl (fun t e => t.discardPkt e.1) s2
  ({ s3 with pk := { s3.pk with rx := SMap.mapVal (fun _ r => { r with pkt := none }) s3.pk.rx } }).idleCredits

/-- Dirty cache lines are written back (R205, R586). -/
def State.flushLines (s : State) : State :=
  s.fst.lines.foldl (fun t e => (t.writeBack e.2).setLine e.1 { e.2 with dirty := false }) s

/-- SYS_FURL (`sys.furl`, R471, R586). -/
def execSysFurl (h : CmdHdr) (s : State) : Host.Outcome State Fault Refusal :=
  .next (s.cmd (.sysFurl h) h attrO [] fun s =>
    if s.getB F.fltStatus_barePoles || s.crd.takeover.isSome || s.boot.update.isSome || s.furled then (s, .err eState)
    else
      let s1 := ((s.furlTraffic.flushLines.pauseLoss).setBoot 7).syncLines
      ({ s1 with hbm := { s1.hbm with srOut := [] } }, .ok))

/-- Every line of the flow cache goes, its content written back (R205, R587). -/
def State.emptyCache (s : State) : State :=
  let s1 := s.fst.lines.foldl (fun t e => match SMap.find? t.fst.lines e.1 with
    | some l => t.evict e.1 l
    | none => t) s
  { s1 with fst := { s1.fst with plru := [] } }

/-- Every shaper takes its starting value (R356, R587). -/
def State.restartShapers (s : State) : State :=
  s.egs.shapers.foldl (fun t e =>
    let u := t.unpark e.1
    u.setShaper e.1 (u.shaperStart e.1 e.2)) s

/-- SYS_UNFURL (`sys.unfurl`, R471, R587): the ports come up again by their own training; the first pass of each ageing
descriptor treats its records as after a step (R225). -/
def execSysUnfurl (h : CmdHdr) (s : State) : Host.Outcome State Fault Refusal :=
  .next (s.cmd (.sysUnfurl h) h attrO [] fun s =>
    if !s.furled then (s, .err eState)
    else
      let s1 := (List.range 6).foldl (fun t k => if t.hbm.selfRefresh.contains k || SMap.has t.hbm.srRetryAt k then
        t.exitSelfRefresh k else t) s
      let s2 := s1.emptyCache
      let s3 := { s2 with fst := { s2.fst with rebase := List.range 512, gracePass := List.range 512 } }
      ((s3.restartShapers.setBoot 5).resumeLoss.syncLines, .ok))

/-! ## Supply and temperature (R598, R602) -/

/-- AVS_CORRECTION (R598): from ready on firmware corrects a rail's target by at most 5 mV, once a second; direction 0
repeats it, 1 raises and 2 lowers it. A regulator that does not answer leaves the target as it was. -/
def execAvsCorrection (rail direction : Nat) (answered : Bool) (s : State) : Host.Outcome State Fault Refusal :=
  .next (
    let aft := rail == 1
    let last := if aft then s.boot.railAftAt else s.boot.railForeAt
    let old := if aft then s.boot.railAft else s.boot.railFore
    let want := if direction == 1 then old + 5 else if direction == 2 then old - 5 else old
    if rail > 1 || !s.alive || !s.getB F.sysStatus_ready || s.tm.ticks < last + 1000000000 then s
    else
      let b := if aft then { s.boot with railAftAt := s.tm.ticks } else { s.boot with railForeAt := s.tm.ticks }
      let s1 := { s with boot := b }
      let mv := Nat.max 680 (Nat.min 820 want)
      if answered then s1.setRail aft mv else s1.emit (.rail rail mv))

/-- DIE_TEMP_WARNING (R602): sensors 0 the fore die, 1 the aft die, 2 to 7 the stacks, in °C. -/
def execDieTempWarning (unit temp : Nat) (s : State) : Host.Outcome State Fault Refusal :=
  .next (
    let live := s.flt.live.any fun l => l.code == 0x0003 && l.instance_ == unit
    if unit > 7 || !s.alive then s
    else if temp ≥ 100 then (if live then s else (s.raise 0x0003 unit unit).raiseIrq irqThermal)
    else if temp < 97 then s.endCondition 0x0003 unit
    else s)

end Sys2Proof.Machine
end

