-- ==== Sys2Proof/Machine/Counts.lean ====
section
/-! DEFINITION. Snapshots, clears, window and live reads, bandwidth windows as commands (R515 to R526, R540, R542). -/

namespace Sys2Proof.Machine

/-! ## Banks (R518, R519, R521) -/

/-- A field of CNT_BANK_STATUS: bank `b` has bits 16b to 16b + 15. -/
def bankF (b hi lo : Nat) : Fld := ⟨.cntBankStatus, 16 * b + hi, 16 * b + lo⟩

/-- A bank's state: 0 INVALID, 1 CAPTURING, 2 FROZEN. -/
def State.bankState (s : State) (b : Nat) : Nat := s.getF (bankF b 15 14)

/-- A snapshot into the bank would not take place (R521). -/
def State.bankHeld (s : State) (b : Nat) : Bool := s.bankState b == 1 || s.getB (bankF b 13 13)

/-- The values a bank holds. -/
def State.bank (s : State) (b : Nat) : SMap CtrVal := if b == 0 then s.cnt.bank0 else s.cnt.bank1

/-- A bank's values set. -/
def State.setBank (s : State) (b : Nat) (m : SMap CtrVal) : State :=
  if b == 0 then { s with cnt := { s.cnt with bank0 := m } } else { s with cnt := { s.cnt with bank1 := m } }

/-- The live counters of the masked groups. -/
def State.ctrsOf (s : State) (groups : Nat) : SMap CtrVal := s.ctrs.filter fun e => bitOf groups (e.1 / 2 ^ 20)

/-- A snapshot is taken at its instant into a bank that is not held: the latches are filled and the bank is CAPTURING
(R518, R519). -/
def State.capture (s : State) (r : SnapReq) : State :=
  let s1 := { s with cnt := { s.cnt with latches := SMap.set s.cnt.latches r.bank (r, s.ctrsOf r.groups) } }
  let s2 := ((s1.setF (bankF r.bank 15 14) 0 1).setF (bankF r.bank 3 0) 0 r.groups).setB (bankF r.bank 12 12) 0 (!s.locked)
  let s3 := s2.setB (bankF r.bank 11 11) 0 r.stack
  (s3.setF F.cntBankTime_value (2 * r.bank) (r.at_ % 1000000000)).setF F.cntBankTime_value (2 * r.bank + 1)
    (trunc 32 (r.at_ / 1000000000))

/-- A requested snapshot whose bank is held or capturing by its instant (R521): the command gets E_BUSY, a register
request sets busy_seen (log entry 132). -/
def State.refuseSnap (s : State) (r : SnapReq) : State :=
  match r.cmd with
  | some (mbx, cid, noIrq) => s.answer mbx cid noIrq (.err eBusy)
  | none => s.setF F.cntEvent_busySeen 0 1

/-- A requested snapshot reaches its instant. -/
def State.takeSnap (s : State) (r : SnapReq) : State :=
  let s1 := { s with cnt := { s.cnt with snaps := s.cnt.snaps.erase r } }
  if s1.bankHeld r.bank then s1.refuseSnap r else s1.capture r

/-- A TEC firing of kind 0 at instant `at_` (R520, R521): it captures, or is skipped. -/
def State.fireSnap (s : State) (bank groups at_ : Nat) (stack : Bool) : State :=
  if s.bankHeld bank then
    ((s.setF (bankF bank 10 10) 0 1).setF F.cntEvent_skipSeen 0 1).count C.cntSnapSkipped
  else s.capture ⟨bank, groups, at_, none, stack⟩

/-- SNAPSHOT_LATCH (R29, R519): the oldest requested snapshot whose instant has come. -/
def execSnapshotLatch (s : State) : Host.Outcome State Fault Refusal :=
  .next (match s.cnt.snaps.find? fun r => decide (r.at_ ≤ s.now) with
    | none => s
    | some r => s.takeSnap r)

/-- SNAPSHOT_DRAIN (R519, R520): a bank's latches have drained; it is FROZEN, and a cnt.snapshot completes with T. -/
def execSnapshotDrain (bank : Nat) (s : State) : Host.Outcome State Fault Refusal :=
  .next (match SMap.find? s.cnt.latches bank with
    | none => s
    | some (r, m) =>
      let s1 := { s with cnt := { s.cnt with latches := SMap.del s.cnt.latches bank } }
      let s2 := (s1.setBank bank m).setF (bankF bank 15 14) 0 2
      match r.cmd with
      | some (mbx, cid, noIrq) =>
        s2.answer mbx cid noIrq (.val (fullTimeWords (r.at_ / 1000000000) (r.at_ % 1000000000) 0))
      | none => s2)

/-- CNT_SNAPSHOT (`cnt.snapshot`, R520, R521). -/
def execCntSnapshot (h : CmdHdr) (bank groups : Nat) (s : State) : Host.Outcome State Fault Refusal :=
  .next (s.cmdLater (.cntSnapshot h bank groups) h attrNone [decide (bank ≤ 1), decide (groups ≤ 15)] fun s =>
    if s.bankHeld bank then (s, some (.err eBusy))
    else
      let r : SnapReq := ⟨bank, groups, boundaryAfter s.now 2000, some (h.mbx, h.cid, h.noIrq), false⟩
      ({ s with cnt := { s.cnt with snaps := s.cnt.snaps ++ [r] } }, none))

/-- A write of CNT_SNAP_REQ (R520, R521). -/
def State.requestSnap (s : State) (go : Bool) (bank groups : Nat) : State :=
  if !go then s
  else if s.bankHeld (bank % 2) then s.setF F.cntEvent_busySeen 0 1
  else
    let r : SnapReq := ⟨bank % 2, groups % 16, boundaryAfter s.now 2000, none, false⟩
    { s with cnt := { s.cnt with snaps := s.cnt.snaps ++ [r] } }

/-- CNT_SNAP_REQ_WRITE (R520, R521). -/
def execCntSnapReqWrite (go : Bool) (bank groups : Nat) (s : State) : Host.Outcome State Fault Refusal :=
  .next (s.requestSnap go bank groups)

/-! ## Clears (R522) -/

/-- CNT_CLEAR (`cnt.clear`, R522): it finishes when its effect is visible (R455). -/
def execCntClear (h : CmdHdr) (groups : Nat) (s : State) : Host.Outcome State Fault Refusal :=
  .next (s.cmdLater (.cntClear h groups) h attrNone [decide (groups ≤ 15)] fun s =>
    let r : ClearReq := ⟨groups, boundaryAfter s.now 2000, (h.mbx, h.cid, h.noIrq)⟩
    ({ s with cnt := { s.cnt with clears := s.cnt.clears ++ [r] } }, none))

/-- A firing of kind 0 falls at an instant or before it and has not been made (R522). -/
def State.snapPending (s : State) (at_ : Nat) : Bool :=
  (s.tm.tec.any fun e => e.2.kind == 0 && decide (e.2.next ≤ at_))
    || s.tm.deferred.any fun d => d.kind == 0 && decide (d.at_ ≤ at_)

/-- COUNTER_CLEAR_APPLY (R522): the oldest clear whose instant has come; snapshots of that instant capture first, those
of the timed-event calendar by their own firing, for which the clear waits. -/
def execCounterClearApply (s : State) : Host.Outcome State Fault Refusal :=
  .next (match s.cnt.clears.find? fun r => decide (r.at_ ≤ s.now) && !s.snapPending r.at_ with
    | none => s
    | some r =>
      let s1 := (s.cnt.snaps.filter fun q => decide (q.at_ ≤ r.at_)).foldl (fun t q => t.takeSnap q) s
      let s2 := { s1 with
        ctrs := s1.ctrs.filter fun e => !bitOf r.groups (e.1 / 2 ^ 20)
        cnt := { s1.cnt with clears := s1.cnt.clears.erase r } }
      (s2.setF F.cntEvent_clearSeen 0 1).answer r.cmd.1 r.cmd.2.1 r.cmd.2.2 .ok)

/-! ## Reads (R523, R524) -/

/-- A bank's group may be read. -/
def State.bankReadable (s : State) (b group : Nat) : Bool := s.bankState b == 2 && bitOf (s.getF (bankF b 3 0)) group

/-- A value of a counter map; zero where nothing was counted. -/
def ctrIn (m : SMap CtrVal) (group index : Nat) : CtrVal := SMap.getD m (CtrId.key ⟨group, index⟩) ⟨0, false⟩

/-- CNT_READ (`cnt.read`, R521, R523): the model copies at one instant, so that firmware's hold begins and ends in it
(log entry 133). -/
def execCntRead (h : CmdHdr) (bank group first count : Nat) (s : State) : Host.Outcome State Fault Refusal :=
  .next (s.cmd (.cntRead h bank group first count) h attrNone
      [decide (bank ≤ 1), decide (group ≤ 3), decide (first < ctrSlots group),
      decide (1 ≤ count) && decide (count ≤ 65536) && decide (first + count ≤ ctrSlots group)] fun s =>
    if !s.bankReadable bank group then (s, .err eState)
    else (s, .bulkOf [count] ((List.range count).flatMap fun i =>
      let v := (ctrIn (s.bank bank) group (first + i)).value
      [v % 2 ^ 32, v / 2 ^ 32])))

/-- CNT_READ_ONE (`cnt.read_one`, R524): low word, high word, saturation flag. -/
def execCntReadOne (h : CmdHdr) (group index : Nat) (s : State) : Host.Outcome State Fault Refusal :=
  .next (s.cmd (.cntReadOne h group index) h attrS [decide (group ≤ 3), decide (index < ctrSlots group)] fun s =>
    let v := ctrIn s.ctrs group index
    (s, .val [v.value % 2 ^ 32, v.value / 2 ^ 32, b2n v.sat]))

/-- A register read answered (R445). -/
def State.readReg (s : State) (r : Reg) (i : Nat) : State :=
  s.emit (.regRead r.place.bar (r.offset i) (s.rd r i).toNat)

/-- CNT_WIN_DATA instance 0 takes the value selected: its low word, the high word latched for instance 1; an invalid
choice reads as zero and leaves invalid_read_seen (R523, R542). -/
def State.windowRead (s : State) : State :=
  let b := s.getF F.cntWinAddr_bank
  let g := s.getF F.cntWinAddr_group
  let i := s.getF F.cntWinAddr_index
  let ok := s.bankReadable b g && decide (i < ctrSlots g)
  let v := if ok then (ctrIn (s.bank b) g i).value else 0
  let s1 := (s.setF F.cntWinData_value 0 (v % 2 ^ 32)).setF F.cntWinData_value 1 (v / 2 ^ 32)
  if ok then s1 else s1.setF F.cntEvent_invalidReadSeen 0 1

/-- A read of CNT_WIN_DATA instance 1 advances the index (R542). -/
def State.windowNext (s : State) : State := s.setF F.cntWinAddr_index 0 (s.getF F.cntWinAddr_index + 1)

/-- CNT_WINDOW_READ (R523): a read of CNT_WIN_DATA, instance 1 where `high`. -/
def execCntWindowRead (high : Bool) (s : State) : Host.Outcome State Fault Refusal :=
  .next (if high then (s.readReg .cntWinData 1).windowNext else s.windowRead.readReg .cntWinData 0)

/-- CNT_LIVE_DATA samples the counter selected (R524). -/
def State.liveRead (s : State) : State :=
  let g := s.getF F.cntLiveAddr_group
  let i := s.getF F.cntLiveAddr_index
  let v := if i < ctrSlots g then (ctrIn s.ctrs g i).value else 0
  (s.setF F.cntLiveData_value 0 (v % 2 ^ 32)).setF F.cntLiveData_value 1 (v / 2 ^ 32)

/-- CNT_LIVE_SAMPLE (R524): a read of CNT_LIVE_DATA, instance 1 where `high`. -/
def execCntLiveSample (high : Bool) (s : State) : Host.Outcome State Fault Refusal :=
  .next (if high then s.readReg .cntLiveData 1 else s.liveRead.readReg .cntLiveData 0)

/-! ## Bandwidth windows (R525, R526) -/

/-- A window on a port that begins at the next microsecond boundary. -/
def newWindow (code now : Nat) (locked : Bool) : BwWindow :=
  let w : BwWindow := ⟨code, 0, 0, BwDir.zero, BwDir.zero, false, false, false, none⟩
  w.begin_ ((now / 1000 + 1) * 1000) locked

/-- CNT_BW_CONFIG (`cnt.bw_config`, R525, R526). -/
def execCntBwConfig (h : CmdHdr) (port code : Nat) (enable : Bool) (s : State) : Host.Outcome State Fault Refusal :=
  .next (s.cmd (.cntBwConfig h port code enable) h attrNone [decide (port < 256), decide (code ≤ 6)] fun s =>
    if !s.portExists port then (s, .err eNoent)
    else
      let ws := if enable then SMap.set s.cnt.windows port (newWindow code s.now s.locked)
        else SMap.del s.cnt.windows port
      ({ s with cnt := { s.cnt with windows := ws } }, .ok))

/-- CNT_BW_READ (`cnt.bw_read`, R525): the latest completed window; before the first has completed its words are left open
(log entry 134). -/
def execCntBwRead (h : CmdHdr) (port : Nat) (s : State) : Host.Outcome State Fault Refusal :=
  .next (s.cmd (.cntBwRead h port) h attrNone [decide (port < 256)] fun s =>
    if !s.portExists port then (s, .err eNoent)
    else
      let s1 := s.bwRoll
      match SMap.find? s1.cnt.windows port with
      | none => (s, .err eState)
      | some w =>
        match w.latest with
        | some (ws, d) => (s1, ⟨0, d, ws, []⟩)
        | none =>
          let v (k : Nat) : Nat := Config.free (s1.drawn + k)
          ({ s1 with drawn := s1.drawn + 5 }, ⟨0, v 4, [v 0, v 1, v 2, v 3], []⟩))

/-- BW_WINDOW_END (R525): a port's window has ended. -/
def execBwWindowEnd (port : Nat) (s : State) : Host.Outcome State Fault Refusal :=
  .next { s with cnt := { s.cnt with windows := SMap.modify s.cnt.windows port fun w => w.roll s.now s.locked } }

end Sys2Proof.Machine
end

