-- ==== Sys2Proof/Machine/Access.lean ====
section
/-! DEFINITION. Direct register access (R3, R444 to R446): which register an address names, what a write does to each field
by its type, and what reads and writes of some registers do besides. -/

namespace Sys2Proof.Machine

/-! ## Addresses (R444) -/

/-- The instance of a register that stands at an offset of a BAR. -/
def Reg.instAt (r : Reg) (bar off : Nat) : Option Nat :=
  let p := r.place
  if p.bar != bar || off < p.base then none
  else
    let d := off - p.base
    let b := if p.blockStride == 0 then 0 else d / p.blockStride
    let e := d - b * p.blockStride
    let i := e / p.subStride
    if b < p.blocks && i < p.subs && e % p.subStride == 0 then some (b * p.subs + i) else none

/-- The register instance at an offset of a BAR. -/
def regAt (bar off : Nat) : Option (Reg × Nat) := allRegs.findSome? fun r => (r.instAt bar off).map fun i => (r, i)

/-- The word of the debug mailbox's memory at an offset of BAR0 (R468). -/
def debugWord (bar off : Nat) : Option Nat :=
  if bar == 0 && 0x21000 ≤ off && off < 0x21C00 then some ((off - 0x21000) / 4) else none

/-! ## Writes (R446) -/

/-- The lock bit of a register's block is set. -/
def State.regLocked (s : State) (r : Reg) (i : Nat) : Bool :=
  match r.lockField with
  | none => false
  | some f => s.getB f (i / r.place.subs * f.reg.place.subs)

/-- Of the fields kept across a warm reset only SYS_SCRATCH is host software's to write (log entry 181). -/
def Reg.stickyWritable : Reg → Bool
  | .sysScratch => true
  | _ => false

/-- Bit 31 of an instance that holds a capture's valid bit is cleared by writing 1 to it (R270, R400, R438, R474). -/
def Reg.captureValid (r : Reg) (i : Nat) : Bool := r.validInstance == some (i % r.place.subs)

/-- A field after a write of `new` over `old`, and whether the write met its lock. -/
def writeField (r : Reg) (locked : Bool) (f : FieldRow) (old new : Nat) : Nat × Bool :=
  match f.ty with
  | .rw => (new, false)
  | .rws => (if r.stickyWritable then new else old, false)
  | .rw1c => (old - Nat.land old new, false)
  | .rwl => if locked then (old, old != new) else (new, false)
  | .ro => (old, false)
  | .rc => (old, false)
  | .wo => (old, false)

/-- A register's content after a write, field by field, and whether some field's lock was met. -/
def State.writeWord (s : State) (r : Reg) (i : Nat) (data : BitVec 32) : BitVec 32 × Bool :=
  let locked := s.regLocked r i
  let (w, hit) := r.fields.foldl (fun a f =>
    let (v, b) := writeField r locked f (fieldOf a.1 f.hi f.lo) (fieldOf data f.hi f.lo)
    (withField a.1 f.hi f.lo v, a.2 || b)) (s.rd r i, false)
  (if r.captureValid i && data.toNat ≥ 2 ^ 31 then withField w 31 31 0 else w, hit)

/-- An access error: its bit of PCI_EVENT, and the capture with the BAR0 offset (R445, R446, R474). -/
def State.accessError (s : State) (f : Fld) (off : Nat) : State := (s.pciEvent f).pciCapture (f.lo - 24) 3 0 off

/-- The entry that firmware reads for a mailbox lies in host memory: eight words left open. -/
def State.hostWords (s : State) : State × List Nat :=
  ({ s with drawn := s.drawn + 8 }, (List.range 8).map fun i => Config.free (s.drawn + i) % 2 ^ 32)

/-- One bit of MBX_CTRL.en, or dbg_en as bit 8, as a write leaves it (R449, R468). -/
def State.writeMbxEn (data : BitVec 32) (s : State) (m : Nat) : State :=
  let was := if m < 8 then s.getBit F.mbxCtrl_en 0 m else s.getB F.mbxCtrl_dbgEn
  if data.toNat / 2 ^ m % 2 == 1 then
    (if was then s else let (t, ws) := s.hostWords; t.enableMailbox m ws)
  else if was then s.disableMailbox m else s

/-- A register of the PORT block. -/
def Reg.ofPort : Reg → Bool
  | .portCfg | .portStatus | .portTsLatency | .portEvent => true
  | _ => false

/-- A write to a register of a port that does not exist is ignored; one that would change an RWL field is an access error
(R100). -/
def State.writeAbsent (s : State) (r : Reg) (i off : Nat) (data : BitVec 32) : State :=
  let w := s.rd r i
  if r.fields.any fun f => f.ty == .rwl && fieldOf w f.hi f.lo != fieldOf data f.hi f.lo then
    s.accessError F.pciEvent_lockedWriteSeen off
  else s

/-- What a write does beyond its register's fields. -/
def State.afterWrite (s : State) (r : Reg) (i : Nat) (data : BitVec 32) : State :=
  let d := data.toNat
  match r with
  | .sysCtrl => (s.updateIntN).writeReset (bitsOf d 23 16) (bitOf d 0)
  | .sysIrqStatus => s.updateIntN
  | .sysIrqMask => s.updateIntN
  | .fltStatus => s.updatePins
  | .tbsDomainCtrl =>
    let old := s.getF F.tbsServoStatus_selected
    if s.selected == old then s else (s.setF F.tbsDomainCtrl_select 0 old).switchDomain (bitsOf d 0 0)
  | .tbsIoCtrl => s.afterIo
  | .tbsSynceCtrl => s.afterIo
  | .logCtrl => if bitOf d 29 then s.restartLog else s
  | .cntSnapReq => s.requestSnap (bitOf d 31) (bitsOf d 30 30) (bitsOf d 3 0)
  | .mcxHistIndex => s.showHistory i
  | .lifeSensorSel => s.syncLife
  | .mbxSqDb => s.sqDoorbell i (bitsOf d 15 0)
  | .mbxCqDb => s.cqDoorbell i (bitOf d 31) (bitsOf d 15 0)
  | .ringDb => s.ringDoorbell (bitsOf d 31 26) (bitOf d 25) (bitsOf d 15 0)
  | _ => s

/-- A register instance written by host software (R446). MBX_CTRL, PCI_CTRL and MCX_PC_HOLD act by what changes in them. -/
def State.writeReg (s : State) (r : Reg) (i off : Nat) (data : BitVec 32) : State :=
  match r with
  | .mbxCtrl => (List.range 9).foldl (State.writeMbxEn data) (s.setB F.mbxCtrl_smbEn 0 (bitOf data.toNat 9))
  | .pciCtrl => s.writeDmaStop (bitOf data.toNat 0)
  | .mcxPcHold => s.writeHold i data.toNat
  | r =>
    if r.ofPort && !s.portExists i then s.writeAbsent r i off data
    else
    let (w, hit) := s.writeWord r i data
    let s1 := s.wr r i w
    (if hit then s1.accessError F.pciEvent_lockedWriteSeen off else s1).afterWrite r i data

/-- An access of JTAG is taken while its register port is open; any access while the device is out of reset (R581). -/
def State.accessible (s : State) (jtag : Bool) : Bool := s.alive && (!jtag || s.jtagOpen)

/-- REGISTER_WRITE (R3, R22, R100, R135, R444 to R446, R468, R568): a word written to a BAR, with all byte enables where
`full`. -/
def execRegisterWrite (bar addr data : Nat) (full jtag : Bool) (s : State) : Host.Outcome State Fault Refusal :=
  let off := addr / 4 * 4
  let w := BitVec.ofNat 32 data
  .next (
    if !s.accessible jtag then s
    else if bar == 4 then
      (if full && off < 0x1000 then
        { s with host := { s.host with msixTable := SMap.put 0 s.host.msixTable (off / 4) w.toNat } }
      else s)
    else
      match debugWord bar off, regAt bar off with
      | some n, _ =>
        if full then { s with host := { s.host with dbgMem := SMap.put 0 s.host.dbgMem n w.toNat } }
        else s.accessError F.pciEvent_partialWriteSeen off
      | none, some (r, i) =>
        if full then s.writeReg r i off w else s.accessError F.pciEvent_partialWriteSeen off
      | none, none => s.accessError F.pciEvent_unmappedSeen off)

/-! ## Reads (R72, R373, R445, R446, R523, R524) -/

/-- A field that shows what the model leaves out, the accesses of the last microsecond or the cycles of a lane or a write,
reads a free
value (R135, R189, R231, R400, R474; log entry 212). -/
def State.openField (s : State) (f : Fld) (i : Nat) : State := (s.setF f i s.freeVal).draw

/-- What a read finds brought up to date or latched before it. -/
def State.beforeRead (s : State) (r : Reg) (i : Nat) : State :=
  match r with
  | .tbsTimeFrac => s.latchTime
  | .cntWinData => if i == 0 then s.windowRead else s
  | .cntLiveData => if i == 0 then s.liveRead else s
  | .egsWheelStatus => s.syncWheel i
  | .fabStatus => s.syncFab
  | .fabBridgeLoad => s.syncFab
  | .mcxRetireLine => s.syncRetireLine i
  | .mcxUeRecent => s.syncUeRecent i
  | .mcxLoad => (s.openField F.mcxLoad_shardPeak i).openField F.mcxLoad_extPeak i
  | .fstHbmLoad => ((s.openField F.fstHbmLoad_missAcc i).openField F.fstHbmLoad_commitAcc i).openField F.fstHbmLoad_bgAccDiv2 i
  | .pciDmaStatus => s.openField F.pciDmaStatus_readsOut i
  | .mskStatus => s.openField F.mskStatus_updateBusy i
  | .prsStatus => s.openField F.prsStatus_laneBusy i
  | .lifeStatus => s.syncLife
  | .lifeHours => s.syncLife
  | .lifeSensorData => s.syncLife
  | _ => s

/-- The read-clear fields of a register instance cleared. -/
def State.clearRc (s : State) (r : Reg) (i : Nat) : State :=
  s.wr r i (r.fields.foldl (fun w f => if f.ty == .rc then withField w f.hi f.lo 0 else w) (s.rd r i))

/-- REGISTER_READ_CLEAR (R72, R445, R446, R468, R568): a word read from a BAR; its RC fields are cleared in the same
access. -/
def execRegisterReadClear (bar addr : Nat) (jtag : Bool) (s : State) : Host.Outcome State Fault Refusal :=
  let off := addr / 4 * 4
  let say (t : State) (v : Nat) : State := t.emit (.regRead bar off v)
  .next (
    if !s.accessible jtag then s
    else if bar == 4 then say s (if off < 0x1000 then SMap.getD s.host.msixTable (off / 4) 0 else 0)
    else
      match debugWord bar off, regAt bar off with
      | some n, _ => say s (SMap.getD s.host.dbgMem n 0)
      | none, some (r, i) =>
        let s1 := s.beforeRead r i
        let s2 := (say s1 (s1.rd r i).toNat).clearRc r i
        if r == .cntWinData && i == 1 then s2.windowNext else s2
      | none, none => (say s 0).accessError F.pciEvent_unmappedSeen off)

end Sys2Proof.Machine
end

