-- ==== Sys2Proof/Machine/Epoch.lean ====
section
/-! DEFINITION. Policy epochs: swaps, drains and the epoch commands (R158 to R166). -/

namespace Sys2Proof.Machine

/-- Packets of an epoch in flight in the device (R161). -/
def State.inflightOf (s : State) (epoch : Nat) : Nat :=
  (s.pk.pkts.filter fun e => e.2.counted && e.2.epoch == epoch).length

/-- CLS_EPOCH.inflight_old of every pipeline follows the count. -/
def State.syncEpochs (s : State) : State := (List.range 32).foldl State.syncEpoch s

/-- A command that waited for a swap completes. -/
def State.swapDone (s : State) (cmd : Option (Nat × Nat)) : State :=
  match cmd with
  | some (m, c) => s.answer m c false .ok
  | none => s

/-- The swap-complete fault notification (R161, R164). -/
def State.reportSwap (s : State) (late : Bool) : State :=
  s.sendFault { s.faultArg 0x4104 0 s.epoch (b2n late) with late := late }

/-- A swap to the epoch already active: counted in every pipeline (R160). -/
def State.swapNoop (s : State) : State := (List.range 32).foldl (fun t n => t.count (C.clsEpochNoop n)) s

/-- The active epoch flips in every pipeline and the other one drains (R160, R161). -/
def State.flipEpoch (s : State) (target : Nat) (late stack : Bool) (cmd : Option (Nat × Nat)) : State :=
  let s1 := (s.setAll F.clsEpoch_active 32 target).setAll F.clsEpoch_draining 32 1
  let s2 := { s1 with cls := { s1.cls with drain := some ⟨1 - target, s.now, late, stack, cmd⟩ } }.syncEpochs
  if stack then { s2 with stk := { s2.stk with
    swapHold := true, swapWait := if s2.actingMaster then s2.otherMembers else [] } }
  else s2

/-- CLS_EPOCH.late_swap_pending is set while a swap is held (R164). -/
def State.setHeld (s : State) (held : List HeldSwap) : State :=
  { s with cls := { s.cls with heldSwaps := held } }.setAll F.clsEpoch_lateSwapPending 32 (b2n !held.isEmpty)

/-- Held swaps are applied in firing order, each with the late flag, until one of them drains (R164). -/
def State.applyHeld : List HeldSwap → State → State
  | [], s => s.setHeld []
  | ⟨t, k, c⟩ :: rest, s =>
    if t == s.epoch then State.applyHeld rest ((s.swapNoop.reportSwap true).swapDone c)
    else (s.setHeld rest).flipEpoch t true k c

/-- A swap reaches its instant (R160, R164): held while another drains; `late` is the flag of a firing (R63). A stack-wide
one swaps every member (R562). -/
def State.swapNow (s : State) (target : Nat) (stack : Bool) (cmd : Option (Nat × Nat)) (late : Bool := false) : State :=
  if s.getB F.clsEpoch_draining then s.setHeld (s.cls.heldSwaps ++ [⟨target, stack && s.stkFormed, cmd⟩])
  else if target == s.epoch then
    (let t := s.swapNoop.swapDone cmd
     if stack && s.stkFormed && !s.actingMaster then t.sendMaster .drained else t)
  else s.flipEpoch target late (stack && s.stkFormed) cmd

/-- EPOCH_SWAP_INSTANT (R160): the oldest swap of an epoch.swap takes effect at its boundary. -/
def execEpochSwapInstant (s : State) : Host.Outcome State Fault Refusal :=
  .next (match s.cls.pendingSwap with
    | r :: rest =>
      if s.now ≥ r.at_ then { s with cls := { s.cls with pendingSwap := rest } }.swapNow r.target r.stack r.cmd else s
    | [] => s)

/-- The stack's swap is complete: the master posts swap-complete and tells every member (R562). -/
def State.endStackSwap (s : State) (late : Bool) (cmd : Option (Nat × Nat)) : State :=
  let s1 := { s with stk := { s.stk with swapHold := false, swapOwn := none } }
  ((s1.reportSwap late).swapDone cmd).sendAll .swapDone

/-- This device's drain in a stack-wide swap has ended: a member reports it, the master waits for the members' (R562). -/
def State.drainedHere (s : State) (late : Bool) (cmd : Option (Nat × Nat)) : State :=
  if !s.actingMaster then s.sendMaster .drained
  else if s.stk.swapWait.isEmpty then s.endStackSwap late cmd
  else { s with stk := { s.stk with swapOwn := some (late, cmd) } }

/-- The drain that runs ends: swap-complete is reported and the next held swap applied (R161, R164). -/
def State.completeSwap (s : State) : State :=
  match s.cls.drain with
  | none => s
  | some ⟨_, _, late, stack, cmd⟩ =>
    let s1 := { s with cls := { s.cls with drain := none } }.setAll F.clsEpoch_draining 32 0
    let s2 := if stack then s1.drainedHere late cmd else (s1.reportSwap late).swapDone cmd
    State.applyHeld s2.cls.heldSwaps s2

/-- SWAP_COMPLETE (R161): the old epoch's device-wide count has reached zero. -/
def execSwapComplete (s : State) : Host.Outcome State Fault Refusal :=
  .next (match s.cls.drain with
    | some d => if s.inflightOf d.old == 0 then s.completeSwap else s
    | none => s)

/-- EPOCH_DRAIN_DEADLINE (R162): 8 µs after the swap instant every packet of the old epoch still counted is marked and
leaves the count. -/
def execEpochDrainDeadline (s : State) : Host.Outcome State Fault Refusal :=
  .next (match s.cls.drain with
    | none => s
    | some d =>
      if s.now < d.at_ + 8000 then s
      else
        let mark := fun (_ : Nat) (p : Pkt) =>
          if p.counted && p.epoch == d.old then { p with marked := true, counted := false } else p
        { s with pk := { s.pk with pkts := SMap.mapVal mark s.pk.pkts } }.syncEpochs.completeSwap)

/-- EPOCH_SWAP (R160, R164, R562): E_BUSY while a swap drains, and on a member of a formed stack that is not its acting
master, which
swaps every member at one instant. A request while an earlier one waits for its instant waits too (log entry 37). -/
def execEpochSwap (h : CmdHdr) (target : Nat) (s : State) : Host.Outcome State Fault Refusal :=
  .next (s.cmdLater (.epochSwap h target) h attrO [decide (target < 2)] fun s =>
    let at_ := boundaryAfter s.now 2000
    if s.getB F.clsEpoch_draining || s.stk.swapHold || (s.stkFormed && !s.actingMaster) then
      (s, some (.err eBusy))
    else if target == s.epoch then (s.swapNoop, some .ok)
    else (({ s with cls := { s.cls with
        pendingSwap := s.cls.pendingSwap ++ [SwapReq.mk target at_ s.stkFormed (some (h.mbx, h.cid))] } }).sendAll (.swap target at_), none))

/-- EPOCH_STATUS (R166): active epoch, draining, and the old epoch's packets in flight. -/
def execEpochStatus (h : CmdHdr) (s : State) : Host.Outcome State Fault Refusal :=
  .next (s.cmd (.epochStatus h) h attrNone [] fun s =>
    (s, .val [s.epoch, s.getF F.clsEpoch_draining, s.inflightOf (1 - s.epoch)]))

end Sys2Proof.Machine
end

