-- ==== Sys2Proof/Machine/Tec.lean ====
section
/-! DEFINITION. Entries of the timed-event calendar: their format, their checks and their arming (R58 to R60, R63). What
a firing does stands in Calendar.lean. -/

namespace Sys2Proof.Machine

/-- An entry as its words 7 to 1 give it, word 7 first (R58): its instant and period in nanoseconds. -/
def tecOf (ws : List Nat) (owner : Nat) : TecEntry :=
  let w (n : Nat) : Nat := wordAt ws (7 - n)
  { kind := bitsOf (w 7) 30 28, lateOk := bitOf (w 7) 27, stack := bitOf (w 7) 26,
    next := (bitsOf (w 7) 15 0 * 2 ^ 32 + w 6) * 1000000000 + bitsOf (w 5) 29 0,
    period := w 4 * 1000000000 + bitsOf (w 3) 29 0, arg0 := w 2, arg1 := w 1, owner := owner, fires := 0 }

/-- The arguments that tec.arm accepts for a kind (R60): arg0 and arg1. -/
def tecArgs (kind a b : Nat) : Bool × Bool :=
  match kind with
  | 0 => (decide (a ≤ 1), decide (1 ≤ b) && decide (b ≤ 15))
  | 1 => (decide (a ≤ 1), b == 0)
  | 2 => (decide (a ≤ 255), decide (b ≤ 1))
  | 3 => (a != 0, decide (b ≤ 15))
  | 4 => (decide (a ≤ 15), b != 0)
  | 5 => (decide (a ≤ 5), decide (1000 ≤ b) && decide (b ≤ 3000))
  | 6 => (decide (a ≤ 65535), true)
  | _ => (decide (a ≤ 63), true)

/-- The checks of an entry's words, in their order from word 7 to word 1 (R60, R63). -/
def tecWordsOk (ws : List Nat) : List Bool :=
  let w (n : Nat) : Nat := wordAt ws (7 - n)
  let (a, b) := tecArgs (bitsOf (w 7) 30 28) (w 2) (w 1)
  [ws.length == 7 && ws.all (fun v => decide (v < 2 ^ 32)) && bitOf (w 7) 31 && bitsOf (w 7) 25 16 == 0, true,
    bitsOf (w 5) 31 30 == 0, true, bitsOf (w 3) 31 30 == 0, a, b]

/-- Firings of an entry before an instant, at the instants of its grid from the next one on. -/
def TecEntry.before (e : TecEntry) (t : Nat) : Nat :=
  if e.period == 0 then b2n (decide (e.next < t)) else (t - e.next + e.period - 1) / e.period

/-- Firings of an entry in a 1 µs window of network time. -/
def TecEntry.inWindow (e : TecEntry) (w : Nat) : Nat := e.before (1000 * (w + 1)) - e.before (1000 * w)

/-- Some number below `n` has a property; the search goes downward and ends at the first found. -/
def anyBelow (p : Nat → Bool) : Nat → Bool
  | 0 => false
  | n + 1 => p n || anyBelow p n

/-- Some 1 µs window in which an entry would fire, up to 10 s from its first instant, would hold a 17th firing (R59). -/
def State.crowded (s : State) (e : TecEntry) : Bool :=
  let n := if e.period == 0 then 1 else 10000000000 / e.period + 1
  anyBelow (fun k =>
    let w := (e.next + k * e.period) / 1000
    decide (s.tm.tec.foldl (fun a o => a + o.2.inWindow w) (e.inWindow w) > 16)) n

/-- TEC_STATUS follows the entries (R72). -/
def State.syncTec (s : State) : State :=
  (s.setF F.tecStatus_armed 0 s.tm.tec.length).setF F.tecStatus_hostArmed 0
    (s.tm.tec.filter fun e => decide (256 ≤ e.1)).length

/-- The free indices of a span of the calendar. -/
def State.tecFree (s : State) (first n : Nat) : List Nat :=
  ((List.range n).map (· + first)).filter fun i => !SMap.has s.tm.tec i

/-- An entry put at an index. -/
def State.putTec (s : State) (i : Nat) (e : TecEntry) : State :=
  { s with tm := { s.tm with tec := SMap.set s.tm.tec i e } }.syncTec

/-- An entry removed; where it was armed for a stack's master, the master's handle names it no longer. -/
def State.delTec (s : State) (i : Nat) : State :=
  { s with
    tm := { s.tm with tec := SMap.del s.tm.tec i }
    stk := { s.stk with tecRefs := SMap.keep (fun _ v => v != i) s.stk.tecRefs } }.syncTec

/-- An entry takes one of the free indices of a span, which one the spec leaves open (log entry 4); or the code of its
refusal. -/
def State.armTec (s : State) (e : TecEntry) (first n : Nat) : State × Except Nat Nat :=
  if s.crowded e then (s, .error eBusy)
  else
    match s.tecFree first n with
    | [] => (s, .error eNospace)
    | l =>
      let i := l.getD (s.freeVal % l.length) 0
      (s.draw.putTec i e, .ok i)

/-- An entry of host software armed in one of its 3,840 places. -/
def State.armHost (s : State) (e : TecEntry) : State × Except Nat Nat := s.armTec e 256 3840

/-- An entry of Criod firmware armed in one of its 256 places; which thread owns it is left open. -/
def State.armFirmware (s : State) (e : TecEntry) : State × Except Nat Nat :=
  s.draw.armTec { e with owner := 0x8000 + s.freeVal % 64 } 0 256

end Sys2Proof.Machine
end

