-- ==== Sys2Proof/Machine/Export.lean ====
section
/-! DEFINITION. The crow's nest: IPFIX templates, records, messages, export windows (R527 to R534, R540). -/

namespace Sys2Proof.Machine

/-! ## Fields and templates (R528) -/

/-- The length of an element; none where the device does not export it. -/
def elementLength (enterprise : Bool) (id : Nat) : Option Nat :=
  if enterprise then
    (if id == 1 || id == 2 || id == 5 then some 1 else if id == 3 || id == 4 then some 4 else none)
  else if id == 4 || id == 136 then some 1
  else if id == 6 || id == 7 || id == 11 || id == 227 || id == 228 then some 2
  else if id == 8 || id == 12 || id == 225 || id == 226 || id == 234 then some 4
  else if id == 27 || id == 28 then some 16
  else if id == 85 || id == 86 || id == 148 || id == 152 || id == 153 then some 8
  else none

/-- A field may stand in a template. -/
def State.fieldOk (s : State) (f : TmplField) : Bool :=
  elementLength f.enterprise f.element == some f.length && !(f.enterprise && s.cnt.enterprise == 0)

/-- A template slot may be written. -/
def State.slotOk (s : State) (t : TmplSlot) : Bool :=
  t.tid == 0 || (decide (256 ≤ t.tid) && decide (t.tid ≤ 65535) && decide (1 ≤ t.fields.length)
    && decide (t.fields.length ≤ 32) && t.fields.all s.fieldOk)

/-- rev_mode of a record image (R201): only a standard record has one. -/
def iRevMode (size : Nat) (im : List Nat) : Nat := if size == 1 then bitsOf (wordAt im 28) 31 30 else 0

/-- The slot of a set that a record takes. -/
def exportSlot (size : Nat) (im : List Nat) : Option Nat :=
  let rev := iRevMode size im
  let two := rev == 1 || rev == 2 || iSecond im
  if bothMapped (iKey im) then (if two then some 2 else some 0)
  else if !two then some 1 else if size == 2 then some 3 else none

/-! ## Times (R532) -/

/-- A network time in nanoseconds as UTC milliseconds. -/
def State.utcMs (s : State) (t : Nat) : Nat := (t - s.tm.utcOffset * 1000000000) / 1000000

/-- The latest instant at or before now whose coarse value is `c`, in nanoseconds. -/
def State.coarseInstant (s : State) (c : Nat) : Nat :=
  let unit := s.now / 2 ^ 20
  Nat.min s.now ((unit - (unit + 2 ^ 32 - c % 2 ^ 32) % 2 ^ 32 + 1) * 2 ^ 20 - 1)

/-- flowStartMilliseconds: exact for a full record, coarse for a standard one, 0 for a lean one. -/
def State.flowStart (s : State) (size : Nat) (im : List Nat) : Nat :=
  if size == 2 then
    s.utcMs ((trunc 16 (wordAt im 51) * 2 ^ 32 + wordAt im 50) * 1000000000 + trunc 30 (wordAt im 49))
  else if size == 1 then s.utcMs (s.coarseInstant (wordAt im 30)) else 0

/-! ## Data records (R528) -/

/-- The value of a field for a record. -/
def State.fieldValue (s : State) (r : ExpRecord) (size : Nat) (im : List Nat) (f : TmplField) : Nat :=
  let key := iKey im
  let rev := iRevMode size im
  let full (v : Nat) : Nat := if size == 2 then v else 0
  let src := rev == 1 || tNatMode (s.templateOf key) == 3
  let second := (secondKey size im).getD []
  let six := exportSlot size im == some 3
  if f.enterprise then
    (match f.element with
      | 1 => kProfile key
      | 2 => b2n (bitOf (wordAt im 15) 18)
      | 3 => full (wordAt im 44)
      | 4 => full (wordAt im 43)
      | _ => bitsOf (wordAt im 15) 31 24)
  else
    match f.element with
    | 4 => kProto key
    | 6 => full (bitsOf (wordAt im 42) 31 24)
    | 7 => kSport key
    | 11 => kDport key
    | 8 => beAt (kSrc key) 12 4
    | 12 => beAt (kDst key) 12 4
    | 27 => numBE (kSrc key)
    | 28 => numBE (kDst key)
    | 85 => iBytes im
    | 86 => iPackets im
    | 136 => r.reason
    | 148 => r.handle
    | 152 => s.flowStart size im
    | 153 => s.utcMs (s.coarseInstant (iLastSeen im))
    | 225 => if src then iXlateAddr im else beAt (kSrc key) 12 4
    | 227 => if src then iXlatePort im else kSport key
    | 226 => if rev == 2 then iXlateAddr im else if six then beAt (kSrc second) 12 4 else beAt (kDst key) 12 4
    | 228 => if rev == 2 then iXlatePort im else if six then kSport second else kDport key
    | _ => beAt key 1 3

/-- A data record's bytes, its fields in network order. -/
def State.dataRecord (s : State) (r : ExpRecord) (size : Nat) (im : List Nat) (t : TmplSlot) : List Nat :=
  t.fields.flatMap fun f => bytesBE f.length (s.fieldValue r size im f)

/-! ## Messages (R529, R534) -/

/-- A set of a message: its ID, its length and its content. -/
def ipfixSet (id : Nat) (bs : List Nat) : List Nat := bytesBE 2 id ++ bytesBE 2 (bs.length + 4) ++ bs

/-- A message of a collector: the header, with the records its domain sent before, and the sets. -/
def State.ipfixMessage (s : State) (c : Nat) (domain : Nat) (sets : List (Nat × List Nat)) : List Nat :=
  let body := sets.flatMap fun e => ipfixSet e.1 e.2
  bytesBE 2 10 ++ bytesBE 2 (body.length + 16) ++ bytesBE 4 (s.tm.sec - s.tm.utcOffset)
    ++ bytesBE 4 (SMap.getD s.cnt.expSeq c 0) ++ bytesBE 4 domain ++ body

/-- The ring-copy header of a message (R335, R529), words 0 to 15. -/
def messageHeader (len : Nat) : List Nat :=
  (List.replicate 14 0 ++ [trunc 14 len <<< 18, 1 <<< 28 + 0xFF <<< 16 + len]).flatMap (bytesLE 4)

/-- A message as a UDP frame for a port collector, MAC addresses left to egress edit. What the spec leaves open, the IPv4
identification or the IPv6 flow label, is `open_`. -/
def messageFrame (c : Collector) (open_ : Nat) (msg : List Nat) : List Nat :=
  let len := msg.length + 8
  let n := if c.ipv6 then 16 else 4
  let src := bytesAt c.src 0 n
  let dst := bytesAt c.dst 0 n
  let udp (k : Nat) : List Nat := bytesBE 2 c.udpSrc ++ bytesBE 2 c.udpDst ++ bytesBE 2 len ++ bytesBE 2 k ++ msg
  let pseudo := src ++ dst ++ bytesBE 4 len ++ [0, 0, 0, 17]
  let all := pseudo ++ udp 0 ++ (if len % 2 == 1 then [0] else [])
  let sum := 65535 - fold16 (fold16 (ocSum (numBE all) (8 * all.length)))
  let csum := if sum == 0 then 65535 else sum
  let ip4 (k : Nat) : List Nat := [0x45, trunc 6 c.dscp <<< 2] ++ bytesBE 2 (len + 20) ++ bytesBE 2 (open_ % 2 ^ 16)
    ++ [0, 0, c.ttl % 256, 17] ++ bytesBE 2 k ++ src ++ dst
  let ip := if c.ipv6 then
      bytesBE 4 (6 <<< 28 + trunc 6 c.dscp <<< 22 + open_ % 2 ^ 20) ++ bytesBE 2 len ++ [17, c.ttl % 256] ++ src ++ dst
    else ip4 (65535 - fold16 (ocSum (numBE (ip4 0)) 160))
  List.replicate 12 0 ++ bytesBE 2 (if c.ipv6 then 0x86DD else 0x0800) ++ ip ++ udp csum

/-- A frame injected in direct mode on the collector's port (R332, R529): its pipeline is the port's (log entry 135). False
where the port refuses it. -/
def State.injectMessage (s : State) (c : Collector) (frame : List Nat) : State × Bool :=
  let pipe := pipeOf c.dest
  if s.getB F.fltStatus_barePoles then (s.count C.fltBarepolesDrop, false)
  else if s.furled then (s, false)
  else if s.pk.qmRestart.contains pipe then (s.count (C.iqmRestartDrop pipe), false)
  else
    let p0 := newPkt pipe 0 320 .finished s.epoch s.now16
    let p := { p0 with head := frame.take 256, cls := c.cls, arrCls := c.cls, noCt := true, counted := false,
                       direct := some (c.dest, c.cls, c.nextHop) }
    let (s1, id) := s.addPkt p
    let s2 := ((s1.injectBody id (frame.drop 256)).syncEpoch pipe).admitTo id
    (s2, SMap.has s2.pk.pkts id)

/-- A message's bytes given to its collector; false where they are lost (R534). -/
def State.deliverMessage (s : State) (c : Collector) (msg : List Nat) : State × Bool :=
  if c.isRing then s.ringCopyTo c.dest (messageHeader msg.length ++ msg)
  else s.draw.injectMessage c (messageFrame c s.freeVal msg)

/-- The message in building for a collector is sent, or dropped and counted; its records count toward the sequence number
either way, and its buffer is freed (R529, R534). -/
def State.sendMessage (s : State) (c : Nat) : State :=
  match SMap.find? s.cnt.expMessages c with
  | none => s
  | some m =>
    let dest := SMap.find? s.cnt.collectors c
    let bytes := s.ipfixMessage c (dest.elim 0 (·.domain)) m.sets
    let (s1, ok) := match dest with
      | some d => s.deliverMessage d bytes
      | none => (s, false)
    let s2 := s1.count (if ok then C.expMessages else C.expDropDest)
    let seq := (SMap.getD s2.cnt.expSeq c 0 + m.records) % 2 ^ 32
    ({ s2 with cnt := { s2.cnt with
        expMessages := SMap.del s2.cnt.expMessages c
        expSeq := SMap.put 0 s2.cnt.expSeq c seq } }).freeCtrl m.buf crowsNest

/-- The bytes a record adds to a message: a new set header where the last set is not of its template. -/
def ExpMessage.need (m : ExpMessage) (tid len : Nat) : Nat :=
  len + (match m.sets.getLast? with
    | some (t, _) => if t == tid then 0 else 4
    | none => 4)

/-- A data record put at a message's end. -/
def ExpMessage.put (m : ExpMessage) (tid : Nat) (bs : List Nat) : ExpMessage :=
  let sets := match m.sets.getLast? with
    | some (t, l) => if t == tid then m.sets.dropLast ++ [(t, l ++ bs)] else m.sets ++ [(tid, bs)]
    | none => [(tid, bs)]
  { m with sets := sets, size := m.size + m.need tid bs.length, records := m.records + 1 }

/-- A data record is put into its collector's message; a message it would not fit is sent first. False where it finds no
control buffer, or no message could hold it (log entry 136). -/
def State.addRecord (s : State) (c tid : Nat) (bs : List Nat) : State × Bool :=
  let s1 := match SMap.find? s.cnt.expMessages c with
    | some m => if m.size + m.need tid bs.length > s.cnt.msgMax then s.sendMessage c else s
    | none => s
  let put (t : State) (m : ExpMessage) : State :=
    { t with cnt := { t.cnt with expMessages := SMap.set t.cnt.expMessages c (m.put tid bs) } }
  if 20 + bs.length > s.cnt.msgMax then (s1.count C.expDropNobuf, false)
  else
    match SMap.find? s1.cnt.expMessages c with
    | some m => (put s1 m, true)
    | none =>
      match s1.takeCtrl 2040 crowsNest with
      | (s2, none) => (s2.count C.expDropNobuf, false)
      | (s2, some b) => (put s2 ⟨b, [], 16, 0, s2.now⟩, true)

/-- A template in a template message: its ID, its fields with their enterprise number. -/
def State.templateBytes (s : State) (t : TmplSlot) : List Nat :=
  bytesBE 2 t.tid ++ bytesBE 2 t.fields.length ++ t.fields.flatMap fun f =>
    bytesBE 2 (f.element + b2n f.enterprise <<< 15) ++ bytesBE 2 f.length
      ++ (if f.enterprise then bytesBE 4 s.cnt.enterprise else [])

/-- The templates of a set go to its collector, one message each (R529; log entry 137). -/
def State.sendTemplates (s : State) (t : TmplSet) : State :=
  (t.slots.filter fun e => e.tid != 0).foldl (fun u e =>
    match SMap.find? u.cnt.collectors t.collector with
    | none => u.count C.expDropDest
    | some d =>
      let (v, ok) := u.deliverMessage d (u.ipfixMessage t.collector d.domain [(2, u.templateBytes e)])
      v.count (if ok then C.expTemplateMsgs else C.expDropDest)) s

/-- Template messages go to every collector that serves a set. -/
def State.sendAllTemplates (s : State) : State :=
  s.cnt.tmplSets.foldl (fun t (e : Nat × TmplSet) => t.sendTemplates e.2)
    { s with cnt := { s.cnt with templatesAt := s.now } }

/-! ## Encoding (R530, R533, R534) -/

/-- The crow's nest's clear of a record it exported in a window (R533): it holds while word 15 is as read. -/
def State.exportClear (s : State) (handle size : Nat) (im : List Nat) : State :=
  let w := if size == 0 then 7 else 15
  let old := wordAt im 15
  let new := putBit (putBit old 17 false) 18 false
  let mark := if size == 1 then [TxWrite.recMask handle 16 (1 <<< 13) (List.replicate 13 0 ++ [iLastSeen im, 0, 0])] else []
  let ws := TxWrite.recMask handle 0 (1 <<< w) (List.replicate w 0 ++ [new]) :: mark
  let t := { Tx.new (5 * 4096) (ownerOf handle) ws with conds := [(handle, [⟨w, 0xFFFFFFFF, old⟩])] }
  let (s1, id) := s.openTx t
  s1.prepareTx id

/-- The last flowEndReason of a record is 3, or not (R530). -/
def State.noteReason (s : State) (r : ExpRecord) : State :=
  let rest := s.cnt.expLast3.filter (· != r.handle)
  { s with cnt := { s.cnt with expLast3 := if r.reason == 3 && !r.isEnd then rest ++ [r.handle] else rest } }

/-- EXPORT_ENCODE (R528, R530, R532 to R534): the next record of the queue is read and encoded, and its reference
released. A record lost since in a declared state loss is not exported. -/
def execExportEncode (s : State) : Host.Outcome State Fault Refusal :=
  .next (match s.nextExport with
    | none => s
    | some q =>
      let s1 := { s with cnt := { s.cnt with expQueue := s.cnt.expQueue.erase q } }.shrinkQueue
      match s1.recNow q.handle with
      | none => s1
      | some r =>
        let im := toImage r.size r.words
        let ts := SMap.getD s1.cnt.tmplSets q.set ⟨0, []⟩
        let slot := (exportSlot r.size im).bind fun i => ts.slots[i]?
        let s2 := match slot.filter fun t => t.tid != 0 with
          | none => s1.count C.expNoTemplate
          | some t =>
            match s1.addRecord ts.collector t.tid (s1.dataRecord q r.size im t) with
            | (s2, false) => s2
            | (s2, true) =>
              let s3 := (s2.count C.expRecords).noteReason q
              if q.isEnd then s3 else s3.exportClear q.handle r.size im
        s2.refHeap q.handle crowsNest false)

/-! ## Export windows (R531) -/

/-- A TEC firing of kind 4: a window of the set opens for `ms` ms, and its walk starts, or goes on. -/
def State.openExportWindow (s : State) (set ms : Nat) : State :=
  let stop := s.now + 1000000 * ms
  let w := match SMap.find? s.cnt.expWindows set with
    | some w => if w.walking then { w with open_ := true, endAt := stop } else ⟨true, stop, 0, 0, true⟩
    | none => ⟨true, stop, 0, 0, true⟩
  { s with cnt := { s.cnt with expWindows := SMap.set s.cnt.expWindows set w } }

/-- The flowEndReason of a record that a walk visits; none where it is not exported. -/
def exportReason (prof : List Nat) (set size : Nat) (im : List Nat) : Option Nat :=
  if pExport prof == 0 || pExpSet prof != set || !iLive im then none
  else if iExportPending im then some 3
  else if pExpInterval prof && (size != 1 || decide (wrapDiff (iLastSeen im) (iExportMark im) 32 > 0)) then some 2
  else none

/-- One record of a block visited: a record that is due is referenced and queued. -/
def State.visitExport (set : Nat) (s : State) (handle : Nat) : State :=
  match s.recNow handle with
  | none => s
  | some r =>
    let im := toImage r.size r.words
    match exportReason (SMap.getD s.cls.flowProf (kProfile (iKey im)) []) set r.size im with
    | none => s
    | some why =>
      if s.cnt.expQueue.any fun q => q.handle == handle then s
      else if iRefcount im ≥ 255 then s.refHeap handle crowsNest true
      else
        match s.queueExport ⟨handle, set, why, false⟩ with
        | (t, false) => t
        | (t, true) => t.refHeap handle crowsNest true

/-- The place after a block in a walk: the next block of its shard, else the first of the next shard. -/
def State.nextBlock (s : State) (w : ExpWindow) : ExpWindow :=
  if w.cursorBlock + 1 < s.ageBlocks then { w with cursorBlock := w.cursorBlock + 1 }
  else if w.cursorShard + 1 < 32 then { w with cursorBlock := 0, cursorShard := w.cursorShard + 1 }
  else { w with cursorBlock := 0, cursorShard := 0, walking := false }

/-- EXPORT_WALK_VISIT (R531): the walk of a set's open window visits the block at its cursor. -/
def execExportWalkVisit (set : Nat) (s : State) : Host.Outcome State Fault Refusal :=
  .next (match SMap.find? s.cnt.expWindows set with
    | none => s
    | some w =>
      if !w.open_ || !w.walking || !s.cnt.expEnabled then s
      else
        let base := w.cursorShard * 2 ^ 24 + 128 * w.cursorBlock
        let live := s.fst.ageBits.filter fun e => bitOf e.2 0 && decide (base ≤ e.1) && decide (e.1 < base + 128)
        let s1 := (live.map Prod.fst).foldl (State.visitExport set) s
        { s1 with cnt := { s1.cnt with expWindows := SMap.set s1.cnt.expWindows set (s1.nextBlock w) } })

/-- EXPORT_WINDOW_CLOSE (R529, R531): a set's window has run its length; an unfinished walk keeps its cursor, and the
message of the set's collector is sent. -/
def execExportWindowClose (set : Nat) (s : State) : Host.Outcome State Fault Refusal :=
  .next (match SMap.find? s.cnt.expWindows set with
    | none => s
    | some w =>
      if !w.open_ || s.now < w.endAt then s
      else
        let s1 := { s with cnt := { s.cnt with
          expWindows := SMap.set s.cnt.expWindows set { w with open_ := false } } }
        let s2 := if w.walking then s1.count C.expWindowShort else s1
        match SMap.find? s2.cnt.tmplSets set with
        | some t => s2.sendMessage t.collector
        | none => s2)

/-- EXPORT_MESSAGE_TIMER (R529): 1 ms after a message's first record. -/
def execExportMessageTimer (collector : Nat) (s : State) : Host.Outcome State Fault Refusal :=
  .next (match SMap.find? s.cnt.expMessages collector with
    | none => s
    | some m => if s.now < m.first + 1000000 then s else s.sendMessage collector)

/-- TEMPLATE_RESEND (R529): every 60 s while export is enabled. -/
def execTemplateResend (s : State) : Host.Outcome State Fault Refusal :=
  .next (if !s.cnt.expEnabled || s.now < s.cnt.templatesAt + 60000000000 then s else s.sendAllTemplates)

/-! ## Commands (R540) -/

/-- A set is in use: its window is open or records of it are queued (R528). -/
def State.setInUse (s : State) (set : Nat) : Bool :=
  (SMap.find? s.cnt.expWindows set).elim false (·.open_) || s.cnt.expQueue.any fun q => q.set == set

/-- EXP_TEMPLATE_SET (`exp.template_set`, R528): the data buffer's 8 header bytes and its template slots. -/
def execExpTemplateSet (h : CmdHdr) (set : Nat) (header : List Nat) (slots : List TmplSlot) (s : State) :
    Host.Outcome State Fault Refusal :=
  .next (s.cmd (.expTemplateSet h set header slots) h attrNone [decide (set ≤ 15),
      header.length == 8 && (header.drop 1).all (· == 0) && decide (header.getD 0 0 ≤ 7) && slots.length == 4
        && slots.all s.slotOk] fun s =>
    if s.setInUse set then (s, .err eBusy)
    else
      let t : TmplSet := ⟨header.getD 0 0, slots⟩
      (({ s with cnt := { s.cnt with tmplSets := SMap.set s.cnt.tmplSets set t } }).sendTemplates t, .ok))

/-- A collector's fields are in range. -/
def collectorOk (c : Collector) : Bool :=
  decide (c.domain < 2 ^ 32) && (if c.isRing then decide (c.dest < 64) else
    decide (c.dest < 256) && decide (c.cls < 8) && decide (c.nextHop < 2 ^ 18) && decide (c.dscp < 64)
      && decide (c.ttl < 256) && decide (c.udpSrc < 65536) && decide (c.udpDst < 65536)
      && c.src.length == (if c.ipv6 then 16 else 4) && c.dst.length == (if c.ipv6 then 16 else 4))

/-- EXP_COLLECTOR_SET (`exp.collector_set`, R529, R540). -/
def execExpCollectorSet (h : CmdHdr) (collector : Nat) (dest : Collector) (s : State) :
    Host.Outcome State Fault Refusal :=
  .next (s.cmd (.expCollectorSet h collector dest) h attrNone [decide (collector ≤ 7), collectorOk dest] fun s =>
    let used := s.cnt.tmplSets.any fun e => e.2.collector == collector && s.setInUse e.1
    let other := (SMap.find? s.cnt.collectors collector).any fun c => c.isRing != dest.isRing
    if used && other then (s, .err eBusy)
    else ({ s with cnt := { s.cnt with collectors := SMap.set s.cnt.collectors collector dest } }, .ok))

/-- The repeating entry by which firmware opens the windows of an interval (R531); the old one goes. -/
def State.armInterval (s : State) (interval set : Nat) : State :=
  let old := (s.tm.tec.filter fun e => decide (e.1 < 256) && e.2.kind == 4).map Prod.fst
  let s1 := old.foldl (fun t i => t.delTec i) s
  if interval == 0 then s1
  else
    let p := interval * 1000000000
    let e : TecEntry := ⟨4, false, false, ((s1.now + 2000 + p - 1) / p) * p, p, set, interval * 500, 0, 0⟩
    (s1.armFirmware e).1

/-- EXP_CONFIG (`exp.config`, R528, R529, R531). -/
def execExpConfig (h : CmdHdr) (enable : Bool) (interval defaultSet msgMax enterprise : Nat) (s : State) :
    Host.Outcome State Fault Refusal :=
  .next (s.cmd (.expConfig h enable interval defaultSet msgMax enterprise) h attrNone
      [true, decide (interval ≤ 86400), decide (defaultSet ≤ 15),
      decide (512 ≤ msgMax) && decide (msgMax ≤ 1400), decide (enterprise < 2 ^ 32)] fun s =>
    let was := s.cnt.expEnabled
    let s1 := ({ s with cnt := { s.cnt with
      expEnabled := enable, expInterval := interval, expDefaultSet := defaultSet, msgMax := msgMax,
      enterprise := enterprise } }).armInterval interval defaultSet
    (if enable && !was then s1.sendAllTemplates else s1, .ok))

/-- EXP_STATUS (`exp.status`): the nine EXP and CNT counters of R541 as word pairs, buffers held, the sets whose window is
open, and each window's set and cursor. -/
def execExpStatus (h : CmdHdr) (s : State) : Host.Outcome State Fault Refusal :=
  .next (s.cmd (.expStatus h) h attrNone [] fun s =>
    let ctrs := (List.range 9).flatMap fun i =>
      let v := (s.ctr (globCtr (48 + i))).value
      [v % 2 ^ 32, v / 2 ^ 32]
    let open_ := s.cnt.expWindows.foldl (fun a (e : Nat × ExpWindow) => putBit a e.1 e.2.open_) 0
    let cursors := List.flatMap (fun (e : Nat × ExpWindow) => [e.1, e.2.cursorShard, e.2.cursorBlock]) s.cnt.expWindows
    (s, .bulkOf [] (ctrs ++ [s.cnt.expQueueBufs.length + s.cnt.expMessages.length, open_] ++ cursors)))

end Sys2Proof.Machine
end

