-- ==== Sys2Proof/Machine/Calendar.lean ====
section
/-! DEFINITION. The halyard bus, step frames and the timed-event calendar (R37 to R40, R58 to R65, R520, R561). -/

namespace Sys2Proof.Machine

/-! ## Firings (R59 to R62) -/

/-- A firing is counted, with its flags (R62, R72). -/
def State.noteFiring (s : State) (late stepped : Bool) : State :=
  let s1 := s.setF F.tecFireCount_fires 0 (s.getF F.tecFireCount_fires + 1)
  let s2 := if s1.locked then s1 else s1.addF F.tecFlagCount_unlocked 0 1
  let s3 := if late then s2.addF F.tecFlagCount_late 0 1 else s2
  if stepped then s3.addF F.tecFlagCount_stepped 0 1 else s3

/-- What a firing of a kind does at instant `t` (R60). -/
def State.fire (s : State) (kind a b t : Nat) (stack late : Bool) : State :=
  match kind with
  | 0 => s.fireSnap a b t stack
  | 1 => s.swapNow a stack none late
  | 2 => s.gatePend a b t late
  | 3 => ((List.range 32).filter fun k => bitOf a k).foldl (fun u k => u.startSweep k b) s
  | 4 => s.openExportWindow a b
  | 5 => s.openTrain a b
  | 6 => s.logWrite { s.logBase 4 with code := a, detail0 := b }
  | _ => (s.setThread a { s.thread a with wakeWord := b }).latch a evWake

/-- The first window after `w` that has room for another deferred firing (R59). -/
def State.deferWindow (s : State) (w : Nat) : Nat :=
  let n := s.tm.deferred.length / 16 + 1
  let full (v : Nat) : Bool := decide ((s.tm.deferred.filter fun d => d.at_ == (v + 3) * 1000).length ≥ 16)
  (((List.range n).map fun k => w + 1 + k).find? fun v => !full v).getD (w + 1 + n)

/-- A firing that falls due is dispatched, or deferred past the 16 of its window (R59). -/
def State.dispatchFiring (s : State) (i : Nat) (e : TecEntry) (t : Nat) (late stepped : Bool) : State :=
  let w := s.now / 1000
  let s0 : State := if s.tm.tecWindow == w then s else { s with tm := { s.tm with tecWindow := w, tecCount := 0 } }
  let used := s0.tm.tecCount + (s0.tm.deferred.filter fun d => d.at_ == (w + 3) * 1000).length
  if used < 16 then
    (({ s0 with tm := { s0.tm with tecCount := s0.tm.tecCount + 1 } }).noteFiring late stepped).fire e.kind e.arg0 e.arg1 t
      e.stack late
  else
    let d : Deferred := ⟨i, e.kind, e.arg0, e.arg1, e.stack, stepped, (s0.deferWindow w + 3) * 1000⟩
    { s0 with tm := { s0.tm with deferred := s0.tm.deferred ++ [d] } }

/-- The first instant of an entry's grid that is at least `t`. -/
def TecEntry.resumeAt (e : TecEntry) (t : Nat) : Nat :=
  if e.next ≥ t || e.period == 0 then e.next else e.next + ceilDiv (t - e.next) e.period * e.period

/-- An entry after a firing: a one-shot is gone, a repeating one goes on at `next`. -/
def State.firedTec (s : State) (i : Nat) (e : TecEntry) (next : Nat) : State :=
  if e.period == 0 then s.delTec i else s.putTec i { e with next := next, fires := satAdd 65535 e.fires 1 }

/-- The order of firings: instant, kind, index (R61). -/
def firesBefore (a b : Nat × TecEntry) : Bool :=
  decide (a.2.next < b.2.next) || (a.2.next == b.2.next && (decide (a.2.kind < b.2.kind)
    || (a.2.kind == b.2.kind && decide (a.1 < b.1))))

/-- The entry that fires first among those due by `t`. -/
def State.firstDue (s : State) (t : Nat) : Option (Nat × TecEntry) :=
  (s.tm.tec.filter fun e => decide (e.2.next ≤ t)).foldl (fun best e =>
    match best with
    | none => some e
    | some b => if firesBefore e b then some e else best) none

/-- TEC_FIRING (R59 to R62): the first entry that is due fires at its instant. -/
def execTecFiring (s : State) : Host.Outcome State Fault Refusal :=
  .next (match s.firstDue s.now with
    | none => s
    | some (i, e) => (s.firedTec i e (e.next + e.period)).dispatchFiring i e e.next false false)

/-- TEC_DEFERRED_FIRING (R59): a deferred firing takes effect, with the late flag. -/
def execTecDeferredFiring (s : State) : Host.Outcome State Fault Refusal :=
  .next (match s.tm.deferred with
    | [] => s
    | d :: rest =>
      if s.now < d.at_ then s
      else
        (({ s with tm := { s.tm with deferred := rest } }).noteFiring true d.stepped).fire d.kind d.arg0 d.arg1 d.at_ d.stack
          true)

/-! ## Halyard and step frames (R37 to R40, R65) -/

/-- The timestamp that a point took at `t` since the last halyard frame, as far as its copy shows (R39). -/
def State.takenSince (s : State) (point t : Nat) : Bool :=
  decide ((t : Int) - (SMap.getD s.tm.points point TsPoint.good).off ≥ (s.tm.lastFrame * 2 ^ 16 : Nat))

/-- The timestamps that a point took since the previous frame carry the invalid flag: ingress times of packets and of frames
still arriving, launch instants, the PPS_IN edge that waits (R39, R40). -/
def State.markInvalid (s : State) (point : Nat) : State :=
  let plane := s.getF F.portTsLatency_rxLat point * 2 ^ 10
  let pkt := fun (_ : Nat) (p : Pkt) =>
    if p.inPort == point && p.src == p.inPort && s.takenSince point (p.tIn + plane) then { p with tInvalid := true } else p
  let copy := fun (_ : Nat) (c : Copy) =>
    if c.port == point && c.stage == .transmitting && s.takenSince point c.launch then { c with launchInvalid := true } else c
  let rx := fun (p : Nat) (r : Rx) => if p == point && s.takenSince point (r.tIn + plane) then { r with tInvalid := true } else r
  let res := fun (_ : Nat) (l : List ResEntry) =>
    l.map fun e => if (e.port == point && decide (e.at_ ≥ s.tm.lastFrame))
        || (e.inPort == point && s.takenSince point (e.tIn + plane)) then { e with invalid := true } else e
  let pps := s.tm.ppsWaiting.map fun e =>
    if point == inputPoint && s.takenSince point e.time then { e with invalid := true } else e
  { s with
    tm := { s.tm with ppsWaiting := pps, residence := SMap.mapVal res s.tm.residence }
    pk := { s.pk with
      pkts := SMap.mapVal pkt s.pk.pkts, copies := SMap.mapVal copy s.pk.copies, rx := SMap.mapVal rx s.pk.rx } }

/-- A timestamp point's copy differs from the frame by more than 1 ns (R39): it takes the frame's value, its timestamps
since the
last frame are invalid, and the third mismatch within 1 s is a condition. -/
def State.mismatch (s : State) (point : Nat) : State :=
  let old := (SMap.getD s.tm.points point TsPoint.good).mismatches
  let seen := s.now :: old.filter fun t => decide (t + 1000000000 > s.now)
  let s0 := s.markInvalid point
  let s1 : State := { s0 with tm := { s0.tm with points := SMap.set s0.tm.points point ⟨0, true, seen⟩ } }
  let s2 := s1.raise 0x0501 point point
  if seen.length ≥ 3 && !(s2.flt.live.any fun l => l.code == 0x0502 && l.instance_ == point) then s2.raise 0x0502 point point
  else s2

/-- A timestamp point found its copy good: its timestamps are valid again (R39). -/
def State.pointGood (s : State) (point : Nat) (p : TsPoint) : State :=
  let recent := p.mismatches.filter fun t => decide (t + 1000000000 > s.now)
  let s1 : State := { s with tm := { s.tm with
    points := SMap.put TsPoint.good s.tm.points point { p with invalid := false, mismatches := recent } } }
  if recent.isEmpty then s1.endCondition 0x0502 point else s1

/-- A point checks its copy against the frame (R37, R39). -/
def State.checkPoint (s : State) (point : Nat) (p : TsPoint) : State :=
  if p.off.natAbs > 2 ^ 16 then s.mismatch point else s.pointGood point p

/-- A point's copy is upset by a difference, in 2^-16 ns. -/
def State.upsetPoint (s : State) (point : Nat) (d : Int) : State :=
  let p := SMap.getD s.tm.points point TsPoint.good
  { s with tm := { s.tm with points := SMap.put TsPoint.good s.tm.points point { p with off := p.off + d } } }

/-- A 1 µs boundary of network time has come since `t` ns. -/
def State.boundarySince (s : State) (t : Nat) : Bool := s.now / 1000 != t / 1000

/-- HALYARD_FRAME (R37, R39): the frame of a 1 µs boundary, against which every point checks its copy; `deviations` are the
points whose copy is upset after it, with by how much in 2^-16 ns (log entry 234). -/
def execHalyardFrame (deviations : List (Nat × Int)) (s : State) : Host.Outcome State Fault Refusal :=
  .next (if !s.boundarySince s.tm.lastFrame then s
    else
      let s1 := s.tm.points.foldl (fun t e => t.checkPoint e.1 e.2) s
      let s2 := deviations.foldl (fun t d => t.upsetPoint d.1 d.2) s1
      { s2 with tm := { s2.tm with lastFrame := s2.now } })

/-- Entries whose instants a forward step has skipped fire at once, in order, each once (R65). -/
def State.fireSkipped (fuel : Nat) (s : State) : State :=
  match fuel, s.firstDue s.now with
  | fuel + 1, some (i, e) =>
    State.fireSkipped fuel ((s.firedTec i e (e.resumeAt (s.now + 1))).dispatchFiring i e s.now false true)
  | _, _ => s

/-- STEP_FRAME (R40, R49, R65, R225, R355, R526): the step that waits is applied once a 1 µs boundary of network time has come
since the offset that asks for it; every timestamp point applies it there. -/
def execStepFrame (s : State) : Host.Outcome State Fault Refusal :=
  .next (match s.tm.stepPending with
    | none => s
    | some theta =>
      if !s.boundarySince (s.tm.t1 / 2 ^ 16).toNat then s
      else
      let old := s.now
      let s1 := s.examineAll.applyStep theta
      let s2 := if s1.now > old then s1.fireSkipped s1.tm.tec.length else s1
      s2.restep.regridAll.restartIdle)

/-! ## Commands (R58 to R64, R520, R561) -/

/-- An entry armed for the host (R59, R63): one whose instant is not 2 µs away fires at once with the late flag, and a
repeating one resumes on its grid. -/
def State.armEntry (s : State) (e : TecEntry) : State × Except Nat Nat :=
  if e.next ≥ s.now + 2000 then s.armHost e
  else
    match s.armHost { e with next := e.resumeAt (s.now + 2000) } with
    | (s1, .error c) => (s1, .error c)
    | (s1, .ok i) =>
      match SMap.find? s1.tm.tec i with
      | none => (s1, .ok i)
      | some x => ((s1.firedTec i x x.next).dispatchFiring i x s.now true false, .ok i)

/-- Words 7 to 1 of an entry, word 7 first (R58). -/
def TecEntry.words (e : TecEntry) : List Nat :=
  let sec := e.next / 1000000000
  [2 ^ 31 + e.kind <<< 28 + b2n e.lateOk <<< 27 + b2n e.stack <<< 26 + sec / 2 ^ 32 % 2 ^ 16, sec % 2 ^ 32,
   e.next % 1000000000, e.period / 1000000000 % 2 ^ 32, e.period % 1000000000, e.arg0, e.arg1]

/-- A host's entry armed, on every member where it has the stack flag (R561); the command answers with the handle. -/
def State.armCmd (s : State) (h : CmdHdr) (e : TecEntry) : State × Option Rsp :=
  if e.stack && !s.actingMaster then (s, some (.err eInval))
  else if e.next < s.now + 2000 && !e.lateOk then (s, some (.err eInval))
  else
    match s.armEntry e with
    | (s1, .error c) => (s1, some (.err c))
    | (s1, .ok i) =>
      if e.stack && s1.stkFormed && !s1.otherMembers.isEmpty then
        let a : StkArm := ⟨i, h.mbx, h.cid, h.noIrq, [i], s1.otherMembers⟩
        (({ s1 with stk := { s1.stk with arms := s1.stk.arms ++ [a] } }).sendAll (.arm i e.words), none)
      else (s1, some (.val [i]))

/-- TEC_ARM (`tec.arm`, R58 to R60, R63, R561). -/
def execTecArm (h : CmdHdr) (words : List Nat) (s : State) : Host.Outcome State Fault Refusal :=
  .next (s.cmdLater (.tecArm h words) h attrNone (tecWordsOk words) fun s => s.armCmd h (tecOf words h.mbx))

/-- TEC_CANCEL (`tec.cancel`, R64, R561). -/
def execTecCancel (h : CmdHdr) (handle : Nat) (s : State) : Host.Outcome State Fault Refusal :=
  .next (s.cmd (.tecCancel h handle) h attrNone [] fun s =>
    if handle < 256 then (s, .err eNoent)
    else
      match SMap.find? s.tm.tec handle with
      | none => (s, .err eNoent)
      | some e =>
        if e.next < s.now + 2000 then (s, .err eBusy)
        else
          let s1 := s.delTec handle
          (if e.stack && s.actingMaster then s1.sendAll (.disarm handle) else s1, .ok))

/-- CNT_SNAPSHOT_AT (`cnt.snapshot_at`, R520, R561): a one-shot entry of kind 0; the instant in nanoseconds. -/
def execCntSnapshotAt (h : CmdHdr) (bank groups instant : Nat) (stack : Bool) (s : State) :
    Host.Outcome State Fault Refusal :=
  .next (s.cmdLater (.cntSnapshotAt h bank groups instant stack) h attrNone
      [decide (bank ≤ 1), decide (1 ≤ groups) && decide (groups ≤ 15)] fun s =>
    s.armCmd h ⟨0, false, stack, instant, 0, bank, groups, h.mbx, 0⟩)

end Sys2Proof.Machine
end

