-- ==== Sys2Proof/Machine/EgressCmds.lean ====
section
/-! DEFINITION. The commands of the queues, replication, mirroring, egress and redundancy, failover's revert, the rewrite
table's repair and the latent-error test (R325, R334, R337, R338, R342, R347, R362, R364, R367, R368, R370, R371). -/

namespace Sys2Proof.Machine

/-! ## Queues (R342) -/

/-- IQM_PROFILE_SET (R311, R342). -/
def execIqmProfileSet (h : CmdHdr) (profile cls minCells alpha maxCells yellow red ageLimit : Nat) (s : State) :
    Host.Outcome State Fault Refusal :=
  .next (s.cmd (.iqmProfileSet h profile cls minCells alpha maxCells yellow red ageLimit) h attrNone
    [decide (profile < 32), decide (cls < 8), decide (minCells < 1024), decide (alpha < 10),
     decide (1 ≤ maxCells) && decide (maxCells ≤ 24576), decide (yellow ≤ 8), decide (red ≤ 8),
     decide (1 ≤ ageLimit) && decide (ageLimit ≤ 2000000)]
    fun s =>
      let v : QClass := ⟨minCells, alpha, maxCells, yellow, red, ageLimit⟩
      let s1 := { s with pk := { s.pk with qprof := SMap.put QClass.reset s.pk.qprof (8 * profile + cls) v } }
      if s1.reservesFit then (s1, .ok) else (s, .err eNospace))

/-- A session number that may be absent. -/
def sessionOk (n : Option Nat) : Bool := n.elim true fun m => decide (m < 64)

/-- IQM_PORT_CONFIG (R308, R311, R334, R338, R342). -/
def execIqmPortConfig (h : CmdHdr) (port profile : Nat) (pcpMap : List Nat) (defClass : Nat)
    (inSession egSession : Option Nat) (sampleN : Nat) (s : State) : Host.Outcome State Fault Refusal :=
  .next (s.cmd (.iqmPortConfig h port profile pcpMap defClass inSession egSession sampleN) h attrNone
    [decide (port < 256), decide (profile < 32), pcpMap.length == 8 && pcpMap.all fun c => decide (c < 8),
     decide (defClass < 8), sessionOk inSession, sessionOk egSession, decide (sampleN ≤ 2 ^ 24)]
    fun s =>
      if !s.portExists port && (s.linkOfPort port).isNone then (s, .err eNoent)
      else
        let v : QPort := ⟨profile, pcpMap, defClass, inSession, egSession, sampleN⟩
        let s1 := { s with pk := { s.pk with qports := SMap.put QPort.reset s.pk.qports port v } }
        if s1.reservesFit then (s1, .ok) else (s, .err eNospace))

/-- IQM_GLOBAL_CONFIG (R310, R339, R342, R344): the fields of IQM_CTRL go to all 32 instances. -/
def execIqmGlobalConfig (h : CmdHdr) (arrivalReserve mcReserve mirrorMax copyRate sampleLen : Nat) (ctEn : Bool)
    (s : State) : Host.Outcome State Fault Refusal :=
  .next (s.cmd (.iqmGlobalConfig h arrivalReserve mcReserve mirrorMax copyRate sampleLen ctEn) h attrNone
    [true, true, true,
     decide (1 ≤ copyRate) && decide (copyRate ≤ 255), decide (64 ≤ sampleLen) && decide (sampleLen ≤ 512)]
    fun s =>
      let s1 := { s with pk := { s.pk with
        arrivalReserve := arrivalReserve, mcReserve := mcReserve, mirrorMax := mirrorMax } }
      if !s1.reservesFit then (s, .err eNospace)
      else (((s1.setAll F.iqmCtrl_copyRate 32 copyRate).setAll F.iqmCtrl_sampleLen 32 sampleLen).setAll F.iqmCtrl_ctEn 32
        (b2n ctEn), .ok))

/-- IQM_TRAP_CONFIG (R337). -/
def execIqmTrapConfig (h : CmdHdr) (index : Nat) (toCriod : Bool) (ring trapLen : Nat) (s : State) :
    Host.Outcome State Fault Refusal :=
  .next (s.cmd (.iqmTrapConfig h index toCriod ring trapLen) h attrNone
    [decide (index < 4096), true, decide (ring < 64), decide (64 ≤ trapLen) && decide (trapLen ≤ 512)]
    fun s => ({ s with pk := { s.pk with traps := SMap.set s.pk.traps index ⟨toCriod, ring, trapLen⟩ } }, .ok))

/-- IQM_VOQ_STATUS (R342): occupancy in cells, credit balance, backlog bit, and the head's age in nanoseconds. -/
def execIqmVoqStatus (h : CmdHdr) (pipe port cls : Nat) (s : State) : Host.Outcome State Fault Refusal :=
  .next (s.cmd (.iqmVoqStatus h pipe port cls) h attrNone [decide (pipe < 32), decide (port < 256), decide (cls < 8)] fun s =>
    let k := voqKey pipe port cls
    let age := match s.voq pipe port cls with
      | [] => 0
      | e :: _ => (wrapDiff (shortTime (s.nowAt (pipePoint e.2.pipe))) e.2.tAdm 32 % 2 ^ 32).toNat
    (s, .val [s.voqCells pipe port cls, signedField 32 (SMap.getD s.pk.balance k 0), b2n (s.pk.backlog.contains k), age]))

/-- REPL_GROUP_SET (R325): a member is its egress port, its next hop and the class that overrides the frame's, if one
does. -/
def execReplGroupSet (h : CmdHdr) (group : Nat) (prune : Bool) (members : List (Nat × Nat × Option Nat)) (s : State) :
    Host.Outcome State Fault Refusal :=
  .next (s.cmd (.replGroupSet h group prune members) h attrNone
    [decide (group < 16384), true, decide (1 ≤ members.length) && decide (members.length ≤ 256)
      && members.all fun m => decide (m.1 < 256) && decide (m.2.1 < 2 ^ 18) && m.2.2.elim true fun c => decide (c < 8)]
    fun s =>
      let others := (s.pk.groups.filter fun e => e.1 != group).foldl (fun a e => a + e.2.members.length) 0
      if others + members.length > 262144 then (s, .err eNospace)
      else ({ s with pk := { s.pk with groups := SMap.set s.pk.groups group ⟨prune, members⟩ } }, .ok))

/-- MIRROR_SESSION_SET (R338). -/
def execMirrorSessionSet (h : CmdHdr) (session : Nat) (m : MirrorArg) (s : State) : Host.Outcome State Fault Refusal :=
  .next (s.cmd (.mirrorSessionSet h session m) h attrNone
    [decide (session < 64), decide (m.dest < 3), decide (m.port < 256), decide (m.cls < 8), decide (m.ring < 64),
     m.trunc == 0 || (decide (64 ≤ m.trunc) && decide (m.trunc ≤ 512)), true, true,
     m.srcAddr.length == (if m.ipv6 then 16 else 4), m.dstAddr.length == (if m.ipv6 then 16 else 4),
     decide (m.dscp < 64), decide (m.ttl < 256), decide (m.nextHop < 2 ^ 18)]
    fun s =>
      let v : MirrorSession := ⟨m.dest, m.port, m.cls, m.ring, m.trunc, m.gre, m.ipv6, m.srcAddr, m.dstAddr, m.dscp,
        m.ttl, m.nextHop⟩
      ({ s with pk := { s.pk with sessions := SMap.set s.pk.sessions session v } }, .ok))

/-- SMP_PROFILE_SET (R334). -/
def execSmpProfileSet (h : CmdHdr) (profile n : Nat) (s : State) : Host.Outcome State Fault Refusal :=
  .next (s.cmd (.smpProfileSet h profile n) h attrNone [decide (profile < 64), decide (n ≤ 2 ^ 24)] fun s =>
    ({ s with pk := { s.pk with sampleProf := SMap.put 0 s.pk.sampleProf profile n } }, .ok))

/-! ## Egress (R371) -/

/-- EGS_SCHED_CONFIG (R347, R348, R351): for each class whether it is weighted, and its weight; a configured class starts
with no deficit. -/
def execEgsSchedConfig (h : CmdHdr) (port : Nat) (classes : List (Bool × Nat)) (shapedMask : Nat) (s : State) :
    Host.Outcome State Fault Refusal :=
  .next (s.cmd (.egsSchedConfig h port classes shapedMask) h attrNone
    [decide (port < 256), classes.length == 8 && classes.all fun c => !c.1 || (decide (1 ≤ c.2) && decide (c.2 ≤ 127)),
     decide (shapedMask < 256)]
    fun s =>
      if !s.portExists port && (s.linkOfPort port).isNone then (s, .err eNoent)
      else
        let m := classes.zipIdx.foldl (fun a e =>
          SMap.put SchedClass.reset a (8 * port + e.2) (if e.1.1 then ⟨true, e.1.2, 0⟩ else SchedClass.reset)) s.egs.sched
        ({ s with egs := { s.egs with sched := m, portShaped := SMap.put 0 s.egs.portShaped port shapedMask } }, .ok))

/-- EGS_PORT_CONFIG (R348, R364, R371): gate_lead holds for every port of the egress pipeline. -/
def execEgsPortConfig (h : CmdHdr) (port : Nat) (frerElim : Bool) (gateLead : Nat) (s : State) :
    Host.Outcome State Fault Refusal :=
  .next (s.cmd (.egsPortConfig h port frerElim gateLead) h attrNone
      [decide (port < 256), true, decide (gateLead < 65536)] fun s =>
    if !s.portExists port then (s, .err eNoent)
    else
      let rest := s.egs.noElim.filter (· != port)
      let s1 := { s with egs := { s.egs with noElim := if frerElim then rest else port :: rest } }
      (s1.setF F.egsCtrl_gateLead (pipeOf port) gateLead, .ok))

/-- EGS_UNLOCKED_CONFIG (R362). -/
def execEgsUnlockedConfig (h : CmdHdr) (state mask : Nat) (s : State) : Host.Outcome State Fault Refusal :=
  .next (s.cmd (.egsUnlockedConfig h state mask) h attrNone [decide (state < 3), decide (mask < 256)] fun s =>
    ((s.setAll F.egsCtrl_unlockedGateState 32 state).setAll F.egsCtrl_unlockedMask 32 mask, .ok))

/-- EGS_REWRITE_SET (R370): words 0 to 3. -/
def execEgsRewriteSet (h : CmdHdr) (index : Nat) (words : List Nat) (s : State) : Host.Outcome State Fault Refusal :=
  .next (s.cmd (.egsRewriteSet h index words) h attrNone
    [decide (1 ≤ index) && decide (index < 65536),
     words.length == 4 && words.all (fun w => decide (w < 2 ^ 32)) && bitsOf (wordAt words 3) 25 16 == 0]
    fun s =>
      ({ s with egs := { s.egs with rewrites := SMap.set s.egs.rewrites index words,
                                    badRewrite := s.egs.badRewrite.filter (· != index) } }, .ok))

/-- REWRITE_ENTRY_REPAIR (R370): firmware has rewritten all 32 copies of an entry. -/
def execRewriteEntryRepair (index : Nat) (s : State) : Host.Outcome State Fault Refusal :=
  .next (if s.egs.badRewrite.contains index then
      { s with egs := { s.egs with badRewrite := s.egs.badRewrite.filter (· != index) } }.raise 0xB003 0 index
    else s)

/-- EGS_FAILOVER_CONFIG (R368). -/
def execEgsFailoverConfig (h : CmdHdr) (revertHoldoff : Nat) (s : State) : Host.Outcome State Fault Refusal :=
  .next (s.cmd (.egsFailoverConfig h revertHoldoff) h attrNone [decide (revertHoldoff ≤ 60000)] fun s =>
    ({ s with egs := { s.egs with revertHoldoff := revertHoldoff } }, .ok))

/-- FAILOVER_REVERT (R368): the link has been up for revert_holdoff. -/
def execFailoverRevert (port : Nat) (s : State) : Host.Outcome State Fault Refusal :=
  .next (match SMap.find? s.egs.revertAt port with
    | none => s
    | some t =>
      if s.tm.ticks < t || !s.linkUp port then s
      else
        let n := pipeOf port
        let s1 := { s with egs := { s.egs with
          down := s.egs.down.filter (· != port), revertAt := SMap.del s.egs.revertAt port } }
        ((s1.setBit F.egsStatus_nhDown n (port % 8) false).setF F.egsEvent_revertSeen n 1).raise 0xB007 n port)

/-! ## Latent errors (R367) -/

/-- RED_STATUS.monitors counts the enabled monitors. -/
def State.syncRed (s : State) : State := s.setF F.redStatus_monitors 0 s.egs.monitors.length

/-- RED_CONFIG (R367, R374). -/
def execRedConfig (h : CmdHdr) (latentEn : Bool) (period : Nat) (s : State) : Host.Outcome State Fault Refusal :=
  .next (s.cmd (.redConfig h latentEn period) h attrNone [true, decide (100 ≤ period) && decide (period ≤ 60000)] fun s =>
    ((s.setB F.redCtrl_latentEn 0 latentEn).setF F.redCtrl_latentPeriod 0 period, .ok))

/-- RED_MONITOR_SET (R367): a monitor with enable clear is not listed. -/
def execRedMonitorSet (h : CmdHdr) (monitor handle n threshold : Nat) (enable : Bool) (s : State) :
    Host.Outcome State Fault Refusal :=
  .next (s.cmd (.redMonitorSet h monitor handle n threshold enable) h attrNone
    [decide (monitor < 4096), decide (handle < 2 ^ 29), decide (2 ≤ n) && decide (n ≤ 8), decide (threshold < 2 ^ 32)]
    fun s =>
      let m := if enable then SMap.set s.egs.monitors monitor ⟨handle, n, threshold, 0, 0⟩
        else SMap.del s.egs.monitors monitor
      ({ s with egs := { s.egs with monitors := m } }.syncRed, .ok))

/-- |(n − 1) × passed − discarded| exceeds a monitor's threshold. -/
def Monitor.alarms (m : Monitor) : Bool :=
  let d : Int := ((m.paths - 1) * m.passed : Nat) - (m.discarded : Int)
  decide (d.natAbs > m.threshold)

/-- One monitor's alarm (R367). -/
def State.redAlarm (s : State) (i : Nat) (m : Monitor) : State :=
  let s1 := if s.getB F.redLatentCapture_valid then s
    else (s.setF F.redLatentCapture_valid 0 1).setF F.redLatentCapture_monitor 0 i
  ((s1.setF F.redEvent_latentAlarmSeen 0 1).count C.redAlarms).raise 0xC101 i (m.passed % 2 ^ 32) (m.discarded % 2 ^ 32)

/-- A memory error in a monitor (R374): a double-bit error restarts its counts from 0. -/
def State.redEcc (s : State) (e : EccErr) : State :=
  if !e.double then s.setF F.redEvent_eccCorrSeen 0 1
  else
    let z := SMap.modify s.egs.monitors e.index fun m => { m with passed := 0, discarded := 0 }
    ({ s with egs := { s.egs with monitors := z } }.setF F.redEvent_eccUncorrSeen 0 1).raise 0xC102 e.index

/-- LATENT_PERIOD_END (R367): every monitor is tested, alarms are raised and the counts start again; `errs` are memory
errors that reading the monitors meets. -/
def execLatentPeriodEnd (errs : List EccErr) (s : State) : Host.Outcome State Fault Refusal :=
  .next (if s.now < s.egs.latentStart + s.getF F.redCtrl_latentPeriod * 1000000 then s
    else
      let s1 := errs.foldl State.redEcc s
      let loud := if s1.getB F.redCtrl_latentEn then s1.egs.monitors.filter fun e => e.2.alarms else []
      let s2 := (loud.foldl (fun t e => t.redAlarm e.1 e.2) s1).setF F.redStatus_lastAlarms 0 loud.length
      { s2 with egs := { s2.egs with
          monitors := s2.egs.monitors.mapVal fun _ m => { m with passed := 0, discarded := 0 }
          latentStart := s.now } })

end Sys2Proof.Machine
end

