-- ==== Sys2Proof/Machine/Remote.lean ====
section
/-! DEFINITION. The pooled flow table (R554 to R559): what a requester does with its requests and their returns, and what
an owner does with the requests of peers. -/

namespace Sys2Proof.Machine

/-! ## The requester (R555, R556, R559) -/

/-- The packet that a tag names. -/
def State.tagged (s : State) (tag : Nat) : Option (Nat × Pkt) :=
  SMap.first? s.pk.pkts fun id _ => !isProxy id && id % 2 ^ 32 == tag

/-- A packet's request is on its way: it waits for a request field or for its return. -/
def State.asking (s : State) (id : Nat) : Bool :=
  (s.stk.sent.any fun x => x.pkt == id) || s.stk.requests.any fun e => e.2.contains id

/-- A member serves a request no longer needed. -/
def State.quitRequest (s : State) (member id : Nat) : State := s.sendTo member (.quit (id % 2 ^ 32))

/-- A packet's count of DEFERs. -/
def State.setDefers (s : State) (id n : Nat) : State :=
  { s with stk := { s.stk with defers := SMap.put 0 s.stk.defers id n } }

/-- A request of a key that its owner's answer releases: those chained behind it are issued again, in order (R556). -/
def State.nextRemote (s : State) (key : List Nat) : State :=
  let k := s.parkShard key
  if (s.mqOf k).any fun e => e.key == key && e.wait != .chained then s.syncParked
  else
    let chain := s.mqChain k key
    let ask (t : State) (e : MqEntry) : State :=
      match SMap.find? t.pk.pkts e.pkt, t.remoteOwner key with
      | some p, some m =>
        (t.mqSet k e.pkt fun x => { x with wait := .parked, asked := t.tm.ticks }).sendRequest e.pkt m p.flowHash key
      | _, _ => t.mqDrop k [e.pkt]
    (chain.foldl ask s).syncParked

/-- A request that was answered DEFER is parked, behind one of its key where there is one; a full miss queue is R210's. -/
def State.parkRequest (s : State) (member id : Nat) (p : Pkt) : State :=
  let k := s.parkShard p.key
  let q := s.mqOf k
  if q.any fun e => e.pkt == id then
    (s.mqSet k id fun x => { x with wait := .parked, asked := s.tm.ticks }).syncParked
  else if q.length < 4096 then
    let w := if q.any fun e => e.key == p.key then MqWait.chained else .parked
    (s.mqAdd k ⟨id, p.pipe, p.key, w, false, none, none, s.tm.ticks⟩).syncParked
  else
    (((s.setF F.fstEvent_mqOverflowSeen k 1).count (C.fstMqOverflow k)).overflow id p.key).quitRequest member id

/-- A DEFER (R556): the 16th gives the packet and those chained behind it up. -/
def State.deferred (s : State) (member id : Nat) : State :=
  match SMap.find? s.pk.pkts id with
  | none => s.quitRequest member id
  | some p =>
    let n := SMap.getD s.stk.defers id 0 + 1
    let s1 := s.count C.stkRemoteDefer
    if n ≥ 16 then
      let k := s1.parkShard p.key
      let behind := (s1.mqChain k p.key).map (·.pkt)
      let s2 := (s1.count C.stkRemoteGiveup (1 + behind.length)).setF F.stkEvent_giveupSeen 0 1
      ((((s2.overflowAll k id p.key).setDefers id 0).quitRequest member id)).syncParked
    else
      let s2 := (s1.setDefers id n).parkRequest member id p
      if p.arriving then s2 else s2.tellFrameEnd id p

/-- A request of its key is parked ahead of a packet's. -/
def State.parkedAhead (s : State) (id : Nat) (key : List Nat) : Bool :=
  let q := s.mqOf (s.parkShard key)
  q.any (fun e => e.key == key && e.pkt != id && e.wait != .chained)

/-- An answer that is not used is released at its owner (R206). -/
def State.releaseRemote (s : State) (member id : Nat) (a : Answer) : State :=
  s.sendTo member (.update (some (id % 2 ^ 32)) a.setupPending (releaseOf a 32 id))

/-- A return (R555, R556). -/
def State.returned (s : State) (member id : Nat) (r : StkReturn) : State :=
  match r, SMap.find? s.pk.pkts id with
  | .defer, _ => s.deferred member id
  | .found a, none => s.releaseRemote member id a
  | _, none => s
  | r, some p =>
    if s.parkedAhead id p.key then
      let s1 := match r with
        | .found a => s.releaseRemote member id a
        | _ => s
      s1.parkRequest member id p
    else
      let k := s.parkShard p.key
      let s1 := (s.mqDrop k [id]).setDefers id 0
      let s2 := match r with
        | .found a => s1.sendAnswer id (some { a with handle := remoteHandle member a.handle })
        | .stateless cls => (s1.modPkt id fun q => { q with cls := cls.getD q.cls }).sendAnswer id none
        | _ => s1.dropPkt id
      s2.nextRemote p.key

/-- A WAKE (R556): the parked request is issued again. -/
def State.reissue (s : State) (id : Nat) : State :=
  match SMap.first? s.fst.mq fun _ l => l.any fun e => e.pkt == id && e.wait == .parked with
  | none => s
  | some (k, l) =>
    match l.find? fun e => e.pkt == id with
    | none => s
    | some e =>
      match s.asking id, SMap.find? s.pk.pkts id, s.remoteOwner e.key with
      | true, _, _ => s
      | _, some p, some m => s.sendRequest id m p.flowHash e.key
      | _, _, _ => (s.mqDrop k [id]).nextRemote e.key

/-- REMOTE_REISSUE_TIMEOUT (R556): 20 µs have passed since a parked request's DEFER. -/
def execRemoteReissueTimeout (pkt : Nat) (s : State) : Host.Outcome State Fault Refusal :=
  .next (
    let due := s.fst.mq.any fun e => e.2.any fun x => x.pkt == pkt && x.wait == .parked && decide (s.tm.ticks ≥ x.asked + 20000)
    if due then s.reissue pkt else s)

/-- A transition or setup at another member is acknowledged (R557). -/
def State.remoteDone (s : State) (tag : Nat) : State :=
  match s.tagged tag with
  | none => s
  | some (id, p) =>
    let s1 := match p.ans with
      | some a => if a.setupPending then s else s.endChain p.pipe a.handle
      | none => s
    { s1 with fst := { s1.fst with acks := s1.fst.acks ++ [id] } }

/-- A REPLAY of another member (R283). -/
def State.remoteReplay (s : State) (member tag handle : Nat) (image : List Nat) : State :=
  let rel : Update := releaseOf ⟨handle, 0, 0, [], false, 0⟩ 32 tag
  match s.tagged tag with
  | none => s.sendTo member (.update none false rel)
  | some (id, p) =>
    match p.ans with
    | some a => { s with fst := { s.fst with replays := s.fst.replays ++ [(id, p.pipe, { a with image := image })] } }
    | none => s.sendTo member (.update none false rel)

/-! ## The owner (R554 to R557) -/

/-- A request of a peer arrives in a slot of a link; its return is owed L slots later. One that was answered DEFER is served
already. -/
def State.takeRequest (s : State) (link slot member : Nat) (r : StkRequest) : State :=
  let id := proxyId member r.tag
  let s1 := { s with stk := { s.stk with owed := s.stk.owed ++ [StkOwed.mk link (slot + s.getF F.stkCtrl_lSlots) id] } }
  if SMap.has s1.stk.owned id then { s1 with stk := { s1.stk with owned := SMap.set s1.stk.owned id (link, r) } }
  else
    let p := { newPkt (64 + member) r.port (2048 + link) .lookup r.epoch s.now16 with
      arriving := true, counted := false, cls := 255, key := r.key, ckey := r.key, profile := some (kProfile r.key) }
    let home := homeShard s.fst.shardSeed r.key
    { s1 with
      stk := { s1.stk with owned := SMap.set s1.stk.owned id (link, r) }
      pk := { s1.pk with pkts := SMap.set s1.pk.pkts id p }
      fst := { s1.fst with reqs := s1.fst.reqs ++ [LookReq.mk id (64 + member) home r.key none] } }

/-- What the shards have come to for requests of peers: answers, acknowledgements, REPLAY replies (R556, R557). -/
def State.serveProxies (s : State) : State :=
  let mine := s.fst.answers.filter fun a => isProxy a.1
  let acks := s.fst.acks.filter isProxy
  let reps := s.fst.replays.filter fun r => isProxy r.1
  let s0 := { s with fst := { s.fst with
    answers := s.fst.answers.filter fun a => !isProxy a.1
    acks := s.fst.acks.filter fun a => !isProxy a
    replays := s.fst.replays.filter fun r => !isProxy r.1 } }
  let give (t : State) (a : Nat × Option Answer) : State :=
    match SMap.find? t.pk.pkts a.1, a.2 with
    | some _, some x => t.proxyReady a.1 (.found x)
    | some p, none => t.proxyReady a.1 (.stateless (if p.cls == 255 then none else some p.cls))
    | none, some x => t.pushUpdate (releaseOf x 32 a.1)
    | none, none => t
  let s1 := mine.foldl give s0
  let s2 := acks.foldl (fun t id => (t.sendProxy id (.commitDone (proxyTag id))).forgetProxy id) s1
  reps.foldl (fun t r => t.sendProxy r.1 (.replay (proxyTag r.1) r.2.2.handle r.2.2.image)) s2

/-- An update of a peer for a record here (R557). A packet that the peer's program dropped takes its setup with it. -/
def State.remoteUpdate (s : State) (member : Nat) (tag : Option Nat) (gone : Bool) (u : Update) : State :=
  let pkt := tag.map (proxyId member)
  let s1 := if gone then
      pkt.elim s fun id => { s with pk := { s.pk with pkts := SMap.del s.pk.pkts id } }
    else s
  let s2 := s1.pushUpdate { u with pkt := pkt, pipe := 64 + member }
  if gone then pkt.elim s2 fun id => { s2 with stk := { s2.stk with owned := SMap.del s2.stk.owned id } } else s2

/-- The frame of a request that waits for a firmware setup has ended at its member (R240). -/
def State.remoteEnd (s : State) (member tag : Nat) (bad : Bool) (len : Nat) (head : List Nat) : State :=
  let id := proxyId member tag
  match SMap.find? s.pk.pkts id with
  | none => s
  | some p =>
    let q := { p with arriving := false, bad := bad, head := head, body := List.replicate (len - head.length) 0 }
    (s.modPkt id fun _ => q).setupFrameEnd id q

/-- The return that is owed in a slot of a link (R555); DEFER where there is no answer in time (R556). An answer returned
is served here no longer, unless its setup is pending. -/
def State.payReturn (s : State) (link slot : Nat) : State × Option StkReturn :=
  match s.stk.owed.find? fun o => o.link == link && o.slot == slot with
  | none => (s, none)
  | some o =>
    let s1 : State := { s with stk := { s.stk with owed := s.stk.owed.erase o } }
    match SMap.find? s1.stk.ready o.id with
    | some (.found a) =>
      let s2 := { s1 with stk := { s1.stk with ready := SMap.del s1.stk.ready o.id } }
      (if a.setupPending then s2 else s2.forgetProxy o.id, some (.found a))
    | some r => (s1.forgetProxy o.id, some r)
    | none =>
      if SMap.has s1.stk.owned o.id then
        ({ s1 with stk := { s1.stk with deferred := s1.stk.deferred.filter (· != o.id) ++ [o.id] } }, some .defer)
      else (s1, some .drop)

/-- A queued request whose packet still waits leaves in a link's request field (R555). -/
def State.nextRequest (s : State) (link slot : Nat) : State × Option StkRequest :=
  let q := SMap.getD s.stk.requests link []
  let live := q.dropWhile fun id => !SMap.has s.pk.pkts id
  match live with
  | [] => ({ s with stk := { s.stk with requests := SMap.put [] s.stk.requests link [] } }, none)
  | id :: rest =>
    match SMap.find? s.pk.pkts id with
    | none => (s, none)
    | some p =>
      let s1 := { s with stk := { s.stk with
        requests := SMap.put [] s.stk.requests link rest
        sent := s.stk.sent ++ [StkSent.mk link slot id] } }
      (s1.count C.stkRemoteReq, some ⟨id % 2 ^ 32, p.inPort, p.epoch, p.key, s.synOnly id, s.isEcho id⟩)

end Sys2Proof.Machine
end

