-- ==== Sys2Proof/Machine/Stack.lean ====
section
/-! DEFINITION. Stacking with Kendrel links (chapter 17): links, roles, forming, messages between members, the slot frame,
takeover and the stack commands. -/

namespace Sys2Proof.Machine

/-! ## Members and roles (R548, R550, R564, R565) -/

/-- This device's strapped role. -/
def State.stkRole (s : State) : Nat := s.getF F.stkStatus_role

/-- The STK_ID that the peer of a link names. -/
def State.peerOf (s : State) (link : Nat) : Nat := s.getF F.stkLink_peerId link

/-- Some member of the stack is strapped deputy. -/
def State.deputyHeard (s : State) : Bool := s.stk.peerRole.any fun e => e.2 == 2 && s.memberIds.contains (s.peerOf e.1)

/-- The stack stands formed in a mode (R550): L and mode are set, STK_CTRL locked, a former master is a member like the
others. -/
def State.formStack (s : State) (mode lSlots members : Nat) (master : Option Nat) : State :=
  let s1 := ((s.setF F.stkCtrl_mode 0 mode).setF F.stkCtrl_lSlots 0 lSlots).setF F.stkCtrl_lock 0 1
  let s2 := ((s1.setF F.stkStatus_formed 0 1).setF F.stkStatus_members 0 members).setF F.stkStatus_resigned 0 0
  (({ s2 with stk := { s2.stk with master := master, masterAt := s2.tm.ticks, ackAt := s2.tm.ticks } }).endCondition
    0x2802 0).raiseIrq irqStack

/-- A master that acts no longer (R565). -/
def State.resign (s : State) (master : Option Nat) : State :=
  let s1 := ((s.setF F.stkStatus_actingMaster 0 0).setF F.stkStatus_resigned 0 1).setF F.stkEvent_resignedSeen 0 1
  (({ s1 with stk := { s1.stk with master := master, masterAt := s1.tm.ticks } }).setF F.stkGen_genOwn 0 0).raiseIrq irqStack

/-- The acting master's duties taken over, with the next generation (R565). A stack-wide swap whose drains have ended by
then is complete. -/
def State.takeOver (s : State) : State :=
  let g := s.getF F.stkGen_genHeard + 1
  let s1 := ((s.setF F.stkStatus_actingMaster 0 1).setF F.stkGen_genOwn 0 g).setF F.stkGen_genHeard 0 g
  let s2 := (((s1.setF F.stkEvent_masterLostSeen 0 1).count C.stkTakeovers).raise 0x2802 0).raiseIrq irqStack
  let s3 := { s2 with stk := { s2.stk with master := some s2.stkId, ackAt := s2.tm.ticks } }
  if s3.stk.swapHold then ({ s3 with stk := { s3.stk with swapHold := false } }).sendAll .swapDone else s3

/-- DEPUTY_TAKEOVER (R565): 10 ms without a header from the master. Without a deputy the members raise 0x2802 and keep
running. -/
def execDeputyTakeover (s : State) : Host.Outcome State Fault Refusal :=
  .next (
    if !s.stkFormed || s.actingMaster || s.tm.ticks < s.stk.masterAt + 10000000 then s
    else if s.stkRole == 2 then s.takeOver
    else if s.deputyHeard || (s.flt.live.any fun l => l.code == 0x2802) then s
    else s.raise 0x2802 0)

/-- MASTER_RESIGN (R565): a higher generation heard, or 12 ms without the deputy's acknowledgement. -/
def execMasterResign (s : State) : Host.Outcome State Fault Refusal :=
  .next (
    if !s.actingMaster || !s.stkFormed then s
    else if s.getF F.stkGen_genHeard > s.getF F.stkGen_genOwn then s.resign s.stk.master
    else if s.stkRole != 2 && s.deputyHeard && s.tm.ticks ≥ s.stk.ackAt + 12000000 then s.resign none
    else s)

/-- SEED_WAIT_EXPIRY (R549): 2 s after reset release without the master's seed the device draws its own. -/
def execSeedWaitExpiry (s : State) : Host.Outcome State Fault Refusal :=
  .next (
    if (s.stkRole != 1 && s.stkRole != 2) || s.stk.seed.isSome || s.getB F.sysStatus_ready || s.tm.ticks < 2000000000 then s
    else s.setF F.stkStatus_ownSeed 0 1)

/-! ## A member that no link reaches (R559) -/

/-- Transactions with a part on a member: before the commit point they abort with E_FAULT; after it they complete with
E_FAULT and the member's writes are a declared loss. -/
def State.loseTx (m : Nat) (s : State) (e : Nat × Tx) : State :=
  let t := e.2
  let theirs := t.origin.any fun o => o.1 == m
  if theirs then (if t.phase == .committing then s else s.txAbort e.1 eFault)
  else if !(t.peers.any fun x => x.1 == m) then s
  else if t.phase == .committing then
    let left := t.peers.filter fun x => x.1 != m
    (s.setTx e.1 { t with peers := left, faulted := true }).declareLoss 3 t.coord 0 (t.peers.length - left.length) e.1
  else s.txAbort e.1 eFault

/-- Packets whose requests for keys of a member cannot be answered, in arrival order. -/
def State.awaitedFrom (s : State) (m : Nat) : List Nat :=
  let links := (List.range 4).filter fun l => s.peerOf l == m
  let sent := (s.stk.sent.filter fun x => links.contains x.link).map (·.pkt)
  let queued := links.flatMap fun l => SMap.getD s.stk.requests l []
  let parked := (s.fst.mq.flatMap fun e => e.2.filter fun x => x.wait == .parked && s.remoteOwner x.key == some m).map (·.pkt)
  (SMap.keys s.pk.pkts).filter fun id => (sent ++ queued ++ parked).contains id

/-- A request without an owner, and those chained behind it, take the overflow action. -/
def State.loseRequest (s : State) (id : Nat) : State :=
  match SMap.find? s.pk.pkts id with
  | none => s
  | some p =>
    let k := s.parkShard p.key
    let ids := id :: (if (s.mqOf k).any fun e => e.pkt == id then (s.mqChain k p.key).map (·.pkt) else [])
    ((s.mqDrop k ids).setDefers id 0).unreachable ids p.key

/-- What a packet waits for at a member fails. -/
def State.loseAwaiting (m : Nat) (s : State) (e : Nat × Pkt) : State :=
  match e.2.ans with
  | none => s
  | some a =>
    if !e.2.awaiting || !e.2.held.isEmpty || handleMember a.handle != some m then s
    else
      let s1 := if a.setupPending then s else s.endChain e.2.pipe a.handle
      if e.2.stage == .gone then (s1.modPkt e.1 fun q => { q with ans := none, awaiting := false }).endPkt e.1 e.2.dropped
      else s1.failTrigger e.1 e.2.key

/-- No link to a member is up, or the stack is dissolved: what waits for it ends, and what it waits for (R559). -/
def State.loseMember (s : State) (m : Nat) : State :=
  let ids := s.awaitedFrom m
  let links := (List.range 4).filter fun l => s.peerOf l == m
  let s0 : State := { s with stk := { s.stk with
    sent := s.stk.sent.filter fun x => !links.contains x.link
    owed := s.stk.owed.filter fun x => !links.contains x.link
    requests := SMap.keep (fun l _ => !links.contains l) s.stk.requests } }
  let s1 := ids.foldl State.loseRequest s0
  let s2 := s1.pk.pkts.foldl (State.loseAwaiting m) s1
  let s3 := s2.fst.txs.foldl (State.loseTx m) s2
  let mine := (SMap.keys s3.stk.owned).filter fun id => proxyMember id == m
  mine.foldl State.forgetProxy s3.serveProxies

/-! ## Links (R544, R547, R548) -/

/-- The two ends of a link form a valid pair (R548). -/
def State.validPair (s : State) (peer role : Nat) : Bool :=
  peer != s.stkId && !(role == 3 && s.stkRole == 3) && !(role == 2 && s.stkRole == 2)

/-- A link's state shown: STK_LINK.up and STK_STATUS.link_up. -/
def State.showLink (s : State) (link : Nat) (up : Bool) : State :=
  (s.setB F.stkLink_up link up).setF F.stkStatus_linkUp 0
    ((List.range 4).foldl (fun a l => a + (if (if l == link then up else s.getB F.stkLink_up l) then 2 ^ l else 0)) 0)

/-- A link bound to a macro, its peer known (R544). -/
def State.bindLink (s : State) (link macro_ peer : Nat) : State :=
  let s1 := ((s.setF F.stkLink_bound link 1).setF F.stkLink_macro link macro_).setF F.stkLink_peerId link peer
  { s1 with stk := { s1.stk with
    lanes := (s1.stk.lanes.filter (· != 8 * macro_)) ++ [8 * macro_]
    expected := SMap.set s1.stk.expected link peer } }

/-- A macro holds a port. -/
def State.macroHasPort (s : State) (macro_ : Nat) : Bool :=
  s.port.ports.any fun e => lanesOverlap e.1 (2 ^ s.getF F.portCfg_lanes e.1) (8 * macro_) 8

/-- A link may come up on a macro with a peer: as it is bound, or on a macro that is free (log entry 166). -/
def State.linkFits (s : State) (link macro_ peer : Nat) : Bool :=
  if s.getB F.stkLink_bound link then s.getF F.stkLink_macro link == macro_ && SMap.getD s.stk.expected link peer == peer
  else !s.macroHasPort macro_ && !s.stk.lanes.contains (8 * macro_)

/-- The master gives a peer its shard seed (R549). -/
def State.giveSeed (s : State) (link : Nat) : State :=
  if s.stkRole == 3 && s.getB F.sysStatus_ready then s.sendBulk link (.seed s.fst.shardSeed) else s

/-- KENDREL_LINK_UP (R547, R548): a standalone device uses no link; lock on all lanes, and the peer as the map expects it;
`delay` as the marker loop measures
it, in 0.25 ns. Ends that form no valid pair raise 0x2801. -/
def execKendrelLinkUp (link macro_ peer role delay : Nat) (s : State) : Host.Outcome State Fault Refusal :=
  .next (
    if link ≥ 4 || macro_ ≥ 32 || peer ≥ 4 || role == 0 || s.stkRole == 0 || s.getB F.stkLink_up link || s.getB F.fltStatus_barePoles
        || s.furled || !s.linkFits link macro_ peer then s
    else if !s.validPair peer role then s.raise 0x2801 link link
    else
      let s1 := (s.bindLink link macro_ peer).setF F.stkLink_delay link (Nat.min delay 65535)
      let s2 : State := { s1 with stk := { s1.stk with peerRole := SMap.set s1.stk.peerRole link role } }
      ((s2.showLink link true).endCondition 0x2801 link).giveSeed link)

/-- A message that was waiting for a link goes over another link to the same member; a frame is lost with its link. -/
def State.resend (member : Nat) (s : State) (m : StkMsg) : State :=
  match m with
  | .frame _ _ => s
  | m => s.sendTo member m

/-- A link goes down (R547, R559). -/
def State.dropLink (s : State) (link : Nat) : State :=
  let m := s.peerOf link
  let s0 := ((s.showLink link false).setF F.stkEvent_linkDownSeen 0 1).count (C.stkLinkDown link)
  let s1 := s0.raise 0x2801 link link
  let port := 8 * s1.getF F.stkLink_macro link
  let s2 := (s1.pk.copies.filter fun e => e.2.port == port && e.2.stage == .transmitting).foldl (fun t e => t.loseCopy e.1) s1
  let waiting := SMap.getD s2.stk.bulk link []
  let asked := (s2.stk.sent.filter fun x => x.link == link).map (·.pkt)
  let queued := SMap.getD s2.stk.requests link []
  if (s2.linksTo m).isEmpty then
    ({ s2 with stk := { s2.stk with bulk := SMap.put [] s2.stk.bulk link [] } }).loseMember m
  else
    let s3 : State := { s2 with stk := { s2.stk with
      bulk := SMap.put [] s2.stk.bulk link []
      requests := SMap.put [] s2.stk.requests link []
      sent := s2.stk.sent.filter fun x => x.link != link
      owed := s2.stk.owed.filter fun x => x.link != link } }
    let s4 := waiting.foldl (State.resend m) s3
    let park (t : State) (id : Nat) : State := (SMap.find? t.pk.pkts id).elim t fun p => t.parkRequest m id p
    let s5 := asked.foldl park s4
    let again (t : State) (id : Nat) : State := (SMap.find? t.pk.pkts id).elim t fun p => t.sendRequest id m p.flowHash p.key
    queued.foldl again (asked.foldl State.reissue s5)

/-- KENDREL_LINK_DOWN (R547): loss of lock, another STK_ID, or 1 µs without a valid slot header. -/
def execKendrelLinkDown (link : Nat) (s : State) : Host.Outcome State Fault Refusal :=
  .next (if link ≥ 4 || !s.getB F.stkLink_up link then s else s.dropLink link)

/-! ## Forming (R550, R555) -/

/-- A link map agrees with this device's links: each is up, bound to its macro, and has its peer. -/
def State.mapAgrees (s : State) (m : StkMap) : Bool :=
  m.links.all fun e => s.getB F.stkLink_up e.1 && s.getF F.stkLink_macro e.1 == e.2.1 && s.peerOf e.1 == e.2.2

/-- L is long enough for the largest measured delay of a map's links (R555): 4 L ≥ d_max + 96 in units of 0.25 ns. -/
def State.slotsOk (s : State) (m : StkMap) (lSlots : Nat) : Bool :=
  m.links.all fun e => decide (s.getF F.stkLink_delay e.1 + 96 ≤ 4 * lSlots)

/-- The map of a member. -/
def mapOf (maps : List StkMap) (id : Nat) : Option StkMap := maps.find? fun m => m.member == id

/-- The bits of STK_STATUS.members that a list of maps names. -/
def memberBits (maps : List StkMap) : Nat :=
  (List.range 4).foldl (fun a i => a + (if (mapOf maps i).isSome then 2 ^ i else 0)) 0

/-- A member's check of a configuration (R548, R550): it hears no two masters, its links agree with the map, no macro of it
holds a port, L suffices, and
under DEEPEN its seed is the master's. -/
def State.acceptsForm (s : State) (mode lSlots : Nat) (maps : List StkMap) : Bool :=
  !s.stkFormed && decide (s.stk.masters.length ≤ 1) && (mapOf maps s.stkId).any fun m =>
    s.mapAgrees m && s.slotsOk m lSlots && m.links.all (fun e => !s.macroHasPort e.2.1)
      && (mode != 2 || (s.stk.seed.isSome && !s.getB F.stkStatus_ownSeed))

/-- A formation that runs ends without a stack (R550). -/
def State.formFails (s : State) (f : StkForm) : State :=
  (({ s with stk := { s.stk with form := none } }).setF F.stkEvent_formFailSeen 0 1).answer f.mbx f.cid f.noIrq (.err eState)

/-- Every member has accepted: the stack stands on every one of them (R550). -/
def State.formed (s : State) (f : StkForm) : State :=
  let bits := memberBits f.maps
  let s1 := ({ s with stk := { s.stk with form := none } }).formStack f.mode f.lSlots bits (some s.stkId)
  (s1.sendAll (.formed f.mode f.lSlots bits)).answer f.mbx f.cid f.noIrq .ok

/-- A member's answer (R550). -/
def State.formAnswer (s : State) (member : Nat) (accept : Bool) : State :=
  match s.stk.form with
  | none => s
  | some f =>
    if !f.waiting.contains member then s
    else if !accept then s.formFails f
    else
      let f1 := { f with waiting := f.waiting.filter (· != member) }
      if f1.waiting.isEmpty then s.formed f1 else { s with stk := { s.stk with form := some f1 } }

/-- STACK_FORM_RESPONSE (R550). -/
def execStackFormResponse (member : Nat) (accept : Bool) (s : State) : Host.Outcome State Fault Refusal :=
  .next (s.formAnswer member accept)

/-- STACK_FORM_TIMEOUT (R550): 100 ms. -/
def execStackFormTimeout (s : State) : Host.Outcome State Fault Refusal :=
  .next (match s.stk.form with
    | none => s
    | some f => if s.tm.ticks < f.at_ + 100000000 then s else s.formFails f)

/-- The stack is dissolved on this device (R550); what waits for other members ends (log entry 167). -/
def State.dissolve (s : State) : State :=
  let s1 := s.otherMembers.foldl State.loseMember s
  let s2 := ((s1.setF F.stkStatus_formed 0 0).setF F.stkStatus_members 0 0).setF F.stkCtrl_mode 0 0
  ({ s2 with stk := { s2.stk with swapHold := false, swapWait := [], swapOwn := none, memberModes := [] } }).raiseIrq irqStack

/-- A list of maps is well formed: each member once, links and macros once in each. -/
def mapsOk (maps : List StkMap) : Bool :=
  let ids := maps.map (·.member)
  ids.eraseDups.length == ids.length && maps.all fun m =>
    decide (m.member < 4) && (m.links.map (·.1)).eraseDups.length == m.links.length
      && (m.links.map (·.2.1)).eraseDups.length == m.links.length
      && m.links.all fun e => decide (e.1 < 4) && decide (e.2.1 < 32) && decide (e.2.2 < 4)

/-- STK_CONFIG (`stk.config`, R544, R550, R555, R566). -/
def execStkConfig (h : CmdHdr) (mode lSlots : Nat) (maps : List StkMap) (s : State) : Host.Outcome State Fault Refusal :=
  .next (s.cmdLater (.stkConfig h mode lSlots maps) h attrO
    [decide (mode < 4), mode == 0 || (decide (80 ≤ lSlots) && decide (lSlots ≤ 255)), mapsOk maps] fun s =>
      let own := mapOf maps s.stkId
      if mode != 0 && own.any fun m => m.links.any (fun e => s.macroHasPort e.2.1) || !s.slotsOk m lSlots then
        (s, some (.err eInval))
      else if !s.actingMaster || s.stk.form.isSome || decide (s.stk.masters.length > 1) then (s, some (.err eState))
      else if mode == 0 then
        (if s.stkFormed then (s.sendAll .dissolve).dissolve else s, some .ok)
      else if s.stkFormed || !own.any s.mapAgrees || (maps.any fun m => m.member != s.stkId && (s.linksTo m.member).isEmpty) then
        (s, some (.err eState))
      else
        let others := (maps.map (·.member)).filter (· != s.stkId)
        let f : StkForm := ⟨h.mbx, h.cid, h.noIrq, mode, lSlots, maps, others, s.tm.ticks⟩
        if others.isEmpty then
          let s1 := s.formStack mode lSlots (memberBits maps) (some s.stkId)
          (s1, some .ok)
        else
          let s1 := { s with stk := { s.stk with form := some f } }
          (others.foldl (fun t i => t.sendTo i (.config mode lSlots maps)) s1, none))

/-! ## Stack-wide calendar entries (R561) -/

/-- A member arms an entry of the master in one of its own host places (log entry 168). -/
def State.armFor (s : State) (member ref : Nat) (words : List Nat) : State :=
  match s.armEntry (tecOf words 0) with
  | (s1, .ok i) =>
    ({ s1 with stk := { s1.stk with tecRefs := SMap.set s1.stk.tecRefs ref i } }).sendTo member (.armReply ref true)
  | (s1, .error _) => s1.sendTo member (.armReply ref false)

/-- An entry of the master is taken back. -/
def State.disarmFor (s : State) (ref : Nat) : State :=
  match SMap.find? s.stk.tecRefs ref with
  | none => s
  | some i => ({ s with stk := { s.stk with tecRefs := SMap.del s.stk.tecRefs ref } }).delTec i

/-- A member has armed its entry, or has no room; in that case no member keeps it (R561). -/
def State.armAnswer (s : State) (member ref : Nat) (ok : Bool) : State :=
  match s.stk.arms.find? fun a => a.ref == ref with
  | none => s
  | some a =>
    let rest := s.stk.arms.filter fun x => x.ref != ref
    if !ok then
      ((({ s with stk := { s.stk with arms := rest } }).delTec ref).sendAll (.disarm ref)).answer a.mbx a.cid a.noIrq
        (.err eNospace)
    else
      let a1 := { a with waiting := a.waiting.filter (· != member) }
      if a1.waiting.isEmpty then
        ({ s with stk := { s.stk with arms := rest } }).answer a.mbx a.cid a.noIrq (.val a.result)
      else { s with stk := { s.stk with arms := rest ++ [a1] } }

/-! ## Transactions that span members (R557) -/

/-- The transaction here that stands for a part of another member's. -/
def State.partOf (s : State) (member ref : Nat) : Option (Nat × Tx) :=
  SMap.first? s.fst.txs fun _ t => t.origin == some (member, ref)

/-- A part of another member's transaction is built; it prepares like any other. -/
def State.openPart (s : State) (member ref : Nat) (descs : List (List Nat)) : State :=
  match s.expandAll descs [] [] with
  | (s1, .err c) => s1.sendTo member (.txVote ref c)
  | (s1, .ok ws cs) =>
    if !txFits ws then (s1.returnHandles ws).sendTo member (.txVote ref eInval)
    else
      let result := if descs.any fun d => dTarget d == 0 && dOp d == 3 then [newHandle ws] else []
      (s1.draw.openFirmware s1.threadSource ws fun t =>
        { t with conds := cs, origin := some (member, ref), result := result }).1

/-- Parts that have prepared vote, once; one whose conditions do not hold aborts (R261). -/
def State.castVotes (s : State) : State :=
  let ready := s.fst.txs.filter fun e => e.2.origin.isSome && e.2.phase == .prepared && !e.2.answered
  ready.foldl (fun t e =>
    match e.2.origin with
    | none => t
    | some (m, ref) =>
      if !t.txHolds e.2 then t.txAbort e.1 eState
      else (t.setTx e.1 { e.2 with answered := true }).sendTo m (.txVote ref 0)) s

/-- A member's vote on its part. -/
def State.takeVote (s : State) (member id code : Nat) : State :=
  match SMap.find? s.fst.txs id with
  | none => s
  | some t =>
    if t.phase == .committing then s
    else if code != 0 then s.txAbort id code
    else s.setTx id { t with peers := t.peers.map fun e => if e.1 == member then (e.1, 1) else e }

/-- A part's end, with its result words. -/
def State.takeDone (s : State) (member id code : Nat) (words : List Nat) : State :=
  match SMap.find? s.fst.txs id with
  | none => s
  | some t =>
    s.setTx id { t with peers := t.peers.filter fun e => e.1 != member, faulted := t.faulted || code != 0,
                        result := t.result ++ words }

/-! ## Messages (R546, R552, R557, R561 to R564) -/

/-- Messages that only a master sends (R564). -/
def masterOnly : StkMsg → Bool
  | .config _ _ _ => true
  | .formed _ _ _ => true
  | .dissolve => true
  | .arm _ _ => true
  | .disarm _ => true
  | .swap _ _ => true
  | .swapDone => true
  | _ => false

/-- A frame of another member is admitted in direct mode, to the VOQ that its next hop names here, or to the group of the
same number (R552). -/
def State.takeFrame (s : State) (link : Nat) (h : StkHeader) (bytes : List Nat) : State :=
  let pipe := s.getF F.stkLink_macro link
  if s.getB F.fltStatus_barePoles || s.furled || s.pk.qmRestart.contains pipe || (s.getF F.stkCtrl_mode != 1 && s.getF F.stkCtrl_mode != 2) then s
  else
    let p0 := newPkt pipe (8 * pipe) (2048 + link) .finished h.epoch h.tIn
    let p := { p0 with
      head := bytes.take 256, cls := h.cls, arrCls := h.cls, colour := h.colour, noCt := true, counted := false,
      par := { p0.par with ptp := h.ptp }, tInvalid := h.tInvalid, verdict := h.verdict, fwdOp := 1, fwdTarget := h.nextHop,
      mcast := h.group }
    let (s1, id) := s.addPkt p
    (s1.injectBody id (bytes.drop 256)).admitTo id

/-- A requester gives a request up: an entry here that waits for its frame's end leaves, and those chained behind it go on. -/
def State.quitProxy (s : State) (id : Nat) : State :=
  let waits := fun (x : MqEntry) => x.pkt == id && (x.wait == .fwEnd || x.wait == .failed false || x.wait == .failed true)
  match s.fst.mq.findSome? fun q => (q.2.find? waits).map fun x => (q.1, x.key) with
  | some (shard, key) => ((s.forgetProxy id).mqDrop shard [id]).serveChained shard key
  | none => s.forgetProxy id

/-- A swap that the master has set for an instant (R562). -/
def State.takeSwap (s : State) (target at_ : Nat) : State :=
  { s with cls := { s.cls with pendingSwap := s.cls.pendingSwap ++ [SwapReq.mk target at_ true none] } }

/-- A member's drain has ended (R562). -/
def State.takeDrained (s : State) (member : Nat) : State :=
  let s1 : State := { s with stk := { s.stk with swapWait := s.stk.swapWait.filter (· != member) } }
  match s1.stk.swapWait, s1.stk.swapOwn with
  | [], some (late, cmd) => s1.endStackSwap late cmd
  | _, _ => s1

/-- A member's fault or state change goes into the master's trouble log (R563). -/
def State.logMember (s : State) (member code severity arg0 arg1 sec ns : Nat) : State :=
  s.logWrite { s.logBase 1 with
    source := 0x2810 + member, code := code, severity := severity, arg0 := arg0, arg1 := arg1, sec := sec, ns := ns }

/-- A message of the bulk area of a link's peer `m`, whose generation is `gen`. -/
def State.takeMsg (link m gen role : Nat) (s : State) (msg : StkMsg) : State :=
  if masterOnly msg && gen < s.getF F.stkGen_genHeard then
    (s.count C.stkFenceReject).setF F.stkEvent_fenceRejectSeen 0 1
  else
    match msg with
    | .frame h bytes => (s.count (C.stkFramesRx link)).takeFrame link h bytes
    | .update tag gone u => s.remoteUpdate m tag gone u
    | .wake tag => (s.tagged tag).elim s fun e => s.reissue e.1
    | .commitDone tag => s.remoteDone tag
    | .failed tag => (s.tagged tag).elim s fun e => s.failTrigger e.1 e.2.key
    | .replay tag handle image => s.remoteReplay m tag handle image
    | .frameEnd tag bad len head => s.remoteEnd m tag bad len head
    | .quit tag => s.quitProxy (proxyId m tag)
    | .seed v =>
      let wants := (s.stkRole == 1 || s.stkRole == 2) && role == 3 && !s.getB F.sysStatus_ready
        && !s.getB F.stkStatus_ownSeed && s.stk.masters.length ≤ 1
      if wants then { s with stk := { s.stk with seed := some v } } else s
    | .config mode lSlots maps => s.sendBulk link (.formReply (s.acceptsForm mode lSlots maps))
    | .formReply ok => s.formAnswer m ok
    | .formed mode lSlots members => s.formStack mode lSlots members (some m)
    | .dissolve => if s.stkFormed then s.dissolve else s
    | .arm ref words => s.armFor m ref words
    | .armReply ref ok => s.armAnswer m ref ok
    | .disarm ref => s.disarmFor ref
    | .swap target at_ => s.takeSwap target at_
    | .drained => s.takeDrained m
    | .swapDone => ({ s with stk := { s.stk with swapHold := false } }).reportSwap false
    | .fault code severity arg0 arg1 sec ns => s.logMember m code severity arg0 arg1 sec ns
    | .modes red reef bare =>
      let s1 : State := { s with stk := { s.stk with memberModes := SMap.set s.stk.memberModes m (red, reef, bare) } }
      s1.logMember m 0 0 red (2 * b2n bare + b2n reef) s.tm.sec s.tm.ns
    | .txPrepare id descs => s.openPart m id descs
    | .txVote id code => s.takeVote m id code
    | .txCommit id => (s.partOf m id).elim s fun e => s.commitPoint e.1
    | .txAbort id =>
      (s.partOf m id).elim s fun e => if e.2.phase == .committing then s else (s.delTx e.1).returnHandles e.2.writes
    | .txDone id code words => s.takeDone m id code words

/-! ## The slot frame (R546, R555, R564, R565) -/

/-- The class of a message in the bulk area (R546): control, lookup-class, cells. -/
def bulkClass : StkMsg → Nat
  | .frame _ _ => 2
  | .update _ _ _ => 1
  | .wake _ => 1
  | .commitDone _ => 1
  | .failed _ => 1
  | .replay _ _ _ => 1
  | .frameEnd _ _ _ _ => 1
  | .quit _ => 1
  | _ => 0

/-- A header taken in: the peer's role, masters heard, generations, acknowledgements. -/
def State.takeHeader (s : State) (link : Nat) (f : StkFrame) : State :=
  let heard := s.getF F.stkGen_genHeard
  let s1 : State := { s with stk := { s.stk with
    peerRole := SMap.set s.stk.peerRole link f.role
    masters := if f.role == 3 && !s.stk.masters.contains f.id then s.stk.masters ++ [f.id] else s.stk.masters } }
  let s2 : State := if s1.stk.masters.length > 1 && !s1.getB F.sysStatus_ready then
    { s1 with stk := { s1.stk with seed := none } } else s1
  let s3 := if s2.actingMaster && f.role == 2 && f.ack && f.heard ≥ s2.getF F.stkGen_genOwn then
    { s2 with stk := { s2.stk with ackAt := s2.tm.ticks } } else s2
  if f.gen == 0 || f.gen < heard then s3
  else
    let s4 := s3.setF F.stkGen_genHeard 0 f.gen
    if s4.actingMaster then (if f.gen > s4.getF F.stkGen_genOwn then s4.resign (some f.id) else s4)
    else ({ s4 with stk := { s4.stk with master := some f.id, masterAt := s4.tm.ticks } }).endCondition 0x2802 0

/-- The frame that this device sends in a slot of a link (R546). -/
def State.sendSlot (s : State) (link slot : Nat) : State :=
  if s.getB F.fltStatus_barePoles || s.furled then s
  else
    let (s1, ret) := s.castVotes.serveProxies.payReturn link slot
    let (s2, req) := s1.nextRequest link slot
    let q := SMap.getD s2.stk.bulk link []
    let bulk := [0, 1, 2].flatMap fun k => q.filter fun m => bulkClass m == k
    let s3 : State := { s2 with stk := { s2.stk with bulk := SMap.put [] s2.stk.bulk link [] } }
    let gen := if s3.actingMaster then s3.getF F.stkGen_genOwn else 0
    s3.emit (.kendrel link slot ⟨s3.stkId, s3.stkRole, gen, s3.getF F.stkGen_genHeard, s3.stkRole == 2, false, true, req, ret,
      bulk, 0, 0⟩)

/-- What a slot frame with a valid header brings: its return, its request, its messages. -/
def State.takeFields (s : State) (link slot : Nat) (f : StkFrame) : State :=
  let s1 := s.takeHeader link f
  let l := s1.getF F.stkCtrl_lSlots
  let s2 := match s1.stk.sent.find? fun x => x.link == link && x.slot + l == slot with
    | none => s1
    | some x =>
      let t : State := { s1 with stk := { s1.stk with sent := s1.stk.sent.erase x } }
      match f.ret with
      | some r => t.returned f.id x.pkt r
      | none => t.deferred f.id x.pkt
  let s3 := match f.request with
    | some r => if s2.stkFormed && s2.getF F.stkCtrl_mode == 2 then s2.takeRequest link slot f.id r else s2
    | none => s2
  f.bulk.foldl (State.takeMsg link f.id f.gen f.role) s3

/-- KENDREL_SLOT_FRAME (R546, R547, R550, R552, R554 to R557, R561 to R565): the frame that a link's peer sends in a slot,
and this device's own frame of that slot. -/
def execKendrelSlotFrame (link slot : Nat) (frame : StkFrame) (s : State) : Host.Outcome State Fault Refusal :=
  .next (
    if link ≥ 4 || !s.getB F.stkLink_up link then s
    else
      let s1 := (s.count (C.stkLinkFecCorr link) frame.fecCorr).count (C.stkLinkFecUncorr link) frame.fecUncorr
      if !frame.valid then
        let n := SMap.getD s1.stk.headerErrors link 0 + 1
        ({ s1 with stk := { s1.stk with headerErrors := SMap.set s1.stk.headerErrors link n } }).sendSlot link slot
      else if frame.id != s1.peerOf link then s1.dropLink link
      else (s1.takeFields link slot frame).sendSlot link slot)

/-! ## Time (R560) -/

/-- The lowest up link to the master that this device follows, and its second path: another link to the master, else one to
the deputy. -/
def State.timeLinks (s : State) : List Nat :=
  let up := (List.range 4).filter fun l => s.getB F.stkLink_up l
  let toMaster := up.filter fun l => s.stk.master == some (s.peerOf l)
  let toDeputy := up.filter fun l => SMap.getD s.stk.peerRole l 0 == 2 && s.stk.master != some (s.peerOf l)
  match toMaster, toDeputy with
  | a :: b :: _, _ => [a, b]
  | [a], d :: _ => [a, d]
  | l, _ => l

/-- TIME_MARKER_EXCHANGE (R560): `theta` in 2^-16 ns. Criod firmware gives it to domain A or B, with source 0. -/
def execTimeMarkerExchange (link : Nat) (theta : Int) (s : State) : Host.Outcome State Fault Refusal :=
  .next (
    if !s.stkFormed || s.actingMaster then s
    else
      match s.timeLinks with
      | [] => s
      | a :: rest =>
        if a == link then (s.setF F.tbsDomainCtrl_srcA 0 0).servoOffset 0 theta
        else if rest.contains link then (s.setF F.tbsDomainCtrl_srcB 0 0).servoOffset 1 theta
        else s)

/-! ## Status commands (R566) -/

/-- STK_STATUS (`stk.status`, R563, R566): STK_STATUS, STK_CTRL, STK_GEN, the four STK_LINK, then each member's reductions
with its reef mode and bare-poles state in bits 31 and 30 (log entry 169). -/
def execStkStatus (h : CmdHdr) (s : State) : Host.Outcome State Fault Refusal :=
  .next (s.cmd (.stkStatus h) h attrS [] fun s =>
    let modes := (List.range 4).map fun i =>
      if i == s.stkId then s.reductions + 2 ^ 31 * s.getF F.fltStatus_reef + 2 ^ 30 * s.getF F.fltStatus_barePoles
      else
        let (r, a, b) := SMap.getD s.stk.memberModes i (0, false, false)
        r + 2 ^ 31 * b2n a + 2 ^ 30 * b2n b
    (s, .val ([(s.rd .stkStatus 0).toNat, (s.rd .stkCtrl 0).toNat, (s.rd .stkGen 0).toNat]
      ++ (List.range 4).map (fun l => (s.rd .stkLink l).toNat) ++ modes)))

/-- STK_LINK_STATUS (`stk.link_status`, R566): lanes locked, measured delay, corrected and uncorrectable codewords,
slot-header errors, links up. -/
def execStkLinkStatus (h : CmdHdr) (link : Nat) (s : State) : Host.Outcome State Fault Refusal :=
  .next (s.cmd (.stkLinkStatus h link) h attrNone [decide (link < 4)] fun s =>
    let lo (n : Nat) : List Nat := [n % 2 ^ 32, n / 2 ^ 32]
    (s, .val ([if s.getB F.stkLink_up link then 0xFF else 0, s.getF F.stkLink_delay link]
      ++ lo (s.ctr (C.stkLinkFecCorr link)).value ++ lo (s.ctr (C.stkLinkFecUncorr link)).value
      ++ [SMap.getD s.stk.headerErrors link 0, s.getF F.stkStatus_linkUp])))

end Sys2Proof.Machine
end

