-- ==== Sys2Proof/Machine/Dispatch.lean ====
section
/-! DEFINITION. The dispatch: one arm per command. -/

namespace Sys2Proof.Machine

/-- The effect of a command on everything but the queue. -/
def exec (i : Instr) (s : State) : Host.Outcome State Fault Refusal :=
  match i with
  | .sysIdentity h => Sys2Proof.Machine.execSysIdentity h s
  | .sysStatus h => Sys2Proof.Machine.execSysStatus h s
  | .sysDebugChallenge h => Sys2Proof.Machine.execSysDebugChallenge h s
  | .sysDebugUnlock h key => Sys2Proof.Machine.execSysDebugUnlock h key s
  | .sysFwUpdate h image key written => Sys2Proof.Machine.execSysFwUpdate h image key written s
  | .sysFurl h => Sys2Proof.Machine.execSysFurl h s
  | .sysUnfurl h => Sys2Proof.Machine.execSysUnfurl h s
  | .mbxNop h => Sys2Proof.Machine.execMbxNop h s
  | .ringConfig h ring rtype base n slotSize vector count us enable => Sys2Proof.Machine.execRingConfig h ring rtype base n slotSize vector count us enable s
  | .ringBind h cls dest => Sys2Proof.Machine.execRingBind h cls dest s
  | .ringStatus h ring => Sys2Proof.Machine.execRingStatus h ring s
  | .timeServoConfig h kp ki fMax lockThreshold lockCount unlockThreshold stepThreshold inputTimeout holdoverGrace => Sys2Proof.Machine.execTimeServoConfig h kp ki fMax lockThreshold lockCount unlockThreshold stepThreshold inputTimeout holdoverGrace s
  | .timeDomainConfig h domain source port domainNumber meanPathDelay autoSwitch => Sys2Proof.Machine.execTimeDomainConfig h domain source port domainNumber meanPathDelay autoSwitch s
  | .timeSelectDomain h domain => Sys2Proof.Machine.execTimeSelectDomain h domain s
  | .timeSlewConfig h slewRate slewRamp => Sys2Proof.Machine.execTimeSlewConfig h slewRate slewRamp s
  | .timeTcConfig h mode ports delays => Sys2Proof.Machine.execTimeTcConfig h mode ports delays s
  | .timeIoConfig h ioCtrl synce0 synce1 => Sys2Proof.Machine.execTimeIoConfig h ioCtrl synce0 synce1 s
  | .tecArm h words => Sys2Proof.Machine.execTecArm h words s
  | .tecCancel h handle => Sys2Proof.Machine.execTecCancel h handle s
  | .portConfig h port lanes laneRate fec medium anEn ltEn maxFrame ctEn holdoff => Sys2Proof.Machine.execPortConfig h port lanes laneRate fec medium anEn ltEn maxFrame ctEn holdoff s
  | .portDelete h port => Sys2Proof.Machine.execPortDelete h port s
  | .portLaneMap h macro_ txOrder txPol rxOrder rxPol => Sys2Proof.Machine.execPortLaneMap h macro_ txOrder txPol rxOrder rxPol s
  | .portFcConfig h port mode classes xoff xon headroom quanta watchdog restore => Sys2Proof.Machine.execPortFcConfig h port mode classes xoff xon headroom quanta watchdog restore s
  | .portStatus h port => Sys2Proof.Machine.execPortStatus h port s
  | .prsGraphWrite h index words => Sys2Proof.Machine.execPrsGraphWrite h index words s
  | .prsGraphRead h index => Sys2Proof.Machine.execPrsGraphRead h index s
  | .prsPortStart h port start group => Sys2Proof.Machine.execPrsPortStart h port start group s
  | .prsKeyProfile h index words => Sys2Proof.Machine.execPrsKeyProfile h index words s
  | .prsKeyMap h group keyClass profile => Sys2Proof.Machine.execPrsKeyMap h group keyClass profile s
  | .prsScanConfig h ipv4 geneve => Sys2Proof.Machine.execPrsScanConfig h ipv4 geneve s
  | .prsExcConfig h conflictAction trapEn trapToCriod trapRing trapLen => Sys2Proof.Machine.execPrsExcConfig h conflictAction trapEn trapToCriod trapRing trapLen s
  | .emTableConfig h table wide keyUnits => Sys2Proof.Machine.execEmTableConfig h table wide keyUnits s
  | .emInsert h table key ep0 ep1 action data => Sys2Proof.Machine.execEmInsert h table key ep0 ep1 action data s
  | .emModify h table key epoch action data => Sys2Proof.Machine.execEmModify h table key epoch action data s
  | .emDelete h table key epoch => Sys2Proof.Machine.execEmDelete h table key epoch s
  | .emSetMembership h table key epoch ep0 ep1 => Sys2Proof.Machine.execEmSetMembership h table key epoch ep0 ep1 s
  | .emRead h table key epoch clearHit => Sys2Proof.Machine.execEmRead h table key epoch clearHit s
  | .clsClassProfile h index word => Sys2Proof.Machine.execClsClassProfile h index word s
  | .clsPortConfig h port vrf vlan unknownSa staticMove => Sys2Proof.Machine.execClsPortConfig h port vrf vlan unknownSa staticMove s
  | .clsProfileSet h index words => Sys2Proof.Machine.execClsProfileSet h index words s
  | .l2Insert h vlan mac port isStatic => Sys2Proof.Machine.execL2Insert h vlan mac port isStatic s
  | .l2Delete h vlan mac => Sys2Proof.Machine.execL2Delete h vlan mac s
  | .l2LearnConfig h toHost ring holdoff rate ageTime sweepPeriod => Sys2Proof.Machine.execL2LearnConfig h toHost ring holdoff rate ageTime sweepPeriod s
  | .routeHostAdd h vrf v6 addr plen fwdOp fwdTarget => Sys2Proof.Machine.execRouteHostAdd h vrf v6 addr plen fwdOp fwdTarget s
  | .routeLpmAdd h vrf v6 addr plen fwdOp fwdTarget => Sys2Proof.Machine.execRouteLpmAdd h vrf v6 addr plen fwdOp fwdTarget s
  | .routeDelete h table vrf v6 addr plen => Sys2Proof.Machine.execRouteDelete h table vrf v6 addr plen s
  | .nhSet h index port rewrite backup backupValid => Sys2Proof.Machine.execNhSet h index port rewrite backup backupValid s
  | .ecmpSet h group hashSel members => Sys2Proof.Machine.execEcmpSet h group hashSel members s
  | .epochSwap h target => Sys2Proof.Machine.execEpochSwap h target s
  | .epochStatus h => Sys2Proof.Machine.execEpochStatus h s
  | .mskBankConfig h bank width prio => Sys2Proof.Machine.execMskBankConfig h bank width prio s
  | .mskProfileSet h index words => Sys2Proof.Machine.execMskProfileSet h index words s
  | .mskWrite h bank index ep0 ep1 width value mask action => Sys2Proof.Machine.execMskWrite h bank index ep0 ep1 width value mask action s
  | .mskModifyAction h bank index action => Sys2Proof.Machine.execMskModifyAction h bank index action s
  | .mskSetMembership h bank index ep0 ep1 => Sys2Proof.Machine.execMskSetMembership h bank index ep0 ep1 s
  | .mskDelete h bank index => Sys2Proof.Machine.execMskDelete h bank index s
  | .mskRead h bank index clearHit => Sys2Proof.Machine.execMskRead h bank index clearHit s
  | .mskScrubConfig h scrubEn => Sys2Proof.Machine.execMskScrubConfig h scrubEn s
  | .flowInsert h flow => Sys2Proof.Machine.execFlowInsert h flow s
  | .flowRead h byHandle handle key => Sys2Proof.Machine.execFlowRead h byHandle handle key s
  | .flowModify h key mask words => Sys2Proof.Machine.execFlowModify h key mask words s
  | .flowDelete h key => Sys2Proof.Machine.execFlowDelete h key s
  | .fstRebuild h k newSeed => Sys2Proof.Machine.execFstRebuild h k newSeed s
  | .fstSweepConfig h desc mask => Sys2Proof.Machine.execFstSweepConfig h desc mask s
  | .fstMqConfig h setupCap => Sys2Proof.Machine.execFstMqConfig h setupCap s
  | .fstStatus h shard => Sys2Proof.Machine.execFstStatus h shard s
  | .setupTemplateSet h index words => Sys2Proof.Machine.execSetupTemplateSet h index words s
  | .setupFwConfig h timeout => Sys2Proof.Machine.execSetupFwConfig h timeout s
  | .natPoolSet h pool insideBase insideShift subCount outsideBase addrCount portLo blockSize m prefix64 len64 => Sys2Proof.Machine.execNatPoolSet h pool insideBase insideShift subCount outsideBase addrCount portLo blockSize m prefix64 len64 s
  | .natPoolStatus h pool sub => Sys2Proof.Machine.execNatPoolStatus h pool sub s
  | .natHoldConfig h seconds => Sys2Proof.Machine.execNatHoldConfig h seconds s
  | .bpmHeapConfig h n64 n128 n256 => Sys2Proof.Machine.execBpmHeapConfig h n64 n128 n256 s
  | .bpmCtrlConfig h counts => Sys2Proof.Machine.execBpmCtrlConfig h counts s
  | .bpmStatus h => Sys2Proof.Machine.execBpmStatus h s
  | .txOpen h => Sys2Proof.Machine.execTxOpen h s
  | .txAdd h tx descs => Sys2Proof.Machine.execTxAdd h tx descs s
  | .txCommit h tx => Sys2Proof.Machine.execTxCommit h tx s
  | .txAbort h tx => Sys2Proof.Machine.execTxAbort h tx s
  | .rigLoad h image key => Sys2Proof.Machine.execRigLoad h image key s
  | .rigEntrySet h entry valid ep0 ep1 limit => Sys2Proof.Machine.execRigEntrySet h entry valid ep0 ep1 limit s
  | .rigStatus h => Sys2Proof.Machine.execRigStatus h s
  | .rigTableWrite h kind first rows => Sys2Proof.Machine.execRigTableWrite h kind first rows s
  | .polProfileSet h index cir pir cbs pbs aware => Sys2Proof.Machine.execPolProfileSet h index cir pir cbs pbs aware s
  | .lbPoolSet h pool seed backends => Sys2Proof.Machine.execLbPoolSet h pool seed backends s
  | .lbBackendSet h backend address port state => Sys2Proof.Machine.execLbBackendSet h backend address port state s
  | .iqmProfileSet h profile cls minCells alpha maxCells yellow red ageLimit => Sys2Proof.Machine.execIqmProfileSet h profile cls minCells alpha maxCells yellow red ageLimit s
  | .iqmPortConfig h port profile pcpMap defClass inSession egSession sampleN => Sys2Proof.Machine.execIqmPortConfig h port profile pcpMap defClass inSession egSession sampleN s
  | .iqmGlobalConfig h arrivalReserve mcReserve mirrorMax copyRate sampleLen ctEn => Sys2Proof.Machine.execIqmGlobalConfig h arrivalReserve mcReserve mirrorMax copyRate sampleLen ctEn s
  | .iqmTrapConfig h index toCriod ring trapLen => Sys2Proof.Machine.execIqmTrapConfig h index toCriod ring trapLen s
  | .iqmVoqStatus h pipe port cls => Sys2Proof.Machine.execIqmVoqStatus h pipe port cls s
  | .replGroupSet h group prune members => Sys2Proof.Machine.execReplGroupSet h group prune members s
  | .mirrorSessionSet h session m => Sys2Proof.Machine.execMirrorSessionSet h session m s
  | .smpProfileSet h profile n => Sys2Proof.Machine.execSmpProfileSet h profile n s
  | .egsSchedConfig h port classes shapedMask => Sys2Proof.Machine.execEgsSchedConfig h port classes shapedMask s
  | .egsShaperSet h port shaper mode rate burst overhead hi lo zeroReset => Sys2Proof.Machine.execEgsShaperSet h port shaper mode rate burst overhead hi lo zeroReset s
  | .egsPortConfig h port frerElim gateLead => Sys2Proof.Machine.execEgsPortConfig h port frerElim gateLead s
  | .egsUnlockedConfig h state mask => Sys2Proof.Machine.execEgsUnlockedConfig h state mask s
  | .egsRewriteSet h index words => Sys2Proof.Machine.execEgsRewriteSet h index words s
  | .egsFailoverConfig h revertHoldoff => Sys2Proof.Machine.execEgsFailoverConfig h revertHoldoff s
  | .gateListSet h port list valid gateMask base cycleTime cycleExt entries => Sys2Proof.Machine.execGateListSet h port list valid gateMask base cycleTime cycleExt entries s
  | .gateActivate h port list => Sys2Proof.Machine.execGateActivate h port list s
  | .gateStatus h port => Sys2Proof.Machine.execGateStatus h port s
  | .redConfig h latentEn period => Sys2Proof.Machine.execRedConfig h latentEn period s
  | .redMonitorSet h monitor handle n threshold enable => Sys2Proof.Machine.execRedMonitorSet h monitor handle n threshold enable s
  | .mcxStatus h stack => Sys2Proof.Machine.execMcxStatus h stack s
  | .mcxHistory h stack => Sys2Proof.Machine.execMcxHistory h stack s
  | .mcxRhConfig h threshold => Sys2Proof.Machine.execMcxRhConfig h threshold s
  | .mcxScrubConfig h patrolEn scrubHours extLimit => Sys2Proof.Machine.execMcxScrubConfig h patrolEn scrubHours extLimit s
  | .mcxRetire h stack pc => Sys2Proof.Machine.execMcxRetire h stack pc s
  | .crdStatus h => Sys2Proof.Machine.execCrdStatus h s
  | .crdTakeover h core => Sys2Proof.Machine.execCrdTakeover h core s
  | .crdConfig h becalmedAction kickPeriod ckptPeriod => Sys2Proof.Machine.execCrdConfig h becalmedAction kickPeriod ckptPeriod s
  | .crdHealth h => Sys2Proof.Machine.execCrdHealth h s
  | .dbgStop h core thread => Sys2Proof.Machine.execDbgStop h core thread s
  | .dbgResume h core thread => Sys2Proof.Machine.execDbgResume h core thread s
  | .dbgStep h core thread writes => Sys2Proof.Machine.execDbgStep h core thread writes s
  | .dbgHold h core thread on => Sys2Proof.Machine.execDbgHold h core thread on s
  | .dbgThreadRead h core thread sram first count => Sys2Proof.Machine.execDbgThreadRead h core thread sram first count s
  | .dbgThreadWrite h core thread sram first values => Sys2Proof.Machine.execDbgThreadWrite h core thread sram first values s
  | .dbgChannelRead h channel => Sys2Proof.Machine.execDbgChannelRead h channel s
  | .dbgChannelAbort h channel => Sys2Proof.Machine.execDbgChannelAbort h channel s
  | .fltRead h index => Sys2Proof.Machine.execFltRead h index s
  | .fltClear h index => Sys2Proof.Machine.execFltClear h index s
  | .fltConfig h code notify intn => Sys2Proof.Machine.execFltConfig h code notify intn s
  | .logRead h first count => Sys2Proof.Machine.execLogRead h first count s
  | .logMarker h code word => Sys2Proof.Machine.execLogMarker h code word s
  | .availRead h => Sys2Proof.Machine.execAvailRead h s
  | .availReset h => Sys2Proof.Machine.execAvailReset h s
  | .cntSnapshot h bank groups => Sys2Proof.Machine.execCntSnapshot h bank groups s
  | .cntSnapshotAt h bank groups instant stack => Sys2Proof.Machine.execCntSnapshotAt h bank groups instant stack s
  | .cntRead h bank group first count => Sys2Proof.Machine.execCntRead h bank group first count s
  | .cntReadOne h group index => Sys2Proof.Machine.execCntReadOne h group index s
  | .cntClear h groups => Sys2Proof.Machine.execCntClear h groups s
  | .cntBwConfig h port code enable => Sys2Proof.Machine.execCntBwConfig h port code enable s
  | .cntBwRead h port => Sys2Proof.Machine.execCntBwRead h port s
  | .expTemplateSet h set header slots => Sys2Proof.Machine.execExpTemplateSet h set header slots s
  | .expCollectorSet h collector dest => Sys2Proof.Machine.execExpCollectorSet h collector dest s
  | .expConfig h enable interval defaultSet msgMax enterprise => Sys2Proof.Machine.execExpConfig h enable interval defaultSet msgMax enterprise s
  | .expStatus h => Sys2Proof.Machine.execExpStatus h s
  | .lifeReport h source => Sys2Proof.Machine.execLifeReport h source s
  | .lifeConfig h alarmMonths => Sys2Proof.Machine.execLifeConfig h alarmMonths s
  | .stkConfig h mode lSlots maps => Sys2Proof.Machine.execStkConfig h mode lSlots maps s
  | .stkStatus h => Sys2Proof.Machine.execStkStatus h s
  | .stkLinkStatus h link => Sys2Proof.Machine.execStkLinkStatus h link s
  | .frameArrival port bytes => Sys2Proof.Machine.execFrameArrival port bytes s
  | .frameEndStatus port bytes fcs err corrCw uncorrCw => Sys2Proof.Machine.execFrameEndStatus port bytes fcs err corrCw uncorrCw s
  | .rxMacControlFrame port opcode classes quanta => Sys2Proof.Machine.execRxMacControlFrame port opcode classes quanta s
  | .pauseExpiry port cls => Sys2Proof.Machine.execPauseExpiry port cls s
  | .xoffResend port cls => Sys2Proof.Machine.execXoffResend port cls s
  | .pfcWatchdog port cls => Sys2Proof.Machine.execPfcWatchdog port cls s
  | .pfcRestoreEnd port cls => Sys2Proof.Machine.execPfcRestoreEnd port cls s
  | .localLinkFault port cause => Sys2Proof.Machine.execLocalLinkFault port cause s
  | .remoteLinkFault port => Sys2Proof.Machine.execRemoteLinkFault port s
  | .linkUpHoldoffExpiry port => Sys2Proof.Machine.execLinkUpHoldoffExpiry port s
  | .anComplete port partner => Sys2Proof.Machine.execAnComplete port partner s
  | .anRestart port => Sys2Proof.Machine.execAnRestart port s
  | .deal pipe kind err => Sys2Proof.Machine.execDeal pipe kind err s
  | .parserReorderRelease pipe src errs => Sys2Proof.Machine.execParserReorderRelease pipe src errs s
  | .flowLookupRequest shard err => Sys2Proof.Machine.execFlowLookupRequest shard err s
  | .recordHop shard => Sys2Proof.Machine.execRecordHop shard s
  | .linkFill shard => Sys2Proof.Machine.execLinkFill shard s
  | .missReadReturn shard place corrected => Sys2Proof.Machine.execMissReadReturn shard place corrected s
  | .installRetry shard place => Sys2Proof.Machine.execInstallRetry shard place s
  | .lookupAnswer pipe => Sys2Proof.Machine.execLookupAnswer pipe s
  | .rigDispatch pipe upset => Sys2Proof.Machine.execRigDispatch pipe upset s
  | .tcallResult pipe rig wait upset => Sys2Proof.Machine.execTcallResult pipe rig wait upset s
  | .rigRestartComplete pipe goldenOk => Sys2Proof.Machine.execRigRestartComplete pipe goldenOk s
  | .updateFlit shard => Sys2Proof.Machine.execUpdateFlit shard s
  | .transitionAck pipe => Sys2Proof.Machine.execTransitionAck pipe s
  | .replayReply pipe => Sys2Proof.Machine.execReplayReply pipe s
  | .rigReorderRelease pipe src => Sys2Proof.Machine.execRigReorderRelease pipe src s
  | .voqReq egress => Sys2Proof.Machine.execVoqReq egress s
  | .voqEmpty egress => Sys2Proof.Machine.execVoqEmpty egress s
  | .grantIssue port => Sys2Proof.Machine.execGrantIssue port s
  | .grantArrival pipe place err => Sys2Proof.Machine.execGrantArrival pipe place err s
  | .ctRequest port => Sys2Proof.Machine.execCtRequest port s
  | .ctDeny pipe => Sys2Proof.Machine.execCtDeny pipe s
  | .cellLanding egress place err => Sys2Proof.Machine.execCellLanding egress place err s
  | .headScan pipe => Sys2Proof.Machine.execHeadScan pipe s
  | .transmitSelection port errs => Sys2Proof.Machine.execTransmitSelection port errs s
  | .ctUnderrun port => Sys2Proof.Machine.execCtUnderrun port s
  | .txFrameEnd port => Sys2Proof.Machine.execTxFrameEnd port s
  | .shaperWake pipe => Sys2Proof.Machine.execShaperWake pipe s
  | .wheelTurn pipe => Sys2Proof.Machine.execWheelTurn pipe s
  | .gateEntryChange port => Sys2Proof.Machine.execGateEntryChange port s
  | .gateChangeInstant port => Sys2Proof.Machine.execGateChangeInstant port s
  | .gateListRepair port => Sys2Proof.Machine.execGateListRepair port s
  | .failoverRevert port => Sys2Proof.Machine.execFailoverRevert port s
  | .latentPeriodEnd errs => Sys2Proof.Machine.execLatentPeriodEnd errs s
  | .residenceEntryExpiry pipeline => Sys2Proof.Machine.execResidenceEntryExpiry pipeline s
  | .rewriteEntryRepair index => Sys2Proof.Machine.execRewriteEntryRepair index s
  | .txDescriptorFetch ring words frame => Sys2Proof.Machine.execTxDescriptorFetch ring words frame s
  | .timeBaseTick => Sys2Proof.Machine.execTimeBaseTick s
  | .halyardFrame deviations => Sys2Proof.Machine.execHalyardFrame deviations s
  | .stepFrame => Sys2Proof.Machine.execStepFrame s
  | .servoOffset domain theta => Sys2Proof.Machine.execServoOffset domain theta s
  | .domainTimeout domain => Sys2Proof.Machine.execDomainTimeout domain s
  | .holdoverGraceExpiry => Sys2Proof.Machine.execHoldoverGraceExpiry s
  | .tecFiring => Sys2Proof.Machine.execTecFiring s
  | .tecDeferredFiring => Sys2Proof.Machine.execTecDeferredFiring s
  | .ppsOutEdge => Sys2Proof.Machine.execPpsOutEdge s
  | .ppsInEdge => Sys2Proof.Machine.execPpsInEdge s
  | .todMessageRx chars => Sys2Proof.Machine.execTodMessageRx chars s
  | .todWindowExpiry => Sys2Proof.Machine.execTodWindowExpiry s
  | .todOutput => Sys2Proof.Machine.execTodOutput s
  | .referenceLost ref => Sys2Proof.Machine.execReferenceLost ref s
  | .referenceRelock ref => Sys2Proof.Machine.execReferenceRelock ref s
  | .prsEntryRepair pipe table index => Sys2Proof.Machine.execPrsEntryRepair pipe table index s
  | .clsEntryRepair die table index => Sys2Proof.Machine.execClsEntryRepair die table index s
  | .mskScrubVisit pipe upset shroud => Sys2Proof.Machine.execMskScrubVisit pipe upset shroud s
  | .mskSuspectRepair pipe bank unit => Sys2Proof.Machine.execMskSuspectRepair pipe bank unit s
  | .mskActionRepair pipe bank unit => Sys2Proof.Machine.execMskActionRepair pipe bank unit s
  | .epochSwapInstant => Sys2Proof.Machine.execEpochSwapInstant s
  | .swapComplete => Sys2Proof.Machine.execSwapComplete s
  | .epochDrainDeadline => Sys2Proof.Machine.execEpochDrainDeadline s
  | .l2AgerVisit die slot => Sys2Proof.Machine.execL2AgerVisit die slot s
  | .relocationClear shard => Sys2Proof.Machine.execRelocationClear shard s
  | .rebuildBucket shard => Sys2Proof.Machine.execRebuildBucket shard s
  | .rebuildComplete => Sys2Proof.Machine.execRebuildComplete s
  | .ageingPassStart shard desc => Sys2Proof.Machine.execAgeingPassStart shard desc s
  | .ageingBlockVisit shard => Sys2Proof.Machine.execAgeingBlockVisit shard s
  | .ageRemovalCommit shard => Sys2Proof.Machine.execAgeRemovalCommit shard s
  | .fwSetupVerdict shard place verdict thread flow => Sys2Proof.Machine.execFwSetupVerdict shard place verdict thread flow s
  | .fwSetupTimeout shard place => Sys2Proof.Machine.execFwSetupTimeout shard place s
  | .natHoldRelease shard => Sys2Proof.Machine.execNatHoldRelease shard s
  | .bpmDemandRequest ctrl pool requesters => Sys2Proof.Machine.execBpmDemandRequest ctrl pool requesters s
  | .bpmBatchRefill shard pool => Sys2Proof.Machine.execBpmBatchRefill shard pool s
  | .bpmRecallComplete pool => Sys2Proof.Machine.execBpmRecallComplete pool s
  | .refcountOp ctrl handle requester add => Sys2Proof.Machine.execRefcountOp ctrl handle requester add s
  | .txPrepare tx => Sys2Proof.Machine.execTxPrepare tx s
  | .txCommitPoint tx => Sys2Proof.Machine.execTxCommitPoint tx s
  | .txCommitReceipt tx shard => Sys2Proof.Machine.execTxCommitReceipt tx shard s
  | .txAckAll tx => Sys2Proof.Machine.execTxAckAll tx s
  | .txPrepareTimeout tx => Sys2Proof.Machine.execTxPrepareTimeout tx s
  | .generationFence core => Sys2Proof.Machine.execGenerationFence core s
  | .hbmUncorrectable g e => Sys2Proof.Machine.execHbmUncorrectable g e s
  | .freezeEnd g => Sys2Proof.Machine.execFreezeEnd g s
  | .retireCopyComplete stack => Sys2Proof.Machine.execRetireCopyComplete stack s
  | .hbmRefresh g => Sys2Proof.Machine.execHbmRefresh g s
  | .hbmTempRead stack temp => Sys2Proof.Machine.execHbmTempRead stack temp s
  | .neighbourRefresh g bank row n => Sys2Proof.Machine.execNeighbourRefresh g bank row n s
  | .refreshWindowBoundary stack => Sys2Proof.Machine.execRefreshWindowBoundary stack s
  | .patrolScrubRead g corrected uncorrectable => Sys2Proof.Machine.execPatrolScrubRead g corrected uncorrectable s
  | .retrainWindowExit stack history => Sys2Proof.Machine.execRetrainWindowExit stack history s
  | .furlSelfRefreshEntry stack request => Sys2Proof.Machine.execFurlSelfRefreshEntry stack request s
  | .furlEntryRetry stack request => Sys2Proof.Machine.execFurlEntryRetry stack request s
  | .selfRefreshExitHeld stack => Sys2Proof.Machine.execSelfRefreshExitHeld stack s
  | .waitEventWake thread wait sources => Sys2Proof.Machine.execWaitEventWake thread wait sources s
  | .channelEndWrite thread channel words last => Sys2Proof.Machine.execChannelEndWrite thread channel words last s
  | .channelReadEnd thread channel => Sys2Proof.Machine.execChannelReadEnd thread channel s
  | .taskPost task level core budget => Sys2Proof.Machine.execTaskPost task level core budget s
  | .taskSwitch thread how => Sys2Proof.Machine.execTaskSwitch thread how s
  | .schedulerTick => Sys2Proof.Machine.execSchedulerTick s
  | .runBudgetExpiry thread addr => Sys2Proof.Machine.execRunBudgetExpiry thread addr s
  | .threadFault thread kind addr => Sys2Proof.Machine.execThreadFault thread kind addr s
  | .becalmed => Sys2Proof.Machine.execBecalmed s
  | .becalmedAction => Sys2Proof.Machine.execBecalmedAction s
  | .housekeeping => Sys2Proof.Machine.execHousekeeping s
  | .selftestPassEnd core failed age service => Sys2Proof.Machine.execSelftestPassEnd core failed age service s
  | .kickTimeout core => Sys2Proof.Machine.execKickTimeout core s
  | .coreFailure core cause => Sys2Proof.Machine.execCoreFailure core cause s
  | .takeoverComplete => Sys2Proof.Machine.execTakeoverComplete s
  | .serviceCheckpoint service content => Sys2Proof.Machine.execServiceCheckpoint service content s
  | .mbxSqDoorbell mbx tail => Sys2Proof.Machine.execMbxSqDoorbell mbx tail s
  | .mbxCqDoorbell mbx arm head => Sys2Proof.Machine.execMbxCqDoorbell mbx arm head s
  | .ringDoorbell ring arm index => Sys2Proof.Machine.execRingDoorbell ring arm index s
  | .mbxEnable mbx entry => Sys2Proof.Machine.execMbxEnable mbx entry s
  | .mbxDisable mbx => Sys2Proof.Machine.execMbxDisable mbx s
  | .commandFetch words => Sys2Proof.Machine.execCommandFetch words s
  | .completionPost mbx => Sys2Proof.Machine.execCompletionPost mbx s
  | .flr => Sys2Proof.Machine.execFlr s
  | .perst speed width => Sys2Proof.Machine.execPerst speed width s
  | .d3hotEntry => Sys2Proof.Machine.execD3hotEntry s
  | .dmaReadError kind target unit cid addr => Sys2Proof.Machine.execDmaReadError kind target unit cid addr s
  | .notificationWrite => Sys2Proof.Machine.execNotificationWrite s
  | .ringCoalesceTimer ring => Sys2Proof.Machine.execRingCoalesceTimer ring s
  | .smbusBlockWrite words pecGood => Sys2Proof.Machine.execSmbusBlockWrite words pecGood s
  | .smbusStatusRead => Sys2Proof.Machine.execSmbusStatusRead s
  | .smbusCompletionRead => Sys2Proof.Machine.execSmbusCompletionRead s
  | .smbusResultRead => Sys2Proof.Machine.execSmbusResultRead s
  | .smbusIrqClear bit => Sys2Proof.Machine.execSmbusIrqClear bit s
  | .dmaStopWrite stop => Sys2Proof.Machine.execDmaStopWrite stop s
  | .warmResetWrite key warm => Sys2Proof.Machine.execWarmResetWrite key warm s
  | .tbsTimeLatch => Sys2Proof.Machine.execTbsTimeLatch s
  | .cntWindowRead high => Sys2Proof.Machine.execCntWindowRead high s
  | .cntLiveSample high => Sys2Proof.Machine.execCntLiveSample high s
  | .cntSnapReqWrite go bank groups => Sys2Proof.Machine.execCntSnapReqWrite go bank groups s
  | .logRestartWrite => Sys2Proof.Machine.execLogRestartWrite s
  | .pcHoldWrite stack value => Sys2Proof.Machine.execPcHoldWrite stack value s
  | .registerReadClear bar addr jtag => Sys2Proof.Machine.execRegisterReadClear bar addr jtag s
  | .registerWrite bar addr data full jtag => Sys2Proof.Machine.execRegisterWrite bar addr data full jtag s
  | .faultReport code inst arg0 arg1 addr master masterIndex access => Sys2Proof.Machine.execFaultReport code inst arg0 arg1 addr master masterIndex access s
  | .captureWindowClose => Sys2Proof.Machine.execCaptureWindowClose s
  | .conditionEnd code inst => Sys2Proof.Machine.execConditionEnd code inst s
  | .reefExit => Sys2Proof.Machine.execReefExit s
  | .barePolesExit => Sys2Proof.Machine.execBarePolesExit s
  | .collectorParity => Sys2Proof.Machine.execCollectorParity s
  | .heartbeatCheck beat => Sys2Proof.Machine.execHeartbeatCheck beat s
  | .shardRestart shard => Sys2Proof.Machine.execShardRestart shard s
  | .shardRestartComplete shard => Sys2Proof.Machine.execShardRestartComplete shard s
  | .qmRestartComplete pipe => Sys2Proof.Machine.execQmRestartComplete pipe s
  | .pwrfailAssert => Sys2Proof.Machine.execPwrfailAssert s
  | .lastGaspCommit => Sys2Proof.Machine.execLastGaspCommit s
  | .pwrfailRelease => Sys2Proof.Machine.execPwrfailRelease s
  | .serviceSecond => Sys2Proof.Machine.execServiceSecond s
  | .snapshotLatch => Sys2Proof.Machine.execSnapshotLatch s
  | .snapshotDrain bank => Sys2Proof.Machine.execSnapshotDrain bank s
  | .counterClearApply => Sys2Proof.Machine.execCounterClearApply s
  | .bwWindowEnd port => Sys2Proof.Machine.execBwWindowEnd port s
  | .exportEncode => Sys2Proof.Machine.execExportEncode s
  | .exportWindowClose set => Sys2Proof.Machine.execExportWindowClose set s
  | .exportMessageTimer collector => Sys2Proof.Machine.execExportMessageTimer collector s
  | .templateResend => Sys2Proof.Machine.execTemplateResend s
  | .lifeSample m good => Sys2Proof.Machine.execLifeSample m good s
  | .lifePrediction => Sys2Proof.Machine.execLifePrediction s
  | .wearAccWrite verified => Sys2Proof.Machine.execWearAccWrite verified s
  | .kendrelSlotFrame link slot frame => Sys2Proof.Machine.execKendrelSlotFrame link slot frame s
  | .remoteReissueTimeout pkt => Sys2Proof.Machine.execRemoteReissueTimeout pkt s
  | .kendrelLinkUp link macro_ peer role delay => Sys2Proof.Machine.execKendrelLinkUp link macro_ peer role delay s
  | .kendrelLinkDown link => Sys2Proof.Machine.execKendrelLinkDown link s
  | .seedWaitExpiry => Sys2Proof.Machine.execSeedWaitExpiry s
  | .stackFormResponse member accept => Sys2Proof.Machine.execStackFormResponse member accept s
  | .stackFormTimeout => Sys2Proof.Machine.execStackFormTimeout s
  | .timeMarkerExchange link theta => Sys2Proof.Machine.execTimeMarkerExchange link theta s
  | .deputyTakeover => Sys2Proof.Machine.execDeputyTakeover s
  | .masterResign => Sys2Proof.Machine.execMasterResign s
  | .powerOnReset straps persistent => Sys2Proof.Machine.execPowerOnReset straps persistent s
  | .pinReset straps => Sys2Proof.Machine.execPinReset straps s
  | .thermalTrip => Sys2Proof.Machine.execThermalTrip s
  | .bootStageComplete setup => Sys2Proof.Machine.execBootStageComplete setup s
  | .bootWatchdog => Sys2Proof.Machine.execBootWatchdog s
  | .nonceExpiry => Sys2Proof.Machine.execNonceExpiry s
  | .avsCorrection rail direction answered => Sys2Proof.Machine.execAvsCorrection rail direction answered s
  | .dieTempWarning unit temp => Sys2Proof.Machine.execDieTempWarning unit temp s
  | .receiveFaultCleared port => Sys2Proof.Machine.execReceiveFaultCleared port s
  | .ppsOutFall => Sys2Proof.Machine.execPpsOutFall s
  | .d3hotExit => Sys2Proof.Machine.execD3hotExit s
  | .flrComplete => Sys2Proof.Machine.execFlrComplete s
  | .powerLoss => Sys2Proof.Machine.execPowerLoss s
  | .exportWalkVisit set => Sys2Proof.Machine.execExportWalkVisit set s
  | .coreLogicTestEnd core passed => Sys2Proof.Machine.execCoreLogicTestEnd core passed s

end Sys2Proof.Machine
end

