-- ==== Sys2Proof/Machine/Step.lean ====
section
/-! DEFINITION. The step: the command at the front of the queue is taken and carried out; on an empty queue the block
begins a command it held back, or idles (log entries 185, 256). -/

namespace Sys2Proof.Machine

/-- The queue without its front. -/
def State.dropFront (s : State) : State := { s with pending := s.pending.drop 1 }

/-- One step: the command at the front of the queue; on an empty queue a held command that may begin now, else nothing (log
entry
256). -/
def step (s : State) : Host.Outcome State Fault Refusal :=
  match s.pending with
  | [] =>
    match s.takeWaiting s.host.waiting with
    | some (c, rest) => exec c { s with host := { s.host with waiting := rest } }
    | none => .next s
  | c :: _ => exec c s.dropFront

/-- A command put at the front of the queue. -/
def State.withFront (s : State) (c : Instr) : State := { s with pending := c :: s.pending }

/-- The state with the command that a table word spells at the front of its queue; unchanged where it spells none. -/
def State.withFetchWord (s : State) (nbits w : Nat) : State :=
  match decodeTableWord nbits w with
  | some c => s.withFront c
  | none => s

end Sys2Proof.Machine
end

