-- ==== Sys2Proof/Safety.lean ====
section
/-! DEFINITION. What counts as a sound state of the device and as a sound step, in the terms the statements use. -/

namespace Sys2Proof.Machine

/-- The bits of a register that never change: its reserved bits (RO, zero), and the whole of SYS_ID (R3, R473). -/
def Reg.fixedMask (r : Reg) : Nat := if r = .sysId then 0xFFFFFFFF else r.reservedMask

/-- A field that lies outside the fixed bits of its register. -/
def Fld.free (f : Fld) : Bool :=
  decide (f.lo ≤ f.hi) && Nat.land ((2 ^ (f.hi - f.lo + 1) - 1) <<< f.lo) f.reg.fixedMask == 0

/-- The registers are held in canonical form: keys strictly rising, each the key of a register's instance, and no
instance listed that holds its reset value. -/
def State.regsCanonical (s : State) : Prop :=
  SMap.rising s.regs = true ∧ ∀ e ∈ s.regs, ∃ r i, e.1 = Reg.key r i ∧ e.2 ≠ r.resetWord

/-- Every instance of every register reads its fixed bits as at reset. -/
def State.fixedHeld (s : State) : Prop :=
  ∀ r i, Nat.land (s.rd r i).toNat r.fixedMask = Nat.land r.resetWord.toNat r.fixedMask

/-- The counters are held in canonical form, and none passes its top (R517). -/
def State.ctrsSound (s : State) : Prop :=
  SMap.rising s.ctrs = true ∧ ∀ e ∈ s.ctrs, e.2 ≠ ⟨0, false⟩ ∧ e.2.value ≤ ctrTop

/-- A sound state. -/
structure State.Inv (s : State) : Prop where
  regs : s.regsCanonical
  fixed : s.fixedHeld
  ctrs : s.ctrsSound

/-- `t` follows soundly on `s`: the queue is as it was, free values are only used up, what was given to the outside
stays given, and a sound state leads to a sound one. -/
structure Keeps (s t : State) : Prop where
  queue : t.pending = s.pending
  drawn : s.drawn ≤ t.drawn
  out : s.out <:+ t.out
  inv : s.Inv → t.Inv

end Sys2Proof.Machine

namespace Sys2Proof

/-! ## Attributes of the commands (R470) -/

/-- The commands marked O, order-only (R455, R470). -/
def Instr.orderOnly : Instr → Bool
  | .sysDebugUnlock _ _ => true
  | .sysFwUpdate _ _ _ _ => true
  | .sysFurl _ => true
  | .sysUnfurl _ => true
  | .ringConfig _ _ _ _ _ _ _ _ _ _ => true
  | .ringBind _ _ _ => true
  | .epochSwap _ _ => true
  | .fstRebuild _ _ _ => true
  | .bpmHeapConfig _ _ _ _ => true
  | .bpmCtrlConfig _ _ => true
  | .txOpen _ => true
  | .txAdd _ _ _ => true
  | .txCommit _ _ => true
  | .txAbort _ _ => true
  | .rigLoad _ _ _ => true
  | .rigEntrySet _ _ _ _ _ _ => true
  | .gateListSet _ _ _ _ _ _ _ _ _ => true
  | .gateActivate _ _ _ => true
  | .mcxRetire _ _ _ => true
  | .crdTakeover _ _ => true
  | .dbgStop _ _ _ => true
  | .dbgResume _ _ _ => true
  | .dbgStep _ _ _ _ => true
  | .dbgHold _ _ _ _ => true
  | .dbgThreadRead _ _ _ _ _ _ => true
  | .dbgThreadWrite _ _ _ _ _ _ => true
  | .dbgChannelRead _ _ => true
  | .dbgChannelAbort _ _ => true
  | .availReset _ => true
  | .stkConfig _ _ _ _ => true
  | _ => false

/-- The commands marked S, accepted on the SMBus mailbox (R467, R470). -/
def Instr.onSmbus : Instr → Bool
  | .sysIdentity _ => true
  | .sysStatus _ => true
  | .mbxNop _ => true
  | .portStatus _ _ => true
  | .mcxStatus _ _ => true
  | .crdHealth _ => true
  | .fltRead _ _ => true
  | .logRead _ _ _ => true
  | .availRead _ => true
  | .cntReadOne _ _ _ => true
  | .lifeReport _ _ => true
  | .stkStatus _ => true
  | _ => false

/-- The commands marked D, debug mailbox only (R470). -/
def Instr.debugOnly : Instr → Bool
  | .dbgStop _ _ _ => true
  | .dbgResume _ _ _ => true
  | .dbgStep _ _ _ _ => true
  | .dbgHold _ _ _ _ => true
  | .dbgThreadRead _ _ _ _ _ _ => true
  | .dbgThreadWrite _ _ _ _ _ _ => true
  | .dbgChannelRead _ _ => true
  | .dbgChannelAbort _ _ => true
  | _ => false

/-- The commands that the ROM accepts while it waits for an image (R575). -/
def Instr.inRecovery : Instr → Bool
  | .sysIdentity _ => true
  | .sysFwUpdate _ _ _ _ => true
  | _ => false

end Sys2Proof
end

