-- ==== Sys2Proof/Certificates/Slice0/Obligations.lean ====
section
/-! DEFINITION. The statements for the provers. Those whose names end in Complete or Completes say, command by command, in
which states the command takes its own effect and what that effect is: the next state is given as an equation, so that
all that the equation does not name is left as it was. -/

open Sys2Proof Sys2Proof.Machine

/-- For every command and state, a step with the command at the front of the queue is exec of that command on the
state with the queue's rest; with an empty queue it is exec of the first held command that may begin, which is no
longer held, and where there is none the step answers the state unchanged (the model's choices, log entries 185 and
256). (R455.) -/
def Obligations.StepRunsFront : Prop :=
  (∀ (s : State) (c : Instr) (rest : List Instr), s.pending = c :: rest → step s = exec c { s with pending := rest }) ∧
  (∀ (s : State) (c : Instr) (rest : List (CmdHdr × Instr)), s.pending = [] → s.takeWaiting s.host.waiting = some (c, rest) →
      step s = exec c { s with host := { s.host with waiting := rest } }) ∧
  (∀ (s : State), s.pending = [] → s.takeWaiting s.host.waiting = none → step s = .next s)

/-- For every sound state, a step to a next state leads to a sound one: the register file is in canonical form, every
reserved bit of every register instance and all of SYS_ID read as at reset, the counters are in canonical form and no
counter is past 2^64 - 1. (R3, R446, R498, R517.) -/
def Obligations.StepKeepsInv : Prop :=
  ∀ (s t : State), s.Inv → step s = .next t → t.Inv

/-- For every state, sound or not, a step to a next state takes exactly the front of the queue (nothing where it is
empty), leaves every output given so far in its place below the new ones, and never lowers the count of free values
drawn. That outputs are kept in a list and free values are numbered is the model's own form (log entries 3 and 4).
(R27, R440.) -/
def Obligations.StepBookkeeping : Prop :=
  ∀ (s t : State), step s = .next t → t.pending = s.pending.drop 1 ∧ s.out <:+ t.out ∧ s.drawn ≤ t.drawn

/-- The state after reset meets the invariant that every step keeps, its queue is empty and nothing has been given to
the outside. (R3, R517.) -/
def Obligations.ResetSound : Prop :=
  State.reset.Inv ∧ State.reset.pending = [] ∧ State.reset.out = []

/-- After reset every instance of every register reads the word put together from its fields' reset values, among them
SYS_ID, the becalmed action, the stop of the log on severity S4, the months of the life alarm and the enable of the
SMBus mailbox; no port exists, and a port that is made starts with a link-up holdoff of 0. (R77, R82, R422, R473,
R475, R500, R538.) -/
def Obligations.ResetRegisters : Prop :=
  (∀ (r : Reg) (i : Nat), State.reset.rd r i = r.resetWord) ∧ (State.reset.rd .sysId 0).toNat = 0x51201006 ∧
    State.reset.getF F.crdCtrl_becalmedAction 0 = 1 ∧ State.reset.getF F.logCtrl_stopOnS4 0 = 1 ∧
    State.reset.getF F.lifeCtrl_alarmMonths 0 = 24 ∧ State.reset.getF F.mbxCtrl_smbEn 0 = 1 ∧
    State.reset.getF F.mbxCtrl_en 0 = 0 ∧ (∀ p, State.reset.portExists p = false) ∧ PortInfo.reset.holdoff = 0

/-- In every sound state a named field set to a value that fits reads that value; every bit of the same instance
outside the field, and every other register instance, read as before; the rest of the state is the same. (R3.) -/
def Obligations.FieldHolds : Prop :=
  ∀ (s : State) (f : Fld) (i v : Nat), s.Inv → f.lo ≤ f.hi → f.hi < 32 → v ≤ f.top →
    (s.setF f i v).getF f i = v ∧
    (∀ j < 32, (j < f.lo ∨ f.hi < j) → bitOf ((s.setF f i v).rd f.reg i).toNat j = bitOf (s.rd f.reg i).toNat j) ∧
    (∀ (r : Reg) (k : Nat), (r ≠ f.reg ∨ k ≠ i) → (s.setF f i v).rd r k = s.rd r k) ∧
    s.setF f i v = { s with regs := (s.setF f i v).regs }

/-- For every register, instance and written word: an RW field takes the written bits; an RW1C field keeps its bits
less those written as 1; RO, RC and WO fields keep their bits; an RWL field takes the written bits while its lock is
clear and keeps its own while it is set; the lock is reported as met exactly when a locked RWL field's written value
differs from its own; bits in no field keep their value. The valid bit of a capture, where the instance has one, is
cleared by writing 1 to it (R270, R400, R438, R474) and is set apart here. (R3, R446.) -/
def Obligations.RegisterWriteTypes : Prop :=
  ∀ (s : State) (r : Reg) (i : Nat) (data : BitVec 32), r.captureValid i = false →
    (∀ f ∈ r.fields,
      (f.ty = .rw → fieldOf (s.writeWord r i data).1 f.hi f.lo = fieldOf data f.hi f.lo) ∧
      (f.ty = .rw1c → fieldOf (s.writeWord r i data).1 f.hi f.lo =
        fieldOf (s.rd r i) f.hi f.lo - Nat.land (fieldOf (s.rd r i) f.hi f.lo) (fieldOf data f.hi f.lo)) ∧
      ((f.ty = .ro ∨ f.ty = .rc ∨ f.ty = .wo) →
        fieldOf (s.writeWord r i data).1 f.hi f.lo = fieldOf (s.rd r i) f.hi f.lo) ∧
      (f.ty = .rwl → s.regLocked r i = false → fieldOf (s.writeWord r i data).1 f.hi f.lo = fieldOf data f.hi f.lo) ∧
      (f.ty = .rwl → s.regLocked r i = true → fieldOf (s.writeWord r i data).1 f.hi f.lo = fieldOf (s.rd r i) f.hi f.lo)) ∧
    ((s.writeWord r i data).2 = true ↔ s.regLocked r i = true ∧
      ∃ f ∈ r.fields, f.ty = .rwl ∧ fieldOf (s.rd r i) f.hi f.lo ≠ fieldOf data f.hi f.lo) ∧
    (∀ j < 32, (∀ f ∈ r.fields, j < f.lo ∨ f.hi < j) →
      bitOf (s.writeWord r i data).1.toNat j = bitOf (s.rd r i).toNat j)

/-- In every sound state an add to a counter gives the sum, or 2^64 - 1 where the sum passes it; the flag is set where
it was set or the sum passes, and stays otherwise; every other counter is unchanged; CNT_EVENT.sat_seen is set where
the flag becomes set. (R517, R542.) -/
def Obligations.CounterSaturates : Prop :=
  ∀ (s : State) (c : CtrId) (n : Nat), s.Inv →
    ((s.count c n).ctr c).value = Nat.min ((s.ctr c).value + n) (2 ^ 64 - 1) ∧
    (((s.count c n).ctr c).sat = true ↔ (s.ctr c).sat = true ∨ 2 ^ 64 - 1 < (s.ctr c).value + n) ∧
    (∀ d : CtrId, d.key ≠ c.key → (s.count c n).ctr d = s.ctr d) ∧
    ((s.ctr c).sat = false → 2 ^ 64 - 1 < (s.ctr c).value + n → (s.count c n).getF F.cntEvent_satSeen 0 = 1)

/-- For a valid domain the command selects it and answers OK, and in every sound state the selected domain is then the
one named; for one that is not valid it answers E_STATE and the state is otherwise as it was. (R53.) -/
def Obligations.SelectDomain : Prop :=
  (∀ (s : State) (h : CmdHdr) (domain : Nat), s.refuseCmd h attrNone = none → domain < 2 → s.domainValid domain = true →
      exec (.timeSelectDomain h domain) s = .next ((s.switchDomain domain).finish h .ok)) ∧
  (∀ (s : State) (domain : Nat), s.Inv → domain < 2 → (s.switchDomain domain).selected = domain) ∧
  (∀ (s : State) (h : CmdHdr) (domain : Nat), s.refuseCmd h attrNone = none → domain < 2 → s.domainValid domain = false →
      exec (.timeSelectDomain h domain) s = .next (s.finish h (.err 0x0A)))

/-- The four words of a full time hold seconds [47:32] in word 3 [15:0], seconds [31:0] in word 2, nanoseconds in word
1 [29:0] and the fraction in word 0 [31:16]; the reserved bits are 0. (R34.) -/
def Obligations.FullTimeContainer : Prop :=
  ∀ (sec ns frac : Nat), sec < 2 ^ 48 → ns < 2 ^ 30 → frac < 2 ^ 16 →
    (fullTimeWords sec ns frac).length = 4 ∧ (∀ w ∈ fullTimeWords sec ns frac, w < 2 ^ 32) ∧
    bitsOf (wordAt (fullTimeWords sec ns frac) 3) 31 16 = 0 ∧
    wordAt (fullTimeWords sec ns frac) 3 * 2 ^ 32 + wordAt (fullTimeWords sec ns frac) 2 = sec ∧
    bitsOf (wordAt (fullTimeWords sec ns frac) 1) 31 30 = 0 ∧ bitsOf (wordAt (fullTimeWords sec ns frac) 1) 29 0 = ns ∧
    bitsOf (wordAt (fullTimeWords sec ns frac) 0) 31 16 = frac ∧ bitsOf (wordAt (fullTimeWords sec ns frac) 0) 15 0 = 0

/-- A command that may not begin yet, because an earlier command of its mailbox has not finished, is held with its
header and does nothing else (holding it is the model's own form, log entry 256). One that may begin is refused: while
the ROM waits for an image every command of a host or the debug mailbox other than sys.identity and sys.fw_update
answers E_STATE (the code is the model's choice, log entry 193); on the SMBus mailbox a command not marked S answers
E_AUTH; a debug command on a host mailbox answers E_AUTH; an order-only command of a host mailbox marked unordered
answers E_INVAL with the detail of a header fault. In each case nothing else in the state changes. (R455, R456, R467,
R470, R575.) -/
def Obligations.CommandsRefused : Prop :=
  (∀ (s t : State) (i : Instr) (h : CmdHdr), i.header = some h → s.mayBegin h = false → t = s.noteCmd h false →
      exec i s = .next { t with host := { t.host with waiting := t.host.waiting ++ [(h, i)] } }) ∧
  (∀ (s : State) (i : Instr) (h : CmdHdr), i.header = some h → s.mayBegin h = true → s.boot.recovery = true → h.mbx ≠ 9 →
      i.inRecovery = false → exec i s = .next (s.finish h (.err 0x0A))) ∧
  (∀ (s : State) (i : Instr) (h : CmdHdr), i.header = some h → s.mayBegin h = true → h.mbx = 9 → s.flt.fetchStopped = false →
      i.onSmbus = false → exec i s = .next (s.finish h (.err 0x09))) ∧
  (∀ (s : State) (i : Instr) (h : CmdHdr), i.header = some h → s.mayBegin h = true → h.mbx < 8 → s.boot.recovery = false →
      i.debugOnly = true → exec i s = .next (s.finish h (.err 0x09))) ∧
  (∀ (s : State) (i : Instr) (h : CmdHdr), i.header = some h → s.mayBegin h = true → h.mbx < 8 → s.boot.recovery = false →
      i.debugOnly = false → i.orderOnly = true → h.unordered = true → exec i s = .next (s.finish h ⟨0x01, 0x80000000, [], []⟩))

/-- In every sound state raising one of the ten causes sets its bit of SYS_IRQ_STATUS and no other, sends vector 9
exactly where the bit was clear and msix_en has it and the function is not in D3hot, and leaves INT_N asserted exactly
while an enabled bit or the board test is set; clearing bits by a mask clears those bits and no others, sends nothing,
and INT_N follows. (R442, R466, R473.) -/
def Obligations.InterruptsFollowStatus : Prop :=
  (∀ (s : State) (b : Nat), s.Inv → b < 10 →
      (∀ j < 32, bitOf ((s.raiseIrq b).rd .sysIrqStatus 0).toNat j = (bitOf (s.rd .sysIrqStatus 0).toNat j || j == b)) ∧
      (s.raiseIrq b).out = (if bitOf (s.getF F.sysIrqMask_msixEn) b = true ∧ bitOf (s.rd .sysIrqStatus 0).toNat b = false ∧
        s.getB F.pciStatus_d3hot = false then .msi 9 :: s.out else s.out) ∧
      ((s.raiseIrq b).host.intN = true ↔ Nat.land ((s.raiseIrq b).rd .sysIrqStatus 0).toNat (s.getF F.sysIrqMask_intnEn) ≠ 0 ∨
        s.getB F.sysCtrl_intnTest = true)) ∧
  (∀ (s : State) (mask : Nat), s.Inv →
      (∀ j < 32, bitOf ((s.clearIrq mask).rd .sysIrqStatus 0).toNat j = (bitOf (s.rd .sysIrqStatus 0).toNat j && !bitOf mask j)) ∧
      (s.clearIrq mask).out = s.out ∧
      ((s.clearIrq mask).host.intN = true ↔ Nat.land ((s.clearIrq mask).rd .sysIrqStatus 0).toNat (s.getF F.sysIrqMask_intnEn) ≠ 0 ∨
        s.getB F.sysCtrl_intnTest = true))

/-- A record that a source makes carries the source's number and waits behind the records made before it, and the
source's number goes up by one; a number is consumed without a record where one is dropped; no other source's number
changes. (R28, R462, R463.) -/
def Obligations.NotificationsNumbered : Prop :=
  (∀ (s : State) (kind cls index : Nat) (late : Bool) (payload : List Nat),
      (∃ r, (s.notify kind cls index late payload).host.notifQ = s.host.notifQ ++ [r] ∧
        r.seq = SMap.getD s.host.notifSeq (cls * 4096 + index) 0 ∧ r.kind = kind ∧ r.payload = payload) ∧
      (SMap.getD s.host.notifSeq (cls * 4096 + index) 0 + 1 < 2 ^ 32 →
        SMap.getD (s.notify kind cls index late payload).host.notifSeq (cls * 4096 + index) 0 =
          SMap.getD s.host.notifSeq (cls * 4096 + index) 0 + 1) ∧
      (∀ k, k ≠ cls * 4096 + index →
        SMap.getD (s.notify kind cls index late payload).host.notifSeq k 0 = SMap.getD s.host.notifSeq k 0)) ∧
  (∀ (s : State) (cls index n : Nat), 0 < n → SMap.getD s.host.notifSeq (cls * 4096 + index) 0 + n < 2 ^ 32 →
      (s.skipNotif cls index n).host.notifQ = s.host.notifQ ∧
      SMap.getD (s.skipNotif cls index n).host.notifSeq (cls * 4096 + index) 0 =
        SMap.getD s.host.notifSeq (cls * 4096 + index) 0 + n)

/-- On a port that exists a MAC control frame counts its 64 bytes in the port's bandwidth window and is acted on by
macControl. A pause that has run out releases its class; a class still in XOFF past half its quanta sends XOFF again;
a class held for the watchdog time is released, is barred from pausing for the restore time, its queued frames are
dropped, PORT_EVENT.pfc_wd_fired is set and fault 0xA001 raised; the end of the restore time lets the class pause
again. (R79, R80, R82, R92, R93, R94, R95.) -/
def Obligations.MacControlEventsComplete : Prop :=
  (∀ (s : State) (port opcode classes : Nat) (quanta : List Nat), s.portExists port = true →
      exec (.rxMacControlFrame port opcode classes quanta) s = .next ((s.bwFrame port false 64).macControl port opcode classes quanta)) ∧
  (∀ (s : State) (port cls t : Nat), SMap.find? (s.portInfo port).pauseEnd cls = some t → t ≤ s.tm.ticks →
      exec (.pauseExpiry port cls) s = .next (s.holdClass port cls 0)) ∧
  (∀ (s : State) (port cls t : Nat), SMap.find? (s.portInfo port).xoffAt cls = some t →
      s.getBit F.portStatus_txXoff port cls = true → t + s.quantaTicks port (s.portInfo port).quanta / 2 ≤ s.tm.ticks →
      exec (.xoffResend port cls) s = .next ((s.sendFc port cls (s.portInfo port).quanta).setPort port
        { s.portInfo port with xoffAt := SMap.set (s.portInfo port).xoffAt cls s.tm.ticks })) ∧
  (∀ (s : State) (port cls t : Nat), SMap.find? (s.portInfo port).heldSince cls = some t →
      t + msTicks (s.portInfo port).watchdog ≤ s.tm.ticks →
      exec (.pfcWatchdog port cls) s = .next ((((s.holdClass port cls 0).setPort port
          { (s.holdClass port cls 0).portInfo port with
            restoring := SMap.set (s.portInfo port).restoring cls (s.tm.ticks + msTicks (s.portInfo port).restore) }).watchdogDrop
        port cls).setF F.portEvent_pfcWdFired port 1 |>.raise 0xA001 port cls)) ∧
  (∀ (s : State) (port cls t : Nat), SMap.find? (s.portInfo port).restoring cls = some t → t ≤ s.tm.ticks →
      exec (.pfcRestoreEnd port cls) s = .next (s.setPort port { s.portInfo port with
        restoring := SMap.del (s.portInfo port).restoring cls }))

/-- Each clause gives, for every state that meets its conditions, the next state whole. LOCAL_LINK_FAULT on a port
that exists sets rx_local_fault; cause 0 clears block_lock and fec_lock, cause 1 clears align_lock, cause 2 sets
hi_ber and hi_ber_seen; the operation linkFault of the port follows. REMOTE_LINK_FAULT on a port that exists sets
rx_remote_fault; linkFault follows. RECEIVE_FAULT_CLEARED on a port that exists with its link down clears both fault
bits and hi_ber, sets block_lock and align_lock, sets fec_lock where the port runs an FEC, notes the time, and has
what the port sends follow; where the holdoff is 0 link up is declared at once. LINK_UP_HOLDOFF_EXPIRY on a port that
exists with its link down, the holdoff having passed since the faults cleared, declares link up. AN_COMPLETE on a port
that exists with an_en set and an_state 1, with a partner's abilities of which one is common, puts that ability into
force, shows an_state 2 where lt_en is set and 3 elsewhere, and has the latencies written anew. AN_COMPLETE in
an_state 2 that did not fail shows an_state 3. AN_COMPLETE in an_state 1 or 2 that failed, or in an_state 1 without a
common ability, shows an_state 4, sets an_fail, clears the ability and sets the restart for 1 s later. AN_RESTART at
or after the time set for it shows an_state 1 and clears that time. (R79, R80, R81, R82, R96.) -/
def Obligations.LinkEventsComplete : Prop :=
  (∀ (s : State) (port cause : Nat), s.portExists port = true →
      exec (.localLinkFault port cause) s = .next (State.linkFault
        (if cause = 0 then ((s.setF F.portStatus_rxLocalFault port 1).setF F.portStatus_blockLock port 0).setF F.portStatus_fecLock port 0
         else if cause = 1 then (s.setF F.portStatus_rxLocalFault port 1).setF F.portStatus_alignLock port 0
         else if cause = 2 then ((s.setF F.portStatus_rxLocalFault port 1).setF F.portStatus_hiBer port 1).setF
           F.portEvent_hiBerSeen port 1
         else s.setF F.portStatus_rxLocalFault port 1) port)) ∧
  (∀ (s : State) (port : Nat), s.portExists port = true →
      exec (.remoteLinkFault port) s = .next ((s.setF F.portStatus_rxRemoteFault port 1).linkFault port)) ∧
  (∀ (s u : State) (port : Nat), s.portExists port = true → s.linkUp port = false →
      u = (((((((s.setF F.portStatus_rxLocalFault port 0).setF F.portStatus_rxRemoteFault port 0).setF
          F.portStatus_hiBer port 0).setF F.portStatus_blockLock port 1).setF F.portStatus_alignLock port 1).setB
          F.portStatus_fecLock port (s.portFec port != 0)).setPort port
            { s.portInfo port with clearSince := some s.tm.ticks }).lineChanged port →
      exec (.receiveFaultCleared port) s = .next (if (s.portInfo port).holdoff = 0 then u.declareUp port else u)) ∧
  (∀ (s : State) (port t : Nat), s.portExists port = true → s.linkUp port = false →
      (s.portInfo port).clearSince = some t → t + msTicks (s.portInfo port).holdoff ≤ s.tm.ticks →
      exec (.linkUpHoldoffExpiry port) s = .next (s.declareUp port)) ∧
  (∀ (s : State) (port : Nat) (l : List (Nat × Nat × Nat)) (a : Nat × Nat × Nat), s.portExists port = true →
      s.getB F.portCfg_anEn port = true → s.getF F.portStatus_anState port = 1 → s.resolveAn port l = some a →
      exec (.anComplete port (some l)) s = .next (((s.setF F.portStatus_anState port
          (if s.getB F.portCfg_ltEn port = true then 2 else 3)).setPort port
        { s.portInfo port with ability := some a, anRestart := none }).calibrate port)) ∧
  (∀ (s : State) (port : Nat) (l : List (Nat × Nat × Nat)), s.portExists port = true →
      s.getB F.portCfg_anEn port = true → s.getF F.portStatus_anState port = 2 →
      exec (.anComplete port (some l)) s = .next (s.setF F.portStatus_anState port 3)) ∧
  (∀ (s : State) (port : Nat) (p : Option (List (Nat × Nat × Nat))), s.portExists port = true →
      s.getB F.portCfg_anEn port = true → s.getF F.portStatus_anState port = 1 ∨ s.getF F.portStatus_anState port = 2 →
      (p = none ∨ s.getF F.portStatus_anState port = 1 ∧ p.bind (s.resolveAn port) = none) →
      exec (.anComplete port p) s = .next (((s.setF F.portStatus_anState port 4).setF F.portEvent_anFail port 1).setPort port
        { s.portInfo port with ability := none, anRestart := some (s.tm.ticks + 1000000000) })) ∧
  (∀ (s : State) (port t : Nat), (s.portInfo port).anRestart = some t → t ≤ s.tm.ticks →
      exec (.anRestart port) s = .next ((s.setF F.portStatus_anState port 1).setPort port
        { s.portInfo port with anRestart := none }))

/-- On a port that exists with its link up a frame's first bytes are taken by the head FIFO operation arrive. At the
end of a frame on a port that exists, with no further bytes, the codewords are counted and the operation endRx acts on
the frame as received. DEAL of arriving or injected packets takes the first packet of the stage whose window is ready
into the parser when the reorder stage has room and the device is not in the bare-poles state. The release takes the
next packet in arrival order of a source, where the rig stage then holds no more than 32 packets not started and 128
in all. A TX ring with an entry and DMA on moves its consumer index on and injects the frame of a good descriptor.
(R85, R90, R102, R105, R307, R460.) -/
def Obligations.FramesReceivedComplete : Prop :=
  (∀ (s : State) (port : Nat) (bytes : List Nat), s.portExists port = true → s.linkUp port = true →
      exec (.frameArrival port bytes) s = .next (s.arrive port bytes)) ∧
  (∀ (s : State) (port fcs corrCw uncorrCw : Nat) (errorBlock errored : Bool) (r : Rx), s.portExists port = true →
      SMap.find? s.pk.rx port = some r →
      exec (.frameEndStatus port [] fcs ⟨errorBlock, errored⟩ corrCw uncorrCw) s = .next
        ((s.countFec port corrCw uncorrCw).endRx port fcs errorBlock errored r)) ∧
  (∀ (s : State) (pipe kind id : Nat) (p : Pkt) (err : Option EccErr), kind ≠ 1 →
      (s.atStage pipe (dealStage kind)).find? (fun e => e.2.windowReady) = some (id, p) →
      (s.atStage pipe .reorder).length < 64 → s.getB F.fltStatus_barePoles = false →
      exec (.deal pipe kind err) s = .next (s.parseAndPlace id p err)) ∧
  (∀ (s : State) (pipe src id : Nat) (p : Pkt) (errs : List EccErr), s.nextInOrder pipe src = some (id, p) →
      (s.parserRelease id p errs).unstarted pipe ≤ 32 → (s.parserRelease id p errs).rigPlaces pipe ≤ 128 →
      exec (.parserReorderRelease pipe src errs) s = .next (s.parserRelease id p errs)) ∧
  (∀ (s : State) (ring : Nat) (words frame : List Nat), ring < 64 → (s.ring ring).enabled = true →
      (s.ring ring).rtype = 2 → (s.ring ring).used ≠ 0 → s.dmaOn = true →
      s.txDescOk words frame = true →
      exec (.txDescriptorFetch ring words frame) s = .next ((s.setRing ring { s.ring ring with
        consumer := ((s.ring ring).consumer + 1) % (s.ring ring).size }).inject (256 + ring) ring (s.ring ring).consumer words frame))

/-- Each clause gives, for every state that meets its conditions, the next state whole. FLOW_LOOKUP_REQUEST without a
memory error takes the first request without a hop that waits at a shard not restarting; where its packet is present,
the shard looks it up by homeLookup. With a memory error the operation fstEcc acts on it first, and the same follows
in the state it gives. RECORD_HOP takes the first hop that waits at a shard not restarting; where its packet is
present, its handle stands no check of R255 against it, and its owner set is unknown, its record is not cached or a
request of its key waits, it counts a lookup and enters the miss queue by enqueue. Where its record is cached and
verified, with fewer than 1,023 answers in flight and no request of its key waiting, it counts a lookup and a hit and
the line answers it. LINK_FILL takes the first fill for a shard and writes its owner set into the LINK line of its
record there. MISS_READ_RETURN reports each corrected unit, and the entry at its place goes on by missReads.
INSTALL_RETRY of an entry that waits to install a record tries again by installAnswer. LOOKUP_ANSWER with a record,
its packet present and neither the dispatch window nor the rig reorder stage full, gives the packet its answer and
handle, counts it in its record's chain, and enters it into the window. LOOKUP_ANSWER without a record, the packet
present and the reorder stage not full, lets the packet bypass the rigs. RELOCATION_CLEAR clears the first relocated
original of a shard. REMOTE_REISSUE_TIMEOUT of a request parked for 20,000 ticks or more issues it again. (R16, R205,
R206, R208, R213, R271, R556.) -/
def Obligations.FlowLookupEventsComplete : Prop :=
  (∀ (s : State) (shard : Nat) (r : LookReq) (rest : List LookReq),
      takeReq (fun r => r.shard == shard && r.hop.isNone) s.fst.reqs = some (r, rest) →
      SMap.has s.pk.pkts r.pkt = true → shard ∉ s.fst.restarting →
      exec (.flowLookupRequest shard none) s = .next
        (({ s with fst := { s.fst with reqs := rest } } : State).homeLookup shard r s)) ∧
  (∀ (s : State) (shard : Nat) (e : EccErr) (r : LookReq) (rest : List LookReq),
      takeReq (fun r => r.shard == shard && r.hop.isNone) (s.fstEcc shard e).fst.reqs = some (r, rest) →
      SMap.has (s.fstEcc shard e).pk.pkts r.pkt = true → shard ∉ (s.fstEcc shard e).fst.restarting →
      exec (.flowLookupRequest shard (some e)) s = .next
        (({ s.fstEcc shard e with fst := { (s.fstEcc shard e).fst with reqs := rest } } : State).homeLookup shard r (s.fstEcc shard e))) ∧
  (∀ (s : State) (shard h dir : Nat) (set : Option Nat) (r : LookReq) (rest : List LookReq),
      takeReq (fun r => r.shard == shard && r.hop.isSome) s.fst.reqs = some (r, rest) →
      SMap.has s.pk.pkts r.pkt = true → shard ∉ s.fst.restarting → r.hop = some (h, dir, set) → s.badHeap h = none →
      (set = none ∨ s.recLine 0 h = none ∨ ∃ e ∈ s.mqOf shard, e.key = r.key) →
      exec (.recordHop shard) s = .next
        ((({ s with fst := { s.fst with reqs := rest } } : State).count (C.fstLookups shard)).enqueue shard r (some (h, dir)))) ∧
  (∀ (s : State) (shard h dir set k : Nat) (l : Line) (r : LookReq) (rest : List LookReq),
      takeReq (fun r => r.shard == shard && r.hop.isSome) s.fst.reqs = some (r, rest) →
      SMap.has s.pk.pkts r.pkt = true → shard ∉ s.fst.restarting → r.hop = some (h, dir, some set) → s.badHeap h = none →
      (∀ e ∈ s.mqOf shard, e.key ≠ r.key) → s.recLine 0 h = some (k, l) →
      verifyRec l.size (s.imageNow h) r.key dir = true → l.inflight < 1023 →
      exec (.recordHop shard) s = .next (((({ s with fst := { s.fst with reqs := rest } } : State).count
        (C.fstLookups shard)).answerLine k l r.pkt dir).1.count (C.fstHits shard))) ∧
  (∀ (s : State) (shard k h set a : Nat) (l : Line), s.fst.fills.find? (fun f => f.1 == shard) = some (k, h, set) →
      SMap.first? s.fst.lines (fun a l => lineShard a == shard && l.kind == 2 && l.handle == h) = some (a, l) →
      exec (.linkFill shard) s = .next (({ s with fst := { s.fst with fills := s.fst.fills.erase (k, h, set) } } : State).setLine a
        { l with ownerSet := some set })) ∧
  (∀ (s : State) (shard place : Nat) (corrected : List (Nat × Nat)),
      exec (.missReadReturn shard place corrected) s = .next
        ((corrected.foldl (fun t e => t.hbmCorrected e.1 e.2) s).missReads shard place)) ∧
  (∀ (s : State) (shard place h d : Nat) (e : MqEntry), s.mqNth shard place .install = some e → e.target = some (h, d) →
      exec (.installRetry shard place) s = .next (s.installAnswer shard e h d)) ∧
  (∀ (s : State) (pipe id : Nat) (a : Answer) (p : Pkt) (rest : List (Nat × Option Answer)),
      s.takeAnswer pipe s.fst.answers = some ((id, some a), rest) → SMap.find? s.pk.pkts id = some p →
      s.windowFull pipe = false → s.rigFull pipe = false →
      exec (.lookupAnswer pipe) s = .next ((((({ s with fst := { s.fst with answers := rest } } : State).modPkt id fun q =>
        { q with ans := some a, handle := some a.handle }).chainAnswer pipe a)).enterWindow id pipe)) ∧
  (∀ (s : State) (pipe id : Nat) (p : Pkt) (rest : List (Nat × Option Answer)),
      s.takeAnswer pipe s.fst.answers = some ((id, none), rest) → SMap.find? s.pk.pkts id = some p → s.rigFull pipe = false →
      exec (.lookupAnswer pipe) s = .next (({ s with fst := { s.fst with answers := rest } } : State).bypass id pipe)) ∧
  (∀ (s : State) (shard k : Nat), s.fst.toClear.find? (fun k => k / 2 ^ 26 == shard) = some k →
      exec (.relocationClear shard) s = .next { s with fst := { s.fst with
        index := SMap.del s.fst.index k, toClear := s.fst.toClear.filter (· != k) } }) ∧
  (∀ (s : State) (pkt : Nat) (e : Nat × List MqEntry) (x : MqEntry), e ∈ s.fst.mq → x ∈ e.2 → x.pkt = pkt →
      x.wait = .parked → x.asked + 20000 ≤ s.tm.ticks →
      exec (.remoteReissueTimeout pkt) s = .next (s.reissue pkt))

/-- Each clause gives, for every state that meets its conditions, the next state whole; an upset operand, where the
command has one, strikes first by rigUpset. RIG_DISPATCH takes the first packet of the window whose record is free, a
packet that never ran only while fewer than 64 wait for acknowledgements; where a rig is idle and the packet is not
marked for a late drop, it leaves the window and startRun starts its run. TCALL_RESULT of the packet that waits in a
rig, its rule-table read meeting no damage and the memory holding nothing back, counts the wait, gives the run the
result of tableCall, and the run goes on by resumeRun. RIG_RESTART_COMPLETE of a running restart whose golden copy
reads well reloads from it, ends the restart and clears restart_active and the condition 0x4301. Where the golden copy
cannot be read the restart has failed, restart_fail_seen is set, 0x4301 ends and 0x4302 is raised. UPDATE_FLIT takes
the first update for a shard not restarting; one of a good handle, of no setup and without comparison, is applied, and
where it releases its answer the record's answers in flight and its chain fall by one. A transition whose compared
words hold is applied and released in the same way and acknowledged to its packet. TRANSITION_ACK gives the first
acknowledgement of a pipeline to its packet by acknowledge. REPLAY_REPLY to a packet that has run three times or more
makes its image the chain's, counts RIG_REPLAY_DROP, sets replay_drop_seen and drops the packet. REPLAY_REPLY to a
packet that has run once or twice and is not marked makes its image the chain's, sets the packet back to its start on
that image, and puts it at the front of the window. RIG_REORDER_RELEASE of the next packet of a source, finished and
awaiting nothing, ends its last pass, or starts the pass that its program asked for. One that awaits its
acknowledgement is set aside while fewer than 64 are. (R206, R271, R272, R274, R279, R282, R283, R285, R292.) -/
def Obligations.FlowProgramEventsComplete : Prop :=
  (∀ (s t : State) (pipe id rig : Nat) (p : Pkt) (upset : Option RigUpset), t = upset.elim s (s.rigUpset pipe) →
      (t.windowOf pipe).find? (fun e => t.chainFree e.1 e.2
        && !(decide ((t.atStage pipe .ackWait).length ≥ 64) && e.2.runs == 0)) = some (id, p) →
      t.idleRig pipe = some rig → p.marked = false →
      exec (.rigDispatch pipe upset) s = .next (({ t with rig := { t.rig with
        window := SMap.set t.rig.window pipe ((t.windowOf pipe).map Prod.fst |>.filter (· != id)) } } : State).startRun id rig p)) ∧
  (∀ (s t s1 : State) (pipe rig wait id kind table : Nat) (ws tbl : List Nat) (hit : Bool) (p : Pkt) (r : RigRun)
      (upset : Option RigUpset), t = upset.elim s (s.rigUpset pipe) →
      SMap.first? t.pk.pkts (fun _ p => p.pipe == pipe && p.stage == .rig && p.run.elim false fun r => r.rig == rig) = some (id, p) →
      p.run = some r → r.call = some (kind, table, ws) →
      (kind ≠ 0 ∨ t.readsDamaged pipe (t.emReads table (callKey ws)) = false) →
      t.tableCall p kind table ws = some (s1, hit, tbl) →
      exec (.tcallResult pipe rig wait upset) s = .next ((s1.count (C.rigTcallWait pipe) wait).resumeRun id p
        { r with call := none, hit := hit, tbl := tbl, cycles := r.cycles + wait, waited := r.waited + wait,
                 results := r.results ++ [(hit, tbl)] })) ∧
  (∀ (s : State) (pipe : Nat) (r : RigRestart), SMap.find? s.rig.restarts pipe = some r → r.failed = false →
      exec (.rigRestartComplete pipe true) s = .next ((({ s.reloadGolden pipe with rig := { (s.reloadGolden pipe).rig with
        restarts := SMap.del (s.reloadGolden pipe).rig.restarts pipe } } : State).setF F.rigCtrl_restartActive pipe 0).endCondition
          0x4301 pipe)) ∧
  (∀ (s : State) (pipe : Nat) (r : RigRestart), SMap.find? s.rig.restarts pipe = some r → r.failed = false →
      exec (.rigRestartComplete pipe false) s = .next (((({ s with rig := { s.rig with
        restarts := SMap.set s.rig.restarts pipe { r with failed := true } } } : State).setF F.rigEvent_restartFailSeen pipe
          1).endCondition 0x4301 pipe).raise 0x4302 pipe)) ∧
  (∀ (s : State) (shard : Nat) (u : Update) (rest : List Update), s.takeUpdate shard s.fst.updates = some (u, rest) →
      shard ∉ s.fst.restarting → s.badHeap u.handle = none → u.setup = false → u.transition = false →
      exec (.updateFlit shard) s = .next (let t := ({ s with fst := { s.fst with updates := rest } } : State).applyUpdate u
        if u.release then (t.lowerInflight u.handle).endChain u.pipe u.handle else t)) ∧
  (∀ (s : State) (shard id : Nat) (u : Update) (rest : List Update), s.takeUpdate shard s.fst.updates = some (u, rest) →
      shard ∉ s.fst.restarting → s.badHeap u.handle = none → u.setup = false → u.transition = true → u.pkt = some id →
      compareHolds (s.imageNow u.handle) u = true →
      exec (.updateFlit shard) s = .next (let t := ({ s with fst := { s.fst with updates := rest } } : State).applyUpdate u
        let t1 := if u.release then (t.lowerInflight u.handle).endChain u.pipe u.handle else t
        { t1 with fst := { t1.fst with acks := t1.fst.acks ++ [id] } })) ∧
  (∀ (s : State) (pipe id : Nat) (rest : List Nat) (p : Pkt), s.takeAck pipe s.fst.acks = some (id, rest) →
      SMap.find? s.pk.pkts id = some p →
      exec (.transitionAck pipe) s = .next (({ s with fst := { s.fst with acks := rest } } : State).acknowledge id p)) ∧
  (∀ (s : State) (pipe id : Nat) (a : Answer) (rest : List (Nat × Nat × Answer)) (p : Pkt),
      takeReplay pipe s.fst.replays = some ((id, a), rest) → SMap.find? s.pk.pkts id = some p → 3 ≤ p.runs →
      exec (.replayReply pipe) s = .next ((((((({ s with fst := { s.fst with replays := rest } } : State).modPkt id fun q =>
        { q with awaiting := false }).setChain pipe a.handle a.image)).count (C.rigReplayDrop pipe)).setF
          F.rigEvent_replayDropSeen pipe 1).dropPkt id)) ∧
  (∀ (s t : State) (pipe id : Nat) (a : Answer) (rest : List (Nat × Nat × Answer)) (p : Pkt),
      takeReplay pipe s.fst.replays = some ((id, a), rest) → SMap.find? s.pk.pkts id = some p → p.runs < 3 → p.marked = false →
      t = ((({ s with fst := { s.fst with replays := rest } } : State).modPkt id fun q => { q with awaiting := false }).setChain
        pipe a.handle a.image).modPkt id (fun _ => rewound p (SMap.getD s.rig.saved id p) a) →
      exec (.replayReply pipe) s = .next { t with rig := { t.rig with
          window := SMap.set t.rig.window pipe (id :: SMap.getD t.rig.window pipe []) } }) ∧
  (∀ (s : State) (pipe src id : Nat) (p : Pkt), s.rigNext pipe src = some (id, p) → p.stage = .finished →
      p.awaiting = false → exec (.rigReorderRelease pipe src) s = .next (match p.again with
        | none => s.lastPass id p
        | some (st, noProg) => s.recirculate id p st noProg)) ∧
  (∀ (s : State) (pipe src id : Nat) (p : Pkt), s.rigNext pipe src = some (id, p) → p.stage = .finished →
      p.awaiting = true → (s.atStage pipe .ackWait).length < 64 →
      exec (.rigReorderRelease pipe src) s = .next (s.modPkt id fun q => { q with stage := .ackWait }))

/-- Each clause gives, for every state that meets its conditions, the next state whole. VOQ_REQ takes the request that
takeVoqMsg finds for an egress pipeline and puts its VOQ on the backlog, where it is not there already. VOQ_EMPTY
takes the report that takeVoqMsg finds, takes its VOQ off the backlog, takes the unused credit from the VOQ's credits
and adds it to the class's deficit, which is 0 where no VOQ of the class is left on the backlog. GRANT_ISSUE of a port
with its link up, not held by a cut-through frame, its shapers examined and fewer credits outstanding than its window,
grants 2,048 bytes to the next pipeline in turn, of those on the backlog, of the class that grantClass chooses; the
pipeline after it is next in turn. GRANT_ARRIVAL takes the grant at a place of a pipeline, adds it to its VOQ's
balance, brings the port's credits up to date before and after, and the VOQ sends by sendVoq. CT_REQUEST takes the
request that the rotating priority gives for a port; while its copy waits, a port that ctGrantable finds free is
reserved for it, with 2,048 bytes of credit, the copy crosses and IQM_CT_FRAMES counts; where the port is not free the
request is denied. CT_DENY takes a pipeline's first denial, counts IQM_CT_DENIED, makes the copy an ordinary one and
sends a request for it. CELL_LANDING without a memory error, of a copy of the input next in turn, with fewer than
1,024 cells in the landing buffer, room on the bridge and a good cell, moves the turn past that input and lands the
cell. HEAD_SCAN of a pipeline with age_scan_en set drops up to four expired copies from the head of the VOQ that is
its turn, and the next of the 2,048 VOQs is then its turn. QM_RESTART_COMPLETE of a queue manager that restarts ends
the restart, clears restart_active and ends the condition 0x4403. (R315, R316, R317, R318, R319, R320, R323, R341,
R348.) -/
def Obligations.FabricEventsComplete : Prop :=
  (∀ (s : State) (egress : Nat) (m : QMsg) (rest : List (Bool × QMsg)), takeVoqMsg false egress [] s.pk.voqMsgs = some (m, rest) →
      exec (.voqReq egress) s = .next { s with pk := { s.pk with
        voqMsgs := rest,
        backlog := if s.pk.backlog.contains (voqKey m.pipe m.port m.cls) then s.pk.backlog
          else voqKey m.pipe m.port m.cls :: s.pk.backlog } }) ∧
  (∀ (s u : State) (egress : Nat) (m : QMsg) (rest : List (Bool × QMsg)), takeVoqMsg true egress [] s.pk.voqMsgs = some (m, rest) →
      u = { s with pk := { s.pk with
        voqMsgs := rest,
        backlog := s.pk.backlog.filter (· != voqKey m.pipe m.port m.cls),
        credits := SMap.update 0 s.pk.credits (voqKey m.pipe m.port m.cls) (· - m.credit) } } →
      exec (.voqEmpty egress) s = .next (u.setDeficit m.port m.cls
        (if (u.backlogged m.port m.cls).isEmpty then 0 else (u.schedOf m.port m.cls).deficit + m.credit))) ∧
  (∀ (s s1 : State) (port c n : Nat), s.linkUp port = true → port ∉ s.pk.reserved →
      (s.examinePort port).outstanding port (fun _ => true) < (s.examinePort port).window port →
      (s.examinePort port).grantClass port = (s1, some c) →
      (((List.range 32).map fun i => (SMap.getD s1.pk.grantRr (8 * port + c) 0 + i) % 32).find? fun n =>
        s1.pk.backlog.contains (voqKey n port c)) = some n →
      exec (.grantIssue port) s = .next { s1 with pk := { s1.pk with
        grants := s1.pk.grants ++ [⟨n, port, c, 2048⟩],
        credits := SMap.update 0 s1.pk.credits (voqKey n port c) (· + 2048),
        grantRr := SMap.put 0 s1.pk.grantRr (8 * port + c) ((n + 1) % 32) } }) ∧
  (∀ (s : State) (pipe place : Nat) (m : QMsg) (rest : List QMsg) (err : Option EccErr),
      takeQMsg pipe place s.pk.grants = some (m, rest) →
      exec (.grantArrival pipe place err) s = .next ((((({ s with pk := { s.pk with
          grants := rest,
          balance := SMap.update 0 s.pk.balance (voqKey pipe m.port m.cls) (· + m.credit) } } : State).touchCredits
        m.port).sendVoq pipe m.port m.cls err)).touchCredits m.port)) ∧
  (∀ (s u : State) (port cid : Nat) (m : QMsg) (c : Copy),
      (((List.range 32).map fun i => (SMap.getD s.pk.ctRr port 0 + i) % 32).findSome? fun n =>
        (s.pk.ctReqs.filter fun m => m.port == port).find? fun m => m.pipe == n) = some m →
      u = { s with pk := { s.pk with
          ctReqs := s.pk.ctReqs.erase m, ctRr := SMap.put 0 s.pk.ctRr port ((m.pipe + 1) % 32) } } →
      u.ctCopy m = some (cid, c) →
      exec (.ctRequest port) s = .next (if u.ctGrantable port = true then
          (((({ u with pk := { u.pk with
              credits := SMap.update 0 u.pk.credits (voqKey m.pipe port m.cls) (· + 2048)
              reserved := port :: u.pk.reserved } } : State).modCopy cid fun q => { q with stage := .crossing, paid := 2048 }).count
            (C.iqmCtFrames m.pipe)).syncIqm m.pipe)
        else { u with pk := { u.pk with denies := u.pk.denies ++ [m] } })) ∧
  (∀ (s : State) (pipe cid : Nat) (m : QMsg) (rest : List QMsg) (c : Copy), takeQMsg pipe 0 s.pk.denies = some (m, rest) →
      (({ s with pk := { s.pk with denies := rest } } : State).count (C.iqmCtDenied pipe)).ctCopy m = some (cid, c) →
      exec (.ctDeny pipe) s = .next ((((({ s with pk := { s.pk with denies := rest } } : State).count (C.iqmCtDenied pipe)).modCopy
        cid fun q => { q with ct := false })).sendReq pipe m.port m.cls)) ∧
  (∀ (s : State) (egress place cid : Nat) (c : Copy) (p : Pkt), (s.nextInput egress)[place]? = some (cid, c) →
      s.landed egress < 1024 → s.bridgeRoom c p = true →
      SMap.find? s.pk.copies cid = some c → SMap.find? s.pk.pkts c.pkt = some p → c.landed ∉ p.badCells →
      exec (.cellLanding egress place none) s = .next (({ s with pk := { s.pk with
        xbarRr := SMap.put 0 s.pk.xbarRr egress ((c.pipe + 1) % 32) } } : State).landCell cid c)) ∧
  (∀ (s : State) (pipe : Nat), s.getB F.iqmCtrl_ageScanEn pipe = true →
      exec (.headScan pipe) s = .next (State.dropExpired 4
        (s.voq pipe (SMap.getD s.pk.scanAt pipe 0 / 8) (SMap.getD s.pk.scanAt pipe 0 % 8))
        { s with pk := { s.pk with scanAt := SMap.put 0 s.pk.scanAt pipe ((SMap.getD s.pk.scanAt pipe 0 + 1) % 2048) } })) ∧
  (∀ (s : State) (pipe : Nat), pipe ∈ s.pk.qmRestart →
      exec (.qmRestartComplete pipe) s = .next (({ s with pk := { s.pk with
        qmRestart := s.pk.qmRestart.filter (· != pipe) } } : State).setF F.iqmStatus_restartActive pipe 0 |>.endCondition 0x4403 pipe))

/-- Each clause gives, for every state that meets its conditions, the next state whole. TRANSMIT_SELECTION of a port
with its link up, not in the bare-poles state and with no frame in transmission, examines its shapers, acts on the
memory errors of its gate list and its shapers, and tries its heads in transmission order. CT_UNDERRUN of a cut-
through frame in transmission counts TX_UNDERRUN, stomps the frame and settles the port's credits. TX_FRAME_END of a
stored frame in transmission finishes it by txDone, padded by padFrame where the port is no link port. The same for a
cut-through frame on an Ethernet port whose packet has ended, all its cells landed and its length within max_frame.
SHAPER_WAKE with wakes due takes those of the earliest slot; it moves all but the first 24 of them to 8 ns later, and
wakes the first 24, late_max keeping the greatest delay in units of 8 ns. WHEEL_TURN clears the overflow mark of every
entry of the pipeline's wheel that falls within the turn that is running. FAILOVER_REVERT of a port with its link up
at or after its revert time ends the failover, clears its bit of nh_down, sets revert_seen and raises 0xB007.
LATENT_PERIOD_END at or after the end of the latent period acts on the memory errors that it meets, raises an alarm,
where latent_en is set, for every monitor that alarms, shows their number in last_alarms, clears the counts of every
monitor and starts the next period. REWRITE_ENTRY_REPAIR of a damaged rewrite entry makes it whole and raises 0xB003.
(R86, R91, R319, R350, R354, R367, R368, R370.) -/
def Obligations.TransmitEventsComplete : Prop :=
  (∀ (s t : State) (port : Nat) (errs : List EccErr), s.linkUp port = true → s.getB F.fltStatus_barePoles = false →
      (∀ e ∈ s.pk.copies, e.2.port = port → e.2.stage ≠ .transmitting) →
      t = (errs.filter fun e => e.table == 2).foldl (fun t e => t.shaperEcc port e)
        ((errs.filter fun e => e.table == 0).foldl (fun t e => t.gateEcc port e) (s.examinePort port)) →
      exec (.transmitSelection port errs) s = .next (State.tryHeads errs (t.txOrder port) t)) ∧
  (∀ (s : State) (port cid : Nat) (c : Copy), s.txCopy port = some (cid, c) → c.ct = true →
      exec (.ctUnderrun port) s = .next (((s.count (C.txUnderrun port)).stompTx cid).settleCredits port)) ∧
  (∀ (s : State) (port cid : Nat) (c : Copy) (p : Pkt), s.txCopy port = some (cid, c) → SMap.find? s.pk.pkts c.pkt = some p →
      c.ct = false →
      exec (.txFrameEnd port) s = .next (if s.linkOfPort port = none then (s.padFrame (s.txBytes c)).1.txDone cid c (s.padFrame (s.txBytes c)).2
        else s.txDone cid c (s.txBytes c))) ∧
  (∀ (s : State) (port cid : Nat) (c : Copy) (p : Pkt), s.txCopy port = some (cid, c) → SMap.find? s.pk.pkts c.pkt = some p →
      c.ct = true → p.arriving = false → p.writtenCells ≤ c.landed → s.linkOfPort port = none →
      (s.padFrame (s.txBytes c)).2.length + 4 ≤ s.getF F.portCfg_maxFrame port →
      exec (.txFrameEnd port) s = .next ((s.padFrame (s.txBytes c)).1.txDone cid c (s.padFrame (s.txBytes c)).2)) ∧
  (∀ (s : State) (pipe slot : Nat) (e : Nat × Wake) (es here : List (Nat × Wake)), s.dueWakes pipe = e :: es →
      slot = es.foldl (fun a b => Nat.min a b.2.at_) e.2.at_ → here = (e :: es).filter (fun b => b.2.at_ == slot) →
      exec (.shaperWake pipe) s = .next ((here.take 24).foldl (fun t b =>
          (t.maxF F.egsWheelStatus_lateMax pipe ((slot - b.2.due) / 8)).wake b.1)
        ((here.drop 24).foldl (fun t b =>
          { t with egs := { t.egs with wheel := SMap.set t.egs.wheel b.1 { b.2 with at_ := slot + 8 } } }) s))) ∧
  (∀ (s : State) (pipe : Nat), exec (.wheelTurn pipe) s = .next (({ s with egs := { s.egs with
        wheel := s.egs.wheel.mapVal fun k v =>
          if k / 128 == pipe && v.overflow && decide (v.at_ < s.now / wheelTurn * wheelTurn + wheelTurn) then
            { v with overflow := false } else v } } : State).syncWheel pipe)) ∧
  (∀ (s : State) (port t : Nat), SMap.find? s.egs.revertAt port = some t → t ≤ s.tm.ticks → s.linkUp port = true →
      exec (.failoverRevert port) s = .next ((((({ s with egs := { s.egs with
        down := s.egs.down.filter (· != port), revertAt := SMap.del s.egs.revertAt port } } : State).setBit F.egsStatus_nhDown
          (pipeOf port) (port % 8) false).setF F.egsEvent_revertSeen (pipeOf port) 1)).raise 0xB007 (pipeOf port) port)) ∧
  (∀ (s t loudest : State) (errs : List EccErr) (loud : List (Nat × Monitor)),
      s.egs.latentStart + s.getF F.redCtrl_latentPeriod * 1000000 ≤ s.now → t = errs.foldl State.redEcc s →
      loud = (if t.getB F.redCtrl_latentEn = true then t.egs.monitors.filter fun e => e.2.alarms else []) →
      loudest = (loud.foldl (fun t e => t.redAlarm e.1 e.2) t).setF F.redStatus_lastAlarms 0 loud.length →
      exec (.latentPeriodEnd errs) s = .next { loudest with egs := { loudest.egs with
        monitors := loudest.egs.monitors.mapVal fun _ m => { m with passed := 0, discarded := 0 }, latentStart := s.now } }) ∧
  (∀ (s : State) (index : Nat), index ∈ s.egs.badRewrite →
      exec (.rewriteEntryRepair index) s = .next (({ s with egs := { s.egs with
        badRewrite := s.egs.badRewrite.filter (· != index) } } : State).raise 0xB003 0 index))

/-- gate.list_set on a port that exists stores a list that is neither in force nor pending; gate.activate of a valid
list that is held makes it pending for its change instant, at least 2 us away, and answers that instant; gate.status
answers the lists, the change instant, the gates and the mode. At its instant a pending list comes into force and
EGS_EVENT.gate_change_seen is set; an entry change sets the grid anew; a repaired list ends fault 0xB002. (R357, R358,
R359, R360, R371.) -/
def Obligations.GateCommandsComplete : Prop :=
  (∀ (s : State) (port : Nat), exec (.gateEntryChange port) s = .next ((s.regrid port).noteUnlocked port)) ∧
  (∀ (s : State) (port n : Nat), (s.gatePort port).pending = some n → (s.gatePort port).changeAt ≤ s.now →
      exec (.gateChangeInstant port) s = .next ((((((s.setGate port { s.gatePort port with oper := some n, pending := none }).syncGate
        port).setF F.egsEvent_gateChangeSeen (pipeOf port) 1).regrid port).noteUnlocked port))) ∧
  (∀ (s : State) (port : Nat), (s.gatePort port).damaged = true →
      exec (.gateListRepair port) s = .next (((s.setGate port { s.gatePort port with damaged := false }).regrid port).endCondition
        0xB002 port)) ∧
  (∀ (s : State) (h : CmdHdr) (port list gateMask cycleTime cycleExt : Nat) (valid : Bool) (base : List Nat)
      (entries : List (Nat × Nat)), s.refuseCmd h attrO = none → port < 256 → list < 2 → gateMask < 256 → base.length = 4 →
      wordAt base 1 % 2 ^ 30 < 1000000000 → 1000 ≤ cycleTime → cycleTime ≤ 4000000000 → cycleExt ≤ cycleTime →
      1 ≤ entries.length → entries.length ≤ 1024 → (∀ e ∈ entries, e.1 < 256 ∧ 64 ≤ e.2 ∧ e.2 < 2 ^ 32) →
      s.portExists port = true → (s.gatePort port).oper ≠ some list → (s.gatePort port).pending ≠ some list →
      exec (.gateListSet h port list valid gateMask base cycleTime cycleExt entries) s = .next ((s.setGate port { s.gatePort port with
        lists := SMap.set (s.gatePort port).lists list ⟨valid, gateMask, containerNs base, cycleTime, cycleExt, entries⟩ }).finish h .ok)) ∧
  (∀ (s : State) (h : CmdHdr) (port list : Nat) (l : GateList), s.refuseCmd h attrO = none → port < 256 → list < 2 →
      s.portExists port = true → (s.gatePort port).pending = none → SMap.find? (s.gatePort port).lists list = some l →
      l.valid = true →
      exec (.gateActivate h port list) s = .next ((s.gatePend port list (boundaryAfter s.now 2000) false).finish h
        (.val (fullTimeWords (l.changeInstant (boundaryAfter s.now 2000) / 1000000000)
          (l.changeInstant (boundaryAfter s.now 2000) % 1000000000) 0)))) ∧
  (∀ (s : State) (h : CmdHdr) (port : Nat), s.refuseCmd h attrNone = none → s.portExists port = true →
      exec (.gateStatus h port) s = .next (s.finish h (.val ([listCode (s.gatePort port).oper, listCode (s.gatePort port).pending]
        ++ fullTimeWords ((s.gatePort port).changeAt / 1000000000) ((s.gatePort port).changeAt % 1000000000) 0
        ++ [(s.gatePort port).current, b2n (s.gateMode port).isSome]))))

/-- Each clause gives, for every state that meets its conditions, the next state whole. TIME_BASE_TICK adds 1 ns, the
PI term's move and the slew's move to network time, one to the elapsed ticks, stores the bias and slew left, and shows
the servo in its registers. HALYARD_FRAME, a 1 us boundary having come since the last, has every timestamp point check
its copy, upsets the copies its operand names, and notes its time. STEP_FRAME, a step waiting and a 1 us boundary
having come since its offset, examines the shapers, applies the step where it takes time back or leaves it, and sets
calendar entries, gate grids and idle entries anew. A step forward also fires the calendar entries that it skips.
SERVO_OFFSET of a domain in use records the offset, shows it in TBS_DOMAIN_OFFSET and pairs it; where the other domain
is selected that is all. In ACQUIRE an offset that comes while the step waits, or within 10 ms after it, is only
recorded. The first offset of ACQUIRE is kept, and a step by its negative waits. The second gives the frequency f_prev
less theta over the interval of the two readings with the step removed; beyond f_max it counts an acquisition failure,
else it becomes integral and frequency and the servo is in TRACK. In TRACK or HOLDOVER an offset beyond step_threshold
enters ACQUIRE as its first; any other is a TRACK offset (trackOffset). DOMAIN_TIMEOUT of a valid domain silent for
input_timeout makes it invalid; where it is selected, the servo switches to the other if auto_switch is set and that
one valid, counts it and raises 0x0504, else enters HOLDOVER from TRACK, and only from there. HOLDOVER_GRACE_EXPIRY
after holdover_grace seconds of HOLDOVER ends the lock. RESIDENCE_ENTRY_EXPIRY frees a pipeline's residence entries
that are 1 s old. TEC_FIRING takes the entry due first, frees it or moves it on by its period, and dispatches or
defers its firing. TEC_DEFERRED_FIRING fires the first deferred firing whose time has come, with the late flag. (R32,
R37, R40, R45, R49, R50, R52, R55, R59, R65.) -/
def Obligations.NetworkTimeEventsComplete : Prop :=
  (∀ (s : State) (m b sl : Int), s.slewTick = (m, b, sl) →
      exec .timeBaseTick s = .next ({ s with tm := { s.tm.advance (2 ^ 48 + tickMove s.tm.fPi + m).toNat with
        ticks := (s.tm.advance (2 ^ 48 + tickMove s.tm.fPi + m).toNat).ticks + 1, bias := b, slew := sl } } : State).showServo) ∧
  (∀ (s : State) (deviations : List (Nat × Int)), s.boundarySince s.tm.lastFrame = true →
      exec (.halyardFrame deviations) s = .next { deviations.foldl (fun t d => t.upsetPoint d.1 d.2)
          (s.tm.points.foldl (fun t e => t.checkPoint e.1 e.2) s) with
        tm := { (deviations.foldl (fun t d => t.upsetPoint d.1 d.2) (s.tm.points.foldl (fun t e => t.checkPoint e.1 e.2) s)).tm with
          lastFrame := (deviations.foldl (fun t d => t.upsetPoint d.1 d.2)
            (s.tm.points.foldl (fun t e => t.checkPoint e.1 e.2) s)).now } }) ∧
  (∀ (s : State) (theta : Int), s.tm.stepPending = some theta → s.boundarySince (s.tm.t1 / 2 ^ 16).toNat = true →
      (s.examineAll.applyStep theta).now ≤ s.now →
      exec .stepFrame s = .next (s.examineAll.applyStep theta).restep.regridAll.restartIdle) ∧
  (∀ (s : State) (theta : Int), s.tm.stepPending = some theta → s.boundarySince (s.tm.t1 / 2 ^ 16).toNat = true →
      s.now < (s.examineAll.applyStep theta).now →
      exec .stepFrame s = .next ((s.examineAll.applyStep theta).fireSkipped
        (s.examineAll.applyStep theta).tm.tec.length).restep.regridAll.restartIdle) ∧
  (∀ (s t : State) (d : Nat) (theta : Int), d ≤ 1 → s.domainSource d ≠ 3 →
      t = ((((s.setDomain d { s.domain d with offset := theta, at_ := some s.tm.ticks, nt := s.now, paired := true }).setDomainValid d
        true).setF F.tbsDomainOffset_offset d (signedField 32 (theta / 2 ^ 16))).pairOffsets d) → t.selected ≠ d →
      exec (.servoOffset d theta) s = .next t) ∧
  (∀ (s t : State) (d : Nat) (theta : Int), d ≤ 1 → s.domainSource d ≠ 3 →
      t = ((((s.setDomain d { s.domain d with offset := theta, at_ := some s.tm.ticks, nt := s.now, paired := true }).setDomainValid d
        true).setF F.tbsDomainOffset_offset d (signedField 32 (theta / 2 ^ 16))).pairOffsets d) → t.selected = d →
      t.phase = phAcquire → (t.tm.stepPending.isSome = true ∨ t.getB F.tbsServoStatus_acqSecond = true ∧ t.tm.ticks < t.tm.discardUntil) →
      exec (.servoOffset d theta) s = .next t) ∧
  (∀ (s t : State) (d : Nat) (theta : Int), d ≤ 1 → s.domainSource d ≠ 3 →
      t = ((((s.setDomain d { s.domain d with offset := theta, at_ := some s.tm.ticks, nt := s.now, paired := true }).setDomainValid d
        true).setF F.tbsDomainOffset_offset d (signedField 32 (theta / 2 ^ 16))).pairOffsets d) → t.selected = d →
      t.phase = phAcquire → t.tm.stepPending = none → t.getB F.tbsServoStatus_acqSecond = false →
      exec (.servoOffset d theta) s = .next { t with tm := { t.tm with theta1 := theta, t1 := t.now16, stepPending := some theta } }) ∧
  (∀ (s t : State) (d : Nat) (theta i : Int), d ≤ 1 → s.domainSource d ≠ 3 →
      t = ((((s.setDomain d { s.domain d with offset := theta, at_ := some s.tm.ticks, nt := s.now, paired := true }).setDomainValid d
        true).setF F.tbsDomainOffset_offset d (signedField 32 (theta / 2 ^ 16))).pairOffsets d) → t.selected = d →
      t.phase = phAcquire → t.tm.stepPending = none → t.getB F.tbsServoStatus_acqSecond = true → t.tm.discardUntil ≤ t.tm.ticks →
      i = t.tm.fPrev - 1000000000 * theta * 2 ^ 28 / ((t.now16 : Int) - t.tm.t1 + t.tm.theta1) →
      exec (.servoOffset d theta) s = .next (if i.natAbs > t.fMax.natAbs then
          (t.setF F.tbsServoStatus_acqSecond 0 0).addF F.tbsServoStatus_acqFail 0 1
        else (((({ t with tm := { t.tm with fI := i, fPi := i, trackWindow := [], lockRun := 0 } } : State).setF
          F.tbsServoStatus_phase 0 phTrack).setF F.tbsServoStatus_acqSecond 0 0).showServo))) ∧
  (∀ (s t : State) (d : Nat) (theta : Int), d ≤ 1 → s.domainSource d ≠ 3 →
      t = ((((s.setDomain d { s.domain d with offset := theta, at_ := some s.tm.ticks, nt := s.now, paired := true }).setDomainValid d
        true).setF F.tbsDomainOffset_offset d (signedField 32 (theta / 2 ^ 16))).pairOffsets d) → t.selected = d →
      t.phase ≠ phAcquire →
      exec (.servoOffset d theta) s = .next (if passes (t.errorOf theta) (t.getF F.tbsStepThresh_stepThreshold) then
          t.enterAcquire.firstOffset theta else t.trackOffset theta)) ∧
  (∀ (s : State) (d : Nat), d ≤ 1 → s.domainValid d = true → s.domainSilent d = true →
      exec (.domainTimeout d) s = .next (if s.selected ≠ d then s.setDomainValid d false
        else if s.getB F.tbsDomainCtrl_autoSwitch = true ∧ s.domainValid (1 - d) = true then
          (((s.setDomainValid d false).switchDomain (1 - d)).addF F.tbsServoStatus_autoSwitches 0 1).raise 0x0504 0 (1 - d)
        else if s.phase = phTrack then (s.setDomainValid d false).enterHoldover else s.setDomainValid d false)) ∧
  (∀ (s : State) (t : Nat), s.tm.holdoverAt = some t → s.phase = phHoldover →
      t + s.getF F.tbsHoldover_holdoverGrace * 1000000000 ≤ s.tm.ticks → exec .holdoverGraceExpiry s = .next (s.setLocked false)) ∧
  (∀ (s : State) (pipeline : Nat), exec (.residenceEntryExpiry pipeline) s = .next { s with tm := { s.tm with
        residence := SMap.put [] s.tm.residence pipeline
          ((SMap.getD s.tm.residence pipeline []).filter fun e => decide (s.now < e.at_ + 1000000000)) } }) ∧
  (∀ (s : State) (i : Nat) (e : TecEntry), s.firstDue s.now = some (i, e) →
      exec .tecFiring s = .next ((s.firedTec i e (e.next + e.period)).dispatchFiring i e e.next false false)) ∧
  (∀ (s : State) (d : Deferred) (rest : List Deferred), s.tm.deferred = d :: rest → d.at_ ≤ s.now →
      exec .tecDeferredFiring s = .next (((({ s with tm := { s.tm with deferred := rest } } : State).noteFiring true d.stepped)).fire
        d.kind d.arg0 d.arg1 d.at_ d.stack true))

/-- Each clause gives, for every state that meets its conditions, the next state whole. PPS_OUT_EDGE, network time
with pps_out_comp having crossed a whole second, starts the pulse of that second, has its time of day due tod_delay
later, and holds the pin low where it is not driven or is squelched without lock (syncPps). PPS_OUT_FALL, pps_width
having passed since the rise, takes the pin low. PPS_IN_EDGE captures the input point's copy of network time, which
waits for its time of day with a valid mark; an edge that still waited is discarded and counted. TOD_MESSAGE_RX of a
well-formed message within 900 ms of a waiting edge with a valid timestamp ends the wait and gives each domain of
source 2 the offset of the edge from the second the message names. With an edge whose timestamp is marked invalid the
wait ends and no domain is given an offset. TOD_WINDOW_EXPIRY discards and counts an edge that has waited more than
900 ms. TOD_OUTPUT at or after the time at which a message is due sends the message of its second at the rate of
tod_baud. REFERENCE_LOST marks a present reference absent, and the PLL is looked at by settleRef. REFERENCE_RELOCK
marks it present, and the PLL is looked at by settleRef. TBS_TIME_LATCH latches the time and answers TBS_TIME_FRAC.
(R66, R67, R68, R69, R72.) -/
def Obligations.PulseAndReferenceEventsComplete : Prop :=
  (∀ (s : State), s.tm.ppsSecond < s.ppsCrossed →
      exec .ppsOutEdge s = .next ({ s with tm := { s.tm with
        ppsSecond := s.ppsCrossed, ppsRoseAt := s.tm.ticks, ppsOut := true,
        todDue := some (s.ppsCrossed, s.tm.ticks + s.getF F.tbsIoCtrl_todDelay * 1000000) } } : State).syncPps) ∧
  (∀ (s : State), s.tm.ppsRoseAt + s.getF F.tbsIoCtrl_ppsWidth * 1000000 ≤ s.tm.ticks →
      exec .ppsOutFall s = .next { s with tm := { s.tm with ppsOut := false } }) ∧
  (∀ (s u : State), u = (s.setF F.tbsPpsInCapture_valid 0 1).setF F.tbsPpsInCapture_ns 0
        (s.nowAt inputPoint % 1000000000) →
      exec .ppsInEdge s = .next { u with tm := { s.tm with
        ppsWaiting := some ⟨s.copyAt inputPoint, s.tm.ticks, false⟩,
        ppsDiscarded := s.tm.ppsDiscarded + b2n s.tm.ppsWaiting.isSome } }) ∧
  (∀ (s u v : State) (chars : List Nat) (sec : Nat) (e : PpsEdge), todSecond chars = some sec → s.tm.ppsWaiting = some e →
      s.tm.ticks ≤ e.ticks + 900000000 → e.invalid = false → u = { s with tm := { s.tm with ppsWaiting := none } } →
      v = (if s.domainSource 0 = 2 then u.servoOffset 0 ((e.time : Int) - ((sec * 1000000000 * 2 ^ 16 : Nat) : Int)) else u) →
      exec (.todMessageRx chars) s = .next (if v.domainSource 1 = 2 then
        v.servoOffset 1 ((e.time : Int) - ((sec * 1000000000 * 2 ^ 16 : Nat) : Int)) else v)) ∧
  (∀ (s : State) (chars : List Nat) (sec : Nat) (e : PpsEdge), todSecond chars = some sec → s.tm.ppsWaiting = some e →
      s.tm.ticks ≤ e.ticks + 900000000 → e.invalid = true →
      exec (.todMessageRx chars) s = .next { s with tm := { s.tm with ppsWaiting := none } }) ∧
  (∀ (s : State) (e : PpsEdge), s.tm.ppsWaiting = some e → e.ticks + 900000000 < s.tm.ticks →
      exec .todWindowExpiry s = .next { s with tm := { s.tm with ppsWaiting := none, ppsDiscarded := s.tm.ppsDiscarded + 1 } }) ∧
  (∀ (s : State) (sec due : Nat), s.tm.todDue = some (sec, due) → due ≤ s.tm.ticks →
      exec .todOutput s = .next (({ s with tm := { s.tm with todDue := none } } : State).emit
        (.tod (todBaud (s.getF F.tbsIoCtrl_todBaud)) (todMessage sec s.tm.utcOffset s.locked)))) ∧
  (∀ (s : State) (ref : Nat), ref ≤ 1 → s.refHere ref = true →
      exec (.referenceLost ref) s = .next (s.setRef ref false).settleRef) ∧
  (∀ (s : State) (ref : Nat), ref ≤ 1 →
      exec (.referenceRelock ref) s = .next (s.setRef ref true).settleRef) ∧
  (∀ (s : State), exec .tbsTimeLatch s = .next (s.latchTime.emit (.regRead 0 (Reg.offset .tbsTimeFrac 0)
        (s.latchTime.rd .tbsTimeFrac 0).toNat)))

/-- With their parameters in range the time commands write their registers or state and answer OK: servo gains and
thresholds, domain sources and ports, the slew, the transparent-clock mode, ports and delays, and the I/O and SyncE
controls; time.select_domain switches to a valid domain. tec.arm arms the entry that its words spell; tec.cancel
removes a calendar entry that is not due within 2 us. (R42, R48, R53, R57, R63, R64, R71.) -/
def Obligations.TimeConfigurationCompletes : Prop :=
  (∀ (s : State) (h : CmdHdr) (kp ki fMax lockThreshold lockCount unlockThreshold stepThreshold inputTimeout holdoverGrace : Nat),
      s.refuseCmd h attrNone = none → kp < 2 ^ 16 → ki < 2 ^ 16 → fMax < 2 ^ 24 → lockThreshold < 2 ^ 12 → lockCount < 2 ^ 8 →
      unlockThreshold < 2 ^ 12 → stepThreshold < 2 ^ 32 → inputTimeout < 2 ^ 16 → holdoverGrace < 2 ^ 16 →
      exec (.timeServoConfig h kp ki fMax lockThreshold lockCount unlockThreshold stepThreshold inputTimeout holdoverGrace) s = .next
        (((((((((((s.setF F.tbsServoGain_kp 0 kp).setF F.tbsServoGain_ki 0 ki).setF F.tbsFreqMax_fMax 0 fMax).setF
          F.tbsThresh_lockThreshold 0 lockThreshold).setF F.tbsThresh_lockCount 0 lockCount).setF F.tbsThresh_unlockThreshold 0
          unlockThreshold).setF F.tbsStepThresh_stepThreshold 0 stepThreshold).setF F.tbsHoldover_inputTimeout 0 inputTimeout).setF
          F.tbsHoldover_holdoverGrace 0 holdoverGrace)).finish h .ok)) ∧
  (∀ (s : State) (h : CmdHdr) (source port domainNumber : Nat) (meanPathDelay : Int) (autoSwitch : Bool),
      s.refuseCmd h attrNone = none → source < 4 → port < 256 → domainNumber < 256 →
      exec (.timeDomainConfig h 0 source port domainNumber meanPathDelay autoSwitch) s = .next
        (((((s.setDomain 0 { s.domain 0 with domainNumber := domainNumber, meanPathDelay := meanPathDelay }).setF
          F.tbsDomainCtrl_srcA 0 source).setF F.tbsDomainCtrl_portA 0 port).setB F.tbsDomainCtrl_autoSwitch 0 autoSwitch).finish h .ok)) ∧
  (∀ (s : State) (h : CmdHdr) (source port domainNumber : Nat) (meanPathDelay : Int) (autoSwitch : Bool),
      s.refuseCmd h attrNone = none → source < 4 → port < 256 → domainNumber < 256 →
      exec (.timeDomainConfig h 1 source port domainNumber meanPathDelay autoSwitch) s = .next
        (((((s.setDomain 1 { s.domain 1 with domainNumber := domainNumber, meanPathDelay := meanPathDelay }).setF
          F.tbsDomainCtrl_srcB 0 source).setF F.tbsDomainCtrl_portB 0 port).setB F.tbsDomainCtrl_autoSwitch 0 autoSwitch).finish h .ok)) ∧
  (∀ (s : State) (h : CmdHdr) (domain : Nat), s.refuseCmd h attrNone = none → domain < 2 → s.domainValid domain = true →
      exec (.timeSelectDomain h domain) s = .next ((s.switchDomain domain).finish h .ok)) ∧
  (∀ (s : State) (h : CmdHdr) (slewRate slewRamp : Nat), s.refuseCmd h attrNone = none → slewRate < 2 ^ 16 →
      slewRamp < 2 ^ 16 → exec (.timeSlewConfig h slewRate slewRamp) s = .next
        (((s.setF F.tbsSlew_slewRate 0 slewRate).setF F.tbsSlew_slewRamp 0 slewRamp).finish h .ok)) ∧
  (∀ (s : State) (h : CmdHdr) (mode : Nat) (ports : List Nat) (delays : List (Nat × Nat)), s.refuseCmd h attrNone = none →
      mode < 3 → (∀ p ∈ ports, p < 256) → (∀ d ∈ delays, d.1 < 256) →
      exec (.timeTcConfig h mode ports delays) s = .next (({ s with tm := { s.tm with
        tcMode := mode, tcPorts := ports, linkDelay := delays.foldl (fun m d => SMap.put 0 m d.1 d.2) s.tm.linkDelay } } : State).finish h .ok)) ∧
  (∀ (s : State) (h : CmdHdr) (ioCtrl synce0 synce1 : Nat), s.refuseCmd h attrNone = none → ioCtrl < 2 ^ 32 →
      bitsOf ioCtrl 27 24 < 8 → 1 ≤ bitsOf ioCtrl 23 14 → bitsOf ioCtrl 23 14 ≤ 999 → synce0 < 2 ^ 32 → bitsOf synce0 29 20 = 0 →
      synce1 < 2 ^ 32 → bitsOf synce1 29 20 = 0 →
      exec (.timeIoConfig h ioCtrl synce0 synce1) s = .next ((((s.wr .tbsIoCtrl 0 (BitVec.ofNat 32 ioCtrl)).wr .tbsSynceCtrl 0
        (BitVec.ofNat 32 synce0)).wr .tbsSynceCtrl 1 (BitVec.ofNat 32 synce1)).afterIo.finish h .ok)) ∧
  (∀ (s t : State) (h : CmdHdr) (words : List Nat) (i : Nat), s.refuseCmd h attrNone = none →
      firstBad (tecWordsOk words) = none → (tecOf words h.mbx).stack = false → s.now + 2000 ≤ (tecOf words h.mbx).next →
      s.armHost (tecOf words h.mbx) = (t, .ok i) → exec (.tecArm h words) s = .next (t.finish h (.val [i]))) ∧
  (∀ (s : State) (h : CmdHdr) (handle : Nat) (e : TecEntry), s.refuseCmd h attrNone = none → 256 ≤ handle →
      SMap.find? s.tm.tec handle = some e → s.now + 2000 ≤ e.next → e.stack = false →
      exec (.tecCancel h handle) s = .next ((s.delTec handle).finish h .ok))

/-- Each clause gives, for every state that meets its conditions, the next state whole. PRS_ENTRY_REPAIR of a damaged
parser entry ends its damage and raises 0x4002. CLS_ENTRY_REPAIR of an entry damaged in one die's copy alone ends its
damage and raises 0x4102 for that die. Of one damaged in both copies it changes nothing. MSK_SCRUB_VISIT of a pipeline
takes the upset that struck its array, where there is one, and where scrub_en is set visits the next unit by mskVisit.
MSK_SUSPECT_REPAIR of a suspect entry, or of one whose shroud copy is bad, restores its units in the array, ends both
marks, shows the suspects left and raises 0x4203. MSK_ACTION_REPAIR of a damaged action ends its damage and raises
0x4205. L2_AGER_VISIT outside bare poles and FURLED of an entry that its die has not visited since a step or a bare-
poles exit writes its last_seen and ends that die's mark. Of a learned entry that has not been seen for longer than
l2_age_time it removes the entry and notifies. (R115, R154, R155, R184, R185, R187, R188, R491.) -/
def Obligations.TableRepairsComplete : Prop :=
  (∀ (s : State) (pipe table index : Nat), (pipe, table, index) ∈ s.prs.damaged →
      exec (.prsEntryRepair pipe table index) s = .next (({ s with prs := { s.prs with
        damaged := s.prs.damaged.filter (· != (pipe, table, index)) } } : State).raise 0x4002 pipe)) ∧
  (∀ (s : State) (die table index : Nat), (die, table, index) ∈ s.cls.damaged → (1 - die, table, index) ∉ s.cls.damaged →
      exec (.clsEntryRepair die table index) s = .next (({ s with cls := { s.cls with
        damaged := s.cls.damaged.filter (· != (die, table, index)) } } : State).raise 0x4102 (16 * die))) ∧
  (∀ (s : State) (die table index : Nat), (die, table, index) ∈ s.cls.damaged → (1 - die, table, index) ∈ s.cls.damaged →
      exec (.clsEntryRepair die table index) s = .next s) ∧
  (∀ (s t : State) (pipe shroud : Nat) (upset : Option MskUpset), pipe < 32 →
      t = upset.elim s (s.mskUpset pipe) →
      exec (.mskScrubVisit pipe upset shroud) s = .next (if t.getB F.mskCtrl_scrubEn pipe = true then t.mskVisit pipe shroud else t)) ∧
  (∀ (s : State) (pipe bank unit : Nat), (16384 * pipe + 1024 * bank + unit ∈ s.msk.suspect ∨
        16384 * pipe + 1024 * bank + unit ∈ s.msk.badShroud) →
      exec (.mskSuspectRepair pipe bank unit) s = .next ((({ s.mskRestore pipe (1024 * bank + unit) (s.mskBank bank).width with
        msk := { (s.mskRestore pipe (1024 * bank + unit) (s.mskBank bank).width).msk with
          suspect := (s.mskRestore pipe (1024 * bank + unit) (s.mskBank bank).width).msk.suspect.filter
            (· != 16384 * pipe + 1024 * bank + unit),
          badShroud := (s.mskRestore pipe (1024 * bank + unit) (s.mskBank bank).width).msk.badShroud.filter
            (· != 16384 * pipe + 1024 * bank + unit) } } : State).syncMsk pipe).raise 0x4203 pipe)) ∧
  (∀ (s : State) (pipe bank unit : Nat), 16384 * pipe + 1024 * bank + unit ∈ s.msk.badAction →
      exec (.mskActionRepair pipe bank unit) s = .next (({ s with msk := { s.msk with
        badAction := s.msk.badAction.filter (· != 16384 * pipe + 1024 * bank + unit) } } : State).raise 0x4205 pipe)) ∧
  (∀ (s : State) (die slot : Nat) (e : L2Entry), die ≤ 1 → SMap.find? s.cls.l2 slot = some e →
      s.getB F.fltStatus_barePoles = false → s.furled = false → (if die = 0 then e.stepFore else e.stepAft) = true →
      exec (.l2AgerVisit die slot) s = .next { s with cls := { s.cls with
        l2 := SMap.set s.cls.l2 slot { e with
          lastSeen := s.coarseNow, stepFore := e.stepFore && die != 0, stepAft := e.stepAft && die != 1 } } }) ∧
  (∀ (s : State) (die slot : Nat) (e : L2Entry), die ≤ 1 → SMap.find? s.cls.l2 slot = some e →
      s.getB F.fltStatus_barePoles = false → s.furled = false → (if die = 0 then e.stepFore else e.stepAft) = false →
      e.isStatic = false → coarseSeconds s.cls.l2AgeTime < wrapDiff s.coarseNow e.lastSeen 32 →
      exec (.l2AgerVisit die slot) s = .next (({ s with cls := { s.cls with l2 := SMap.del s.cls.l2 slot } } : State).notify 6 3 die
        false (bytesLE 2 e.vlan ++ bytesBE 6 e.mac ++ [e.port, 0, 0, 0] ++ bytesLE 4 e.lastSeen)))

/-- epoch.swap to the other epoch outside a drain makes the swap pending for a boundary at least 2 us away and begins
the command, and to the epoch in force it answers OK at once; epoch.status answers the active epoch, the draining flag
and the old epoch's packets. At its instant the oldest pending swap takes place; a drain whose old epoch has no packet
left completes; past the 8 us deadline the packets left are marked and the drain completes. (R160, R161, R162, R166.)
-/
def Obligations.EpochCommandsComplete : Prop :=
  (∀ (s : State) (r : SwapReq) (rest : List SwapReq), s.cls.pendingSwap = r :: rest → r.at_ ≤ s.now →
      exec .epochSwapInstant s = .next (({ s with cls := { s.cls with pendingSwap := rest } } : State).swapNow r.target r.stack r.cmd)) ∧
  (∀ (s : State) (d : Drain), s.cls.drain = some d → s.inflightOf d.old = 0 → exec .swapComplete s = .next s.completeSwap) ∧
  (∀ (s : State) (d : Drain), s.cls.drain = some d → d.at_ + 8000 ≤ s.now →
      exec .epochDrainDeadline s = .next (({ s with pk := { s.pk with pkts := SMap.mapVal (fun _ p =>
        if p.counted && p.epoch == d.old then { p with marked := true, counted := false } else p) s.pk.pkts } } : State).syncEpochs.completeSwap)) ∧
  (∀ (s : State) (h : CmdHdr) (target : Nat), s.refuseCmd h attrO = none → target < 2 → s.getB F.clsEpoch_draining = false →
      s.stk.swapHold = false → (s.stkFormed = false ∨ s.actingMaster = true) → target ≠ s.epoch →
      exec (.epochSwap h target) s = .next ((({ s with cls := { s.cls with pendingSwap := s.cls.pendingSwap ++ [⟨target,
        boundaryAfter s.now 2000, s.stkFormed, some (h.mbx, h.cid)⟩] } } : State).sendAll (.swap target (boundaryAfter s.now 2000))).beginCmd h)) ∧
  (∀ (s : State) (h : CmdHdr) (target : Nat), s.refuseCmd h attrO = none → target < 2 → s.getB F.clsEpoch_draining = false →
      s.stk.swapHold = false → (s.stkFormed = false ∨ s.actingMaster = true) → target = s.epoch →
      exec (.epochSwap h target) s = .next (s.swapNoop.finish h .ok)) ∧
  (∀ (s : State) (h : CmdHdr), s.refuseCmd h attrNone = none →
      exec (.epochStatus h) s = .next (s.finish h (.val [s.epoch, s.getF F.clsEpoch_draining, s.inflightOf (1 - s.epoch)])))

/-- fst.rebuild with no rebuild running starts one in every shard with its size and seed; fst.sweep_config stores a
descriptor's profiles; the last bucket done the stash follows, and when every shard is done the new generation takes
over and 0x8004 is raised. An ageing pass starts; a block visit ends the pass or moves to the next block; a removal
that has prepared commits, is counted and is told. (R215, R217, R218, R219, R222.) -/
def Obligations.RebuildAndAgeingComplete : Prop :=
  (∀ (s : State) (shard : Nat) (r : Rebuild), SMap.find? s.fst.rebuilds shard = some r → r.done = false →
      s.getF F.fstStatus_kCur shard = 0 → exec (.rebuildBucket shard) s = .next (s.rebuildStash shard r)) ∧
  (∀ (s : State), s.fst.rebuilds ≠ [] → (∀ e ∈ s.fst.rebuilds, e.2.done = true ∧ e.2.newSeed = true) →
      exec .rebuildComplete s = .next (({ (s.fst.rebuilds.map Prod.fst).foldl State.rebuildFlip s with
        fst := { ((s.fst.rebuilds.map Prod.fst).foldl State.rebuildFlip s).fst with gracePass := List.range 512 } } : State).raise 0x8004 0)) ∧
  (∀ (s : State) (shard desc : Nat), exec (.ageingPassStart shard desc) s = .next (s.startSweep shard desc)) ∧
  (∀ (s : State) (shard : Nat) (sw : Sweep), SMap.find? s.fst.sweeps shard = some sw → s.getB F.fltStatus_barePoles = false →
      shard ∉ s.fst.restarting → s.holder shard [bitmapUnit sw.block] = none → s.poisoned shard (bitmapUnit sw.block) = false →
      (∀ e ∈ s.fst.ageBits, ¬ (shard * 2 ^ 24 + 128 * sw.block ≤ e.1 ∧ e.1 < shard * 2 ^ 24 + 128 * sw.block + 128)) →
      s.furled = false → sw.block + 1 < s.ageBlocks →
      exec (.ageingBlockVisit shard) s = .next { s with fst := { s.fst with
        sweeps := SMap.set s.fst.sweeps shard { sw with block := sw.block + 1 } } }) ∧
  (∀ (s : State) (shard id h dir reason x : Nat) (t : Tx) (r : FlowRec),
      SMap.first? s.fst.txs (fun _ t => t.cls == 1 && t.coord == shard && t.phase == .prepared) = some (id, t) →
      t.removal = some (h, dir, reason, x) → s.recNow h = some r →
      ((SMap.find? (s.commitPoint id).fst.txs id).elim false fun x => x.phase == .committing) = true →
      exec (.ageRemovalCommit shard) s = .next (((s.commitPoint id).count (ageCounter shard reason)).sendAgeOut shard h r reason)) ∧
  (∀ (s : State) (h : CmdHdr) (k : Nat), s.refuseCmd h attrO = none → 16 ≤ k → k ≤ 23 → s.fst.rebuilds = [] →
      exec (.fstRebuild h k false) s = .next (((List.range 32).foldl (fun t i =>
        ((((({ t with fst := { t.fst with
          rebuilds := SMap.set t.fst.rebuilds i ⟨0, false, false⟩,
          sweeps := SMap.modify t.fst.sweeps i fun w => { w with noTwoPass := true } } } : State).setF F.fstStatus_rebuilding
          i 1).setF F.fstStatus_kNew i k)).setB F.fstStatus_newSeed i false).setF F.fstRebuildLine_line i 0) s).finish h .ok)) ∧
  (∀ (s : State) (h : CmdHdr) (desc mask : Nat), s.refuseCmd h attrNone = none → desc < 16 → mask < 2 ^ 64 →
      (∀ p < 64, bitOf mask p = true → pTwoPass (SMap.getD s.cls.flowProf p []) = true →
        pValid (SMap.getD s.cls.flowProf p []) = true → ∀ e ∈ s.fst.descs, e.1 ≠ desc → bitOf e.2 p = false) →
      exec (.fstSweepConfig h desc mask) s = .next (({ s with fst := { s.fst with
        descs := SMap.put 0 s.fst.descs desc mask } } : State).finish h .ok))

/-- A firmware verdict to drop or to forward without state acts on the waiting packets of a key; a setup past its
timeout is counted and handled as an overflow; a hold past its time frees its NAT bit where no transaction holds it.
The configuration commands store templates, the timeout, pools with no live block, and the hold time; nat.pool_status
answers what is used and held. (R234, R240, R241, R247, R268.) -/
def Obligations.SetupAndNatComplete : Prop :=
  (∀ (s : State) (shard place thread : Nat) (e : MqEntry), s.mqNth shard place .verdict = some e →
      exec (.fwSetupVerdict shard place 1 thread none) s = .next ((e.pkt :: (s.mqChain shard e.key).map (·.pkt)).foldl
        (fun t id => t.dropPkt id) (s.mqDrop shard (e.pkt :: (s.mqChain shard e.key).map (·.pkt))))) ∧
  (∀ (s : State) (shard place thread : Nat) (e : MqEntry), s.mqNth shard place .verdict = some e →
      exec (.fwSetupVerdict shard place 2 thread none) s = .next ((e.pkt :: (s.mqChain shard e.key).map (·.pkt)).foldl
        (fun t id => t.forwardStateless id e.key) (s.mqDrop shard (e.pkt :: (s.mqChain shard e.key).map (·.pkt))))) ∧
  (∀ (s : State) (shard place : Nat) (e : MqEntry), s.mqNth shard place .verdict = some e →
      e.asked + 1000 * s.fst.fwTimeout ≤ s.tm.ticks →
      exec (.fwSetupTimeout shard place) s = .next ((s.count (C.fstSetupFwTimeout shard)).overflowAll shard e.pkt e.key)) ∧
  (∀ (s : State) (shard : Nat) (e : NatHold) (rest : List NatHold), SMap.getD s.fst.holds shard [] = e :: rest → e.due ≤ s.now →
      s.conflict [⟨2, e.key, e.bit⟩] = none →
      exec (.natHoldRelease shard) s = .next ((({ s with fst := { s.fst with
        holds := SMap.put [] s.fst.holds shard rest } } : State).setNatBit e.key e.bit false).countTx (natShard e.key) 0)) ∧
  (∀ (s : State) (h : CmdHdr) (index : Nat) (words : List Nat), s.refuseCmd h attrNone = none → index < 32 →
      words.length = 8 → (∀ w ∈ words, w < 2 ^ 32) → tInitTclass words ≠ 3 →
      exec (.setupTemplateSet h index words) s = .next (({ s with fst := { s.fst with
        templates := SMap.set s.fst.templates index words } } : State).finish h .ok)) ∧
  (∀ (s : State) (h : CmdHdr) (timeout : Nat), s.refuseCmd h attrNone = none → 10 ≤ timeout → timeout ≤ 10000 →
      exec (.setupFwConfig h timeout) s = .next (({ s with fst := { s.fst with fwTimeout := timeout } } : State).finish h .ok)) ∧
  (∀ (s : State) (h : CmdHdr) (pool insideBase insideShift subCount outsideBase addrCount portLo blockSize m prefix64 len64 : Nat),
      s.refuseCmd h attrNone = none → pool < 64 → insideBase < 2 ^ 128 → insideShift ≤ 64 → 1 ≤ subCount → subCount ≤ 2 ^ 22 →
      outsideBase < 2 ^ 32 → 1 ≤ addrCount → addrCount ≤ 65536 → 1024 ≤ portLo → portLo ≤ 61440 →
      blockSize ∈ [64, 128, 256, 512, 1024, 2048, 4096] → 1 ≤ m → m ≤ 16 → m * blockSize ≤ 4096 →
      subCount * m ≤ addrCount * NatPool.bpa ⟨insideBase, insideShift, subCount, outsideBase, addrCount, portLo, blockSize, m, prefix64, len64⟩ →
      prefix64 < 2 ^ 128 → len64 ∈ [32, 40, 48, 56, 64, 96] →
      natFits (SMap.set s.fst.natPools pool ⟨insideBase, insideShift, subCount, outsideBase, addrCount, portLo, blockSize, m, prefix64, len64⟩) = true →
      s.natLive pool = false →
      exec (.natPoolSet h pool insideBase insideShift subCount outsideBase addrCount portLo blockSize m prefix64 len64) s = .next
        ((s.putPool pool ⟨insideBase, insideShift, subCount, outsideBase, addrCount, portLo, blockSize, m, prefix64, len64⟩).finish h .ok)) ∧
  (∀ (s : State) (h : CmdHdr) (pool : Nat) (sub : Option Nat) (p : NatPool), s.refuseCmd h attrNone = none → pool < 64 →
      SMap.find? s.fst.natPools pool = some p → (∀ k, sub = some k → k < p.subCount) →
      exec (.natPoolStatus h pool sub) s = .next (s.finish h (.bulkOf
        [(s.natUsed pool).1 - (s.natUsed pool).2, (s.natUsed pool).2,
          ((s.fst.natBits.filter fun e => e.1 / 2 ^ 24 == pool && popCount e.2 4096 == p.ports).map fun e => e.1 / 4).eraseDups.length]
        (sub.elim [] fun k => (List.range 3).flatMap fun pr => (List.range 128).map fun i =>
          bitsOf (SMap.getD s.fst.natBits (natKey pool k pr) 0) (32 * i + 31) (32 * i))))) ∧
  (∀ (s : State) (h : CmdHdr) (seconds : Nat), s.refuseCmd h attrNone = none → seconds ≤ 600 →
      exec (.natHoldConfig h seconds) s = .next (({ s with fst := { s.fst with natHold := seconds } } : State).finish h .ok))

/-- A demand is served in turn; a shard's cache below 16 handles is refilled with 32 and one of 64 or more gives 32
back; a recall returns half of every cache and clears its bit; a reference is added or removed; bpm.heap_config with
no live record sets the pools anew and fills the free lists, without the retired handles; bpm.ctrl_config with no
control buffer in use sets the control pools and fills their lists; and bpm.status answers the list lengths. (R249,
R250, R251, R253, R254, R256, R268.) -/
def Obligations.RecordPoolsComplete : Prop :=
  (∀ (s : State) (pool : Nat) (requesters : List Nat), exec (.bpmDemandRequest false pool requesters) s = .next
        (s.demand false ([0, 1, 2].drop pool) (requesters.filter (mayRequest false)))) ∧
  (∀ (s : State) (shard pool : Nat), shard < 32 → pool ≤ 2 → (s.hCache shard pool).length < 16 →
      exec (.bpmBatchRefill shard pool) s = .next (s.refill shard pool 32)) ∧
  (∀ (s : State) (shard pool : Nat), shard < 32 → pool ≤ 2 → 64 ≤ (s.hCache shard pool).length →
      exec (.bpmBatchRefill shard pool) s = .next ((s.setCache shard pool ((s.hCache shard pool).drop 32)).setList shard pool
        (((s.hCache shard pool).take 32).map (fun h => (h, 1)) ++ s.freeList shard pool))) ∧
  (∀ (s : State) (pool : Nat), pool ≤ 2 → s.getBit F.bpmStatus_recall 0 pool = true →
      exec (.bpmRecallComplete pool) s = .next (((List.range 32).foldl (fun t k =>
        (t.setCache k pool ((t.hCache k pool).drop ((t.hCache k pool).length / 2))).setList k pool
          (((t.hCache k pool).take ((t.hCache k pool).length / 2)).map (fun h => (h, 1)) ++ t.freeList k pool)) s).setBit
        F.bpmStatus_recall 0 pool false)) ∧
  (∀ (s : State) (handle requester : Nat) (add : Bool), exec (.refcountOp true handle requester add) s = .next
        (s.refCtrl handle requester add)) ∧
  (∀ (s : State) (handle requester : Nat) (add : Bool), exec (.refcountOp false handle requester add) s = .next
        (s.refHeap handle requester add)) ∧
  (∀ (s : State) (h : CmdHdr) (n64 n128 n256 : Nat), s.refuseCmd h attrO = none → n64 + 2 * n128 + 4 * n256 ≤ 2 ^ 24 →
      (32 * 64 * (n64 + 2 * n128 + 4 * n256) ≤ 2 ^ 32 ∨
        ∀ e ∈ s.cls.flowProf, bitOf (wordAt e.2 7) 31 = true → bitOf (wordAt e.2 7) 21 = true) → s.anyLive = false →
      exec (.bpmHeapConfig h n64 n128 n256) s = .next ((((((List.range 32).foldl (fun (t : State) k => [0, 1, 2].foldl (fun (u : State) p =>
          if u.poolSize p = 0 then u else { u with fst := { u.fst with
            free := SMap.put [] u.fst.free (poolKey k p) (u.fst.retired.foldl (fun r x => Ranges.without (2 ^ p) x r) [(k * 2 ^ 24 + u.poolBase p, u.poolSize p)]) } }) t)
        { s with fst := { s.fst with heapCfg := (n64, n128, n256), free := [], caches := [], granted := [] } }).syncHeap
          0).syncHeap 1).syncHeap 2).finish h .ok)) ∧
  (∀ (s : State) (h : CmdHdr) (c0 c1 c2 c3 : Nat), s.refuseCmd h attrO = none →
      (([c0, c1, c2, c3].zipIdx.foldl (fun a e => a + e.1 * ctrlUnits e.2) 0) * 256 ≤ 7424 * 2 ^ 20) → s.fst.ctrlBufs = [] →
      exec (.bpmCtrlConfig h [c0, c1, c2, c3]) s = .next (([0, 1, 2, 3].foldl (fun (t : State) p =>
          if t.fst.ctrlCfg.getD p 0 = 0 then t.syncCtrl p else ({ t with fst := { t.fst with
            ctrlFree := SMap.set t.fst.ctrlFree p [(t.ctrlBase p, t.fst.ctrlCfg.getD p 0)] } } : State).syncCtrl p)
        { s with fst := { s.fst with ctrlCfg := [c0, c1, c2, c3], ctrlFree := [] } }).finish h .ok)) ∧
  (∀ (s : State) (h : CmdHdr), s.refuseCmd h attrNone = none →
      exec (.bpmStatus h) s = .next (s.finish h (.val (((List.range 96).map fun i => Ranges.count (s.freeList (i / 3) (i % 3)))
        ++ ((List.range 4).map fun p => Ranges.count (SMap.getD s.fst.ctrlFree p []))
        ++ ((List.range 96).map fun i => (s.hCache (i / 3) (i % 3)).length) ++ [s.getF F.bpmStatus_recall]))))

/-- tx.open with fewer than 16 open gives the next number; tx.add appends well-formed descriptors; tx.abort forgets an
open transaction; tx.commit of one on this device alone opens it at its coordinator. A transaction that holds nothing
back prepares; a prepared one of firmware or host commits; its writes are applied at each shard and acknowledged; one
not prepared within 15,000 cycles aborts with E_TIMEOUT; a fence raises a core's generation. (R258, R259, R260, R262,
R264, R266, R267.) -/
def Obligations.TransactionCommandsComplete : Prop :=
  (∀ (s : State) (tx : Nat) (t : Tx), SMap.find? s.fst.txs tx = some t → (t.phase ≠ .opened ∨ s.deleteWaits t = false) →
      exec (.txPrepare tx) s = .next ((((s.rechoose tx t).prepareTx tx).provisional tx).commitSetup tx)) ∧
  (∀ (s : State) (tx : Nat) (t : Tx), SMap.find? s.fst.txs tx = some t → 2 ≤ t.cls → s.deleteWaits t = false →
      t.origin = none → (∀ e ∈ t.peers, e.2 ≠ 0) → exec (.txCommitPoint tx) s = .next (s.commitPoint tx)) ∧
  (∀ (s : State) (tx shard : Nat), exec (.txCommitReceipt tx shard) s = .next (s.applyAt tx shard)) ∧
  (∀ (s : State) (tx : Nat), exec (.txAckAll tx) s = .next (s.ackAll tx)) ∧
  (∀ (s : State) (tx : Nat) (t : Tx), SMap.find? s.fst.txs tx = some t → (t.phase = .waiting ∨ t.phase = .prepared) →
      t.locks ≠ [] → t.held = false → t.start + 15000 ≤ s.cycle → t.faulted = false →
      exec (.txPrepareTimeout tx) s = .next (s.txAbort tx eTimeout)) ∧
  (∀ (s : State) (core : Nat), core < 4 → exec (.generationFence core) s = .next
        (s.setFence core (s.getF F.crdCoreStatus_ctrlGen core + 1))) ∧
  (∀ (s : State) (h : CmdHdr), s.refuseCmd h attrO = none → (s.fst.hostTx.filter fun e => e.2.mbx == h.mbx).length < 16 →
      exec (.txOpen h) s = .next (({ s with fst := { s.fst with
        nextTx := s.fst.nextTx + 1, hostTx := SMap.set s.fst.hostTx s.fst.nextTx ⟨h.mbx, []⟩ } } : State).finish h (.val [s.fst.nextTx]))) ∧
  (∀ (s : State) (h : CmdHdr) (tx : Nat) (t : HostTx) (descs : List (List Nat)), s.refuseCmd h attrO = none →
      s.hostTxOf h.mbx tx = some t → (∀ d ∈ descs, descOk d = true) →
      exec (.txAdd h tx descs) s = .next (({ s with fst := { s.fst with
        hostTx := SMap.set s.fst.hostTx tx { t with descs := t.descs ++ descs } } } : State).finish h .ok)) ∧
  (∀ (s : State) (h : CmdHdr) (tx : Nat) (t : HostTx), s.refuseCmd h attrO = none → s.hostTxOf h.mbx tx = some t →
      exec (.txAbort h tx) s = .next (({ s with fst := { s.fst with hostTx := SMap.del s.fst.hostTx tx } } : State).finish h .ok)) ∧
  (∀ (s s2 : State) (h : CmdHdr) (tx coord : Nat) (rest : List Nat) (t : HostTx) (ws : List TxWrite), s.refuseCmd h attrO = none →
      s.hostTxOf h.mbx tx = some t →
      ({ s with fst := { s.fst with hostTx := SMap.del s.fst.hostTx tx } } : State).spanOf t.descs = [] →
      (∀ d ∈ t.descs, ({ s with fst := { s.fst with hostTx := SMap.del s.fst.hostTx tx } } : State).descOwner d = none) →
      ({ s with fst := { s.fst with hostTx := SMap.del s.fst.hostTx tx } } : State).expandAll t.descs [] [] = (s2, .ok ws []) →
      writeShards ws = coord :: rest → txFits ws = true →
      exec (.txCommit h tx) s = .next (((s2.openTx { Tx.new (7 * 4096 + h.mbx) coord ws with
        conds := [], cmd := some (h.mbx, h.cid, h.noIrq), peers := [] }).1.sendParts
          (s2.openTx { Tx.new (7 * 4096 + h.mbx) coord ws with conds := [], cmd := some (h.mbx, h.cid, h.noIrq), peers := [] }).2 []).beginCmd h))

/-- flow.insert of a well-formed flow at home on this device, with room and no rebuild about to end there, opens a
firmware transaction with the flow's writes and begins the command; flow.read by key answers the record that is live;
flow.modify of fields that exist and flow.delete open a transaction on the key's record; fst.mq_config sets the setup
cap of every shard and fst.status answers three registers of one. (R209, R227, R258.) -/
def Obligations.FlowCommandsComplete : Prop :=
  (∀ (s s1 : State) (h : CmdHdr) (flow : FlowNew) (handle : Nat) (ws : List TxWrite), s.refuseCmd h attrNone = none →
      firstBad (s.flowNewOk flow) = none → s.remoteOwner (flow.profile :: flow.key.drop 1) = none →
      s.rebuildEnds (homeShard s.fst.shardSeed (flow.profile :: flow.key.drop 1)) = false →
      s.insertWrites flow = (s1, some (handle, ws)) →
      exec (.flowInsert h flow) s = .next ((s1.draw.openFirmware s1.threadSource ws fun t =>
        { t with cmd := some (h.mbx, h.cid, h.noIrq), result := [handle] }).1.beginCmd h)) ∧
  (∀ (s : State) (h : CmdHdr) (handle k : Nat) (key : List Nat) (r : FlowRec), s.refuseCmd h attrNone = none →
      keyBytesOk key 48 = true → s.handleOf key = some k → s.recNow k = some r → iLive (toImage r.size r.words) = true →
      exec (.flowRead h false handle key) s = .next (s.finish h (.bulkOf [k, r.size, s.tagState k] r.words))) ∧
  (∀ (s : State) (h : CmdHdr) (handle : Nat) (key : List Nat) (r : FlowRec), s.refuseCmd h attrNone = none →
      s.badHeap handle = none → s.recNow handle = some r → iLive (toImage r.size r.words) = true →
      exec (.flowRead h true handle key) s = .next (s.finish h (.bulkOf [handle, r.size, s.tagState handle] r.words))) ∧
  (∀ (s : State) (h : CmdHdr) (key words : List Nat) (mask k : Nat), s.refuseCmd h attrNone = none → keyBytesOk key 48 = true →
      mask < 2 ^ 16 → words.length = 16 → (∀ w ∈ words, w < 2 ^ 32) → s.handleOf key = some k →
      (∀ i < 16, bitOf mask i = true → Nat.land (wordAt words i) (fieldMask ((s.recNow k).elim 0 (·.size)) i) = wordAt words i
        ∧ fieldMask ((s.recNow k).elim 0 (·.size)) i ≠ 0) →
      exec (.flowModify h key mask words) s = .next ((s.draw.openFirmware s.threadSource [.recHot k mask words] fun t =>
        { t with cmd := some (h.mbx, h.cid, h.noIrq) }).1.beginCmd h)) ∧
  (∀ (s : State) (h : CmdHdr) (key : List Nat) (k : Nat), s.refuseCmd h attrNone = none → keyBytesOk key 48 = true →
      s.remoteOwner key = none → s.handleOf key = some k →
      exec (.flowDelete h key) s = .next ((s.draw.openFirmware s.threadSource (s.removeWrites k) fun t =>
        { t with cmd := some (h.mbx, h.cid, h.noIrq) }).1.beginCmd h)) ∧
  (∀ (s : State) (h : CmdHdr) (setupCap : Nat), s.refuseCmd h attrNone = none → 1 ≤ setupCap → setupCap ≤ 4096 →
      exec (.fstMqConfig h setupCap) s = .next ((s.setAll F.fstCtrl_setupCap 32 setupCap).finish h .ok)) ∧
  (∀ (s : State) (h : CmdHdr) (shard : Nat), s.refuseCmd h attrNone = none → shard < 32 →
      exec (.fstStatus h shard) s = .next (s.finish h (.val [(s.rd .fstStatus shard).toNat, (s.rd .fstMqStatus shard).toNat,
        (s.rd .fstLive shard).toNat])))

/-- Each clause gives, for every state that meets its conditions, the next state whole. HBM_UNCORRECTABLE in a unit of
a pseudo-channel that is not poisoned already is handled by the operation hbmUncorrectable. FREEZE_END ends a freeze
whose hold bit is clear. With the hold bit set it marks the freeze past its end, and the pseudo-channels held are
shown. RETIRE_COPY_COMPLETE, the copy's line having come to the last unit, ends the retirement, records the channel in
the boot flash, clears its activate and refresh counts, sets the retired bit, spare_used, spare_pc, the line and
retire_done_seen, clears retiring and raises 0x2003. HBM_REFRESH of a pseudo-channel that is refreshed advances its
bank count of 16. PATROL_SCRUB_READ of a pseudo-channel that is not held or retired, patrol_en set, moves its unit on;
a corrected error there is reported. An uncorrectable one there is handled by hbmUncorrectable as requester 6, unless
the unit is poisoned already. RETRAIN_WINDOW_EXIT, the window's length having passed, ends and counts the window,
shows the stack's state, starts the freezes that the window put off and releases the stack's held requests. (R384,
R386, R388, R389, R393, R395, R396.) -/
def Obligations.HbmErrorAndRetireEventsComplete : Prop :=
  (∀ (s : State) (g : Nat) (e : HbmUe), g < 192 → (∀ x, s.dataUnit g e.unit = some x → s.poisoned x.1 x.2 = false) →
      exec (.hbmUncorrectable g e) s = .next (s.hbmUncorrectable g e)) ∧
  (∀ (s : State) (g : Nat) (f : Freeze), SMap.find? s.hbm.freezes g = some f → s.getBit F.mcxPcHold_hold (g / 32) (g % 32) = false →
      exec (.freezeEnd g) s = .next (s.endFreeze g)) ∧
  (∀ (s : State) (g : Nat) (f : Freeze), SMap.find? s.hbm.freezes g = some f → s.getBit F.mcxPcHold_hold (g / 32) (g % 32) = true →
      exec (.freezeEnd g) s = .next (({ s with hbm := { s.hbm with
        freezes := SMap.set s.hbm.freezes g { f with past := true } } } : State).syncPcHeld)) ∧
  (∀ (s : State) (stack : Nat) (r : Retire), SMap.find? s.hbm.retires stack = some r → spareUnit ≤ r.lineAt s.tm.ticks →
      exec (.retireCopyComplete stack) s = .next (((((((((({ s with hbm := { s.hbm with
          retires := SMap.del s.hbm.retires stack, recorded := SMap.set s.hbm.recorded stack r.pc,
          acts := SMap.del s.hbm.acts (32 * stack + r.pc), refresh := SMap.del s.hbm.refresh (32 * stack + r.pc) } } : State).eraseSector
        (Config.norSector 4)).setBit F.mcxPcRetired_retired stack r.pc true).setF F.mcxStatus_retiring stack 0).setF
        F.mcxStatus_spareUsed stack 1).setF F.mcxStatus_sparePc stack r.pc).setF F.mcxRetireLine_line stack spareUnit).setF
        F.mcxEvent_retireDoneSeen stack 1)).raise 0x2003 stack r.pc)) ∧
  (∀ (s : State) (g : Nat), s.refreshed g = true → exec (.hbmRefresh g) s = .next { s with hbm := { s.hbm with
        refresh := SMap.put 0 s.hbm.refresh g ((SMap.getD s.hbm.refresh g 0 + 1) % 16) } }) ∧
  (∀ (s u : State) (g : Nat) (corrected : Bool), g < 192 → s.getB F.mcxCtrl_patrolEn (g / 32) = true → s.pcHolds g = false →
      s.getBit F.mcxPcRetired_retired (g / 32) (g % 32) = false →
      u = { s with hbm := { s.hbm with patrol := SMap.put 0 s.hbm.patrol g ((SMap.getD s.hbm.patrol g 0 + 1) % 2 ^ 23) } } →
      exec (.patrolScrubRead g corrected none) s = .next (if corrected = true then u.hbmCorrected g (SMap.getD s.hbm.patrol g 0) else u)) ∧
  (∀ (s u : State) (g : Nat) (e : HbmUe) (corrected : Bool), g < 192 → s.getB F.mcxCtrl_patrolEn (g / 32) = true →
      s.pcHolds g = false → s.getBit F.mcxPcRetired_retired (g / 32) (g % 32) = false →
      u = { s with hbm := { s.hbm with patrol := SMap.put 0 s.hbm.patrol g ((SMap.getD s.hbm.patrol g 0 + 1) % 2 ^ 23) } } →
      exec (.patrolScrubRead g corrected (some e)) s = .next
        (if (u.dataUnit g (SMap.getD s.hbm.patrol g 0)).any (fun x => u.poisoned x.1 x.2) = true then u
         else u.hbmUncorrectable g { e with unit := SMap.getD s.hbm.patrol g 0, requester := 6 })) ∧
  (∀ (s u : State) (stack : Nat) (history : List (List Nat)) (w : TrainWindow), SMap.find? s.hbm.windows stack = some w →
      w.at_ + w.length ≤ s.tm.ticks →
      u = ({ s with hbm := { s.hbm with
        windows := SMap.del s.hbm.windows stack, deferred := s.hbm.deferred.filter fun g => g / 32 != stack } } : State) →
      exec (.retrainWindowExit stack history) s = .next (((s.hbm.deferred.filter fun g => g / 32 == stack).foldl
        (fun t g => t.startFreeze g history) (((u.count (C.mcxTrainWindows stack)).addF
        F.mcxTrainStatus_windows stack 1).setF F.mcxStatus_state stack 1)).releaseHeld stack))

/-- Each clause gives, for every state that meets its conditions, the next state whole. HBM_TEMP_READ keeps the
reading and the maximum, sets hot above 85, and above 95 sets temp_high_seen and raises 0x2005 where that condition is
not live; at 83 or more it ends a cooling that had begun. Below 83 it notes when the cooling began. Below 83 for 1 s
or more it clears hot and ends the condition. NEIGHBOUR_REFRESH of a pseudo-channel whose row is activated n times
gives the activation table that ActRun.activates makes of it under the threshold, shows the greatest count and
occupancy, and, where that brings about neighbour refreshes, counts them and sets nrefresh_seen.
REFRESH_WINDOW_BOUNDARY clears a stack's activate counts. FURL_SELF_REFRESH_ENTRY of the furled device attempts self-
refresh of a stack that is not frozen, has no retry waiting and has not left self-refresh since the quiesce.
FURL_ENTRY_RETRY at or after the time set for it attempts it again. SELF_REFRESH_EXIT_HELD of a stack in self-refresh
that holds a request leaves self-refresh, and the stack stays out of it. PC_HOLD_WRITE writes MCX_PC_HOLD by
writeHold. (R384, R385, R389, R397, R586.) -/
def Obligations.HbmWatchAndPowerEventsComplete : Prop :=
  (∀ (s a b c : State) (stack temp : Nat), stack < 6 →
      a = (s.setF F.mcxTemp_temp stack (Nat.min 255 temp)).maxF F.mcxTemp_tempMax stack temp →
      b = (if temp > 85 then a.setF F.mcxTemp_hot stack 1 else a) →
      c = (if temp > 95 ∧ (∀ l ∈ b.flt.live, ¬ (l.code = 0x2005 ∧ l.instance_ = stack)) then
        (b.setF F.mcxEvent_tempHighSeen stack 1).raise 0x2005 stack else b) → 83 ≤ temp →
      exec (.hbmTempRead stack temp) s = .next { c with hbm := { c.hbm with coolSince := SMap.del c.hbm.coolSince stack } }) ∧
  (∀ (s a : State) (stack temp : Nat), stack < 6 → temp < 83 →
      a = (s.setF F.mcxTemp_temp stack temp).maxF F.mcxTemp_tempMax stack temp → SMap.find? a.hbm.coolSince stack = none →
      exec (.hbmTempRead stack temp) s = .next { a with hbm := { a.hbm with coolSince := SMap.set a.hbm.coolSince stack a.now } }) ∧
  (∀ (s a : State) (stack temp t : Nat), stack < 6 → temp < 83 →
      a = (s.setF F.mcxTemp_temp stack temp).maxF F.mcxTemp_tempMax stack temp → SMap.find? a.hbm.coolSince stack = some t →
      exec (.hbmTempRead stack temp) s = .next
        (if t + 1000000000 ≤ a.now then (a.setF F.mcxTemp_hot stack 0).endCondition 0x2005 stack else a)) ∧
  (∀ (s u v : State) (g bank row n : Nat) (r : ActRun), g < 192 →
      r = (ActRun.mk (SMap.getD s.hbm.acts g []) 0 0).activates (s.getF F.mcxRhCfg_threshold (g / 32)) bank row n →
      u = ({ s with hbm := { s.hbm with acts := SMap.put [] s.hbm.acts g r.table } } : State) →
      v = (u.maxF F.mcxRhStatus_countMax (g / 32) r.top).maxF F.mcxRhStatus_occMax (g / 32)
        (if n = 0 ∨ (∃ e ∈ SMap.getD s.hbm.acts g [], e.bank = bank ∧ e.row = row) then (SMap.getD s.hbm.acts g []).length
         else Nat.min 512 ((SMap.getD s.hbm.acts g []).length + 1)) →
      exec (.neighbourRefresh g bank row n) s = .next (if r.refreshes = 0 then v else
        (v.count (C.mcxNrefresh (g / 32)) r.refreshes).setF F.mcxEvent_nrefreshSeen (g / 32) 1)) ∧
  (∀ (s : State) (stack : Nat), exec (.refreshWindowBoundary stack) s = .next { s with hbm := { s.hbm with
        acts := s.hbm.acts.keep fun g _ => g / 32 != stack } }) ∧
  (∀ (s : State) (stack request : Nat), stack < 6 → s.getF F.sysStatus_bootState = 7 → s.stackHolds stack = false →
      SMap.has s.hbm.srRetryAt stack = false → stack ∉ s.hbm.srOut →
      exec (.furlSelfRefreshEntry stack request) s = .next (s.enterSelfRefresh stack request)) ∧
  (∀ (s : State) (stack request t : Nat), SMap.find? s.hbm.srRetryAt stack = some t → t ≤ s.now →
      exec (.furlEntryRetry stack request) s = .next (s.enterSelfRefresh stack request)) ∧
  (∀ (s u : State) (stack : Nat), stack ∈ s.hbm.selfRefresh →
      (SMap.has s.hbm.srHeldAt stack = true ∨ ∃ e ∈ s.hbm.held, e.1 / 32 = stack) → u = s.exitSelfRefresh stack →
      exec (.selfRefreshExitHeld stack) s = .next { u with hbm := { u.hbm with srOut := stack :: u.hbm.srOut.filter (· != stack) } }) ∧
  (∀ (s : State) (stack value : Nat), stack < 6 → exec (.pcHoldWrite stack value) s = .next (s.writeHold stack value))

/-- mcx.status answers a stack's status, frozen, held and retired channels and temperature; mcx.history answers the
records of the first channel of the stack that has any; mcx.rh_config and mcx.scrub_config set the threshold and the
scrub settings of all six stacks; mcx.retire of a stack with its spare unused and no retirement running starts one.
(R385, R386, R391, R398.) -/
def Obligations.HbmCommandsComplete : Prop :=
  (∀ (s : State) (h : CmdHdr) (stack : Nat), s.refuseCmd h attrS = none → stack < 6 →
      exec (.mcxStatus h stack) s = .next (s.finish h (.val [(s.rd .mcxStatus stack).toNat, s.getF F.mcxPcFrozen_frozen stack,
        Nat.land (s.getF F.mcxPcHold_hold stack) (s.getF F.mcxPcFrozen_frozen stack), s.getF F.mcxPcRetired_retired stack,
        (s.rd .mcxTemp stack).toNat]))) ∧
  (∀ (s : State) (h : CmdHdr) (stack g : Nat) (rs : List (List Nat)), s.refuseCmd h attrNone = none → stack < 6 →
      SMap.first? s.hbm.history (fun g _ => g / 32 == stack) = some (g, rs) →
      exec (.mcxHistory h stack) s = .next (s.finish h (.bulkOf [] (rs.flatMap fun r => (List.range 4).map (wordAt r))))) ∧
  (∀ (s : State) (h : CmdHdr) (threshold : Nat), s.refuseCmd h attrNone = none → 256 ≤ threshold → threshold ≤ 65535 →
      exec (.mcxRhConfig h threshold) s = .next (((List.range 6).foldl (fun t i => t.setF F.mcxRhCfg_threshold i threshold) s).finish h .ok)) ∧
  (∀ (s : State) (h : CmdHdr) (patrolEn : Bool) (scrubHours extLimit : Nat), s.refuseCmd h attrNone = none → 1 ≤ scrubHours →
      scrubHours ≤ 255 → 16 ≤ extLimit → extLimit ≤ 200 →
      exec (.mcxScrubConfig h patrolEn scrubHours extLimit) s = .next (((List.range 6).foldl (fun t i =>
        ((t.setB F.mcxCtrl_patrolEn i patrolEn).setF F.mcxCtrl_scrubHours i scrubHours).setF F.mcxCtrl_extLimit i extLimit) s).finish h .ok)) ∧
  (∀ (s : State) (h : CmdHdr) (stack pc : Nat), s.refuseCmd h attrO = none → stack < 6 → pc < 32 →
      SMap.has s.hbm.retires stack = false → s.getB F.mcxStatus_spareUsed stack = false →
      exec (.mcxRetire h stack pc) s = .next ((s.startRetire stack pc).finish h .ok))

/-- Each clause gives, for every state that meets its conditions, the next state whole. WAIT_EVENT_WAKE without a wait
latches its sources for a thread. With a wait of a running thread that does not wait, other than the supervisor, it
also stores the mask, clears the sources it last woke for, and the thread wakes at once where a source of the mask is
latched (wakeThread). The supervisor's wait always takes in becalmed, and first restarts the halted threads of active
cores where it was woken for a thread fault. CHANNEL_END_WRITE by the channel's writer appends the words, the last
marked as an END, while the channel has no stalled words. Behind stalled words the words stall too. By any other
thread it is misuse, thread fault kind 2. CHANNEL_READ_END by the channel's reader gives it the oldest complete
message, frees its words, lets the stalled words go on, and latches the space event for the writer. By any other
thread it is thread fault kind 2. TASK_POST of a free task puts it, with its level, core and budget, at the tail of
the level's ready list, and the scheduler acts. A waiting task goes to the tail of its own level. TASK_SWITCH of a
serving thread leaves the running task as its operand says, takes the next, and the scheduler acts. With no running
task it takes the next. SCHEDULER_TICK counts the delay list down, puts the tasks that reach zero at the tails of
their levels in order, and has the scheduler act and the becalmed watch see one more tick. RUN_BUDGET_EXPIRY of a task
that has run its budget is thread fault kind 3. THREAD_FAULT of a thread that is not halted is that fault. (R409,
R410, R411, R412, R414, R415, R416, R418.) -/
def Obligations.CriodThreadEventsComplete : Prop :=
  (∀ (s : State) (thread sources : Nat), thread < 64 →
      exec (.waitEventWake thread none sources) s = .next (s.latch thread (trunc 14 sources))) ∧
  (∀ (s u : State) (thread sources m : Nat), thread < 64 → u = s.latch thread (trunc 14 sources) →
      (u.thread thread).halted = false → (u.thread thread).wait = none → u.threadStopped thread = false → u.threadOn thread = true →
      u.supervisor ≠ some thread →
      exec (.waitEventWake thread (some m) sources) s = .next ((u.setThread thread { u.thread thread with
        wait := some (trunc 32 m), woke := 0 }).wakeThread thread)) ∧
  (∀ (s u v : State) (thread sources m : Nat), thread < 64 → u = s.latch thread (trunc 14 sources) →
      (u.thread thread).halted = false → (u.thread thread).wait = none → u.threadStopped thread = false → u.threadOn thread = true →
      u.supervisor = some thread →
      v = (if Nat.land (u.thread thread).woke evThreadFault ≠ 0 then
        ((List.range 64).filter fun t => (u.thread t).halted && u.getF F.crdCoreStatus_role (t / 16) == 1).foldl
          (fun w t => w.restartThread t) u else u) →
      exec (.waitEventWake thread (some m) sources) s = .next ((v.setThread thread { v.thread thread with
        wait := some (Nat.lor (trunc 32 m) evBecalmed), woke := 0 }).wakeThread thread)) ∧
  (∀ (s : State) (thread channel : Nat) (words : List Nat) (last : Option Nat) (c : Channel),
      SMap.find? s.crd.channels channel = some c → c.writer = thread → c.stalled = [] →
      exec (.channelEndWrite thread channel words last) s = .next (s.writeChannel channel c
        ((words.map fun w => (trunc 64 w, false)) ++ (last.toList.map fun w => (trunc 64 w, true))))) ∧
  (∀ (s : State) (thread channel : Nat) (words : List Nat) (last : Option Nat) (c : Channel),
      SMap.find? s.crd.channels channel = some c → c.writer = thread → c.stalled ≠ [] →
      exec (.channelEndWrite thread channel words last) s = .next (s.setChannel channel { c with
        stalled := c.stalled ++ ((words.map fun w => (trunc 64 w, false)) ++ (last.toList.map fun w => (trunc 64 w, true))) })) ∧
  (∀ (s : State) (thread channel : Nat) (words : List Nat) (last : Option Nat), thread < 64 →
      (∀ c, SMap.find? s.crd.channels channel = some c → c.writer ≠ thread) →
      exec (.channelEndWrite thread channel words last) s = .next (s.threadFault thread 2 0)) ∧
  (∀ (s : State) (thread channel : Nat) (c : Channel) (m : List Nat) (rest : List (List Nat)),
      SMap.find? s.crd.channels channel = some c → c.reader = thread → c.messages = m :: rest →
      exec (.channelReadEnd thread channel) s = .next ((((s.setThread thread { s.thread thread with message := m }).setChannel channel
        { c with messages := rest, stalled := [] }).writeChannel channel { c with messages := rest, stalled := [] } c.stalled).latch
        c.writer evSpace)) ∧
  (∀ (s : State) (thread channel : Nat), thread < 64 →
      (∀ c, SMap.find? s.crd.channels channel = some c → c.reader ≠ thread) →
      exec (.channelReadEnd thread channel) s = .next (s.threadFault thread 2 0)) ∧
  (∀ (s : State) (task level core budget : Nat), task < 1024 → level < 32 → core < 4 → 1 ≤ budget → budget ≤ 65535 →
      SMap.find? s.crd.tasks task = none →
      exec (.taskPost task level core budget) s = .next ((s.readyTail task ⟨level, core, budget, .ready⟩).schedule)) ∧
  (∀ (s : State) (task level core budget : Nat) (t : Task), task < 1024 → level < 32 → core < 4 → 1 ≤ budget → budget ≤ 65535 →
      SMap.find? s.crd.tasks task = some t → t.phase = .waiting →
      exec (.taskPost task level core budget) s = .next ((s.readyTail task t).schedule)) ∧
  (∀ (s : State) (thread id : Nat) (how : TaskEnd), thread < 64 → (s.thread thread).serves = true →
      (s.thread thread).halted = false → s.threadStopped thread = false → (s.thread thread).running = some id →
      exec (.taskSwitch thread how) s = .next (((s.leaveTask id how).takeNext thread).schedule)) ∧
  (∀ (s : State) (thread : Nat) (how : TaskEnd), thread < 64 → (s.thread thread).serves = true →
      (s.thread thread).halted = false → s.threadStopped thread = false → (s.thread thread).running = none →
      exec (.taskSwitch thread how) s = .next ((s.takeNext thread).schedule)) ∧
  (∀ (s : State), exec .schedulerTick s = .next (((((s.crd.delays.filter fun e => e.2 ≤ 1).map Prod.fst).foldl
        (fun t id => match SMap.find? t.crd.tasks id with
          | some k => t.readyTail id k
          | none => t) ({ s with crd := { s.crd with
        delays := (s.crd.delays.filter fun e => decide (e.2 > 1)).map fun e => (e.1, e.2 - 1) } } : State)).schedule).watchCalm 1)) ∧
  (∀ (s : State) (thread addr id : Nat) (t : Task), (s.thread thread).running = some id → SMap.find? s.crd.tasks id = some t →
      (s.thread thread).halted = false → (s.thread thread).runStart + 1000 * t.budget ≤ s.tm.ticks →
      exec (.runBudgetExpiry thread addr) s = .next (s.threadFault thread 3 addr)) ∧
  (∀ (s : State) (thread kind addr : Nat), thread < 64 → (s.thread thread).halted = false →
      exec (.threadFault thread kind addr) s = .next (s.threadFault thread kind addr))

/-- Each clause gives, for every state that meets its conditions, the next state whole. BECALMED, the condition live
and armed and quiet for 1 ms, disarms it, shows quiet_us, latched and becalmed_seen, counts it, keeps its time, raises
0x1002 and its interrupt, and latches the supervisor's event. BECALMED_ACTION with becalmed_action 1 and the condition
still live restarts the threads of the services on active cores and counts. HOUSEKEEPING takes the housekeeping task
out of its ready list and out of the threads that run it or are to run it next, and delays it by 10 s.
SELFTEST_PASS_END of the backstay core with no test failed counts the pass, loses the core's local SRAM, shows
CRD_HEALTH and raises 0x1006. Of a core under test after a takeover, with no update running, the same and that core
becomes the backstay core. Failed tests are shown in CRD_HEALTH and raised; a failed service checkpoint (test 4) makes
that service's next checkpoint due at once, sets health_fail_seen and counts; a failure among tests 0 to 2 takes the
core offline. KICK_TIMEOUT of an active core with no stopped thread sets kick_miss_seen, counts and fails the core.
CORE_FAILURE fails the core. Of cause 1 it also sets ecc_uncorr_seen. TAKEOVER_COMPLETE while the new core is the
backstay makes it active with a new control generation, fences and tests the failed one, hands over the supervisor
role and the notification classes, shows the takeover's state and duration, ends 0x1003, notes the firmware of an
update that runs, raises 0x1004, has the scheduler act, and answers the command that asked for it where there is one.
SERVICE_CHECKPOINT writes a service's older slot, which becomes the newer one, and ends its forced mark. (R420, R421,
R422, R427, R428, R429, R430, R433, R434.) -/
def Obligations.CriodWatchEventsComplete : Prop :=
  (∀ (s w u : State), w = s.watchCalm 0 → w.getB F.crdBecalmed_live = true → w.crd.armed = true →
      999 ≤ w.getF F.crdBecalmed_quietUs →
      u = (((({ w with crd := { w.crd with armed := false } } : State).setF F.crdBecalmed_quietUs 0 1000).setF F.crdBecalmed_latched
        0 1).setF F.crdEvent_becalmedSeen 0 1).count C.crdBecalmed →
      exec .becalmed s = .next (((((u.setF F.crdBecalmedTime_value 0 u.tm.ns).setF F.crdBecalmedTime_value 1
        (trunc 32 u.tm.sec)).raise 0x1002 0).raiseIrq irqBecalmed).latchSupervisor evBecalmed)) ∧
  (∀ (s w : State), w = s.watchCalm 0 → w.getB F.crdBecalmed_live = true → w.getF F.crdCtrl_becalmedAction = 1 →
      exec .becalmedAction s = .next ((((w.crd.services.map Prod.snd).filter fun t =>
        w.getF F.crdCoreStatus_role (t / 16) == 1).eraseDups.foldl (fun u t => u.restartThread t) w).count C.crdBecalmedRestarts)) ∧
  (∀ (s : State) (id : Nat) (t : Task), s.crd.housekeeping = some id → SMap.find? s.crd.tasks id = some t →
      exec .housekeeping s = .next ((((List.range 64).foldl (fun u i => if (u.thread i).running == some id then u.takeNext i
        else if (u.thread i).next == some id then u.setThread i { u.thread i with next := none } else u)
        (s.setReady t.level ((s.readyList t.level).filter (· != id)))).delayTask id 10000).schedule)) ∧
  (∀ (s : State) (core age service n : Nat), core < 4 → core ∉ s.crd.testing → s.getF F.crdCoreStatus_role core = 2 →
      s.crd.takeover = none → n = (s.crd.passes + 1) % 65536 →
      exec (.selftestPassEnd core 0 age service) s = .next (((((({ s with crd := { s.crd with
        passes := n, sram := SMap.keep (fun k _ => k / 32768 != core) s.crd.sram } } : State).setF F.crdHealth_value 0
          (n <<< 16)).setF F.crdHealth_value 1 (trunc 16 age <<< 16 + trunc 8 service <<< 8)).setF
          F.crdHealth_value 2 (trunc 32 s.tm.sec)).count C.crdSelftestPasses).raise 0x1006 core n 0)) ∧
  (∀ (s u : State) (core age service n : Nat), core < 4 → core ∈ s.crd.testing → s.crd.takeover = none → s.boot.update = none →
      n = (s.crd.passes + 1) % 65536 →
      u = (((((({ s with crd := { s.crd with
        passes := n, sram := SMap.keep (fun k _ => k / 32768 != core) s.crd.sram } } : State).setF F.crdHealth_value 0
          (n <<< 16)).setF F.crdHealth_value 1 (trunc 16 age <<< 16 + trunc 8 service <<< 8)).setF
          F.crdHealth_value 2 (trunc 32 s.tm.sec)).count C.crdSelftestPasses).raise 0x1006 core n 0) →
      exec (.selftestPassEnd core 0 age service) s = .next (u.becomeBackstay core)) ∧
  (∀ (s u v : State) (core failed age service n : Nat), core < 4 → core ∉ s.crd.testing → s.getF F.crdCoreStatus_role core = 2 →
      s.crd.takeover = none → n = (s.crd.passes + 1) % 65536 →
      u = (((((({ s with crd := { s.crd with
        passes := n, sram := SMap.keep (fun k _ => k / 32768 != core) s.crd.sram } } : State).setF F.crdHealth_value 0
          (n <<< 16 + trunc 6 failed)).setF F.crdHealth_value 1 (trunc 16 age <<< 16 + trunc 8 service <<< 8)).setF
          F.crdHealth_value 2 (trunc 32 s.tm.sec)).count C.crdSelftestPasses).raise 0x1006 core n (trunc 6 failed)) →
      v = (if bitOf failed 4 = true then (({ u with crd := { u.crd with
          forced := u.crd.forced.filter (· != service) ++ [service] } } : State).setF F.crdEvent_healthFailSeen 0 1).count
          C.crdHealthFails else u) →
      exec (.selftestPassEnd core failed age service) s = .next (if trunc 3 failed ≠ 0 then v.goOffline core else v)) ∧
  (∀ (s : State) (core : Nat), core < 4 → s.getF F.crdCoreStatus_role core = 1 → s.getF F.crdCoreStatus_stopped core = 0 →
      exec (.kickTimeout core) s = .next (((s.setF F.crdEvent_kickMissSeen 0 1).count C.crdKickMisses).coreFail core false none)) ∧
  (∀ (s : State) (core cause : Nat), core < 4 → cause ≠ 1 → exec (.coreFailure core cause) s = .next (s.coreFail core false none)) ∧
  (∀ (s : State) (core : Nat), core < 4 →
      exec (.coreFailure core 1) s = .next ((s.setF F.crdEvent_eccUncorrSeen 0 1).coreFail core false none)) ∧
  (∀ (s a b c d e f : State) (t : Takeover), s.crd.takeover = some t → s.getF F.crdCoreStatus_role t.core = 2 →
      a = ((({ s with crd := { s.crd with takeover := none, testing := s.crd.testing ++ [t.failed] } } : State).setF
        F.crdCoreStatus_role t.core 1).setF F.crdCoreStatus_greedy t.core 0) →
      b = (a.setF F.crdCoreStatus_ctrlGen t.core ((a.getF F.crdCoreStatus_ctrlGen t.core + 1) % 256)) →
      c = b.setFence t.failed ((b.getF F.crdCoreStatus_ctrlGen t.failed + 1) % 256) →
      d = (if c.getB F.crdCoreStatus_supervisor t.failed = true then
        (c.setF F.crdCoreStatus_supervisor t.failed 0).setF F.crdCoreStatus_supervisor t.core 1 else c) →
      e = ((((d.takeClasses t.failed t.core).setF F.crdTakeover_state 0 3).setF F.crdTakeover_durationUs 0
        ((((d.takeClasses t.failed t.core).setF F.crdTakeover_state 0 3).tm.ticks - t.start) / 1000)).endCondition 0x1003 t.failed) →
      f = ((match e.boot.update with
        | some u => ({ e with boot := { e.boot with coreFw := SMap.set e.boot.coreFw t.failed u.version } } : State)
        | none => e).raise 0x1004 t.failed).schedule →
      exec .takeoverComplete s = .next (match t.cmd with
        | some (mbx, cid, noIrq) => f.answer mbx cid noIrq .ok
        | none => f)) ∧
  (∀ (s : State) (service : Nat) (content : List Nat), SMap.has s.crd.services service = true →
      exec (.serviceCheckpoint service content) s = .next { s with crd := { s.crd with
        checkpoints := SMap.set s.crd.checkpoints service (if (SMap.getD s.crd.checkpoints service ⟨none, none, true⟩).newer1 = true then
            { SMap.getD s.crd.checkpoints service ⟨none, none, true⟩ with slot0 := some (content, s.now), newer1 := false }
          else { SMap.getD s.crd.checkpoints service ⟨none, none, true⟩ with slot1 := some (content, s.now), newer1 := true }),
        forced := s.crd.forced.filter (· != service) } })

/-- crd.status and crd.health answer the registers and lists they name; crd.config sets the action and the periods;
crd.takeover of a running core with a backstay and no takeover running fails the core over and begins the command. On
the debug mailbox, unlocked, dbg.stop stops a thread, dbg.resume and dbg.step act on a stopped one, dbg.hold sets its
hold, the read and write commands read and write registers or SRAM, and a partial message of a stopped writer is
aborted. (R424, R425, R426, R428, R435, R436.) -/
def Obligations.CriodCommandsComplete : Prop :=
  (∀ (s : State) (h : CmdHdr), s.refuseCmd h attrNone = none →
      exec (.crdStatus h) s = .next (s.finish h (.bulkOf []
        ((([(.crdCtrl, 1), (.crdCoreStatus, 4), (.crdThreadState, 4), (.crdThreadClass, 4), (.crdSchedStatus, 1), (.crdBecalmed, 1),
            (.crdBecalmedTime, 2), (.crdTakeover, 1), (.crdFence, 1), (.crdHealth, 3), (.crdThreadFault, 2),
            (.crdEvent, 1)] : List (Reg × Nat)).flatMap fun r => (List.range r.2).map fun i => (s.rd r.1 i).toNat)
          ++ ((List.range 4).flatMap fun c => (List.range 32).map fun i =>
            ((SMap.getD s.crd.slots c []).getD i none).getD 0xFFFFFFFF)
          ++ List.flatMap (fun (e : Nat × Nat) => [e.1, e.2]) s.crd.services)))) ∧
  (∀ (s : State) (h : CmdHdr) (core : Nat), s.refuseCmd h attrO = none → core < 4 → s.getF F.crdCoreStatus_role core = 1 →
      s.backstay.isSome = true → s.crd.takeover = none →
      exec (.crdTakeover h core) s = .next ((s.coreFail core true (some (h.mbx, h.cid, h.noIrq))).beginCmd h)) ∧
  (∀ (s : State) (h : CmdHdr) (becalmedAction kickPeriod ckptPeriod : Nat), s.refuseCmd h attrNone = none →
      becalmedAction ≤ 1 → 10 ≤ kickPeriod → kickPeriod ≤ 255 → ckptPeriod ≤ 255 →
      exec (.crdConfig h becalmedAction kickPeriod ckptPeriod) s = .next ((((s.setF F.crdCtrl_becalmedAction 0 becalmedAction).setF
        F.crdCtrl_kickPeriod 0 kickPeriod).setF F.crdCtrl_ckptPeriod 0 ckptPeriod).finish h .ok)) ∧
  (∀ (s : State) (h : CmdHdr), s.refuseCmd h attrS = none → exec (.crdHealth h) s = .next (s.finish h
        (.val [s.getF F.crdHealth_value 0, s.getF F.crdHealth_value 1, s.getF F.crdHealth_value 2]))) ∧
  (∀ (s : State) (h : CmdHdr) (core thread : Nat), s.refuseCmd h attrD = none → core < 4 → thread < 16 →
      exec (.dbgStop h core thread) s = .next ((((((((s.dropNext (16 * core + thread)).setBit F.crdCoreStatus_stopped core thread
        true).syncThread (16 * core + thread)).syncHold (16 * core + thread)).breakCalm.setF F.crdEvent_debugStopSeen 0 1).schedule)).finish h .ok)) ∧
  (∀ (s : State) (h : CmdHdr) (core thread : Nat), s.refuseCmd h attrD = none → core < 4 → thread < 16 →
      s.threadStopped (16 * core + thread) = true →
      exec (.dbgResume h core thread) s = .next ((((((s.setBit F.crdCoreStatus_stopped core thread false).syncThread
        (16 * core + thread)).syncHold (16 * core + thread)).wakeThread (16 * core + thread)).schedule).finish h .ok)) ∧
  (∀ (s : State) (h : CmdHdr) (core thread : Nat) (writes : List (Nat × Nat)), s.refuseCmd h attrD = none → core < 4 → thread < 16 →
      s.threadStopped (16 * core + thread) = true →
      exec (.dbgStep h core thread writes) s = .next ((writes.foldl (fun u w => u.setThreadReg (16 * core + thread) w.1 w.2) s).finish h .ok)) ∧
  (∀ (s : State) (h : CmdHdr) (core thread : Nat) (on : Bool), s.refuseCmd h attrD = none → core < 4 → thread < 16 →
      exec (.dbgHold h core thread on) s = .next (((s.setThread (16 * core + thread) { s.thread (16 * core + thread) with
        hold := on }).syncHold (16 * core + thread)).finish h .ok)) ∧
  (∀ (s : State) (h : CmdHdr) (core thread first count : Nat), s.refuseCmd h attrD = none → core < 4 → thread < 16 →
      debugRange true first count = true → s.threadStopped (16 * core + thread) = true →
      exec (.dbgThreadRead h core thread true first count) s = .next (s.finish h (.bulkOf []
        (((List.range count).map fun i => SMap.getD s.crd.sram (32768 * core + first + i) 0).flatMap fun v => [trunc 32 v, v / 2 ^ 32])))) ∧
  (∀ (s : State) (h : CmdHdr) (core thread first : Nat) (values : List Nat), s.refuseCmd h attrD = none → core < 4 → thread < 16 →
      debugRange true first values.length = true → s.threadStopped (16 * core + thread) = true →
      exec (.dbgThreadWrite h core thread true first values) s = .next ((((List.range values.length).map fun i =>
        (first + i, wordAt values i)).foldl (fun u w => u.setSram core w.1 w.2) s).finish h .ok)) ∧
  (∀ (s : State) (h : CmdHdr) (channel : Nat) (c : Channel), s.refuseCmd h attrD = none → channel < 320 →
      SMap.find? s.crd.channels channel = some c →
      exec (.dbgChannelRead h channel) s = .next (s.finish h (.bulkOf [] (c.messages.length :: (c.messages.flatMap (fun m =>
        m.length :: m.flatMap fun v => [trunc 32 v, v / 2 ^ 32]) ++ (c.part.length :: c.part.flatMap fun v => [trunc 32 v, v / 2 ^ 32])))))) ∧
  (∀ (s : State) (h : CmdHdr) (channel : Nat) (c : Channel), s.refuseCmd h attrD = none → channel < 320 →
      SMap.find? s.crd.channels channel = some c → c.part ≠ [] → s.threadStopped c.writer = true →
      exec (.dbgChannelAbort h channel) s = .next ((((s.setChannel channel { c with part := [], stalled := [] }).writeChannel channel
        { c with part := [], stalled := [] } c.stalled).latch c.writer evSpace).finish h .ok))

/-- Doorbells act on their queue; a mailbox of 0 to 8 is enabled with its entry or disabled; a fetch, with DMA on, not
stopped and fewer than 64 commands in flight, takes the next entry of the next mailbox in turn that may fetch and
moves its head on; a completion that finds room is posted, the full bit cleared and the entry taken out of flight; one
that finds none sets it. mbx.nop answers OK and changes nothing else. (R449, R450, R451, R454, R471.) -/
def Obligations.MailboxEventsComplete : Prop :=
  (∀ (s : State) (mbx tail : Nat), exec (.mbxSqDoorbell mbx tail) s = .next (s.sqDoorbell mbx tail)) ∧
  (∀ (s : State) (mbx head : Nat) (arm : Bool), exec (.mbxCqDoorbell mbx arm head) s = .next (s.cqDoorbell mbx arm head)) ∧
  (∀ (s : State) (mbx : Nat) (entry : List Nat), mbx ≤ 8 → exec (.mbxEnable mbx entry) s = .next (s.enableMailbox mbx entry)) ∧
  (∀ (s : State) (mbx : Nat), mbx ≤ 8 → exec (.mbxDisable mbx) s = .next (s.disableMailbox mbx)) ∧
  (∀ (s : State) (words : List Nat) (m : Nat), s.dmaOn = true → s.flt.fetchStopped = false → s.host.inflight.length < 64 →
      (((List.range 9).map fun i => (s.host.nextMbx + i) % 9).find? s.mayFetch) = some m → m ≠ 8 → headerOk words = true →
      exec (.commandFetch words) s = .next ((({ s with host := { s.host with
        inflight := s.host.inflight ++ [⟨m, wordAt words 15 % 2 ^ 16, bitsOf (wordAt words 15) 31 16, bitOf (wordAt words 14) 31,
          bitOf (wordAt words 14) 30, (s.getF F.mbxQstate_sqHead m + 1) % (s.mailbox m).sqSize, false, none, false⟩],
        nextMbx := (m + 1) % 9 } } : State).setF F.mbxQstate_sqHead m ((s.getF F.mbxQstate_sqHead m + 1) % (s.mailbox m).sqSize)).syncInflight)) ∧
  (∀ (s : State) (mbx : Nat) (e : Inflight) (r : Rsp), s.host.inflight.find? (fun e => e.mbx == mbx) = some e → e.rsp = some r →
      (8 ≤ mbx ∨ s.dmaOn = true) → (s.getF F.mbxQstate_cqTail mbx + 1) % (s.mailbox mbx).cqSize ≠ (s.mailbox mbx).cqHead →
      ∀ t : State, t = (s.postEntry e r).setBit F.mbxStatus_cqFull 0 mbx false →
      exec (.completionPost mbx) s = .next ((({ t with host := { t.host with
          inflight := t.host.inflight.erase e } } : State).syncInflight).closeMailbox mbx)) ∧
  (∀ (s : State) (mbx : Nat) (e : Inflight) (r : Rsp), s.host.inflight.find? (fun e => e.mbx == mbx) = some e → e.rsp = some r →
      (8 ≤ mbx ∨ s.dmaOn = true) → (s.getF F.mbxQstate_cqTail mbx + 1) % (s.mailbox mbx).cqSize = (s.mailbox mbx).cqHead →
      exec (.completionPost mbx) s = .next ((s.setBit F.mbxStatus_cqFull 0 mbx true).mbxEvent F.mbxEvent_cqStallSeen)) ∧
  (∀ (s : State) (h : CmdHdr), s.refuseCmd h attrS = none → exec (.mbxNop h) s = .next (s.finish h .ok))

/-- ring.config with its parameters in range enables a ring that is off with empty indexes, and disables one at once;
ring.bind sends a notification class to a destination; ring.status answers the indexes, the arming and two counters. A
doorbell acts on its ring; the oldest notification waiting is written to the ring bound to its class or given to
firmware; the coalescing timer raises the ring's vector. (R458, R461, R462, R465, R471.) -/
def Obligations.RingCommandsComplete : Prop :=
  (∀ (s : State) (ring index : Nat) (arm : Bool), exec (.ringDoorbell ring arm index) s = .next (s.ringDoorbell ring arm index)) ∧
  (∀ (s : State) (h : CmdHdr) (ring rtype base n slotSize vector count us : Nat), s.refuseCmd h attrO = none → ring < 64 →
      rtype < 3 → base % 4096 = 0 → base < 2 ^ 64 → 6 ≤ n → n ≤ 16 →
      (if rtype = 1 then slotSize = 1024 ∨ slotSize = 2048 else slotSize = 32) → 16 ≤ vector → vector < 256 → 1 ≤ count →
      count ≤ 65535 → us ≤ 65535 → (s.ring ring).enabled = false →
      exec (.ringConfig h ring rtype base n slotSize vector count us true) s = .next
        (((s.setRing ring ⟨rtype, base, n, slotSize, vector, count, us, true, 0, 0, true, true, []⟩).syncRings).finish h .ok)) ∧
  (∀ (s : State) (h : CmdHdr) (ring rtype base n slotSize vector count us : Nat), s.refuseCmd h attrO = none → ring < 64 →
      exec (.ringConfig h ring rtype base n slotSize vector count us false) s = .next
        (((s.setRing ring { s.ring ring with enabled := false }).syncRings).finish h .ok)) ∧
  (∀ (s : State) (h : CmdHdr) (cls ring : Nat), s.refuseCmd h attrO = none → 2 ≤ cls → cls ≤ 4 → ring < 64 →
      exec (.ringBind h cls (.ring ring)) s = .next (({ s with host := { s.host with
        bindings := SMap.set s.host.bindings cls (.ring ring) } } : State).finish h .ok)) ∧
  (∀ (s : State) (h : CmdHdr) (cls : Nat) (dest : NotifTo), s.refuseCmd h attrO = none → 2 ≤ cls → cls ≤ 4 →
      (∀ r, dest ≠ .ring r) →
      exec (.ringBind h cls dest) s = .next (({ s with host := { s.host with
        bindings := SMap.set s.host.bindings cls dest } } : State).finish h .ok)) ∧
  (∀ (s : State) (h : CmdHdr) (ring : Nat), s.refuseCmd h attrNone = none → ring < 64 →
      exec (.ringStatus h ring) s = .next (s.finish h (.val [(s.ring ring).producer, (s.ring ring).consumer, b2n (s.ring ring).armed,
        (s.ctr (C.ringRecords ring)).value % 2 ^ 32, (s.ctr (C.ringRecords ring)).value / 2 ^ 32,
        (s.ctr (C.ringDrops ring)).value % 2 ^ 32, (s.ctr (C.ringDrops ring)).value / 2 ^ 32]))) ∧
  (∀ (s : State) (n : NotifRec) (rest : List NotifRec) (ring : Nat), s.host.notifQ = n :: rest →
      ({ s with host := { s.host with notifQ := rest } } : State).notifDest n = .ring ring →
      exec .notificationWrite s = .next (({ s with host := { s.host with notifQ := rest } } : State).notifyRing ring n)) ∧
  (∀ (s : State) (n : NotifRec) (rest : List NotifRec), s.host.notifQ = n :: rest →
      ({ s with host := { s.host with notifQ := rest } } : State).notifDest n = .firmware →
      exec .notificationWrite s = .next { s with host := { s.host with notifQ := rest, fwInbox := s.host.fwInbox ++ [n] } }) ∧
  (∀ (s : State) (ring : Nat), exec (.ringCoalesceTimer ring) s = .next (s.ringVector ring))

/-- Each clause gives, for every state that meets its conditions, the next state whole. FLR resets the host interface,
keeps the link's speed, width and state, and sets flr_active and flr_seen. FLR_COMPLETE clears flr_active. PERST
without a link (speed 0) resets the host interface. With a link it also shows the speed, at most 5, the width and
link_up. D3HOT_ENTRY sets d3hot. D3HOT_EXIT clears it and DMA resumes. DMA_READ_ERROR of kind 0, 1 or 2 sets
cpl_timeout_seen, ur_seen or poison_seen and captures it; of a command's data (target 0) it answers E_FAULT where the
command has not been answered. Of a submission-queue entry (target 1) it stops the mailbox, which is no longer ready,
and sets and captures fetch_error_seen. Of a descriptor or frame of a TX ring in use it writes the descriptor back
with an error and moves the consumer index on. DMA_STOP_WRITE writes the DMA stop by writeDmaStop. (R439, R441, R442,
R443, R457, R474.) -/
def Obligations.PcieEventsComplete : Prop :=
  (∀ (s : State), exec .flr s = .next (((((s.resetHost.setF F.pciStatus_speed 0 (s.getF F.pciStatus_speed)).setF F.pciStatus_width 0
        (s.getF F.pciStatus_width)).setF F.pciStatus_linkUp 0 (s.getF F.pciStatus_linkUp)).setF F.pciStatus_flrActive 0 1).setF
        F.pciEvent_flrSeen 0 1)) ∧
  (∀ (s : State), exec .flrComplete s = .next (s.setF F.pciStatus_flrActive 0 0)) ∧
  (∀ (s : State) (width : Nat), exec (.perst 0 width) s = .next s.resetHost) ∧
  (∀ (s : State) (speed width : Nat), 1 ≤ speed → exec (.perst speed width) s = .next
        (((s.resetHost.setF F.pciStatus_speed 0 (Nat.min 5 speed)).setF F.pciStatus_width 0 width).setF F.pciStatus_linkUp 0 1)) ∧
  (∀ (s : State), exec .d3hotEntry s = .next (s.setF F.pciStatus_d3hot 0 1)) ∧
  (∀ (s : State), exec .d3hotExit s = .next ((s.setF F.pciStatus_d3hot 0 0).resumeDma)) ∧
  (∀ (s u : State) (kind unit cid addr : Nat), kind ≤ 2 →
      u = (s.pciEvent (if kind = 0 then F.pciEvent_cplTimeoutSeen else if kind = 1 then F.pciEvent_urSeen else
        F.pciEvent_poisonSeen)).pciCapture (4 - kind) 0 unit addr →
      exec (.dmaReadError kind 0 unit cid addr) s = .next
        (if (u.host.inflight.any fun e => e.mbx == unit && e.cid == cid && e.rsp.isNone) = true then
          u.answer unit cid false (.err eFault) else u)) ∧
  (∀ (s u : State) (kind unit cid addr : Nat), kind ≤ 2 → unit < 8 →
      u = (((s.pciEvent (if kind = 0 then F.pciEvent_cplTimeoutSeen else if kind = 1 then F.pciEvent_urSeen else
        F.pciEvent_poisonSeen)).pciCapture (4 - kind) 1 unit addr).setBit F.mbxStatus_stopped 0 unit true).setMbxReady unit false →
      exec (.dmaReadError kind 1 unit cid addr) s = .next ((u.mbxEvent F.mbxEvent_fetchErrorSeen).mbxCapture 4 unit
        (u.getF F.mbxQstate_sqHead unit))) ∧
  (∀ (s u : State) (kind target unit cid addr : Nat), kind ≤ 2 → 2 ≤ target →
      u = (s.pciEvent (if kind = 0 then F.pciEvent_cplTimeoutSeen else if kind = 1 then F.pciEvent_urSeen else
        F.pciEvent_poisonSeen)).pciCapture (4 - kind) target unit addr →
      (u.ring unit).enabled = true → (u.ring unit).rtype = 2 → (u.ring unit).consumer ≠ (u.ring unit).producer →
      exec (.dmaReadError kind target unit cid addr) s = .next ((u.setRing unit { u.ring unit with
        consumer := ((u.ring unit).consumer + 1) % (u.ring unit).size }).writeBack460 unit (u.ring unit).consumer 2 0 0 0)) ∧
  (∀ (s : State) (stop : Bool), exec (.dmaStopWrite stop) s = .next (s.writeDmaStop stop))

/-- Each clause gives, for every state that meets its conditions, the next state whole. SMBUS_BLOCK_WRITE with a good
check byte, the mailbox enabled and not busy, makes it busy with neither completion nor bad check; a bad header is
answered at once with E_INVAL. With a bad check byte it sets the bad-PEC bit and smb_pec_seen. SMBUS_STATUS_READ
answers busy, ready and bad-PEC in bits 0 to 2. SMBUS_COMPLETION_READ answers the completion's 32 bytes and clears
ready. SMBUS_RESULT_READ answers the result page. SMBUS_IRQ_CLEAR of bits 0 to 31 clears that interrupt bit. (R456,
R466, R467.) -/
def Obligations.SmbusEventsComplete : Prop :=
  (∀ (s : State) (words : List Nat), s.getB F.mbxCtrl_smbEn = true → s.host.smbus.busy = false →
      exec (.smbusBlockWrite words true) s = .next (if headerOk words = true then
          s.setSmbus { s.host.smbus with busy := true, ready := false, badPec := false }
        else (s.setSmbus { s.host.smbus with busy := true, ready := false, badPec := false }).answer 9
          (wordAt words 15 % 2 ^ 16) true ⟨eInval, headerFault, [], []⟩)) ∧
  (∀ (s : State) (words : List Nat), s.getB F.mbxCtrl_smbEn = true → s.host.smbus.busy = false →
      exec (.smbusBlockWrite words false) s = .next ((s.setSmbus { s.host.smbus with badPec := true }).mbxEvent F.mbxEvent_smbPecSeen)) ∧
  (∀ (s : State), exec .smbusStatusRead s = .next (s.emit (.smbus 0x11
        [b2n s.host.smbus.busy + 2 * b2n s.host.smbus.ready + 4 * b2n s.host.smbus.badPec]))) ∧
  (∀ (s : State), exec .smbusCompletionRead s = .next ((s.emit (.smbus 0x12 ((List.range 8).flatMap fun i =>
        bytesLE 4 (wordAt s.host.smbus.completion i)))).setSmbus { s.host.smbus with ready := false })) ∧
  (∀ (s : State), exec .smbusResultRead s = .next (s.emit (.smbus 0x13 (s.host.smbus.page.flatMap fun w => bytesLE 4 w)))) ∧
  (∀ (s : State) (bit : Nat), bit < 32 → exec (.smbusIrqClear bit) s = .next (s.clearIrq (2 ^ bit)))

/-- Each clause gives, for every state that meets its conditions, the next state whole. REGISTER_WRITE of a whole word
of a register that the sender can reach writes it by writeReg. Of a word of the debug mailbox memory it stores the
word. Of a word of the MSI-X table it stores the word. A partial write of a mapped word outside the MSI-X table
changes nothing but partial_write_seen and the error's record. A write of an unmapped address changes nothing but
unmapped_seen and the error's record. REGISTER_READ_CLEAR of a register that the reader can reach, other than the high
word of CNT_WIN_DATA, does what precedes its read, answers its word and clears its RC fields. Of a word of the debug
mailbox memory it answers the word. Of BAR 4 it answers the MSI-X table's word, and 0 past the table. Of an unmapped
address it answers 0 and records the error. WARM_RESET_WRITE writes the reset register by writeReset. CNT_WINDOW_READ
of the high word answers it and moves the window on. Of the low word it takes the counter into both words and answers
the low one. CNT_LIVE_SAMPLE of the high word answers it. Of the low word it samples the counter into both words and
answers the low one. CNT_SNAP_REQ_WRITE writes the snapshot request by requestSnap. LOG_RESTART_WRITE restarts the log
by restartLog. (R444, R445, R446, R500, R520, R523, R524, R569.) -/
def Obligations.RegisterAccessCompletes : Prop :=
  (∀ (s : State) (bar addr data i : Nat) (r : Reg) (jtag : Bool), s.accessible jtag = true → bar ≠ 4 →
      debugWord bar (addr / 4 * 4) = none → regAt bar (addr / 4 * 4) = some (r, i) →
      exec (.registerWrite bar addr data true jtag) s = .next (s.writeReg r i (addr / 4 * 4) (BitVec.ofNat 32 data))) ∧
  (∀ (s : State) (bar addr data n : Nat) (jtag : Bool), s.accessible jtag = true → bar ≠ 4 →
      debugWord bar (addr / 4 * 4) = some n →
      exec (.registerWrite bar addr data true jtag) s = .next { s with host := { s.host with
        dbgMem := SMap.put 0 s.host.dbgMem n (BitVec.ofNat 32 data).toNat } }) ∧
  (∀ (s : State) (addr data : Nat) (jtag : Bool), s.accessible jtag = true → addr / 4 * 4 < 0x1000 →
      exec (.registerWrite 4 addr data true jtag) s = .next { s with host := { s.host with
        msixTable := SMap.put 0 s.host.msixTable (addr / 4) (BitVec.ofNat 32 data).toNat } }) ∧
  (∀ (s : State) (bar addr data : Nat) (jtag : Bool), s.accessible jtag = true → bar ≠ 4 →
      (debugWord bar (addr / 4 * 4) ≠ none ∨ regAt bar (addr / 4 * 4) ≠ none) →
      exec (.registerWrite bar addr data false jtag) s = .next (s.accessError F.pciEvent_partialWriteSeen (addr / 4 * 4))) ∧
  (∀ (s : State) (bar addr data : Nat) (full jtag : Bool), s.accessible jtag = true → bar ≠ 4 →
      debugWord bar (addr / 4 * 4) = none → regAt bar (addr / 4 * 4) = none →
      exec (.registerWrite bar addr data full jtag) s = .next (s.accessError F.pciEvent_unmappedSeen (addr / 4 * 4))) ∧
  (∀ (s : State) (bar addr i : Nat) (r : Reg) (jtag : Bool), s.accessible jtag = true → bar ≠ 4 →
      debugWord bar (addr / 4 * 4) = none → regAt bar (addr / 4 * 4) = some (r, i) → ¬ (r = .cntWinData ∧ i = 1) →
      exec (.registerReadClear bar addr jtag) s = .next (((s.beforeRead r i).emit (.regRead bar (addr / 4 * 4)
        ((s.beforeRead r i).rd r i).toNat)).clearRc r i)) ∧
  (∀ (s : State) (bar addr n : Nat) (jtag : Bool), s.accessible jtag = true → bar ≠ 4 →
      debugWord bar (addr / 4 * 4) = some n →
      exec (.registerReadClear bar addr jtag) s = .next (s.emit (.regRead bar (addr / 4 * 4) (SMap.getD s.host.dbgMem n 0)))) ∧
  (∀ (s : State) (addr : Nat) (jtag : Bool), s.accessible jtag = true →
      exec (.registerReadClear 4 addr jtag) s = .next (s.emit (.regRead 4 (addr / 4 * 4)
        (if addr / 4 * 4 < 0x1000 then SMap.getD s.host.msixTable (addr / 4 * 4 / 4) 0 else 0)))) ∧
  (∀ (s : State) (bar addr : Nat) (jtag : Bool), s.accessible jtag = true → bar ≠ 4 → debugWord bar (addr / 4 * 4) = none →
      regAt bar (addr / 4 * 4) = none →
      exec (.registerReadClear bar addr jtag) s = .next ((s.emit (.regRead bar (addr / 4 * 4) 0)).accessError F.pciEvent_unmappedSeen
        (addr / 4 * 4))) ∧
  (∀ (s : State) (key : Nat) (warm : Bool), exec (.warmResetWrite key warm) s = .next (s.writeReset key warm)) ∧
  (∀ (s : State), exec (.cntWindowRead true) s = .next ((s.readReg .cntWinData 1).windowNext)) ∧
  (∀ (s : State), exec (.cntWindowRead false) s = .next (s.windowRead.readReg .cntWinData 0)) ∧
  (∀ (s : State), exec (.cntLiveSample true) s = .next (s.readReg .cntLiveData 1)) ∧
  (∀ (s : State), exec (.cntLiveSample false) s = .next (s.liveRead.readReg .cntLiveData 0)) ∧
  (∀ (s : State) (go : Bool) (bank groups : Nat), exec (.cntSnapReqWrite go bank groups) s = .next (s.requestSnap go bank groups)) ∧
  (∀ (s : State), exec .logRestartWrite s = .next s.restartLog)

/-- Each clause gives, for every state that meets its conditions, the next state whole. FAULT_REPORT reports the fault
with its address, master and access to the collector, after what an error of shared SRAM brings about there
(sramError). CAPTURE_WINDOW_CLOSE fills the capture registers with the fault of those at or above capture_min within 1
ns of the earliest stamp that comes first, counts and marks the others of them, empties the window, and sends the held
notifications of faults and losses in the order of their stamps. CONDITION_END ends the condition of that code and
instance by endCondition. REEF_EXIT after 10 s of quiet outside bare poles ends the two reductions of reef mode,
clears both reef bits, counts the recovery, closes the loss interval, logs the state, forgets the episode, and sets
the status registers and pins anew. BARE_POLES_EXIT after 60 s of quiet, with fewer than three exits in the last 3,600
s and the state not latched, ends the state. With three it latches the state, raises 0x0303 and logs it.
COLLECTOR_PARITY raises 0x0301, gives the capture registers their reset words, uses up the numbers of the
notifications held, empties the record table and the window, sets collector_parity, and sets the status registers and
pins anew. HEARTBEAT_CHECK with the heartbeat seen notes its time and ends 0x0302. Without it for 1 ms, with no S4
condition live, it raises 0x0302. (R28, R481, R483, R485, R487, R488, R492, R493, R495.) -/
def Obligations.FaultEventsComplete : Prop :=
  (∀ (s : State) (code inst arg0 arg1 addr master masterIndex access : Nat),
      exec (.faultReport code inst arg0 arg1 addr master masterIndex access) s = .next ((s.sramError code addr).report
        { (s.sramError code addr).faultArg code inst arg0 arg1 with
          addr := addr, master := master, masterIndex := masterIndex, access := access })) ∧
  (∀ (s a b : State) (start : Nat) (tied : List HeldFault), s.flt.window = some start →
      tied = (s.flt.windowFaults.filter (·.loss.isEmpty)).filter (fun h => decide (s.getF F.fltCtrl_captureMin ≤ h.severity) &&
        decide (h.stamp ≤ start + 1)) →
      a = (match captured tied with
        | none => ({ s with flt := { s.flt with window := none, windowFaults := [] } } : State)
        | some h => (({ s with flt := { s.flt with window := none, windowFaults := [] } } : State).fillCapture h
          (decide (1 < tied.length))).addF F.fltSimul_others 0 (tied.length - 1)) →
      b = (if 1 < tied.length then tied.foldl (fun t h => t.markTied h) a else a) →
      exec .captureWindowClose s = .next ((s.flt.windowFaults.foldl (fun l h => insertStamp h l) []).foldl (fun t h =>
        if h.notify = false then t
        else if h.loss ≠ [] then t.notifyAt 5 4 0 false h.loss h.unlocked h.fault.sec h.fault.ns
        else t.sendFaultNotif h.fault h.severity (decide (1 < tied.length) && tied.contains h)
          ((faultRow h.fault.code).any (·.condition)) h.unlocked) b)) ∧
  (∀ (s : State) (code inst : Nat), exec (.conditionEnd code inst) s = .next (s.endCondition code inst)) ∧
  (∀ (s a b : State), s.getB F.fltStatus_reef = true → s.getB F.fltStatus_barePoles = false → s.quietFor 10000000000 = true →
      a = ((((s.setReduction redSramPoison false).setReduction redIntegrity false).setF F.fltStatus_reef 0 0).setF
        F.sysStatus_reef 0 0).count (C.fltRecoveryReef s.episode) →
      b = (a.closeLoss false).logState 1 →
      exec .reefExit s = .next (({ b with flt := { b.flt with quietStart := none, episodeClass := none } } : State).syncFlt.updatePins)) ∧
  (∀ (s : State), s.getB F.fltStatus_barePoles = true → s.getB F.fltStatus_latched = false → s.quietFor 60000000000 = true →
      (s.flt.bareExits.filter fun t => decide (t + 3600000000000 > s.now)).length < 3 → exec .barePolesExit s = .next s.endBarePoles) ∧
  (∀ (s : State), s.getB F.fltStatus_barePoles = true → s.getB F.fltStatus_latched = false → s.quietFor 60000000000 = true →
      3 ≤ (s.flt.bareExits.filter fun t => decide (t + 3600000000000 > s.now)).length →
      exec .barePolesExit s = .next ((((s.setF F.fltStatus_latched 0 1).setF F.fltReduction_bareLatched 0 1).raise 0x0303 0).logState 4)) ∧
  (∀ (s a b : State), a = ([(.fltFirstCode, 1), (.fltFirstSource, 1), (.fltFirstAddr, 2), (.fltFirstTime, 3), (.fltFirstCycle, 2),
        (.fltSimul, 1)] : List (Reg × Nat)).foldl (fun t r => (List.range r.2).foldl (fun u i => u.wr r.1 i r.1.resetWord) t)
        (s.raise 0x0301 0) →
      b = a.skipNotif 4 0 (a.flt.windowFaults.filter (·.notify)).length →
      exec .collectorParity s = .next ((({ b with flt := { a.flt with
        records := [], overflowing := false, window := none, windowFaults := [] } } : State).setF F.fltStatus_collectorParity 0
        1).syncFlt.updatePins)) ∧
  (∀ (s : State), exec (.heartbeatCheck true) s = .next (({ s with flt := { s.flt with
        heartbeatAt := s.tm.ticks } } : State).endCondition 0x0302 0)) ∧
  (∀ (s : State), s.s4Condition = false → s.flt.heartbeatAt + 1000000 ≤ s.tm.ticks →
      exec (.heartbeatCheck false) s = .next (s.raise 0x0302 0))

/-- Each clause gives, for every state that meets its conditions, the next state whole. SHARD_RESTART restarts one of
the 32 shards by shardRestart. SHARD_RESTART_COMPLETE of a restarting shard whose restart has not failed has it serve
again, refills its three caches, shows its stash and ends 0x8003. PWRFAIL_ASSERT of a powered device that has not
tripped notes the time, sets pwrfail_seen and logs it; before firmware is ready that is all. With firmware ready it
also raises 0x0001, stops fetching and writes the last gasp. LAST_GASP_COMMIT of a gasp that is being written writes
its commit word, sets gasp_committed_seen and logs it. PWRFAIL_RELEASE with no gasp active ends the failure. With a
gasp active it also raises 0x0002, logs it, takes back the gasp's commit word, resumes fetching, prepares the other
slot and sets resumed. SERVICE_SECOND of a ready device that is not furled counts one second of service. (R214, R496,
R499, R503, R507, R510.) -/
def Obligations.PowerFailureEventsComplete : Prop :=
  (∀ (s : State) (shard : Nat), shard < 32 → exec (.shardRestart shard) s = .next (s.shardRestart shard)) ∧
  (∀ (s : State) (shard : Nat), shard ∈ s.fst.restarting → shard ∉ s.fst.restartFailed →
      exec (.shardRestartComplete shard) s = .next (((([0, 1, 2].foldl (fun (t : State) p => t.refill shard p 32)
        { s with fst := { s.fst with restarting := s.fst.restarting.filter (· != shard) } }).syncStash shard)).endCondition 0x8003 shard)) ∧
  (∀ (s u : State), s.flt.pwrfail = none → s.boot.tripped = false → s.boot.powered = true →
      u = ({ s with flt := { s.flt with pwrfail := some s.now } } : State).setF F.logEvent_pwrfailSeen 0 1 →
      u.getB F.sysStatus_ready = false → exec .pwrfailAssert s = .next (u.logPower 0)) ∧
  (∀ (s u v : State), s.flt.pwrfail = none → s.boot.tripped = false → s.boot.powered = true →
      u = ({ s with flt := { s.flt with pwrfail := some s.now } } : State).setF F.logEvent_pwrfailSeen 0 1 →
      u.getB F.sysStatus_ready = true → v = (u.raise 0x0001 0).logPower 0 →
      exec .pwrfailAssert s = .next (({ v with flt := { v.flt with fetchStopped := true, gaspActive := true } } : State).writeGasp)) ∧
  (∀ (s : State), s.flt.gaspActive = true → (s.gaspSlot s.flt.gaspTarget).magic = true →
      (s.gaspSlot s.flt.gaspTarget).prepared = false → (s.gaspSlot s.flt.gaspTarget).commit ≠ 1 →
      exec .lastGaspCommit s = .next ((({ s with flt := { s.flt with slots := SMap.set s.flt.slots s.flt.gaspTarget { s.gaspSlot s.flt.gaspTarget with commit := 1 } } } : State).setF F.logEvent_gaspCommittedSeen 0 1).logPower 1)) ∧
  (∀ (s : State) (t : Nat), s.flt.pwrfail = some t → s.flt.gaspActive = false →
      exec .pwrfailRelease s = .next { s with flt := { s.flt with pwrfail := none } }) ∧
  (∀ (s u v : State) (t : Nat), s.flt.pwrfail = some t → s.flt.gaspActive = true →
      u = (({ s with flt := { s.flt with pwrfail := none } } : State).raise 0x0002 0).logPower 2 →
      v = { u with flt := { u.flt with
        slots := SMap.set u.flt.slots u.flt.gaspTarget { u.gaspSlot u.flt.gaspTarget with commit := 0 },
        gaspActive := false, fetchStopped := false } } →
      exec .pwrfailRelease s = .next ((v.prepareSlot (1 - u.flt.gaspTarget)).setF F.logLastgasp_resumed 0 1)) ∧
  (∀ (s : State), s.getB F.sysStatus_ready = true → s.getF F.sysStatus_bootState ≠ 7 →
      exec .serviceSecond s = .next (s.setF F.fltAvailService_service 0 ((s.getF F.fltAvailService_service + 1) % 2 ^ 32)))

/-- flt.read answers a record and marks it read, flt.clear removes one, flt.config sets the two enables of a code of
the catalogue; log.read answers count records of sixteen words, log.marker writes a marker; avail.read answers the
loss and service times and the start of an open outage, and avail.reset sets both to zero and restarts an open outage
now. (R484, R486, R510, R511.) -/
def Obligations.FaultCommandsComplete : Prop :=
  (∀ (s : State) (h : CmdHdr) (index : Nat) (r : FltRec), s.refuseCmd h attrS = none → index ≠ 0xFFFFFFFF →
      SMap.find? s.flt.records index = some r →
      exec (.fltRead h index) s = .next (({ s with flt := { s.flt with
        records := SMap.set s.flt.records index { r with read := true } } } : State).finish h (.val r.words))) ∧
  (∀ (s : State) (h : CmdHdr), s.refuseCmd h attrS = none → s.getB F.fltFirstCode_valid = true →
      exec (.fltRead h 0xFFFFFFFF) s = .next (s.finish h (.val s.captureWords))) ∧
  (∀ (s : State) (h : CmdHdr) (index : Nat) (r : FltRec), s.refuseCmd h attrNone = none → index ≠ 0xFFFFFFFF →
      SMap.find? s.flt.records index = some r →
      exec (.fltClear h index) s = .next ((((({ s with flt := { s.flt with
        records := SMap.del s.flt.records index, overflowing := false } } : State).recordLive r).syncFlt).updatePins).finish h .ok)) ∧
  (∀ (s : State) (h : CmdHdr), s.refuseCmd h attrNone = none →
      exec (.fltClear h 0xFFFFFFFF) s = .next ((s.setF F.fltFirstCode_valid 0 0).finish h .ok)) ∧
  (∀ (s : State) (h : CmdHdr) (code : Nat) (notify intn : Bool), s.refuseCmd h attrNone = none → (faultRow code).isSome = true →
      exec (.fltConfig h code notify intn) s = .next (({ s with flt := { s.flt with
        notifyEn := SMap.put true s.flt.notifyEn code notify, intnEn := SMap.put false s.flt.intnEn code intn } } : State).finish h .ok)) ∧
  (∀ (s : State) (h : CmdHdr) (first count : Nat), s.refuseCmd h attrS true = none → first < 65536 → 1 ≤ count →
      count ≤ 3 →
      exec (.logRead h first count) s = .next (s.finish h (.bulkOf [count] ((List.range count).flatMap fun i =>
        ((SMap.find? s.flt.log ((first + i) % 65536)).map LogRec.words).getD (List.replicate 16 0))))) ∧
  (∀ (s : State) (h : CmdHdr) (code word : Nat), s.refuseCmd h attrNone = none → code < 2 ^ 16 →
      exec (.logMarker h code word) s = .next ((s.logWrite { s.logBase 4 with code := code, detail0 := trunc 32 word }).finish h .ok)) ∧
  (∀ (s : State) (h : CmdHdr), s.refuseCmd h attrS = none →
      exec (.availRead h) s = .next (s.finish h (.val ([s.getF F.fltAvailLoss_loss 0, s.getF F.fltAvailLoss_loss 1,
        s.getF F.fltAvailService_service] ++ s.flt.lossOpen.elim [0, 0, 0, 0, 0]
          fun v => 1 :: fullTimeWords (v.start / 1000000000) (v.start % 1000000000) 0)))) ∧
  (∀ (s : State) (h : CmdHdr), s.refuseCmd h attrO = none →
      exec (.availReset h) s = .next (({ (s.setLossTime 0).setF F.fltAvailService_service 0 0 with
        flt := { (s.setLossTime 0).flt with lossOpen := (s.setLossTime 0).flt.lossOpen.map fun v =>
          { v with start := s.now, from_ := v.from_.map fun _ => s.now, counted := 0 } } } : State).finish h .ok))

/-- cnt.snapshot and cnt.clear queue a request for a boundary at least 2 us away and begin the command;
cnt.snapshot_at arms a calendar entry; at its instant a snapshot is taken, and a clear, after the snapshots of its
instant, clears the counters of its groups, sets clear_seen and is answered; a drained bank is held and readable and
answers its time; cnt.read answers the counters of a readable bank and cnt.read_one a live one; bandwidth windows are
opened, closed, rolled and read. (R518, R519, R520, R522, R523, R524, R525.) -/
def Obligations.CounterCommandsComplete : Prop :=
  (∀ (s : State) (r : SnapReq), s.cnt.snaps.find? (fun r => decide (r.at_ ≤ s.now)) = some r → exec .snapshotLatch s = .next (s.takeSnap r)) ∧
  (∀ (s : State) (bank : Nat) (r : SnapReq) (m : SMap CtrVal), SMap.find? s.cnt.latches bank = some (r, m) → r.cmd = none →
      exec (.snapshotDrain bank) s = .next ((({ s with cnt := { s.cnt with
        latches := SMap.del s.cnt.latches bank } } : State).setBank bank m).setF (bankF bank 15 14) 0 2)) ∧
  (∀ (s : State) (bank mbx cid : Nat) (q : Bool) (r : SnapReq) (m : SMap CtrVal), SMap.find? s.cnt.latches bank = some (r, m) →
      r.cmd = some (mbx, cid, q) →
      exec (.snapshotDrain bank) s = .next (((({ s with cnt := { s.cnt with
        latches := SMap.del s.cnt.latches bank } } : State).setBank bank m).setF (bankF bank 15 14) 0 2).answer mbx cid q
        (.val (fullTimeWords (r.at_ / 1000000000) (r.at_ % 1000000000) 0)))) ∧
  (∀ (s u : State) (r : ClearReq), s.cnt.clears.find? (fun r => decide (r.at_ ≤ s.now) && !s.snapPending r.at_) = some r →
      u = (s.cnt.snaps.filter fun q => decide (q.at_ ≤ r.at_)).foldl (fun t q => t.takeSnap q) s →
      exec .counterClearApply s = .next ((({ u with ctrs := u.ctrs.filter (fun e => !bitOf r.groups (e.1 / 2 ^ 20)), cnt := { u.cnt with clears := u.cnt.clears.erase r } } : State).setF F.cntEvent_clearSeen 0 1).answer r.cmd.1 r.cmd.2.1 r.cmd.2.2 .ok)) ∧
  (∀ (s : State) (port : Nat), exec (.bwWindowEnd port) s = .next { s with cnt := { s.cnt with
        windows := SMap.modify s.cnt.windows port fun w => w.roll s.now s.locked } }) ∧
  (∀ (s : State) (h : CmdHdr) (bank groups : Nat), s.refuseCmd h attrNone = none → bank ≤ 1 → groups ≤ 15 → s.bankHeld bank = false →
      exec (.cntSnapshot h bank groups) s = .next (({ s with cnt := { s.cnt with snaps := s.cnt.snaps ++
        [⟨bank, groups, boundaryAfter s.now 2000, some (h.mbx, h.cid, h.noIrq), false⟩] } } : State).beginCmd h)) ∧
  (∀ (s t : State) (h : CmdHdr) (bank groups instant : Nat) (stack : Bool) (r : Rsp), s.refuseCmd h attrNone = none → bank ≤ 1 →
      1 ≤ groups → groups ≤ 15 → s.armCmd h ⟨0, false, stack, instant, 0, bank, groups, h.mbx, 0⟩ = (t, some r) → r.code = 0 →
      exec (.cntSnapshotAt h bank groups instant stack) s = .next (t.finish h r)) ∧
  (∀ (s : State) (h : CmdHdr) (bank group first count : Nat), s.refuseCmd h attrNone = none → bank ≤ 1 → group ≤ 3 → 1 ≤ count →
      count ≤ 65536 → first + count ≤ ctrSlots group → s.bankReadable bank group = true →
      exec (.cntRead h bank group first count) s = .next (s.finish h (.bulkOf [count] ((List.range count).flatMap fun i =>
        [(ctrIn (s.bank bank) group (first + i)).value % 2 ^ 32, (ctrIn (s.bank bank) group (first + i)).value / 2 ^ 32])))) ∧
  (∀ (s : State) (h : CmdHdr) (group index : Nat), s.refuseCmd h attrS = none → group ≤ 3 → index < ctrSlots group →
      exec (.cntReadOne h group index) s = .next (s.finish h (.val [(ctrIn s.ctrs group index).value % 2 ^ 32,
        (ctrIn s.ctrs group index).value / 2 ^ 32, b2n (ctrIn s.ctrs group index).sat]))) ∧
  (∀ (s : State) (h : CmdHdr) (groups : Nat), s.refuseCmd h attrNone = none → groups ≤ 15 →
      exec (.cntClear h groups) s = .next (({ s with cnt := { s.cnt with clears := s.cnt.clears ++
        [⟨groups, boundaryAfter s.now 2000, (h.mbx, h.cid, h.noIrq)⟩] } } : State).beginCmd h)) ∧
  (∀ (s : State) (h : CmdHdr) (port code : Nat) (enable : Bool), s.refuseCmd h attrNone = none → port < 256 → code ≤ 6 →
      s.portExists port = true →
      exec (.cntBwConfig h port code enable) s = .next (({ s with cnt := { s.cnt with
        windows := (if enable then SMap.set s.cnt.windows port (newWindow code s.now s.locked)
          else SMap.del s.cnt.windows port) } } : State).finish h .ok)) ∧
  (∀ (s : State) (h : CmdHdr) (port d : Nat) (w : BwWindow) (ws : List Nat), s.refuseCmd h attrNone = none → port < 256 →
      s.portExists port = true → SMap.find? s.bwRoll.cnt.windows port = some w → w.latest = some (ws, d) →
      exec (.cntBwRead h port) s = .next (s.bwRoll.finish h ⟨0, d, ws, []⟩))

/-- The export commands store template sets not in use (and send their templates), collectors, and the configuration;
exp.status answers nine counters. A window past its end closes and its collector's message is sent, a message 1 ms old
is sent, templates are sent again after 60 s, a record of the queue is taken and its reference given back, and a walk
visits its block. A life sample that is due and good is taken, of each of the five kinds of source, a failed one is
flagged; a prediction runs every 24 hours; the wear record is written to the other slot, which is in use once the
write verifies; life.report answers a source and life.config sets the alarm. (R528, R529, R530, R531, R535, R536,
R538, R539, R540.) -/
def Obligations.ExportAndLifeComplete : Prop :=
  (∀ (s : State) (q : ExpRecord) (r : FlowRec), s.nextExport = some q →
      (({ s with cnt := { s.cnt with expQueue := s.cnt.expQueue.erase q } } : State).shrinkQueue).recNow q.handle = some r →
      (exportSlot r.size (toImage r.size r.words)).bind (fun i => (SMap.getD (({ s with cnt := { s.cnt with
        expQueue := s.cnt.expQueue.erase q } } : State).shrinkQueue).cnt.tmplSets q.set ⟨0, []⟩).slots[i]?) = none →
      exec .exportEncode s = .next (((({ s with cnt := { s.cnt with
        expQueue := s.cnt.expQueue.erase q } } : State).shrinkQueue).count C.expNoTemplate).refHeap q.handle crowsNest false)) ∧
  (∀ (s a b : State) (q : ExpRecord) (r : FlowRec) (t : TmplSlot) (sent : Bool), s.nextExport = some q →
      a = ({ s with cnt := { s.cnt with expQueue := s.cnt.expQueue.erase q } } : State).shrinkQueue → a.recNow q.handle = some r →
      (exportSlot r.size (toImage r.size r.words)).bind (fun i => (SMap.getD a.cnt.tmplSets q.set ⟨0, []⟩).slots[i]?) = some t →
      t.tid ≠ 0 → a.addRecord (SMap.getD a.cnt.tmplSets q.set ⟨0, []⟩).collector t.tid
        (a.dataRecord q r.size (toImage r.size r.words) t) = (b, sent) →
      exec .exportEncode s = .next ((if sent = true then (if q.isEnd = true then (b.count C.expRecords).noteReason q
          else ((b.count C.expRecords).noteReason q).exportClear q.handle r.size (toImage r.size r.words)) else b).refHeap q.handle
        crowsNest false)) ∧
  (∀ (s : State) (set : Nat) (w : ExpWindow) (t : TmplSet), SMap.find? s.cnt.expWindows set = some w → w.open_ = true →
      w.endAt ≤ s.now → w.walking = false → SMap.find? s.cnt.tmplSets set = some t →
      exec (.exportWindowClose set) s = .next (({ s with cnt := { s.cnt with
        expWindows := SMap.set s.cnt.expWindows set { w with open_ := false } } } : State).sendMessage t.collector)) ∧
  (∀ (s : State) (collector : Nat) (m : ExpMessage), SMap.find? s.cnt.expMessages collector = some m → m.first + 1000000 ≤ s.now →
      exec (.exportMessageTimer collector) s = .next (s.sendMessage collector)) ∧
  (∀ (s : State), s.cnt.expEnabled = true → s.cnt.templatesAt + 60000000000 ≤ s.now → exec .templateResend s = .next s.sendAllTemplates) ∧
  (∀ (s u : State) (set base : Nat) (w : ExpWindow), SMap.find? s.cnt.expWindows set = some w → w.open_ = true →
      w.walking = true → s.cnt.expEnabled = true → base = w.cursorShard * 2 ^ 24 + 128 * w.cursorBlock →
      u = ((s.fst.ageBits.filter fun e => bitOf e.2 0 && decide (base ≤ e.1) && decide (e.1 < base + 128)).map Prod.fst).foldl
        (State.visitExport set) s →
      exec (.exportWalkVisit set) s = .next { u with cnt := { u.cnt with
        expWindows := SMap.set u.cnt.expWindows set (u.nextBlock w) } }) ∧
  (∀ (s : State) (h : CmdHdr) (set c : Nat) (slots : List TmplSlot), s.refuseCmd h attrNone = none → set ≤ 15 → c ≤ 7 →
      slots.length = 4 → (∀ x ∈ slots, s.slotOk x = true) → s.setInUse set = false →
      exec (.expTemplateSet h set [c, 0, 0, 0, 0, 0, 0, 0] slots) s = .next ((({ s with cnt := { s.cnt with
        tmplSets := SMap.set s.cnt.tmplSets set ⟨c, slots⟩ } } : State).sendTemplates ⟨c, slots⟩).finish h .ok)) ∧
  (∀ (s : State) (h : CmdHdr) (collector : Nat) (dest : Collector), s.refuseCmd h attrNone = none → collector ≤ 7 →
      collectorOk dest = true → (∀ e ∈ s.cnt.tmplSets, e.2.collector = collector → s.setInUse e.1 = false) →
      exec (.expCollectorSet h collector dest) s = .next (({ s with cnt := { s.cnt with
        collectors := SMap.set s.cnt.collectors collector dest } } : State).finish h .ok)) ∧
  (∀ (s : State) (h : CmdHdr) (interval defaultSet msgMax enterprise : Nat), s.refuseCmd h attrNone = none → interval ≤ 86400 →
      defaultSet ≤ 15 → 512 ≤ msgMax → msgMax ≤ 1400 → enterprise < 2 ^ 32 →
      exec (.expConfig h false interval defaultSet msgMax enterprise) s = .next ((({ s with cnt := { s.cnt with
        expEnabled := false, expInterval := interval, expDefaultSet := defaultSet, msgMax := msgMax,
        enterprise := enterprise } } : State).armInterval interval defaultSet).finish h .ok)) ∧
  (∀ (s : State) (h : CmdHdr), s.refuseCmd h attrNone = none →
      exec (.expStatus h) s = .next (s.finish h (.bulkOf [] (((List.range 9).flatMap fun i =>
          [(s.ctr (globCtr (48 + i))).value % 2 ^ 32, (s.ctr (globCtr (48 + i))).value / 2 ^ 32])
        ++ [s.cnt.expQueueBufs.length + s.cnt.expMessages.length,
          s.cnt.expWindows.foldl (fun a (e : Nat × ExpWindow) => putBit a e.1 e.2.open_) 0]
        ++ List.flatMap (fun (e : Nat × ExpWindow) => [e.1, e.2.cursorShard, e.2.cursorBlock]) s.cnt.expWindows)))) ∧
  (∀ (s : State) (n a b : Nat), s.getB F.lifeCtrl_enable = true → s.sampleDue (.sensor n a b) = true → n < 48 → b ≠ 0 →
      exec (.lifeSample (.sensor n a b) true) s = .next ((s.sampleSensor n a b).sampleTaken (.sensor n a b)).syncLife) ∧
  (∀ (s : State) (g : Nat), s.getB F.lifeCtrl_enable = true → s.sampleDue (.channel g) = true → g < 192 →
      exec (.lifeSample (.channel g) true) s = .next ((s.sampleChannel g).sampleTaken (.channel g)).syncLife) ∧
  (∀ (s : State) (k v : Nat), s.getB F.lifeCtrl_enable = true → s.sampleDue (.lane k v) = true → k < 256 →
      exec (.lifeSample (.lane k v) true) s = .next ((s.sampleLane k v).sampleTaken (.lane k v)).syncLife) ∧
  (∀ (s : State) (n : Nat), s.getB F.lifeCtrl_enable = true → s.sampleDue (.sector n) = true → n < 64 →
      exec (.lifeSample (.sector n) true) s = .next ((s.addSample (0x300 + n) ((SMap.getD s.cnt.norErases n 0 : Nat) :
        Int)).sampleTaken (.sector n)).syncLife) ∧
  (∀ (s : State) (a b : Nat), s.getB F.lifeCtrl_enable = true → s.sampleDue (.thermal a b) = true →
      exec (.lifeSample (.thermal a b) true) s = .next ((s.sampleThermal a b).sampleTaken (.thermal a b)).syncLife) ∧
  (∀ (s : State) (m : Measure), s.getB F.lifeCtrl_enable = true → s.sampleDue m = true →
      exec (.lifeSample m false) s = .next (s.setF F.lifeEvent_sampleFailSeen 0 1)) ∧
  (∀ (s : State), s.getB F.lifeCtrl_enable = true → s.cnt.lastPrediction + 24 ≤ s.hours → exec .lifePrediction s = .next s.predict) ∧
  (∀ (s u : State) (i seq : Nat) (verified : Bool), s.cnt.lastAccWrite + 6 ≤ s.hours → i = 1 - s.getF F.lifeAcc_slot →
      seq = (s.accSlot (1 - i)).seq + 1 →
      u = { s.eraseSector (Config.norSector i) with cnt := { (s.eraseSector (Config.norSector i)).cnt with
        accSlots := SMap.set (s.eraseSector (Config.norSector i)).cnt.accSlots i (s.accContent seq verified),
        lastAccWrite := s.hours } } →
      exec (.wearAccWrite verified) s = .next (if verified = true then
          ((u.setF F.lifeAcc_slot 0 i).setF F.lifeAcc_seq 0 (seq % 2 ^ 30)).setF F.lifeEvent_accWriteSeen 0 1
        else u.setF F.lifeEvent_accFailSeen 0 1)) ∧
  (∀ (s : State) (h : CmdHdr) (source : Nat), s.refuseCmd h attrS = none → sourceOk source = true →
      exec (.lifeReport h source) s = .next (s.finish h (.val [(s.source source).months,
        b2n (decide (s.hours < 168)) + 2 * b2n (s.source source).exceeded]))) ∧
  (∀ (s : State) (h : CmdHdr) (alarmMonths : Nat), s.refuseCmd h attrNone = none → 1 ≤ alarmMonths → alarmMonths ≤ 1200 →
      exec (.lifeConfig h alarmMonths) s = .next ((s.setF F.lifeCtrl_alarmMonths 0 alarmMonths).finish h .ok))

/-- Each clause gives, for every state that meets its conditions, the next state whole. KENDREL_SLOT_FRAME of the
link's peer on a link that is up is counted, its fields are taken and this device's frame of the slot is sent. One
with a bad header counts a header error and this device's frame is sent. One with another device's identity drops the
link. KENDREL_LINK_UP with the peer that the map expects, a valid pair of roles, outside bare poles and FURLED, binds
the link, keeps its delay and the peer's role, shows it up, ends 0x2801 and gives the peer the seed. With an invalid
pair of roles it raises 0x2801. KENDREL_LINK_DOWN of a link that is up drops it. SEED_WAIT_EXPIRY of a member or
deputy without a seed 2 s after reset sets own_seed. STACK_FORM_RESPONSE is taken by formAnswer. STACK_FORM_TIMEOUT
100 ms after a forming began fails it. TIME_MARKER_EXCHANGE of a formed stack's device that is not the master gives
the offset of the first time link to domain A, its source then 0. That of another time link goes to domain B in the
same way. DEPUTY_TAKEOVER after 10 ms without the master has the deputy take over. A member that hears no deputy
raises 0x2802 where it is not live. MASTER_RESIGN of a master that has heard a higher generation resigns to the master
it heard. One that has heard a deputy but no acknowledgement for 12 ms resigns. (R546, R547, R548, R549, R550, R560,
R565.) -/
def Obligations.StackEventsComplete : Prop :=
  (∀ (s u : State) (link slot : Nat) (frame : StkFrame), link < 4 → s.getB F.stkLink_up link = true → frame.valid = true →
      u = (s.count (C.stkLinkFecCorr link) frame.fecCorr).count (C.stkLinkFecUncorr link) frame.fecUncorr →
      frame.id = u.peerOf link →
      exec (.kendrelSlotFrame link slot frame) s = .next ((u.takeFields link slot frame).sendSlot link slot)) ∧
  (∀ (s u : State) (link slot : Nat) (frame : StkFrame), link < 4 → s.getB F.stkLink_up link = true → frame.valid = false →
      u = (s.count (C.stkLinkFecCorr link) frame.fecCorr).count (C.stkLinkFecUncorr link) frame.fecUncorr →
      exec (.kendrelSlotFrame link slot frame) s = .next (({ u with stk := { u.stk with
        headerErrors := SMap.set u.stk.headerErrors link (SMap.getD u.stk.headerErrors link 0 + 1) } } : State).sendSlot link slot)) ∧
  (∀ (s u : State) (link slot : Nat) (frame : StkFrame), link < 4 → s.getB F.stkLink_up link = true → frame.valid = true →
      u = (s.count (C.stkLinkFecCorr link) frame.fecCorr).count (C.stkLinkFecUncorr link) frame.fecUncorr →
      frame.id ≠ u.peerOf link →
      exec (.kendrelSlotFrame link slot frame) s = .next (u.dropLink link)) ∧
  (∀ (s u v : State) (link macro_ peer role delay : Nat), link < 4 → macro_ < 32 → peer < 4 → role ≠ 0 → s.stkRole ≠ 0 →
      s.getB F.stkLink_up link = false → s.getB F.fltStatus_barePoles = false → s.furled = false → s.linkFits link macro_ peer = true →
      s.validPair peer role = true → u = (s.bindLink link macro_ peer).setF F.stkLink_delay link (Nat.min delay 65535) →
      v = { u with stk := { u.stk with peerRole := SMap.set u.stk.peerRole link role } } →
      exec (.kendrelLinkUp link macro_ peer role delay) s = .next (((v.showLink link true).endCondition 0x2801 link).giveSeed link)) ∧
  (∀ (s : State) (link macro_ peer role delay : Nat), link < 4 → macro_ < 32 → peer < 4 → role ≠ 0 → s.stkRole ≠ 0 →
      s.getB F.stkLink_up link = false → s.getB F.fltStatus_barePoles = false → s.furled = false → s.linkFits link macro_ peer = true →
      s.validPair peer role = false →
      exec (.kendrelLinkUp link macro_ peer role delay) s = .next (s.raise 0x2801 link link)) ∧
  (∀ (s : State) (link : Nat), link < 4 → s.getB F.stkLink_up link = true → exec (.kendrelLinkDown link) s = .next (s.dropLink link)) ∧
  (∀ (s : State), (s.stkRole = 1 ∨ s.stkRole = 2) → s.stk.seed = none → s.getB F.sysStatus_ready = false → 2000000000 ≤ s.tm.ticks →
      exec .seedWaitExpiry s = .next (s.setF F.stkStatus_ownSeed 0 1)) ∧
  (∀ (s : State) (member : Nat) (accept : Bool), exec (.stackFormResponse member accept) s = .next (s.formAnswer member accept)) ∧
  (∀ (s : State) (f : StkForm), s.stk.form = some f → f.at_ + 100000000 ≤ s.tm.ticks → exec .stackFormTimeout s = .next (s.formFails f)) ∧
  (∀ (s : State) (link : Nat) (theta : Int) (rest : List Nat), s.stkFormed = true → s.actingMaster = false → s.timeLinks = link :: rest →
      exec (.timeMarkerExchange link theta) s = .next ((s.setF F.tbsDomainCtrl_srcA 0 0).servoOffset 0 theta)) ∧
  (∀ (s : State) (link a : Nat) (theta : Int) (rest : List Nat), s.stkFormed = true → s.actingMaster = false →
      s.timeLinks = a :: rest → a ≠ link → link ∈ rest →
      exec (.timeMarkerExchange link theta) s = .next ((s.setF F.tbsDomainCtrl_srcB 0 0).servoOffset 1 theta)) ∧
  (∀ (s : State), s.stkFormed = true → s.actingMaster = false → s.stk.masterAt + 10000000 ≤ s.tm.ticks → s.stkRole = 2 →
      exec .deputyTakeover s = .next s.takeOver) ∧
  (∀ (s : State), s.stkFormed = true → s.actingMaster = false → s.stk.masterAt + 10000000 ≤ s.tm.ticks → s.stkRole ≠ 2 →
      s.deputyHeard = false → (∀ l ∈ s.flt.live, l.code ≠ 0x2802) →
      exec .deputyTakeover s = .next (s.raise 0x2802 0)) ∧
  (∀ (s : State), s.actingMaster = true → s.stkFormed = true → s.getF F.stkGen_genOwn < s.getF F.stkGen_genHeard →
      exec .masterResign s = .next (s.resign s.stk.master)) ∧
  (∀ (s : State), s.actingMaster = true → s.stkFormed = true → s.getF F.stkGen_genHeard ≤ s.getF F.stkGen_genOwn →
      s.stkRole ≠ 2 → s.deputyHeard = true → s.stk.ackAt + 12000000 ≤ s.tm.ticks →
      exec .masterResign s = .next (s.resign none))

/-- stk.config with mode 0 on a single acting master that forms nothing dissolves a formed stack and leaves an
unformed device as it is; one of a device that is its stack's only member forms it; stk.status and stk.link_status
answer the registers and counters they name. (R550, R566.) -/
def Obligations.StackCommandsComplete : Prop :=
  (∀ (s : State) (h : CmdHdr) (lSlots : Nat) (maps : List StkMap), s.refuseCmd h attrO = none → mapsOk maps = true →
      s.actingMaster = true → s.stk.form = none → s.stk.masters.length ≤ 1 → s.stkFormed = true →
      exec (.stkConfig h 0 lSlots maps) s = .next (((s.sendAll .dissolve).dissolve).finish h .ok)) ∧
  (∀ (s : State) (h : CmdHdr), s.refuseCmd h attrS = none →
      exec (.stkStatus h) s = .next (s.finish h (.val ([(s.rd .stkStatus 0).toNat, (s.rd .stkCtrl 0).toNat, (s.rd .stkGen 0).toNat]
        ++ (List.range 4).map (fun l => (s.rd .stkLink l).toNat)
        ++ (List.range 4).map (fun i => if i = s.stkId then
            s.reductions + 2 ^ 31 * s.getF F.fltStatus_reef + 2 ^ 30 * s.getF F.fltStatus_barePoles
          else (SMap.getD s.stk.memberModes i (0, false, false)).1 + 2 ^ 31 * b2n (SMap.getD s.stk.memberModes i (0, false, false)).2.1
            + 2 ^ 30 * b2n (SMap.getD s.stk.memberModes i (0, false, false)).2.2))))) ∧
  (∀ (s : State) (h : CmdHdr) (link : Nat), s.refuseCmd h attrNone = none → link < 4 →
      exec (.stkLinkStatus h link) s = .next (s.finish h (.val [if s.getB F.stkLink_up link then 0xFF else 0, s.getF F.stkLink_delay link,
        (s.ctr (C.stkLinkFecCorr link)).value % 2 ^ 32, (s.ctr (C.stkLinkFecCorr link)).value / 2 ^ 32,
        (s.ctr (C.stkLinkFecUncorr link)).value % 2 ^ 32, (s.ctr (C.stkLinkFecUncorr link)).value / 2 ^ 32,
        SMap.getD s.stk.headerErrors link 0, s.getF F.stkStatus_linkUp])))

/-- Each clause gives, for every state that meets its conditions, the next state whole. POWER_ON_RESET gives the state
after power-on, the straps sampled. PIN_RESET of a powered device is a warm reset with cause pin, the straps sampled.
THERMAL_TRIP is a warm reset with cause thermtrip after which the device is held tripped. BOOT_STAGE_COMPLETE of a
device that is alive ends state 0, unless TEST_EN is strapped, by endRom. It ends state 1 by endCheck. It ends state 2
by endTraining. From state 3 it goes to state 4 and starts the boot watchdog. In state 4, the seed settled, firmware
starts. BOOT_WATCHDOG 4 s after state 4 began without ready counts against the slot booted, prefers the other, and
resets warm. NONCE_EXPIRY 60 s after its challenge ends the nonce. AVS_CORRECTION of the fore die's rail, a second or
more after the last and from ready on, sends the regulator a target 5 mV higher or lower, or the same again, within
680 to 820 mV, which becomes the rail's where the regulator answers. That of the aft die's rail does the same there.
DIE_TEMP_WARNING of 100 degrees or more, the condition not live, raises 0x0003 and the thermal interrupt. Below 97
degrees it ends the condition. POWER_LOSS loses everything volatile and leaves the device off. CORE_LOGIC_TEST_END of
a core under test in an update makes one that passed the backstay core and the update goes on. One that failed goes
offline and the update fails. (R499, R549, R569, R570, R574, R576, R582, R583, R597, R598, R602, R603.) -/
def Obligations.BootEventsComplete : Prop :=
  (∀ (s : State) (straps : Straps) (persistent : Bool),
      exec (.powerOnReset straps persistent) s = .next ((s.afterPowerOn persistent).sampleStraps straps)) ∧
  (∀ (s : State) (straps : Straps), s.boot.powered = true →
      exec (.pinReset straps) s = .next ((s.warmReset [F.sysResetCause_pin]).sampleStraps straps)) ∧
  (∀ (s t : State), s.alive = true → t = s.warmReset [F.sysResetCause_thermtrip] →
      exec .thermalTrip s = .next { t with boot := { t.boot with tripped := true } }) ∧
  (∀ (s : State) (setup : CrdSetup), s.alive = true → s.getF F.sysStatus_bootState = 0 → s.getB F.sysStraps_testEn = false →
      exec (.bootStageComplete setup) s = .next s.endRom) ∧
  (∀ (s : State) (setup : CrdSetup), s.alive = true → s.getF F.sysStatus_bootState = 1 →
      exec (.bootStageComplete setup) s = .next s.endCheck) ∧
  (∀ (s : State) (setup : CrdSetup), s.alive = true → s.getF F.sysStatus_bootState = 2 →
      exec (.bootStageComplete setup) s = .next s.endTraining) ∧
  (∀ (s t : State) (setup : CrdSetup), s.alive = true → s.getF F.sysStatus_bootState = 3 → t = s.setBoot 4 →
      exec (.bootStageComplete setup) s = .next { t with boot := { t.boot with watchAt := some t.tm.ticks } }) ∧
  (∀ (s : State) (setup : CrdSetup), s.alive = true → s.getF F.sysStatus_bootState = 4 → s.seedSettled = true →
      exec (.bootStageComplete setup) s = .next (s.firmwareStart setup)) ∧
  (∀ (s : State) (t : Nat), s.boot.watchAt = some t → s.alive = true → s.getB F.sysStatus_ready = false →
      t + 4000000000 ≤ s.tm.ticks →
      exec .bootWatchdog s = .next (({ s with boot := { s.boot with
        watchdogs := SMap.set s.boot.watchdogs s.boot.bootSlot (SMap.getD s.boot.watchdogs s.boot.bootSlot 0 + 1),
        prefer := some (1 - s.boot.bootSlot) } } : State).warmReset [F.sysResetCause_warm])) ∧
  (∀ (s : State) (ws : List Nat) (t : Nat), s.boot.nonce = some (ws, t) → t + 60000000000 ≤ s.tm.ticks →
      exec .nonceExpiry s = .next { s with boot := { s.boot with nonce := none } }) ∧
  (∀ (s : State) (direction : Nat) (answered : Bool) (u : State) (mv : Nat), s.alive = true → s.getB F.sysStatus_ready = true →
      s.boot.railForeAt + 1000000000 ≤ s.tm.ticks → u = { s with boot := { s.boot with railForeAt := s.tm.ticks } } →
      mv = Nat.max 680 (Nat.min 820 (if direction = 1 then s.boot.railFore + 5 else if direction = 2 then s.boot.railFore - 5
        else s.boot.railFore)) →
      exec (.avsCorrection 0 direction answered) s = .next (if answered = true then u.setRail false mv else u.emit (.rail 0 mv))) ∧
  (∀ (s : State) (direction : Nat) (answered : Bool) (u : State) (mv : Nat), s.alive = true → s.getB F.sysStatus_ready = true →
      s.boot.railAftAt + 1000000000 ≤ s.tm.ticks → u = { s with boot := { s.boot with railAftAt := s.tm.ticks } } →
      mv = Nat.max 680 (Nat.min 820 (if direction = 1 then s.boot.railAft + 5 else if direction = 2 then s.boot.railAft - 5
        else s.boot.railAft)) →
      exec (.avsCorrection 1 direction answered) s = .next (if answered = true then u.setRail true mv else u.emit (.rail 1 mv))) ∧
  (∀ (s : State) (unit temp : Nat), unit ≤ 7 → s.alive = true → 100 ≤ temp →
      (∀ l ∈ s.flt.live, l.code = 0x0003 → l.instance_ ≠ unit) →
      exec (.dieTempWarning unit temp) s = .next ((s.raise 0x0003 unit unit).raiseIrq irqThermal)) ∧
  (∀ (s : State) (unit temp : Nat), unit ≤ 7 → s.alive = true → temp < 97 →
      exec (.dieTempWarning unit temp) s = .next (s.endCondition 0x0003 unit)) ∧
  (∀ (s t : State), t = s.afterPowerOn s.flt.persistent →
      exec .powerLoss s = .next { t with boot := { t.boot with powered := false } }) ∧
  (∀ (s : State) (core : Nat), s.boot.update.isSome = true → core ∈ s.crd.testing → s.crd.takeover = none →
      exec (.coreLogicTestEnd core true) s = .next (s.becomeBackstay core).rotate) ∧
  (∀ (s : State) (core : Nat), s.boot.update.isSome = true → core ∈ s.crd.testing → s.crd.takeover = none →
      exec (.coreLogicTestEnd core false) s = .next (s.goOffline core).failUpdate)

/-- sys.identity and sys.status answer the registers they name; sys.debug_challenge draws and answers a nonce of four
words unless unlocked or failed three times; sys.debug_unlock within 60 s of the nonce, with the key the fuses take,
unlocks, and with another counts a failure and answers E_AUTH, and consumes the nonce either way; sys.fw_update of an
accepted image begins; sys.furl of a device with nothing running stops traffic, flushes and enters state 7; sys.unfurl
of a furled one returns to state 5. (R471, R582, R583, R586, R587.) -/
def Obligations.SystemCommandsComplete : Prop :=
  (∀ (s : State) (h : CmdHdr), s.refuseCmd h attrS true true = none →
      exec (.sysIdentity h) s = .next (s.finish h (.val [(s.rd .sysId 0).toNat, s.getF F.sysSerial_serial 0, s.getF F.sysSerial_serial 1,
        (s.rd .sysFwVersion 0).toNat, (s.rd .sysFwVersion 1).toNat, jcsVersion]))) ∧
  (∀ (s : State) (h : CmdHdr), s.refuseCmd h attrS true = none → s.getB F.sysStatus_ready = true →
      exec (.sysStatus h) s = .next (s.finish h (.val [(s.rd .sysStatus 0).toNat, (s.rd .sysResetCause 0).toNat, s.reductions,
        s.host.lostCompletions]))) ∧
  (∀ (s : State) (h : CmdHdr), s.refuseCmd h attrNone = none → s.getB F.sysStatus_debugUnlocked = false → s.boot.unlockFails < 3 →
      exec (.sysDebugChallenge h) s = .next (({ s with drawn := s.drawn + 4, boot := { s.boot with
        nonce := some ((List.range 4).map fun i => trunc 32 (Config.free (s.drawn + i)), s.tm.ticks) } } : State).finish h
        (.val ((List.range 4).map fun i => trunc 32 (Config.free (s.drawn + i)))))) ∧
  (∀ (s u : State) (h : CmdHdr) (key t : Nat) (ws : List Nat), s.refuseCmd h attrO = none → s.boot.nonce = some (ws, t) →
      s.tm.ticks < t + 60000000000 → u = { s with boot := { s.boot with nonce := none } } →
      exec (.sysDebugUnlock h key) s = .next (if s.boot.fuses.keyOk key = true then (u.setF F.sysStatus_debugUnlocked 0 1).finish h .ok
        else ({ u with boot := { u.boot with unlockFails := u.boot.unlockFails + 1 } } : State).finish h (.err eAuth))) ∧
  (∀ (s t : State) (h : CmdHdr) (image : List Nat) (key : Nat) (written : Bool), s.refuseCmd h attrO false true = none →
      s.boot.recovery = false → s.updateImage h image key written = (t, none) →
      exec (.sysFwUpdate h image key written) s = .next (t.beginCmd h)) ∧
  (∀ (s : State) (h : CmdHdr), s.refuseCmd h attrO = none → s.getB F.fltStatus_barePoles = false → s.crd.takeover = none →
      s.boot.update = none → s.furled = false →
      ∀ u : State, u = ((s.furlTraffic.flushLines.pauseLoss).setBoot 7).syncLines →
      exec (.sysFurl h) s = .next (({ u with hbm := { u.hbm with srOut := [] } } : State).finish h .ok)) ∧
  (∀ (s : State) (h : CmdHdr), s.refuseCmd h attrO = none → s.furled = true →
      ∀ u : State, u = ((List.range 6).foldl (fun (t : State) k => if t.hbm.selfRefresh.contains k || SMap.has t.hbm.srRetryAt k then
        t.exitSelfRefresh k else t) s).emptyCache →
      exec (.sysUnfurl h) s = .next ((({ u with fst := { u.fst with
        rebase := List.range 512, gracePass := List.range 512 } } : State).restartShapers.setBoot 5).resumeLoss.syncLines.finish h .ok))

/-- port.config of a free, aligned set of lanes with a rate and FEC that go together, or of a port that stands on the
same lanes, whose reserves fit, writes the port's configuration, a change of rate, FEC or medium taking the link down
first; port.delete of a port that exists and nothing refers to takes its link down and forgets it; port.lane_map of a
macro without ports stores the orders; port.fc_config stores the flow control of a port where headroom and reserves
fit; port.status answers the status word, the rate and FEC in force and the margins of the port's lanes. (R75, R76,
R94, R97, R98.) -/
def Obligations.PortCommandsComplete : Prop :=
  (∀ (s : State) (h : CmdHdr) (port lanes laneRate fec medium maxFrame holdoff : Nat) (anEn ltEn ctEn : Bool),
      s.refuseCmd h attrNone = none → port < 256 → port % 2 ^ lanes = 0 → lanes < 4 → comboOk lanes laneRate fec = true → fec < 3 →
      medium < 3 → (anEn = true → medium = 2) → (ltEn = true → medium = 2) → 64 ≤ maxFrame → maxFrame ≤ 9600 → holdoff ≤ 10000 →
      (s.portExists port = true → s.getF F.portCfg_lanes port = lanes) → s.laneTaken port lanes = false →
      (∀ l ∈ s.stk.lanes, lanesOverlap port (2 ^ lanes) l 8 = false) →
      ∀ u t : State, u = (if (s.portExists port && (s.getF F.portCfg_laneRate port != laneRate || s.getF F.portCfg_fec port != fec
        || s.getF F.portCfg_medium port != medium)) = true then s.linkFault port else s) →
      t = (u.writePortCfg port lanes laneRate fec medium anEn ltEn maxFrame ctEn).setPort port
        { u.portInfo port with holdoff := holdoff, tsInvalid := false, ability := none, anRestart := none } →
      t.reservesFit = true →
      exec (.portConfig h port lanes laneRate fec medium anEn ltEn maxFrame ctEn holdoff) s = .next ((t.lineChanged port).finish h .ok)) ∧
  (∀ (s : State) (h : CmdHdr) (port : Nat), s.refuseCmd h attrNone = none → port < 256 → s.portExists port = true →
      s.portReferred port = false →
      ∀ u v : State, u = s.linkFault port → v = { u with
        port := { u.port with ports := SMap.del u.port.ports port },
        cnt := { u.cnt with windows := SMap.del u.cnt.windows port },
        egs := { u.egs with down := u.egs.down.filter (· != port), revertAt := SMap.del u.egs.revertAt port } } →
      exec (.portDelete h port) s = .next (((((((v.resetReg .portCfg port).resetReg .portStatus port).resetReg .portTsLatency
        port).resetReg .portEvent port).setBit F.egsStatus_nhDown (pipeOf port) (port % 8) false).syncSynce).finish h .ok)) ∧
  (∀ (s : State) (h : CmdHdr) (macro_ txPol rxPol : Nat) (txOrder rxOrder : List Nat), s.refuseCmd h attrNone = none →
      macro_ < 32 → isPerm txOrder = true → txPol < 256 → isPerm rxOrder = true → rxPol < 256 →
      (∀ e ∈ s.port.ports, e.1 / 8 ≠ macro_) →
      exec (.portLaneMap h macro_ txOrder txPol rxOrder rxPol) s = .next (({ s with port := { s.port with
        lanes := SMap.set s.port.lanes macro_ ⟨txOrder, txPol, rxOrder, rxPol⟩ } } : State).finish h .ok)) ∧
  (∀ (s : State) (h : CmdHdr) (port mode classes xoff xon quanta watchdog restore : Nat) (headroom : List Nat),
      s.refuseCmd h attrNone = none → port < 256 → mode < 3 → classes < 256 → headroom.length = 8 → quanta < 65536 → 10 ≤ watchdog → watchdog ≤ 10000 → restore < 2 ^ 32 → s.portExists port = true →
      ∀ t : State, t = (s.setF F.portCfg_fcMode port mode).setPort port { s.portInfo port with
        fcClasses := classes, xoff := xoff, xon := xon, headroom := headroom, quanta := quanta, watchdog := watchdog, restore := restore } →
      t.headroomSum (pipeOf port) ≤ 12288 → t.reservesFit = true →
      exec (.portFcConfig h port mode classes xoff xon headroom quanta watchdog restore) s = .next
        (((t.clearXoff port (s.getF F.portCfg_fcMode port)).fcUpdate port).finish h .ok)) ∧
  (∀ (s : State) (h : CmdHdr) (port : Nat), s.refuseCmd h attrS = none → s.portExists port = true →
      exec (.portStatus h port) s = .next (s.finish h (.val ([(s.rd .portStatus port).toNat, s.portRate port, s.portFec port] ++
        (List.range (2 ^ s.getF F.portCfg_lanes port)).map fun k => SMap.getD (s.portInfo port).eyeMargin k 0))))

/-- With well-formed entries and parameters in range the parser commands store a graph entry (mending it), a port's
start and group, a key profile (mending it), a key map, the scan targets and the exception settings of all 32
pipelines; prs.graph_read answers the entry. (R104, R112, R122, R125, R126, R133.) -/
def Obligations.ParserCommandsComplete : Prop :=
  (∀ (s : State) (h : CmdHdr) (index : Nat) (words : List Nat), s.refuseCmd h attrNone = none → index < 512 → graphEntryOk words = true →
      exec (.prsGraphWrite h index words) s = .next (((({ s with prs := { s.prs with
        graph := SMap.set s.prs.graph index words } } : State).mendPrs 0 index).syncGraph).finish h .ok)) ∧
  (∀ (s : State) (h : CmdHdr) (index : Nat), s.refuseCmd h attrNone = none → index < 512 →
      exec (.prsGraphRead h index) s = .next (s.finish h (.val (SMap.getD s.prs.graph index [0, 0, 0, 0, 0, 0, 0, 0])))) ∧
  (∀ (s : State) (h : CmdHdr) (port start group : Nat), s.refuseCmd h attrNone = none → port < 256 → start < 256 → group < 4 →
      exec (.prsPortStart h port start group) s = .next (({ s with prs := { s.prs with
        portStart := SMap.set s.prs.portStart port (start, group) } } : State).finish h .ok)) ∧
  (∀ (s : State) (h : CmdHdr) (index : Nat) (words : List Nat), s.refuseCmd h attrNone = none → index < 32 → keyProfileOk words = true →
      exec (.prsKeyProfile h index words) s = .next ((({ s with prs := { s.prs with
        keyProfiles := SMap.set s.prs.keyProfiles index words } } : State).mendPrs 1 index).finish h .ok)) ∧
  (∀ (s : State) (h : CmdHdr) (group keyClass profile : Nat), s.refuseCmd h attrNone = none → group < 4 → keyClass < 32 → profile < 32 →
      exec (.prsKeyMap h group keyClass profile) s = .next (({ s with prs := { s.prs with
        keyMap := SMap.put 0 s.prs.keyMap (32 * group + keyClass) profile } } : State).finish h .ok)) ∧
  (∀ (s : State) (h : CmdHdr) (ipv4 : List Nat) (geneve : List (Nat × Nat)), s.refuseCmd h attrNone = none → ipv4.length = 4 →
      (∀ t ∈ ipv4, t < 256) → geneve.length = 4 → (∀ t ∈ geneve, t.1 < 65536 ∧ t.2 < 256) →
      exec (.prsScanConfig h ipv4 geneve) s = .next (({ s with prs := { s.prs with
        scanIpv4 := ipv4, scanGeneve := geneve } } : State).finish h .ok)) ∧
  (∀ (s : State) (h : CmdHdr) (conflictAction trapRing trapLen : Nat) (trapEn trapToCriod : Bool), s.refuseCmd h attrNone = none →
      conflictAction < 2 → trapRing < 64 → 64 ≤ trapLen → trapLen ≤ 256 →
      exec (.prsExcConfig h conflictAction trapEn trapToCriod trapRing trapLen) s = .next ((((((s.setAll F.prsCtrl_conflictAction 32
        conflictAction).setAll F.prsCtrl_trapEn 32 (b2n trapEn)).setAll F.prsCtrl_trapToCriod 32 (b2n trapToCriod)).setAll
        F.prsCtrl_trapRing 32 trapRing).setAll F.prsCtrl_trapLen 32 trapLen).finish h .ok))

/-- em.table_config of a table without entries stores its width and key; em.insert of a new rule with room and no lock
held stores it, em.modify gives an entry a new action, em.delete removes it and em.set_membership changes its epochs,
each counted as a committed transaction; em.read answers the entry and clears its hit bit where asked. (R140, R143,
R144, R166.) -/
def Obligations.ExactMatchCommandsComplete : Prop :=
  (∀ (s : State) (h : CmdHdr) (table keyUnits : Nat) (wide : Bool), s.refuseCmd h attrNone = none → table < 16 → 1 ≤ keyUnits →
      keyUnits ≤ (if wide then 8 else 5) → (∀ e ∈ s.cls.em, e.2.table ≠ table) →
      exec (.emTableConfig h table wide keyUnits) s = .next (({ s with cls := { s.cls with
        emTables := SMap.set s.cls.emTables table ⟨wide, keyUnits⟩ } } : State).finish h .ok)) ∧
  (∀ (s : State) (h : CmdHdr) (table : Nat) (key action data : List Nat) (ep0 ep1 stash : Bool) (m : SMap RuleEntry),
      s.refuseCmd h attrNone = none → SMap.has s.cls.emTables table = true → s.emKeyOk table key = true → (ep0 || ep1) = true →
      actionOk action = true → s.emDataOk table data = true → s.oldOnly ep0 ep1 = false → s.emDup table key ep0 ep1 none = false →
      ∀ e : RuleEntry, e = ⟨(SMap.getD s.cls.emTables table ⟨false, 1⟩).wide, table, (SMap.getD s.cls.emTables table ⟨false, 1⟩).keyUnits,
        ep0, ep1, false, key, action, data⟩ →
      s.conflict (ruleLocks s.cls.ruleSeed e) = none → (emCuckoo s.cls.ruleSeed).place s.cls.em e = some (m, stash) →
      ∀ t : State, t = (if stash = true then ((s.setEm m).mendNew 0 s.cls.em m).stashUsed else (s.setEm m).mendNew 0 s.cls.em m) →
      exec (.emInsert h table key ep0 ep1 action data) s = .next ((t.draw.count (C.txCommit (t.freeVal % 32))).finish h .ok)) ∧
  (∀ (s : State) (h : CmdHdr) (table epoch k : Nat) (key action data : List Nat) (e : RuleEntry), s.refuseCmd h attrNone = none →
      table < 16 → epoch < 2 → actionOk action = true → s.emFind table key epoch = some (k, e) → s.oldOnly e.ep0 e.ep1 = false →
      s.conflict (ruleLocks s.cls.ruleSeed e) = none →
      ∀ t : State, t = (s.setEm (SMap.set s.cls.em k { e with action := action, data := if e.wide then data else [] })).mendCls 0 k →
      exec (.emModify h table key epoch action data) s = .next ((t.draw.count (C.txCommit (t.freeVal % 32))).finish h .ok)) ∧
  (∀ (s : State) (h : CmdHdr) (table epoch k : Nat) (key : List Nat) (e : RuleEntry), s.refuseCmd h attrNone = none →
      table < 16 → epoch < 2 → s.emFind table key epoch = some (k, e) → s.oldOnly e.ep0 e.ep1 = false →
      s.conflict (ruleLocks s.cls.ruleSeed e) = none →
      ∀ t : State, t = (s.setEm (SMap.del s.cls.em k)).mendCls 0 k →
      exec (.emDelete h table key epoch) s = .next ((t.draw.count (C.txCommit (t.freeVal % 32))).finish h .ok)) ∧
  (∀ (s : State) (h : CmdHdr) (table epoch k : Nat) (key : List Nat) (ep0 ep1 : Bool) (e : RuleEntry), s.refuseCmd h attrNone = none →
      table < 16 → epoch < 2 → (ep0 || ep1) = true → s.emFind table key epoch = some (k, e) → s.oldOnly e.ep0 e.ep1 = false →
      s.conflict (ruleLocks s.cls.ruleSeed e) = none → s.emDup table key ep0 ep1 (some k) = false →
      ∀ t : State, t = (s.setEm (SMap.set s.cls.em k { e with ep0 := ep0, ep1 := ep1 })).mendCls 0 k →
      exec (.emSetMembership h table key epoch ep0 ep1) s = .next ((t.draw.count (C.txCommit (t.freeVal % 32))).finish h .ok)) ∧
  (∀ (s : State) (h : CmdHdr) (table epoch k : Nat) (key : List Nat) (clearHit : Bool) (e : RuleEntry), s.refuseCmd h attrNone = none →
      table < 16 → epoch < 2 → s.emFind table key epoch = some (k, e) →
      exec (.emRead h table key epoch clearHit) s = .next ((if clearHit then s.setEm (SMap.set s.cls.em k { e with hit := false })
        else s).finish h (.val (ruleImage e))))

/-- cls.class_profile and cls.port_config store what they name; cls.profile_set stores a flow profile that is not
frozen by the epoch or by live records; l2.insert of a new address with room stores it and l2.delete removes one, each
counted as a committed transaction; l2.learn_config sets the learning registers of all pipelines, the ageing time and
the sweep period. (R136, R152, R153, R156, R604.) -/
def Obligations.ClassifierCommandsComplete : Prop :=
  (∀ (s : State) (h : CmdHdr) (index word : Nat), s.refuseCmd h attrNone = none → index < 32 → word < 2 ^ 32 → bitsOf word 10 0 = 0 →
      exec (.clsClassProfile h index word) s = .next ((({ s with cls := { s.cls with
        classProf := SMap.set s.cls.classProf index word } } : State).mendCls 7 index).finish h .ok)) ∧
  (∀ (s : State) (h : CmdHdr) (port vrf vlan unknownSa staticMove : Nat), s.refuseCmd h attrNone = none → port < 256 →
      vrf < 2 ^ 24 → vlan < 4096 → unknownSa < 2 → staticMove < 2 → s.portExists port = true →
      exec (.clsPortConfig h port vrf vlan unknownSa staticMove) s = .next (({ s with cls := { s.cls with
        ports := SMap.set s.cls.ports port ⟨vrf, vlan, unknownSa, staticMove⟩ } } : State).finish h .ok)) ∧
  (∀ (s : State) (h : CmdHdr) (index : Nat) (words old : List Nat), s.refuseCmd h attrNone = none → index < 64 →
      flowProfileOk words = true → (pTimestamp words = true → s.heapBytes ≤ 2 ^ 32) →
      (pTwoPass words = true → (s.fst.descs.filter fun e => bitOf e.2 index).length < 2) →
      old = SMap.getD s.cls.flowProf index [] → (pValid old = true → s.oldOnly (pEp0 old) (pEp1 old) = false) →
      (pValid old = false → pValid words = true → s.oldOnly (pEp0 words) (pEp1 words) = false) →
      (SMap.getD s.cls.liveCount index 0 = 0 ∨ frozenFields old = frozenFields words) →
      exec (.clsProfileSet h index words) s = .next ((({ s with cls := { s.cls with
        flowProf := SMap.set s.cls.flowProf index words } } : State).mendCls 6 index).finish h .ok)) ∧
  (∀ (s : State) (h : CmdHdr) (vlan mac port : Nat) (isStatic stash : Bool) (m : SMap L2Entry), s.refuseCmd h attrNone = none →
      vlan < 4096 → mac < 2 ^ 48 → port < 256 → l2Find s.cls vlan mac = none →
      l2Cuckoo.place s.cls.l2 ⟨vlan, mac, port, isStatic, s.coarseNow, false, false⟩ = some (m, stash) →
      ∀ t u : State, u = ({ s with cls := { s.cls with l2 := m } } : State).mendNew 1 s.cls.l2 m →
      t = (if stash = true then u.stashUsed else u) →
      exec (.l2Insert h vlan mac port isStatic) s = .next ((t.draw.count (C.txCommit (t.freeVal % 32))).finish h .ok)) ∧
  (∀ (s : State) (h : CmdHdr) (vlan mac k : Nat) (e : L2Entry), s.refuseCmd h attrNone = none → vlan < 4096 → mac < 2 ^ 48 →
      l2Find s.cls vlan mac = some (k, e) →
      ∀ t : State, t = (({ s with cls := { s.cls with l2 := SMap.del s.cls.l2 k } } : State).mendCls 1 k) →
      exec (.l2Delete h vlan mac) s = .next ((t.draw.count (C.txCommit (t.freeVal % 32))).finish h .ok)) ∧
  (∀ (s : State) (h : CmdHdr) (toHost : Bool) (ring holdoff rate ageTime sweepPeriod : Nat), s.refuseCmd h attrNone = none →
      ring < 64 → holdoff < 256 → rate < 65536 → 1 ≤ ageTime → ageTime ≤ 2073600 → 1 ≤ sweepPeriod → sweepPeriod ≤ 600 →
      ∀ t : State, t = ((((s.setAll F.clsCtrl_learnToHost 32 (b2n toHost)).setAll F.clsCtrl_learnRing 32 ring).setAll
        F.clsCtrl_learnHoldoff 32 holdoff).setAll F.clsCtrl_learnRate 32 rate) →
      exec (.l2LearnConfig h toHost ring holdoff rate ageTime sweepPeriod) s = .next (({ t with cls := { t.cls with
        l2AgeTime := ageTime, l2SweepPeriod := sweepPeriod } } : State).finish h .ok))

/-- A host route or prefix that is new and has room is stored and a route that is held is removed; a next hop is
stored and mended; an ECMP group takes a run of members; each is counted as a committed transaction. (R147, R149,
R166, R604.) -/
def Obligations.RouteCommandsComplete : Prop :=
  (∀ (s : State) (h : CmdHdr) (vrf addr fwdOp fwdTarget : Nat) (v6 stash : Bool) (m : SMap Route), s.refuseCmd h attrNone = none →
      vrf < 2 ^ 24 → addrOk v6 addr = true → fwdOp ∈ [1, 2, 3] → fwdOk fwdOp fwdTarget = true →
      (∀ e ∈ s.cls.hostRoutes, ¬ (e.2.vrf = vrf ∧ e.2.v6 = v6 ∧ e.2.addr = addr)) →
      hostCuckoo.place s.cls.hostRoutes ⟨vrf, v6, addr, addrBits v6, fwdOp, fwdTarget⟩ = some (m, stash) →
      ∀ t u : State, u = ({ s with cls := { s.cls with hostRoutes := m } } : State).mendNew 2 s.cls.hostRoutes m →
      t = (if stash = true then u.stashUsed else u) →
      exec (.routeHostAdd h vrf v6 addr (addrBits v6) fwdOp fwdTarget) s = .next ((t.draw.count
        (C.txCommit (t.freeVal % 32))).finish h .ok)) ∧
  (∀ (s : State) (h : CmdHdr) (vrf addr plen fwdOp fwdTarget : Nat) (v6 : Bool), s.refuseCmd h attrNone = none →
      vrf < 2 ^ 24 → addrOk v6 addr = true → addr % 2 ^ (addrBits v6 - plen) = 0 → plen ≤ addrBits v6 → fwdOp ∈ [1, 2, 3] →
      fwdOk fwdOp fwdTarget = true →
      (∀ r ∈ s.cls.lpm, ¬ (r.vrf = vrf ∧ r.v6 = v6 ∧ r.addr = addr ∧ r.plen = plen)) →
      (s.cls.lpm.filter fun r => r.v6 == v6).length < (if v6 then 1048576 else 2097152) →
      ∀ t : State, t = ({ s with cls := { s.cls with lpm := ⟨vrf, v6, addr, plen, fwdOp, fwdTarget⟩ :: s.cls.lpm } } : State).mendCls 3
        (Route.mk vrf v6 addr plen fwdOp fwdTarget).lpmIndex →
      exec (.routeLpmAdd h vrf v6 addr plen fwdOp fwdTarget) s = .next ((t.draw.count (C.txCommit (t.freeVal % 32))).finish h .ok)) ∧
  (∀ (s : State) (h : CmdHdr) (vrf addr plen : Nat) (v6 : Bool) (r : Route), s.refuseCmd h attrNone = none → vrf < 2 ^ 24 →
      addrOk v6 addr = true → plen ≤ addrBits v6 →
      s.cls.lpm.find? (fun r => r.vrf == vrf && r.v6 == v6 && r.addr == addr && r.plen == plen) = some r →
      ∀ t : State, t = ({ s with cls := { s.cls with lpm := s.cls.lpm.filter fun r =>
        !(r.vrf == vrf && r.v6 == v6 && r.addr == addr && r.plen == plen) } } : State).mendCls 3 r.lpmIndex →
      exec (.routeDelete h 1 vrf v6 addr plen) s = .next ((t.draw.count (C.txCommit (t.freeVal % 32))).finish h .ok)) ∧
  (∀ (s : State) (h : CmdHdr) (vrf addr k : Nat) (v6 : Bool) (r : Route), s.refuseCmd h attrNone = none → vrf < 2 ^ 24 →
      addrOk v6 addr = true →
      SMap.first? s.cls.hostRoutes (fun _ r => r.vrf == vrf && r.v6 == v6 && r.addr == addr) = some (k, r) →
      ∀ t : State, t = (({ s with cls := { s.cls with hostRoutes := SMap.del s.cls.hostRoutes k } } : State).mendCls 2 k) →
      exec (.routeDelete h 0 vrf v6 addr (addrBits v6)) s = .next ((t.draw.count (C.txCommit (t.freeVal % 32))).finish h .ok)) ∧
  (∀ (s : State) (h : CmdHdr) (index port rewrite backup : Nat) (backupValid : Bool), s.refuseCmd h attrNone = none →
      index < 262144 → port < 256 → rewrite < 65536 → backup < 262144 →
      ∀ t : State, t = (({ s with cls := { s.cls with
        nextHops := SMap.set s.cls.nextHops index ⟨port, rewrite, backup, backupValid⟩ } } : State).mendCls 4 index) →
      exec (.nhSet h index port rewrite backup backupValid) s = .next ((t.draw.count (C.txCommit (t.freeVal % 32))).finish h .ok)) ∧
  (∀ (s : State) (h : CmdHdr) (group hashSel b : Nat) (members : List Nat), s.refuseCmd h attrNone = none → group < 16384 →
      hashSel < 64 → 1 ≤ members.length → members.length ≤ 512 → (∀ m ∈ members, m < 262144) →
      ecmpRun (ecmpHeld s.cls group) members.length = some b →
      ∀ t : State, t = (List.range members.length).foldl (fun t i => t.mendCls 5 (16384 + b + i)) (({ s with cls := { s.cls with
        ecmpGroups := SMap.set s.cls.ecmpGroups group ⟨b, members.length, hashSel⟩,
        ecmpMembers := SMap.setRun s.cls.ecmpMembers b members } } : State).mendCls 5 group) →
      exec (.ecmpSet h group hashSel members) s = .next ((t.draw.count (C.txCommit (t.freeVal % 32))).finish h .ok))

/-- A bank's width and priority are stored where no valid entry stands in the way, a profile is stored; an entry that
is not frozen and whose lock is free is written, has its action or membership changed, or is invalidated, each counted
as a committed transaction; msk.read answers an entry's image and clears its hit bit where asked; the scrubber is
switched in all pipelines. (R170, R173, R178, R180, R190.) -/
def Obligations.MaskedSearchCommandsComplete : Prop :=
  (∀ (s : State) (h : CmdHdr) (bank width prio : Nat), s.refuseCmd h attrNone = none → bank < 16 → width ∈ [1, 2, 4] → prio < 16 →
      (width = (s.mskBank bank).width ∨ ∀ e ∈ s.msk.units, e.1 / 1024 = bank → e.2.valid = false) →
      exec (.mskBankConfig h bank width prio) s = .next (({ s with msk := { s.msk with
        banks := SMap.set s.msk.banks bank ⟨width, prio⟩ } } : State).finish h .ok)) ∧
  (∀ (s : State) (h : CmdHdr) (index : Nat) (words : List Nat), s.refuseCmd h attrNone = none → index < 64 → words.length = 21 →
      (∀ w ∈ words, w < 2 ^ 32) → bitsOf (wordAt words 20) 30 16 = 0 →
      exec (.mskProfileSet h index words) s = .next (({ s with msk := { s.msk with
        profiles := SMap.set s.msk.profiles index words } } : State).finish h .ok)) ∧
  (∀ (s : State) (h : CmdHdr) (bank index : Nat) (ep0 ep1 : Bool) (value mask action : List Nat), s.refuseCmd h attrNone = none →
      bank < 16 → s.mskIn bank index = true → (ep0 || ep1) = true → keyBytesOk value (20 * (s.mskBank bank).width) = true →
      keyBytesOk mask (20 * (s.mskBank bank).width) = true → actionOk action = true → s.mskFrozen bank index = false →
      s.conflict [mskLock bank index] = none →
      ∀ t : State, t = s.mskSet bank index ⟨true, ep0, ep1, (s.mskBank bank).width, value, mask, action⟩ →
      exec (.mskWrite h bank index ep0 ep1 (s.mskBank bank).width value mask action) s = .next
        ((t.draw.count (C.txCommit (t.freeVal % 32))).finish h .ok)) ∧
  (∀ (s : State) (h : CmdHdr) (bank index : Nat) (action : List Nat), s.refuseCmd h attrNone = none → bank < 16 →
      actionOk action = true → s.mskIn bank index = true → (s.mskAt (s.mskIndex bank index)).valid = true →
      s.mskFrozen bank index = false → s.conflict [mskLock bank index] = none →
      ∀ t : State, t = s.mskPutAction (s.mskIndex bank index) action →
      exec (.mskModifyAction h bank index action) s = .next ((t.draw.count (C.txCommit (t.freeVal % 32))).finish h .ok)) ∧
  (∀ (s : State) (h : CmdHdr) (bank index : Nat) (ep0 ep1 : Bool), s.refuseCmd h attrNone = none → bank < 16 →
      (ep0 || ep1) = true → s.mskIn bank index = true → (s.mskAt (s.mskIndex bank index)).valid = true →
      s.mskFrozen bank index = false → s.conflict [mskLock bank index] = none →
      ∀ t : State, t = s.mskControl (s.mskIndex bank index) (fun u => { u with ep0 := ep0, ep1 := ep1 }) →
      exec (.mskSetMembership h bank index ep0 ep1) s = .next ((t.draw.count (C.txCommit (t.freeVal % 32))).finish h .ok)) ∧
  (∀ (s : State) (h : CmdHdr) (bank index : Nat), s.refuseCmd h attrNone = none → bank < 16 →
      s.mskIn bank index = true → (s.mskAt (s.mskIndex bank index)).valid = true →
      s.mskFrozen bank index = false → s.conflict [mskLock bank index] = none →
      ∀ t : State, t = s.mskInvalidate bank index →
      exec (.mskDelete h bank index) s = .next ((t.draw.count (C.txCommit (t.freeVal % 32))).finish h .ok)) ∧
  (∀ (s : State) (h : CmdHdr) (bank index : Nat), s.refuseCmd h attrNone = none → bank < 16 → s.mskIn bank index = true →
      exec (.mskRead h bank index false) s = .next (s.finish h (.val (mskImage (s.mskAt (s.mskIndex bank index)) (s.mskBank bank).width
        (s.msk.suspect.any fun k => k % 16384 == s.mskIndex bank index) (s.msk.hits.any fun k => k % 16384 == s.mskIndex bank index))))) ∧
  (∀ (s : State) (h : CmdHdr) (bank index : Nat), s.refuseCmd h attrNone = none → bank < 16 → s.mskIn bank index = true →
      exec (.mskRead h bank index true) s = .next (({ s with msk := { s.msk with
        hits := s.msk.hits.filter fun k => !(k % 16384 == s.mskIndex bank index) } } : State).finish h
        (.val (mskImage (s.mskAt (s.mskIndex bank index)) (s.mskBank bank).width
        (s.msk.suspect.any fun k => k % 16384 == s.mskIndex bank index) (s.msk.hits.any fun k => k % 16384 == s.mskIndex bank index))))) ∧
  (∀ (s : State) (h : CmdHdr) (scrubEn : Bool), s.refuseCmd h attrNone = none →
      exec (.mskScrubConfig h scrubEn) s = .next ((s.setAll F.mskCtrl_scrubEn 32 (b2n scrubEn)).finish h .ok))

/-- rig.load of a readable image under a known key, outside a drain or restart, loads it into the region that is not
live; rig.entry_set changes an entry that the epoch does not freeze; rig.status answers the versions, the restarts and
the entry table; rig.table_write writes rows of the direct or in-package table; pol.profile_set, lb.pool_set with room
and lb.backend_set store what they name. (R285, R286, R288, R290, R297, R300.) -/
def Obligations.ProgramCommandsComplete : Prop :=
  (∀ (s : State) (h : CmdHdr) (image : List Nat) (key : Nat) (im : RigImage), s.refuseCmd h attrO = none →
      s.getB F.clsEpoch_draining = false → s.rig.restarts = [] →
      (key = 1 ∨ key = 2 ∧ s.boot.fuses.slot1 = true) → readImage image = some im →
      exec (.rigLoad h image key) s = .next ((s.loadImage im (if s.regionLive 0 then 1 else 0) (1 - s.epoch) key).finish h .ok)) ∧
  (∀ (s : State) (h : CmdHdr) (entry limit w0 w1 : Nat) (valid ep0 ep1 : Bool) (m : SMap (Nat × Nat)), s.refuseCmd h attrO = none →
      entry < 256 → limit < 512 → s.entryOf entry = (w0, w1) →
      (bitOf w1 31 = true → s.oldOnly (bitOf w1 29) (bitOf w1 30) = false) →
      (bitOf w1 31 = false → valid = true → s.oldOnly ep0 ep1 = false) →
      m = SMap.put (0, 0) s.rig.entries entry (w0, b2n valid <<< 31 + b2n ep1 <<< 30 + b2n ep0 <<< 29 + limit <<< 20) →
      exec (.rigEntrySet h entry valid ep0 ep1 limit) s = .next (({ s with rig := { s.rig with
        entries := m, golden := (s.rig.golden.1, m, s.rig.golden.2.2) } } : State).finish h .ok)) ∧
  (∀ (s : State) (h : CmdHdr), s.refuseCmd h attrNone = none →
      exec (.rigStatus h) s = .next (s.finish h (.bulkOf [(s.rd .rigUcodeVersion 0).toNat, (s.rd .rigUcodeVersion 1).toNat,
        (List.range 32).foldl (fun a n => a + s.getF F.rigCtrl_restarts n) 0]
        ((List.range 256).flatMap fun e => [(s.entryOf e).1, (s.entryOf e).2])))) ∧
  (∀ (s : State) (h : CmdHdr) (first : Nat) (rows : List (List Nat)), s.refuseCmd h attrNone = none → first < 65536 →
      first + rows.length ≤ 65536 → (∀ r ∈ rows, r.length = 4 ∧ ∀ w ∈ r, w < 2 ^ 32) →
      exec (.rigTableWrite h 0 first rows) s = .next (({ s with rig := { s.rig with
        direct := SMap.setRun s.rig.direct first rows } } : State).finish h .ok)) ∧
  (∀ (s : State) (h : CmdHdr) (first : Nat) (rows : List (List Nat)), s.refuseCmd h attrNone = none → first < 2 ^ 23 →
      first + rows.length ≤ 2 ^ 23 → (∀ r ∈ rows, r.length = 16 ∧ ∀ w ∈ r, w < 2 ^ 32) →
      exec (.rigTableWrite h 1 first rows) s = .next ((s.putHbmRows first rows).finish h .ok)) ∧
  (∀ (s : State) (h : CmdHdr) (index cir pir cbs pbs : Nat) (aware : Bool), s.refuseCmd h attrNone = none → index < 16384 →
      cir < 2 ^ 32 → pir < 2 ^ 32 → cbs < 2 ^ 32 → pbs < 2 ^ 32 →
      exec (.polProfileSet h index cir pir cbs pbs aware) s = .next (({ s with rig := { s.rig with
        policers := SMap.set s.rig.policers index ⟨cir, pir, cbs, pbs, aware⟩ } } : State).finish h .ok)) ∧
  (∀ (s : State) (h : CmdHdr) (pool seed base : Nat) (backends : List Nat), s.refuseCmd h attrNone = none → pool < 1024 → seed < 2 ^ 32 →
      1 ≤ backends.length → backends.length ≤ 4096 → backends.eraseDups = backends → (∀ b ∈ backends, b < 16384) →
      s.tablePlace = some base → SMap.find? s.rig.pools pool = none →
      ∀ t : State, t = s.draw.putHbmRows base (slotRows (newSlots [] backends)) →
      exec (.lbPoolSet h pool seed backends) s = .next (({ t with rig := { t.rig with
        pools := SMap.set t.rig.pools pool (base, backends),
        direct := SMap.set t.rig.direct (poolRow pool) [seed, base, 0, 0] } } : State).finish h .ok)) ∧
  (∀ (s : State) (h : CmdHdr) (backend address port state : Nat), s.refuseCmd h attrNone = none → backend < 16384 → address < 2 ^ 32 →
      port < 65536 → state < 3 →
      exec (.lbBackendSet h backend address port state) s = .next (({ s with rig := { s.rig with
        direct := SMap.set s.rig.direct backend [address, port <<< 16 + state, 0, 0] } } : State).finish h .ok))

/-- With parameters in range and reserves that fit, the queue-manager commands store class profiles, port settings,
the global reserves and rates, trap destinations, replication groups, mirror sessions and sampling rates;
iqm.voq_status answers a queue's cells, balance, backlog and the age of its head. (R308, R311, R325, R334, R337, R338,
R342.) -/
def Obligations.QueueCommandsComplete : Prop :=
  (∀ (s : State) (h : CmdHdr) (profile cls minCells alpha maxCells yellow red ageLimit : Nat), s.refuseCmd h attrNone = none →
      profile < 32 → cls < 8 → minCells < 1024 → alpha < 10 → 1 ≤ maxCells → maxCells ≤ 24576 → yellow ≤ 8 → red ≤ 8 → 1 ≤ ageLimit →
      ageLimit ≤ 2000000 →
      ∀ t : State, t = { s with pk := { s.pk with
        qprof := SMap.put QClass.reset s.pk.qprof (8 * profile + cls) ⟨minCells, alpha, maxCells, yellow, red, ageLimit⟩ } } →
      t.reservesFit = true →
      exec (.iqmProfileSet h profile cls minCells alpha maxCells yellow red ageLimit) s = .next (t.finish h .ok)) ∧
  (∀ (s : State) (h : CmdHdr) (port profile defClass sampleN : Nat) (pcpMap : List Nat) (inSession egSession : Option Nat),
      s.refuseCmd h attrNone = none → port < 256 → profile < 32 → pcpMap.length = 8 → (∀ c ∈ pcpMap, c < 8) → defClass < 8 →
      sessionOk inSession = true → sessionOk egSession = true → sampleN ≤ 2 ^ 24 →
      (s.portExists port = true ∨ (s.linkOfPort port).isSome = true) →
      ∀ t : State, t = { s with pk := { s.pk with
        qports := SMap.put QPort.reset s.pk.qports port ⟨profile, pcpMap, defClass, inSession, egSession, sampleN⟩ } } →
      t.reservesFit = true →
      exec (.iqmPortConfig h port profile pcpMap defClass inSession egSession sampleN) s = .next (t.finish h .ok)) ∧
  (∀ (s : State) (h : CmdHdr) (arrivalReserve mcReserve mirrorMax copyRate sampleLen : Nat) (ctEn : Bool), s.refuseCmd h attrNone = none →
      1 ≤ copyRate → copyRate ≤ 255 → 64 ≤ sampleLen → sampleLen ≤ 512 →
      ∀ t : State, t = { s with pk := { s.pk with arrivalReserve := arrivalReserve, mcReserve := mcReserve, mirrorMax := mirrorMax } } →
      t.reservesFit = true →
      exec (.iqmGlobalConfig h arrivalReserve mcReserve mirrorMax copyRate sampleLen ctEn) s = .next ((((t.setAll F.iqmCtrl_copyRate 32
        copyRate).setAll F.iqmCtrl_sampleLen 32 sampleLen).setAll F.iqmCtrl_ctEn 32 (b2n ctEn)).finish h .ok)) ∧
  (∀ (s : State) (h : CmdHdr) (index ring trapLen : Nat) (toCriod : Bool), s.refuseCmd h attrNone = none → index < 4096 → ring < 64 →
      64 ≤ trapLen → trapLen ≤ 512 →
      exec (.iqmTrapConfig h index toCriod ring trapLen) s = .next (({ s with pk := { s.pk with
        traps := SMap.set s.pk.traps index ⟨toCriod, ring, trapLen⟩ } } : State).finish h .ok)) ∧
  (∀ (s : State) (h : CmdHdr) (pipe port cls : Nat), s.refuseCmd h attrNone = none → pipe < 32 → port < 256 → cls < 8 →
      s.voq pipe port cls = [] →
      exec (.iqmVoqStatus h pipe port cls) s = .next (s.finish h (.val [s.voqCells pipe port cls,
        signedField 32 (SMap.getD s.pk.balance (voqKey pipe port cls) 0), b2n (s.pk.backlog.contains (voqKey pipe port cls)), 0]))) ∧
  (∀ (s : State) (h : CmdHdr) (pipe port cls id : Nat) (p : Copy) (rest : List (Nat × Copy)), s.refuseCmd h attrNone = none → pipe < 32 →
      port < 256 → cls < 8 → s.voq pipe port cls = (id, p) :: rest →
      exec (.iqmVoqStatus h pipe port cls) s = .next (s.finish h (.val [s.voqCells pipe port cls,
        signedField 32 (SMap.getD s.pk.balance (voqKey pipe port cls) 0), b2n (s.pk.backlog.contains (voqKey pipe port cls)),
        (wrapDiff (shortTime (s.nowAt (pipePoint p.pipe))) p.tAdm 32 % 2 ^ 32).toNat]))) ∧
  (∀ (s : State) (h : CmdHdr) (group : Nat) (prune : Bool) (members : List (Nat × Nat × Option Nat)), s.refuseCmd h attrNone = none →
      group < 16384 → 1 ≤ members.length → members.length ≤ 256 →
      (∀ m ∈ members, m.1 < 256 ∧ m.2.1 < 2 ^ 18 ∧ ∀ c, m.2.2 = some c → c < 8) →
      ((s.pk.groups.filter fun e => e.1 != group).foldl (fun a e => a + e.2.members.length) 0) + members.length ≤ 262144 →
      exec (.replGroupSet h group prune members) s = .next (({ s with pk := { s.pk with
        groups := SMap.set s.pk.groups group ⟨prune, members⟩ } } : State).finish h .ok)) ∧
  (∀ (s : State) (h : CmdHdr) (session : Nat) (m : MirrorArg), s.refuseCmd h attrNone = none → session < 64 → m.dest < 3 → m.port < 256 →
      m.cls < 8 → m.ring < 64 → (m.trunc = 0 ∨ (64 ≤ m.trunc ∧ m.trunc ≤ 512)) → m.srcAddr.length = (if m.ipv6 then 16 else 4) →
      m.dstAddr.length = (if m.ipv6 then 16 else 4) → m.dscp < 64 → m.ttl < 256 → m.nextHop < 2 ^ 18 →
      exec (.mirrorSessionSet h session m) s = .next (({ s with pk := { s.pk with sessions := SMap.set s.pk.sessions session ⟨m.dest, m.port, m.cls, m.ring, m.trunc, m.gre, m.ipv6, m.srcAddr, m.dstAddr, m.dscp, m.ttl, m.nextHop⟩ } } : State).finish h .ok)) ∧
  (∀ (s : State) (h : CmdHdr) (profile n : Nat), s.refuseCmd h attrNone = none → profile < 64 → n ≤ 2 ^ 24 →
      exec (.smpProfileSet h profile n) s = .next (({ s with pk := { s.pk with
        sampleProf := SMap.put 0 s.pk.sampleProf profile n } } : State).finish h .ok))

/-- On ports that exist, with parameters in range, the egress commands store the class schedule and shaped classes, a
shaper (started afresh, or off), the elimination switch and gate lead, the gate state without time, rewrite entries
(mended), the failover holdoff, and the latent-error settings and monitors. (R347, R356, R362, R364, R367, R368,
R370.) -/
def Obligations.EgressCommandsComplete : Prop :=
  (∀ (s : State) (h : CmdHdr) (port shapedMask : Nat) (classes : List (Bool × Nat)), s.refuseCmd h attrNone = none → port < 256 →
      classes.length = 8 → (∀ c ∈ classes, c.1 = true → 1 ≤ c.2 ∧ c.2 ≤ 127) → shapedMask < 256 → s.portExists port = true →
      exec (.egsSchedConfig h port classes shapedMask) s = .next (({ s with egs := { s.egs with
        sched := classes.zipIdx.foldl (fun a e => SMap.put SchedClass.reset a (8 * port + e.2)
          (if e.1.1 then ⟨true, e.1.2, 0⟩ else SchedClass.reset)) s.egs.sched,
        portShaped := SMap.put 0 s.egs.portShaped port shapedMask } } : State).finish h .ok)) ∧
  (∀ (s : State) (h : CmdHdr) (port shaper rate burst overhead : Nat) (hi lo : Int) (zeroReset : Bool), s.refuseCmd h attrNone = none →
      port < 256 → shaper < 9 → s.portExists port = true →
      exec (.egsShaperSet h port shaper 0 rate burst overhead hi lo zeroReset) s = .next
        (((s.unpark (shaperKey port shaper)).setShaper (shaperKey port shaper) Shaper.reset).finish h .ok)) ∧
  (∀ (s : State) (h : CmdHdr) (port shaper rate burst overhead : Nat) (hi lo : Int) (zeroReset : Bool), s.refuseCmd h attrNone = none →
      port < 256 → shaper < 9 → 8000 ≤ rate → rate ≤ 1600000000000 → 64 ≤ burst → burst ≤ 16 * 2 ^ 20 → overhead < 64 →
      s.portExists port = true →
      exec (.egsShaperSet h port shaper 1 rate burst overhead hi lo zeroReset) s = .next
        (((s.unpark (shaperKey port shaper)).setShaper (shaperKey port shaper) ((s.unpark (shaperKey port shaper)).shaperStart
          (shaperKey port shaper) ⟨1, rate, burst, overhead, hi, lo, zeroReset, 0, 0, 0⟩)).finish h .ok)) ∧
  (∀ (s : State) (h : CmdHdr) (port gateLead : Nat) (frerElim : Bool), s.refuseCmd h attrNone = none → port < 256 →
      gateLead < 65536 → s.portExists port = true →
      exec (.egsPortConfig h port frerElim gateLead) s = .next ((({ s with egs := { s.egs with
        noElim := (if frerElim then s.egs.noElim.filter (· != port) else port :: s.egs.noElim.filter (· != port)) } } : State).setF
        F.egsCtrl_gateLead (pipeOf port) gateLead).finish h .ok)) ∧
  (∀ (s : State) (h : CmdHdr) (state mask : Nat), s.refuseCmd h attrNone = none → state < 3 → mask < 256 →
      exec (.egsUnlockedConfig h state mask) s = .next (((s.setAll F.egsCtrl_unlockedGateState 32 state).setAll F.egsCtrl_unlockedMask 32
        mask).finish h .ok)) ∧
  (∀ (s : State) (h : CmdHdr) (index : Nat) (words : List Nat), s.refuseCmd h attrNone = none → 1 ≤ index → index < 65536 →
      words.length = 4 → (∀ w ∈ words, w < 2 ^ 32) → bitsOf (wordAt words 3) 25 16 = 0 →
      exec (.egsRewriteSet h index words) s = .next (({ s with egs := { s.egs with
        rewrites := SMap.set s.egs.rewrites index words, badRewrite := s.egs.badRewrite.filter (· != index) } } : State).finish h .ok)) ∧
  (∀ (s : State) (h : CmdHdr) (revertHoldoff : Nat), s.refuseCmd h attrNone = none → revertHoldoff ≤ 60000 →
      exec (.egsFailoverConfig h revertHoldoff) s = .next (({ s with egs := { s.egs with
        revertHoldoff := revertHoldoff } } : State).finish h .ok)) ∧
  (∀ (s : State) (h : CmdHdr) (latentEn : Bool) (period : Nat), s.refuseCmd h attrNone = none → 100 ≤ period → period ≤ 60000 →
      exec (.redConfig h latentEn period) s = .next (((s.setB F.redCtrl_latentEn 0 latentEn).setF F.redCtrl_latentPeriod 0 period).finish h .ok)) ∧
  (∀ (s : State) (h : CmdHdr) (monitor handle n threshold : Nat) (enable : Bool), s.refuseCmd h attrNone = none → monitor < 4096 →
      handle < 2 ^ 29 → 2 ≤ n → n ≤ 8 → threshold < 2 ^ 32 →
      exec (.redMonitorSet h monitor handle n threshold enable) s = .next ((({ s with egs := { s.egs with monitors :=
        (if enable then SMap.set s.egs.monitors monitor ⟨handle, n, threshold, 0, 0⟩ else SMap.del s.egs.monitors monitor) } } : State).syncRed).finish
        h .ok))
end

