-- ==== Sys2Proof/Laws/Maps.lean ====
section
/-! SUPPORT. The laws of the sparse maps: reading after writing, and that every operation keeps the keys rising. -/

namespace Sys2Proof.Machine

variable {α : Type}

/-- What was set is found, whatever the form of the map. -/
@[simp] theorem SMap.find?_set_self (m : SMap α) (k : Nat) (v : α) : SMap.find? (SMap.set m k v) k = some v := by
  induction m with
  | nil => simp [SMap.set, SMap.find?]
  | cons e m ih =>
    obtain ⟨k', v'⟩ := e
    simp only [SMap.set]
    split
    · simp [SMap.find?]
    · split
      · simp [SMap.find?]
      · simp_all [SMap.find?]

theorem SMap.find?_set (m : SMap α) (k : Nat) (v : α) (k' : Nat) (h : SMap.rising m = true) :
    SMap.find? (SMap.set m k v) k' = if k' = k then some v else SMap.find? m k' := by
  induction m with
  | nil => simp [SMap.set, SMap.find?]
  | cons e rest ih =>
    obtain ⟨k0, v0⟩ := e
    have hr : SMap.rising rest = true := by
      cases rest with
      | nil => rfl
      | cons e' r' => simp only [SMap.rising, Bool.and_eq_true] at h; exact h.2
    simp only [SMap.set]
    split
    · simp only [SMap.find?]
    · split
      · subst_vars; simp only [SMap.find?]; split <;> rfl
      · rename_i hlt hne
        simp only [SMap.find?, ih hr]
        by_cases h1 : k' = k0
        · subst h1; simp [Ne.symm hne]
        · simp [h1]

theorem SMap.rising_cons {k : Nat} {v : α} {m : SMap α} :
    SMap.rising ((k, v) :: m) = true ↔ (∀ e ∈ m, k < e.1) ∧ SMap.rising m = true := by
  induction m generalizing k v with
  | nil => simp [SMap.rising]
  | cons e rest ih =>
    obtain ⟨k0, v0⟩ := e
    simp only [SMap.rising, Bool.and_eq_true, decide_eq_true_eq, List.mem_cons, forall_eq_or_imp]
    constructor
    · rintro ⟨h1, h2⟩
      refine ⟨⟨h1, fun e he => ?_⟩, h2⟩
      exact Nat.lt_trans h1 ((ih.1 h2).1 e he)
    · rintro ⟨⟨h1, _⟩, h2⟩
      exact ⟨h1, h2⟩

theorem SMap.mem_set {m : SMap α} {k : Nat} {v : α} {e : Nat × α} (h : e ∈ SMap.set m k v) : e = (k, v) ∨ e ∈ m := by
  induction m with
  | nil => simpa [SMap.set] using h
  | cons e0 rest ih =>
    obtain ⟨k0, v0⟩ := e0
    simp only [SMap.set] at h
    split at h
    · simpa using h
    · split at h
      · simp only [List.mem_cons] at h ⊢
        rcases h with h | h
        · exact Or.inl h
        · exact Or.inr (Or.inr h)
      · simp only [List.mem_cons] at h ⊢
        rcases h with h | h
        · exact Or.inr (Or.inl h)
        · rcases ih h with h | h
          · exact Or.inl h
          · exact Or.inr (Or.inr h)

theorem SMap.rising_set {m : SMap α} (k : Nat) (v : α) (h : SMap.rising m = true) :
    SMap.rising (SMap.set m k v) = true := by
  induction m with
  | nil => rfl
  | cons e rest ih =>
    obtain ⟨k0, v0⟩ := e
    rw [SMap.rising_cons] at h
    simp only [SMap.set]
    split
    · rename_i hlt
      rw [SMap.rising_cons, SMap.rising_cons]
      refine ⟨fun e he => ?_, h⟩
      rcases List.mem_cons.1 he with rfl | he
      · exact hlt
      · exact Nat.lt_trans hlt (h.1 e he)
    · split
      · subst_vars; rw [SMap.rising_cons]; exact h
      · rw [SMap.rising_cons]
        refine ⟨fun e he => ?_, ih h.2⟩
        rcases SMap.mem_set he with rfl | he
        · simp; omega
        · exact h.1 e he

theorem SMap.mem_del {m : SMap α} {k : Nat} {e : Nat × α} (h : e ∈ SMap.del m k) : e ∈ m := by
  induction m with
  | nil => simp [SMap.del] at h
  | cons e0 rest ih =>
    obtain ⟨k0, v0⟩ := e0
    simp only [SMap.del] at h
    split at h
    · exact List.mem_cons_of_mem _ h
    · rcases List.mem_cons.1 h with rfl | h
      · exact List.mem_cons_self
      · exact List.mem_cons_of_mem _ (ih h)

theorem SMap.rising_del {m : SMap α} (k : Nat) (h : SMap.rising m = true) : SMap.rising (SMap.del m k) = true := by
  induction m with
  | nil => rfl
  | cons e rest ih =>
    obtain ⟨k0, v0⟩ := e
    rw [SMap.rising_cons] at h
    simp only [SMap.del]
    split
    · exact h.2
    · rw [SMap.rising_cons]; exact ⟨fun e he => h.1 e (SMap.mem_del he), ih h.2⟩

theorem SMap.find?_none_of_lt {m : SMap α} {k : Nat} (h : ∀ e ∈ m, k < e.1) : SMap.find? m k = none := by
  induction m with
  | nil => rfl
  | cons e rest ih =>
    obtain ⟨k0, v0⟩ := e
    have := h (k0, v0) List.mem_cons_self
    simp only [SMap.find?]
    rw [if_neg (by simp only at this; omega)]
    exact ih fun e he => h e (List.mem_cons_of_mem _ he)

theorem SMap.find?_del (m : SMap α) (k k' : Nat) (h : SMap.rising m = true) :
    SMap.find? (SMap.del m k) k' = if k' = k then none else SMap.find? m k' := by
  induction m with
  | nil => simp [SMap.del, SMap.find?]
  | cons e rest ih =>
    obtain ⟨k0, v0⟩ := e
    rw [SMap.rising_cons] at h
    simp only [SMap.del]
    split
    · rename_i hk
      subst hk
      by_cases h1 : k' = k
      · subst h1; simpa using SMap.find?_none_of_lt h.1
      · simp [SMap.find?, h1]
    · rename_i hne
      simp only [SMap.find?, ih h.2]
      by_cases h1 : k' = k0
      · subst h1; simp [Ne.symm hne]
      · simp [h1]

variable [DecidableEq α]

theorem SMap.mem_put {d : α} {m : SMap α} {k : Nat} {v : α} {e : Nat × α} (h : e ∈ SMap.put d m k v) :
    (e = (k, v) ∧ v ≠ d) ∨ e ∈ m := by
  unfold SMap.put at h
  split at h
  · exact Or.inr (SMap.mem_del h)
  · rename_i hv
    rcases SMap.mem_set h with h | h
    · exact Or.inl ⟨h, hv⟩
    · exact Or.inr h

theorem SMap.rising_put {m : SMap α} (d : α) (k : Nat) (v : α) (h : SMap.rising m = true) :
    SMap.rising (SMap.put d m k v) = true := by
  unfold SMap.put; split
  · exact SMap.rising_del k h
  · exact SMap.rising_set k v h

/-- A map read after a write: the value at the place written, what it held elsewhere. -/
theorem SMap.getD_put (d : α) (m : SMap α) (k : Nat) (v : α) (k' : Nat) (h : SMap.rising m = true) :
    SMap.getD (SMap.put d m k v) k' d = if k' = k then v else SMap.getD m k' d := by
  unfold SMap.put SMap.getD
  split
  · rename_i hv; rw [SMap.find?_del m k k' h]; subst hv; split <;> rfl
  · rw [SMap.find?_set m k v k' h]; split <;> rfl

omit [DecidableEq α] in
theorem SMap.rising_filter {m : SMap α} (p : Nat × α → Bool) (h : SMap.rising m = true) :
    SMap.rising (List.filter p m) = true := by
  induction m with
  | nil => rfl
  | cons e rest ih =>
    obtain ⟨k0, v0⟩ := e
    rw [SMap.rising_cons] at h
    rw [List.filter_cons]
    split
    · rw [SMap.rising_cons]
      exact ⟨fun e he => h.1 e ((List.mem_filter.1 he).1), ih h.2⟩
    · exact ih h.2

omit [DecidableEq α] in
theorem SMap.find?_filter (m : SMap α) (p : Nat × α → Bool) (k : Nat) (h : SMap.rising m = true) :
    SMap.find? (List.filter p m) k = (SMap.find? m k).filter fun v => p (k, v) := by
  induction m with
  | nil => rfl
  | cons e rest ih =>
    obtain ⟨k0, v0⟩ := e
    rw [SMap.rising_cons] at h
    rw [List.filter_cons]
    by_cases h1 : k = k0
    · subst h1
      split
      · rename_i hp; simp only [SMap.find?, if_true, Option.filter, hp]
      · rename_i hp
        simp only [SMap.find?, if_true, Option.filter, hp]
        rw [SMap.find?_none_of_lt fun e he => h.1 e ((List.mem_filter.1 he).1)]
        simp
    · split
      · simp only [SMap.find?, h1, if_false]; exact ih h.2
      · simp only [SMap.find?, h1, if_false]; exact ih h.2

end Sys2Proof.Machine
end

