-- ==== Sys2Proof/Laws/Base.lean ====
section
/-! SUPPORT. The laws of registers, fields and counters, and the rules by which `Keeps` is proved. -/

namespace Sys2Proof.Machine

/-! ## Register keys -/

theorem Reg.ctorIdx_lt (r : Reg) : r.ctorIdx < 256 := by cases r <;> decide

theorem Reg.ctorIdx_inj {r r' : Reg} (h : r.ctorIdx = r'.ctorIdx) : r = r' := by
  have h1 := Reg.ofNat_ctorIdx r
  have h2 := Reg.ofNat_ctorIdx r'
  rw [h] at h1
  rw [← h1, h2]

/-- No two instances of registers share a key. -/
theorem Reg.key_inj {r r' : Reg} {i i' : Nat} (h : r.key i = r'.key i') : r = r' ∧ i = i' := by
  unfold Reg.key at h
  have h1 := r.ctorIdx_lt
  have h2 := r'.ctorIdx_lt
  have h3 : i = i' := by omega
  have h4 : r.ctorIdx = r'.ctorIdx := by omega
  exact ⟨Reg.ctorIdx_inj h4, h3⟩

/-- A register instance read after one is written. -/
theorem State.rd_wr (s : State) (r : Reg) (i : Nat) (w : BitVec 32) (r' : Reg) (i' : Nat)
    (h : SMap.rising s.regs = true) :
    (s.wr r i w).rd r' i' = if r' = r ∧ i' = i then w else s.rd r' i' := by
  unfold State.rd State.wr
  by_cases hr : r' = r ∧ i' = i
  · obtain ⟨rfl, rfl⟩ := hr
    simp only [and_self, if_true]
    rw [SMap.getD_put _ _ _ _ _ h]; simp
  · rw [if_neg hr]
    have hk : ¬ Reg.key r' i' = Reg.key r i := fun e => hr (Reg.key_inj e)
    simp only [SMap.getD, SMap.put]
    split
    · rw [SMap.find?_del _ _ _ h, if_neg hk]
    · rw [SMap.find?_set _ _ _ _ h, if_neg hk]

/-! ## Fields -/

theorem bitOf_eq (w i : Nat) : bitOf w i = w.testBit i := by
  unfold bitOf
  rw [Nat.testBit_eq_decide_div_mod_eq, Nat.shiftRight_eq_div_pow]
  by_cases h : w / 2 ^ i % 2 = 1 <;> simp [h]

theorem bitsOf_eq (w hi lo : Nat) : bitsOf w hi lo = w / 2 ^ lo % 2 ^ (hi - lo + 1) := by
  unfold bitsOf; rw [Nat.shiftRight_eq_div_pow]

/-- A word with a field replaced, bit by bit. -/
theorem withField_testBit (w : BitVec 32) (hi lo v j : Nat) (hl : lo ≤ hi) (hj : j < 32) :
    (withField w hi lo v).toNat.testBit j =
      if lo ≤ j ∧ j ≤ hi then v.testBit (j - lo) else w.toNat.testBit j := by
  obtain ⟨n, hn⟩ : ∃ n, n = hi - lo + 1 := ⟨_, rfl⟩
  -- the word as its three parts
  have hdiv : w.toNat / 2 ^ lo = (w.toNat / 2 ^ (lo + n)) * 2 ^ n + w.toNat / 2 ^ lo % 2 ^ n := by
    rw [Nat.pow_add, ← Nat.div_div_eq_div_mul, Nat.div_add_mod' (w.toNat / 2 ^ lo) (2 ^ n)]
  have hsplit : w.toNat = ((w.toNat / 2 ^ (lo + n)) * 2 ^ n + w.toNat / 2 ^ lo % 2 ^ n) * 2 ^ lo + w.toNat % 2 ^ lo := by
    rw [← hdiv, Nat.div_add_mod']
  have hnew : (withField w hi lo v).toNat =
      (((w.toNat / 2 ^ (lo + n)) * 2 ^ n + v % 2 ^ n) * 2 ^ lo + w.toNat % 2 ^ lo) % 2 ^ 32 := by
    unfold withField fieldOf
    rw [bitsOf_eq, BitVec.toNat_ofNat, Nat.shiftLeft_eq, Nat.shiftLeft_eq, ← hn]
    congr 1
    have e1 : w.toNat - w.toNat / 2 ^ lo % 2 ^ n * 2 ^ lo =
        (w.toNat / 2 ^ (lo + n)) * 2 ^ n * 2 ^ lo + w.toNat % 2 ^ lo := by
      conv => lhs; lhs; rw [hsplit]
      rw [Nat.add_mul]; omega
    rw [e1, Nat.add_mul]; omega
  rw [hnew, Nat.testBit_mod_two_pow]
  simp only [hj, decide_true, Bool.true_and]
  have hlow : w.toNat % 2 ^ lo < 2 ^ lo := Nat.mod_lt _ (Nat.two_pow_pos lo)
  have hv : v % 2 ^ n < 2 ^ n := Nat.mod_lt _ (Nat.two_pow_pos n)
  rw [Nat.mul_comm _ (2 ^ lo), Nat.testBit_two_pow_mul_add _ hlow]
  by_cases h1 : j < lo
  · rw [if_pos h1, if_neg (by omega), Nat.testBit_mod_two_pow]; simp [h1]
  · rw [if_neg h1, Nat.mul_comm _ (2 ^ n), Nat.testBit_two_pow_mul_add _ hv]
    by_cases h2 : j ≤ hi
    · rw [if_pos (by omega), if_pos ⟨by omega, h2⟩, Nat.testBit_mod_two_pow]
      have : j - lo < n := by omega
      simp [this]
    · rw [if_neg (by omega), if_neg (by omega), ← Nat.shiftRight_eq_div_pow, Nat.testBit_shiftRight]
      congr 1; omega

theorem Reg.fixedMask_lt (r : Reg) : r.fixedMask < 2 ^ 32 := by cases r <;> decide

/-- A free field leaves the fixed bits of its register alone. -/
theorem withField_fixed (f : Fld) (hf : f.free = true) (w : BitVec 32) (v : Nat) :
    Nat.land (withField w f.hi f.lo v).toNat f.reg.fixedMask = Nat.land w.toNat f.reg.fixedMask := by
  simp only [Fld.free, Bool.and_eq_true, decide_eq_true_eq, beq_iff_eq] at hf
  obtain ⟨hl, hm⟩ := hf
  apply Nat.eq_of_testBit_eq
  intro j
  show (_ &&& _ : Nat).testBit j = (_ &&& _ : Nat).testBit j
  rw [Nat.testBit_and, Nat.testBit_and]
  by_cases hj : 32 ≤ j
  · have hz : f.reg.fixedMask.testBit j = false := Nat.testBit_lt_two_pow
      (Nat.lt_of_lt_of_le f.reg.fixedMask_lt (Nat.pow_le_pow_right (by omega) (by omega)))
    rw [hz, Bool.and_false, Bool.and_false]
  have hj32 : j < 32 := by omega
  rw [withField_testBit _ _ _ _ _ hl hj32]
  split
  · rename_i hj
    have hb : (((2 ^ (f.hi - f.lo + 1) - 1) <<< f.lo) &&& f.reg.fixedMask : Nat).testBit j = false := by
      have hm' : ((2 ^ (f.hi - f.lo + 1) - 1) <<< f.lo) &&& f.reg.fixedMask = 0 := hm
      rw [hm']; simp
    rw [Nat.testBit_and, Nat.testBit_shiftLeft, Nat.testBit_two_pow_sub_one] at hb
    have h1 : j ≥ f.lo := hj.1
    have h2 : j - f.lo < f.hi - f.lo + 1 := by omega
    simp only [h1, h2, decide_true, Bool.true_and] at hb
    simp [hb]
  · rfl

/-- A field above bit 31 is free: writing it changes nothing. -/
theorem Fld.free_high {r : Reg} {hi lo : Nat} (hl : lo ≤ hi) (h : 32 ≤ lo) : Fld.free ⟨r, hi, lo⟩ = true := by
  simp only [Fld.free, hl, decide_true, Bool.true_and, beq_iff_eq]
  apply Nat.eq_of_testBit_eq
  intro j
  show (_ &&& _ : Nat).testBit j = _
  rw [Nat.testBit_and, Nat.testBit_shiftLeft, Nat.zero_testBit]
  by_cases hj : j < 32
  · have : ¬ lo ≤ j := by omega
    simp [this]
  · have hz : r.fixedMask.testBit j = false := Nat.testBit_lt_two_pow
      (Nat.lt_of_lt_of_le r.fixedMask_lt (Nat.pow_le_pow_right (by omega) (by omega)))
    simp [hz]

/-! ## Keeps -/

theorem Keeps.refl (s : State) : Keeps s s := ⟨rfl, Nat.le_refl _, List.suffix_refl _, id⟩

theorem Keeps.trans {s t u : State} (h : Keeps s t) (k : Keeps t u) : Keeps s u :=
  ⟨k.queue.trans h.queue, Nat.le_trans h.drawn k.drawn, List.IsSuffix.trans h.out k.out, fun i => k.inv (h.inv i)⟩

theorem State.Inv.of_eq {s t : State} (hr : t.regs = s.regs) (hc : t.ctrs = s.ctrs) (h : s.Inv) : t.Inv := by
  refine ⟨?_, ?_, ?_⟩
  · have := h.regs; unfold State.regsCanonical at *; rwa [hr]
  · have := h.fixed; unfold State.fixedHeld State.rd at *; rwa [hr]
  · have := h.ctrs; unfold State.ctrsSound at *; rwa [hc]

/-- What does not touch the queue, the outputs, the free values, the registers or the counters keeps a state sound. -/
theorem Keeps.upd {s t u : State} (h : Keeps s t) (hp : u.pending = t.pending) (hd : u.drawn = t.drawn)
    (ho : u.out = t.out) (hr : u.regs = t.regs) (hc : u.ctrs = t.ctrs) : Keeps s u :=
  h.trans ⟨hp, Nat.le_of_eq hd.symm, ho ▸ List.suffix_refl _, State.Inv.of_eq hr hc⟩

theorem Keeps.fst {α : Type} {s u : State} {v : α} {p : State × α} (e : p = (u, v)) (h : Keeps s p.1) : Keeps s u := by
  rw [e] at h; exact h

theorem Keeps.ite {s t u : State} {c : Prop} [Decidable c] (h : Keeps s t) (k : Keeps s u) :
    Keeps s (if c then t else u) := by split <;> assumption

theorem Keeps.foldl {β : Type} {s t : State} {g : State → β → State} (l : List β)
    (hg : ∀ u a, Keeps s u → Keeps s (g u a)) (h : Keeps s t) : Keeps s (l.foldl g t) := by
  induction l generalizing t with
  | nil => exact h
  | cons a l ih => exact ih (hg t a h)

theorem Keeps.foldlFst {β γ : Type} {s : State} {p : State × γ} {g : State × γ → β → State × γ} (l : List β)
    (hg : ∀ u a, Keeps s u.1 → Keeps s (g u a).1) (h : Keeps s p.1) : Keeps s (l.foldl g p).1 := by
  induction l generalizing p with
  | nil => exact h
  | cons a l ih => exact ih (hg p a h)

/-! ## Registers and counters -/

theorem wr_keeps {s t : State} (h : Keeps s t) (r : Reg) (i : Nat) (w : BitVec 32)
    (hw : t.fixedHeld → Nat.land w.toNat r.fixedMask = Nat.land r.resetWord.toNat r.fixedMask) :
    Keeps s (t.wr r i w) := by
  refine h.trans ⟨rfl, Nat.le_refl _, List.suffix_refl _, fun hi => ⟨?_, ?_, ?_⟩⟩
  · refine ⟨SMap.rising_put _ _ _ hi.regs.1, fun e he => ?_⟩
    rcases SMap.mem_put he with ⟨rfl, hv⟩ | he
    · exact ⟨r, i, rfl, hv⟩
    · exact hi.regs.2 e he
  · intro r' i'
    rw [State.rd_wr _ _ _ _ _ _ hi.regs.1]
    split
    · rename_i hr; rw [hr.1]; exact hw hi.fixed
    · exact hi.fixed r' i'
  · exact hi.ctrs

theorem setF_keeps {s t : State} (h : Keeps s t) (f : Fld) (i v : Nat) (hf : f.free = true) : Keeps s (t.setF f i v) :=
  wr_keeps h _ _ _ fun hx => by rw [withField_fixed f hf]; exact hx _ _

theorem setB_keeps {s t : State} (h : Keeps s t) (f : Fld) (i : Nat) (b : Bool) (hf : f.free = true) :
    Keeps s (t.setB f i b) := setF_keeps h f i _ hf

theorem addF_keeps {s t : State} (h : Keeps s t) (f : Fld) (i n : Nat) (hf : f.free = true) : Keeps s (t.addF f i n) :=
  setF_keeps h f i _ hf

theorem maxF_keeps {s t : State} (h : Keeps s t) (f : Fld) (i v : Nat) (hf : f.free = true) : Keeps s (t.maxF f i v) :=
  setF_keeps h f i _ hf

theorem setBit_keeps {s t : State} (h : Keeps s t) (f : Fld) (i b : Nat) (v : Bool) (hf : f.free = true) :
    Keeps s (t.setBit f i b v) := setF_keeps h f i _ hf

/-- A bit of a word set or cleared is a one-bit field written. -/
theorem putBit_eq_withField (w : BitVec 32) (b : Nat) (v : Bool) :
    BitVec.ofNat 32 (putBit w.toNat b v) = withField w b b (b2n v) := by
  unfold putBit withField fieldOf
  have h1 : bitsOf w.toNat b b = b2n (bitOf w.toNat b) := by
    rw [bitsOf_eq]
    unfold bitOf b2n
    rw [Nat.shiftRight_eq_div_pow, Nat.sub_self]
    rcases Nat.mod_two_eq_zero_or_one (w.toNat / 2 ^ b) with h | h <;> simp [h]
  have h2 : b2n v % 2 ^ (b - b + 1) = b2n v := by cases v <;> simp [b2n]
  rw [h1, h2]

theorem putBit_keeps {s t : State} (h : Keeps s t) (r : Reg) (i b : Nat) (v : Bool)
    (hf : Fld.free ⟨r, b, b⟩ = true) : Keeps s (t.wr r i (BitVec.ofNat 32 (putBit (t.rd r i).toNat b v))) := by
  rw [putBit_eq_withField]
  exact setF_keeps h ⟨r, b, b⟩ i (b2n v) hf

theorem CtrVal.add_le (v : CtrVal) (n : Nat) : (v.add n).value ≤ ctrTop := by
  unfold CtrVal.add; split
  · assumption
  · exact Nat.le_refl _

theorem ctrs_keeps {s t : State} (h : Keeps s t) (m : SMap CtrVal)
    (hm : SMap.rising t.ctrs = true → SMap.rising m = true)
    (he : ∀ e ∈ m, e ∈ t.ctrs ∨ (e.2 ≠ ⟨0, false⟩ ∧ e.2.value ≤ ctrTop)) : Keeps s { t with ctrs := m } := by
  refine h.trans ⟨rfl, Nat.le_refl _, List.suffix_refl _, fun hi => ⟨hi.regs, hi.fixed, hm hi.ctrs.1, fun e hm => ?_⟩⟩
  rcases he e hm with h | h
  · exact hi.ctrs.2 e h
  · exact h

theorem putCtr_keeps {s t : State} (h : Keeps s t) (k : Nat) (v : CtrVal) (hv : v.value ≤ ctrTop) :
    Keeps s { t with ctrs := SMap.put ⟨0, false⟩ t.ctrs k v } :=
  ctrs_keeps h _ (SMap.rising_put _ _ _) fun e he => by
    rcases SMap.mem_put he with ⟨rfl, hne⟩ | he
    · exact Or.inr ⟨hne, hv⟩
    · exact Or.inl he

theorem count_keeps {s t : State} (h : Keeps s t) (c : CtrId) (n : Nat) : Keeps s (t.count c n) := by
  unfold State.count
  have h1 := putCtr_keeps h c.key ((t.ctr c).add n) (CtrVal.add_le _ _)
  dsimp only
  split
  · exact setF_keeps h1 _ _ _ (by decide)
  · exact h1

theorem draw_keeps {s t : State} (h : Keeps s t) (n : Nat) : Keeps s { t with drawn := t.drawn + n } :=
  h.trans ⟨rfl, Nat.le_add_right _ _, List.suffix_refl _, State.Inv.of_eq rfl rfl⟩

theorem emit_keeps {s t : State} (h : Keeps s t) (e : OutEvent) : Keeps s (t.emit e) :=
  h.trans ⟨rfl, Nat.le_refl _, List.suffix_cons _ _, State.Inv.of_eq rfl rfl⟩

/-! ## Rules for the shapes a definition has -/

section
variable {s t u : State}

theorem Keeps.mk_iff {tm host flt cnt prs cls port msk pk fst hbm rig egs crd boot stk} :
    Keeps s ⟨t.pending, t.regs, t.ctrs, t.out, t.drawn, tm, host, flt, cnt, prs, cls, port,
      msk, pk, fst, hbm, rig, egs, crd, boot, stk⟩ ↔ Keeps s t :=
  ⟨fun h => Keeps.upd h rfl rfl rfl rfl rfl, fun h => Keeps.upd h rfl rfl rfl rfl rfl⟩

theorem Keeps.mkDraw {n tm host flt cnt prs cls port msk pk fst hbm rig egs crd boot stk} (h : Keeps s t) :
    Keeps s ⟨t.pending, t.regs, t.ctrs, t.out, t.drawn + n, tm, host, flt, cnt, prs, cls, port,
      msk, pk, fst, hbm, rig, egs, crd, boot, stk⟩ :=
  Keeps.upd (draw_keeps h n) rfl rfl rfl rfl rfl

theorem Keeps.iteFst {α : Type} {p q : State × α} {c : Prop} [Decidable c] (h : Keeps s p.1) (k : Keeps s q.1) :
    Keeps s (if c then p else q).1 := by split <;> assumption

theorem Keeps.iteOpt {p q : Option State} {c : Prop} [Decidable c] (h : ∀ u, p = some u → Keeps s u)
    (k : ∀ u, q = some u → Keeps s u) : ∀ u, (if c then p else q) = some u → Keeps s u := by split <;> assumption

theorem Keeps.elim {β : Type} {o : Option β} {f : β → State} (hf : ∀ a, Keeps s (f a)) (h : Keeps s t) :
    Keeps s (o.elim t f) := by cases o <;> simp [h, hf]

/-- A meaning answers only states that follow soundly. -/
def NextKeeps (s : State) (o : Host.Outcome State Fault Refusal) : Prop := ∀ t, o = .next t → Keeps s t

theorem NextKeeps.next (h : Keeps s t) : NextKeeps s (.next t) := fun _ e => by cases e; exact h

theorem NextKeeps.ite {o p : Host.Outcome State Fault Refusal} {c : Prop} [Decidable c] (h : NextKeeps s o)
    (k : NextKeeps s p) : NextKeeps s (if c then o else p) := by split <;> assumption

end

/-! ## Parts of the registers or counters left out -/

theorem regsFilter_keeps {s t : State} (h : Keeps s t) (p : Nat × BitVec 32 → Bool) :
    Keeps s { t with regs := List.filter p t.regs } := by
  refine h.trans ⟨rfl, Nat.le_refl _, List.suffix_refl _, fun hi => ⟨⟨SMap.rising_filter p hi.regs.1, fun e he => ?_⟩, ?_, hi.ctrs⟩⟩
  · exact hi.regs.2 e ((List.mem_filter.1 he).1)
  · intro r i
    have hx := hi.fixed r i
    unfold State.rd SMap.getD at *
    show Nat.land ((SMap.find? (List.filter p t.regs) _).getD _).toNat _ = _
    rw [SMap.find?_filter _ _ _ hi.regs.1]
    cases he : SMap.find? t.regs (r.key i) with
    | none => rfl
    | some v =>
      rw [he] at hx
      simp only [Option.filter]
      split
      · exact hx
      · rfl

theorem Keeps.mkRegsFilter {s t : State} {tm host flt cnt prs cls port msk pk fst hbm rig egs crd boot stk} (h : Keeps s t)
    (p : Nat × BitVec 32 → Bool) :
    Keeps s ⟨t.pending, List.filter p t.regs, t.ctrs, t.out, t.drawn, tm, host, flt, cnt, prs, cls, port,
      msk, pk, fst, hbm, rig, egs, crd, boot, stk⟩ :=
  Keeps.upd (regsFilter_keeps h p) rfl rfl rfl rfl rfl

theorem ctrsFilter_keeps {s t : State} (h : Keeps s t) (p : Nat × CtrVal → Bool) :
    Keeps s { t with ctrs := List.filter p t.ctrs } :=
  ctrs_keeps h _ (SMap.rising_filter p) fun _ he => .inl ((List.mem_filter.1 he).1)

theorem Keeps.mkCtrsFilter {s t : State} {tm host flt cnt prs cls port msk pk fst hbm rig egs crd boot stk} (h : Keeps s t)
    (p : Nat × CtrVal → Bool) :
    Keeps s ⟨t.pending, t.regs, List.filter p t.ctrs, t.out, t.drawn, tm, host, flt, cnt, prs, cls, port,
      msk, pk, fst, hbm, rig, egs, crd, boot, stk⟩ :=
  Keeps.upd (ctrsFilter_keeps h p) rfl rfl rfl rfl rfl

/-- Bits taken out of a word, bit by bit. -/
theorem subLand_testBit (w m j : Nat) : (w - Nat.land w m).testBit j = (w.testBit j && !m.testBit j) := by
  induction j generalizing w m with
  | zero =>
    obtain ⟨x, hx⟩ : ∃ x, x = Nat.land w m := ⟨_, rfl⟩
    have h1 : x ≤ w := hx ▸ Nat.and_le_left
    have h2 : x % 2 = 1 ↔ w % 2 = 1 ∧ m % 2 = 1 := hx ▸ Nat.and_mod_two_eq_one
    rw [← hx, Nat.testBit_zero, Nat.testBit_zero, Nat.testBit_zero]
    rcases Nat.mod_two_eq_zero_or_one w with a | a <;> rcases Nat.mod_two_eq_zero_or_one m with b | b <;>
      simp only [a, b] at h2 ⊢ <;> simp at h2 ⊢ <;> omega
  | succ j ih =>
    obtain ⟨x, hx⟩ : ∃ x, x = Nat.land w m := ⟨_, rfl⟩
    have h1 : x ≤ w := hx ▸ Nat.and_le_left
    have h2 : x % 2 = 1 ↔ w % 2 = 1 ∧ m % 2 = 1 := hx ▸ Nat.and_mod_two_eq_one
    have h3 : x / 2 = Nat.land (w / 2) (m / 2) := hx ▸ Nat.and_div_two
    rw [Nat.testBit_succ, Nat.testBit_succ, Nat.testBit_succ, ← ih, ← h3, ← hx]
    congr 1
    omega

/-- Bits taken out of a word whose fixed bits are all zero. -/
theorem subBits_keeps {s t : State} (h : Keeps s t) (r : Reg) (i m : Nat)
    (hz : Nat.land r.resetWord.toNat r.fixedMask = 0) :
    Keeps s (t.wr r i (BitVec.ofNat 32 ((t.rd r i).toNat - Nat.land (t.rd r i).toNat m))) := by
  refine wr_keeps h _ _ _ fun hx => ?_
  have h0 := hx r i
  rw [hz] at h0 ⊢
  have hlt : (t.rd r i).toNat - Nat.land (t.rd r i).toNat m < 2 ^ 32 := Nat.lt_of_le_of_lt (Nat.sub_le _ _) (t.rd r i).isLt
  rw [BitVec.toNat_ofNat, Nat.mod_eq_of_lt hlt]
  apply Nat.eq_of_testBit_eq
  intro j
  have hj : ((t.rd r i).toNat &&& r.fixedMask).testBit j = false := by
    rw [show (t.rd r i).toNat &&& r.fixedMask = 0 from h0]; exact Nat.zero_testBit j
  show (_ &&& _ : Nat).testBit j = _
  rw [Nat.testBit_and] at hj ⊢
  rw [subLand_testBit, Nat.zero_testBit]
  revert hj
  cases (t.rd r i).toNat.testBit j <;> cases r.fixedMask.testBit j <;> simp

end Sys2Proof.Machine
end

