-- ==== Sys2Proof/Laws/State.lean ====
section
/-! SUPPORT. What each named operation over State leaves as it was: one lemma for each field it does not touch. -/

namespace Sys2Proof.Machine

variable (s : State)

/-! ## wr: the write of a register -/

@[simp] theorem State.wr_pending (r : Reg) (i : Nat) (w : BitVec 32) : (s.wr r i w).pending = s.pending := (rfl)
@[simp] theorem State.wr_ctrs (r : Reg) (i : Nat) (w : BitVec 32) : (s.wr r i w).ctrs = s.ctrs := (rfl)
@[simp] theorem State.wr_out (r : Reg) (i : Nat) (w : BitVec 32) : (s.wr r i w).out = s.out := (rfl)
@[simp] theorem State.wr_drawn (r : Reg) (i : Nat) (w : BitVec 32) : (s.wr r i w).drawn = s.drawn := (rfl)
@[simp] theorem State.wr_tm (r : Reg) (i : Nat) (w : BitVec 32) : (s.wr r i w).tm = s.tm := (rfl)
@[simp] theorem State.wr_host (r : Reg) (i : Nat) (w : BitVec 32) : (s.wr r i w).host = s.host := (rfl)
@[simp] theorem State.wr_flt (r : Reg) (i : Nat) (w : BitVec 32) : (s.wr r i w).flt = s.flt := (rfl)
@[simp] theorem State.wr_cnt (r : Reg) (i : Nat) (w : BitVec 32) : (s.wr r i w).cnt = s.cnt := (rfl)
@[simp] theorem State.wr_prs (r : Reg) (i : Nat) (w : BitVec 32) : (s.wr r i w).prs = s.prs := (rfl)
@[simp] theorem State.wr_cls (r : Reg) (i : Nat) (w : BitVec 32) : (s.wr r i w).cls = s.cls := (rfl)
@[simp] theorem State.wr_port (r : Reg) (i : Nat) (w : BitVec 32) : (s.wr r i w).port = s.port := (rfl)
@[simp] theorem State.wr_msk (r : Reg) (i : Nat) (w : BitVec 32) : (s.wr r i w).msk = s.msk := (rfl)
@[simp] theorem State.wr_pk (r : Reg) (i : Nat) (w : BitVec 32) : (s.wr r i w).pk = s.pk := (rfl)
@[simp] theorem State.wr_fst (r : Reg) (i : Nat) (w : BitVec 32) : (s.wr r i w).fst = s.fst := (rfl)
@[simp] theorem State.wr_hbm (r : Reg) (i : Nat) (w : BitVec 32) : (s.wr r i w).hbm = s.hbm := (rfl)
@[simp] theorem State.wr_rig (r : Reg) (i : Nat) (w : BitVec 32) : (s.wr r i w).rig = s.rig := (rfl)
@[simp] theorem State.wr_egs (r : Reg) (i : Nat) (w : BitVec 32) : (s.wr r i w).egs = s.egs := (rfl)
@[simp] theorem State.wr_crd (r : Reg) (i : Nat) (w : BitVec 32) : (s.wr r i w).crd = s.crd := (rfl)
@[simp] theorem State.wr_boot (r : Reg) (i : Nat) (w : BitVec 32) : (s.wr r i w).boot = s.boot := (rfl)
@[simp] theorem State.wr_stk (r : Reg) (i : Nat) (w : BitVec 32) : (s.wr r i w).stk = s.stk := (rfl)

/-! ## setF: the setting of a field -/

@[simp] theorem State.setF_pending (f : Fld) (i v : Nat) : (s.setF f i v).pending = s.pending := (rfl)
@[simp] theorem State.setF_ctrs (f : Fld) (i v : Nat) : (s.setF f i v).ctrs = s.ctrs := (rfl)
@[simp] theorem State.setF_out (f : Fld) (i v : Nat) : (s.setF f i v).out = s.out := (rfl)
@[simp] theorem State.setF_drawn (f : Fld) (i v : Nat) : (s.setF f i v).drawn = s.drawn := (rfl)
@[simp] theorem State.setF_tm (f : Fld) (i v : Nat) : (s.setF f i v).tm = s.tm := (rfl)
@[simp] theorem State.setF_host (f : Fld) (i v : Nat) : (s.setF f i v).host = s.host := (rfl)
@[simp] theorem State.setF_flt (f : Fld) (i v : Nat) : (s.setF f i v).flt = s.flt := (rfl)
@[simp] theorem State.setF_cnt (f : Fld) (i v : Nat) : (s.setF f i v).cnt = s.cnt := (rfl)
@[simp] theorem State.setF_prs (f : Fld) (i v : Nat) : (s.setF f i v).prs = s.prs := (rfl)
@[simp] theorem State.setF_cls (f : Fld) (i v : Nat) : (s.setF f i v).cls = s.cls := (rfl)
@[simp] theorem State.setF_port (f : Fld) (i v : Nat) : (s.setF f i v).port = s.port := (rfl)
@[simp] theorem State.setF_msk (f : Fld) (i v : Nat) : (s.setF f i v).msk = s.msk := (rfl)
@[simp] theorem State.setF_pk (f : Fld) (i v : Nat) : (s.setF f i v).pk = s.pk := (rfl)
@[simp] theorem State.setF_fst (f : Fld) (i v : Nat) : (s.setF f i v).fst = s.fst := (rfl)
@[simp] theorem State.setF_hbm (f : Fld) (i v : Nat) : (s.setF f i v).hbm = s.hbm := (rfl)
@[simp] theorem State.setF_rig (f : Fld) (i v : Nat) : (s.setF f i v).rig = s.rig := (rfl)
@[simp] theorem State.setF_egs (f : Fld) (i v : Nat) : (s.setF f i v).egs = s.egs := (rfl)
@[simp] theorem State.setF_crd (f : Fld) (i v : Nat) : (s.setF f i v).crd = s.crd := (rfl)
@[simp] theorem State.setF_boot (f : Fld) (i v : Nat) : (s.setF f i v).boot = s.boot := (rfl)
@[simp] theorem State.setF_stk (f : Fld) (i v : Nat) : (s.setF f i v).stk = s.stk := (rfl)

/-! ## setB: the setting of a one-bit field -/

@[simp] theorem State.setB_pending (f : Fld) (i : Nat) (b : Bool) : (s.setB f i b).pending = s.pending := (rfl)
@[simp] theorem State.setB_ctrs (f : Fld) (i : Nat) (b : Bool) : (s.setB f i b).ctrs = s.ctrs := (rfl)
@[simp] theorem State.setB_out (f : Fld) (i : Nat) (b : Bool) : (s.setB f i b).out = s.out := (rfl)
@[simp] theorem State.setB_drawn (f : Fld) (i : Nat) (b : Bool) : (s.setB f i b).drawn = s.drawn := (rfl)
@[simp] theorem State.setB_tm (f : Fld) (i : Nat) (b : Bool) : (s.setB f i b).tm = s.tm := (rfl)
@[simp] theorem State.setB_host (f : Fld) (i : Nat) (b : Bool) : (s.setB f i b).host = s.host := (rfl)
@[simp] theorem State.setB_flt (f : Fld) (i : Nat) (b : Bool) : (s.setB f i b).flt = s.flt := (rfl)
@[simp] theorem State.setB_cnt (f : Fld) (i : Nat) (b : Bool) : (s.setB f i b).cnt = s.cnt := (rfl)
@[simp] theorem State.setB_prs (f : Fld) (i : Nat) (b : Bool) : (s.setB f i b).prs = s.prs := (rfl)
@[simp] theorem State.setB_cls (f : Fld) (i : Nat) (b : Bool) : (s.setB f i b).cls = s.cls := (rfl)
@[simp] theorem State.setB_port (f : Fld) (i : Nat) (b : Bool) : (s.setB f i b).port = s.port := (rfl)
@[simp] theorem State.setB_msk (f : Fld) (i : Nat) (b : Bool) : (s.setB f i b).msk = s.msk := (rfl)
@[simp] theorem State.setB_pk (f : Fld) (i : Nat) (b : Bool) : (s.setB f i b).pk = s.pk := (rfl)
@[simp] theorem State.setB_fst (f : Fld) (i : Nat) (b : Bool) : (s.setB f i b).fst = s.fst := (rfl)
@[simp] theorem State.setB_hbm (f : Fld) (i : Nat) (b : Bool) : (s.setB f i b).hbm = s.hbm := (rfl)
@[simp] theorem State.setB_rig (f : Fld) (i : Nat) (b : Bool) : (s.setB f i b).rig = s.rig := (rfl)
@[simp] theorem State.setB_egs (f : Fld) (i : Nat) (b : Bool) : (s.setB f i b).egs = s.egs := (rfl)
@[simp] theorem State.setB_crd (f : Fld) (i : Nat) (b : Bool) : (s.setB f i b).crd = s.crd := (rfl)
@[simp] theorem State.setB_boot (f : Fld) (i : Nat) (b : Bool) : (s.setB f i b).boot = s.boot := (rfl)
@[simp] theorem State.setB_stk (f : Fld) (i : Nat) (b : Bool) : (s.setB f i b).stk = s.stk := (rfl)

/-! ## addF: a count in a field -/

@[simp] theorem State.addF_pending (f : Fld) (i n : Nat) : (s.addF f i n).pending = s.pending := by simp only [State.addF, State.setF_pending]
@[simp] theorem State.addF_ctrs (f : Fld) (i n : Nat) : (s.addF f i n).ctrs = s.ctrs := by simp only [State.addF, State.setF_ctrs]
@[simp] theorem State.addF_out (f : Fld) (i n : Nat) : (s.addF f i n).out = s.out := by simp only [State.addF, State.setF_out]
@[simp] theorem State.addF_drawn (f : Fld) (i n : Nat) : (s.addF f i n).drawn = s.drawn := by simp only [State.addF, State.setF_drawn]
@[simp] theorem State.addF_tm (f : Fld) (i n : Nat) : (s.addF f i n).tm = s.tm := by simp only [State.addF, State.setF_tm]
@[simp] theorem State.addF_host (f : Fld) (i n : Nat) : (s.addF f i n).host = s.host := by simp only [State.addF, State.setF_host]
@[simp] theorem State.addF_flt (f : Fld) (i n : Nat) : (s.addF f i n).flt = s.flt := by simp only [State.addF, State.setF_flt]
@[simp] theorem State.addF_cnt (f : Fld) (i n : Nat) : (s.addF f i n).cnt = s.cnt := by simp only [State.addF, State.setF_cnt]
@[simp] theorem State.addF_prs (f : Fld) (i n : Nat) : (s.addF f i n).prs = s.prs := by simp only [State.addF, State.setF_prs]
@[simp] theorem State.addF_cls (f : Fld) (i n : Nat) : (s.addF f i n).cls = s.cls := by simp only [State.addF, State.setF_cls]
@[simp] theorem State.addF_port (f : Fld) (i n : Nat) : (s.addF f i n).port = s.port := by simp only [State.addF, State.setF_port]
@[simp] theorem State.addF_msk (f : Fld) (i n : Nat) : (s.addF f i n).msk = s.msk := by simp only [State.addF, State.setF_msk]
@[simp] theorem State.addF_pk (f : Fld) (i n : Nat) : (s.addF f i n).pk = s.pk := by simp only [State.addF, State.setF_pk]
@[simp] theorem State.addF_fst (f : Fld) (i n : Nat) : (s.addF f i n).fst = s.fst := by simp only [State.addF, State.setF_fst]
@[simp] theorem State.addF_hbm (f : Fld) (i n : Nat) : (s.addF f i n).hbm = s.hbm := by simp only [State.addF, State.setF_hbm]
@[simp] theorem State.addF_rig (f : Fld) (i n : Nat) : (s.addF f i n).rig = s.rig := by simp only [State.addF, State.setF_rig]
@[simp] theorem State.addF_egs (f : Fld) (i n : Nat) : (s.addF f i n).egs = s.egs := by simp only [State.addF, State.setF_egs]
@[simp] theorem State.addF_crd (f : Fld) (i n : Nat) : (s.addF f i n).crd = s.crd := by simp only [State.addF, State.setF_crd]
@[simp] theorem State.addF_boot (f : Fld) (i n : Nat) : (s.addF f i n).boot = s.boot := by simp only [State.addF, State.setF_boot]
@[simp] theorem State.addF_stk (f : Fld) (i n : Nat) : (s.addF f i n).stk = s.stk := by simp only [State.addF, State.setF_stk]

/-! ## maxF: a field that keeps the greatest value -/

@[simp] theorem State.maxF_pending (f : Fld) (i v : Nat) : (s.maxF f i v).pending = s.pending := by simp only [State.maxF, State.setF_pending]
@[simp] theorem State.maxF_ctrs (f : Fld) (i v : Nat) : (s.maxF f i v).ctrs = s.ctrs := by simp only [State.maxF, State.setF_ctrs]
@[simp] theorem State.maxF_out (f : Fld) (i v : Nat) : (s.maxF f i v).out = s.out := by simp only [State.maxF, State.setF_out]
@[simp] theorem State.maxF_drawn (f : Fld) (i v : Nat) : (s.maxF f i v).drawn = s.drawn := by simp only [State.maxF, State.setF_drawn]
@[simp] theorem State.maxF_tm (f : Fld) (i v : Nat) : (s.maxF f i v).tm = s.tm := by simp only [State.maxF, State.setF_tm]
@[simp] theorem State.maxF_host (f : Fld) (i v : Nat) : (s.maxF f i v).host = s.host := by simp only [State.maxF, State.setF_host]
@[simp] theorem State.maxF_flt (f : Fld) (i v : Nat) : (s.maxF f i v).flt = s.flt := by simp only [State.maxF, State.setF_flt]
@[simp] theorem State.maxF_cnt (f : Fld) (i v : Nat) : (s.maxF f i v).cnt = s.cnt := by simp only [State.maxF, State.setF_cnt]
@[simp] theorem State.maxF_prs (f : Fld) (i v : Nat) : (s.maxF f i v).prs = s.prs := by simp only [State.maxF, State.setF_prs]
@[simp] theorem State.maxF_cls (f : Fld) (i v : Nat) : (s.maxF f i v).cls = s.cls := by simp only [State.maxF, State.setF_cls]
@[simp] theorem State.maxF_port (f : Fld) (i v : Nat) : (s.maxF f i v).port = s.port := by simp only [State.maxF, State.setF_port]
@[simp] theorem State.maxF_msk (f : Fld) (i v : Nat) : (s.maxF f i v).msk = s.msk := by simp only [State.maxF, State.setF_msk]
@[simp] theorem State.maxF_pk (f : Fld) (i v : Nat) : (s.maxF f i v).pk = s.pk := by simp only [State.maxF, State.setF_pk]
@[simp] theorem State.maxF_fst (f : Fld) (i v : Nat) : (s.maxF f i v).fst = s.fst := by simp only [State.maxF, State.setF_fst]
@[simp] theorem State.maxF_hbm (f : Fld) (i v : Nat) : (s.maxF f i v).hbm = s.hbm := by simp only [State.maxF, State.setF_hbm]
@[simp] theorem State.maxF_rig (f : Fld) (i v : Nat) : (s.maxF f i v).rig = s.rig := by simp only [State.maxF, State.setF_rig]
@[simp] theorem State.maxF_egs (f : Fld) (i v : Nat) : (s.maxF f i v).egs = s.egs := by simp only [State.maxF, State.setF_egs]
@[simp] theorem State.maxF_crd (f : Fld) (i v : Nat) : (s.maxF f i v).crd = s.crd := by simp only [State.maxF, State.setF_crd]
@[simp] theorem State.maxF_boot (f : Fld) (i v : Nat) : (s.maxF f i v).boot = s.boot := by simp only [State.maxF, State.setF_boot]
@[simp] theorem State.maxF_stk (f : Fld) (i v : Nat) : (s.maxF f i v).stk = s.stk := by simp only [State.maxF, State.setF_stk]

/-! ## setBit: the setting of a bit inside a field -/

@[simp] theorem State.setBit_pending (f : Fld) (i b : Nat) (v : Bool) : (s.setBit f i b v).pending = s.pending := by simp only [State.setBit, State.setF_pending]
@[simp] theorem State.setBit_ctrs (f : Fld) (i b : Nat) (v : Bool) : (s.setBit f i b v).ctrs = s.ctrs := by simp only [State.setBit, State.setF_ctrs]
@[simp] theorem State.setBit_out (f : Fld) (i b : Nat) (v : Bool) : (s.setBit f i b v).out = s.out := by simp only [State.setBit, State.setF_out]
@[simp] theorem State.setBit_drawn (f : Fld) (i b : Nat) (v : Bool) : (s.setBit f i b v).drawn = s.drawn := by simp only [State.setBit, State.setF_drawn]
@[simp] theorem State.setBit_tm (f : Fld) (i b : Nat) (v : Bool) : (s.setBit f i b v).tm = s.tm := by simp only [State.setBit, State.setF_tm]
@[simp] theorem State.setBit_host (f : Fld) (i b : Nat) (v : Bool) : (s.setBit f i b v).host = s.host := by simp only [State.setBit, State.setF_host]
@[simp] theorem State.setBit_flt (f : Fld) (i b : Nat) (v : Bool) : (s.setBit f i b v).flt = s.flt := by simp only [State.setBit, State.setF_flt]
@[simp] theorem State.setBit_cnt (f : Fld) (i b : Nat) (v : Bool) : (s.setBit f i b v).cnt = s.cnt := by simp only [State.setBit, State.setF_cnt]
@[simp] theorem State.setBit_prs (f : Fld) (i b : Nat) (v : Bool) : (s.setBit f i b v).prs = s.prs := by simp only [State.setBit, State.setF_prs]
@[simp] theorem State.setBit_cls (f : Fld) (i b : Nat) (v : Bool) : (s.setBit f i b v).cls = s.cls := by simp only [State.setBit, State.setF_cls]
@[simp] theorem State.setBit_port (f : Fld) (i b : Nat) (v : Bool) : (s.setBit f i b v).port = s.port := by simp only [State.setBit, State.setF_port]
@[simp] theorem State.setBit_msk (f : Fld) (i b : Nat) (v : Bool) : (s.setBit f i b v).msk = s.msk := by simp only [State.setBit, State.setF_msk]
@[simp] theorem State.setBit_pk (f : Fld) (i b : Nat) (v : Bool) : (s.setBit f i b v).pk = s.pk := by simp only [State.setBit, State.setF_pk]
@[simp] theorem State.setBit_fst (f : Fld) (i b : Nat) (v : Bool) : (s.setBit f i b v).fst = s.fst := by simp only [State.setBit, State.setF_fst]
@[simp] theorem State.setBit_hbm (f : Fld) (i b : Nat) (v : Bool) : (s.setBit f i b v).hbm = s.hbm := by simp only [State.setBit, State.setF_hbm]
@[simp] theorem State.setBit_rig (f : Fld) (i b : Nat) (v : Bool) : (s.setBit f i b v).rig = s.rig := by simp only [State.setBit, State.setF_rig]
@[simp] theorem State.setBit_egs (f : Fld) (i b : Nat) (v : Bool) : (s.setBit f i b v).egs = s.egs := by simp only [State.setBit, State.setF_egs]
@[simp] theorem State.setBit_crd (f : Fld) (i b : Nat) (v : Bool) : (s.setBit f i b v).crd = s.crd := by simp only [State.setBit, State.setF_crd]
@[simp] theorem State.setBit_boot (f : Fld) (i b : Nat) (v : Bool) : (s.setBit f i b v).boot = s.boot := by simp only [State.setBit, State.setF_boot]
@[simp] theorem State.setBit_stk (f : Fld) (i b : Nat) (v : Bool) : (s.setBit f i b v).stk = s.stk := by simp only [State.setBit, State.setF_stk]

/-! ## count: a counter -/

@[simp] theorem State.count_pending (c : CtrId) (n : Nat) : (s.count c n).pending = s.pending := by
  unfold State.count; dsimp only; split
  · exact State.setF_pending _ _ _ _
  · exact (rfl : (State.mk _ _ _ _ _ _ _ _ _ _ _ _ _ _ _ _ _ _ _ _ _).pending = _)
@[simp] theorem State.count_out (c : CtrId) (n : Nat) : (s.count c n).out = s.out := by
  unfold State.count; dsimp only; split
  · exact State.setF_out _ _ _ _
  · exact (rfl : (State.mk _ _ _ _ _ _ _ _ _ _ _ _ _ _ _ _ _ _ _ _ _).out = _)
@[simp] theorem State.count_drawn (c : CtrId) (n : Nat) : (s.count c n).drawn = s.drawn := by
  unfold State.count; dsimp only; split
  · exact State.setF_drawn _ _ _ _
  · exact (rfl : (State.mk _ _ _ _ _ _ _ _ _ _ _ _ _ _ _ _ _ _ _ _ _).drawn = _)
@[simp] theorem State.count_tm (c : CtrId) (n : Nat) : (s.count c n).tm = s.tm := by
  unfold State.count; dsimp only; split
  · exact State.setF_tm _ _ _ _
  · exact (rfl : (State.mk _ _ _ _ _ _ _ _ _ _ _ _ _ _ _ _ _ _ _ _ _).tm = _)
@[simp] theorem State.count_host (c : CtrId) (n : Nat) : (s.count c n).host = s.host := by
  unfold State.count; dsimp only; split
  · exact State.setF_host _ _ _ _
  · exact (rfl : (State.mk _ _ _ _ _ _ _ _ _ _ _ _ _ _ _ _ _ _ _ _ _).host = _)
@[simp] theorem State.count_flt (c : CtrId) (n : Nat) : (s.count c n).flt = s.flt := by
  unfold State.count; dsimp only; split
  · exact State.setF_flt _ _ _ _
  · exact (rfl : (State.mk _ _ _ _ _ _ _ _ _ _ _ _ _ _ _ _ _ _ _ _ _).flt = _)
@[simp] theorem State.count_cnt (c : CtrId) (n : Nat) : (s.count c n).cnt = s.cnt := by
  unfold State.count; dsimp only; split
  · exact State.setF_cnt _ _ _ _
  · exact (rfl : (State.mk _ _ _ _ _ _ _ _ _ _ _ _ _ _ _ _ _ _ _ _ _).cnt = _)
@[simp] theorem State.count_prs (c : CtrId) (n : Nat) : (s.count c n).prs = s.prs := by
  unfold State.count; dsimp only; split
  · exact State.setF_prs _ _ _ _
  · exact (rfl : (State.mk _ _ _ _ _ _ _ _ _ _ _ _ _ _ _ _ _ _ _ _ _).prs = _)
@[simp] theorem State.count_cls (c : CtrId) (n : Nat) : (s.count c n).cls = s.cls := by
  unfold State.count; dsimp only; split
  · exact State.setF_cls _ _ _ _
  · exact (rfl : (State.mk _ _ _ _ _ _ _ _ _ _ _ _ _ _ _ _ _ _ _ _ _).cls = _)
@[simp] theorem State.count_port (c : CtrId) (n : Nat) : (s.count c n).port = s.port := by
  unfold State.count; dsimp only; split
  · exact State.setF_port _ _ _ _
  · exact (rfl : (State.mk _ _ _ _ _ _ _ _ _ _ _ _ _ _ _ _ _ _ _ _ _).port = _)
@[simp] theorem State.count_msk (c : CtrId) (n : Nat) : (s.count c n).msk = s.msk := by
  unfold State.count; dsimp only; split
  · exact State.setF_msk _ _ _ _
  · exact (rfl : (State.mk _ _ _ _ _ _ _ _ _ _ _ _ _ _ _ _ _ _ _ _ _).msk = _)
@[simp] theorem State.count_pk (c : CtrId) (n : Nat) : (s.count c n).pk = s.pk := by
  unfold State.count; dsimp only; split
  · exact State.setF_pk _ _ _ _
  · exact (rfl : (State.mk _ _ _ _ _ _ _ _ _ _ _ _ _ _ _ _ _ _ _ _ _).pk = _)
@[simp] theorem State.count_fst (c : CtrId) (n : Nat) : (s.count c n).fst = s.fst := by
  unfold State.count; dsimp only; split
  · exact State.setF_fst _ _ _ _
  · exact (rfl : (State.mk _ _ _ _ _ _ _ _ _ _ _ _ _ _ _ _ _ _ _ _ _).fst = _)
@[simp] theorem State.count_hbm (c : CtrId) (n : Nat) : (s.count c n).hbm = s.hbm := by
  unfold State.count; dsimp only; split
  · exact State.setF_hbm _ _ _ _
  · exact (rfl : (State.mk _ _ _ _ _ _ _ _ _ _ _ _ _ _ _ _ _ _ _ _ _).hbm = _)
@[simp] theorem State.count_rig (c : CtrId) (n : Nat) : (s.count c n).rig = s.rig := by
  unfold State.count; dsimp only; split
  · exact State.setF_rig _ _ _ _
  · exact (rfl : (State.mk _ _ _ _ _ _ _ _ _ _ _ _ _ _ _ _ _ _ _ _ _).rig = _)
@[simp] theorem State.count_egs (c : CtrId) (n : Nat) : (s.count c n).egs = s.egs := by
  unfold State.count; dsimp only; split
  · exact State.setF_egs _ _ _ _
  · exact (rfl : (State.mk _ _ _ _ _ _ _ _ _ _ _ _ _ _ _ _ _ _ _ _ _).egs = _)
@[simp] theorem State.count_crd (c : CtrId) (n : Nat) : (s.count c n).crd = s.crd := by
  unfold State.count; dsimp only; split
  · exact State.setF_crd _ _ _ _
  · exact (rfl : (State.mk _ _ _ _ _ _ _ _ _ _ _ _ _ _ _ _ _ _ _ _ _).crd = _)
@[simp] theorem State.count_boot (c : CtrId) (n : Nat) : (s.count c n).boot = s.boot := by
  unfold State.count; dsimp only; split
  · exact State.setF_boot _ _ _ _
  · exact (rfl : (State.mk _ _ _ _ _ _ _ _ _ _ _ _ _ _ _ _ _ _ _ _ _).boot = _)
@[simp] theorem State.count_stk (c : CtrId) (n : Nat) : (s.count c n).stk = s.stk := by
  unfold State.count; dsimp only; split
  · exact State.setF_stk _ _ _ _
  · exact (rfl : (State.mk _ _ _ _ _ _ _ _ _ _ _ _ _ _ _ _ _ _ _ _ _).stk = _)

/-! ## draw: the drawing of a free value -/

@[simp] theorem State.draw_pending : (s.draw).pending = s.pending := (rfl)
@[simp] theorem State.draw_regs : (s.draw).regs = s.regs := (rfl)
@[simp] theorem State.draw_ctrs : (s.draw).ctrs = s.ctrs := (rfl)
@[simp] theorem State.draw_out : (s.draw).out = s.out := (rfl)
@[simp] theorem State.draw_tm : (s.draw).tm = s.tm := (rfl)
@[simp] theorem State.draw_host : (s.draw).host = s.host := (rfl)
@[simp] theorem State.draw_flt : (s.draw).flt = s.flt := (rfl)
@[simp] theorem State.draw_cnt : (s.draw).cnt = s.cnt := (rfl)
@[simp] theorem State.draw_prs : (s.draw).prs = s.prs := (rfl)
@[simp] theorem State.draw_cls : (s.draw).cls = s.cls := (rfl)
@[simp] theorem State.draw_port : (s.draw).port = s.port := (rfl)
@[simp] theorem State.draw_msk : (s.draw).msk = s.msk := (rfl)
@[simp] theorem State.draw_pk : (s.draw).pk = s.pk := (rfl)
@[simp] theorem State.draw_fst : (s.draw).fst = s.fst := (rfl)
@[simp] theorem State.draw_hbm : (s.draw).hbm = s.hbm := (rfl)
@[simp] theorem State.draw_rig : (s.draw).rig = s.rig := (rfl)
@[simp] theorem State.draw_egs : (s.draw).egs = s.egs := (rfl)
@[simp] theorem State.draw_crd : (s.draw).crd = s.crd := (rfl)
@[simp] theorem State.draw_boot : (s.draw).boot = s.boot := (rfl)
@[simp] theorem State.draw_stk : (s.draw).stk = s.stk := (rfl)

/-! ## emit: an output -/

@[simp] theorem State.emit_pending (e : OutEvent) : (s.emit e).pending = s.pending := (rfl)
@[simp] theorem State.emit_regs (e : OutEvent) : (s.emit e).regs = s.regs := (rfl)
@[simp] theorem State.emit_ctrs (e : OutEvent) : (s.emit e).ctrs = s.ctrs := (rfl)
@[simp] theorem State.emit_drawn (e : OutEvent) : (s.emit e).drawn = s.drawn := (rfl)
@[simp] theorem State.emit_tm (e : OutEvent) : (s.emit e).tm = s.tm := (rfl)
@[simp] theorem State.emit_host (e : OutEvent) : (s.emit e).host = s.host := (rfl)
@[simp] theorem State.emit_flt (e : OutEvent) : (s.emit e).flt = s.flt := (rfl)
@[simp] theorem State.emit_cnt (e : OutEvent) : (s.emit e).cnt = s.cnt := (rfl)
@[simp] theorem State.emit_prs (e : OutEvent) : (s.emit e).prs = s.prs := (rfl)
@[simp] theorem State.emit_cls (e : OutEvent) : (s.emit e).cls = s.cls := (rfl)
@[simp] theorem State.emit_port (e : OutEvent) : (s.emit e).port = s.port := (rfl)
@[simp] theorem State.emit_msk (e : OutEvent) : (s.emit e).msk = s.msk := (rfl)
@[simp] theorem State.emit_pk (e : OutEvent) : (s.emit e).pk = s.pk := (rfl)
@[simp] theorem State.emit_fst (e : OutEvent) : (s.emit e).fst = s.fst := (rfl)
@[simp] theorem State.emit_hbm (e : OutEvent) : (s.emit e).hbm = s.hbm := (rfl)
@[simp] theorem State.emit_rig (e : OutEvent) : (s.emit e).rig = s.rig := (rfl)
@[simp] theorem State.emit_egs (e : OutEvent) : (s.emit e).egs = s.egs := (rfl)
@[simp] theorem State.emit_crd (e : OutEvent) : (s.emit e).crd = s.crd := (rfl)
@[simp] theorem State.emit_boot (e : OutEvent) : (s.emit e).boot = s.boot := (rfl)
@[simp] theorem State.emit_stk (e : OutEvent) : (s.emit e).stk = s.stk := (rfl)

/-! ## eraseSector: the erasing of a sector -/

@[simp] theorem State.eraseSector_pending (n : Nat) : (s.eraseSector n).pending = s.pending := (rfl)
@[simp] theorem State.eraseSector_regs (n : Nat) : (s.eraseSector n).regs = s.regs := (rfl)
@[simp] theorem State.eraseSector_ctrs (n : Nat) : (s.eraseSector n).ctrs = s.ctrs := (rfl)
@[simp] theorem State.eraseSector_out (n : Nat) : (s.eraseSector n).out = s.out := (rfl)
@[simp] theorem State.eraseSector_drawn (n : Nat) : (s.eraseSector n).drawn = s.drawn := (rfl)
@[simp] theorem State.eraseSector_tm (n : Nat) : (s.eraseSector n).tm = s.tm := (rfl)
@[simp] theorem State.eraseSector_host (n : Nat) : (s.eraseSector n).host = s.host := (rfl)
@[simp] theorem State.eraseSector_flt (n : Nat) : (s.eraseSector n).flt = s.flt := (rfl)
@[simp] theorem State.eraseSector_prs (n : Nat) : (s.eraseSector n).prs = s.prs := (rfl)
@[simp] theorem State.eraseSector_cls (n : Nat) : (s.eraseSector n).cls = s.cls := (rfl)
@[simp] theorem State.eraseSector_port (n : Nat) : (s.eraseSector n).port = s.port := (rfl)
@[simp] theorem State.eraseSector_msk (n : Nat) : (s.eraseSector n).msk = s.msk := (rfl)
@[simp] theorem State.eraseSector_pk (n : Nat) : (s.eraseSector n).pk = s.pk := (rfl)
@[simp] theorem State.eraseSector_fst (n : Nat) : (s.eraseSector n).fst = s.fst := (rfl)
@[simp] theorem State.eraseSector_hbm (n : Nat) : (s.eraseSector n).hbm = s.hbm := (rfl)
@[simp] theorem State.eraseSector_rig (n : Nat) : (s.eraseSector n).rig = s.rig := (rfl)
@[simp] theorem State.eraseSector_egs (n : Nat) : (s.eraseSector n).egs = s.egs := (rfl)
@[simp] theorem State.eraseSector_crd (n : Nat) : (s.eraseSector n).crd = s.crd := (rfl)
@[simp] theorem State.eraseSector_boot (n : Nat) : (s.eraseSector n).boot = s.boot := (rfl)
@[simp] theorem State.eraseSector_stk (n : Nat) : (s.eraseSector n).stk = s.stk := (rfl)

/-! ## notifyAt: a notification of an event at a time -/

@[simp] theorem State.notifyAt_pending (k c i : Nat) (l : Bool) (p : List Nat) (u : Bool) (a b : Nat) : (s.notifyAt k c i l p u a b).pending = s.pending := (rfl)
@[simp] theorem State.notifyAt_regs (k c i : Nat) (l : Bool) (p : List Nat) (u : Bool) (a b : Nat) : (s.notifyAt k c i l p u a b).regs = s.regs := (rfl)
@[simp] theorem State.notifyAt_ctrs (k c i : Nat) (l : Bool) (p : List Nat) (u : Bool) (a b : Nat) : (s.notifyAt k c i l p u a b).ctrs = s.ctrs := (rfl)
@[simp] theorem State.notifyAt_out (k c i : Nat) (l : Bool) (p : List Nat) (u : Bool) (a b : Nat) : (s.notifyAt k c i l p u a b).out = s.out := (rfl)
@[simp] theorem State.notifyAt_drawn (k c i : Nat) (l : Bool) (p : List Nat) (u : Bool) (a b : Nat) : (s.notifyAt k c i l p u a b).drawn = s.drawn := (rfl)
@[simp] theorem State.notifyAt_tm (k c i : Nat) (l : Bool) (p : List Nat) (u : Bool) (a b : Nat) : (s.notifyAt k c i l p u a b).tm = s.tm := (rfl)
@[simp] theorem State.notifyAt_flt (k c i : Nat) (l : Bool) (p : List Nat) (u : Bool) (a b : Nat) : (s.notifyAt k c i l p u a b).flt = s.flt := (rfl)
@[simp] theorem State.notifyAt_cnt (k c i : Nat) (l : Bool) (p : List Nat) (u : Bool) (a b : Nat) : (s.notifyAt k c i l p u a b).cnt = s.cnt := (rfl)
@[simp] theorem State.notifyAt_prs (k c i : Nat) (l : Bool) (p : List Nat) (u : Bool) (a b : Nat) : (s.notifyAt k c i l p u a b).prs = s.prs := (rfl)
@[simp] theorem State.notifyAt_cls (k c i : Nat) (l : Bool) (p : List Nat) (u : Bool) (a b : Nat) : (s.notifyAt k c i l p u a b).cls = s.cls := (rfl)
@[simp] theorem State.notifyAt_port (k c i : Nat) (l : Bool) (p : List Nat) (u : Bool) (a b : Nat) : (s.notifyAt k c i l p u a b).port = s.port := (rfl)
@[simp] theorem State.notifyAt_msk (k c i : Nat) (l : Bool) (p : List Nat) (u : Bool) (a b : Nat) : (s.notifyAt k c i l p u a b).msk = s.msk := (rfl)
@[simp] theorem State.notifyAt_pk (k c i : Nat) (l : Bool) (p : List Nat) (u : Bool) (a b : Nat) : (s.notifyAt k c i l p u a b).pk = s.pk := (rfl)
@[simp] theorem State.notifyAt_fst (k c i : Nat) (l : Bool) (p : List Nat) (u : Bool) (a b : Nat) : (s.notifyAt k c i l p u a b).fst = s.fst := (rfl)
@[simp] theorem State.notifyAt_hbm (k c i : Nat) (l : Bool) (p : List Nat) (u : Bool) (a b : Nat) : (s.notifyAt k c i l p u a b).hbm = s.hbm := (rfl)
@[simp] theorem State.notifyAt_rig (k c i : Nat) (l : Bool) (p : List Nat) (u : Bool) (a b : Nat) : (s.notifyAt k c i l p u a b).rig = s.rig := (rfl)
@[simp] theorem State.notifyAt_egs (k c i : Nat) (l : Bool) (p : List Nat) (u : Bool) (a b : Nat) : (s.notifyAt k c i l p u a b).egs = s.egs := (rfl)
@[simp] theorem State.notifyAt_crd (k c i : Nat) (l : Bool) (p : List Nat) (u : Bool) (a b : Nat) : (s.notifyAt k c i l p u a b).crd = s.crd := (rfl)
@[simp] theorem State.notifyAt_boot (k c i : Nat) (l : Bool) (p : List Nat) (u : Bool) (a b : Nat) : (s.notifyAt k c i l p u a b).boot = s.boot := (rfl)
@[simp] theorem State.notifyAt_stk (k c i : Nat) (l : Bool) (p : List Nat) (u : Bool) (a b : Nat) : (s.notifyAt k c i l p u a b).stk = s.stk := (rfl)

/-! ## notify: a notification -/

@[simp] theorem State.notify_pending (k c i : Nat) (l : Bool) (p : List Nat) : (s.notify k c i l p).pending = s.pending := (rfl)
@[simp] theorem State.notify_regs (k c i : Nat) (l : Bool) (p : List Nat) : (s.notify k c i l p).regs = s.regs := (rfl)
@[simp] theorem State.notify_ctrs (k c i : Nat) (l : Bool) (p : List Nat) : (s.notify k c i l p).ctrs = s.ctrs := (rfl)
@[simp] theorem State.notify_out (k c i : Nat) (l : Bool) (p : List Nat) : (s.notify k c i l p).out = s.out := (rfl)
@[simp] theorem State.notify_drawn (k c i : Nat) (l : Bool) (p : List Nat) : (s.notify k c i l p).drawn = s.drawn := (rfl)
@[simp] theorem State.notify_tm (k c i : Nat) (l : Bool) (p : List Nat) : (s.notify k c i l p).tm = s.tm := (rfl)
@[simp] theorem State.notify_flt (k c i : Nat) (l : Bool) (p : List Nat) : (s.notify k c i l p).flt = s.flt := (rfl)
@[simp] theorem State.notify_cnt (k c i : Nat) (l : Bool) (p : List Nat) : (s.notify k c i l p).cnt = s.cnt := (rfl)
@[simp] theorem State.notify_prs (k c i : Nat) (l : Bool) (p : List Nat) : (s.notify k c i l p).prs = s.prs := (rfl)
@[simp] theorem State.notify_cls (k c i : Nat) (l : Bool) (p : List Nat) : (s.notify k c i l p).cls = s.cls := (rfl)
@[simp] theorem State.notify_port (k c i : Nat) (l : Bool) (p : List Nat) : (s.notify k c i l p).port = s.port := (rfl)
@[simp] theorem State.notify_msk (k c i : Nat) (l : Bool) (p : List Nat) : (s.notify k c i l p).msk = s.msk := (rfl)
@[simp] theorem State.notify_pk (k c i : Nat) (l : Bool) (p : List Nat) : (s.notify k c i l p).pk = s.pk := (rfl)
@[simp] theorem State.notify_fst (k c i : Nat) (l : Bool) (p : List Nat) : (s.notify k c i l p).fst = s.fst := (rfl)
@[simp] theorem State.notify_hbm (k c i : Nat) (l : Bool) (p : List Nat) : (s.notify k c i l p).hbm = s.hbm := (rfl)
@[simp] theorem State.notify_rig (k c i : Nat) (l : Bool) (p : List Nat) : (s.notify k c i l p).rig = s.rig := (rfl)
@[simp] theorem State.notify_egs (k c i : Nat) (l : Bool) (p : List Nat) : (s.notify k c i l p).egs = s.egs := (rfl)
@[simp] theorem State.notify_crd (k c i : Nat) (l : Bool) (p : List Nat) : (s.notify k c i l p).crd = s.crd := (rfl)
@[simp] theorem State.notify_boot (k c i : Nat) (l : Bool) (p : List Nat) : (s.notify k c i l p).boot = s.boot := (rfl)
@[simp] theorem State.notify_stk (k c i : Nat) (l : Bool) (p : List Nat) : (s.notify k c i l p).stk = s.stk := (rfl)

/-! ## skipNotif: a skipped notification number -/

@[simp] theorem State.skipNotif_pending (c i n : Nat) : (s.skipNotif c i n).pending = s.pending := by simp only [State.skipNotif]
@[simp] theorem State.skipNotif_regs (c i n : Nat) : (s.skipNotif c i n).regs = s.regs := by simp only [State.skipNotif]
@[simp] theorem State.skipNotif_ctrs (c i n : Nat) : (s.skipNotif c i n).ctrs = s.ctrs := by simp only [State.skipNotif]
@[simp] theorem State.skipNotif_out (c i n : Nat) : (s.skipNotif c i n).out = s.out := by simp only [State.skipNotif]
@[simp] theorem State.skipNotif_drawn (c i n : Nat) : (s.skipNotif c i n).drawn = s.drawn := by simp only [State.skipNotif]
@[simp] theorem State.skipNotif_tm (c i n : Nat) : (s.skipNotif c i n).tm = s.tm := by simp only [State.skipNotif]
@[simp] theorem State.skipNotif_flt (c i n : Nat) : (s.skipNotif c i n).flt = s.flt := by simp only [State.skipNotif]
@[simp] theorem State.skipNotif_cnt (c i n : Nat) : (s.skipNotif c i n).cnt = s.cnt := by simp only [State.skipNotif]
@[simp] theorem State.skipNotif_prs (c i n : Nat) : (s.skipNotif c i n).prs = s.prs := by simp only [State.skipNotif]
@[simp] theorem State.skipNotif_cls (c i n : Nat) : (s.skipNotif c i n).cls = s.cls := by simp only [State.skipNotif]
@[simp] theorem State.skipNotif_port (c i n : Nat) : (s.skipNotif c i n).port = s.port := by simp only [State.skipNotif]
@[simp] theorem State.skipNotif_msk (c i n : Nat) : (s.skipNotif c i n).msk = s.msk := by simp only [State.skipNotif]
@[simp] theorem State.skipNotif_pk (c i n : Nat) : (s.skipNotif c i n).pk = s.pk := by simp only [State.skipNotif]
@[simp] theorem State.skipNotif_fst (c i n : Nat) : (s.skipNotif c i n).fst = s.fst := by simp only [State.skipNotif]
@[simp] theorem State.skipNotif_hbm (c i n : Nat) : (s.skipNotif c i n).hbm = s.hbm := by simp only [State.skipNotif]
@[simp] theorem State.skipNotif_rig (c i n : Nat) : (s.skipNotif c i n).rig = s.rig := by simp only [State.skipNotif]
@[simp] theorem State.skipNotif_egs (c i n : Nat) : (s.skipNotif c i n).egs = s.egs := by simp only [State.skipNotif]
@[simp] theorem State.skipNotif_crd (c i n : Nat) : (s.skipNotif c i n).crd = s.crd := by simp only [State.skipNotif]
@[simp] theorem State.skipNotif_boot (c i n : Nat) : (s.skipNotif c i n).boot = s.boot := by simp only [State.skipNotif]
@[simp] theorem State.skipNotif_stk (c i n : Nat) : (s.skipNotif c i n).stk = s.stk := by simp only [State.skipNotif]

/-! ## raiseVector: an MSI-X message -/

@[simp] theorem State.raiseVector_pending (v : Nat) : (s.raiseVector v).pending = s.pending := by simp only [State.raiseVector]; split <;> rfl
@[simp] theorem State.raiseVector_regs (v : Nat) : (s.raiseVector v).regs = s.regs := by simp only [State.raiseVector]; split <;> rfl
@[simp] theorem State.raiseVector_ctrs (v : Nat) : (s.raiseVector v).ctrs = s.ctrs := by simp only [State.raiseVector]; split <;> rfl
@[simp] theorem State.raiseVector_drawn (v : Nat) : (s.raiseVector v).drawn = s.drawn := by simp only [State.raiseVector]; split <;> rfl
@[simp] theorem State.raiseVector_tm (v : Nat) : (s.raiseVector v).tm = s.tm := by simp only [State.raiseVector]; split <;> rfl
@[simp] theorem State.raiseVector_host (v : Nat) : (s.raiseVector v).host = s.host := by simp only [State.raiseVector]; split <;> rfl
@[simp] theorem State.raiseVector_flt (v : Nat) : (s.raiseVector v).flt = s.flt := by simp only [State.raiseVector]; split <;> rfl
@[simp] theorem State.raiseVector_cnt (v : Nat) : (s.raiseVector v).cnt = s.cnt := by simp only [State.raiseVector]; split <;> rfl
@[simp] theorem State.raiseVector_prs (v : Nat) : (s.raiseVector v).prs = s.prs := by simp only [State.raiseVector]; split <;> rfl
@[simp] theorem State.raiseVector_cls (v : Nat) : (s.raiseVector v).cls = s.cls := by simp only [State.raiseVector]; split <;> rfl
@[simp] theorem State.raiseVector_port (v : Nat) : (s.raiseVector v).port = s.port := by simp only [State.raiseVector]; split <;> rfl
@[simp] theorem State.raiseVector_msk (v : Nat) : (s.raiseVector v).msk = s.msk := by simp only [State.raiseVector]; split <;> rfl
@[simp] theorem State.raiseVector_pk (v : Nat) : (s.raiseVector v).pk = s.pk := by simp only [State.raiseVector]; split <;> rfl
@[simp] theorem State.raiseVector_fst (v : Nat) : (s.raiseVector v).fst = s.fst := by simp only [State.raiseVector]; split <;> rfl
@[simp] theorem State.raiseVector_hbm (v : Nat) : (s.raiseVector v).hbm = s.hbm := by simp only [State.raiseVector]; split <;> rfl
@[simp] theorem State.raiseVector_rig (v : Nat) : (s.raiseVector v).rig = s.rig := by simp only [State.raiseVector]; split <;> rfl
@[simp] theorem State.raiseVector_egs (v : Nat) : (s.raiseVector v).egs = s.egs := by simp only [State.raiseVector]; split <;> rfl
@[simp] theorem State.raiseVector_crd (v : Nat) : (s.raiseVector v).crd = s.crd := by simp only [State.raiseVector]; split <;> rfl
@[simp] theorem State.raiseVector_boot (v : Nat) : (s.raiseVector v).boot = s.boot := by simp only [State.raiseVector]; split <;> rfl
@[simp] theorem State.raiseVector_stk (v : Nat) : (s.raiseVector v).stk = s.stk := by simp only [State.raiseVector]; split <;> rfl

/-! ## updateIntN: the level of INT_N -/

@[simp] theorem State.updateIntN_pending : (s.updateIntN).pending = s.pending := (rfl)
@[simp] theorem State.updateIntN_regs : (s.updateIntN).regs = s.regs := (rfl)
@[simp] theorem State.updateIntN_ctrs : (s.updateIntN).ctrs = s.ctrs := (rfl)
@[simp] theorem State.updateIntN_out : (s.updateIntN).out = s.out := (rfl)
@[simp] theorem State.updateIntN_drawn : (s.updateIntN).drawn = s.drawn := (rfl)
@[simp] theorem State.updateIntN_tm : (s.updateIntN).tm = s.tm := (rfl)
@[simp] theorem State.updateIntN_flt : (s.updateIntN).flt = s.flt := (rfl)
@[simp] theorem State.updateIntN_cnt : (s.updateIntN).cnt = s.cnt := (rfl)
@[simp] theorem State.updateIntN_prs : (s.updateIntN).prs = s.prs := (rfl)
@[simp] theorem State.updateIntN_cls : (s.updateIntN).cls = s.cls := (rfl)
@[simp] theorem State.updateIntN_port : (s.updateIntN).port = s.port := (rfl)
@[simp] theorem State.updateIntN_msk : (s.updateIntN).msk = s.msk := (rfl)
@[simp] theorem State.updateIntN_pk : (s.updateIntN).pk = s.pk := (rfl)
@[simp] theorem State.updateIntN_fst : (s.updateIntN).fst = s.fst := (rfl)
@[simp] theorem State.updateIntN_hbm : (s.updateIntN).hbm = s.hbm := (rfl)
@[simp] theorem State.updateIntN_rig : (s.updateIntN).rig = s.rig := (rfl)
@[simp] theorem State.updateIntN_egs : (s.updateIntN).egs = s.egs := (rfl)
@[simp] theorem State.updateIntN_crd : (s.updateIntN).crd = s.crd := (rfl)
@[simp] theorem State.updateIntN_boot : (s.updateIntN).boot = s.boot := (rfl)
@[simp] theorem State.updateIntN_stk : (s.updateIntN).stk = s.stk := (rfl)

/-! ## raiseIrq: a bit of SYS_IRQ_STATUS -/

@[simp] theorem State.raiseIrq_pending (b : Nat) : (s.raiseIrq b).pending = s.pending := by simp only [State.raiseIrq]; split <;> simp
@[simp] theorem State.raiseIrq_ctrs (b : Nat) : (s.raiseIrq b).ctrs = s.ctrs := by simp only [State.raiseIrq]; split <;> simp
@[simp] theorem State.raiseIrq_drawn (b : Nat) : (s.raiseIrq b).drawn = s.drawn := by simp only [State.raiseIrq]; split <;> simp
@[simp] theorem State.raiseIrq_tm (b : Nat) : (s.raiseIrq b).tm = s.tm := by simp only [State.raiseIrq]; split <;> simp
@[simp] theorem State.raiseIrq_flt (b : Nat) : (s.raiseIrq b).flt = s.flt := by simp only [State.raiseIrq]; split <;> simp
@[simp] theorem State.raiseIrq_cnt (b : Nat) : (s.raiseIrq b).cnt = s.cnt := by simp only [State.raiseIrq]; split <;> simp
@[simp] theorem State.raiseIrq_prs (b : Nat) : (s.raiseIrq b).prs = s.prs := by simp only [State.raiseIrq]; split <;> simp
@[simp] theorem State.raiseIrq_cls (b : Nat) : (s.raiseIrq b).cls = s.cls := by simp only [State.raiseIrq]; split <;> simp
@[simp] theorem State.raiseIrq_port (b : Nat) : (s.raiseIrq b).port = s.port := by simp only [State.raiseIrq]; split <;> simp
@[simp] theorem State.raiseIrq_msk (b : Nat) : (s.raiseIrq b).msk = s.msk := by simp only [State.raiseIrq]; split <;> simp
@[simp] theorem State.raiseIrq_pk (b : Nat) : (s.raiseIrq b).pk = s.pk := by simp only [State.raiseIrq]; split <;> simp
@[simp] theorem State.raiseIrq_fst (b : Nat) : (s.raiseIrq b).fst = s.fst := by simp only [State.raiseIrq]; split <;> simp
@[simp] theorem State.raiseIrq_hbm (b : Nat) : (s.raiseIrq b).hbm = s.hbm := by simp only [State.raiseIrq]; split <;> simp
@[simp] theorem State.raiseIrq_rig (b : Nat) : (s.raiseIrq b).rig = s.rig := by simp only [State.raiseIrq]; split <;> simp
@[simp] theorem State.raiseIrq_egs (b : Nat) : (s.raiseIrq b).egs = s.egs := by simp only [State.raiseIrq]; split <;> simp
@[simp] theorem State.raiseIrq_crd (b : Nat) : (s.raiseIrq b).crd = s.crd := by simp only [State.raiseIrq]; split <;> simp
@[simp] theorem State.raiseIrq_boot (b : Nat) : (s.raiseIrq b).boot = s.boot := by simp only [State.raiseIrq]; split <;> simp
@[simp] theorem State.raiseIrq_stk (b : Nat) : (s.raiseIrq b).stk = s.stk := by simp only [State.raiseIrq]; split <;> simp

/-! ## setReduction: a reduction bit -/

@[simp] theorem State.setReduction_pending (b : Nat) (v : Bool) : (s.setReduction b v).pending = s.pending := (rfl)
@[simp] theorem State.setReduction_ctrs (b : Nat) (v : Bool) : (s.setReduction b v).ctrs = s.ctrs := (rfl)
@[simp] theorem State.setReduction_out (b : Nat) (v : Bool) : (s.setReduction b v).out = s.out := (rfl)
@[simp] theorem State.setReduction_drawn (b : Nat) (v : Bool) : (s.setReduction b v).drawn = s.drawn := (rfl)
@[simp] theorem State.setReduction_tm (b : Nat) (v : Bool) : (s.setReduction b v).tm = s.tm := (rfl)
@[simp] theorem State.setReduction_host (b : Nat) (v : Bool) : (s.setReduction b v).host = s.host := (rfl)
@[simp] theorem State.setReduction_flt (b : Nat) (v : Bool) : (s.setReduction b v).flt = s.flt := (rfl)
@[simp] theorem State.setReduction_cnt (b : Nat) (v : Bool) : (s.setReduction b v).cnt = s.cnt := (rfl)
@[simp] theorem State.setReduction_prs (b : Nat) (v : Bool) : (s.setReduction b v).prs = s.prs := (rfl)
@[simp] theorem State.setReduction_cls (b : Nat) (v : Bool) : (s.setReduction b v).cls = s.cls := (rfl)
@[simp] theorem State.setReduction_port (b : Nat) (v : Bool) : (s.setReduction b v).port = s.port := (rfl)
@[simp] theorem State.setReduction_msk (b : Nat) (v : Bool) : (s.setReduction b v).msk = s.msk := (rfl)
@[simp] theorem State.setReduction_pk (b : Nat) (v : Bool) : (s.setReduction b v).pk = s.pk := (rfl)
@[simp] theorem State.setReduction_fst (b : Nat) (v : Bool) : (s.setReduction b v).fst = s.fst := (rfl)
@[simp] theorem State.setReduction_hbm (b : Nat) (v : Bool) : (s.setReduction b v).hbm = s.hbm := (rfl)
@[simp] theorem State.setReduction_rig (b : Nat) (v : Bool) : (s.setReduction b v).rig = s.rig := (rfl)
@[simp] theorem State.setReduction_egs (b : Nat) (v : Bool) : (s.setReduction b v).egs = s.egs := (rfl)
@[simp] theorem State.setReduction_crd (b : Nat) (v : Bool) : (s.setReduction b v).crd = s.crd := (rfl)
@[simp] theorem State.setReduction_boot (b : Nat) (v : Bool) : (s.setReduction b v).boot = s.boot := (rfl)
@[simp] theorem State.setReduction_stk (b : Nat) (v : Bool) : (s.setReduction b v).stk = s.stk := (rfl)

/-! ## answer: the answer to a command -/

@[simp] theorem State.answer_pending (m c : Nat) (q : Bool) (r : Rsp) : (s.answer m c q r).pending = s.pending := by simp only [State.answer]; (repeat' split) <;> rfl
@[simp] theorem State.answer_regs (m c : Nat) (q : Bool) (r : Rsp) : (s.answer m c q r).regs = s.regs := by simp only [State.answer]; (repeat' split) <;> rfl
@[simp] theorem State.answer_ctrs (m c : Nat) (q : Bool) (r : Rsp) : (s.answer m c q r).ctrs = s.ctrs := by simp only [State.answer]; (repeat' split) <;> rfl
@[simp] theorem State.answer_out (m c : Nat) (q : Bool) (r : Rsp) : (s.answer m c q r).out = s.out := by simp only [State.answer]; (repeat' split) <;> rfl
@[simp] theorem State.answer_drawn (m c : Nat) (q : Bool) (r : Rsp) : (s.answer m c q r).drawn = s.drawn := by simp only [State.answer]; (repeat' split) <;> rfl
@[simp] theorem State.answer_tm (m c : Nat) (q : Bool) (r : Rsp) : (s.answer m c q r).tm = s.tm := by simp only [State.answer]; (repeat' split) <;> rfl
@[simp] theorem State.answer_flt (m c : Nat) (q : Bool) (r : Rsp) : (s.answer m c q r).flt = s.flt := by simp only [State.answer]; (repeat' split) <;> rfl
@[simp] theorem State.answer_cnt (m c : Nat) (q : Bool) (r : Rsp) : (s.answer m c q r).cnt = s.cnt := by simp only [State.answer]; (repeat' split) <;> rfl
@[simp] theorem State.answer_prs (m c : Nat) (q : Bool) (r : Rsp) : (s.answer m c q r).prs = s.prs := by simp only [State.answer]; (repeat' split) <;> rfl
@[simp] theorem State.answer_cls (m c : Nat) (q : Bool) (r : Rsp) : (s.answer m c q r).cls = s.cls := by simp only [State.answer]; (repeat' split) <;> rfl
@[simp] theorem State.answer_port (m c : Nat) (q : Bool) (r : Rsp) : (s.answer m c q r).port = s.port := by simp only [State.answer]; (repeat' split) <;> rfl
@[simp] theorem State.answer_msk (m c : Nat) (q : Bool) (r : Rsp) : (s.answer m c q r).msk = s.msk := by simp only [State.answer]; (repeat' split) <;> rfl
@[simp] theorem State.answer_pk (m c : Nat) (q : Bool) (r : Rsp) : (s.answer m c q r).pk = s.pk := by simp only [State.answer]; (repeat' split) <;> rfl
@[simp] theorem State.answer_fst (m c : Nat) (q : Bool) (r : Rsp) : (s.answer m c q r).fst = s.fst := by simp only [State.answer]; (repeat' split) <;> rfl
@[simp] theorem State.answer_hbm (m c : Nat) (q : Bool) (r : Rsp) : (s.answer m c q r).hbm = s.hbm := by simp only [State.answer]; (repeat' split) <;> rfl
@[simp] theorem State.answer_rig (m c : Nat) (q : Bool) (r : Rsp) : (s.answer m c q r).rig = s.rig := by simp only [State.answer]; (repeat' split) <;> rfl
@[simp] theorem State.answer_egs (m c : Nat) (q : Bool) (r : Rsp) : (s.answer m c q r).egs = s.egs := by simp only [State.answer]; (repeat' split) <;> rfl
@[simp] theorem State.answer_crd (m c : Nat) (q : Bool) (r : Rsp) : (s.answer m c q r).crd = s.crd := by simp only [State.answer]; (repeat' split) <;> rfl
@[simp] theorem State.answer_boot (m c : Nat) (q : Bool) (r : Rsp) : (s.answer m c q r).boot = s.boot := by simp only [State.answer]; (repeat' split) <;> rfl
@[simp] theorem State.answer_stk (m c : Nat) (q : Bool) (r : Rsp) : (s.answer m c q r).stk = s.stk := by simp only [State.answer]; (repeat' split) <;> rfl

/-! ## finish: the finish of a command -/

@[simp] theorem State.finish_pending (h : CmdHdr) (r : Rsp) : (s.finish h r).pending = s.pending := by simp [State.finish]
@[simp] theorem State.finish_regs (h : CmdHdr) (r : Rsp) : (s.finish h r).regs = s.regs := by simp [State.finish]
@[simp] theorem State.finish_ctrs (h : CmdHdr) (r : Rsp) : (s.finish h r).ctrs = s.ctrs := by simp [State.finish]
@[simp] theorem State.finish_out (h : CmdHdr) (r : Rsp) : (s.finish h r).out = s.out := by simp [State.finish]
@[simp] theorem State.finish_drawn (h : CmdHdr) (r : Rsp) : (s.finish h r).drawn = s.drawn := by simp [State.finish]
@[simp] theorem State.finish_tm (h : CmdHdr) (r : Rsp) : (s.finish h r).tm = s.tm := by simp [State.finish]
@[simp] theorem State.finish_flt (h : CmdHdr) (r : Rsp) : (s.finish h r).flt = s.flt := by simp [State.finish]
@[simp] theorem State.finish_cnt (h : CmdHdr) (r : Rsp) : (s.finish h r).cnt = s.cnt := by simp [State.finish]
@[simp] theorem State.finish_prs (h : CmdHdr) (r : Rsp) : (s.finish h r).prs = s.prs := by simp [State.finish]
@[simp] theorem State.finish_cls (h : CmdHdr) (r : Rsp) : (s.finish h r).cls = s.cls := by simp [State.finish]
@[simp] theorem State.finish_port (h : CmdHdr) (r : Rsp) : (s.finish h r).port = s.port := by simp [State.finish]
@[simp] theorem State.finish_msk (h : CmdHdr) (r : Rsp) : (s.finish h r).msk = s.msk := by simp [State.finish]
@[simp] theorem State.finish_pk (h : CmdHdr) (r : Rsp) : (s.finish h r).pk = s.pk := by simp [State.finish]
@[simp] theorem State.finish_fst (h : CmdHdr) (r : Rsp) : (s.finish h r).fst = s.fst := by simp [State.finish]
@[simp] theorem State.finish_hbm (h : CmdHdr) (r : Rsp) : (s.finish h r).hbm = s.hbm := by simp [State.finish]
@[simp] theorem State.finish_rig (h : CmdHdr) (r : Rsp) : (s.finish h r).rig = s.rig := by simp [State.finish]
@[simp] theorem State.finish_egs (h : CmdHdr) (r : Rsp) : (s.finish h r).egs = s.egs := by simp [State.finish]
@[simp] theorem State.finish_crd (h : CmdHdr) (r : Rsp) : (s.finish h r).crd = s.crd := by simp [State.finish]
@[simp] theorem State.finish_boot (h : CmdHdr) (r : Rsp) : (s.finish h r).boot = s.boot := by simp [State.finish]
@[simp] theorem State.finish_stk (h : CmdHdr) (r : Rsp) : (s.finish h r).stk = s.stk := by simp [State.finish]

/-! ## noteCmd: a command noted among those in flight -/

@[simp] theorem State.noteCmd_pending (h : CmdHdr) (b : Bool) : (s.noteCmd h b).pending = s.pending := (rfl)
@[simp] theorem State.noteCmd_regs (h : CmdHdr) (b : Bool) : (s.noteCmd h b).regs = s.regs := (rfl)
@[simp] theorem State.noteCmd_ctrs (h : CmdHdr) (b : Bool) : (s.noteCmd h b).ctrs = s.ctrs := (rfl)
@[simp] theorem State.noteCmd_out (h : CmdHdr) (b : Bool) : (s.noteCmd h b).out = s.out := (rfl)
@[simp] theorem State.noteCmd_drawn (h : CmdHdr) (b : Bool) : (s.noteCmd h b).drawn = s.drawn := (rfl)
@[simp] theorem State.noteCmd_tm (h : CmdHdr) (b : Bool) : (s.noteCmd h b).tm = s.tm := (rfl)
@[simp] theorem State.noteCmd_flt (h : CmdHdr) (b : Bool) : (s.noteCmd h b).flt = s.flt := (rfl)
@[simp] theorem State.noteCmd_cnt (h : CmdHdr) (b : Bool) : (s.noteCmd h b).cnt = s.cnt := (rfl)
@[simp] theorem State.noteCmd_prs (h : CmdHdr) (b : Bool) : (s.noteCmd h b).prs = s.prs := (rfl)
@[simp] theorem State.noteCmd_cls (h : CmdHdr) (b : Bool) : (s.noteCmd h b).cls = s.cls := (rfl)
@[simp] theorem State.noteCmd_port (h : CmdHdr) (b : Bool) : (s.noteCmd h b).port = s.port := (rfl)
@[simp] theorem State.noteCmd_msk (h : CmdHdr) (b : Bool) : (s.noteCmd h b).msk = s.msk := (rfl)
@[simp] theorem State.noteCmd_pk (h : CmdHdr) (b : Bool) : (s.noteCmd h b).pk = s.pk := (rfl)
@[simp] theorem State.noteCmd_fst (h : CmdHdr) (b : Bool) : (s.noteCmd h b).fst = s.fst := (rfl)
@[simp] theorem State.noteCmd_hbm (h : CmdHdr) (b : Bool) : (s.noteCmd h b).hbm = s.hbm := (rfl)
@[simp] theorem State.noteCmd_rig (h : CmdHdr) (b : Bool) : (s.noteCmd h b).rig = s.rig := (rfl)
@[simp] theorem State.noteCmd_egs (h : CmdHdr) (b : Bool) : (s.noteCmd h b).egs = s.egs := (rfl)
@[simp] theorem State.noteCmd_crd (h : CmdHdr) (b : Bool) : (s.noteCmd h b).crd = s.crd := (rfl)
@[simp] theorem State.noteCmd_boot (h : CmdHdr) (b : Bool) : (s.noteCmd h b).boot = s.boot := (rfl)
@[simp] theorem State.noteCmd_stk (h : CmdHdr) (b : Bool) : (s.noteCmd h b).stk = s.stk := (rfl)

/-! ## beginCmd: the beginning of a command -/

@[simp] theorem State.beginCmd_pending (h : CmdHdr) : (s.beginCmd h).pending = s.pending := (rfl)
@[simp] theorem State.beginCmd_regs (h : CmdHdr) : (s.beginCmd h).regs = s.regs := (rfl)
@[simp] theorem State.beginCmd_ctrs (h : CmdHdr) : (s.beginCmd h).ctrs = s.ctrs := (rfl)
@[simp] theorem State.beginCmd_out (h : CmdHdr) : (s.beginCmd h).out = s.out := (rfl)
@[simp] theorem State.beginCmd_drawn (h : CmdHdr) : (s.beginCmd h).drawn = s.drawn := (rfl)
@[simp] theorem State.beginCmd_tm (h : CmdHdr) : (s.beginCmd h).tm = s.tm := (rfl)
@[simp] theorem State.beginCmd_flt (h : CmdHdr) : (s.beginCmd h).flt = s.flt := (rfl)
@[simp] theorem State.beginCmd_cnt (h : CmdHdr) : (s.beginCmd h).cnt = s.cnt := (rfl)
@[simp] theorem State.beginCmd_prs (h : CmdHdr) : (s.beginCmd h).prs = s.prs := (rfl)
@[simp] theorem State.beginCmd_cls (h : CmdHdr) : (s.beginCmd h).cls = s.cls := (rfl)
@[simp] theorem State.beginCmd_port (h : CmdHdr) : (s.beginCmd h).port = s.port := (rfl)
@[simp] theorem State.beginCmd_msk (h : CmdHdr) : (s.beginCmd h).msk = s.msk := (rfl)
@[simp] theorem State.beginCmd_pk (h : CmdHdr) : (s.beginCmd h).pk = s.pk := (rfl)
@[simp] theorem State.beginCmd_fst (h : CmdHdr) : (s.beginCmd h).fst = s.fst := (rfl)
@[simp] theorem State.beginCmd_hbm (h : CmdHdr) : (s.beginCmd h).hbm = s.hbm := (rfl)
@[simp] theorem State.beginCmd_rig (h : CmdHdr) : (s.beginCmd h).rig = s.rig := (rfl)
@[simp] theorem State.beginCmd_egs (h : CmdHdr) : (s.beginCmd h).egs = s.egs := (rfl)
@[simp] theorem State.beginCmd_crd (h : CmdHdr) : (s.beginCmd h).crd = s.crd := (rfl)
@[simp] theorem State.beginCmd_boot (h : CmdHdr) : (s.beginCmd h).boot = s.boot := (rfl)
@[simp] theorem State.beginCmd_stk (h : CmdHdr) : (s.beginCmd h).stk = s.stk := (rfl)

/-! ## stopCmd: a command that is not carried out -/

@[simp] theorem State.stopCmd_pending (c : Instr) (h : CmdHdr) (r : CmdStop) : (s.stopCmd c h r).pending = s.pending := by cases r <;> simp only [State.stopCmd, State.finish_pending, State.noteCmd_pending]
@[simp] theorem State.stopCmd_regs (c : Instr) (h : CmdHdr) (r : CmdStop) : (s.stopCmd c h r).regs = s.regs := by cases r <;> simp only [State.stopCmd, State.finish_regs, State.noteCmd_regs]
@[simp] theorem State.stopCmd_ctrs (c : Instr) (h : CmdHdr) (r : CmdStop) : (s.stopCmd c h r).ctrs = s.ctrs := by cases r <;> simp only [State.stopCmd, State.finish_ctrs, State.noteCmd_ctrs]
@[simp] theorem State.stopCmd_out (c : Instr) (h : CmdHdr) (r : CmdStop) : (s.stopCmd c h r).out = s.out := by cases r <;> simp only [State.stopCmd, State.finish_out, State.noteCmd_out]
@[simp] theorem State.stopCmd_drawn (c : Instr) (h : CmdHdr) (r : CmdStop) : (s.stopCmd c h r).drawn = s.drawn := by cases r <;> simp only [State.stopCmd, State.finish_drawn, State.noteCmd_drawn]
@[simp] theorem State.stopCmd_tm (c : Instr) (h : CmdHdr) (r : CmdStop) : (s.stopCmd c h r).tm = s.tm := by cases r <;> simp only [State.stopCmd, State.finish_tm, State.noteCmd_tm]
@[simp] theorem State.stopCmd_flt (c : Instr) (h : CmdHdr) (r : CmdStop) : (s.stopCmd c h r).flt = s.flt := by cases r <;> simp only [State.stopCmd, State.finish_flt, State.noteCmd_flt]
@[simp] theorem State.stopCmd_cnt (c : Instr) (h : CmdHdr) (r : CmdStop) : (s.stopCmd c h r).cnt = s.cnt := by cases r <;> simp only [State.stopCmd, State.finish_cnt, State.noteCmd_cnt]
@[simp] theorem State.stopCmd_prs (c : Instr) (h : CmdHdr) (r : CmdStop) : (s.stopCmd c h r).prs = s.prs := by cases r <;> simp only [State.stopCmd, State.finish_prs, State.noteCmd_prs]
@[simp] theorem State.stopCmd_cls (c : Instr) (h : CmdHdr) (r : CmdStop) : (s.stopCmd c h r).cls = s.cls := by cases r <;> simp only [State.stopCmd, State.finish_cls, State.noteCmd_cls]
@[simp] theorem State.stopCmd_port (c : Instr) (h : CmdHdr) (r : CmdStop) : (s.stopCmd c h r).port = s.port := by cases r <;> simp only [State.stopCmd, State.finish_port, State.noteCmd_port]
@[simp] theorem State.stopCmd_msk (c : Instr) (h : CmdHdr) (r : CmdStop) : (s.stopCmd c h r).msk = s.msk := by cases r <;> simp only [State.stopCmd, State.finish_msk, State.noteCmd_msk]
@[simp] theorem State.stopCmd_pk (c : Instr) (h : CmdHdr) (r : CmdStop) : (s.stopCmd c h r).pk = s.pk := by cases r <;> simp only [State.stopCmd, State.finish_pk, State.noteCmd_pk]
@[simp] theorem State.stopCmd_fst (c : Instr) (h : CmdHdr) (r : CmdStop) : (s.stopCmd c h r).fst = s.fst := by cases r <;> simp only [State.stopCmd, State.finish_fst, State.noteCmd_fst]
@[simp] theorem State.stopCmd_hbm (c : Instr) (h : CmdHdr) (r : CmdStop) : (s.stopCmd c h r).hbm = s.hbm := by cases r <;> simp only [State.stopCmd, State.finish_hbm, State.noteCmd_hbm]
@[simp] theorem State.stopCmd_rig (c : Instr) (h : CmdHdr) (r : CmdStop) : (s.stopCmd c h r).rig = s.rig := by cases r <;> simp only [State.stopCmd, State.finish_rig, State.noteCmd_rig]
@[simp] theorem State.stopCmd_egs (c : Instr) (h : CmdHdr) (r : CmdStop) : (s.stopCmd c h r).egs = s.egs := by cases r <;> simp only [State.stopCmd, State.finish_egs, State.noteCmd_egs]
@[simp] theorem State.stopCmd_crd (c : Instr) (h : CmdHdr) (r : CmdStop) : (s.stopCmd c h r).crd = s.crd := by cases r <;> simp only [State.stopCmd, State.finish_crd, State.noteCmd_crd]
@[simp] theorem State.stopCmd_boot (c : Instr) (h : CmdHdr) (r : CmdStop) : (s.stopCmd c h r).boot = s.boot := by cases r <;> simp only [State.stopCmd, State.finish_boot, State.noteCmd_boot]
@[simp] theorem State.stopCmd_stk (c : Instr) (h : CmdHdr) (r : CmdStop) : (s.stopCmd c h r).stk = s.stk := by cases r <;> simp only [State.stopCmd, State.finish_stk, State.noteCmd_stk]

/-! ## countTx: the outcome of a transaction -/

@[simp] theorem State.countTx_pending (k c : Nat) : (s.countTx k c).pending = s.pending := by simp only [State.countTx]; (repeat' split) <;> simp
@[simp] theorem State.countTx_out (k c : Nat) : (s.countTx k c).out = s.out := by simp only [State.countTx]; (repeat' split) <;> simp
@[simp] theorem State.countTx_drawn (k c : Nat) : (s.countTx k c).drawn = s.drawn := by simp only [State.countTx]; (repeat' split) <;> simp
@[simp] theorem State.countTx_tm (k c : Nat) : (s.countTx k c).tm = s.tm := by simp only [State.countTx]; (repeat' split) <;> simp
@[simp] theorem State.countTx_host (k c : Nat) : (s.countTx k c).host = s.host := by simp only [State.countTx]; (repeat' split) <;> simp
@[simp] theorem State.countTx_flt (k c : Nat) : (s.countTx k c).flt = s.flt := by simp only [State.countTx]; (repeat' split) <;> simp
@[simp] theorem State.countTx_cnt (k c : Nat) : (s.countTx k c).cnt = s.cnt := by simp only [State.countTx]; (repeat' split) <;> simp
@[simp] theorem State.countTx_prs (k c : Nat) : (s.countTx k c).prs = s.prs := by simp only [State.countTx]; (repeat' split) <;> simp
@[simp] theorem State.countTx_cls (k c : Nat) : (s.countTx k c).cls = s.cls := by simp only [State.countTx]; (repeat' split) <;> simp
@[simp] theorem State.countTx_port (k c : Nat) : (s.countTx k c).port = s.port := by simp only [State.countTx]; (repeat' split) <;> simp
@[simp] theorem State.countTx_msk (k c : Nat) : (s.countTx k c).msk = s.msk := by simp only [State.countTx]; (repeat' split) <;> simp
@[simp] theorem State.countTx_pk (k c : Nat) : (s.countTx k c).pk = s.pk := by simp only [State.countTx]; (repeat' split) <;> simp
@[simp] theorem State.countTx_fst (k c : Nat) : (s.countTx k c).fst = s.fst := by simp only [State.countTx]; (repeat' split) <;> simp
@[simp] theorem State.countTx_hbm (k c : Nat) : (s.countTx k c).hbm = s.hbm := by simp only [State.countTx]; (repeat' split) <;> simp
@[simp] theorem State.countTx_rig (k c : Nat) : (s.countTx k c).rig = s.rig := by simp only [State.countTx]; (repeat' split) <;> simp
@[simp] theorem State.countTx_egs (k c : Nat) : (s.countTx k c).egs = s.egs := by simp only [State.countTx]; (repeat' split) <;> simp
@[simp] theorem State.countTx_crd (k c : Nat) : (s.countTx k c).crd = s.crd := by simp only [State.countTx]; (repeat' split) <;> simp
@[simp] theorem State.countTx_boot (k c : Nat) : (s.countTx k c).boot = s.boot := by simp only [State.countTx]; (repeat' split) <;> simp
@[simp] theorem State.countTx_stk (k c : Nat) : (s.countTx k c).stk = s.stk := by simp only [State.countTx]; (repeat' split) <;> simp

end Sys2Proof.Machine
end

