-- ==== Sys2Proof/Laws/Cmds.lean ====
section
/-! SUPPORT. What the wrapper of the Jaris commands does (R453, R455, R456). -/

namespace Sys2Proof.Machine

theorem firstBad_eq_none (cs : List Bool) : firstBad cs = none ↔ ∀ c ∈ cs, c = true := by
  induction cs with
  | nil => simp [firstBad]
  | cons c cs ih =>
    cases c with
    | false => simp [firstBad]
    | true =>
      simp only [List.mem_cons, forall_eq_or_imp, true_and, ← ih]
      simp [firstBad]

section
variable (s : State) (c : Instr) (h : CmdHdr) (a : CmdAttr) (cs : List Bool)

/-- A command that is stopped before its own checks is refused or held. -/
theorem State.cmd_stopped (body : State → State × Rsp) (r : CmdStop) (hr : s.refuseCmd h a = some r) :
    s.cmd c h a cs body = s.stopCmd c h r := by simp [State.cmd, hr]

/-- A command that is admitted and whose parameters hold is carried out and answered. -/
theorem State.cmd_ran (body : State → State × Rsp) (hr : s.refuseCmd h a = none) (hc : ∀ c ∈ cs, c = true) :
    s.cmd c h a cs body = (body s).1.finish h (body s).2 := by simp [State.cmd, hr, (firstBad_eq_none cs).2 hc]

theorem State.cmdLater_stopped (body : State → State × Option Rsp) (r : CmdStop) (hr : s.refuseCmd h a = some r) :
    s.cmdLater c h a cs body = s.stopCmd c h r := by simp [State.cmdLater, hr]

/-- A command that finishes later has begun, and one whose body answers at once is answered. -/
theorem State.cmdLater_ran (body : State → State × Option Rsp) (hr : s.refuseCmd h a = none) (hc : ∀ c ∈ cs, c = true) :
    s.cmdLater c h a cs body = (body s).2.elim ((body s).1.beginCmd h) ((body s).1.finish h) := by
  simp only [State.cmdLater, hr, (firstBad_eq_none cs).2 hc]
  split <;> simp_all

/-- A command with a faulty parameter ends with E_INVAL, its detail the first faulty one. -/
theorem State.cmd_invalid (body : State → State × Rsp) (i : Nat) (hr : s.refuseCmd h a = none)
    (hi : firstBad cs = some i) : s.cmd c h a cs body = s.finish h (.inval i) := by simp [State.cmd, hr, hi]

end

end Sys2Proof.Machine
end

