-- ==== Sys2Proof/Laws/Flow.lean ====
section
/-! SUPPORT. What the checks of the flow store look at (R208, R255). -/

namespace Sys2Proof.Machine

/-- The check of a heap handle looks at the sizes of the pools alone. -/
theorem State.badHeap_congr {s t : State} (h : t.fst.heapCfg = s.fst.heapCfg) (x : Nat) : t.badHeap x = s.badHeap x := by
  have hb (p : Nat) : t.poolBase p = s.poolBase p := by unfold State.poolBase; rw [h]
  have hz (p : Nat) : t.poolSize p = s.poolSize p := by unfold State.poolSize; rw [h]
  simp only [State.badHeap, State.poolOf, hb, hz]

/-- A cached record is found by the lines alone. -/
theorem State.recLine_congr {s t : State} (h : t.fst.lines = s.fst.lines) (k x : Nat) : t.recLine k x = s.recLine k x := by
  simp only [State.recLine, h]

end Sys2Proof.Machine
end

