-- ==== Sys2Proof/Laws/PerInstr.lean ====
section
/-! SUPPORT. The header of a well-formed command: a mailbox of R447 and a command index of 16 bits (R452), command by
command. -/

namespace Sys2Proof.Laws

/-- A well-formed command with a header comes from one of the ten mailboxes, under a 16-bit index. -/
def Header.Statement (i : Instr) : Prop := i.wf = true → ∀ h, i.header = some h → h.mbx < 10 ∧ h.cid < 2 ^ 16

/-- What a header's own check says. -/
theorem CmdHdr.ok_bounds {h : CmdHdr} (w : h.ok = true) : h.mbx < 10 ∧ h.cid < 2 ^ 16 := by
  simpa [CmdHdr.ok] using w

theorem Header.sysIdentity : ∀ h, Header.Statement (.sysIdentity h) :=
  fun h w k e => by
  rw [← Option.some.inj e]; exact CmdHdr.ok_bounds w

theorem Header.sysStatus : ∀ h, Header.Statement (.sysStatus h) :=
  fun h w k e => by
  rw [← Option.some.inj e]; exact CmdHdr.ok_bounds w

theorem Header.sysDebugChallenge : ∀ h, Header.Statement (.sysDebugChallenge h) :=
  fun h w k e => by
  rw [← Option.some.inj e]; exact CmdHdr.ok_bounds w

theorem Header.sysDebugUnlock : ∀ h key, Header.Statement (.sysDebugUnlock h key) :=
  fun h _ w k e => by
  rw [← Option.some.inj e]; exact CmdHdr.ok_bounds w

theorem Header.sysFwUpdate : ∀ h image key written, Header.Statement (.sysFwUpdate h image key written) :=
  fun h _ _ _ w k e => by
  rw [← Option.some.inj e]; exact CmdHdr.ok_bounds w

theorem Header.sysFurl : ∀ h, Header.Statement (.sysFurl h) :=
  fun h w k e => by
  rw [← Option.some.inj e]; exact CmdHdr.ok_bounds w

theorem Header.sysUnfurl : ∀ h, Header.Statement (.sysUnfurl h) :=
  fun h w k e => by
  rw [← Option.some.inj e]; exact CmdHdr.ok_bounds w

theorem Header.mbxNop : ∀ h, Header.Statement (.mbxNop h) :=
  fun h w k e => by
  rw [← Option.some.inj e]; exact CmdHdr.ok_bounds w

theorem Header.ringConfig : ∀ h ring rtype base n slotSize vector count us enable, Header.Statement (.ringConfig h ring rtype base n slotSize vector count us enable) :=
  fun h _ _ _ _ _ _ _ _ _ w k e => by
  rw [← Option.some.inj e]; exact CmdHdr.ok_bounds w

theorem Header.ringBind : ∀ h cls dest, Header.Statement (.ringBind h cls dest) :=
  fun h _ _ w k e => by
  rw [← Option.some.inj e]; exact CmdHdr.ok_bounds w

theorem Header.ringStatus : ∀ h ring, Header.Statement (.ringStatus h ring) :=
  fun h _ w k e => by
  rw [← Option.some.inj e]; exact CmdHdr.ok_bounds w

theorem Header.timeServoConfig : ∀ h kp ki fMax lockThreshold lockCount unlockThreshold stepThreshold inputTimeout holdoverGrace, Header.Statement (.timeServoConfig h kp ki fMax lockThreshold lockCount unlockThreshold stepThreshold inputTimeout holdoverGrace) :=
  fun h _ _ _ _ _ _ _ _ _ w k e => by
  rw [← Option.some.inj e]; exact CmdHdr.ok_bounds w

theorem Header.timeDomainConfig : ∀ h domain source port domainNumber meanPathDelay autoSwitch, Header.Statement (.timeDomainConfig h domain source port domainNumber meanPathDelay autoSwitch) :=
  fun h _ _ _ _ _ _ w k e => by
  rw [← Option.some.inj e]; exact CmdHdr.ok_bounds w

theorem Header.timeSelectDomain : ∀ h domain, Header.Statement (.timeSelectDomain h domain) :=
  fun h _ w k e => by
  rw [← Option.some.inj e]; exact CmdHdr.ok_bounds w

theorem Header.timeSlewConfig : ∀ h slewRate slewRamp, Header.Statement (.timeSlewConfig h slewRate slewRamp) :=
  fun h _ _ w k e => by
  rw [← Option.some.inj e]; exact CmdHdr.ok_bounds w

theorem Header.timeTcConfig : ∀ h mode ports delays, Header.Statement (.timeTcConfig h mode ports delays) :=
  fun h _ _ _ w k e => by
  rw [← Option.some.inj e]; exact CmdHdr.ok_bounds w

theorem Header.timeIoConfig : ∀ h ioCtrl synce0 synce1, Header.Statement (.timeIoConfig h ioCtrl synce0 synce1) :=
  fun h _ _ _ w k e => by
  rw [← Option.some.inj e]; exact CmdHdr.ok_bounds w

theorem Header.tecArm : ∀ h words, Header.Statement (.tecArm h words) :=
  fun h _ w k e => by
  rw [← Option.some.inj e]; exact CmdHdr.ok_bounds w

theorem Header.tecCancel : ∀ h handle, Header.Statement (.tecCancel h handle) :=
  fun h _ w k e => by
  rw [← Option.some.inj e]; exact CmdHdr.ok_bounds w

theorem Header.portConfig : ∀ h port lanes laneRate fec medium anEn ltEn maxFrame ctEn holdoff, Header.Statement (.portConfig h port lanes laneRate fec medium anEn ltEn maxFrame ctEn holdoff) :=
  fun h _ _ _ _ _ _ _ _ _ _ w k e => by
  rw [← Option.some.inj e]; exact CmdHdr.ok_bounds w

theorem Header.portDelete : ∀ h port, Header.Statement (.portDelete h port) :=
  fun h _ w k e => by
  rw [← Option.some.inj e]; exact CmdHdr.ok_bounds w

theorem Header.portLaneMap : ∀ h macro_ txOrder txPol rxOrder rxPol, Header.Statement (.portLaneMap h macro_ txOrder txPol rxOrder rxPol) :=
  fun h _ _ _ _ _ w k e => by
  rw [← Option.some.inj e]; exact CmdHdr.ok_bounds w

theorem Header.portFcConfig : ∀ h port mode classes xoff xon headroom quanta watchdog restore, Header.Statement (.portFcConfig h port mode classes xoff xon headroom quanta watchdog restore) :=
  fun h _ _ _ _ _ _ _ _ _ w k e => by
  rw [← Option.some.inj e]; exact CmdHdr.ok_bounds w

theorem Header.portStatus : ∀ h port, Header.Statement (.portStatus h port) :=
  fun h _ w k e => by
  rw [← Option.some.inj e]; exact CmdHdr.ok_bounds w

theorem Header.prsGraphWrite : ∀ h index words, Header.Statement (.prsGraphWrite h index words) :=
  fun h _ _ w k e => by
  rw [← Option.some.inj e]; exact CmdHdr.ok_bounds w

theorem Header.prsGraphRead : ∀ h index, Header.Statement (.prsGraphRead h index) :=
  fun h _ w k e => by
  rw [← Option.some.inj e]; exact CmdHdr.ok_bounds w

theorem Header.prsPortStart : ∀ h port start group, Header.Statement (.prsPortStart h port start group) :=
  fun h _ _ _ w k e => by
  rw [← Option.some.inj e]; exact CmdHdr.ok_bounds w

theorem Header.prsKeyProfile : ∀ h index words, Header.Statement (.prsKeyProfile h index words) :=
  fun h _ _ w k e => by
  rw [← Option.some.inj e]; exact CmdHdr.ok_bounds w

theorem Header.prsKeyMap : ∀ h group keyClass profile, Header.Statement (.prsKeyMap h group keyClass profile) :=
  fun h _ _ _ w k e => by
  rw [← Option.some.inj e]; exact CmdHdr.ok_bounds w

theorem Header.prsScanConfig : ∀ h ipv4 geneve, Header.Statement (.prsScanConfig h ipv4 geneve) :=
  fun h _ _ w k e => by
  rw [← Option.some.inj e]; exact CmdHdr.ok_bounds w

theorem Header.prsExcConfig : ∀ h conflictAction trapEn trapToCriod trapRing trapLen, Header.Statement (.prsExcConfig h conflictAction trapEn trapToCriod trapRing trapLen) :=
  fun h _ _ _ _ _ w k e => by
  rw [← Option.some.inj e]; exact CmdHdr.ok_bounds w

theorem Header.emTableConfig : ∀ h table wide keyUnits, Header.Statement (.emTableConfig h table wide keyUnits) :=
  fun h _ _ _ w k e => by
  rw [← Option.some.inj e]; exact CmdHdr.ok_bounds w

theorem Header.emInsert : ∀ h table key ep0 ep1 action data, Header.Statement (.emInsert h table key ep0 ep1 action data) :=
  fun h _ _ _ _ _ _ w k e => by
  rw [← Option.some.inj e]; exact CmdHdr.ok_bounds w

theorem Header.emModify : ∀ h table key epoch action data, Header.Statement (.emModify h table key epoch action data) :=
  fun h _ _ _ _ _ w k e => by
  rw [← Option.some.inj e]; exact CmdHdr.ok_bounds w

theorem Header.emDelete : ∀ h table key epoch, Header.Statement (.emDelete h table key epoch) :=
  fun h _ _ _ w k e => by
  rw [← Option.some.inj e]; exact CmdHdr.ok_bounds w

theorem Header.emSetMembership : ∀ h table key epoch ep0 ep1, Header.Statement (.emSetMembership h table key epoch ep0 ep1) :=
  fun h _ _ _ _ _ w k e => by
  rw [← Option.some.inj e]; exact CmdHdr.ok_bounds w

theorem Header.emRead : ∀ h table key epoch clearHit, Header.Statement (.emRead h table key epoch clearHit) :=
  fun h _ _ _ _ w k e => by
  rw [← Option.some.inj e]; exact CmdHdr.ok_bounds w

theorem Header.clsClassProfile : ∀ h index word, Header.Statement (.clsClassProfile h index word) :=
  fun h _ _ w k e => by
  rw [← Option.some.inj e]; exact CmdHdr.ok_bounds w

theorem Header.clsPortConfig : ∀ h port vrf vlan unknownSa staticMove, Header.Statement (.clsPortConfig h port vrf vlan unknownSa staticMove) :=
  fun h _ _ _ _ _ w k e => by
  rw [← Option.some.inj e]; exact CmdHdr.ok_bounds w

theorem Header.clsProfileSet : ∀ h index words, Header.Statement (.clsProfileSet h index words) :=
  fun h _ _ w k e => by
  rw [← Option.some.inj e]; exact CmdHdr.ok_bounds w

theorem Header.l2Insert : ∀ h vlan mac port isStatic, Header.Statement (.l2Insert h vlan mac port isStatic) :=
  fun h _ _ _ _ w k e => by
  rw [← Option.some.inj e]; exact CmdHdr.ok_bounds w

theorem Header.l2Delete : ∀ h vlan mac, Header.Statement (.l2Delete h vlan mac) :=
  fun h _ _ w k e => by
  rw [← Option.some.inj e]; exact CmdHdr.ok_bounds w

theorem Header.l2LearnConfig : ∀ h toHost ring holdoff rate ageTime sweepPeriod, Header.Statement (.l2LearnConfig h toHost ring holdoff rate ageTime sweepPeriod) :=
  fun h _ _ _ _ _ _ w k e => by
  rw [← Option.some.inj e]; exact CmdHdr.ok_bounds w

theorem Header.routeHostAdd : ∀ h vrf v6 addr plen fwdOp fwdTarget, Header.Statement (.routeHostAdd h vrf v6 addr plen fwdOp fwdTarget) :=
  fun h _ _ _ _ _ _ w k e => by
  rw [← Option.some.inj e]; exact CmdHdr.ok_bounds w

theorem Header.routeLpmAdd : ∀ h vrf v6 addr plen fwdOp fwdTarget, Header.Statement (.routeLpmAdd h vrf v6 addr plen fwdOp fwdTarget) :=
  fun h _ _ _ _ _ _ w k e => by
  rw [← Option.some.inj e]; exact CmdHdr.ok_bounds w

theorem Header.routeDelete : ∀ h table vrf v6 addr plen, Header.Statement (.routeDelete h table vrf v6 addr plen) :=
  fun h _ _ _ _ _ w k e => by
  rw [← Option.some.inj e]; exact CmdHdr.ok_bounds w

theorem Header.nhSet : ∀ h index port rewrite backup backupValid, Header.Statement (.nhSet h index port rewrite backup backupValid) :=
  fun h _ _ _ _ _ w k e => by
  rw [← Option.some.inj e]; exact CmdHdr.ok_bounds w

theorem Header.ecmpSet : ∀ h group hashSel members, Header.Statement (.ecmpSet h group hashSel members) :=
  fun h _ _ _ w k e => by
  rw [← Option.some.inj e]; exact CmdHdr.ok_bounds w

theorem Header.epochSwap : ∀ h target, Header.Statement (.epochSwap h target) :=
  fun h _ w k e => by
  rw [← Option.some.inj e]; exact CmdHdr.ok_bounds w

theorem Header.epochStatus : ∀ h, Header.Statement (.epochStatus h) :=
  fun h w k e => by
  rw [← Option.some.inj e]; exact CmdHdr.ok_bounds w

theorem Header.mskBankConfig : ∀ h bank width prio, Header.Statement (.mskBankConfig h bank width prio) :=
  fun h _ _ _ w k e => by
  rw [← Option.some.inj e]; exact CmdHdr.ok_bounds w

theorem Header.mskProfileSet : ∀ h index words, Header.Statement (.mskProfileSet h index words) :=
  fun h _ _ w k e => by
  rw [← Option.some.inj e]; exact CmdHdr.ok_bounds w

theorem Header.mskWrite : ∀ h bank index ep0 ep1 width value mask action, Header.Statement (.mskWrite h bank index ep0 ep1 width value mask action) :=
  fun h _ _ _ _ _ _ _ _ w k e => by
  rw [← Option.some.inj e]; exact CmdHdr.ok_bounds w

theorem Header.mskModifyAction : ∀ h bank index action, Header.Statement (.mskModifyAction h bank index action) :=
  fun h _ _ _ w k e => by
  rw [← Option.some.inj e]; exact CmdHdr.ok_bounds w

theorem Header.mskSetMembership : ∀ h bank index ep0 ep1, Header.Statement (.mskSetMembership h bank index ep0 ep1) :=
  fun h _ _ _ _ w k e => by
  rw [← Option.some.inj e]; exact CmdHdr.ok_bounds w

theorem Header.mskDelete : ∀ h bank index, Header.Statement (.mskDelete h bank index) :=
  fun h _ _ w k e => by
  rw [← Option.some.inj e]; exact CmdHdr.ok_bounds w

theorem Header.mskRead : ∀ h bank index clearHit, Header.Statement (.mskRead h bank index clearHit) :=
  fun h _ _ _ w k e => by
  rw [← Option.some.inj e]; exact CmdHdr.ok_bounds w

theorem Header.mskScrubConfig : ∀ h scrubEn, Header.Statement (.mskScrubConfig h scrubEn) :=
  fun h _ w k e => by
  rw [← Option.some.inj e]; exact CmdHdr.ok_bounds w

theorem Header.flowInsert : ∀ h flow, Header.Statement (.flowInsert h flow) :=
  fun h _ w k e => by
  rw [← Option.some.inj e]; exact CmdHdr.ok_bounds w

theorem Header.flowRead : ∀ h byHandle handle key, Header.Statement (.flowRead h byHandle handle key) :=
  fun h _ _ _ w k e => by
  rw [← Option.some.inj e]; exact CmdHdr.ok_bounds w

theorem Header.flowModify : ∀ h key mask words, Header.Statement (.flowModify h key mask words) :=
  fun h _ _ _ w k e => by
  rw [← Option.some.inj e]; exact CmdHdr.ok_bounds w

theorem Header.flowDelete : ∀ h key, Header.Statement (.flowDelete h key) :=
  fun h _ w k e => by
  rw [← Option.some.inj e]; exact CmdHdr.ok_bounds w

theorem Header.fstRebuild : ∀ h k newSeed, Header.Statement (.fstRebuild h k newSeed) :=
  fun h _ _ w k e => by
  rw [← Option.some.inj e]; exact CmdHdr.ok_bounds w

theorem Header.fstSweepConfig : ∀ h desc mask, Header.Statement (.fstSweepConfig h desc mask) :=
  fun h _ _ w k e => by
  rw [← Option.some.inj e]; exact CmdHdr.ok_bounds w

theorem Header.fstMqConfig : ∀ h setupCap, Header.Statement (.fstMqConfig h setupCap) :=
  fun h _ w k e => by
  rw [← Option.some.inj e]; exact CmdHdr.ok_bounds w

theorem Header.fstStatus : ∀ h shard, Header.Statement (.fstStatus h shard) :=
  fun h _ w k e => by
  rw [← Option.some.inj e]; exact CmdHdr.ok_bounds w

theorem Header.setupTemplateSet : ∀ h index words, Header.Statement (.setupTemplateSet h index words) :=
  fun h _ _ w k e => by
  rw [← Option.some.inj e]; exact CmdHdr.ok_bounds w

theorem Header.setupFwConfig : ∀ h timeout, Header.Statement (.setupFwConfig h timeout) :=
  fun h _ w k e => by
  rw [← Option.some.inj e]; exact CmdHdr.ok_bounds w

theorem Header.natPoolSet : ∀ h pool insideBase insideShift subCount outsideBase addrCount portLo blockSize m prefix64 len64, Header.Statement (.natPoolSet h pool insideBase insideShift subCount outsideBase addrCount portLo blockSize m prefix64 len64) :=
  fun h _ _ _ _ _ _ _ _ _ _ _ w k e => by
  rw [← Option.some.inj e]; exact CmdHdr.ok_bounds w

theorem Header.natPoolStatus : ∀ h pool sub, Header.Statement (.natPoolStatus h pool sub) :=
  fun h _ _ w k e => by
  rw [← Option.some.inj e]; exact CmdHdr.ok_bounds w

theorem Header.natHoldConfig : ∀ h seconds, Header.Statement (.natHoldConfig h seconds) :=
  fun h _ w k e => by
  rw [← Option.some.inj e]; exact CmdHdr.ok_bounds w

theorem Header.bpmHeapConfig : ∀ h n64 n128 n256, Header.Statement (.bpmHeapConfig h n64 n128 n256) :=
  fun h _ _ _ w k e => by
  rw [← Option.some.inj e]; exact CmdHdr.ok_bounds w

theorem Header.bpmCtrlConfig : ∀ h counts, Header.Statement (.bpmCtrlConfig h counts) :=
  fun h _ w k e => by
  rw [← Option.some.inj e]; exact CmdHdr.ok_bounds w

theorem Header.bpmStatus : ∀ h, Header.Statement (.bpmStatus h) :=
  fun h w k e => by
  rw [← Option.some.inj e]; exact CmdHdr.ok_bounds w

theorem Header.txOpen : ∀ h, Header.Statement (.txOpen h) :=
  fun h w k e => by
  rw [← Option.some.inj e]; exact CmdHdr.ok_bounds w

theorem Header.txAdd : ∀ h tx descs, Header.Statement (.txAdd h tx descs) :=
  fun h _ _ w k e => by
  rw [← Option.some.inj e]; exact CmdHdr.ok_bounds w

theorem Header.txCommit : ∀ h tx, Header.Statement (.txCommit h tx) :=
  fun h _ w k e => by
  rw [← Option.some.inj e]; exact CmdHdr.ok_bounds w

theorem Header.txAbort : ∀ h tx, Header.Statement (.txAbort h tx) :=
  fun h _ w k e => by
  rw [← Option.some.inj e]; exact CmdHdr.ok_bounds w

theorem Header.rigLoad : ∀ h image key, Header.Statement (.rigLoad h image key) :=
  fun h _ _ w k e => by
  rw [← Option.some.inj e]; exact CmdHdr.ok_bounds w

theorem Header.rigEntrySet : ∀ h entry valid ep0 ep1 limit, Header.Statement (.rigEntrySet h entry valid ep0 ep1 limit) :=
  fun h _ _ _ _ _ w k e => by
  rw [← Option.some.inj e]; exact CmdHdr.ok_bounds w

theorem Header.rigStatus : ∀ h, Header.Statement (.rigStatus h) :=
  fun h w k e => by
  rw [← Option.some.inj e]; exact CmdHdr.ok_bounds w

theorem Header.rigTableWrite : ∀ h kind first rows, Header.Statement (.rigTableWrite h kind first rows) :=
  fun h _ _ _ w k e => by
  rw [← Option.some.inj e]; exact CmdHdr.ok_bounds w

theorem Header.polProfileSet : ∀ h index cir pir cbs pbs aware, Header.Statement (.polProfileSet h index cir pir cbs pbs aware) :=
  fun h _ _ _ _ _ _ w k e => by
  rw [← Option.some.inj e]; exact CmdHdr.ok_bounds w

theorem Header.lbPoolSet : ∀ h pool seed backends, Header.Statement (.lbPoolSet h pool seed backends) :=
  fun h _ _ _ w k e => by
  rw [← Option.some.inj e]; exact CmdHdr.ok_bounds w

theorem Header.lbBackendSet : ∀ h backend address port state, Header.Statement (.lbBackendSet h backend address port state) :=
  fun h _ _ _ _ w k e => by
  rw [← Option.some.inj e]; exact CmdHdr.ok_bounds w

theorem Header.iqmProfileSet : ∀ h profile cls minCells alpha maxCells yellow red ageLimit, Header.Statement (.iqmProfileSet h profile cls minCells alpha maxCells yellow red ageLimit) :=
  fun h _ _ _ _ _ _ _ _ w k e => by
  rw [← Option.some.inj e]; exact CmdHdr.ok_bounds w

theorem Header.iqmPortConfig : ∀ h port profile pcpMap defClass inSession egSession sampleN, Header.Statement (.iqmPortConfig h port profile pcpMap defClass inSession egSession sampleN) :=
  fun h _ _ _ _ _ _ _ w k e => by
  rw [← Option.some.inj e]; exact CmdHdr.ok_bounds w

theorem Header.iqmGlobalConfig : ∀ h arrivalReserve mcReserve mirrorMax copyRate sampleLen ctEn, Header.Statement (.iqmGlobalConfig h arrivalReserve mcReserve mirrorMax copyRate sampleLen ctEn) :=
  fun h _ _ _ _ _ _ w k e => by
  rw [← Option.some.inj e]; exact CmdHdr.ok_bounds w

theorem Header.iqmTrapConfig : ∀ h index toCriod ring trapLen, Header.Statement (.iqmTrapConfig h index toCriod ring trapLen) :=
  fun h _ _ _ _ w k e => by
  rw [← Option.some.inj e]; exact CmdHdr.ok_bounds w

theorem Header.iqmVoqStatus : ∀ h pipe port cls, Header.Statement (.iqmVoqStatus h pipe port cls) :=
  fun h _ _ _ w k e => by
  rw [← Option.some.inj e]; exact CmdHdr.ok_bounds w

theorem Header.replGroupSet : ∀ h group prune members, Header.Statement (.replGroupSet h group prune members) :=
  fun h _ _ _ w k e => by
  rw [← Option.some.inj e]; exact CmdHdr.ok_bounds w

theorem Header.mirrorSessionSet : ∀ h session m, Header.Statement (.mirrorSessionSet h session m) :=
  fun h _ _ w k e => by
  rw [← Option.some.inj e]; exact CmdHdr.ok_bounds w

theorem Header.smpProfileSet : ∀ h profile n, Header.Statement (.smpProfileSet h profile n) :=
  fun h _ _ w k e => by
  rw [← Option.some.inj e]; exact CmdHdr.ok_bounds w

theorem Header.egsSchedConfig : ∀ h port classes shapedMask, Header.Statement (.egsSchedConfig h port classes shapedMask) :=
  fun h _ _ _ w k e => by
  rw [← Option.some.inj e]; exact CmdHdr.ok_bounds w

theorem Header.egsShaperSet : ∀ h port shaper mode rate burst overhead hi lo zeroReset, Header.Statement (.egsShaperSet h port shaper mode rate burst overhead hi lo zeroReset) :=
  fun h _ _ _ _ _ _ _ _ _ w k e => by
  rw [← Option.some.inj e]; exact CmdHdr.ok_bounds w

theorem Header.egsPortConfig : ∀ h port frerElim gateLead, Header.Statement (.egsPortConfig h port frerElim gateLead) :=
  fun h _ _ _ w k e => by
  rw [← Option.some.inj e]; exact CmdHdr.ok_bounds w

theorem Header.egsUnlockedConfig : ∀ h state mask, Header.Statement (.egsUnlockedConfig h state mask) :=
  fun h _ _ w k e => by
  rw [← Option.some.inj e]; exact CmdHdr.ok_bounds w

theorem Header.egsRewriteSet : ∀ h index words, Header.Statement (.egsRewriteSet h index words) :=
  fun h _ _ w k e => by
  rw [← Option.some.inj e]; exact CmdHdr.ok_bounds w

theorem Header.egsFailoverConfig : ∀ h revertHoldoff, Header.Statement (.egsFailoverConfig h revertHoldoff) :=
  fun h _ w k e => by
  rw [← Option.some.inj e]; exact CmdHdr.ok_bounds w

theorem Header.gateListSet : ∀ h port list valid gateMask base cycleTime cycleExt entries, Header.Statement (.gateListSet h port list valid gateMask base cycleTime cycleExt entries) :=
  fun h _ _ _ _ _ _ _ _ w k e => by
  rw [← Option.some.inj e]; exact CmdHdr.ok_bounds w

theorem Header.gateActivate : ∀ h port list, Header.Statement (.gateActivate h port list) :=
  fun h _ _ w k e => by
  rw [← Option.some.inj e]; exact CmdHdr.ok_bounds w

theorem Header.gateStatus : ∀ h port, Header.Statement (.gateStatus h port) :=
  fun h _ w k e => by
  rw [← Option.some.inj e]; exact CmdHdr.ok_bounds w

theorem Header.redConfig : ∀ h latentEn period, Header.Statement (.redConfig h latentEn period) :=
  fun h _ _ w k e => by
  rw [← Option.some.inj e]; exact CmdHdr.ok_bounds w

theorem Header.redMonitorSet : ∀ h monitor handle n threshold enable, Header.Statement (.redMonitorSet h monitor handle n threshold enable) :=
  fun h _ _ _ _ _ w k e => by
  rw [← Option.some.inj e]; exact CmdHdr.ok_bounds w

theorem Header.mcxStatus : ∀ h stack, Header.Statement (.mcxStatus h stack) :=
  fun h _ w k e => by
  rw [← Option.some.inj e]; exact CmdHdr.ok_bounds w

theorem Header.mcxHistory : ∀ h stack, Header.Statement (.mcxHistory h stack) :=
  fun h _ w k e => by
  rw [← Option.some.inj e]; exact CmdHdr.ok_bounds w

theorem Header.mcxRhConfig : ∀ h threshold, Header.Statement (.mcxRhConfig h threshold) :=
  fun h _ w k e => by
  rw [← Option.some.inj e]; exact CmdHdr.ok_bounds w

theorem Header.mcxScrubConfig : ∀ h patrolEn scrubHours extLimit, Header.Statement (.mcxScrubConfig h patrolEn scrubHours extLimit) :=
  fun h _ _ _ w k e => by
  rw [← Option.some.inj e]; exact CmdHdr.ok_bounds w

theorem Header.mcxRetire : ∀ h stack pc, Header.Statement (.mcxRetire h stack pc) :=
  fun h _ _ w k e => by
  rw [← Option.some.inj e]; exact CmdHdr.ok_bounds w

theorem Header.crdStatus : ∀ h, Header.Statement (.crdStatus h) :=
  fun h w k e => by
  rw [← Option.some.inj e]; exact CmdHdr.ok_bounds w

theorem Header.crdTakeover : ∀ h core, Header.Statement (.crdTakeover h core) :=
  fun h _ w k e => by
  rw [← Option.some.inj e]; exact CmdHdr.ok_bounds w

theorem Header.crdConfig : ∀ h becalmedAction kickPeriod ckptPeriod, Header.Statement (.crdConfig h becalmedAction kickPeriod ckptPeriod) :=
  fun h _ _ _ w k e => by
  rw [← Option.some.inj e]; exact CmdHdr.ok_bounds w

theorem Header.crdHealth : ∀ h, Header.Statement (.crdHealth h) :=
  fun h w k e => by
  rw [← Option.some.inj e]; exact CmdHdr.ok_bounds w

theorem Header.dbgStop : ∀ h core thread, Header.Statement (.dbgStop h core thread) :=
  fun h _ _ w k e => by
  rw [← Option.some.inj e]; exact CmdHdr.ok_bounds w

theorem Header.dbgResume : ∀ h core thread, Header.Statement (.dbgResume h core thread) :=
  fun h _ _ w k e => by
  rw [← Option.some.inj e]; exact CmdHdr.ok_bounds w

theorem Header.dbgStep : ∀ h core thread writes, Header.Statement (.dbgStep h core thread writes) :=
  fun h _ _ _ w k e => by
  rw [← Option.some.inj e]; exact CmdHdr.ok_bounds w

theorem Header.dbgHold : ∀ h core thread on, Header.Statement (.dbgHold h core thread on) :=
  fun h _ _ _ w k e => by
  rw [← Option.some.inj e]; exact CmdHdr.ok_bounds w

theorem Header.dbgThreadRead : ∀ h core thread sram first count, Header.Statement (.dbgThreadRead h core thread sram first count) :=
  fun h _ _ _ _ _ w k e => by
  rw [← Option.some.inj e]; exact CmdHdr.ok_bounds w

theorem Header.dbgThreadWrite : ∀ h core thread sram first values, Header.Statement (.dbgThreadWrite h core thread sram first values) :=
  fun h _ _ _ _ _ w k e => by
  rw [← Option.some.inj e]; exact CmdHdr.ok_bounds w

theorem Header.dbgChannelRead : ∀ h channel, Header.Statement (.dbgChannelRead h channel) :=
  fun h _ w k e => by
  rw [← Option.some.inj e]; exact CmdHdr.ok_bounds w

theorem Header.dbgChannelAbort : ∀ h channel, Header.Statement (.dbgChannelAbort h channel) :=
  fun h _ w k e => by
  rw [← Option.some.inj e]; exact CmdHdr.ok_bounds w

theorem Header.fltRead : ∀ h index, Header.Statement (.fltRead h index) :=
  fun h _ w k e => by
  rw [← Option.some.inj e]; exact CmdHdr.ok_bounds w

theorem Header.fltClear : ∀ h index, Header.Statement (.fltClear h index) :=
  fun h _ w k e => by
  rw [← Option.some.inj e]; exact CmdHdr.ok_bounds w

theorem Header.fltConfig : ∀ h code notify intn, Header.Statement (.fltConfig h code notify intn) :=
  fun h _ _ _ w k e => by
  rw [← Option.some.inj e]; exact CmdHdr.ok_bounds w

theorem Header.logRead : ∀ h first count, Header.Statement (.logRead h first count) :=
  fun h _ _ w k e => by
  rw [← Option.some.inj e]; exact CmdHdr.ok_bounds w

theorem Header.logMarker : ∀ h code word, Header.Statement (.logMarker h code word) :=
  fun h _ _ w k e => by
  rw [← Option.some.inj e]; exact CmdHdr.ok_bounds w

theorem Header.availRead : ∀ h, Header.Statement (.availRead h) :=
  fun h w k e => by
  rw [← Option.some.inj e]; exact CmdHdr.ok_bounds w

theorem Header.availReset : ∀ h, Header.Statement (.availReset h) :=
  fun h w k e => by
  rw [← Option.some.inj e]; exact CmdHdr.ok_bounds w

theorem Header.cntSnapshot : ∀ h bank groups, Header.Statement (.cntSnapshot h bank groups) :=
  fun h _ _ w k e => by
  rw [← Option.some.inj e]; exact CmdHdr.ok_bounds w

theorem Header.cntSnapshotAt : ∀ h bank groups instant stack, Header.Statement (.cntSnapshotAt h bank groups instant stack) :=
  fun h _ _ _ _ w k e => by
  rw [← Option.some.inj e]; exact CmdHdr.ok_bounds w

theorem Header.cntRead : ∀ h bank group first count, Header.Statement (.cntRead h bank group first count) :=
  fun h _ _ _ _ w k e => by
  rw [← Option.some.inj e]; exact CmdHdr.ok_bounds w

theorem Header.cntReadOne : ∀ h group index, Header.Statement (.cntReadOne h group index) :=
  fun h _ _ w k e => by
  rw [← Option.some.inj e]; exact CmdHdr.ok_bounds w

theorem Header.cntClear : ∀ h groups, Header.Statement (.cntClear h groups) :=
  fun h _ w k e => by
  rw [← Option.some.inj e]; exact CmdHdr.ok_bounds w

theorem Header.cntBwConfig : ∀ h port code enable, Header.Statement (.cntBwConfig h port code enable) :=
  fun h _ _ _ w k e => by
  rw [← Option.some.inj e]; exact CmdHdr.ok_bounds w

theorem Header.cntBwRead : ∀ h port, Header.Statement (.cntBwRead h port) :=
  fun h _ w k e => by
  rw [← Option.some.inj e]; exact CmdHdr.ok_bounds w

theorem Header.expTemplateSet : ∀ h set header slots, Header.Statement (.expTemplateSet h set header slots) :=
  fun h _ _ _ w k e => by
  rw [← Option.some.inj e]; exact CmdHdr.ok_bounds w

theorem Header.expCollectorSet : ∀ h collector dest, Header.Statement (.expCollectorSet h collector dest) :=
  fun h _ _ w k e => by
  rw [← Option.some.inj e]; exact CmdHdr.ok_bounds w

theorem Header.expConfig : ∀ h enable interval defaultSet msgMax enterprise, Header.Statement (.expConfig h enable interval defaultSet msgMax enterprise) :=
  fun h _ _ _ _ _ w k e => by
  rw [← Option.some.inj e]; exact CmdHdr.ok_bounds w

theorem Header.expStatus : ∀ h, Header.Statement (.expStatus h) :=
  fun h w k e => by
  rw [← Option.some.inj e]; exact CmdHdr.ok_bounds w

theorem Header.lifeReport : ∀ h source, Header.Statement (.lifeReport h source) :=
  fun h _ w k e => by
  rw [← Option.some.inj e]; exact CmdHdr.ok_bounds w

theorem Header.lifeConfig : ∀ h alarmMonths, Header.Statement (.lifeConfig h alarmMonths) :=
  fun h _ w k e => by
  rw [← Option.some.inj e]; exact CmdHdr.ok_bounds w

theorem Header.stkConfig : ∀ h mode lSlots maps, Header.Statement (.stkConfig h mode lSlots maps) :=
  fun h _ _ _ w k e => by
  rw [← Option.some.inj e]; exact CmdHdr.ok_bounds w

theorem Header.stkStatus : ∀ h, Header.Statement (.stkStatus h) :=
  fun h w k e => by
  rw [← Option.some.inj e]; exact CmdHdr.ok_bounds w

theorem Header.stkLinkStatus : ∀ h link, Header.Statement (.stkLinkStatus h link) :=
  fun h _ w k e => by
  rw [← Option.some.inj e]; exact CmdHdr.ok_bounds w

theorem Header.frameArrival : ∀ port bytes, Header.Statement (.frameArrival port bytes) :=
  fun _ _ _ _ e => nomatch e

theorem Header.frameEndStatus : ∀ port bytes fcs err corrCw uncorrCw, Header.Statement (.frameEndStatus port bytes fcs err corrCw uncorrCw) :=
  fun _ _ _ _ _ _ _ _ e => nomatch e

theorem Header.rxMacControlFrame : ∀ port opcode classes quanta, Header.Statement (.rxMacControlFrame port opcode classes quanta) :=
  fun _ _ _ _ _ _ e => nomatch e

theorem Header.pauseExpiry : ∀ port cls, Header.Statement (.pauseExpiry port cls) :=
  fun _ _ _ _ e => nomatch e

theorem Header.xoffResend : ∀ port cls, Header.Statement (.xoffResend port cls) :=
  fun _ _ _ _ e => nomatch e

theorem Header.pfcWatchdog : ∀ port cls, Header.Statement (.pfcWatchdog port cls) :=
  fun _ _ _ _ e => nomatch e

theorem Header.pfcRestoreEnd : ∀ port cls, Header.Statement (.pfcRestoreEnd port cls) :=
  fun _ _ _ _ e => nomatch e

theorem Header.localLinkFault : ∀ port cause, Header.Statement (.localLinkFault port cause) :=
  fun _ _ _ _ e => nomatch e

theorem Header.remoteLinkFault : ∀ port, Header.Statement (.remoteLinkFault port) :=
  fun _ _ _ e => nomatch e

theorem Header.linkUpHoldoffExpiry : ∀ port, Header.Statement (.linkUpHoldoffExpiry port) :=
  fun _ _ _ e => nomatch e

theorem Header.anComplete : ∀ port partner, Header.Statement (.anComplete port partner) :=
  fun _ _ _ _ e => nomatch e

theorem Header.anRestart : ∀ port, Header.Statement (.anRestart port) :=
  fun _ _ _ e => nomatch e

theorem Header.deal : ∀ pipe kind err, Header.Statement (.deal pipe kind err) :=
  fun _ _ _ _ _ e => nomatch e

theorem Header.parserReorderRelease : ∀ pipe src errs, Header.Statement (.parserReorderRelease pipe src errs) :=
  fun _ _ _ _ _ e => nomatch e

theorem Header.flowLookupRequest : ∀ shard err, Header.Statement (.flowLookupRequest shard err) :=
  fun _ _ _ _ e => nomatch e

theorem Header.recordHop : ∀ shard, Header.Statement (.recordHop shard) :=
  fun _ _ _ e => nomatch e

theorem Header.linkFill : ∀ shard, Header.Statement (.linkFill shard) :=
  fun _ _ _ e => nomatch e

theorem Header.missReadReturn : ∀ shard place corrected, Header.Statement (.missReadReturn shard place corrected) :=
  fun _ _ _ _ _ e => nomatch e

theorem Header.installRetry : ∀ shard place, Header.Statement (.installRetry shard place) :=
  fun _ _ _ _ e => nomatch e

theorem Header.lookupAnswer : ∀ pipe, Header.Statement (.lookupAnswer pipe) :=
  fun _ _ _ e => nomatch e

theorem Header.rigDispatch : ∀ pipe upset, Header.Statement (.rigDispatch pipe upset) :=
  fun _ _ _ _ e => nomatch e

theorem Header.tcallResult : ∀ pipe rig wait upset, Header.Statement (.tcallResult pipe rig wait upset) :=
  fun _ _ _ _ _ _ e => nomatch e

theorem Header.rigRestartComplete : ∀ pipe goldenOk, Header.Statement (.rigRestartComplete pipe goldenOk) :=
  fun _ _ _ _ e => nomatch e

theorem Header.updateFlit : ∀ shard, Header.Statement (.updateFlit shard) :=
  fun _ _ _ e => nomatch e

theorem Header.transitionAck : ∀ pipe, Header.Statement (.transitionAck pipe) :=
  fun _ _ _ e => nomatch e

theorem Header.replayReply : ∀ pipe, Header.Statement (.replayReply pipe) :=
  fun _ _ _ e => nomatch e

theorem Header.rigReorderRelease : ∀ pipe src, Header.Statement (.rigReorderRelease pipe src) :=
  fun _ _ _ _ e => nomatch e

theorem Header.voqReq : ∀ egress, Header.Statement (.voqReq egress) :=
  fun _ _ _ e => nomatch e

theorem Header.voqEmpty : ∀ egress, Header.Statement (.voqEmpty egress) :=
  fun _ _ _ e => nomatch e

theorem Header.grantIssue : ∀ port, Header.Statement (.grantIssue port) :=
  fun _ _ _ e => nomatch e

theorem Header.grantArrival : ∀ pipe place err, Header.Statement (.grantArrival pipe place err) :=
  fun _ _ _ _ _ e => nomatch e

theorem Header.ctRequest : ∀ port, Header.Statement (.ctRequest port) :=
  fun _ _ _ e => nomatch e

theorem Header.ctDeny : ∀ pipe, Header.Statement (.ctDeny pipe) :=
  fun _ _ _ e => nomatch e

theorem Header.cellLanding : ∀ egress place err, Header.Statement (.cellLanding egress place err) :=
  fun _ _ _ _ _ e => nomatch e

theorem Header.headScan : ∀ pipe, Header.Statement (.headScan pipe) :=
  fun _ _ _ e => nomatch e

theorem Header.transmitSelection : ∀ port errs, Header.Statement (.transmitSelection port errs) :=
  fun _ _ _ _ e => nomatch e

theorem Header.ctUnderrun : ∀ port, Header.Statement (.ctUnderrun port) :=
  fun _ _ _ e => nomatch e

theorem Header.txFrameEnd : ∀ port, Header.Statement (.txFrameEnd port) :=
  fun _ _ _ e => nomatch e

theorem Header.shaperWake : ∀ pipe, Header.Statement (.shaperWake pipe) :=
  fun _ _ _ e => nomatch e

theorem Header.wheelTurn : ∀ pipe, Header.Statement (.wheelTurn pipe) :=
  fun _ _ _ e => nomatch e

theorem Header.gateEntryChange : ∀ port, Header.Statement (.gateEntryChange port) :=
  fun _ _ _ e => nomatch e

theorem Header.gateChangeInstant : ∀ port, Header.Statement (.gateChangeInstant port) :=
  fun _ _ _ e => nomatch e

theorem Header.gateListRepair : ∀ port, Header.Statement (.gateListRepair port) :=
  fun _ _ _ e => nomatch e

theorem Header.failoverRevert : ∀ port, Header.Statement (.failoverRevert port) :=
  fun _ _ _ e => nomatch e

theorem Header.latentPeriodEnd : ∀ errs, Header.Statement (.latentPeriodEnd errs) :=
  fun _ _ _ e => nomatch e

theorem Header.residenceEntryExpiry : ∀ pipeline, Header.Statement (.residenceEntryExpiry pipeline) :=
  fun _ _ _ e => nomatch e

theorem Header.rewriteEntryRepair : ∀ index, Header.Statement (.rewriteEntryRepair index) :=
  fun _ _ _ e => nomatch e

theorem Header.txDescriptorFetch : ∀ ring words frame, Header.Statement (.txDescriptorFetch ring words frame) :=
  fun _ _ _ _ _ e => nomatch e

theorem Header.timeBaseTick : Header.Statement (.timeBaseTick) :=
  fun _ _ e => nomatch e

theorem Header.halyardFrame : ∀ deviations, Header.Statement (.halyardFrame deviations) :=
  fun _ _ _ e => nomatch e

theorem Header.stepFrame : Header.Statement (.stepFrame) :=
  fun _ _ e => nomatch e

theorem Header.servoOffset : ∀ domain theta, Header.Statement (.servoOffset domain theta) :=
  fun _ _ _ _ e => nomatch e

theorem Header.domainTimeout : ∀ domain, Header.Statement (.domainTimeout domain) :=
  fun _ _ _ e => nomatch e

theorem Header.holdoverGraceExpiry : Header.Statement (.holdoverGraceExpiry) :=
  fun _ _ e => nomatch e

theorem Header.tecFiring : Header.Statement (.tecFiring) :=
  fun _ _ e => nomatch e

theorem Header.tecDeferredFiring : Header.Statement (.tecDeferredFiring) :=
  fun _ _ e => nomatch e

theorem Header.ppsOutEdge : Header.Statement (.ppsOutEdge) :=
  fun _ _ e => nomatch e

theorem Header.ppsInEdge : Header.Statement (.ppsInEdge) :=
  fun _ _ e => nomatch e

theorem Header.todMessageRx : ∀ chars, Header.Statement (.todMessageRx chars) :=
  fun _ _ _ e => nomatch e

theorem Header.todWindowExpiry : Header.Statement (.todWindowExpiry) :=
  fun _ _ e => nomatch e

theorem Header.todOutput : Header.Statement (.todOutput) :=
  fun _ _ e => nomatch e

theorem Header.referenceLost : ∀ ref, Header.Statement (.referenceLost ref) :=
  fun _ _ _ e => nomatch e

theorem Header.referenceRelock : ∀ ref, Header.Statement (.referenceRelock ref) :=
  fun _ _ _ e => nomatch e

theorem Header.prsEntryRepair : ∀ pipe table index, Header.Statement (.prsEntryRepair pipe table index) :=
  fun _ _ _ _ _ e => nomatch e

theorem Header.clsEntryRepair : ∀ die table index, Header.Statement (.clsEntryRepair die table index) :=
  fun _ _ _ _ _ e => nomatch e

theorem Header.mskScrubVisit : ∀ pipe upset shroud, Header.Statement (.mskScrubVisit pipe upset shroud) :=
  fun _ _ _ _ _ e => nomatch e

theorem Header.mskSuspectRepair : ∀ pipe bank unit, Header.Statement (.mskSuspectRepair pipe bank unit) :=
  fun _ _ _ _ _ e => nomatch e

theorem Header.mskActionRepair : ∀ pipe bank unit, Header.Statement (.mskActionRepair pipe bank unit) :=
  fun _ _ _ _ _ e => nomatch e

theorem Header.epochSwapInstant : Header.Statement (.epochSwapInstant) :=
  fun _ _ e => nomatch e

theorem Header.swapComplete : Header.Statement (.swapComplete) :=
  fun _ _ e => nomatch e

theorem Header.epochDrainDeadline : Header.Statement (.epochDrainDeadline) :=
  fun _ _ e => nomatch e

theorem Header.l2AgerVisit : ∀ die slot, Header.Statement (.l2AgerVisit die slot) :=
  fun _ _ _ _ e => nomatch e

theorem Header.relocationClear : ∀ shard, Header.Statement (.relocationClear shard) :=
  fun _ _ _ e => nomatch e

theorem Header.rebuildBucket : ∀ shard, Header.Statement (.rebuildBucket shard) :=
  fun _ _ _ e => nomatch e

theorem Header.rebuildComplete : Header.Statement (.rebuildComplete) :=
  fun _ _ e => nomatch e

theorem Header.ageingPassStart : ∀ shard desc, Header.Statement (.ageingPassStart shard desc) :=
  fun _ _ _ _ e => nomatch e

theorem Header.ageingBlockVisit : ∀ shard, Header.Statement (.ageingBlockVisit shard) :=
  fun _ _ _ e => nomatch e

theorem Header.ageRemovalCommit : ∀ shard, Header.Statement (.ageRemovalCommit shard) :=
  fun _ _ _ e => nomatch e

theorem Header.fwSetupVerdict : ∀ shard place verdict thread flow, Header.Statement (.fwSetupVerdict shard place verdict thread flow) :=
  fun _ _ _ _ _ _ _ e => nomatch e

theorem Header.fwSetupTimeout : ∀ shard place, Header.Statement (.fwSetupTimeout shard place) :=
  fun _ _ _ _ e => nomatch e

theorem Header.natHoldRelease : ∀ shard, Header.Statement (.natHoldRelease shard) :=
  fun _ _ _ e => nomatch e

theorem Header.bpmDemandRequest : ∀ ctrl pool requesters, Header.Statement (.bpmDemandRequest ctrl pool requesters) :=
  fun _ _ _ _ _ e => nomatch e

theorem Header.bpmBatchRefill : ∀ shard pool, Header.Statement (.bpmBatchRefill shard pool) :=
  fun _ _ _ _ e => nomatch e

theorem Header.bpmRecallComplete : ∀ pool, Header.Statement (.bpmRecallComplete pool) :=
  fun _ _ _ e => nomatch e

theorem Header.refcountOp : ∀ ctrl handle requester add, Header.Statement (.refcountOp ctrl handle requester add) :=
  fun _ _ _ _ _ _ e => nomatch e

theorem Header.txPrepare : ∀ tx, Header.Statement (.txPrepare tx) :=
  fun _ _ _ e => nomatch e

theorem Header.txCommitPoint : ∀ tx, Header.Statement (.txCommitPoint tx) :=
  fun _ _ _ e => nomatch e

theorem Header.txCommitReceipt : ∀ tx shard, Header.Statement (.txCommitReceipt tx shard) :=
  fun _ _ _ _ e => nomatch e

theorem Header.txAckAll : ∀ tx, Header.Statement (.txAckAll tx) :=
  fun _ _ _ e => nomatch e

theorem Header.txPrepareTimeout : ∀ tx, Header.Statement (.txPrepareTimeout tx) :=
  fun _ _ _ e => nomatch e

theorem Header.generationFence : ∀ core, Header.Statement (.generationFence core) :=
  fun _ _ _ e => nomatch e

theorem Header.hbmUncorrectable : ∀ g e, Header.Statement (.hbmUncorrectable g e) :=
  fun _ _ _ _ e => nomatch e

theorem Header.freezeEnd : ∀ g, Header.Statement (.freezeEnd g) :=
  fun _ _ _ e => nomatch e

theorem Header.retireCopyComplete : ∀ stack, Header.Statement (.retireCopyComplete stack) :=
  fun _ _ _ e => nomatch e

theorem Header.hbmRefresh : ∀ g, Header.Statement (.hbmRefresh g) :=
  fun _ _ _ e => nomatch e

theorem Header.hbmTempRead : ∀ stack temp, Header.Statement (.hbmTempRead stack temp) :=
  fun _ _ _ _ e => nomatch e

theorem Header.neighbourRefresh : ∀ g bank row n, Header.Statement (.neighbourRefresh g bank row n) :=
  fun _ _ _ _ _ _ e => nomatch e

theorem Header.refreshWindowBoundary : ∀ stack, Header.Statement (.refreshWindowBoundary stack) :=
  fun _ _ _ e => nomatch e

theorem Header.patrolScrubRead : ∀ g corrected uncorrectable, Header.Statement (.patrolScrubRead g corrected uncorrectable) :=
  fun _ _ _ _ _ e => nomatch e

theorem Header.retrainWindowExit : ∀ stack history, Header.Statement (.retrainWindowExit stack history) :=
  fun _ _ _ _ e => nomatch e

theorem Header.furlSelfRefreshEntry : ∀ stack request, Header.Statement (.furlSelfRefreshEntry stack request) :=
  fun _ _ _ _ e => nomatch e

theorem Header.furlEntryRetry : ∀ stack request, Header.Statement (.furlEntryRetry stack request) :=
  fun _ _ _ _ e => nomatch e

theorem Header.selfRefreshExitHeld : ∀ stack, Header.Statement (.selfRefreshExitHeld stack) :=
  fun _ _ _ e => nomatch e

theorem Header.waitEventWake : ∀ thread wait sources, Header.Statement (.waitEventWake thread wait sources) :=
  fun _ _ _ _ _ e => nomatch e

theorem Header.channelEndWrite : ∀ thread channel words last, Header.Statement (.channelEndWrite thread channel words last) :=
  fun _ _ _ _ _ _ e => nomatch e

theorem Header.channelReadEnd : ∀ thread channel, Header.Statement (.channelReadEnd thread channel) :=
  fun _ _ _ _ e => nomatch e

theorem Header.taskPost : ∀ task level core budget, Header.Statement (.taskPost task level core budget) :=
  fun _ _ _ _ _ _ e => nomatch e

theorem Header.taskSwitch : ∀ thread how, Header.Statement (.taskSwitch thread how) :=
  fun _ _ _ _ e => nomatch e

theorem Header.schedulerTick : Header.Statement (.schedulerTick) :=
  fun _ _ e => nomatch e

theorem Header.runBudgetExpiry : ∀ thread addr, Header.Statement (.runBudgetExpiry thread addr) :=
  fun _ _ _ _ e => nomatch e

theorem Header.threadFault : ∀ thread kind addr, Header.Statement (.threadFault thread kind addr) :=
  fun _ _ _ _ _ e => nomatch e

theorem Header.becalmed : Header.Statement (.becalmed) :=
  fun _ _ e => nomatch e

theorem Header.becalmedAction : Header.Statement (.becalmedAction) :=
  fun _ _ e => nomatch e

theorem Header.housekeeping : Header.Statement (.housekeeping) :=
  fun _ _ e => nomatch e

theorem Header.selftestPassEnd : ∀ core failed age service, Header.Statement (.selftestPassEnd core failed age service) :=
  fun _ _ _ _ _ _ e => nomatch e

theorem Header.kickTimeout : ∀ core, Header.Statement (.kickTimeout core) :=
  fun _ _ _ e => nomatch e

theorem Header.coreFailure : ∀ core cause, Header.Statement (.coreFailure core cause) :=
  fun _ _ _ _ e => nomatch e

theorem Header.takeoverComplete : Header.Statement (.takeoverComplete) :=
  fun _ _ e => nomatch e

theorem Header.serviceCheckpoint : ∀ service content, Header.Statement (.serviceCheckpoint service content) :=
  fun _ _ _ _ e => nomatch e

theorem Header.mbxSqDoorbell : ∀ mbx tail, Header.Statement (.mbxSqDoorbell mbx tail) :=
  fun _ _ _ _ e => nomatch e

theorem Header.mbxCqDoorbell : ∀ mbx arm head, Header.Statement (.mbxCqDoorbell mbx arm head) :=
  fun _ _ _ _ _ e => nomatch e

theorem Header.ringDoorbell : ∀ ring arm index, Header.Statement (.ringDoorbell ring arm index) :=
  fun _ _ _ _ _ e => nomatch e

theorem Header.mbxEnable : ∀ mbx entry, Header.Statement (.mbxEnable mbx entry) :=
  fun _ _ _ _ e => nomatch e

theorem Header.mbxDisable : ∀ mbx, Header.Statement (.mbxDisable mbx) :=
  fun _ _ _ e => nomatch e

theorem Header.commandFetch : ∀ words, Header.Statement (.commandFetch words) :=
  fun _ _ _ e => nomatch e

theorem Header.completionPost : ∀ mbx, Header.Statement (.completionPost mbx) :=
  fun _ _ _ e => nomatch e

theorem Header.flr : Header.Statement (.flr) :=
  fun _ _ e => nomatch e

theorem Header.perst : ∀ speed width, Header.Statement (.perst speed width) :=
  fun _ _ _ _ e => nomatch e

theorem Header.d3hotEntry : Header.Statement (.d3hotEntry) :=
  fun _ _ e => nomatch e

theorem Header.dmaReadError : ∀ kind target unit cid addr, Header.Statement (.dmaReadError kind target unit cid addr) :=
  fun _ _ _ _ _ _ _ e => nomatch e

theorem Header.notificationWrite : Header.Statement (.notificationWrite) :=
  fun _ _ e => nomatch e

theorem Header.ringCoalesceTimer : ∀ ring, Header.Statement (.ringCoalesceTimer ring) :=
  fun _ _ _ e => nomatch e

theorem Header.smbusBlockWrite : ∀ words pecGood, Header.Statement (.smbusBlockWrite words pecGood) :=
  fun _ _ _ _ e => nomatch e

theorem Header.smbusStatusRead : Header.Statement (.smbusStatusRead) :=
  fun _ _ e => nomatch e

theorem Header.smbusCompletionRead : Header.Statement (.smbusCompletionRead) :=
  fun _ _ e => nomatch e

theorem Header.smbusResultRead : Header.Statement (.smbusResultRead) :=
  fun _ _ e => nomatch e

theorem Header.smbusIrqClear : ∀ bit, Header.Statement (.smbusIrqClear bit) :=
  fun _ _ _ e => nomatch e

theorem Header.dmaStopWrite : ∀ stop, Header.Statement (.dmaStopWrite stop) :=
  fun _ _ _ e => nomatch e

theorem Header.warmResetWrite : ∀ key warm, Header.Statement (.warmResetWrite key warm) :=
  fun _ _ _ _ e => nomatch e

theorem Header.tbsTimeLatch : Header.Statement (.tbsTimeLatch) :=
  fun _ _ e => nomatch e

theorem Header.cntWindowRead : ∀ high, Header.Statement (.cntWindowRead high) :=
  fun _ _ _ e => nomatch e

theorem Header.cntLiveSample : ∀ high, Header.Statement (.cntLiveSample high) :=
  fun _ _ _ e => nomatch e

theorem Header.cntSnapReqWrite : ∀ go bank groups, Header.Statement (.cntSnapReqWrite go bank groups) :=
  fun _ _ _ _ _ e => nomatch e

theorem Header.logRestartWrite : Header.Statement (.logRestartWrite) :=
  fun _ _ e => nomatch e

theorem Header.pcHoldWrite : ∀ stack value, Header.Statement (.pcHoldWrite stack value) :=
  fun _ _ _ _ e => nomatch e

theorem Header.registerReadClear : ∀ bar addr jtag, Header.Statement (.registerReadClear bar addr jtag) :=
  fun _ _ _ _ _ e => nomatch e

theorem Header.registerWrite : ∀ bar addr data full jtag, Header.Statement (.registerWrite bar addr data full jtag) :=
  fun _ _ _ _ _ _ _ e => nomatch e

theorem Header.faultReport : ∀ code inst arg0 arg1 addr master masterIndex access, Header.Statement (.faultReport code inst arg0 arg1 addr master masterIndex access) :=
  fun _ _ _ _ _ _ _ _ _ _ e => nomatch e

theorem Header.captureWindowClose : Header.Statement (.captureWindowClose) :=
  fun _ _ e => nomatch e

theorem Header.conditionEnd : ∀ code inst, Header.Statement (.conditionEnd code inst) :=
  fun _ _ _ _ e => nomatch e

theorem Header.reefExit : Header.Statement (.reefExit) :=
  fun _ _ e => nomatch e

theorem Header.barePolesExit : Header.Statement (.barePolesExit) :=
  fun _ _ e => nomatch e

theorem Header.collectorParity : Header.Statement (.collectorParity) :=
  fun _ _ e => nomatch e

theorem Header.heartbeatCheck : ∀ beat, Header.Statement (.heartbeatCheck beat) :=
  fun _ _ _ e => nomatch e

theorem Header.shardRestart : ∀ shard, Header.Statement (.shardRestart shard) :=
  fun _ _ _ e => nomatch e

theorem Header.shardRestartComplete : ∀ shard, Header.Statement (.shardRestartComplete shard) :=
  fun _ _ _ e => nomatch e

theorem Header.qmRestartComplete : ∀ pipe, Header.Statement (.qmRestartComplete pipe) :=
  fun _ _ _ e => nomatch e

theorem Header.pwrfailAssert : Header.Statement (.pwrfailAssert) :=
  fun _ _ e => nomatch e

theorem Header.lastGaspCommit : Header.Statement (.lastGaspCommit) :=
  fun _ _ e => nomatch e

theorem Header.pwrfailRelease : Header.Statement (.pwrfailRelease) :=
  fun _ _ e => nomatch e

theorem Header.serviceSecond : Header.Statement (.serviceSecond) :=
  fun _ _ e => nomatch e

theorem Header.snapshotLatch : Header.Statement (.snapshotLatch) :=
  fun _ _ e => nomatch e

theorem Header.snapshotDrain : ∀ bank, Header.Statement (.snapshotDrain bank) :=
  fun _ _ _ e => nomatch e

theorem Header.counterClearApply : Header.Statement (.counterClearApply) :=
  fun _ _ e => nomatch e

theorem Header.bwWindowEnd : ∀ port, Header.Statement (.bwWindowEnd port) :=
  fun _ _ _ e => nomatch e

theorem Header.exportEncode : Header.Statement (.exportEncode) :=
  fun _ _ e => nomatch e

theorem Header.exportWindowClose : ∀ set, Header.Statement (.exportWindowClose set) :=
  fun _ _ _ e => nomatch e

theorem Header.exportMessageTimer : ∀ collector, Header.Statement (.exportMessageTimer collector) :=
  fun _ _ _ e => nomatch e

theorem Header.templateResend : Header.Statement (.templateResend) :=
  fun _ _ e => nomatch e

theorem Header.lifeSample : ∀ m good, Header.Statement (.lifeSample m good) :=
  fun _ _ _ _ e => nomatch e

theorem Header.lifePrediction : Header.Statement (.lifePrediction) :=
  fun _ _ e => nomatch e

theorem Header.wearAccWrite : ∀ verified, Header.Statement (.wearAccWrite verified) :=
  fun _ _ _ e => nomatch e

theorem Header.kendrelSlotFrame : ∀ link slot frame, Header.Statement (.kendrelSlotFrame link slot frame) :=
  fun _ _ _ _ _ e => nomatch e

theorem Header.remoteReissueTimeout : ∀ pkt, Header.Statement (.remoteReissueTimeout pkt) :=
  fun _ _ _ e => nomatch e

theorem Header.kendrelLinkUp : ∀ link macro_ peer role delay, Header.Statement (.kendrelLinkUp link macro_ peer role delay) :=
  fun _ _ _ _ _ _ _ e => nomatch e

theorem Header.kendrelLinkDown : ∀ link, Header.Statement (.kendrelLinkDown link) :=
  fun _ _ _ e => nomatch e

theorem Header.seedWaitExpiry : Header.Statement (.seedWaitExpiry) :=
  fun _ _ e => nomatch e

theorem Header.stackFormResponse : ∀ member accept, Header.Statement (.stackFormResponse member accept) :=
  fun _ _ _ _ e => nomatch e

theorem Header.stackFormTimeout : Header.Statement (.stackFormTimeout) :=
  fun _ _ e => nomatch e

theorem Header.timeMarkerExchange : ∀ link theta, Header.Statement (.timeMarkerExchange link theta) :=
  fun _ _ _ _ e => nomatch e

theorem Header.deputyTakeover : Header.Statement (.deputyTakeover) :=
  fun _ _ e => nomatch e

theorem Header.masterResign : Header.Statement (.masterResign) :=
  fun _ _ e => nomatch e

theorem Header.powerOnReset : ∀ straps persistent, Header.Statement (.powerOnReset straps persistent) :=
  fun _ _ _ _ e => nomatch e

theorem Header.pinReset : ∀ straps, Header.Statement (.pinReset straps) :=
  fun _ _ _ e => nomatch e

theorem Header.thermalTrip : Header.Statement (.thermalTrip) :=
  fun _ _ e => nomatch e

theorem Header.bootStageComplete : ∀ setup, Header.Statement (.bootStageComplete setup) :=
  fun _ _ _ e => nomatch e

theorem Header.bootWatchdog : Header.Statement (.bootWatchdog) :=
  fun _ _ e => nomatch e

theorem Header.nonceExpiry : Header.Statement (.nonceExpiry) :=
  fun _ _ e => nomatch e

theorem Header.avsCorrection : ∀ rail direction answered, Header.Statement (.avsCorrection rail direction answered) :=
  fun _ _ _ _ _ e => nomatch e

theorem Header.dieTempWarning : ∀ unit temp, Header.Statement (.dieTempWarning unit temp) :=
  fun _ _ _ _ e => nomatch e

theorem Header.receiveFaultCleared : ∀ port, Header.Statement (.receiveFaultCleared port) :=
  fun _ _ _ e => nomatch e

theorem Header.ppsOutFall : Header.Statement (.ppsOutFall) :=
  fun _ _ e => nomatch e

theorem Header.d3hotExit : Header.Statement (.d3hotExit) :=
  fun _ _ e => nomatch e

theorem Header.flrComplete : Header.Statement (.flrComplete) :=
  fun _ _ e => nomatch e

theorem Header.powerLoss : Header.Statement (.powerLoss) :=
  fun _ _ e => nomatch e

theorem Header.exportWalkVisit : ∀ set, Header.Statement (.exportWalkVisit set) :=
  fun _ _ _ e => nomatch e

theorem Header.coreLogicTestEnd : ∀ core passed, Header.Statement (.coreLogicTestEnd core passed) :=
  fun _ _ _ _ e => nomatch e

end Sys2Proof.Laws
end

