-- ==== Sys2Proof/Tests/Slice0.lean ====
section
/-! SUPPORT. Tests on small states, and for every statement with hypotheses a state and operands that meet them. -/

namespace Sys2Proof.Tests

open Sys2Proof.Machine

set_option maxRecDepth 100000
set_option Elab.async false

/-! ## Ill-formed commands are refused (WellFormed.lean), one for each check -/

theorem test_wf_port : Instr.wf (.frameArrival (256) []) = false := by decide

theorem test_wf_byteList : Instr.wf (.frameArrival 0 [256]) = false := by decide

theorem test_wf_cls : Instr.wf (.pauseExpiry 0 (8)) = false := by decide

theorem test_wf_pipe : Instr.wf (.deal (32) 0 none) = false := by decide

theorem test_wf_shard : Instr.wf (.flowLookupRequest (32) none) = false := by decide

theorem test_wf_rig : Instr.wf (.tcallResult 0 (8) 0 none) = false := by decide

theorem test_wf_egress : Instr.wf (.voqReq (32)) = false := by decide

theorem test_wf_pipeline : Instr.wf (.residenceEntryExpiry (32)) = false := by decide

theorem test_wf_ring : Instr.wf (.ringDoorbell (64) false 0) = false := by decide

theorem test_wf_wordList : Instr.wf (.txDescriptorFetch 0 [2 ^ 32] []) = false := by decide

theorem test_wf_domain : Instr.wf (.servoOffset (2) 0) = false := by decide

theorem test_wf_die : Instr.wf (.clsEntryRepair (2) 0 0) = false := by decide

theorem test_wf_thread : Instr.wf (.fwSetupVerdict 0 0 0 (64) none) = false := by decide

theorem test_wf_core : Instr.wf (.generationFence (4)) = false := by decide

theorem test_wf_g : Instr.wf (.hbmUncorrectable (192) ⟨0, 0, 0, false, [], [], [], none, none, false⟩) = false := by decide

theorem test_wf_stack : Instr.wf (.retireCopyComplete (6)) = false := by decide

theorem test_wf_mbx : Instr.wf (.mbxSqDoorbell (9) 0) = false := by decide

theorem test_wf_bar : Instr.wf (.registerReadClear 1 0 false) = false := by decide

theorem test_wf_data : Instr.wf (.registerWrite 0 0 (2 ^ 32) false false) = false := by decide

theorem test_wf_link : Instr.wf (.kendrelSlotFrame (4) 0 ⟨0, 0, 0, 0, false, false, false, none, none, [], 0, 0⟩) = false := by decide

theorem test_wf_macro : Instr.wf (.kendrelLinkUp 0 (32) 0 0 0) = false := by decide

theorem test_wf_peer : Instr.wf (.kendrelLinkUp 0 0 (4) 0 0) = false := by decide

theorem test_wf_role : Instr.wf (.kendrelLinkUp 0 0 0 (4) 0) = false := by decide

theorem test_wf_member : Instr.wf (.stackFormResponse (4) false) = false := by decide

theorem test_wf_hdr : Instr.wf (.sysIdentity ⟨10, 0, false, false⟩) = false := by decide

/-! ## Single steps -/

/-- R473: the word of SYS_ID. -/
theorem test_sys_id : (State.reset.rd .sysId 0).toNat = 0x51201006 := by decide +kernel

/-- R444 and R473: SYS_SCRATCH stands at BAR0 offset 0x2C. -/
theorem test_scratch_place : regAt 0 0x2C = some (.sysScratch, 0) := by decide +kernel

/-- R446: an RW register takes the word written. -/
theorem test_scratch_write : ((State.reset.writeReg .sysScratch 0 0x2C 0x12345678).rd .sysScratch 0).toNat = 0x12345678 := by
  decide +kernel

/-- R446: writing 1 clears a bit of an RW1C field and writing 0 leaves it. -/
theorem test_rw1c : ((((State.reset.setF F.mbxEvent_ringDropSeen 0 1).setF F.mbxEvent_smbPecSeen 0 1).writeReg .mbxEvent 0
    0x20008 (BitVec.ofNat 32 (2 ^ 25))).rd .mbxEvent 0).toNat = 2 ^ 26 := by decide +kernel

/-- R517: an add that would pass the top leaves the top and sets the flag. -/
theorem test_counter_top : (CtrVal.mk (2 ^ 64 - 2) false).add 5 = ⟨2 ^ 64 - 1, true⟩ := by decide +kernel

/-- R34: word 3 holds seconds [47:32], word 2 seconds [31:0], word 1 nanoseconds, word 0 [31:16] the fraction. -/
theorem test_full_time : fullTimeWords (2 ^ 32 + 7) 9 3 = [3 * 2 ^ 16, 9, 7, 1] := by decide +kernel

/-- R456: the completion of an E_INVAL carries code 1 in word 7 [23:16] and the index plus one in word 5. -/
theorem test_completion : completionWords 5 2 (.inval 3) = [0, 0, 0, 0, 0, 4, 2 * 2 ^ 16, 2 ^ 16 + 5] := by decide +kernel

/-- The step takes the front of the queue: SYS_SCRATCH is written and the queue is empty. -/
theorem test_step : (match step { State.reset with pending := [.registerWrite 0 0x2C 5 true false] } with
    | .next t => ((t.rd .sysScratch 0).toNat, t.pending.length)
    | _ => (0, 9)) = (5, 0) := by decide +kernel

/-- The table gives no bits, so no word spells a command. -/
theorem test_no_words : decodeTableWord 32 0 = none := by decide


/-! ## The hypotheses of every statement are met by a concrete state and operands, clause by clause -/

set_option linter.unusedVariables false

/-- The device right after reset. -/
def s0 : State := State.reset
/-- A command header of mailbox 0. -/
def h0 : CmdHdr := ⟨0, 1, false, false⟩
/-- A command header of the debug mailbox. -/
def hD : CmdHdr := ⟨8, 1, false, false⟩
/-- The reset state with one field set. -/
def fld (f : Fld) (i v : Nat) : State := s0.setF f i v
/-- Port 0 exists. -/
def sPort : State := { s0 with port := { s0.port with ports := [(0, PortInfo.reset)] } }
/-- Port 0 exists with its link up. -/
def sUp : State := sPort.setF F.portStatus_linkUp 0 1
/-- Port 0 with some of its settings replaced. -/
def sInfo (i : PortInfo) : State := { s0 with port := { s0.port with ports := [(0, i)] } }
/-- A packet of pipeline 0. -/
def pkt0 : Pkt := newPkt 0 0 0 .waiting 0 0
/-- A copy of packet 0 in pipeline 0. -/
def copy0 : Copy := ⟨0, 0, 0, 0, none, 0, none, .queued, false, 0, 0, 0, 0, 0, [], 0, false, 0, false, false⟩
/-- Packet 0 present. -/
def sPkt (p : Pkt) : State := { s0 with pk := { s0.pk with pkts := [(0, p)] } }
/-- Packet `p` present as packet 0, with the answer window of its pipeline listing it. -/
def sWin (p : Pkt) : State := { sPkt p with rig.window := [(0, [0])] }
/-- A state with a copy 0 of packet 0. -/
def sCopy (p : Pkt) (c : Copy) : State := { s0 with pk.pkts := [(0, p)], pk.copies := [(0, c)] }
/-- A queue message of pipeline 0 for port 0. -/
def qm0 : QMsg := ⟨0, 0, 0, 0⟩
/-- A lookup request of packet 0 at shard 0. -/
def req0 : LookReq := ⟨0, 0, 0, [], none⟩
/-- A cache line of record 0. -/
def line0 : Line := ⟨0, 0, 0, 0, [], [], false, false, 0, none⟩
/-- A miss-queue entry of packet 0. -/
def mq0 : MqEntry := ⟨0, 0, [], .parked, false, none, none, 0⟩
/-- An answer with record 0. -/
def ans0 : Answer := ⟨0, 0, 0, [], false, 0⟩
/-- An update of record 0. -/
def upd0 : Update := ⟨0, 0, none, false, false, false, [], [], 0, 0, none, false, false⟩
/-- A run in rig 0 whose table call waits. -/
def run0 : RigRun := ⟨0, 0, 1, [], false, false, false, false, 0, 100, 0, [], [], [], false, [], 0, 0, none, false, 0, 0,
  some (1, 0, []), false, []⟩
/-- A frame of 60 zero bytes arriving for packet 0. -/
def rx0 : Rx := ⟨some 0, 60, List.replicate 60 0, [], 0, false⟩
/-- Packet 0 in rig 0, its call out. -/
def pktRun : Pkt := { pkt0 with stage := .rig, run := some run0 }
def sRun : State := sPkt pktRun
/-- A packet of one stored cell. -/
def pktCells : Pkt := { pkt0 with stage := .queued, head := List.replicate 60 0, refs := [1, 1] }
def copyMoving : Copy := { copy0 with stage := .crossing }
def wordsLive : List Nat := List.replicate 7 0 ++ (2 ^ 23 :: List.replicate 24 0)
def lineLive : Line := { line0 with words := wordsLive }
def reqHop : LookReq := { req0 with hop := some (0, 0, some 0), key := iKey (toImage 0 wordsLive) }
/-- Port 0 with its gates as given. -/
def sGate (g : GatePort) : State := { s0 with egs.gates := [(0, g)] }
def gateOk : GateList := ⟨true, 0, 0, 1000, 0, [(0, 1000)]⟩
def tec0 : TecEntry := ⟨0, false, false, 0, 0, 0, 0, 0, 0⟩
/-- `$CHASTOD`-like body with second 0, UTC offset 0, locked, as the parser of TOD sentences reads it. -/
def todBody : List Nat := todHead ++ [48, 44, 48, 44, 76]
def txGone : Tx := { Tx.new 4096 0 [] with phase := .prepared, removal := some (0, 0, 0, 0) }
def txWait : Tx := { Tx.new 0 0 [] with phase := .waiting, locks := [⟨0, 0, 0⟩] }
/-- A full record's words with the live bit. -/
def wordsFull : List Nat := List.replicate 15 0 ++ (2 ^ 23 :: List.replicate 48 0)
/-- A heap with one full record, record 0. -/
def sHeap : State := { s0 with fst.heapCfg := (0, 0, 1), fst.heap := [(0, ⟨2, wordsFull⟩)] }
/-- A write descriptor for word 0 of record 0. -/
def descRec : List Nat := [0, 0, 0, 0, 0, 1, 0, 2 ^ 28 + 8 * 2 ^ 16] ++ List.replicate 16 0
/-- The key of the full record of sHeap. -/
def key0 : List Nat := List.replicate 48 0
/-- sHeap with its record's slot in the stash of every shard, under the signature `sig`. -/
def sKey : State := { sHeap with fst.stash := (List.range 32).map fun i => (256 * i, (false, ⟨2, 0, 0, 0, signature 0 key0⟩)) }
theorem stash_first (sh : Nat) (h : sh < 32) :
    SMap.find? sKey.fst.stash (256 * sh + 0) = some (false, ⟨2, 0, 0, 0, signature 0 key0⟩) := by
  have : ∀ n ≤ 32, ∀ a (v : Bool × Slot), a ≤ sh → sh < a + n → SMap.find? ((List.range' a n).map fun i => (256 * i, v)) (256 * sh) = some v := by
    intro n
    induction n with
    | zero => intro _ a v h1 h2; omega
    | succ n ih =>
      intro hn a v h1 h2
      simp only [List.range'_succ, List.map_cons, SMap.find?]
      split
      · rfl
      · exact ih (by omega) (a + 1) v (by omega) (by omega)
  exact this 32 (by omega) 0 _ (by omega) (by omega)
theorem key_found : sKey.handleOf key0 = some 0 := by
  have hl : homeShard sKey.fst.shardSeed key0 < 32 := Nat.mod_lt _ (by decide)
  unfold State.handleOf State.findKey
  generalize homeShard sKey.fst.shardSeed key0 = sh at hl
  have hc : sKey.curGen sh = false := by
    unfold State.curGen State.getB State.getF State.rd
    rw [show sKey.regs = [] from rfl]
    simp only [SMap.getD, SMap.find?, Option.getD_none]
    decide +kernel
  have hi : sKey.fst.index = [] := rfl
  have hr : sKey.rebuilding sh = false := rfl
  have hs : (sKey.bucketsOf sh false key0).2.2 = signature 0 key0 := rfl
  have hv : ∀ f : Found, f.slot = ⟨2, 0, 0, 0, signature 0 key0⟩ → ((sKey.recNow f.slot.handle).elim false fun r =>
      verifyRec r.size (toImage r.size r.words) key0 f.slot.dir) = true := by
    intro f hf; rw [hf]; decide +kernel
  have hf : (sKey.candidates sh key0).head? = some ⟨true, 256 * sh + 0, false, ⟨2, 0, 0, 0, signature 0 key0⟩⟩ := by
    unfold State.candidates
    have he : ∀ l : List (Bool × Nat × Nat × Nat), (l.flatMap fun _ => ([] : List Found)) = [] := by
      intro l; induction l <;> simp_all
    have hp : kProfile key0 = 0 := rfl
    simp only [hi, hr, hc, hp, SMap.find?, Option.bind_none, show List.range 4 = [0, 1, 2, 3] from rfl, List.filterMap_cons,
      List.filterMap_nil, Bool.false_eq_true, if_false, List.append_nil, he, List.nil_append, List.flatMap_cons, List.flatMap_nil]
    rw [show List.range 256 = 0 :: List.range' 1 255 from rfl, List.filterMap_cons, stash_first sh hl]
    simp [Slot.matches, hs]
  cases hk : sKey.candidates sh key0 with
  | nil => rw [hk] at hf; cases hf
  | cons f l =>
    rw [hk] at hf
    have hh : f.slot = ⟨2, 0, 0, 0, signature 0 key0⟩ := by rw [Option.some.inj hf]
    rw [List.find?_cons, hv f hh]
    simp [hh]
/-- The Criod complex has a handle of a standard record at hand, and profile 0 is valid. -/
def sIns : State := { s0 with fst.granted := [(129, [16777216])], cls.flowProf := [(0, List.replicate 7 0 ++ [2 ^ 31])] }
def flow0 : FlowNew := ⟨0, key0, 0, 0, 0, [], List.replicate 16 0⟩
theorem insert_found : (sIns.insertWrites flow0).2.isSome = true := by
  have hh : ∀ sh, (sIns.takeHandle 32 sh 1).2.isSome = true := fun sh => rfl
  have hn : Nat.max (pRecSize (SMap.getD sIns.cls.flowProf flow0.profile []))
      (if flow0.revMode == 3 then 2 else if flow0.revMode != 0 || !bothMapped (flow0.profile :: flow0.key.drop 1) then 1 else 0) = 1 := by
    decide +kernel
  unfold State.insertWrites
  simp only [hn]
  have := hh (homeShard sIns.fst.shardSeed (flow0.profile :: flow0.key.drop 1))
  split
  · rename_i e; rw [e] at this; cases this
  · rfl
theorem insert_wit : ∃ s1 h ws, sIns.insertWrites flow0 = (s1, some (h, ws)) := by
  have h := insert_found
  match e : sIns.insertWrites flow0 with
  | (s1, none) => rw [e] at h; cases h
  | (s1, some (k, ws)) => exact ⟨s1, k, ws, rfl⟩
/-- The words of a calendar entry of kind 0 at second 1. -/
def words0 : List Nat := [2 ^ 31, 1, 0, 0, 0, 0, 1]
theorem arm_wit : ∃ t i, s0.armHost (tecOf words0 h0.mbx) = (t, .ok i) := by
  have h : (s0.armHost (tecOf words0 h0.mbx)).2.toOption.isSome = true := by decide +kernel
  match e : s0.armHost (tecOf words0 h0.mbx) with
  | (t, .ok i) => exact ⟨t, i, rfl⟩
  | (t, .error c) => rw [e] at h; cases h
/-- A freeze that has passed its row check or not. -/
def sFrz (past : Bool) : State := { s0 with hbm.freezes := [(0, ⟨0, past⟩)] }
/-- Channel 0 with a writer and a reader. -/
def chan0 : Channel := ⟨0, 0, [], [], []⟩
def sChan (c : Channel) : State := { s0 with crd.channels := [(0, c)] }
/-- Debug access unlocked, channel 0 present. -/
def sDbg : State := { s0 with crd.channels := [(0, { chan0 with part := [1] })] }.setF F.sysStatus_debugUnlocked 0 1
/-- Thread 0 of core 0 stopped by the debugger. -/
def sStop : State := sDbg.setF F.crdCoreStatus_stopped 0 1
/-- A completion of mailbox 0 that waits to be posted. -/
def infl0 : Inflight := ⟨0, 1, 0, false, false, 0, true, some .ok, false⟩
def notif0 : NotifRec := ⟨4, 4, 0, 0, false, false, 0, 0, []⟩
/-- Command words of mbx.nop. -/
def nop0 : List Nat := List.replicate 16 0
def flt0 : FaultArg := ⟨0x0003, 0, 0, 0, 0, 0, 0, 0, 0, 0, 0, false⟩
def held0 : HeldFault := ⟨flt0, 7, false, false, []⟩
def rec0 : FltRec := ⟨0, false, false, false, false, false, 3, 0, 1, false, 0, 0, 0, 0, 0, 0, 0⟩
/-- Firmware is ready. -/
def sReady : State := s0.setF F.sysStatus_ready 0 1
/-- Core 0 active, core 1 backstay. -/
def sCores : State := (s0.setF F.crdCoreStatus_role 0 1).setF F.crdCoreStatus_role 1 2
/-- An image with magic and format, no payload. -/
def img0 : List Nat := bytesLE 4 0x46573531 ++ bytesLE 4 1 ++ List.replicate 152 0
def exq0 : ExpRecord := ⟨0, 0, 0, false⟩
def expWin0 (walking : Bool) : ExpWindow := ⟨true, 0, 0, 0, walking⟩
def coll0 : Collector := ⟨true, 0, 0, 0, false, [], [], 0, 0, 0, 0, 0⟩
def slot0 : TmplSlot := ⟨0, []⟩
def win0 : BwWindow := { (newWindow 0 0 false).roll s0.now s0.locked with latest := some ([], 0) }.roll s0.now s0.locked
/-- Formed, role 1, link 0 up. -/
def sStk : State := ((s0.setF F.stkStatus_formed 0 1).setF F.stkStatus_role 0 1).setF F.stkLink_up 0 1
def frame0 : StkFrame := ⟨0, 0, 0, 0, false, false, true, none, none, [], 0, 0⟩
def tecSnap : TecEntry := ⟨0, false, false, 2000, 0, 0, 1, 0, 0⟩
theorem snap_wit : ∃ t r, s0.armCmd h0 tecSnap = (t, some r) ∧ r.code = 0 := by
  have h : ((s0.armCmd h0 tecSnap).2.elim false fun r => r.code == 0) = true := by decide +kernel
  match e : s0.armCmd h0 tecSnap with
  | (t, some r) => rw [e] at h; exact ⟨t, r, rfl, by simpa using h⟩
  | (t, none) => rw [e] at h; cases h
/-- Eight bytes of a key, and the action data of an entry. -/
def key8 : List Nat := List.replicate 8 0
def act0 : List Nat := [0, 0, 0, 0]
def rule0 : RuleEntry := ⟨false, 0, 1, true, false, false, key8, act0, []⟩
/-- Table 0 of the exact match with keys of 8 bytes, empty and with one entry. -/
def sTab : State := { s0 with cls.emTables := [(0, ⟨false, 1⟩)] }
def sEm : State := { sTab with cls.em := [(0, rule0)] }
def sL2 : State := { s0 with cls.l2 := [(0, ⟨0, 0, 0, false, 0, false, false⟩)] }
def route0 : Route := ⟨0, false, 0, 32, 1, 0⟩
def unit0 : MskUnit := ⟨true, true, false, 1, List.replicate 20 0, List.replicate 20 0⟩
def sMsk : State := { s0 with msk.units := [(0, unit0)] }
/-- A rig image of one microword. -/
def rig0 : List Nat :=
  bytesLE 4 0x47523531 ++ bytesLE 4 1 ++ [0, 0, 0, 0, 1, 0, 0, 0] ++ List.replicate 48 0 ++ List.replicate 512 255 ++
    List.replicate 24 0 ++ List.replicate 96 0
/-- A record hop for packet 0 and the owner's line it finds. -/
def lineHop : Line := { line0 with words := wordsFull, size := 2 }
def sHop : State := { sHeap with pk.pkts := [(0, pkt0)], fst.reqs := [{ reqHop with key := key0 }], fst.lines := [(0, lineHop)] }
/-- A transition of record 0 by packet 0. -/
def updTr : Update := { upd0 with pkt := some 0, transition := true }
/-- Both domains take Sync messages. -/
def sSrc : State := (s0.setF F.tbsDomainCtrl_srcA 0 1).setF F.tbsDomainCtrl_srcB 0 1
/-- Every core is quiet with a task held back. -/
def sCalm : State := s0.setF F.crdCtrl_becalmedEn 0 1

theorem inv_fresh (s : State) (hr : s.regs = []) (hc : s.ctrs = []) : s.Inv := by
  refine ⟨⟨by rw [hr]; rfl, by rw [hr]; intro e h; cases h⟩, ?_, ⟨by rw [hc]; rfl, by rw [hc]; intro e h; cases h⟩⟩
  intro r i
  unfold State.rd
  rw [hr]
  rfl
/-- A reset state with two commands waiting. -/
def sTwo : State := { s0 with pending := [.mbxNop h0, .sysIdentity h0] }
theorem two_inv : sTwo.Inv := inv_fresh sTwo rfl rfl
theorem s0_inv : s0.Inv := inv_fresh s0 rfl rfl

/-- A state with a held command. -/
def sHeld : State := { s0 with host.waiting := [(h0, .mbxNop h0)] }
/-- Another command of mailbox 0 is under way. -/
def sBusy : State := { s0 with host.inflight := [{ infl0 with cid := 9, rsp := none }, { infl0 with rsp := none }] }

theorem test_w_StepRunsFront :
    (∃ (s : State) (c : Instr) (rest : List Instr), s.pending = c :: rest) ∧
    (∃ (s : State) (c : Instr) (rest : List (CmdHdr × Instr)), s.pending = [] ∧ s.takeWaiting s.host.waiting = some (c, rest)) ∧
    (∃ s : State, s.pending = [] ∧ s.takeWaiting s.host.waiting = none) :=
  ⟨⟨sTwo, .mbxNop h0, [.sysIdentity h0], rfl⟩, ⟨sHeld, .mbxNop h0, [], rfl, by decide +kernel⟩, ⟨s0, rfl, rfl⟩⟩

theorem test_w_StepKeepsInv : ∃ s t : State, s.Inv ∧ step s = .next t ∧ s.pending ≠ [] :=
  ⟨sTwo, _, two_inv, rfl, by decide⟩

theorem test_w_StepBookkeeping : ∃ s t : State, step s = .next t ∧ s.pending ≠ [] := ⟨sTwo, _, rfl, by decide⟩

theorem test_w_FieldHolds :
    (∃ (s : State) (f : Fld) (i v : Nat), s.Inv ∧ f.lo ≤ f.hi ∧ f.hi < 32 ∧ v ≤ f.top ∧ v = f.top ∧ 0 < v ∧
      (∃ j < 32, j < f.lo ∨ f.hi < j) ∧ (∃ r, r ≠ f.reg) ∧ (∃ k, k ≠ i)) :=
  ⟨s0, F.sysStatus_bootState, 0, F.sysStatus_bootState.top, s0_inv, by decide, by decide, by decide, by decide, by decide,
    ⟨27, by decide, by decide⟩, ⟨.sysId, by decide⟩, ⟨1, by decide⟩⟩

theorem test_w_RegisterWriteTypes :
    (∃ (s : State) (r : Reg) (i : Nat) (f : FieldRow), r.captureValid i = false ∧ f ∈ r.fields ∧ f.ty = .rw ∧ s.pending = []) ∧
    (∃ (s : State) (r : Reg) (i : Nat) (f : FieldRow), r.captureValid i = false ∧ f ∈ r.fields ∧ f.ty = .rw1c ∧ s.pending = []) ∧
    (∃ (s : State) (r : Reg) (i : Nat) (f : FieldRow), r.captureValid i = false ∧ f ∈ r.fields ∧ f.ty = .ro ∧ s.pending = []) ∧
    (∃ (s : State) (r : Reg) (i : Nat) (f : FieldRow), r.captureValid i = false ∧ f ∈ r.fields ∧ f.ty = .rwl ∧
      s.regLocked r i = false) ∧
    (∃ (s : State) (r : Reg) (i : Nat) (f : FieldRow), r.captureValid i = false ∧ f ∈ r.fields ∧ f.ty = .rwl ∧
      s.regLocked r i = true) :=
  ⟨⟨s0, .sysIrqMask, 0, ⟨15, 0, .rw, 0⟩, by decide +kernel⟩, ⟨s0, .sysIrqStatus, 0, ⟨0, 0, .rw1c, 0⟩, by decide +kernel⟩,
    ⟨s0, .tbsCtrl, 0, ⟨31, 1, .ro, 0⟩, by decide +kernel⟩, ⟨s0, .tbsCtrl, 0, ⟨0, 0, .rwl, 0⟩, by decide +kernel⟩,
    ⟨s0.setF ⟨.tbsCtrl, 0, 0⟩ 0 1, .tbsCtrl, 0, ⟨0, 0, .rwl, 0⟩, by decide +kernel⟩⟩

theorem test_w_CounterSaturates :
    (∃ (s : State) (c d : CtrId) (n : Nat), s.Inv ∧ d.key ≠ c.key ∧ (s.ctr c).value + n ≤ 2 ^ 64 - 1) ∧
    (∃ (s : State) (c : CtrId) (n : Nat), s.Inv ∧ (s.ctr c).sat = false ∧ 2 ^ 64 - 1 < (s.ctr c).value + n) :=
  ⟨⟨s0, ⟨0, 0⟩, ⟨0, 1⟩, 2 ^ 64 - 1, s0_inv, by decide, by decide⟩, ⟨s0, ⟨0, 0⟩, 2 ^ 64, s0_inv, by decide, by decide⟩⟩

theorem test_w_SelectDomain :
    (∃ (s : State) (h : CmdHdr) (domain : Nat), s.refuseCmd h attrNone = none ∧ domain < 2 ∧ s.domainValid domain = true) ∧
    (∃ (s : State) (domain : Nat), s.Inv ∧ domain < 2) ∧
    (∃ (s : State) (h : CmdHdr) (domain : Nat), s.refuseCmd h attrNone = none ∧ domain < 2 ∧ s.domainValid domain = false) :=
  ⟨⟨s0.setF F.tbsServoStatus_bValid 0 1, h0, 1, by decide +kernel⟩, ⟨s0, 1, s0_inv, by decide⟩, ⟨s0, h0, 1, by decide +kernel⟩⟩

theorem test_w_FullTimeContainer : ∃ sec ns frac : Nat, sec < 2 ^ 48 ∧ ns < 2 ^ 30 ∧ frac < 2 ^ 16 ∧ frac = 65535 :=
  ⟨2 ^ 48 - 1, 999999999, 65535, by decide⟩

/-- The ROM waits for an image. -/
def sRom : State := { s0 with boot.recovery := true }

theorem test_w_CommandsRefused :
    (∃ (s t : State) (i : Instr) (h : CmdHdr), i.header = some h ∧ s.mayBegin h = false ∧ t = s.noteCmd h false) ∧
    (∃ (s : State) (i : Instr) (h : CmdHdr), i.header = some h ∧ s.mayBegin h = true ∧ s.boot.recovery = true ∧ h.mbx ≠ 9 ∧
      i.inRecovery = false) ∧
    (∃ (s : State) (i : Instr) (h : CmdHdr), i.header = some h ∧ s.mayBegin h = true ∧ h.mbx = 9 ∧
      s.flt.fetchStopped = false ∧ i.onSmbus = false) ∧
    (∃ (s : State) (i : Instr) (h : CmdHdr), i.header = some h ∧ s.mayBegin h = true ∧ h.mbx < 8 ∧
      s.boot.recovery = false ∧ i.debugOnly = true) ∧
    (∃ (s : State) (i : Instr) (h : CmdHdr), i.header = some h ∧ s.mayBegin h = true ∧ h.mbx < 8 ∧
      s.boot.recovery = false ∧ i.debugOnly = false ∧ i.orderOnly = true ∧ h.unordered = true) :=
  ⟨⟨sBusy, _, .mbxNop h0, h0, by decide +kernel, by decide +kernel, rfl⟩, ⟨sRom, .mbxNop h0, h0, by decide +kernel⟩, ⟨s0, .sysFurl ⟨9, 1, false, false⟩, ⟨9, 1, false, false⟩, by decide +kernel⟩,
    ⟨s0, .dbgStop ⟨7, 1, false, false⟩ 0 0, ⟨7, 1, false, false⟩, by decide +kernel⟩,
    ⟨s0, .sysFurl ⟨7, 1, true, false⟩, ⟨7, 1, true, false⟩, by decide +kernel⟩⟩

theorem test_w_InterruptsFollowStatus :
    (∃ (s : State) (b : Nat), s.Inv ∧ b < 10 ∧ b = 9) ∧ (∃ (s : State) (mask : Nat), s.Inv ∧ mask = 2 ^ 32 - 1) :=
  ⟨⟨s0, 9, s0_inv, by decide⟩, ⟨s0, 2 ^ 32 - 1, s0_inv, rfl⟩⟩

theorem test_w_NotificationsNumbered :
    (∃ (s : State) (cls index : Nat), SMap.getD s.host.notifSeq (cls * 4096 + index) 0 + 1 < 2 ^ 32) ∧
    (∃ (s : State) (cls index n : Nat), 0 < n ∧ SMap.getD s.host.notifSeq (cls * 4096 + index) 0 + n < 2 ^ 32) :=
  ⟨⟨s0, 0, 0, by decide⟩, ⟨s0, 0, 0, 2 ^ 32 - 1, by decide⟩⟩

theorem test_w_MacControlEventsComplete :
    (∃ (s : State) (port : Nat) (opcode : Nat) (classes : Nat) (quanta : List Nat) , (s.portExists port = true)) ∧
    (∃ (s : State) (port : Nat) (cls : Nat) (t : Nat) , (SMap.find? (s.portInfo port).pauseEnd cls = some t) ∧ (t ≤ s.tm.ticks)) ∧
    (∃ (s : State) (port : Nat) (cls : Nat) (t : Nat) , (SMap.find? (s.portInfo port).xoffAt cls = some t) ∧ (s.getBit F.portStatus_txXoff port cls = true) ∧ (t + s.quantaTicks port (s.portInfo port).quanta / 2 ≤ s.tm.ticks)) ∧
    (∃ (s : State) (port : Nat) (cls : Nat) (t : Nat) , (SMap.find? (s.portInfo port).heldSince cls = some t) ∧ (t + msTicks (s.portInfo port).watchdog ≤ s.tm.ticks)) ∧
    (∃ (s : State) (port : Nat) (cls : Nat) (t : Nat) , (SMap.find? (s.portInfo port).restoring cls = some t) ∧ (t ≤ s.tm.ticks)) :=
  ⟨⟨sPort, 0, 0, 0, [], by decide +kernel⟩,
    ⟨sInfo { PortInfo.reset with pauseEnd := [(0, 0)] }, 0, 0, 0, by decide +kernel⟩,
    ⟨(sInfo { PortInfo.reset with xoffAt := [(0, 0)], quanta := 0 }).setF F.portStatus_txXoff 0 1, 0, 0, 0, by decide +kernel⟩,
    ⟨sInfo { PortInfo.reset with heldSince := [(0, 0)], watchdog := 0 }, 0, 0, 0, by decide +kernel⟩,
    ⟨sInfo { PortInfo.reset with restoring := [(0, 0)] }, 0, 0, 0, by decide +kernel⟩⟩

theorem test_w_LinkEventsComplete :
    (∃ (s : State) (port : Nat) (cause : Nat) , (s.portExists port = true)) ∧
    (∃ (s : State) (port : Nat) , (s.portExists port = true)) ∧
    (∃ (s : State) (u : State) (port : Nat) , (u = (((((((s.setF F.portStatus_rxLocalFault port 0).setF F.portStatus_rxRemoteFault port 0).setF F.portStatus_hiBer port 0).setF F.portStatus_blockLock port 1).setF F.portStatus_alignLock port 1).setB F.portStatus_fecLock port (s.portFec port != 0)).setPort port { s.portInfo port with clearSince := some s.tm.ticks }).lineChanged port) ∧ (s.portExists port = true) ∧ (s.linkUp port = false)) ∧
    (∃ (s : State) (port : Nat) (t : Nat) , (s.portExists port = true) ∧ (s.linkUp port = false) ∧ ((s.portInfo port).clearSince = some t) ∧ (t + msTicks (s.portInfo port).holdoff ≤ s.tm.ticks)) ∧
    (∃ (s : State) (port : Nat) (l : List (Nat × Nat × Nat)) (a : Nat × Nat × Nat) , (s.portExists port = true) ∧ (s.getB F.portCfg_anEn port = true) ∧ (s.getF F.portStatus_anState port = 1) ∧ (s.resolveAn port l = some a)) ∧
    (∃ (s : State) (port : Nat) (l : List (Nat × Nat × Nat)) , (s.portExists port = true) ∧ (s.getB F.portCfg_anEn port = true) ∧ (s.getF F.portStatus_anState port = 2)) ∧
    (∃ (s : State) (port : Nat) (p : Option (List (Nat × Nat × Nat))) , (s.portExists port = true) ∧ (s.getB F.portCfg_anEn port = true) ∧ (s.getF F.portStatus_anState port = 1 ∨ s.getF F.portStatus_anState port = 2) ∧ ((p = none ∨ s.getF F.portStatus_anState port = 1 ∧ p.bind (s.resolveAn port) = none))) ∧
    (∃ (s : State) (port : Nat) (t : Nat) , ((s.portInfo port).anRestart = some t) ∧ (t ≤ s.tm.ticks)) :=
  ⟨⟨sPort, 0, 0, by decide +kernel⟩,
    ⟨sPort, 0, by decide +kernel⟩,
    ⟨sPort, _, 0, rfl, by decide +kernel⟩,
    ⟨sInfo { PortInfo.reset with clearSince := some 0 }, 0, 0, by decide +kernel⟩,
    ⟨(sPort.setF F.portCfg_anEn 0 1).setF F.portStatus_anState 0 1, 0, combos.take 1, combos.headD (0, 0, 0), by decide +kernel⟩,
    ⟨(sPort.setF F.portCfg_anEn 0 1).setF F.portStatus_anState 0 2, 0, [], by decide +kernel⟩,
    ⟨(sPort.setF F.portCfg_anEn 0 1).setF F.portStatus_anState 0 1, 0, none, by decide +kernel⟩,
    ⟨sInfo { PortInfo.reset with anRestart := some 0 }, 0, 0, by decide +kernel⟩⟩

theorem test_w_FramesReceivedComplete :
    (∃ (s : State) (port : Nat) (bytes : List Nat) , (s.portExists port = true) ∧ (s.linkUp port = true)) ∧
    (∃ (s : State) (port : Nat) (fcs : Nat) (corrCw : Nat) (uncorrCw : Nat) (errorBlock : Bool) (errored : Bool) (r : Rx) , (s.portExists port = true) ∧ (SMap.find? s.pk.rx port = some r)) ∧
    (∃ (s : State) (pipe : Nat) (kind : Nat) (id : Nat) (p : Pkt) (err : Option EccErr) , (kind ≠ 1) ∧ ((s.atStage pipe (dealStage kind)).find? (fun e => e.2.windowReady) = some (id, p)) ∧ ((s.atStage pipe .reorder).length < 64) ∧ (s.getB F.fltStatus_barePoles = false)) ∧
    (∃ (s : State) (pipe : Nat) (src : Nat) (id : Nat) (p : Pkt) (errs : List EccErr) , (s.nextInOrder pipe src = some (id, p)) ∧ ((s.parserRelease id p errs).unstarted pipe ≤ 32) ∧ ((s.parserRelease id p errs).rigPlaces pipe ≤ 128)) ∧
    (∃ (s : State) (ring : Nat) (words : List Nat) (frame : List Nat) , (ring < 64) ∧ ((s.ring ring).enabled = true) ∧ ((s.ring ring).rtype = 2) ∧ ((s.ring ring).used ≠ 0) ∧ (s.dmaOn = true) ∧ (s.txDescOk words frame = true)) :=
  ⟨⟨sUp, 0, [], by decide +kernel⟩,
    ⟨{ sUp with pk.rx := [(0, rx0)] }, 0, 0, 0, 0, false, false, rx0, by decide +kernel⟩,
    ⟨sPkt pkt0, 0, 0, 0, pkt0, none, by decide +kernel⟩,
    ⟨sPkt { pkt0 with stage := .reorder }, 0, 0, 0, { pkt0 with stage := .reorder }, [], by decide +kernel⟩,
    ⟨{ s0 with host.rings := [(0, { Ring.reset with rtype := 2, enabled := true, producer := 1 })] }, 0, [0, 0, 0, 0, 0, 0, 60, 0], List.replicate 60 0, by decide +kernel⟩⟩

theorem test_w_FlowLookupEventsComplete :
    (∃ (s : State) (shard : Nat) (r : LookReq) (rest : List LookReq) , (takeReq (fun r => r.shard == shard && r.hop.isNone) s.fst.reqs = some (r, rest)) ∧ (SMap.has s.pk.pkts r.pkt = true) ∧ (shard ∉ s.fst.restarting)) ∧
    (∃ (s : State) (shard : Nat) (e : EccErr) (r : LookReq) (rest : List LookReq) , (takeReq (fun r => r.shard == shard && r.hop.isNone) (s.fstEcc shard e).fst.reqs = some (r, rest)) ∧ (SMap.has (s.fstEcc shard e).pk.pkts r.pkt = true) ∧ (shard ∉ (s.fstEcc shard e).fst.restarting)) ∧
    (∃ (s : State) (shard : Nat) (h : Nat) (dir : Nat) (set : Option Nat) (r : LookReq) (rest : List LookReq) , (takeReq (fun r => r.shard == shard && r.hop.isSome) s.fst.reqs = some (r, rest)) ∧ (SMap.has s.pk.pkts r.pkt = true) ∧ (shard ∉ s.fst.restarting) ∧ (r.hop = some (h, dir, set)) ∧ (s.badHeap h = none) ∧ ((set = none ∨ s.recLine 0 h = none ∨ ∃ e ∈ s.mqOf shard, e.key = r.key))) ∧
    (∃ (s : State) (shard : Nat) (h : Nat) (dir : Nat) (set : Nat) (k : Nat) (l : Line) (r : LookReq) (rest : List LookReq) , (takeReq (fun r => r.shard == shard && r.hop.isSome) s.fst.reqs = some (r, rest)) ∧ (SMap.has s.pk.pkts r.pkt = true) ∧ (shard ∉ s.fst.restarting) ∧ (r.hop = some (h, dir, some set)) ∧ (s.badHeap h = none) ∧ ((∀ e ∈ s.mqOf shard, e.key ≠ r.key)) ∧ (s.recLine 0 h = some (k, l)) ∧ (verifyRec l.size (s.imageNow h) r.key dir = true) ∧ (l.inflight < 1023)) ∧
    (∃ (s : State) (shard : Nat) (k : Nat) (h : Nat) (set : Nat) (a : Nat) (l : Line) , (s.fst.fills.find? (fun f => f.1 == shard) = some (k, h, set)) ∧ (SMap.first? s.fst.lines (fun a l => lineShard a == shard && l.kind == 2 && l.handle == h) = some (a, l))) ∧
    (∃ (s : State) (shard : Nat) (place : Nat) (h : Nat) (d : Nat) (e : MqEntry) , (s.mqNth shard place .install = some e) ∧ (e.target = some (h, d))) ∧
    (∃ (s : State) (pipe : Nat) (id : Nat) (a : Answer) (p : Pkt) (rest : List (Nat × Option Answer)) , (s.takeAnswer pipe s.fst.answers = some ((id, some a), rest)) ∧ (SMap.find? s.pk.pkts id = some p) ∧ (s.windowFull pipe = false) ∧ (s.rigFull pipe = false)) ∧
    (∃ (s : State) (pipe : Nat) (id : Nat) (p : Pkt) (rest : List (Nat × Option Answer)) , (s.takeAnswer pipe s.fst.answers = some ((id, none), rest)) ∧ (SMap.find? s.pk.pkts id = some p) ∧ (s.rigFull pipe = false)) ∧
    (∃ (s : State) (shard : Nat) (k : Nat) , (s.fst.toClear.find? (fun k => k / 2 ^ 26 == shard) = some k)) ∧
    (∃ (s : State) (pkt : Nat) (e : Nat × List MqEntry) (x : MqEntry) , (e ∈ s.fst.mq) ∧ (x ∈ e.2) ∧ (x.pkt = pkt) ∧ (x.wait = .parked) ∧ (x.asked + 20000 ≤ s.tm.ticks)) :=
  ⟨⟨{ sPkt pkt0 with fst.reqs := [req0] }, 0, req0, [], by decide +kernel⟩,
    ⟨{ sPkt pkt0 with fst.reqs := [req0] }, 0, ⟨0, 0, 0, false⟩, req0, [], by decide +kernel⟩,
    ⟨{ sHop with fst.lines := [] }, 0, 0, 0, some 0, { reqHop with key := key0 }, [], by decide +kernel⟩,
    ⟨sHop, 0, 0, 0, 0, 0, lineHop, { reqHop with key := key0 }, [], by decide +kernel⟩,
    ⟨{ s0 with fst.fills := [(0, 0, 0)], fst.lines := [(0, { line0 with kind := 2 })] }, 0, 0, 0, 0, 0, { line0 with kind := 2 }, by decide +kernel⟩,
    ⟨{ s0 with fst.mq := [(0, [{ mq0 with wait := .install, target := some (0, 0) }])] }, 0, 0, 0, 0, { mq0 with wait := .install, target := some (0, 0) }, by decide +kernel⟩,
    ⟨{ sPkt pkt0 with fst.answers := [(0, some ans0)] }, 0, 0, ans0, pkt0, [], by decide +kernel⟩,
    ⟨{ sPkt pkt0 with fst.answers := [(0, none)] }, 0, 0, pkt0, [], by decide +kernel⟩,
    ⟨{ s0 with fst.toClear := [0] }, 0, 0, by decide +kernel⟩,
    ⟨{ s0 with fst.mq := [(0, [mq0])], tm.ticks := 20000 }, 0, (0, [mq0]), mq0, by decide +kernel⟩⟩

theorem test_w_FlowProgramEventsComplete :
    (∃ (s : State) (t : State) (pipe : Nat) (id : Nat) (rig : Nat) (p : Pkt) (upset : Option RigUpset) , (t = upset.elim s (s.rigUpset pipe)) ∧ ((t.windowOf pipe).find? (fun e => t.chainFree e.1 e.2 && !(decide ((t.atStage pipe .ackWait).length ≥ 64) && e.2.runs == 0)) = some (id, p)) ∧ (t.idleRig pipe = some rig) ∧ (p.marked = false)) ∧
    (∃ (s : State) (t : State) (s1 : State) (pipe : Nat) (rig : Nat) (wait : Nat) (id : Nat) (kind : Nat) (table : Nat) (ws : List Nat) (tbl : List Nat) (hit : Bool) (p : Pkt) (r : RigRun) (upset : Option RigUpset) , (t = upset.elim s (s.rigUpset pipe)) ∧ (t.tableCall p kind table ws = some (s1, hit, tbl)) ∧ (SMap.first? t.pk.pkts (fun _ p => p.pipe == pipe && p.stage == .rig && p.run.elim false fun r => r.rig == rig) = some (id, p)) ∧ (p.run = some r) ∧ (r.call = some (kind, table, ws)) ∧ ((kind ≠ 0 ∨ t.readsDamaged pipe (t.emReads table (callKey ws)) = false))) ∧
    (∃ (s : State) (pipe : Nat) (r : RigRestart) , (SMap.find? s.rig.restarts pipe = some r) ∧ (r.failed = false)) ∧
    (∃ (s : State) (pipe : Nat) (r : RigRestart) , (SMap.find? s.rig.restarts pipe = some r) ∧ (r.failed = false)) ∧
    (∃ (s : State) (shard : Nat) (u : Update) (rest : List Update) , (s.takeUpdate shard s.fst.updates = some (u, rest)) ∧ (shard ∉ s.fst.restarting) ∧ (s.badHeap u.handle = none) ∧ (u.setup = false) ∧ (u.transition = false)) ∧
    (∃ (s : State) (shard : Nat) (id : Nat) (u : Update) (rest : List Update) , (s.takeUpdate shard s.fst.updates = some (u, rest)) ∧ (shard ∉ s.fst.restarting) ∧ (s.badHeap u.handle = none) ∧ (u.setup = false) ∧ (u.transition = true) ∧ (u.pkt = some id) ∧ (compareHolds (s.imageNow u.handle) u = true)) ∧
    (∃ (s : State) (pipe : Nat) (id : Nat) (rest : List Nat) (p : Pkt) , (s.takeAck pipe s.fst.acks = some (id, rest)) ∧ (SMap.find? s.pk.pkts id = some p)) ∧
    (∃ (s : State) (pipe : Nat) (id : Nat) (a : Answer) (rest : List (Nat × Nat × Answer)) (p : Pkt) , (takeReplay pipe s.fst.replays = some ((id, a), rest)) ∧ (SMap.find? s.pk.pkts id = some p) ∧ (3 ≤ p.runs)) ∧
    (∃ (s : State) (t : State) (pipe : Nat) (id : Nat) (a : Answer) (rest : List (Nat × Nat × Answer)) (p : Pkt) , (t = ((({ s with fst := { s.fst with replays := rest } } : State).modPkt id fun q => { q with awaiting := false }).setChain pipe a.handle a.image).modPkt id (fun _ => rewound p (SMap.getD s.rig.saved id p) a)) ∧ (takeReplay pipe s.fst.replays = some ((id, a), rest)) ∧ (SMap.find? s.pk.pkts id = some p) ∧ (p.runs < 3) ∧ (p.marked = false)) ∧
    (∃ (s : State) (pipe : Nat) (src : Nat) (id : Nat) (p : Pkt) , (s.rigNext pipe src = some (id, p)) ∧ (p.stage = .finished) ∧ (p.awaiting = false)) ∧
    (∃ (s : State) (pipe : Nat) (src : Nat) (id : Nat) (p : Pkt) , (s.rigNext pipe src = some (id, p)) ∧ (p.stage = .finished) ∧ (p.awaiting = true) ∧ ((s.atStage pipe .ackWait).length < 64)) :=
  ⟨⟨(sWin { pkt0 with stage := .window }).setF F.rigCtrl_rigEn 0 1, _, 0, 0, 0, { pkt0 with stage := .window }, none, rfl, by decide +kernel⟩,
    ⟨sRun, _, _, 0, 0, 100, 0, 1, 0, [], _, _, pktRun, run0, none, rfl, rfl, by decide +kernel⟩,
    ⟨{ s0 with rig.restarts := [(0, ⟨0, false⟩)] }, 0, ⟨0, false⟩, by decide +kernel⟩,
    ⟨{ s0 with rig.restarts := [(0, ⟨0, false⟩)] }, 0, ⟨0, false⟩, by decide +kernel⟩,
    ⟨{ sHeap with fst.updates := [upd0] }, 0, upd0, [], by decide +kernel⟩,
    ⟨{ sHeap with pk.pkts := [(0, pkt0)], fst.updates := [updTr] }, 0, 0, updTr, [], by decide +kernel⟩,
    ⟨{ sPkt pkt0 with fst.acks := [0] }, 0, 0, [], pkt0, by decide +kernel⟩,
    ⟨{ sPkt { pkt0 with runs := 3 } with fst.replays := [(0, 0, ans0)] }, 0, 0, ans0, [], { pkt0 with runs := 3 }, by decide +kernel⟩,
    ⟨{ sPkt pkt0 with fst.replays := [(0, 0, ans0)] }, _, 0, 0, ans0, [], pkt0, rfl, by decide +kernel⟩,
    ⟨sPkt { pkt0 with stage := .finished }, 0, 0, 0, { pkt0 with stage := .finished }, by decide +kernel⟩,
    ⟨sPkt { pkt0 with stage := .finished, awaiting := true }, 0, 0, 0, { pkt0 with stage := .finished, awaiting := true }, by decide +kernel⟩⟩

theorem test_w_FabricEventsComplete :
    (∃ (s : State) (egress : Nat) (m : QMsg) (rest : List (Bool × QMsg)) , (takeVoqMsg false egress [] s.pk.voqMsgs = some (m, rest))) ∧
    (∃ (s : State) (u : State) (egress : Nat) (m : QMsg) (rest : List (Bool × QMsg)) , (u = { s with pk := { s.pk with voqMsgs := rest, backlog := s.pk.backlog.filter (· != voqKey m.pipe m.port m.cls), credits := SMap.update 0 s.pk.credits (voqKey m.pipe m.port m.cls) (· - m.credit) } }) ∧ (takeVoqMsg true egress [] s.pk.voqMsgs = some (m, rest))) ∧
    (∃ (s : State) (s1 : State) (port : Nat) (c : Nat) (n : Nat) , ((s.examinePort port).grantClass port = (s1, some c)) ∧ ((((List.range 32).map fun i => (SMap.getD s1.pk.grantRr (8 * port + c) 0 + i) % 32).find? fun n => s1.pk.backlog.contains (voqKey n port c)) = some n) ∧ (s.linkUp port = true) ∧ (port ∉ s.pk.reserved) ∧ ((s.examinePort port).outstanding port (fun _ => true) < (s.examinePort port).window port)) ∧
    (∃ (s : State) (pipe : Nat) (place : Nat) (m : QMsg) (rest : List QMsg) (err : Option EccErr) , (takeQMsg pipe place s.pk.grants = some (m, rest))) ∧
    (∃ (s : State) (u : State) (port : Nat) (cid : Nat) (m : QMsg) (c : Copy) , (u = { s with pk := { s.pk with ctReqs := s.pk.ctReqs.erase m, ctRr := SMap.put 0 s.pk.ctRr port ((m.pipe + 1) % 32) } }) ∧ ((((List.range 32).map fun i => (SMap.getD s.pk.ctRr port 0 + i) % 32).findSome? fun n => (s.pk.ctReqs.filter fun m => m.port == port).find? fun m => m.pipe == n) = some m) ∧ (u.ctCopy m = some (cid, c))) ∧
    (∃ (s : State) (pipe : Nat) (cid : Nat) (m : QMsg) (rest : List QMsg) (c : Copy) , (takeQMsg pipe 0 s.pk.denies = some (m, rest)) ∧ ((({ s with pk := { s.pk with denies := rest } } : State).count (C.iqmCtDenied pipe)).ctCopy m = some (cid, c))) ∧
    (∃ (s : State) (egress : Nat) (place : Nat) (cid : Nat) (c : Copy) (p : Pkt) , ((s.nextInput egress)[place]? = some (cid, c)) ∧ (s.landed egress < 1024) ∧ (s.bridgeRoom c p = true) ∧ (SMap.find? s.pk.copies cid = some c) ∧ (SMap.find? s.pk.pkts c.pkt = some p) ∧ (c.landed ∉ p.badCells)) ∧
    (∃ (s : State) (pipe : Nat) , (s.getB F.iqmCtrl_ageScanEn pipe = true)) ∧
    (∃ (s : State) (pipe : Nat) , (pipe ∈ s.pk.qmRestart)) :=
  ⟨⟨{ s0 with pk.voqMsgs := [(false, qm0)] }, 0, qm0, [], by decide +kernel⟩,
    ⟨{ s0 with pk.voqMsgs := [(true, qm0)] }, _, 0, qm0, [], rfl, by decide +kernel⟩,
    ⟨{ sUp with pk.backlog := [voqKey 0 0 0] }, _, 0, _, _, rfl, rfl, by decide +kernel⟩,
    ⟨{ s0 with pk.grants := [qm0] }, 0, 0, qm0, [], none, by decide +kernel⟩,
    ⟨{ sUp with pk.pkts := [(0, pkt0)], pk.copies := [(0, { copy0 with ct := true })], pk.ctReqs := [qm0] }, _, 0, 0, qm0, { copy0 with ct := true }, rfl, by decide +kernel⟩,
    ⟨{ sCopy pkt0 { copy0 with ct := true } with pk.denies := [qm0] }, 0, 0, qm0, [], { copy0 with ct := true }, by decide +kernel⟩,
    ⟨sCopy pktCells copyMoving, 0, 0, 0, copyMoving, pktCells, by decide +kernel⟩,
    ⟨s0.setF F.iqmCtrl_ageScanEn 0 1, 0, by decide +kernel⟩,
    ⟨{ s0 with pk.qmRestart := [0] }, 0, by decide +kernel⟩⟩

theorem test_w_TransmitEventsComplete :
    (∃ (s : State) (t : State) (port : Nat) (errs : List EccErr) , (t = (errs.filter fun e => e.table == 2).foldl (fun t e => t.shaperEcc port e) ((errs.filter fun e => e.table == 0).foldl (fun t e => t.gateEcc port e) (s.examinePort port))) ∧ (s.linkUp port = true) ∧ (s.getB F.fltStatus_barePoles = false) ∧ ((∀ e ∈ s.pk.copies, e.2.port = port → e.2.stage ≠ .transmitting))) ∧
    (∃ (s : State) (port : Nat) (cid : Nat) (c : Copy) , (s.txCopy port = some (cid, c)) ∧ (c.ct = true)) ∧
    (∃ (s : State) (port : Nat) (cid : Nat) (c : Copy) (p : Pkt) , (s.txCopy port = some (cid, c)) ∧ (SMap.find? s.pk.pkts c.pkt = some p) ∧ (c.ct = false)) ∧
    (∃ (s : State) (port : Nat) (cid : Nat) (c : Copy) (p : Pkt) , (s.txCopy port = some (cid, c)) ∧ (SMap.find? s.pk.pkts c.pkt = some p) ∧ (c.ct = true) ∧ (p.arriving = false) ∧ (p.writtenCells ≤ c.landed) ∧ (s.linkOfPort port = none) ∧ ((s.padFrame (s.txBytes c)).2.length + 4 ≤ s.getF F.portCfg_maxFrame port)) ∧
    (∃ (s : State) (pipe : Nat) (slot : Nat) (e : Nat × Wake) (es : List (Nat × Wake)) (here : List (Nat × Wake)) , (s.dueWakes pipe = e :: es) ∧ (slot = es.foldl (fun a b => Nat.min a b.2.at_) e.2.at_) ∧ (here = (e :: es).filter (fun b => b.2.at_ == slot))) ∧
    (∃ (s : State) (port : Nat) (t : Nat) , (SMap.find? s.egs.revertAt port = some t) ∧ (t ≤ s.tm.ticks) ∧ (s.linkUp port = true)) ∧
    (∃ (s : State) (t : State) (loudest : State) (errs : List EccErr) (loud : List (Nat × Monitor)) , (t = errs.foldl State.redEcc s) ∧ (loud = (if t.getB F.redCtrl_latentEn = true then t.egs.monitors.filter fun e => e.2.alarms else [])) ∧ (loudest = (loud.foldl (fun t e => t.redAlarm e.1 e.2) t).setF F.redStatus_lastAlarms 0 loud.length) ∧ (s.egs.latentStart + s.getF F.redCtrl_latentPeriod * 1000000 ≤ s.now)) ∧
    (∃ (s : State) (index : Nat) , (index ∈ s.egs.badRewrite)) :=
  ⟨⟨sUp, _, 0, [], rfl, by decide +kernel⟩,
    ⟨sCopy pkt0 { copy0 with stage := .transmitting, ct := true }, 0, 0, { copy0 with stage := .transmitting, ct := true }, by decide +kernel⟩,
    ⟨sCopy pkt0 { copy0 with stage := .transmitting }, 0, 0, { copy0 with stage := .transmitting }, pkt0, by decide +kernel⟩,
    ⟨{ sPort with pk.pkts := [(0, { pkt0 with arriving := false })], pk.copies := [(0, { copy0 with stage := .transmitting, ct := true })] }, 0, 0, { copy0 with stage := .transmitting, ct := true }, { pkt0 with arriving := false }, by decide +kernel⟩,
    ⟨{ s0 with egs.wheel := [(0, ⟨0, 0, false⟩)] }, 0, 0, (0, ⟨0, 0, false⟩), [], [(0, ⟨0, 0, false⟩)], by decide +kernel⟩,
    ⟨{ sUp with egs.revertAt := [(0, 0)] }, 0, 0, by decide +kernel⟩,
    ⟨(s0.setF F.redCtrl_latentEn 0 0).setF F.redCtrl_latentPeriod 0 0, _, _, [], _, rfl, rfl, rfl, by decide +kernel⟩,
    ⟨{ s0 with egs.badRewrite := [0] }, 0, by decide +kernel⟩⟩

theorem test_w_GateCommandsComplete :
    (∃ (s : State) (port : Nat) (n : Nat) , ((s.gatePort port).pending = some n) ∧ ((s.gatePort port).changeAt ≤ s.now)) ∧
    (∃ (s : State) (port : Nat) , ((s.gatePort port).damaged = true)) ∧
    (∃ (s : State) (h : CmdHdr) (port : Nat) (list : Nat) (gateMask : Nat) (cycleTime : Nat) (cycleExt : Nat) (valid : Bool) (base : List Nat) (entries : List (Nat × Nat)) , (s.refuseCmd h attrO = none) ∧ (port < 256) ∧ (list < 2) ∧ (gateMask < 256) ∧ (base.length = 4) ∧ (wordAt base 1 % 2 ^ 30 < 1000000000) ∧ (1000 ≤ cycleTime) ∧ (cycleTime ≤ 4000000000) ∧ (cycleExt ≤ cycleTime) ∧ (1 ≤ entries.length) ∧ (entries.length ≤ 1024) ∧ ((∀ e ∈ entries, e.1 < 256 ∧ 64 ≤ e.2 ∧ e.2 < 2 ^ 32)) ∧ (s.portExists port = true) ∧ ((s.gatePort port).oper ≠ some list) ∧ ((s.gatePort port).pending ≠ some list)) ∧
    (∃ (s : State) (h : CmdHdr) (port : Nat) (list : Nat) (l : GateList) , (s.refuseCmd h attrO = none) ∧ (port < 256) ∧ (list < 2) ∧ (s.portExists port = true) ∧ ((s.gatePort port).pending = none) ∧ (SMap.find? (s.gatePort port).lists list = some l) ∧ (l.valid = true)) ∧
    (∃ (s : State) (h : CmdHdr) (port : Nat) , (s.refuseCmd h attrNone = none) ∧ (s.portExists port = true)) :=
  ⟨⟨sGate { GatePort.reset with pending := some 0 }, 0, 0, by decide +kernel⟩,
    ⟨sGate { GatePort.reset with damaged := true }, 0, by decide +kernel⟩,
    ⟨sPort, h0, 0, 0, 0, 1000, 0, false, [0, 0, 0, 0], [(0, 64)], by decide +kernel⟩,
    ⟨{ sPort with egs.gates := [(0, { GatePort.reset with lists := [(0, gateOk)] })] }, h0, 0, 0, gateOk, by decide +kernel⟩,
    ⟨sPort, h0, 0, by decide +kernel⟩⟩

theorem test_w_NetworkTimeEventsComplete :
    (∃ (s : State) (m : Int) (b : Int) (sl : Int) , (s.slewTick = (m, b, sl))) ∧
    (∃ (s : State) (deviations : List (Nat × Int)) , (s.boundarySince s.tm.lastFrame = true)) ∧
    (∃ (s : State) (theta : Int) , (s.tm.stepPending = some theta) ∧ (s.boundarySince (s.tm.t1 / 2 ^ 16).toNat = true) ∧ ((s.examineAll.applyStep theta).now ≤ s.now)) ∧
    (∃ (s : State) (theta : Int) , (s.tm.stepPending = some theta) ∧ (s.boundarySince (s.tm.t1 / 2 ^ 16).toNat = true) ∧ (s.now < (s.examineAll.applyStep theta).now)) ∧
    (∃ (s : State) (t : State) (d : Nat) (theta : Int) , (t = ((((s.setDomain d { s.domain d with offset := theta, at_ := some s.tm.ticks, nt := s.now, paired := true }).setDomainValid d true).setF F.tbsDomainOffset_offset d (signedField 32 (theta / 2 ^ 16))).pairOffsets d)) ∧ (d ≤ 1) ∧ (s.domainSource d ≠ 3) ∧ (t.selected ≠ d)) ∧
    (∃ (s : State) (t : State) (d : Nat) (theta : Int) , (t = ((((s.setDomain d { s.domain d with offset := theta, at_ := some s.tm.ticks, nt := s.now, paired := true }).setDomainValid d true).setF F.tbsDomainOffset_offset d (signedField 32 (theta / 2 ^ 16))).pairOffsets d)) ∧ (d ≤ 1) ∧ (s.domainSource d ≠ 3) ∧ (t.selected = d) ∧ (t.phase = phAcquire) ∧ ((t.tm.stepPending.isSome = true ∨ t.getB F.tbsServoStatus_acqSecond = true ∧ t.tm.ticks < t.tm.discardUntil))) ∧
    (∃ (s : State) (t : State) (d : Nat) (theta : Int) , (t = ((((s.setDomain d { s.domain d with offset := theta, at_ := some s.tm.ticks, nt := s.now, paired := true }).setDomainValid d true).setF F.tbsDomainOffset_offset d (signedField 32 (theta / 2 ^ 16))).pairOffsets d)) ∧ (d ≤ 1) ∧ (s.domainSource d ≠ 3) ∧ (t.selected = d) ∧ (t.phase = phAcquire) ∧ (t.tm.stepPending = none) ∧ (t.getB F.tbsServoStatus_acqSecond = false)) ∧
    (∃ (s : State) (t : State) (d : Nat) (theta : Int) (i : Int) , (t = ((((s.setDomain d { s.domain d with offset := theta, at_ := some s.tm.ticks, nt := s.now, paired := true }).setDomainValid d true).setF F.tbsDomainOffset_offset d (signedField 32 (theta / 2 ^ 16))).pairOffsets d)) ∧ (i = t.tm.fPrev - 1000000000 * theta * 2 ^ 28 / ((t.now16 : Int) - t.tm.t1 + t.tm.theta1)) ∧ (d ≤ 1) ∧ (s.domainSource d ≠ 3) ∧ (t.selected = d) ∧ (t.phase = phAcquire) ∧ (t.tm.stepPending = none) ∧ (t.getB F.tbsServoStatus_acqSecond = true) ∧ (t.tm.discardUntil ≤ t.tm.ticks)) ∧
    (∃ (s : State) (t : State) (d : Nat) (theta : Int) , (t = ((((s.setDomain d { s.domain d with offset := theta, at_ := some s.tm.ticks, nt := s.now, paired := true }).setDomainValid d true).setF F.tbsDomainOffset_offset d (signedField 32 (theta / 2 ^ 16))).pairOffsets d)) ∧ (d ≤ 1) ∧ (s.domainSource d ≠ 3) ∧ (t.selected = d) ∧ (t.phase ≠ phAcquire)) ∧
    (∃ (s : State) (d : Nat) , (d ≤ 1) ∧ (s.domainValid d = true) ∧ (s.domainSilent d = true)) ∧
    (∃ (s : State) (t : Nat) , (s.tm.holdoverAt = some t) ∧ (s.phase = phHoldover) ∧ (t + s.getF F.tbsHoldover_holdoverGrace * 1000000000 ≤ s.tm.ticks)) ∧
    (∃ (s : State) (i : Nat) (e : TecEntry) , (s.firstDue s.now = some (i, e))) ∧
    (∃ (s : State) (d : Deferred) (rest : List Deferred) , (s.tm.deferred = d :: rest) ∧ (d.at_ ≤ s.now)) :=
  ⟨⟨s0, 0, 0, 0, by decide +kernel⟩,
    ⟨{ s0 with tm.ns := 1000 }, [], by decide +kernel⟩,
    ⟨{ s0 with tm.ns := 1000, tm.stepPending := some 65536 }, 65536, by decide +kernel⟩,
    ⟨{ s0 with tm.ns := 1000, tm.stepPending := some (-65536) }, -65536, by decide +kernel⟩,
    ⟨sSrc, _, 1, 0, rfl, by decide +kernel⟩,
    ⟨{ sSrc with tm.stepPending := some 0 }, _, 0, 0, rfl, by decide +kernel⟩,
    ⟨sSrc, _, 0, 0, rfl, by decide +kernel⟩,
    ⟨sSrc.setF F.tbsServoStatus_acqSecond 0 1, _, 0, 0, _, rfl, rfl, by decide +kernel⟩,
    ⟨sSrc.setF F.tbsServoStatus_phase 0 phHoldover, _, 0, 0, rfl, by decide +kernel⟩,
    ⟨s0.setF F.tbsServoStatus_aValid 0 1, 0, by decide +kernel⟩,
    ⟨({ s0 with tm.holdoverAt := some 0 }.setF F.tbsServoStatus_phase 0 phHoldover).setF F.tbsHoldover_holdoverGrace 0 0, 0, by decide +kernel⟩,
    ⟨{ s0 with tm.tec := [(0, tec0)] }, 0, tec0, by decide +kernel⟩,
    ⟨{ s0 with tm.deferred := [⟨0, 0, 0, 0, false, false, 0⟩] }, ⟨0, 0, 0, 0, false, false, 0⟩, [], by decide +kernel⟩⟩

theorem test_w_PulseAndReferenceEventsComplete :
    (∃ (s : State) , (s.tm.ppsSecond < s.ppsCrossed)) ∧
    (∃ (s : State) , (s.tm.ppsRoseAt + s.getF F.tbsIoCtrl_ppsWidth * 1000000 ≤ s.tm.ticks)) ∧
    (∃ (s : State) (u : State) , (u = (s.setF F.tbsPpsInCapture_valid 0 1).setF F.tbsPpsInCapture_ns 0 (s.nowAt inputPoint % 1000000000))) ∧
    (∃ (s : State) (u : State) (v : State) (chars : List Nat) (sec : Nat) (e : PpsEdge) , (u = { s with tm := { s.tm with ppsWaiting := none } }) ∧ (v = (if s.domainSource 0 = 2 then u.servoOffset 0 ((e.time : Int) - ((sec * 1000000000 * 2 ^ 16 : Nat) : Int)) else u)) ∧ (todSecond chars = some sec) ∧ (s.tm.ppsWaiting = some e) ∧ (s.tm.ticks ≤ e.ticks + 900000000) ∧ (e.invalid = false)) ∧
    (∃ (s : State) (chars : List Nat) (sec : Nat) (e : PpsEdge) , (todSecond chars = some sec) ∧ (s.tm.ppsWaiting = some e) ∧ (s.tm.ticks ≤ e.ticks + 900000000) ∧ (e.invalid = true)) ∧
    (∃ (s : State) (e : PpsEdge) , (s.tm.ppsWaiting = some e) ∧ (e.ticks + 900000000 < s.tm.ticks)) ∧
    (∃ (s : State) (sec : Nat) (due : Nat) , (s.tm.todDue = some (sec, due)) ∧ (due ≤ s.tm.ticks)) ∧
    (∃ (s : State) (ref : Nat) , (ref ≤ 1) ∧ (s.refHere ref = true)) ∧
    (∃ (s : State) (ref : Nat) , (ref ≤ 1)) :=
  ⟨⟨{ s0 with tm.sec := 1 }, by decide +kernel⟩,
    ⟨s0.setF F.tbsIoCtrl_ppsWidth 0 0, by decide +kernel⟩,
    ⟨s0, _, rfl⟩,
    ⟨{ s0 with tm.ppsWaiting := some ⟨0, 0, false⟩ }.setF F.tbsDomainCtrl_srcA 0 2, _, _, 36 :: todBody ++ [42] ++ todCheck todBody ++ [13, 10], 0, ⟨0, 0, false⟩, rfl, rfl, by decide +kernel⟩,
    ⟨{ s0 with tm.ppsWaiting := some ⟨0, 0, true⟩ }, 36 :: todBody ++ [42] ++ todCheck todBody ++ [13, 10], 0, ⟨0, 0, true⟩, by decide +kernel⟩,
    ⟨{ s0 with tm.ppsWaiting := some ⟨0, 0, false⟩, tm.ticks := 900000001 }, ⟨0, 0, false⟩, by decide +kernel⟩,
    ⟨{ s0 with tm.todDue := some (0, 0) }, 0, 0, by decide +kernel⟩,
    ⟨{ s0 with tm.refPresent := true }, 0, by decide +kernel⟩,
    ⟨s0, 0, by decide +kernel⟩⟩

theorem test_w_TimeConfigurationCompletes :
    (∃ (s : State) (h : CmdHdr) (kp : Nat) (ki : Nat) (fMax : Nat) (lockThreshold : Nat) (lockCount : Nat) (unlockThreshold : Nat) (stepThreshold : Nat) (inputTimeout : Nat) (holdoverGrace : Nat) , (s.refuseCmd h attrNone = none) ∧ (kp < 2 ^ 16) ∧ (ki < 2 ^ 16) ∧ (fMax < 2 ^ 24) ∧ (lockThreshold < 2 ^ 12) ∧ (lockCount < 2 ^ 8) ∧ (unlockThreshold < 2 ^ 12) ∧ (stepThreshold < 2 ^ 32) ∧ (inputTimeout < 2 ^ 16) ∧ (holdoverGrace < 2 ^ 16)) ∧
    (∃ (s : State) (h : CmdHdr) (source : Nat) (port : Nat) (domainNumber : Nat) (meanPathDelay : Int) (autoSwitch : Bool) , (s.refuseCmd h attrNone = none) ∧ (source < 4) ∧ (port < 256) ∧ (domainNumber < 256)) ∧
    (∃ (s : State) (h : CmdHdr) (source : Nat) (port : Nat) (domainNumber : Nat) (meanPathDelay : Int) (autoSwitch : Bool) , (s.refuseCmd h attrNone = none) ∧ (source < 4) ∧ (port < 256) ∧ (domainNumber < 256)) ∧
    (∃ (s : State) (h : CmdHdr) (domain : Nat) , (s.refuseCmd h attrNone = none) ∧ (domain < 2) ∧ (s.domainValid domain = true)) ∧
    (∃ (s : State) (h : CmdHdr) (slewRate : Nat) (slewRamp : Nat) , (s.refuseCmd h attrNone = none) ∧ (slewRate < 2 ^ 16) ∧ (slewRamp < 2 ^ 16)) ∧
    (∃ (s : State) (h : CmdHdr) (mode : Nat) (ports : List Nat) (delays : List (Nat × Nat)) , (s.refuseCmd h attrNone = none) ∧ (mode < 3) ∧ ((∀ p ∈ ports, p < 256)) ∧ ((∀ d ∈ delays, d.1 < 256))) ∧
    (∃ (s : State) (h : CmdHdr) (ioCtrl : Nat) (synce0 : Nat) (synce1 : Nat) , (s.refuseCmd h attrNone = none) ∧ (ioCtrl < 2 ^ 32) ∧ (bitsOf ioCtrl 27 24 < 8) ∧ (1 ≤ bitsOf ioCtrl 23 14) ∧ (bitsOf ioCtrl 23 14 ≤ 999) ∧ (synce0 < 2 ^ 32) ∧ (bitsOf synce0 29 20 = 0) ∧ (synce1 < 2 ^ 32) ∧ (bitsOf synce1 29 20 = 0)) ∧
    (∃ (s : State) (t : State) (h : CmdHdr) (words : List Nat) (i : Nat) , (s.refuseCmd h attrNone = none) ∧ (firstBad (tecWordsOk words) = none) ∧ ((tecOf words h.mbx).stack = false) ∧ (s.now + 2000 ≤ (tecOf words h.mbx).next) ∧ (s.armHost (tecOf words h.mbx) = (t, .ok i))) ∧
    (∃ (s : State) (h : CmdHdr) (handle : Nat) (e : TecEntry) , (s.refuseCmd h attrNone = none) ∧ (256 ≤ handle) ∧ (SMap.find? s.tm.tec handle = some e) ∧ (s.now + 2000 ≤ e.next) ∧ (e.stack = false)) :=
  ⟨⟨s0, h0, 0, 0, 0, 0, 0, 0, 0, 0, 0, by decide +kernel⟩,
    ⟨s0, h0, 0, 0, 0, 0, false, by decide +kernel⟩,
    ⟨s0, h0, 0, 0, 0, 0, false, by decide +kernel⟩,
    ⟨s0.setF F.tbsServoStatus_aValid 0 1, h0, 0, by decide +kernel⟩,
    ⟨s0, h0, 0, 0, by decide +kernel⟩,
    ⟨s0, h0, 0, [], [], by decide +kernel⟩,
    ⟨s0, h0, 2 ^ 14, 0, 0, by decide +kernel⟩,
    (by obtain ⟨t, i, e⟩ := arm_wit; exact ⟨s0, t, h0, words0, i, by decide +kernel, by decide +kernel, by decide +kernel, by decide +kernel, e⟩),
    ⟨{ s0 with tm.tec := [(256, { tec0 with next := 2000 })] }, h0, 256, { tec0 with next := 2000 }, by decide +kernel⟩⟩

theorem test_w_TableRepairsComplete :
    (∃ (s : State) (pipe : Nat) (table : Nat) (index : Nat) , ((pipe, table, index) ∈ s.prs.damaged)) ∧
    (∃ (s : State) (die : Nat) (table : Nat) (index : Nat) , ((die, table, index) ∈ s.cls.damaged) ∧ ((1 - die, table, index) ∉ s.cls.damaged)) ∧
    (∃ (s : State) (die : Nat) (table : Nat) (index : Nat) , ((die, table, index) ∈ s.cls.damaged) ∧ ((1 - die, table, index) ∈ s.cls.damaged)) ∧
    (∃ (s : State) (t : State) (pipe : Nat) (shroud : Nat) (upset : Option MskUpset) , (t = upset.elim s (s.mskUpset pipe)) ∧ (pipe < 32)) ∧
    (∃ (s : State) (pipe : Nat) (bank : Nat) (unit : Nat) , ((16384 * pipe + 1024 * bank + unit ∈ s.msk.suspect ∨ 16384 * pipe + 1024 * bank + unit ∈ s.msk.badShroud))) ∧
    (∃ (s : State) (pipe : Nat) (bank : Nat) (unit : Nat) , (16384 * pipe + 1024 * bank + unit ∈ s.msk.badAction)) ∧
    (∃ (s : State) (die : Nat) (slot : Nat) (e : L2Entry) , (die ≤ 1) ∧ (SMap.find? s.cls.l2 slot = some e) ∧ (s.getB F.fltStatus_barePoles = false) ∧ (s.furled = false) ∧ ((if die = 0 then e.stepFore else e.stepAft) = true)) ∧
    (∃ (s : State) (die : Nat) (slot : Nat) (e : L2Entry) , (die ≤ 1) ∧ (SMap.find? s.cls.l2 slot = some e) ∧ (s.getB F.fltStatus_barePoles = false) ∧ (s.furled = false) ∧ ((if die = 0 then e.stepFore else e.stepAft) = false) ∧ (e.isStatic = false) ∧ (coarseSeconds s.cls.l2AgeTime < wrapDiff s.coarseNow e.lastSeen 32)) :=
  ⟨⟨{ s0 with prs.damaged := [(0, 0, 0)] }, 0, 0, 0, by decide +kernel⟩,
    ⟨{ s0 with cls.damaged := [(0, 0, 0)] }, 0, 0, 0, by decide +kernel⟩,
    ⟨{ s0 with cls.damaged := [(0, 0, 0), (1, 0, 0)] }, 0, 0, 0, by decide +kernel⟩,
    ⟨s0, _, 0, 0, none, rfl, by decide +kernel⟩,
    ⟨{ s0 with msk.suspect := [0] }, 0, 0, 0, by decide +kernel⟩,
    ⟨{ s0 with msk.badAction := [0] }, 0, 0, 0, by decide +kernel⟩,
    ⟨{ s0 with cls.l2 := [(0, ⟨1, 1, 0, false, 0, true, true⟩)] }, 0, 0, ⟨1, 1, 0, false, 0, true, true⟩, by decide +kernel⟩,
    ⟨{ s0 with cls.l2 := [(0, ⟨1, 1, 0, false, 0, false, false⟩)], tm.sec := 1000 }, 0, 0, ⟨1, 1, 0, false, 0, false, false⟩, by decide +kernel⟩⟩

theorem test_w_EpochCommandsComplete :
    (∃ (s : State) (r : SwapReq) (rest : List SwapReq) , (s.cls.pendingSwap = r :: rest) ∧ (r.at_ ≤ s.now)) ∧
    (∃ (s : State) (d : Drain) , (s.cls.drain = some d) ∧ (s.inflightOf d.old = 0)) ∧
    (∃ (s : State) (d : Drain) , (s.cls.drain = some d) ∧ (d.at_ + 8000 ≤ s.now)) ∧
    (∃ (s : State) (h : CmdHdr) (target : Nat) , (s.refuseCmd h attrO = none) ∧ (target < 2) ∧ (s.getB F.clsEpoch_draining = false) ∧ (s.stk.swapHold = false) ∧ ((s.stkFormed = false ∨ s.actingMaster = true)) ∧ (target ≠ s.epoch)) ∧
    (∃ (s : State) (h : CmdHdr) (target : Nat) , (s.refuseCmd h attrO = none) ∧ (target < 2) ∧ (s.getB F.clsEpoch_draining = false) ∧ (s.stk.swapHold = false) ∧ ((s.stkFormed = false ∨ s.actingMaster = true)) ∧ (target = s.epoch)) ∧
    (∃ (s : State) (h : CmdHdr) , (s.refuseCmd h attrNone = none)) :=
  ⟨⟨{ s0 with cls.pendingSwap := [⟨1, 0, false, none⟩] }, ⟨1, 0, false, none⟩, [], by decide +kernel⟩,
    ⟨{ s0 with cls.drain := some ⟨0, 0, false, false, none⟩ }, ⟨0, 0, false, false, none⟩, by decide +kernel⟩,
    ⟨{ s0 with cls.drain := some ⟨0, 0, false, false, none⟩, tm.ns := 8000 }, ⟨0, 0, false, false, none⟩, by decide +kernel⟩,
    ⟨s0, h0, 1, by decide +kernel⟩,
    ⟨s0, h0, 0, by decide +kernel⟩,
    ⟨s0, h0, by decide +kernel⟩⟩

theorem test_w_RebuildAndAgeingComplete :
    (∃ (s : State) (shard : Nat) (r : Rebuild) , (SMap.find? s.fst.rebuilds shard = some r) ∧ (r.done = false) ∧ (s.getF F.fstStatus_kCur shard = 0)) ∧
    (∃ (s : State) , (s.fst.rebuilds ≠ []) ∧ ((∀ e ∈ s.fst.rebuilds, e.2.done = true ∧ e.2.newSeed = true))) ∧
    (∃ (s : State) (shard : Nat) (sw : Sweep) , (SMap.find? s.fst.sweeps shard = some sw) ∧ (s.getB F.fltStatus_barePoles = false) ∧ (shard ∉ s.fst.restarting) ∧ (s.holder shard [bitmapUnit sw.block] = none) ∧ (s.poisoned shard (bitmapUnit sw.block) = false) ∧ ((∀ e ∈ s.fst.ageBits, ¬ (shard * 2 ^ 24 + 128 * sw.block ≤ e.1 ∧ e.1 < shard * 2 ^ 24 + 128 * sw.block + 128))) ∧ (s.furled = false) ∧ (sw.block + 1 < s.ageBlocks)) ∧
    (∃ (s : State) (shard : Nat) (id : Nat) (h : Nat) (dir : Nat) (reason : Nat) (x : Nat) (t : Tx) (r : FlowRec) , (SMap.first? s.fst.txs (fun _ t => t.cls == 1 && t.coord == shard && t.phase == .prepared) = some (id, t)) ∧ (t.removal = some (h, dir, reason, x)) ∧ (s.recNow h = some r) ∧ (((SMap.find? (s.commitPoint id).fst.txs id).elim false fun x => x.phase == .committing) = true)) ∧
    (∃ (s : State) (h : CmdHdr) (k : Nat) , (s.refuseCmd h attrO = none) ∧ (16 ≤ k) ∧ (k ≤ 23) ∧ (s.fst.rebuilds = [])) ∧
    (∃ (s : State) (h : CmdHdr) (desc : Nat) (mask : Nat) , ((∀ p < 64, bitOf mask p = true → pTwoPass (SMap.getD s.cls.flowProf p []) = true → pValid (SMap.getD s.cls.flowProf p []) = true → ∀ e ∈ s.fst.descs, e.1 ≠ desc → bitOf e.2 p = false)) ∧ (s.refuseCmd h attrNone = none) ∧ (desc < 16) ∧ (mask < 2 ^ 64)) :=
  ⟨⟨{ s0 with fst.rebuilds := [(0, ⟨0, false, false⟩)] }, 0, ⟨0, false, false⟩, by decide +kernel⟩,
    ⟨{ s0 with fst.rebuilds := [(0, ⟨0, true, true⟩)] }, by decide +kernel⟩,
    ⟨{ s0 with fst.sweeps := [(0, ⟨0, 0, false, false, false, false⟩)], fst.heapCfg := (0, 0, 1000) }, 0, ⟨0, 0, false, false, false, false⟩, by decide +kernel⟩,
    ⟨{ s0 with fst.txs := [(0, txGone)], fst.heap := [(0, ⟨0, wordsLive⟩)] }, 0, 0, 0, 0, 0, 0, txGone, ⟨0, wordsLive⟩, by decide +kernel⟩,
    ⟨s0, h0, 16, by decide +kernel⟩,
    ⟨s0, h0, 0, 0, (fun p _ hb => absurd hb (by simp [bitOf])), by decide +kernel⟩⟩

theorem test_w_SetupAndNatComplete :
    (∃ (s : State) (shard : Nat) (place : Nat) (thread : Nat) (e : MqEntry) , (s.mqNth shard place .verdict = some e)) ∧
    (∃ (s : State) (shard : Nat) (place : Nat) (thread : Nat) (e : MqEntry) , (s.mqNth shard place .verdict = some e)) ∧
    (∃ (s : State) (shard : Nat) (place : Nat) (e : MqEntry) , (s.mqNth shard place .verdict = some e) ∧ (e.asked + 1000 * s.fst.fwTimeout ≤ s.tm.ticks)) ∧
    (∃ (s : State) (shard : Nat) (e : NatHold) (rest : List NatHold) , (SMap.getD s.fst.holds shard [] = e :: rest) ∧ (e.due ≤ s.now) ∧ (s.conflict [⟨2, e.key, e.bit⟩] = none)) ∧
    (∃ (s : State) (h : CmdHdr) (index : Nat) (words : List Nat) , (s.refuseCmd h attrNone = none) ∧ (index < 32) ∧ (words.length = 8) ∧ ((∀ w ∈ words, w < 2 ^ 32)) ∧ (tInitTclass words ≠ 3)) ∧
    (∃ (s : State) (h : CmdHdr) (timeout : Nat) , (s.refuseCmd h attrNone = none) ∧ (10 ≤ timeout) ∧ (timeout ≤ 10000)) ∧
    (∃ (s : State) (h : CmdHdr) (pool : Nat) (insideBase : Nat) (insideShift : Nat) (subCount : Nat) (outsideBase : Nat) (addrCount : Nat) (portLo : Nat) (blockSize : Nat) (m : Nat) (prefix64 : Nat) (len64 : Nat) , (s.refuseCmd h attrNone = none) ∧ (pool < 64) ∧ (insideBase < 2 ^ 128) ∧ (insideShift ≤ 64) ∧ (1 ≤ subCount) ∧ (subCount ≤ 2 ^ 22) ∧ (outsideBase < 2 ^ 32) ∧ (1 ≤ addrCount) ∧ (addrCount ≤ 65536) ∧ (1024 ≤ portLo) ∧ (portLo ≤ 61440) ∧ (blockSize ∈ [64, 128, 256, 512, 1024, 2048, 4096]) ∧ (1 ≤ m) ∧ (m ≤ 16) ∧ (m * blockSize ≤ 4096) ∧ (subCount * m ≤ addrCount * NatPool.bpa ⟨insideBase, insideShift, subCount, outsideBase, addrCount, portLo, blockSize, m, prefix64, len64⟩) ∧ (prefix64 < 2 ^ 128) ∧ (len64 ∈ [32, 40, 48, 56, 64, 96]) ∧ (natFits (SMap.set s.fst.natPools pool ⟨insideBase, insideShift, subCount, outsideBase, addrCount, portLo, blockSize, m, prefix64, len64⟩) = true) ∧ (s.natLive pool = false)) ∧
    (∃ (s : State) (h : CmdHdr) (pool : Nat) (sub : Option Nat) (p : NatPool) , ((∀ k, sub = some k → k < p.subCount)) ∧ (s.refuseCmd h attrNone = none) ∧ (pool < 64) ∧ (SMap.find? s.fst.natPools pool = some p)) ∧
    (∃ (s : State) (h : CmdHdr) (seconds : Nat) , (s.refuseCmd h attrNone = none) ∧ (seconds ≤ 600)) :=
  ⟨⟨{ s0 with fst.mq := [(0, [{ mq0 with wait := .verdict }])] }, 0, 0, 0, { mq0 with wait := .verdict }, by decide +kernel⟩,
    ⟨{ s0 with fst.mq := [(0, [{ mq0 with wait := .verdict }])] }, 0, 0, 0, { mq0 with wait := .verdict }, by decide +kernel⟩,
    ⟨{ s0 with fst.mq := [(0, [{ mq0 with wait := .verdict }])], tm.ticks := 200000 }, 0, 0, { mq0 with wait := .verdict }, by decide +kernel⟩,
    ⟨{ s0 with fst.holds := [(0, [⟨0, 0, 0⟩])] }, 0, ⟨0, 0, 0⟩, [], by decide +kernel⟩,
    ⟨s0, h0, 0, List.replicate 8 0, by decide +kernel⟩,
    ⟨s0, h0, 10, by decide +kernel⟩,
    ⟨s0, h0, 0, 0, 0, 1, 0, 1, 1024, 64, 1, 0, 32, by decide +kernel⟩,
    ⟨{ s0 with fst.natPools := [(0, ⟨0, 0, 1, 0, 1, 1024, 64, 1, 0, 0⟩)] }, h0, 0, none, ⟨0, 0, 1, 0, 1, 1024, 64, 1, 0, 0⟩, by simp, by decide +kernel⟩,
    ⟨s0, h0, 0, by decide +kernel⟩⟩

theorem test_w_RecordPoolsComplete :
    (∃ (s : State) (shard : Nat) (pool : Nat) , (shard < 32) ∧ (pool ≤ 2) ∧ ((s.hCache shard pool).length < 16)) ∧
    (∃ (s : State) (shard : Nat) (pool : Nat) , (shard < 32) ∧ (pool ≤ 2) ∧ (64 ≤ (s.hCache shard pool).length)) ∧
    (∃ (s : State) (pool : Nat) , (pool ≤ 2) ∧ (s.getBit F.bpmStatus_recall 0 pool = true)) ∧
    (∃ (s : State) (h : CmdHdr) (n64 : Nat) (n128 : Nat) (n256 : Nat) , (s.refuseCmd h attrO = none) ∧ (n64 + 2 * n128 + 4 * n256 ≤ 2 ^ 24) ∧ ((32 * 64 * (n64 + 2 * n128 + 4 * n256) ≤ 2 ^ 32 ∨ ∀ e ∈ s.cls.flowProf, bitOf (wordAt e.2 7) 31 = true → bitOf (wordAt e.2 7) 21 = true)) ∧ (s.anyLive = false)) ∧
    (∃ (s : State) (h : CmdHdr) (c0 : Nat) (c1 : Nat) (c2 : Nat) (c3 : Nat) , (s.refuseCmd h attrO = none) ∧ ((([c0, c1, c2, c3].zipIdx.foldl (fun a e => a + e.1 * ctrlUnits e.2) 0) * 256 ≤ 7424 * 2 ^ 20)) ∧ (s.fst.ctrlBufs = [])) ∧
    (∃ (s : State) (h : CmdHdr) , (s.refuseCmd h attrNone = none)) :=
  ⟨⟨s0, 0, 0, by decide +kernel⟩,
    ⟨{ s0 with fst.caches := [(poolKey 0 0, List.replicate 64 0)] }, 0, 0, by decide +kernel⟩,
    ⟨s0.setF F.bpmStatus_recall 0 1, 0, by decide +kernel⟩,
    ⟨s0, h0, 0, 0, 0, by decide +kernel⟩,
    ⟨s0, h0, 0, 0, 0, 0, by decide +kernel⟩,
    ⟨s0, h0, by decide +kernel⟩⟩

theorem test_w_TransactionCommandsComplete :
    (∃ (s : State) (tx : Nat) (t : Tx) , (SMap.find? s.fst.txs tx = some t) ∧ ((t.phase ≠ .opened ∨ s.deleteWaits t = false))) ∧
    (∃ (s : State) (tx : Nat) (t : Tx) , (SMap.find? s.fst.txs tx = some t) ∧ (2 ≤ t.cls) ∧ (s.deleteWaits t = false) ∧ (t.origin = none) ∧ ((∀ e ∈ t.peers, e.2 ≠ 0))) ∧
    (∃ (s : State) (tx : Nat) (t : Tx) , (SMap.find? s.fst.txs tx = some t) ∧ ((t.phase = .waiting ∨ t.phase = .prepared)) ∧ (t.locks ≠ []) ∧ (t.held = false) ∧ (t.start + 15000 ≤ s.cycle) ∧ (t.faulted = false)) ∧
    (∃ (s : State) (core : Nat) , (core < 4)) ∧
    (∃ (s : State) (h : CmdHdr) , (s.refuseCmd h attrO = none) ∧ ((s.fst.hostTx.filter fun e => e.2.mbx == h.mbx).length < 16)) ∧
    (∃ (s : State) (h : CmdHdr) (tx : Nat) (t : HostTx) (descs : List (List Nat)) , (s.refuseCmd h attrO = none) ∧ (s.hostTxOf h.mbx tx = some t) ∧ ((∀ d ∈ descs, descOk d = true))) ∧
    (∃ (s : State) (h : CmdHdr) (tx : Nat) (t : HostTx) , (s.refuseCmd h attrO = none) ∧ (s.hostTxOf h.mbx tx = some t)) ∧
    (∃ (s : State) (s2 : State) (h : CmdHdr) (tx : Nat) (coord : Nat) (rest : List Nat) (t : HostTx) (ws : List TxWrite) , (({ s with fst := { s.fst with hostTx := SMap.del s.fst.hostTx tx } } : State).expandAll t.descs [] [] = (s2, .ok ws [])) ∧ (writeShards ws = coord :: rest) ∧ (s.refuseCmd h attrO = none) ∧ (s.hostTxOf h.mbx tx = some t) ∧ (({ s with fst := { s.fst with hostTx := SMap.del s.fst.hostTx tx } } : State).spanOf t.descs = []) ∧ ((∀ d ∈ t.descs, ({ s with fst := { s.fst with hostTx := SMap.del s.fst.hostTx tx } } : State).descOwner d = none)) ∧ (txFits ws = true)) :=
  ⟨⟨{ s0 with fst.txs := [(0, { Tx.new 0 0 [] with phase := .prepared })] }, 0, { Tx.new 0 0 [] with phase := .prepared }, by decide +kernel⟩,
    ⟨{ s0 with fst.txs := [(0, Tx.new 8192 0 [])] }, 0, Tx.new 8192 0 [], by decide +kernel⟩,
    ⟨{ s0 with fst.txs := [(0, txWait)], tm.ticks := 20000 }, 0, txWait, by decide +kernel⟩,
    ⟨s0, 0, by decide +kernel⟩,
    ⟨s0, h0, by decide +kernel⟩,
    ⟨{ s0 with fst.hostTx := [(0, ⟨0, []⟩)] }, h0, 0, ⟨0, []⟩, [], by decide +kernel⟩,
    ⟨{ s0 with fst.hostTx := [(0, ⟨0, []⟩)] }, h0, 0, ⟨0, []⟩, by decide +kernel⟩,
    ⟨{ sHeap with fst.hostTx := [(0, ⟨0, [descRec]⟩)] }, _, h0, 0, _, _, ⟨0, [descRec]⟩, _, rfl, rfl, by decide +kernel⟩⟩

theorem test_w_FlowCommandsComplete :
    (∃ (s : State) (s1 : State) (h : CmdHdr) (flow : FlowNew) (handle : Nat) (ws : List TxWrite) , (s.refuseCmd h attrNone = none) ∧ (firstBad (s.flowNewOk flow) = none) ∧ (s.remoteOwner (flow.profile :: flow.key.drop 1) = none) ∧ (s.rebuildEnds (homeShard s.fst.shardSeed (flow.profile :: flow.key.drop 1)) = false) ∧ (s.insertWrites flow = (s1, some (handle, ws)))) ∧
    (∃ (s : State) (h : CmdHdr) (handle : Nat) (k : Nat) (key : List Nat) (r : FlowRec) , (s.handleOf key = some k) ∧ (s.refuseCmd h attrNone = none) ∧ (keyBytesOk key 48 = true) ∧ (s.recNow k = some r) ∧ (iLive (toImage r.size r.words) = true)) ∧
    (∃ (s : State) (h : CmdHdr) (handle : Nat) (key : List Nat) (r : FlowRec) , (s.refuseCmd h attrNone = none) ∧ (s.badHeap handle = none) ∧ (s.recNow handle = some r) ∧ (iLive (toImage r.size r.words) = true)) ∧
    (∃ (s : State) (h : CmdHdr) (key : List Nat) (words : List Nat) (mask : Nat) (k : Nat) , (s.handleOf key = some k) ∧ ((∀ i < 16, bitOf mask i = true → Nat.land (wordAt words i) (fieldMask ((s.recNow k).elim 0 (·.size)) i) = wordAt words i ∧ fieldMask ((s.recNow k).elim 0 (·.size)) i ≠ 0)) ∧ (s.refuseCmd h attrNone = none) ∧ (keyBytesOk key 48 = true) ∧ (mask < 2 ^ 16) ∧ (words.length = 16) ∧ ((∀ w ∈ words, w < 2 ^ 32))) ∧
    (∃ (s : State) (h : CmdHdr) (key : List Nat) (k : Nat) , (s.handleOf key = some k) ∧ (s.refuseCmd h attrNone = none) ∧ (keyBytesOk key 48 = true) ∧ (s.remoteOwner key = none)) ∧
    (∃ (s : State) (h : CmdHdr) (setupCap : Nat) , (s.refuseCmd h attrNone = none) ∧ (1 ≤ setupCap) ∧ (setupCap ≤ 4096)) ∧
    (∃ (s : State) (h : CmdHdr) (shard : Nat) , (s.refuseCmd h attrNone = none) ∧ (shard < 32)) :=
  ⟨(by obtain ⟨s1, k, ws, e⟩ := insert_wit; exact ⟨sIns, s1, h0, flow0, k, ws, by decide +kernel, by decide +kernel, by decide +kernel, by decide +kernel, e⟩),
    ⟨sKey, h0, 0, 0, key0, ⟨2, wordsFull⟩, key_found, by decide +kernel⟩,
    ⟨sHeap, h0, 0, [], ⟨2, wordsFull⟩, by decide +kernel⟩,
    ⟨sKey, h0, key0, List.replicate 16 0, 0, 0, key_found, (fun i _ hb => absurd hb (by simp [bitOf])), by decide +kernel⟩,
    ⟨sKey, h0, key0, 0, key_found, by decide +kernel⟩,
    ⟨s0, h0, 1, by decide +kernel⟩,
    ⟨s0, h0, 0, by decide +kernel⟩⟩

theorem test_w_HbmErrorAndRetireEventsComplete :
    (∃ (s : State) (g : Nat) (e : HbmUe) , ((∀ x, s.dataUnit g e.unit = some x → s.poisoned x.1 x.2 = false)) ∧ (g < 192)) ∧
    (∃ (s : State) (g : Nat) (f : Freeze) , (SMap.find? s.hbm.freezes g = some f) ∧ (s.getBit F.mcxPcHold_hold (g / 32) (g % 32) = false)) ∧
    (∃ (s : State) (g : Nat) (f : Freeze) , (SMap.find? s.hbm.freezes g = some f) ∧ (s.getBit F.mcxPcHold_hold (g / 32) (g % 32) = true)) ∧
    (∃ (s : State) (stack : Nat) (r : Retire) , (SMap.find? s.hbm.retires stack = some r) ∧ (spareUnit ≤ r.lineAt s.tm.ticks)) ∧
    (∃ (s : State) (g : Nat) , (s.refreshed g = true)) ∧
    (∃ (s : State) (u : State) (g : Nat) (corrected : Bool) , (u = { s with hbm := { s.hbm with patrol := SMap.put 0 s.hbm.patrol g ((SMap.getD s.hbm.patrol g 0 + 1) % 2 ^ 23) } }) ∧ (g < 192) ∧ (s.getB F.mcxCtrl_patrolEn (g / 32) = true) ∧ (s.pcHolds g = false) ∧ (s.getBit F.mcxPcRetired_retired (g / 32) (g % 32) = false)) ∧
    (∃ (s : State) (u : State) (g : Nat) (e : HbmUe) (corrected : Bool) , (u = { s with hbm := { s.hbm with patrol := SMap.put 0 s.hbm.patrol g ((SMap.getD s.hbm.patrol g 0 + 1) % 2 ^ 23) } }) ∧ (g < 192) ∧ (s.getB F.mcxCtrl_patrolEn (g / 32) = true) ∧ (s.pcHolds g = false) ∧ (s.getBit F.mcxPcRetired_retired (g / 32) (g % 32) = false)) ∧
    (∃ (s : State) (u : State) (stack : Nat) (history : List (List Nat)) (w : TrainWindow) , (u = ({ s with hbm := { s.hbm with windows := SMap.del s.hbm.windows stack, deferred := s.hbm.deferred.filter fun g => g / 32 != stack } } : State)) ∧ (SMap.find? s.hbm.windows stack = some w) ∧ (w.at_ + w.length ≤ s.tm.ticks)) :=
  ⟨⟨s0, 0, ⟨0, 0, 0, false, [], [], [], none, none, false⟩, (fun _ _ => rfl), by decide +kernel⟩,
    ⟨sFrz false, 0, ⟨0, false⟩, by decide +kernel⟩,
    ⟨(sFrz false).setF F.mcxPcHold_hold 0 1, 0, ⟨0, false⟩, by decide +kernel⟩,
    ⟨{ s0 with hbm.retires := [(0, ⟨0, spareUnit, none⟩)] }, 0, ⟨0, spareUnit, none⟩, by decide +kernel⟩,
    ⟨s0, 0, by decide +kernel⟩,
    ⟨s0.setF F.mcxCtrl_patrolEn 0 1, _, 0, false, rfl, by decide +kernel⟩,
    ⟨s0.setF F.mcxCtrl_patrolEn 0 1, _, 0, ⟨0, 0, 0, false, [], [], [], none, none, false⟩, false, rfl, by decide +kernel⟩,
    ⟨{ s0 with hbm.windows := [(0, ⟨0, 0⟩)] }, _, 0, [], ⟨0, 0⟩, rfl, by decide +kernel⟩⟩

theorem test_w_HbmWatchAndPowerEventsComplete :
    (∃ (s : State) (a : State) (b : State) (c : State) (stack : Nat) (temp : Nat) , (a = (s.setF F.mcxTemp_temp stack (Nat.min 255 temp)).maxF F.mcxTemp_tempMax stack temp) ∧ (b = (if temp > 85 then a.setF F.mcxTemp_hot stack 1 else a)) ∧ (c = (if temp > 95 ∧ (∀ l ∈ b.flt.live, ¬ (l.code = 0x2005 ∧ l.instance_ = stack)) then (b.setF F.mcxEvent_tempHighSeen stack 1).raise 0x2005 stack else b)) ∧ (stack < 6) ∧ (83 ≤ temp)) ∧
    (∃ (s : State) (a : State) (stack : Nat) (temp : Nat) , (a = (s.setF F.mcxTemp_temp stack temp).maxF F.mcxTemp_tempMax stack temp) ∧ (stack < 6) ∧ (temp < 83) ∧ (SMap.find? a.hbm.coolSince stack = none)) ∧
    (∃ (s : State) (a : State) (stack : Nat) (temp : Nat) (t : Nat) , (a = (s.setF F.mcxTemp_temp stack temp).maxF F.mcxTemp_tempMax stack temp) ∧ (stack < 6) ∧ (temp < 83) ∧ (SMap.find? a.hbm.coolSince stack = some t)) ∧
    (∃ (s : State) (u : State) (v : State) (g : Nat) (bank : Nat) (row : Nat) (n : Nat) (r : ActRun) , (r = (ActRun.mk (SMap.getD s.hbm.acts g []) 0 0).activates (s.getF F.mcxRhCfg_threshold (g / 32)) bank row n) ∧ (u = ({ s with hbm := { s.hbm with acts := SMap.put [] s.hbm.acts g r.table } } : State)) ∧ (v = (u.maxF F.mcxRhStatus_countMax (g / 32) r.top).maxF F.mcxRhStatus_occMax (g / 32) (if n = 0 ∨ (∃ e ∈ SMap.getD s.hbm.acts g [], e.bank = bank ∧ e.row = row) then (SMap.getD s.hbm.acts g []).length else Nat.min 512 ((SMap.getD s.hbm.acts g []).length + 1))) ∧ (g < 192)) ∧
    (∃ (s : State) (stack : Nat) (request : Nat) , (stack < 6) ∧ (s.getF F.sysStatus_bootState = 7) ∧ (s.stackHolds stack = false) ∧ (SMap.has s.hbm.srRetryAt stack = false) ∧ (stack ∉ s.hbm.srOut)) ∧
    (∃ (s : State) (stack : Nat) (request : Nat) (t : Nat) , (SMap.find? s.hbm.srRetryAt stack = some t) ∧ (t ≤ s.now)) ∧
    (∃ (s : State) (u : State) (stack : Nat) , ((SMap.has s.hbm.srHeldAt stack = true ∨ ∃ e ∈ s.hbm.held, e.1 / 32 = stack)) ∧ (u = s.exitSelfRefresh stack) ∧ (stack ∈ s.hbm.selfRefresh)) ∧
    (∃ (s : State) (stack : Nat) (value : Nat) , (stack < 6)) :=
  ⟨⟨s0, _, _, _, 0, 83, rfl, rfl, rfl, by decide +kernel⟩,
    ⟨s0, _, 0, 0, rfl, by decide +kernel⟩,
    ⟨{ s0 with hbm.coolSince := [(0, 0)] }, _, 0, 0, 0, rfl, by decide +kernel⟩,
    ⟨s0, _, _, 0, 0, 0, 0, _, rfl, rfl, rfl, by decide +kernel⟩,
    ⟨s0.setF F.sysStatus_bootState 0 7, 0, 0, by decide +kernel⟩,
    ⟨{ s0 with hbm.srRetryAt := [(0, 0)] }, 0, 0, 0, by decide +kernel⟩,
    ⟨{ s0 with hbm.selfRefresh := [0], hbm.srHeldAt := [(0, 0)] }, _, 0, Or.inl rfl, rfl, by decide +kernel⟩,
    ⟨s0, 0, 0, by decide +kernel⟩⟩

theorem test_w_HbmCommandsComplete :
    (∃ (s : State) (h : CmdHdr) (stack : Nat) , (s.refuseCmd h attrS = none) ∧ (stack < 6)) ∧
    (∃ (s : State) (h : CmdHdr) (stack : Nat) (g : Nat) (rs : List (List Nat)) , (s.refuseCmd h attrNone = none) ∧ (stack < 6) ∧ (SMap.first? s.hbm.history (fun g _ => g / 32 == stack) = some (g, rs))) ∧
    (∃ (s : State) (h : CmdHdr) (threshold : Nat) , (s.refuseCmd h attrNone = none) ∧ (256 ≤ threshold) ∧ (threshold ≤ 65535)) ∧
    (∃ (s : State) (h : CmdHdr) (patrolEn : Bool) (scrubHours : Nat) (extLimit : Nat) , (s.refuseCmd h attrNone = none) ∧ (1 ≤ scrubHours) ∧ (scrubHours ≤ 255) ∧ (16 ≤ extLimit) ∧ (extLimit ≤ 200)) ∧
    (∃ (s : State) (h : CmdHdr) (stack : Nat) (pc : Nat) , (s.refuseCmd h attrO = none) ∧ (stack < 6) ∧ (pc < 32) ∧ (SMap.has s.hbm.retires stack = false) ∧ (s.getB F.mcxStatus_spareUsed stack = false)) :=
  ⟨⟨s0, h0, 0, by decide +kernel⟩,
    ⟨{ s0 with hbm.history := [(0, [])] }, h0, 0, 0, [], by decide +kernel⟩,
    ⟨s0, h0, 256, by decide +kernel⟩,
    ⟨s0, h0, false, 1, 16, by decide +kernel⟩,
    ⟨s0, h0, 0, 0, by decide +kernel⟩⟩

theorem test_w_CriodThreadEventsComplete :
    (∃ (s : State) (thread : Nat) (sources : Nat) , (thread < 64)) ∧
    (∃ (s : State) (u : State) (thread : Nat) (sources : Nat) (m : Nat) , (u = s.latch thread (trunc 14 sources)) ∧ (thread < 64) ∧ ((u.thread thread).halted = false) ∧ ((u.thread thread).wait = none) ∧ (u.threadStopped thread = false) ∧ (u.threadOn thread = true) ∧ (u.supervisor ≠ some thread)) ∧
    (∃ (s : State) (u : State) (v : State) (thread : Nat) (sources : Nat) (m : Nat) , (u = s.latch thread (trunc 14 sources)) ∧ (v = (if Nat.land (u.thread thread).woke evThreadFault ≠ 0 then ((List.range 64).filter fun t => (u.thread t).halted && u.getF F.crdCoreStatus_role (t / 16) == 1).foldl (fun w t => w.restartThread t) u else u)) ∧ (thread < 64) ∧ ((u.thread thread).halted = false) ∧ ((u.thread thread).wait = none) ∧ (u.threadStopped thread = false) ∧ (u.threadOn thread = true) ∧ (u.supervisor = some thread)) ∧
    (∃ (s : State) (thread : Nat) (channel : Nat) (words : List Nat) (last : Option Nat) (c : Channel) , (SMap.find? s.crd.channels channel = some c) ∧ (c.writer = thread) ∧ (c.stalled = [])) ∧
    (∃ (s : State) (thread : Nat) (channel : Nat) (words : List Nat) (last : Option Nat) (c : Channel) , (SMap.find? s.crd.channels channel = some c) ∧ (c.writer = thread) ∧ (c.stalled ≠ [])) ∧
    (∃ (s : State) (thread : Nat) (channel : Nat) (words : List Nat) (last : Option Nat) , ((∀ c, SMap.find? s.crd.channels channel = some c → c.writer ≠ thread)) ∧ (thread < 64)) ∧
    (∃ (s : State) (thread : Nat) (channel : Nat) (c : Channel) (m : List Nat) (rest : List (List Nat)) , (SMap.find? s.crd.channels channel = some c) ∧ (c.reader = thread) ∧ (c.messages = m :: rest)) ∧
    (∃ (s : State) (thread : Nat) (channel : Nat) , ((∀ c, SMap.find? s.crd.channels channel = some c → c.reader ≠ thread)) ∧ (thread < 64)) ∧
    (∃ (s : State) (task : Nat) (level : Nat) (core : Nat) (budget : Nat) , (task < 1024) ∧ (level < 32) ∧ (core < 4) ∧ (1 ≤ budget) ∧ (budget ≤ 65535) ∧ (SMap.find? s.crd.tasks task = none)) ∧
    (∃ (s : State) (task : Nat) (level : Nat) (core : Nat) (budget : Nat) (t : Task) , (task < 1024) ∧ (level < 32) ∧ (core < 4) ∧ (1 ≤ budget) ∧ (budget ≤ 65535) ∧ (SMap.find? s.crd.tasks task = some t) ∧ (t.phase = .waiting)) ∧
    (∃ (s : State) (thread : Nat) (id : Nat) (how : TaskEnd) , (thread < 64) ∧ ((s.thread thread).serves = true) ∧ ((s.thread thread).halted = false) ∧ (s.threadStopped thread = false) ∧ ((s.thread thread).running = some id)) ∧
    (∃ (s : State) (thread : Nat) (how : TaskEnd) , (thread < 64) ∧ ((s.thread thread).serves = true) ∧ ((s.thread thread).halted = false) ∧ (s.threadStopped thread = false) ∧ ((s.thread thread).running = none)) ∧
    (∃ (s : State) (thread : Nat) (addr : Nat) (id : Nat) (t : Task) , ((s.thread thread).running = some id) ∧ (SMap.find? s.crd.tasks id = some t) ∧ ((s.thread thread).halted = false) ∧ ((s.thread thread).runStart + 1000 * t.budget ≤ s.tm.ticks)) ∧
    (∃ (s : State) (thread : Nat) (kind : Nat) (addr : Nat) , (thread < 64) ∧ ((s.thread thread).halted = false)) :=
  ⟨⟨s0, 0, 0, by decide +kernel⟩,
    ⟨s0.setF F.crdThreadClass_elastic 0 1, _, 0, 0, 0, rfl, by decide +kernel⟩,
    ⟨(s0.setF F.crdThreadClass_elastic 0 1).setF F.crdCoreStatus_supervisor 0 1, _, _, 0, 0, 0, rfl, rfl, by decide +kernel⟩,
    ⟨sChan chan0, 0, 0, [], none, chan0, by decide +kernel⟩,
    ⟨sChan { chan0 with stalled := [(0, false)] }, 0, 0, [], none, { chan0 with stalled := [(0, false)] }, by decide +kernel⟩,
    ⟨s0, 0, 0, [], none, (fun _ h => nomatch h), by decide +kernel⟩,
    ⟨sChan { chan0 with messages := [[1]] }, 0, 0, { chan0 with messages := [[1]] }, [1], [], by decide +kernel⟩,
    ⟨s0, 0, 0, (fun _ h => nomatch h), by decide +kernel⟩,
    ⟨s0, 0, 0, 0, 1, by decide +kernel⟩,
    ⟨{ s0 with crd.tasks := [(0, ⟨0, 0, 1, .waiting⟩)] }, 0, 0, 0, 1, ⟨0, 0, 1, .waiting⟩, by decide +kernel⟩,
    ⟨{ s0 with crd.threads := [(0, { Thread.reset with serves := true, running := some 0 })] }, 0, 0, .ended, by decide +kernel⟩,
    ⟨{ s0 with crd.threads := [(0, { Thread.reset with serves := true })] }, 0, .ended, by decide +kernel⟩,
    ⟨{ s0 with crd.threads := [(0, { Thread.reset with serves := true, running := some 0 })], crd.tasks := [(0, ⟨0, 0, 1, .running⟩)], tm.ticks := 1000 }, 0, 0, 0, ⟨0, 0, 1, .running⟩, by decide +kernel⟩,
    ⟨s0, 0, 0, 0, by decide +kernel⟩⟩

theorem test_w_CriodWatchEventsComplete :
    (∃ (s : State) (w : State) (u : State) , (w = s.watchCalm 0) ∧ (u = (((({ w with crd := { w.crd with armed := false } } : State).setF F.crdBecalmed_quietUs 0 1000).setF F.crdBecalmed_latched 0 1).setF F.crdEvent_becalmedSeen 0 1).count C.crdBecalmed) ∧ (w.getB F.crdBecalmed_live = true) ∧ (w.crd.armed = true) ∧ (999 ≤ w.getF F.crdBecalmed_quietUs)) ∧
    (∃ (s : State) (w : State) , (w = s.watchCalm 0) ∧ (w.getB F.crdBecalmed_live = true) ∧ (w.getF F.crdCtrl_becalmedAction = 1)) ∧
    (∃ (s : State) (id : Nat) (t : Task) , (s.crd.housekeeping = some id) ∧ (SMap.find? s.crd.tasks id = some t)) ∧
    (∃ (s : State) (core : Nat) (age : Nat) (service : Nat) (n : Nat) , (core < 4) ∧ (core ∉ s.crd.testing) ∧ (s.getF F.crdCoreStatus_role core = 2) ∧ (s.crd.takeover = none) ∧ (n = (s.crd.passes + 1) % 65536)) ∧
    (∃ (s : State) (u : State) (core : Nat) (age : Nat) (service : Nat) (n : Nat) , (u = (((((({ s with crd := { s.crd with passes := n, sram := SMap.keep (fun k _ => k / 32768 != core) s.crd.sram } } : State).setF F.crdHealth_value 0 (n <<< 16)).setF F.crdHealth_value 1 (trunc 16 age <<< 16 + trunc 8 service <<< 8)).setF F.crdHealth_value 2 (trunc 32 s.tm.sec)).count C.crdSelftestPasses).raise 0x1006 core n 0)) ∧ (core < 4) ∧ (core ∈ s.crd.testing) ∧ (s.crd.takeover = none) ∧ (s.boot.update = none) ∧ (n = (s.crd.passes + 1) % 65536)) ∧
    (∃ (s : State) (u : State) (v : State) (core : Nat) (failed : Nat) (age : Nat) (service : Nat) (n : Nat) , (u = (((((({ s with crd := { s.crd with passes := n, sram := SMap.keep (fun k _ => k / 32768 != core) s.crd.sram } } : State).setF F.crdHealth_value 0 (n <<< 16 + trunc 6 failed)).setF F.crdHealth_value 1 (trunc 16 age <<< 16 + trunc 8 service <<< 8)).setF F.crdHealth_value 2 (trunc 32 s.tm.sec)).count C.crdSelftestPasses).raise 0x1006 core n (trunc 6 failed))) ∧ (v = (if bitOf failed 4 = true then (({ u with crd := { u.crd with forced := u.crd.forced.filter (· != service) ++ [service] } } : State).setF F.crdEvent_healthFailSeen 0 1).count C.crdHealthFails else u)) ∧ (core < 4) ∧ (core ∉ s.crd.testing) ∧ (s.getF F.crdCoreStatus_role core = 2) ∧ (s.crd.takeover = none) ∧ (n = (s.crd.passes + 1) % 65536)) ∧
    (∃ (s : State) (core : Nat) , (core < 4) ∧ (s.getF F.crdCoreStatus_role core = 1) ∧ (s.getF F.crdCoreStatus_stopped core = 0)) ∧
    (∃ (s : State) (core : Nat) (cause : Nat) , (core < 4) ∧ (cause ≠ 1)) ∧
    (∃ (s : State) (core : Nat) , (core < 4)) ∧
    (∃ (s : State) (a : State) (b : State) (c : State) (d : State) (e : State) (f : State) (t : Takeover) , (a = ((({ s with crd := { s.crd with takeover := none, testing := s.crd.testing ++ [t.failed] } } : State).setF F.crdCoreStatus_role t.core 1).setF F.crdCoreStatus_greedy t.core 0)) ∧ (b = (a.setF F.crdCoreStatus_ctrlGen t.core ((a.getF F.crdCoreStatus_ctrlGen t.core + 1) % 256))) ∧ (c = b.setFence t.failed ((b.getF F.crdCoreStatus_ctrlGen t.failed + 1) % 256)) ∧ (d = (if c.getB F.crdCoreStatus_supervisor t.failed = true then (c.setF F.crdCoreStatus_supervisor t.failed 0).setF F.crdCoreStatus_supervisor t.core 1 else c)) ∧ (e = ((((d.takeClasses t.failed t.core).setF F.crdTakeover_state 0 3).setF F.crdTakeover_durationUs 0 ((((d.takeClasses t.failed t.core).setF F.crdTakeover_state 0 3).tm.ticks - t.start) / 1000)).endCondition 0x1003 t.failed)) ∧ (f = ((match e.boot.update with | some u => ({ e with boot := { e.boot with coreFw := SMap.set e.boot.coreFw t.failed u.version } } : State) | none => e).raise 0x1004 t.failed).schedule) ∧ (s.crd.takeover = some t) ∧ (s.getF F.crdCoreStatus_role t.core = 2)) ∧
    (∃ (s : State) (service : Nat) (content : List Nat) , (SMap.has s.crd.services service = true)) :=
  ⟨⟨{ sCalm with crd.armed := true }.setF F.crdBecalmed_quietUs 0 999, _, _, rfl, rfl, by decide +kernel⟩,
    ⟨sCalm, _, rfl, by decide +kernel⟩,
    ⟨{ s0 with crd.tasks := [(0, ⟨0, 0, 1, .delayed⟩)], crd.housekeeping := some 0 }, 0, ⟨0, 0, 1, .delayed⟩, by decide +kernel⟩,
    ⟨s0.setF F.crdCoreStatus_role 0 2, 0, 0, 0, 1, by decide +kernel⟩,
    ⟨{ s0 with crd.testing := [0] }, _, 0, 0, 0, 1, rfl, by decide +kernel⟩,
    ⟨s0.setF F.crdCoreStatus_role 0 2, _, _, 0, 0, 0, 0, 1, rfl, rfl, by decide +kernel⟩,
    ⟨s0.setF F.crdCoreStatus_role 0 1, 0, by decide +kernel⟩,
    ⟨s0, 0, 0, by decide +kernel⟩,
    ⟨s0, 0, by decide +kernel⟩,
    ⟨{ s0 with crd.takeover := some ⟨1, 0, 0, none⟩ }.setF F.crdCoreStatus_role 0 2, _, _, _, _, _, _, ⟨1, 0, 0, none⟩, rfl, rfl, rfl, rfl, rfl, rfl, by decide +kernel⟩,
    ⟨{ s0 with crd.services := [(0, 0)], crd.checkpoints := [(0, ⟨none, none, false⟩)] }, 0, [], by decide +kernel⟩⟩

theorem test_w_CriodCommandsComplete :
    (∃ (s : State) (h : CmdHdr) , (s.refuseCmd h attrNone = none)) ∧
    (∃ (s : State) (h : CmdHdr) (core : Nat) , (s.refuseCmd h attrO = none) ∧ (core < 4) ∧ (s.getF F.crdCoreStatus_role core = 1) ∧ (s.backstay.isSome = true) ∧ (s.crd.takeover = none)) ∧
    (∃ (s : State) (h : CmdHdr) (becalmedAction : Nat) (kickPeriod : Nat) (ckptPeriod : Nat) , (s.refuseCmd h attrNone = none) ∧ (becalmedAction ≤ 1) ∧ (10 ≤ kickPeriod) ∧ (kickPeriod ≤ 255) ∧ (ckptPeriod ≤ 255)) ∧
    (∃ (s : State) (h : CmdHdr) , (s.refuseCmd h attrS = none)) ∧
    (∃ (s : State) (h : CmdHdr) (core : Nat) (thread : Nat) , (s.refuseCmd h attrD = none) ∧ (core < 4) ∧ (thread < 16)) ∧
    (∃ (s : State) (h : CmdHdr) (core : Nat) (thread : Nat) , (s.refuseCmd h attrD = none) ∧ (core < 4) ∧ (thread < 16) ∧ (s.threadStopped (16 * core + thread) = true)) ∧
    (∃ (s : State) (h : CmdHdr) (core : Nat) (thread : Nat) (writes : List (Nat × Nat)) , (s.refuseCmd h attrD = none) ∧ (core < 4) ∧ (thread < 16) ∧ (s.threadStopped (16 * core + thread) = true)) ∧
    (∃ (s : State) (h : CmdHdr) (core : Nat) (thread : Nat) (on : Bool) , (s.refuseCmd h attrD = none) ∧ (core < 4) ∧ (thread < 16)) ∧
    (∃ (s : State) (h : CmdHdr) (core : Nat) (thread : Nat) (first : Nat) (count : Nat) , (s.refuseCmd h attrD = none) ∧ (core < 4) ∧ (thread < 16) ∧ (debugRange true first count = true) ∧ (s.threadStopped (16 * core + thread) = true)) ∧
    (∃ (s : State) (h : CmdHdr) (core : Nat) (thread : Nat) (first : Nat) (values : List Nat) , (s.refuseCmd h attrD = none) ∧ (core < 4) ∧ (thread < 16) ∧ (debugRange true first values.length = true) ∧ (s.threadStopped (16 * core + thread) = true)) ∧
    (∃ (s : State) (h : CmdHdr) (channel : Nat) (c : Channel) , (s.refuseCmd h attrD = none) ∧ (channel < 320) ∧ (SMap.find? s.crd.channels channel = some c)) ∧
    (∃ (s : State) (h : CmdHdr) (channel : Nat) (c : Channel) , (s.refuseCmd h attrD = none) ∧ (channel < 320) ∧ (SMap.find? s.crd.channels channel = some c) ∧ (c.part ≠ []) ∧ (s.threadStopped c.writer = true)) :=
  ⟨⟨s0, h0, by decide +kernel⟩,
    ⟨(s0.setF F.crdCoreStatus_role 0 1).setF F.crdCoreStatus_role 1 2, h0, 0, by decide +kernel⟩,
    ⟨s0, h0, 0, 10, 0, by decide +kernel⟩,
    ⟨s0, h0, by decide +kernel⟩,
    ⟨sDbg, hD, 0, 0, by decide +kernel⟩,
    ⟨sStop, hD, 0, 0, by decide +kernel⟩,
    ⟨sStop, hD, 0, 0, [], by decide +kernel⟩,
    ⟨sDbg, hD, 0, 0, false, by decide +kernel⟩,
    ⟨sStop, hD, 0, 0, 0, 0, by decide +kernel⟩,
    ⟨sStop, hD, 0, 0, 0, [], by decide +kernel⟩,
    ⟨sDbg, hD, 0, { chan0 with part := [1] }, by decide +kernel⟩,
    ⟨sStop, hD, 0, { chan0 with part := [1] }, by decide +kernel⟩⟩

theorem test_w_MailboxEventsComplete :
    (∃ (s : State) (mbx : Nat) (entry : List Nat) , (mbx ≤ 8)) ∧
    (∃ (s : State) (mbx : Nat) , (mbx ≤ 8)) ∧
    (∃ (s : State) (words : List Nat) (m : Nat) , (s.dmaOn = true) ∧ (s.flt.fetchStopped = false) ∧ (s.host.inflight.length < 64) ∧ ((((List.range 9).map fun i => (s.host.nextMbx + i) % 9).find? s.mayFetch) = some m) ∧ (m ≠ 8) ∧ (headerOk words = true)) ∧
    (∃ (s : State) (mbx : Nat) (e : Inflight) (r : Rsp) (t : State) , (t = (s.postEntry e r).setBit F.mbxStatus_cqFull 0 mbx false) ∧ (s.host.inflight.find? (fun e => e.mbx == mbx) = some e) ∧ (e.rsp = some r) ∧ ((8 ≤ mbx ∨ s.dmaOn = true)) ∧ ((s.getF F.mbxQstate_cqTail mbx + 1) % (s.mailbox mbx).cqSize ≠ (s.mailbox mbx).cqHead)) ∧
    (∃ (s : State) (mbx : Nat) (e : Inflight) (r : Rsp) , (s.host.inflight.find? (fun e => e.mbx == mbx) = some e) ∧ (e.rsp = some r) ∧ ((8 ≤ mbx ∨ s.dmaOn = true)) ∧ ((s.getF F.mbxQstate_cqTail mbx + 1) % (s.mailbox mbx).cqSize = (s.mailbox mbx).cqHead)) ∧
    (∃ (s : State) (h : CmdHdr) , (s.refuseCmd h attrS = none)) :=
  ⟨⟨s0, 0, [], by decide +kernel⟩,
    ⟨s0, 0, by decide +kernel⟩,
    ⟨{ s0 with host.mboxes := [(0, { Mailbox.reset with sqTail := 1 })] }.setF F.mbxStatus_ready 0 1, nop0, 0, by decide +kernel⟩,
    ⟨{ s0 with host.inflight := [infl0] }, 0, infl0, .ok, _, rfl, by decide +kernel⟩,
    ⟨{ s0 with host.inflight := [infl0], host.mboxes := [(0, { Mailbox.reset with cqHead := 1 })] }, 0, infl0, .ok, by decide +kernel⟩,
    ⟨s0, h0, by decide +kernel⟩⟩

theorem test_w_RingCommandsComplete :
    (∃ (s : State) (h : CmdHdr) (ring : Nat) (rtype : Nat) (base : Nat) (n : Nat) (slotSize : Nat) (vector : Nat) (count : Nat) (us : Nat) , (s.refuseCmd h attrO = none) ∧ (ring < 64) ∧ (rtype < 3) ∧ (base % 4096 = 0) ∧ (base < 2 ^ 64) ∧ (6 ≤ n) ∧ (n ≤ 16) ∧ ((if rtype = 1 then slotSize = 1024 ∨ slotSize = 2048 else slotSize = 32)) ∧ (16 ≤ vector) ∧ (vector < 256) ∧ (1 ≤ count) ∧ (count ≤ 65535) ∧ (us ≤ 65535) ∧ ((s.ring ring).enabled = false)) ∧
    (∃ (s : State) (h : CmdHdr) (ring : Nat) (rtype : Nat) (base : Nat) (n : Nat) (slotSize : Nat) (vector : Nat) (count : Nat) (us : Nat) , (s.refuseCmd h attrO = none) ∧ (ring < 64)) ∧
    (∃ (s : State) (h : CmdHdr) (cls : Nat) (ring : Nat) , (s.refuseCmd h attrO = none) ∧ (2 ≤ cls) ∧ (cls ≤ 4) ∧ (ring < 64)) ∧
    (∃ (s : State) (h : CmdHdr) (cls : Nat) (dest : NotifTo) , ((∀ r, dest ≠ .ring r)) ∧ (s.refuseCmd h attrO = none) ∧ (2 ≤ cls) ∧ (cls ≤ 4)) ∧
    (∃ (s : State) (h : CmdHdr) (ring : Nat) , (s.refuseCmd h attrNone = none) ∧ (ring < 64)) ∧
    (∃ (s : State) (n : NotifRec) (rest : List NotifRec) (ring : Nat) , (s.host.notifQ = n :: rest) ∧ (({ s with host := { s.host with notifQ := rest } } : State).notifDest n = .ring ring)) ∧
    (∃ (s : State) (n : NotifRec) (rest : List NotifRec) , (s.host.notifQ = n :: rest) ∧ (({ s with host := { s.host with notifQ := rest } } : State).notifDest n = .firmware)) :=
  ⟨⟨s0, h0, 0, 0, 0, 6, 32, 16, 1, 0, by decide +kernel⟩,
    ⟨s0, h0, 0, 0, 0, 0, 0, 0, 0, 0, by decide +kernel⟩,
    ⟨s0, h0, 2, 0, by decide +kernel⟩,
    ⟨s0, h0, 2, .firmware, (fun r => nofun), by decide +kernel⟩,
    ⟨s0, h0, 0, by decide +kernel⟩,
    ⟨{ s0 with host.notifQ := [notif0], host.bindings := [(4, .ring 0)] }, notif0, [], 0, by decide +kernel⟩,
    ⟨{ s0 with host.notifQ := [notif0], host.bindings := [(4, .firmware)] }, notif0, [], by decide +kernel⟩⟩

theorem test_w_PcieEventsComplete :
    (∃ (s : State) (speed : Nat) (width : Nat) , (1 ≤ speed)) ∧
    (∃ (s : State) (u : State) (kind : Nat) (unit : Nat) (cid : Nat) (addr : Nat) , (u = (s.pciEvent (if kind = 0 then F.pciEvent_cplTimeoutSeen else if kind = 1 then F.pciEvent_urSeen else F.pciEvent_poisonSeen)).pciCapture (4 - kind) 0 unit addr) ∧ (kind ≤ 2)) ∧
    (∃ (s : State) (u : State) (kind : Nat) (unit : Nat) (cid : Nat) (addr : Nat) , (u = (((s.pciEvent (if kind = 0 then F.pciEvent_cplTimeoutSeen else if kind = 1 then F.pciEvent_urSeen else F.pciEvent_poisonSeen)).pciCapture (4 - kind) 1 unit addr).setBit F.mbxStatus_stopped 0 unit true).setMbxReady unit false) ∧ (kind ≤ 2) ∧ (unit < 8)) ∧
    (∃ (s : State) (u : State) (kind : Nat) (target : Nat) (unit : Nat) (cid : Nat) (addr : Nat) , (u = (s.pciEvent (if kind = 0 then F.pciEvent_cplTimeoutSeen else if kind = 1 then F.pciEvent_urSeen else F.pciEvent_poisonSeen)).pciCapture (4 - kind) target unit addr) ∧ (kind ≤ 2) ∧ (2 ≤ target) ∧ ((u.ring unit).enabled = true) ∧ ((u.ring unit).rtype = 2) ∧ ((u.ring unit).consumer ≠ (u.ring unit).producer)) :=
  ⟨⟨s0, 1, 0, by decide +kernel⟩,
    ⟨s0, _, 0, 0, 0, 0, rfl, by decide +kernel⟩,
    ⟨s0, _, 0, 0, 0, 0, rfl, by decide +kernel⟩,
    ⟨{ s0 with host.rings := [(0, { Ring.reset with rtype := 2, enabled := true, producer := 1 })] }, _, 0, 2, 0, 0, 0, rfl, by decide +kernel⟩⟩

theorem test_w_SmbusEventsComplete :
    (∃ (s : State) (words : List Nat) , (s.getB F.mbxCtrl_smbEn = true) ∧ (s.host.smbus.busy = false)) ∧
    (∃ (s : State) (words : List Nat) , (s.getB F.mbxCtrl_smbEn = true) ∧ (s.host.smbus.busy = false)) ∧
    (∃ (s : State) (bit : Nat) , (bit < 32)) :=
  ⟨⟨s0, [], by decide +kernel⟩,
    ⟨s0, [], by decide +kernel⟩,
    ⟨s0, 0, by decide +kernel⟩⟩

theorem test_w_RegisterAccessCompletes :
    (∃ (s : State) (bar : Nat) (addr : Nat) (data : Nat) (i : Nat) (r : Reg) (jtag : Bool) , (s.accessible jtag = true) ∧ (bar ≠ 4) ∧ (debugWord bar (addr / 4 * 4) = none) ∧ (regAt bar (addr / 4 * 4) = some (r, i))) ∧
    (∃ (s : State) (bar : Nat) (addr : Nat) (data : Nat) (n : Nat) (jtag : Bool) , (s.accessible jtag = true) ∧ (bar ≠ 4) ∧ (debugWord bar (addr / 4 * 4) = some n)) ∧
    (∃ (s : State) (addr : Nat) (data : Nat) (jtag : Bool) , (s.accessible jtag = true) ∧ (addr / 4 * 4 < 0x1000)) ∧
    (∃ (s : State) (bar : Nat) (addr : Nat) (data : Nat) (jtag : Bool) , (s.accessible jtag = true) ∧ (bar ≠ 4) ∧ ((debugWord bar (addr / 4 * 4) ≠ none ∨ regAt bar (addr / 4 * 4) ≠ none))) ∧
    (∃ (s : State) (bar : Nat) (addr : Nat) (data : Nat) (full : Bool) (jtag : Bool) , (s.accessible jtag = true) ∧ (bar ≠ 4) ∧ (debugWord bar (addr / 4 * 4) = none) ∧ (regAt bar (addr / 4 * 4) = none)) ∧
    (∃ (s : State) (bar : Nat) (addr : Nat) (i : Nat) (r : Reg) (jtag : Bool) , (s.accessible jtag = true) ∧ (bar ≠ 4) ∧ (debugWord bar (addr / 4 * 4) = none) ∧ (regAt bar (addr / 4 * 4) = some (r, i)) ∧ (¬ (r = .cntWinData ∧ i = 1))) ∧
    (∃ (s : State) (bar : Nat) (addr : Nat) (n : Nat) (jtag : Bool) , (s.accessible jtag = true) ∧ (bar ≠ 4) ∧ (debugWord bar (addr / 4 * 4) = some n)) ∧
    (∃ (s : State) (addr : Nat) (jtag : Bool) , (s.accessible jtag = true)) ∧
    (∃ (s : State) (bar : Nat) (addr : Nat) (jtag : Bool) , (s.accessible jtag = true) ∧ (bar ≠ 4) ∧ (debugWord bar (addr / 4 * 4) = none) ∧ (regAt bar (addr / 4 * 4) = none)) :=
  ⟨⟨s0, 0, 0x2C, 0, 0, .sysScratch, false, by decide +kernel⟩,
    ⟨s0, 0, 0x21000, 0, 0, false, by decide +kernel⟩,
    ⟨s0, 0x2C, 0, false, by decide +kernel⟩,
    ⟨s0, 0, 0x2C, 0, false, by decide +kernel⟩,
    ⟨s0, 0, 0xFFF0, 0, false, false, by decide +kernel⟩,
    ⟨s0, 0, 0x2C, 0, .sysScratch, false, by decide +kernel⟩,
    ⟨s0, 0, 0x21000, 0, false, by decide +kernel⟩,
    ⟨s0, 0, false, by decide +kernel⟩,
    ⟨s0, 0, 0xFFF0, false, by decide +kernel⟩⟩

theorem test_w_FaultEventsComplete :
    (∃ (s : State) (a : State) (b : State) (start : Nat) (tied : List HeldFault) , (tied = (s.flt.windowFaults.filter (·.loss.isEmpty)).filter (fun h => decide (s.getF F.fltCtrl_captureMin ≤ h.severity) && decide (h.stamp ≤ start + 1))) ∧ (a = (match captured tied with | none => ({ s with flt := { s.flt with window := none, windowFaults := [] } } : State) | some h => (({ s with flt := { s.flt with window := none, windowFaults := [] } } : State).fillCapture h (decide (1 < tied.length))).addF F.fltSimul_others 0 (tied.length - 1))) ∧ (b = (if 1 < tied.length then tied.foldl (fun t h => t.markTied h) a else a)) ∧ (s.flt.window = some start)) ∧
    (∃ (s : State) (a : State) (b : State) , (a = ((((s.setReduction redSramPoison false).setReduction redIntegrity false).setF F.fltStatus_reef 0 0).setF F.sysStatus_reef 0 0).count (C.fltRecoveryReef s.episode)) ∧ (b = (a.closeLoss false).logState 1) ∧ (s.getB F.fltStatus_reef = true) ∧ (s.getB F.fltStatus_barePoles = false) ∧ (s.quietFor 10000000000 = true)) ∧
    (∃ (s : State) , (s.getB F.fltStatus_barePoles = true) ∧ (s.getB F.fltStatus_latched = false) ∧ (s.quietFor 60000000000 = true) ∧ ((s.flt.bareExits.filter fun t => decide (t + 3600000000000 > s.now)).length < 3)) ∧
    (∃ (s : State) , (s.getB F.fltStatus_barePoles = true) ∧ (s.getB F.fltStatus_latched = false) ∧ (s.quietFor 60000000000 = true) ∧ (3 ≤ (s.flt.bareExits.filter fun t => decide (t + 3600000000000 > s.now)).length)) ∧
    (∃ (s : State) (a : State) (b : State) , (a = ([(.fltFirstCode, 1), (.fltFirstSource, 1), (.fltFirstAddr, 2), (.fltFirstTime, 3), (.fltFirstCycle, 2), (.fltSimul, 1)] : List (Reg × Nat)).foldl (fun t r => (List.range r.2).foldl (fun u i => u.wr r.1 i r.1.resetWord) t) (s.raise 0x0301 0)) ∧ (b = a.skipNotif 4 0 (a.flt.windowFaults.filter (·.notify)).length)) ∧
    (∃ (s : State) , (s.s4Condition = false) ∧ (s.flt.heartbeatAt + 1000000 ≤ s.tm.ticks)) :=
  ⟨⟨{ s0 with flt.window := some 0, flt.windowFaults := [held0] }, _, _, 0, _, rfl, rfl, rfl, by decide +kernel⟩,
    ⟨{ s0 with flt.quietStart := some 0, tm.sec := 10 }.setF F.fltStatus_reef 0 1, _, _, rfl, rfl, by decide +kernel⟩,
    ⟨{ s0 with flt.quietStart := some 0, tm.sec := 60 }.setF F.fltStatus_barePoles 0 1, by decide +kernel⟩,
    ⟨{ s0 with flt.quietStart := some 0, flt.bareExits := [0, 0, 0], tm.sec := 60 }.setF F.fltStatus_barePoles 0 1, by decide +kernel⟩,
    ⟨s0, _, _, rfl, rfl⟩,
    ⟨{ s0 with tm.ticks := 1000000 }, by decide +kernel⟩⟩

theorem test_w_PowerFailureEventsComplete :
    (∃ (s : State) (shard : Nat) , (shard < 32)) ∧
    (∃ (s : State) (shard : Nat) , (shard ∈ s.fst.restarting) ∧ (shard ∉ s.fst.restartFailed)) ∧
    (∃ (s : State) (u : State) , (u = ({ s with flt := { s.flt with pwrfail := some s.now } } : State).setF F.logEvent_pwrfailSeen 0 1) ∧ (s.flt.pwrfail = none) ∧ (s.boot.tripped = false) ∧ (s.boot.powered = true) ∧ (u.getB F.sysStatus_ready = false)) ∧
    (∃ (s : State) (u : State) (v : State) , (u = ({ s with flt := { s.flt with pwrfail := some s.now } } : State).setF F.logEvent_pwrfailSeen 0 1) ∧ (v = (u.raise 0x0001 0).logPower 0) ∧ (s.flt.pwrfail = none) ∧ (s.boot.tripped = false) ∧ (s.boot.powered = true) ∧ (u.getB F.sysStatus_ready = true)) ∧
    (∃ (s : State) , (s.flt.gaspActive = true) ∧ ((s.gaspSlot s.flt.gaspTarget).magic = true) ∧ ((s.gaspSlot s.flt.gaspTarget).prepared = false) ∧ ((s.gaspSlot s.flt.gaspTarget).commit ≠ 1)) ∧
    (∃ (s : State) (t : Nat) , (s.flt.pwrfail = some t) ∧ (s.flt.gaspActive = false)) ∧
    (∃ (s : State) (u : State) (v : State) (t : Nat) , (u = (({ s with flt := { s.flt with pwrfail := none } } : State).raise 0x0002 0).logPower 2) ∧ (v = { u with flt := { u.flt with slots := SMap.set u.flt.slots u.flt.gaspTarget { u.gaspSlot u.flt.gaspTarget with commit := 0 }, gaspActive := false, fetchStopped := false } }) ∧ (s.flt.pwrfail = some t) ∧ (s.flt.gaspActive = true)) ∧
    (∃ (s : State) , (s.getB F.sysStatus_ready = true) ∧ (s.getF F.sysStatus_bootState ≠ 7)) :=
  ⟨⟨s0, 0, by decide +kernel⟩,
    ⟨{ s0 with fst.restarting := [0] }, 0, by decide +kernel⟩,
    ⟨{ s0 with boot.powered := true }, _, rfl, by decide +kernel⟩,
    ⟨{ sReady with boot.powered := true }, _, _, rfl, rfl, by decide +kernel⟩,
    ⟨{ s0 with flt.gaspActive := true, flt.slots := [(0, { GaspSlot.empty with magic := true, commit := 2 })] }, by decide +kernel⟩,
    ⟨{ s0 with flt.pwrfail := some 0 }, 0, by decide +kernel⟩,
    ⟨{ s0 with flt.gaspActive := true, flt.pwrfail := some 0 }, _, _, 0, rfl, rfl, by decide +kernel⟩,
    ⟨sReady, by decide +kernel⟩⟩

theorem test_w_FaultCommandsComplete :
    (∃ (s : State) (h : CmdHdr) (index : Nat) (r : FltRec) , (s.refuseCmd h attrS = none) ∧ (index ≠ 0xFFFFFFFF) ∧ (SMap.find? s.flt.records index = some r)) ∧
    (∃ (s : State) (h : CmdHdr) , (s.refuseCmd h attrS = none) ∧ (s.getB F.fltFirstCode_valid = true)) ∧
    (∃ (s : State) (h : CmdHdr) (index : Nat) (r : FltRec) , (s.refuseCmd h attrNone = none) ∧ (index ≠ 0xFFFFFFFF) ∧ (SMap.find? s.flt.records index = some r)) ∧
    (∃ (s : State) (h : CmdHdr) , (s.refuseCmd h attrNone = none)) ∧
    (∃ (s : State) (h : CmdHdr) (code : Nat) (notify : Bool) (intn : Bool) , (s.refuseCmd h attrNone = none) ∧ ((faultRow code).isSome = true)) ∧
    (∃ (s : State) (h : CmdHdr) (first : Nat) (count : Nat) , (s.refuseCmd h attrS true = none) ∧ (first < 65536) ∧ (1 ≤ count) ∧ (count ≤ 3)) ∧
    (∃ (s : State) (h : CmdHdr) (code : Nat) (word : Nat) , (s.refuseCmd h attrNone = none) ∧ (code < 2 ^ 16)) ∧
    (∃ (s : State) (h : CmdHdr) , (s.refuseCmd h attrS = none)) ∧
    (∃ (s : State) (h : CmdHdr) , (s.refuseCmd h attrO = none)) :=
  ⟨⟨{ s0 with flt.records := [(0, rec0)] }, h0, 0, rec0, by decide +kernel⟩,
    ⟨s0.setF F.fltFirstCode_valid 0 1, h0, by decide +kernel⟩,
    ⟨{ s0 with flt.records := [(0, rec0)] }, h0, 0, rec0, by decide +kernel⟩,
    ⟨s0, h0, by decide +kernel⟩,
    ⟨s0, h0, 3, false, false, by decide +kernel⟩,
    ⟨s0, h0, 0, 1, by decide +kernel⟩,
    ⟨s0, h0, 0, 0, by decide +kernel⟩,
    ⟨s0, h0, by decide +kernel⟩,
    ⟨s0, h0, by decide +kernel⟩⟩

theorem test_w_CounterCommandsComplete :
    (∃ (s : State) (r : SnapReq) , (s.cnt.snaps.find? (fun r => decide (r.at_ ≤ s.now)) = some r)) ∧
    (∃ (s : State) (bank : Nat) (r : SnapReq) (m : SMap CtrVal) , (SMap.find? s.cnt.latches bank = some (r, m)) ∧ (r.cmd = none)) ∧
    (∃ (s : State) (bank : Nat) (mbx : Nat) (cid : Nat) (q : Bool) (r : SnapReq) (m : SMap CtrVal) , (SMap.find? s.cnt.latches bank = some (r, m)) ∧ (r.cmd = some (mbx, cid, q))) ∧
    (∃ (s : State) (u : State) (r : ClearReq) , (u = (s.cnt.snaps.filter fun q => decide (q.at_ ≤ r.at_)).foldl (fun t q => t.takeSnap q) s) ∧ (s.cnt.clears.find? (fun r => decide (r.at_ ≤ s.now) && !s.snapPending r.at_) = some r)) ∧
    (∃ (s : State) (h : CmdHdr) (bank : Nat) (groups : Nat) , (s.refuseCmd h attrNone = none) ∧ (bank ≤ 1) ∧ (groups ≤ 15) ∧ (s.bankHeld bank = false)) ∧
    (∃ (s : State) (t : State) (h : CmdHdr) (bank : Nat) (groups : Nat) (instant : Nat) (stack : Bool) (r : Rsp) , (s.refuseCmd h attrNone = none) ∧ (bank ≤ 1) ∧ (1 ≤ groups) ∧ (groups ≤ 15) ∧ (s.armCmd h ⟨0, false, stack, instant, 0, bank, groups, h.mbx, 0⟩ = (t, some r)) ∧ (r.code = 0)) ∧
    (∃ (s : State) (h : CmdHdr) (bank : Nat) (group : Nat) (first : Nat) (count : Nat) , (s.refuseCmd h attrNone = none) ∧ (bank ≤ 1) ∧ (group ≤ 3) ∧ (1 ≤ count) ∧ (count ≤ 65536) ∧ (first + count ≤ ctrSlots group) ∧ (s.bankReadable bank group = true)) ∧
    (∃ (s : State) (h : CmdHdr) (group : Nat) (index : Nat) , (s.refuseCmd h attrS = none) ∧ (group ≤ 3) ∧ (index < ctrSlots group)) ∧
    (∃ (s : State) (h : CmdHdr) (groups : Nat) , (s.refuseCmd h attrNone = none) ∧ (groups ≤ 15)) ∧
    (∃ (s : State) (h : CmdHdr) (port : Nat) (code : Nat) (enable : Bool) , (s.refuseCmd h attrNone = none) ∧ (port < 256) ∧ (code ≤ 6) ∧ (s.portExists port = true)) ∧
    (∃ (s : State) (h : CmdHdr) (port : Nat) (d : Nat) (w : BwWindow) (ws : List Nat) , (s.refuseCmd h attrNone = none) ∧ (port < 256) ∧ (s.portExists port = true) ∧ (SMap.find? s.bwRoll.cnt.windows port = some w) ∧ (w.latest = some (ws, d))) :=
  ⟨⟨{ s0 with cnt.snaps := [⟨0, 1, 0, none, false⟩] }, ⟨0, 1, 0, none, false⟩, by decide +kernel⟩,
    ⟨{ s0 with cnt.latches := [(0, (⟨0, 1, 0, none, false⟩, []))] }, 0, ⟨0, 1, 0, none, false⟩, [], by decide +kernel⟩,
    ⟨{ s0 with cnt.latches := [(0, (⟨0, 1, 0, some (0, 1, false), false⟩, []))] }, 0, 0, 1, false, ⟨0, 1, 0, some (0, 1, false), false⟩, [], by decide +kernel⟩,
    ⟨{ s0 with cnt.clears := [⟨1, 0, (0, 1, false)⟩] }, _, ⟨1, 0, (0, 1, false)⟩, rfl, by decide +kernel⟩,
    ⟨s0, h0, 0, 0, by decide +kernel⟩,
    (by obtain ⟨t, r, e, c⟩ := snap_wit; exact ⟨s0, t, h0, 0, 1, 2000, false, r, by decide +kernel, by decide +kernel, by decide +kernel, by decide +kernel, e, c⟩),
    ⟨(s0.setF (bankF 0 15 14) 0 2).setF (bankF 0 3 0) 0 1, h0, 0, 0, 0, 1, by decide +kernel⟩,
    ⟨s0, h0, 0, 0, by decide +kernel⟩,
    ⟨s0, h0, 0, by decide +kernel⟩,
    ⟨sPort, h0, 0, 0, false, by decide +kernel⟩,
    ⟨{ sPort with cnt.windows := [(0, win0)] }, h0, 0, 0, win0, [], by decide +kernel⟩⟩

theorem test_w_ExportAndLifeComplete :
    (∃ (s : State) (q : ExpRecord) (r : FlowRec) , (s.nextExport = some q) ∧ ((({ s with cnt := { s.cnt with expQueue := s.cnt.expQueue.erase q } } : State).shrinkQueue).recNow q.handle = some r) ∧ ((exportSlot r.size (toImage r.size r.words)).bind (fun i => (SMap.getD (({ s with cnt := { s.cnt with expQueue := s.cnt.expQueue.erase q } } : State).shrinkQueue).cnt.tmplSets q.set ⟨0, []⟩).slots[i]?) = none)) ∧
    (∃ (s : State) (a : State) (b : State) (q : ExpRecord) (r : FlowRec) (t : TmplSlot) (sent : Bool) , (a = ({ s with cnt := { s.cnt with expQueue := s.cnt.expQueue.erase q } } : State).shrinkQueue) ∧ (a.addRecord (SMap.getD a.cnt.tmplSets q.set ⟨0, []⟩).collector t.tid (a.dataRecord q r.size (toImage r.size r.words) t) = (b, sent)) ∧ (s.nextExport = some q) ∧ (a.recNow q.handle = some r) ∧ ((exportSlot r.size (toImage r.size r.words)).bind (fun i => (SMap.getD a.cnt.tmplSets q.set ⟨0, []⟩).slots[i]?) = some t) ∧ (t.tid ≠ 0)) ∧
    (∃ (s : State) (set : Nat) (w : ExpWindow) (t : TmplSet) , (SMap.find? s.cnt.expWindows set = some w) ∧ (w.open_ = true) ∧ (w.endAt ≤ s.now) ∧ (w.walking = false) ∧ (SMap.find? s.cnt.tmplSets set = some t)) ∧
    (∃ (s : State) (collector : Nat) (m : ExpMessage) , (SMap.find? s.cnt.expMessages collector = some m) ∧ (m.first + 1000000 ≤ s.now)) ∧
    (∃ (s : State) , (s.cnt.expEnabled = true) ∧ (s.cnt.templatesAt + 60000000000 ≤ s.now)) ∧
    (∃ (s : State) (u : State) (set : Nat) (base : Nat) (w : ExpWindow) , (base = w.cursorShard * 2 ^ 24 + 128 * w.cursorBlock) ∧ (u = ((s.fst.ageBits.filter fun e => bitOf e.2 0 && decide (base ≤ e.1) && decide (e.1 < base + 128)).map Prod.fst).foldl (State.visitExport set) s) ∧ (SMap.find? s.cnt.expWindows set = some w) ∧ (w.open_ = true) ∧ (w.walking = true) ∧ (s.cnt.expEnabled = true)) ∧
    (∃ (s : State) (h : CmdHdr) (set : Nat) (c : Nat) (slots : List TmplSlot) , (s.refuseCmd h attrNone = none) ∧ (set ≤ 15) ∧ (c ≤ 7) ∧ (slots.length = 4) ∧ ((∀ x ∈ slots, s.slotOk x = true)) ∧ (s.setInUse set = false)) ∧
    (∃ (s : State) (h : CmdHdr) (collector : Nat) (dest : Collector) , (s.refuseCmd h attrNone = none) ∧ (collector ≤ 7) ∧ (collectorOk dest = true) ∧ ((∀ e ∈ s.cnt.tmplSets, e.2.collector = collector → s.setInUse e.1 = false))) ∧
    (∃ (s : State) (h : CmdHdr) (interval : Nat) (defaultSet : Nat) (msgMax : Nat) (enterprise : Nat) , (s.refuseCmd h attrNone = none) ∧ (interval ≤ 86400) ∧ (defaultSet ≤ 15) ∧ (512 ≤ msgMax) ∧ (msgMax ≤ 1400) ∧ (enterprise < 2 ^ 32)) ∧
    (∃ (s : State) (h : CmdHdr) , (s.refuseCmd h attrNone = none)) ∧
    (∃ (s : State) (n : Nat) (a : Nat) (b : Nat) , (s.getB F.lifeCtrl_enable = true) ∧ (s.sampleDue (.sensor n a b) = true) ∧ (n < 48) ∧ (b ≠ 0)) ∧
    (∃ (s : State) (g : Nat) , (s.getB F.lifeCtrl_enable = true) ∧ (s.sampleDue (.channel g) = true) ∧ (g < 192)) ∧
    (∃ (s : State) (k : Nat) (v : Nat) , (s.getB F.lifeCtrl_enable = true) ∧ (s.sampleDue (.lane k v) = true) ∧ (k < 256)) ∧
    (∃ (s : State) (n : Nat) , (s.getB F.lifeCtrl_enable = true) ∧ (s.sampleDue (.sector n) = true) ∧ (n < 64)) ∧
    (∃ (s : State) (a : Nat) (b : Nat) , (s.getB F.lifeCtrl_enable = true) ∧ (s.sampleDue (.thermal a b) = true)) ∧
    (∃ (s : State) (m : Measure) , (s.getB F.lifeCtrl_enable = true) ∧ (s.sampleDue m = true)) ∧
    (∃ (s : State) , (s.getB F.lifeCtrl_enable = true) ∧ (s.cnt.lastPrediction + 24 ≤ s.hours)) ∧
    (∃ (s : State) (u : State) (i : Nat) (seq : Nat) (verified : Bool) , (i = 1 - s.getF F.lifeAcc_slot) ∧ (seq = (s.accSlot (1 - i)).seq + 1) ∧ (u = { s.eraseSector (Config.norSector i) with cnt := { (s.eraseSector (Config.norSector i)).cnt with accSlots := SMap.set (s.eraseSector (Config.norSector i)).cnt.accSlots i (s.accContent seq verified), lastAccWrite := s.hours } }) ∧ (s.cnt.lastAccWrite + 6 ≤ s.hours)) ∧
    (∃ (s : State) (h : CmdHdr) (source : Nat) , (s.refuseCmd h attrS = none) ∧ (sourceOk source = true)) ∧
    (∃ (s : State) (h : CmdHdr) (alarmMonths : Nat) , (s.refuseCmd h attrNone = none) ∧ (1 ≤ alarmMonths) ∧ (alarmMonths ≤ 1200)) :=
  ⟨⟨{ sHeap with cnt.expQueue := [exq0] }, exq0, ⟨2, wordsFull⟩, by decide +kernel⟩,
    ⟨{ sHeap with cnt.expQueue := [exq0], cnt.tmplSets := [(0, ⟨0, List.replicate 4 ⟨256, []⟩⟩)] }, _, _, exq0, ⟨2, wordsFull⟩, ⟨256, []⟩, _, rfl, rfl, by decide +kernel⟩,
    ⟨{ s0 with cnt.expWindows := [(0, expWin0 false)], cnt.tmplSets := [(0, ⟨0, []⟩)] }, 0, expWin0 false, ⟨0, []⟩, by decide +kernel⟩,
    ⟨{ s0 with cnt.expMessages := [(0, ⟨0, [], 0, 0, 0⟩)], tm.ns := 1000000 }, 0, ⟨0, [], 0, 0, 0⟩, by decide +kernel⟩,
    ⟨{ s0 with cnt.expEnabled := true, tm.sec := 60 }, by decide +kernel⟩,
    ⟨{ s0 with cnt.expEnabled := true, cnt.expWindows := [(0, expWin0 true)] }, _, 0, _, expWin0 true, rfl, rfl, by decide +kernel⟩,
    ⟨s0, h0, 0, 0, [slot0, slot0, slot0, slot0], by decide +kernel⟩,
    ⟨s0, h0, 0, coll0, by decide +kernel⟩,
    ⟨s0, h0, 0, 0, 512, 0, by decide +kernel⟩,
    ⟨s0, h0, by decide +kernel⟩,
    ⟨s0.setF F.lifeCtrl_enable 0 1, 0, 0, 1, by decide +kernel⟩,
    ⟨s0.setF F.lifeCtrl_enable 0 1, 0, by decide +kernel⟩,
    ⟨s0.setF F.lifeCtrl_enable 0 1, 0, 0, by decide +kernel⟩,
    ⟨s0.setF F.lifeCtrl_enable 0 1, 0, by decide +kernel⟩,
    ⟨s0.setF F.lifeCtrl_enable 0 1, 0, 0, by decide +kernel⟩,
    ⟨s0.setF F.lifeCtrl_enable 0 1, .sector 0, by decide +kernel⟩,
    ⟨{ s0 with cnt.bootHours := 24 }.setF F.lifeCtrl_enable 0 1, by decide +kernel⟩,
    ⟨{ s0 with cnt.bootHours := 6 }, _, _, _, false, rfl, rfl, rfl, by decide +kernel⟩,
    ⟨s0, h0, 0, by decide +kernel⟩,
    ⟨s0, h0, 1, by decide +kernel⟩⟩

theorem test_w_StackEventsComplete :
    (∃ (s : State) (u : State) (link : Nat) (slot : Nat) (frame : StkFrame) , (u = (s.count (C.stkLinkFecCorr link) frame.fecCorr).count (C.stkLinkFecUncorr link) frame.fecUncorr) ∧ (link < 4) ∧ (s.getB F.stkLink_up link = true) ∧ (frame.valid = true) ∧ (frame.id = u.peerOf link)) ∧
    (∃ (s : State) (u : State) (link : Nat) (slot : Nat) (frame : StkFrame) , (u = (s.count (C.stkLinkFecCorr link) frame.fecCorr).count (C.stkLinkFecUncorr link) frame.fecUncorr) ∧ (link < 4) ∧ (s.getB F.stkLink_up link = true) ∧ (frame.valid = false)) ∧
    (∃ (s : State) (u : State) (link : Nat) (slot : Nat) (frame : StkFrame) , (u = (s.count (C.stkLinkFecCorr link) frame.fecCorr).count (C.stkLinkFecUncorr link) frame.fecUncorr) ∧ (link < 4) ∧ (s.getB F.stkLink_up link = true) ∧ (frame.valid = true) ∧ (frame.id ≠ u.peerOf link)) ∧
    (∃ (s : State) (u : State) (v : State) (link : Nat) (macro_ : Nat) (peer : Nat) (role : Nat) (delay : Nat) , (u = (s.bindLink link macro_ peer).setF F.stkLink_delay link (Nat.min delay 65535)) ∧ (v = { u with stk := { u.stk with peerRole := SMap.set u.stk.peerRole link role } }) ∧ (link < 4) ∧ (macro_ < 32) ∧ (peer < 4) ∧ (role ≠ 0) ∧ (s.stkRole ≠ 0) ∧ (s.getB F.stkLink_up link = false) ∧ (s.getB F.fltStatus_barePoles = false) ∧ (s.furled = false) ∧ (s.linkFits link macro_ peer = true) ∧ (s.validPair peer role = true)) ∧
    (∃ (s : State) (link : Nat) (macro_ : Nat) (peer : Nat) (role : Nat) (delay : Nat) , (link < 4) ∧ (macro_ < 32) ∧ (peer < 4) ∧ (role ≠ 0) ∧ (s.stkRole ≠ 0) ∧ (s.getB F.stkLink_up link = false) ∧ (s.getB F.fltStatus_barePoles = false) ∧ (s.furled = false) ∧ (s.linkFits link macro_ peer = true) ∧ (s.validPair peer role = false)) ∧
    (∃ (s : State) (link : Nat) , (link < 4) ∧ (s.getB F.stkLink_up link = true)) ∧
    (∃ (s : State) , ((s.stkRole = 1 ∨ s.stkRole = 2)) ∧ (s.stk.seed = none) ∧ (s.getB F.sysStatus_ready = false) ∧ (2000000000 ≤ s.tm.ticks)) ∧
    (∃ (s : State) (f : StkForm) , (s.stk.form = some f) ∧ (f.at_ + 100000000 ≤ s.tm.ticks)) ∧
    (∃ (s : State) (link : Nat) (theta : Int) (rest : List Nat) , (s.stkFormed = true) ∧ (s.actingMaster = false) ∧ (s.timeLinks = link :: rest)) ∧
    (∃ (s : State) (link : Nat) (a : Nat) (theta : Int) (rest : List Nat) , (s.stkFormed = true) ∧ (s.actingMaster = false) ∧ (s.timeLinks = a :: rest) ∧ (a ≠ link) ∧ (link ∈ rest)) ∧
    (∃ (s : State) , (s.stkFormed = true) ∧ (s.actingMaster = false) ∧ (s.stk.masterAt + 10000000 ≤ s.tm.ticks) ∧ (s.stkRole = 2)) ∧
    (∃ (s : State) , (s.stkFormed = true) ∧ (s.actingMaster = false) ∧ (s.stk.masterAt + 10000000 ≤ s.tm.ticks) ∧ (s.stkRole ≠ 2) ∧ (s.deputyHeard = false) ∧ ((∀ l ∈ s.flt.live, l.code ≠ 0x2802))) ∧
    (∃ (s : State) , (s.actingMaster = true) ∧ (s.stkFormed = true) ∧ (s.getF F.stkGen_genOwn < s.getF F.stkGen_genHeard)) ∧
    (∃ (s : State) , (s.actingMaster = true) ∧ (s.stkFormed = true) ∧ (s.getF F.stkGen_genHeard ≤ s.getF F.stkGen_genOwn) ∧ (s.stkRole ≠ 2) ∧ (s.deputyHeard = true) ∧ (s.stk.ackAt + 12000000 ≤ s.tm.ticks)) :=
  ⟨⟨sStk, _, 0, 0, frame0, rfl, by decide +kernel⟩,
    ⟨sStk, _, 0, 0, { frame0 with valid := false }, rfl, by decide +kernel⟩,
    ⟨sStk, _, 0, 0, { frame0 with id := 1 }, rfl, by decide +kernel⟩,
    ⟨s0.setF F.stkStatus_role 0 1, _, _, 0, 0, 1, 3, 0, rfl, rfl, by decide +kernel⟩,
    ⟨s0.setF F.stkStatus_role 0 3, 0, 0, 1, 3, 0, by decide +kernel⟩,
    ⟨sStk, 0, by decide +kernel⟩,
    ⟨{ s0 with tm.ticks := 2000000000 }.setF F.stkStatus_role 0 1, by decide +kernel⟩,
    ⟨{ s0 with stk.form := some ⟨0, 1, false, 1, 80, [], [], 0⟩, tm.ticks := 100000000 }, ⟨0, 1, false, 1, 80, [], [], 0⟩, by decide +kernel⟩,
    ⟨{ sStk with stk.master := some 0 }, 0, 0, [], by decide +kernel⟩,
    ⟨{ sStk with stk.master := some 0 }.setF F.stkLink_up 1 1, 1, 0, 0, [1], by decide +kernel⟩,
    ⟨{ sStk with tm.ticks := 10000000 }.setF F.stkStatus_role 0 2, by decide +kernel⟩,
    ⟨{ sStk with tm.ticks := 10000000 }, by decide +kernel⟩,
    ⟨(sStk.setF F.stkStatus_actingMaster 0 1).setF F.stkGen_genHeard 0 1, by decide +kernel⟩,
    ⟨({ sStk with tm.ticks := 12000000, stk.peerRole := [(0, 2)] }.setF F.stkStatus_actingMaster 0 1).setF F.stkStatus_members 0 1, by decide +kernel⟩⟩

theorem test_w_StackCommandsComplete :
    (∃ (s : State) (h : CmdHdr) (lSlots : Nat) (maps : List StkMap) , (s.refuseCmd h attrO = none) ∧ (mapsOk maps = true) ∧ (s.actingMaster = true) ∧ (s.stk.form = none) ∧ (s.stk.masters.length ≤ 1) ∧ (s.stkFormed = true)) ∧
    (∃ (s : State) (h : CmdHdr) , (s.refuseCmd h attrS = none)) ∧
    (∃ (s : State) (h : CmdHdr) (link : Nat) , (s.refuseCmd h attrNone = none) ∧ (link < 4)) :=
  ⟨⟨sStk.setF F.stkStatus_actingMaster 0 1, h0, 0, [], by decide +kernel⟩,
    ⟨s0, h0, by decide +kernel⟩,
    ⟨s0, h0, 0, by decide +kernel⟩⟩

theorem test_w_BootEventsComplete :
    (∃ (s : State) (straps : Straps) , (s.boot.powered = true)) ∧
    (∃ (s : State) (t : State) , (t = s.warmReset [F.sysResetCause_thermtrip]) ∧ (s.alive = true)) ∧
    (∃ (s : State) (setup : CrdSetup) , (s.alive = true) ∧ (s.getF F.sysStatus_bootState = 0) ∧ (s.getB F.sysStraps_testEn = false)) ∧
    (∃ (s : State) (setup : CrdSetup) , (s.alive = true) ∧ (s.getF F.sysStatus_bootState = 1)) ∧
    (∃ (s : State) (setup : CrdSetup) , (s.alive = true) ∧ (s.getF F.sysStatus_bootState = 2)) ∧
    (∃ (s : State) (t : State) (setup : CrdSetup) , (t = s.setBoot 4) ∧ (s.alive = true) ∧ (s.getF F.sysStatus_bootState = 3)) ∧
    (∃ (s : State) (setup : CrdSetup) , (s.alive = true) ∧ (s.getF F.sysStatus_bootState = 4) ∧ (s.seedSettled = true)) ∧
    (∃ (s : State) (t : Nat) , (s.boot.watchAt = some t) ∧ (s.alive = true) ∧ (s.getB F.sysStatus_ready = false) ∧ (t + 4000000000 ≤ s.tm.ticks)) ∧
    (∃ (s : State) (ws : List Nat) (t : Nat) , (s.boot.nonce = some (ws, t)) ∧ (t + 60000000000 ≤ s.tm.ticks)) ∧
    (∃ (s : State) (direction : Nat) (answered : Bool) (u : State) (mv : Nat) , (u = { s with boot := { s.boot with railForeAt := s.tm.ticks } }) ∧ (mv = Nat.max 680 (Nat.min 820 (if direction = 1 then s.boot.railFore + 5 else if direction = 2 then s.boot.railFore - 5 else s.boot.railFore))) ∧ (s.alive = true) ∧ (s.getB F.sysStatus_ready = true) ∧ (s.boot.railForeAt + 1000000000 ≤ s.tm.ticks)) ∧
    (∃ (s : State) (direction : Nat) (answered : Bool) (u : State) (mv : Nat) , (u = { s with boot := { s.boot with railAftAt := s.tm.ticks } }) ∧ (mv = Nat.max 680 (Nat.min 820 (if direction = 1 then s.boot.railAft + 5 else if direction = 2 then s.boot.railAft - 5 else s.boot.railAft))) ∧ (s.alive = true) ∧ (s.getB F.sysStatus_ready = true) ∧ (s.boot.railAftAt + 1000000000 ≤ s.tm.ticks)) ∧
    (∃ (s : State) (unit : Nat) (temp : Nat) , (unit ≤ 7) ∧ (s.alive = true) ∧ (100 ≤ temp) ∧ ((∀ l ∈ s.flt.live, l.code = 0x0003 → l.instance_ ≠ unit))) ∧
    (∃ (s : State) (unit : Nat) (temp : Nat) , (unit ≤ 7) ∧ (s.alive = true) ∧ (temp < 97)) ∧
    (∃ (s : State) (t : State) , (t = s.afterPowerOn s.flt.persistent)) ∧
    (∃ (s : State) (core : Nat) , (s.boot.update.isSome = true) ∧ (core ∈ s.crd.testing) ∧ (s.crd.takeover = none)) ∧
    (∃ (s : State) (core : Nat) , (s.boot.update.isSome = true) ∧ (core ∈ s.crd.testing) ∧ (s.crd.takeover = none)) :=
  ⟨⟨{ s0 with boot.powered := true }, ⟨0, 0, 0, false⟩, by decide +kernel⟩,
    ⟨s0, _, rfl, by decide +kernel⟩,
    ⟨s0, ⟨[], [], [], [], [], (0, 0, 0, 0)⟩, by decide +kernel⟩,
    ⟨s0.setF F.sysStatus_bootState 0 1, ⟨[], [], [], [], [], (0, 0, 0, 0)⟩, by decide +kernel⟩,
    ⟨s0.setF F.sysStatus_bootState 0 2, ⟨[], [], [], [], [], (0, 0, 0, 0)⟩, by decide +kernel⟩,
    ⟨s0.setF F.sysStatus_bootState 0 3, _, ⟨[], [], [], [], [], (0, 0, 0, 0)⟩, rfl, by decide +kernel⟩,
    ⟨s0.setF F.sysStatus_bootState 0 4, ⟨[], [], [], [], [], (0, 0, 0, 0)⟩, by decide +kernel⟩,
    ⟨{ s0 with boot.watchAt := some 0, tm.ticks := 4000000000 }, 0, by decide +kernel⟩,
    ⟨{ s0 with boot.nonce := some ([], 0), tm.ticks := 60000000000 }, [], 0, by decide +kernel⟩,
    ⟨{ s0 with tm.ticks := 1000000000 }.setF F.sysStatus_ready 0 1, 0, false, _, _, rfl, rfl, by decide +kernel⟩,
    ⟨{ s0 with tm.ticks := 1000000000 }.setF F.sysStatus_ready 0 1, 0, false, _, _, rfl, rfl, by decide +kernel⟩,
    ⟨s0, 0, 100, by decide +kernel⟩,
    ⟨s0, 0, 0, by decide +kernel⟩,
    ⟨s0, _, rfl⟩,
    ⟨{ s0 with boot.update := some ⟨0, 1, false, 1, 0, []⟩, crd.testing := [0] }, 0, by decide +kernel⟩,
    ⟨{ s0 with boot.update := some ⟨0, 1, false, 1, 0, []⟩, crd.testing := [0] }, 0, by decide +kernel⟩⟩

theorem test_w_SystemCommandsComplete :
    (∃ (s : State) (h : CmdHdr) , (s.refuseCmd h attrS true true = none)) ∧
    (∃ (s : State) (h : CmdHdr) , (s.refuseCmd h attrS true = none) ∧ (s.getB F.sysStatus_ready = true)) ∧
    (∃ (s : State) (h : CmdHdr) , (s.refuseCmd h attrNone = none) ∧ (s.getB F.sysStatus_debugUnlocked = false) ∧ (s.boot.unlockFails < 3)) ∧
    (∃ (s : State) (u : State) (h : CmdHdr) (key : Nat) (t : Nat) (ws : List Nat) , (u = { s with boot := { s.boot with nonce := none } }) ∧ (s.refuseCmd h attrO = none) ∧ (s.boot.nonce = some (ws, t)) ∧ (s.tm.ticks < t + 60000000000)) ∧
    (∃ (s : State) (t : State) (h : CmdHdr) (image : List Nat) (key : Nat) (written : Bool) , (s.updateImage h image key written = (t, none)) ∧ (s.refuseCmd h attrO false true = none) ∧ (s.boot.recovery = false)) ∧
    (∃ (s : State) (h : CmdHdr) (u : State) , (u = ((s.furlTraffic.flushLines.pauseLoss).setBoot 7).syncLines) ∧ (s.refuseCmd h attrO = none) ∧ (s.getB F.fltStatus_barePoles = false) ∧ (s.crd.takeover = none) ∧ (s.boot.update = none) ∧ (s.furled = false)) ∧
    (∃ (s : State) (h : CmdHdr) (u : State) , (u = ((List.range 6).foldl (fun (t : State) k => if t.hbm.selfRefresh.contains k || SMap.has t.hbm.srRetryAt k then t.exitSelfRefresh k else t) s).emptyCache) ∧ (s.refuseCmd h attrO = none) ∧ (s.furled = true)) :=
  ⟨⟨s0, h0, by decide +kernel⟩,
    ⟨sReady, h0, by decide +kernel⟩,
    ⟨s0, h0, by decide +kernel⟩,
    ⟨{ s0 with boot.nonce := some ([], 0) }, _, h0, 1, 0, [], rfl, by decide +kernel⟩,
    ⟨sCores, (sCores.updateImage h0 img0 1 true).1, h0, img0, 1, true, Prod.ext rfl (by decide +kernel), by decide +kernel⟩,
    ⟨s0, h0, _, rfl, by decide +kernel⟩,
    ⟨s0.setF F.sysStatus_bootState 0 7, h0, _, rfl, by decide +kernel⟩⟩

theorem test_w_PortCommandsComplete :
    (∃ (s : State) (h : CmdHdr) (port : Nat) (lanes : Nat) (laneRate : Nat) (fec : Nat) (medium : Nat) (maxFrame : Nat) (holdoff : Nat) (anEn : Bool) (ltEn : Bool) (ctEn : Bool) (u : State) (t : State) , (u = (if (s.portExists port && (s.getF F.portCfg_laneRate port != laneRate || s.getF F.portCfg_fec port != fec || s.getF F.portCfg_medium port != medium)) = true then s.linkFault port else s)) ∧ (t = (u.writePortCfg port lanes laneRate fec medium anEn ltEn maxFrame ctEn).setPort port { u.portInfo port with holdoff := holdoff, tsInvalid := false, ability := none, anRestart := none }) ∧ (s.refuseCmd h attrNone = none) ∧ (port < 256) ∧ (port % 2 ^ lanes = 0) ∧ (lanes < 4) ∧ (comboOk lanes laneRate fec = true) ∧ (fec < 3) ∧ (medium < 3) ∧ ((anEn = true → medium = 2)) ∧ ((ltEn = true → medium = 2)) ∧ (64 ≤ maxFrame) ∧ (maxFrame ≤ 9600) ∧ (holdoff ≤ 10000) ∧ ((s.portExists port = true → s.getF F.portCfg_lanes port = lanes)) ∧ (s.laneTaken port lanes = false) ∧ ((∀ l ∈ s.stk.lanes, lanesOverlap port (2 ^ lanes) l 8 = false)) ∧ (t.reservesFit = true)) ∧
    (∃ (s : State) (h : CmdHdr) (port : Nat) (u : State) (v : State) , (u = s.linkFault port) ∧ (v = { u with port := { u.port with ports := SMap.del u.port.ports port }, cnt := { u.cnt with windows := SMap.del u.cnt.windows port }, egs := { u.egs with down := u.egs.down.filter (· != port), revertAt := SMap.del u.egs.revertAt port } }) ∧ (s.refuseCmd h attrNone = none) ∧ (port < 256) ∧ (s.portExists port = true) ∧ (s.portReferred port = false)) ∧
    (∃ (s : State) (h : CmdHdr) (macro_ : Nat) (txPol : Nat) (rxPol : Nat) (txOrder : List Nat) (rxOrder : List Nat) , (s.refuseCmd h attrNone = none) ∧ (macro_ < 32) ∧ (isPerm txOrder = true) ∧ (txPol < 256) ∧ (isPerm rxOrder = true) ∧ (rxPol < 256) ∧ ((∀ e ∈ s.port.ports, e.1 / 8 ≠ macro_))) ∧
    (∃ (s : State) (h : CmdHdr) (port : Nat) (mode : Nat) (classes : Nat) (xoff : Nat) (xon : Nat) (quanta : Nat) (watchdog : Nat) (restore : Nat) (headroom : List Nat) (t : State) , (t = (s.setF F.portCfg_fcMode port mode).setPort port { s.portInfo port with fcClasses := classes, xoff := xoff, xon := xon, headroom := headroom, quanta := quanta, watchdog := watchdog, restore := restore }) ∧ (s.refuseCmd h attrNone = none) ∧ (port < 256) ∧ (mode < 3) ∧ (classes < 256) ∧ (headroom.length = 8) ∧ (quanta < 65536) ∧ (10 ≤ watchdog) ∧ (watchdog ≤ 10000) ∧ (restore < 2 ^ 32) ∧ (s.portExists port = true) ∧ (t.headroomSum (pipeOf port) ≤ 12288) ∧ (t.reservesFit = true)) ∧
    (∃ (s : State) (h : CmdHdr) (port : Nat) , (s.refuseCmd h attrS = none) ∧ (s.portExists port = true)) :=
  ⟨⟨s0, h0, 0, 0, 0, 0, 0, 64, 0, false, false, false, _, _, rfl, rfl, by decide +kernel⟩,
    ⟨sPort, h0, 0, _, _, rfl, rfl, by decide +kernel⟩,
    ⟨s0, h0, 0, 0, 0, [0, 1, 2, 3, 4, 5, 6, 7], [0, 1, 2, 3, 4, 5, 6, 7], by decide +kernel⟩,
    ⟨sPort, h0, 0, 0, 0, 0, 0, 0, 10, 0, List.replicate 8 0, _, rfl, by decide +kernel⟩,
    ⟨sPort, h0, 0, by decide +kernel⟩⟩

theorem test_w_ParserCommandsComplete :
    (∃ (s : State) (h : CmdHdr) (index : Nat) (words : List Nat) , (s.refuseCmd h attrNone = none) ∧ (index < 512) ∧ (graphEntryOk words = true)) ∧
    (∃ (s : State) (h : CmdHdr) (index : Nat) , (s.refuseCmd h attrNone = none) ∧ (index < 512)) ∧
    (∃ (s : State) (h : CmdHdr) (port : Nat) (start : Nat) (group : Nat) , (s.refuseCmd h attrNone = none) ∧ (port < 256) ∧ (start < 256) ∧ (group < 4)) ∧
    (∃ (s : State) (h : CmdHdr) (index : Nat) (words : List Nat) , (s.refuseCmd h attrNone = none) ∧ (index < 32) ∧ (keyProfileOk words = true)) ∧
    (∃ (s : State) (h : CmdHdr) (group : Nat) (keyClass : Nat) (profile : Nat) , (s.refuseCmd h attrNone = none) ∧ (group < 4) ∧ (keyClass < 32) ∧ (profile < 32)) ∧
    (∃ (s : State) (h : CmdHdr) (ipv4 : List Nat) (geneve : List (Nat × Nat)) , (s.refuseCmd h attrNone = none) ∧ (ipv4.length = 4) ∧ ((∀ t ∈ ipv4, t < 256)) ∧ (geneve.length = 4) ∧ ((∀ t ∈ geneve, t.1 < 65536 ∧ t.2 < 256))) ∧
    (∃ (s : State) (h : CmdHdr) (conflictAction : Nat) (trapRing : Nat) (trapLen : Nat) (trapEn : Bool) (trapToCriod : Bool) , (s.refuseCmd h attrNone = none) ∧ (conflictAction < 2) ∧ (trapRing < 64) ∧ (64 ≤ trapLen) ∧ (trapLen ≤ 256)) :=
  ⟨⟨s0, h0, 0, [0, 0, 2 ^ 25, 0, 0, 0, 0, 0], by decide +kernel⟩,
    ⟨s0, h0, 0, by decide +kernel⟩,
    ⟨s0, h0, 0, 0, 0, by decide +kernel⟩,
    ⟨s0, h0, 0, List.replicate 25 0, by decide +kernel⟩,
    ⟨s0, h0, 0, 0, 0, by decide +kernel⟩,
    ⟨s0, h0, [0, 0, 0, 0], [(0, 0), (0, 0), (0, 0), (0, 0)], by decide +kernel⟩,
    ⟨s0, h0, 0, 0, 64, false, false, by decide +kernel⟩⟩

theorem test_w_ExactMatchCommandsComplete :
    (∃ (s : State) (h : CmdHdr) (table : Nat) (keyUnits : Nat) (wide : Bool) , (s.refuseCmd h attrNone = none) ∧ (table < 16) ∧ (1 ≤ keyUnits) ∧ (keyUnits ≤ (if wide then 8 else 5)) ∧ ((∀ e ∈ s.cls.em, e.2.table ≠ table))) ∧
    (∃ (s : State) (h : CmdHdr) (table : Nat) (key : List Nat) (action : List Nat) (data : List Nat) (ep0 : Bool) (ep1 : Bool) (stash : Bool) (m : SMap RuleEntry) (e : RuleEntry) (t : State) , ((emCuckoo s.cls.ruleSeed).place s.cls.em e = some (m, stash)) ∧ (t = (if stash = true then ((s.setEm m).mendNew 0 s.cls.em m).stashUsed else (s.setEm m).mendNew 0 s.cls.em m)) ∧ (s.refuseCmd h attrNone = none) ∧ (SMap.has s.cls.emTables table = true) ∧ (s.emKeyOk table key = true) ∧ ((ep0 || ep1) = true) ∧ (actionOk action = true) ∧ (s.emDataOk table data = true) ∧ (s.oldOnly ep0 ep1 = false) ∧ (s.emDup table key ep0 ep1 none = false) ∧ (e = ⟨(SMap.getD s.cls.emTables table ⟨false, 1⟩).wide, table, (SMap.getD s.cls.emTables table ⟨false, 1⟩).keyUnits, ep0, ep1, false, key, action, data⟩) ∧ (s.conflict (ruleLocks s.cls.ruleSeed e) = none)) ∧
    (∃ (s : State) (h : CmdHdr) (table : Nat) (epoch : Nat) (k : Nat) (key : List Nat) (action : List Nat) (data : List Nat) (e : RuleEntry) (t : State) , (s.conflict (ruleLocks s.cls.ruleSeed e) = none) ∧ (t = (s.setEm (SMap.set s.cls.em k { e with action := action, data := if e.wide then data else [] })).mendCls 0 k) ∧ (s.refuseCmd h attrNone = none) ∧ (table < 16) ∧ (epoch < 2) ∧ (actionOk action = true) ∧ (s.emFind table key epoch = some (k, e)) ∧ (s.oldOnly e.ep0 e.ep1 = false)) ∧
    (∃ (s : State) (h : CmdHdr) (table : Nat) (epoch : Nat) (k : Nat) (key : List Nat) (e : RuleEntry) (t : State) , (s.conflict (ruleLocks s.cls.ruleSeed e) = none) ∧ (t = (s.setEm (SMap.del s.cls.em k)).mendCls 0 k) ∧ (s.refuseCmd h attrNone = none) ∧ (table < 16) ∧ (epoch < 2) ∧ (s.emFind table key epoch = some (k, e)) ∧ (s.oldOnly e.ep0 e.ep1 = false)) ∧
    (∃ (s : State) (h : CmdHdr) (table : Nat) (epoch : Nat) (k : Nat) (key : List Nat) (ep0 : Bool) (ep1 : Bool) (e : RuleEntry) (t : State) , (s.conflict (ruleLocks s.cls.ruleSeed e) = none) ∧ (t = (s.setEm (SMap.set s.cls.em k { e with ep0 := ep0, ep1 := ep1 })).mendCls 0 k) ∧ (s.refuseCmd h attrNone = none) ∧ (table < 16) ∧ (epoch < 2) ∧ ((ep0 || ep1) = true) ∧ (s.emFind table key epoch = some (k, e)) ∧ (s.oldOnly e.ep0 e.ep1 = false) ∧ (s.emDup table key ep0 ep1 (some k) = false)) ∧
    (∃ (s : State) (h : CmdHdr) (table : Nat) (epoch : Nat) (k : Nat) (key : List Nat) (clearHit : Bool) (e : RuleEntry) , (s.refuseCmd h attrNone = none) ∧ (table < 16) ∧ (epoch < 2) ∧ (s.emFind table key epoch = some (k, e))) :=
  ⟨⟨s0, h0, 0, 1, false, by decide +kernel⟩,
    ⟨sTab, h0, 0, key8, act0, [], true, false, false, _, rule0, _, rfl, rfl, by decide +kernel⟩,
    ⟨sEm, h0, 0, 0, 0, key8, act0, [], rule0, _, rfl, rfl, by decide +kernel⟩,
    ⟨sEm, h0, 0, 0, 0, key8, rule0, _, rfl, rfl, by decide +kernel⟩,
    ⟨sEm, h0, 0, 0, 0, key8, false, true, rule0, _, rfl, rfl, by decide +kernel⟩,
    ⟨sEm, h0, 0, 0, 0, key8, false, rule0, by decide +kernel⟩⟩

theorem test_w_ClassifierCommandsComplete :
    (∃ (s : State) (h : CmdHdr) (index : Nat) (word : Nat) , (s.refuseCmd h attrNone = none) ∧ (index < 32) ∧ (word < 2 ^ 32) ∧ (bitsOf word 10 0 = 0)) ∧
    (∃ (s : State) (h : CmdHdr) (port : Nat) (vrf : Nat) (vlan : Nat) (unknownSa : Nat) (staticMove : Nat) , (s.refuseCmd h attrNone = none) ∧ (port < 256) ∧ (vrf < 2 ^ 24) ∧ (vlan < 4096) ∧ (unknownSa < 2) ∧ (staticMove < 2) ∧ (s.portExists port = true)) ∧
    (∃ (s : State) (h : CmdHdr) (index : Nat) (words : List Nat) (old : List Nat) , (s.refuseCmd h attrNone = none) ∧ (index < 64) ∧ (flowProfileOk words = true) ∧ ((pTimestamp words = true → s.heapBytes ≤ 2 ^ 32)) ∧ ((pTwoPass words = true → (s.fst.descs.filter fun e => bitOf e.2 index).length < 2)) ∧ (old = SMap.getD s.cls.flowProf index []) ∧ ((pValid old = true → s.oldOnly (pEp0 old) (pEp1 old) = false)) ∧ ((pValid old = false → pValid words = true → s.oldOnly (pEp0 words) (pEp1 words) = false)) ∧ ((SMap.getD s.cls.liveCount index 0 = 0 ∨ frozenFields old = frozenFields words))) ∧
    (∃ (s : State) (h : CmdHdr) (vlan : Nat) (mac : Nat) (port : Nat) (isStatic : Bool) (stash : Bool) (m : SMap L2Entry) (t : State) (u : State) , (l2Cuckoo.place s.cls.l2 ⟨vlan, mac, port, isStatic, s.coarseNow, false, false⟩ = some (m, stash)) ∧ (u = ({ s with cls := { s.cls with l2 := m } } : State).mendNew 1 s.cls.l2 m) ∧ (t = (if stash = true then u.stashUsed else u)) ∧ (s.refuseCmd h attrNone = none) ∧ (vlan < 4096) ∧ (mac < 2 ^ 48) ∧ (port < 256) ∧ (l2Find s.cls vlan mac = none)) ∧
    (∃ (s : State) (h : CmdHdr) (vlan : Nat) (mac : Nat) (k : Nat) (e : L2Entry) (t : State) , (t = (({ s with cls := { s.cls with l2 := SMap.del s.cls.l2 k } } : State).mendCls 1 k)) ∧ (s.refuseCmd h attrNone = none) ∧ (vlan < 4096) ∧ (mac < 2 ^ 48) ∧ (l2Find s.cls vlan mac = some (k, e))) ∧
    (∃ (s : State) (h : CmdHdr) (toHost : Bool) (ring : Nat) (holdoff : Nat) (rate : Nat) (ageTime : Nat) (sweepPeriod : Nat) (t : State) , (t = ((((s.setAll F.clsCtrl_learnToHost 32 (b2n toHost)).setAll F.clsCtrl_learnRing 32 ring).setAll F.clsCtrl_learnHoldoff 32 holdoff).setAll F.clsCtrl_learnRate 32 rate)) ∧ (s.refuseCmd h attrNone = none) ∧ (ring < 64) ∧ (holdoff < 256) ∧ (rate < 65536) ∧ (1 ≤ ageTime) ∧ (ageTime ≤ 2073600) ∧ (1 ≤ sweepPeriod) ∧ (sweepPeriod ≤ 600)) :=
  ⟨⟨s0, h0, 0, 0, by decide +kernel⟩,
    ⟨sPort, h0, 0, 0, 0, 0, 0, by decide +kernel⟩,
    ⟨s0, h0, 0, List.replicate 8 0, [], by decide +kernel⟩,
    ⟨s0, h0, 0, 0, 0, false, false, _, _, _, rfl, rfl, rfl, by decide +kernel⟩,
    ⟨sL2, h0, 0, 0, 0, ⟨0, 0, 0, false, 0, false, false⟩, _, rfl, by decide +kernel⟩,
    ⟨s0, h0, false, 0, 0, 0, 1, 1, _, rfl, by decide +kernel⟩⟩

theorem test_w_RouteCommandsComplete :
    (∃ (s : State) (h : CmdHdr) (vrf : Nat) (addr : Nat) (fwdOp : Nat) (fwdTarget : Nat) (v6 : Bool) (stash : Bool) (m : SMap Route) (t : State) (u : State) , (hostCuckoo.place s.cls.hostRoutes ⟨vrf, v6, addr, addrBits v6, fwdOp, fwdTarget⟩ = some (m, stash)) ∧ (u = ({ s with cls := { s.cls with hostRoutes := m } } : State).mendNew 2 s.cls.hostRoutes m) ∧ (t = (if stash = true then u.stashUsed else u)) ∧ (s.refuseCmd h attrNone = none) ∧ (vrf < 2 ^ 24) ∧ (addrOk v6 addr = true) ∧ (fwdOp ∈ [1, 2, 3]) ∧ (fwdOk fwdOp fwdTarget = true) ∧ ((∀ e ∈ s.cls.hostRoutes, ¬ (e.2.vrf = vrf ∧ e.2.v6 = v6 ∧ e.2.addr = addr)))) ∧
    (∃ (s : State) (h : CmdHdr) (vrf : Nat) (addr : Nat) (plen : Nat) (fwdOp : Nat) (fwdTarget : Nat) (v6 : Bool) (t : State) , (t = ({ s with cls := { s.cls with lpm := ⟨vrf, v6, addr, plen, fwdOp, fwdTarget⟩ :: s.cls.lpm } } : State).mendCls 3 (Route.mk vrf v6 addr plen fwdOp fwdTarget).lpmIndex) ∧ (s.refuseCmd h attrNone = none) ∧ (vrf < 2 ^ 24) ∧ (addrOk v6 addr = true) ∧ (addr % 2 ^ (addrBits v6 - plen) = 0) ∧ (plen ≤ addrBits v6) ∧ (fwdOp ∈ [1, 2, 3]) ∧ (fwdOk fwdOp fwdTarget = true) ∧ ((∀ r ∈ s.cls.lpm, ¬ (r.vrf = vrf ∧ r.v6 = v6 ∧ r.addr = addr ∧ r.plen = plen))) ∧ ((s.cls.lpm.filter fun r => r.v6 == v6).length < (if v6 then 1048576 else 2097152))) ∧
    (∃ (s : State) (h : CmdHdr) (vrf : Nat) (addr : Nat) (plen : Nat) (v6 : Bool) (r : Route) (t : State) , (t = ({ s with cls := { s.cls with lpm := s.cls.lpm.filter fun r => !(r.vrf == vrf && r.v6 == v6 && r.addr == addr && r.plen == plen) } } : State).mendCls 3 r.lpmIndex) ∧ (s.refuseCmd h attrNone = none) ∧ (vrf < 2 ^ 24) ∧ (addrOk v6 addr = true) ∧ (plen ≤ addrBits v6) ∧ (s.cls.lpm.find? (fun r => r.vrf == vrf && r.v6 == v6 && r.addr == addr && r.plen == plen) = some r)) ∧
    (∃ (s : State) (h : CmdHdr) (vrf : Nat) (addr : Nat) (k : Nat) (v6 : Bool) (r : Route) (t : State) , (t = (({ s with cls := { s.cls with hostRoutes := SMap.del s.cls.hostRoutes k } } : State).mendCls 2 k)) ∧ (s.refuseCmd h attrNone = none) ∧ (vrf < 2 ^ 24) ∧ (addrOk v6 addr = true) ∧ (SMap.first? s.cls.hostRoutes (fun _ r => r.vrf == vrf && r.v6 == v6 && r.addr == addr) = some (k, r))) ∧
    (∃ (s : State) (h : CmdHdr) (index : Nat) (port : Nat) (rewrite : Nat) (backup : Nat) (backupValid : Bool) (t : State) , (t = (({ s with cls := { s.cls with nextHops := SMap.set s.cls.nextHops index ⟨port, rewrite, backup, backupValid⟩ } } : State).mendCls 4 index)) ∧ (s.refuseCmd h attrNone = none) ∧ (index < 262144) ∧ (port < 256) ∧ (rewrite < 65536) ∧ (backup < 262144)) ∧
    (∃ (s : State) (h : CmdHdr) (group : Nat) (hashSel : Nat) (b : Nat) (members : List Nat) (t : State) , (t = (List.range members.length).foldl (fun t i => t.mendCls 5 (16384 + b + i)) (({ s with cls := { s.cls with ecmpGroups := SMap.set s.cls.ecmpGroups group ⟨b, members.length, hashSel⟩, ecmpMembers := SMap.setRun s.cls.ecmpMembers b members } } : State).mendCls 5 group)) ∧ (s.refuseCmd h attrNone = none) ∧ (group < 16384) ∧ (hashSel < 64) ∧ (1 ≤ members.length) ∧ (members.length ≤ 512) ∧ ((∀ m ∈ members, m < 262144)) ∧ (ecmpRun (ecmpHeld s.cls group) members.length = some b)) :=
  ⟨⟨s0, h0, 0, 0, 1, 0, false, false, _, _, _, rfl, rfl, rfl, by decide +kernel⟩,
    ⟨s0, h0, 0, 0, 0, 1, 0, false, _, rfl, by decide +kernel⟩,
    ⟨{ s0 with cls.lpm := [route0] }, h0, 0, 0, 32, false, route0, _, rfl, by decide +kernel⟩,
    ⟨{ s0 with cls.hostRoutes := [(0, route0)] }, h0, 0, 0, 0, false, route0, _, rfl, by decide +kernel⟩,
    ⟨s0, h0, 0, 0, 0, 0, false, _, rfl, by decide +kernel⟩,
    ⟨s0, h0, 0, 0, 0, [0], _, rfl, by decide +kernel⟩⟩

theorem test_w_MaskedSearchCommandsComplete :
    (∃ (s : State) (h : CmdHdr) (bank : Nat) (width : Nat) (prio : Nat) , (s.refuseCmd h attrNone = none) ∧ (bank < 16) ∧ (width ∈ [1, 2, 4]) ∧ (prio < 16) ∧ ((width = (s.mskBank bank).width ∨ ∀ e ∈ s.msk.units, e.1 / 1024 = bank → e.2.valid = false))) ∧
    (∃ (s : State) (h : CmdHdr) (index : Nat) (words : List Nat) , (s.refuseCmd h attrNone = none) ∧ (index < 64) ∧ (words.length = 21) ∧ ((∀ w ∈ words, w < 2 ^ 32)) ∧ (bitsOf (wordAt words 20) 30 16 = 0)) ∧
    (∃ (s : State) (h : CmdHdr) (bank : Nat) (index : Nat) (ep0 : Bool) (ep1 : Bool) (value : List Nat) (mask : List Nat) (action : List Nat) (t : State) , (t = s.mskSet bank index ⟨true, ep0, ep1, (s.mskBank bank).width, value, mask, action⟩) ∧ (s.refuseCmd h attrNone = none) ∧ (bank < 16) ∧ (s.mskIn bank index = true) ∧ ((ep0 || ep1) = true) ∧ (keyBytesOk value (20 * (s.mskBank bank).width) = true) ∧ (keyBytesOk mask (20 * (s.mskBank bank).width) = true) ∧ (actionOk action = true) ∧ (s.mskFrozen bank index = false) ∧ (s.conflict [mskLock bank index] = none)) ∧
    (∃ (s : State) (h : CmdHdr) (bank : Nat) (index : Nat) (action : List Nat) (t : State) , (t = s.mskPutAction (s.mskIndex bank index) action) ∧ (s.refuseCmd h attrNone = none) ∧ (bank < 16) ∧ (actionOk action = true) ∧ (s.mskIn bank index = true) ∧ ((s.mskAt (s.mskIndex bank index)).valid = true) ∧ (s.mskFrozen bank index = false) ∧ (s.conflict [mskLock bank index] = none)) ∧
    (∃ (s : State) (h : CmdHdr) (bank : Nat) (index : Nat) (ep0 : Bool) (ep1 : Bool) (t : State) , (t = s.mskControl (s.mskIndex bank index) (fun u => { u with ep0 := ep0, ep1 := ep1 })) ∧ (s.refuseCmd h attrNone = none) ∧ (bank < 16) ∧ ((ep0 || ep1) = true) ∧ (s.mskIn bank index = true) ∧ ((s.mskAt (s.mskIndex bank index)).valid = true) ∧ (s.mskFrozen bank index = false) ∧ (s.conflict [mskLock bank index] = none)) ∧
    (∃ (s : State) (h : CmdHdr) (bank : Nat) (index : Nat) (t : State) , (t = s.mskInvalidate bank index) ∧ (s.refuseCmd h attrNone = none) ∧ (bank < 16) ∧ (s.mskIn bank index = true) ∧ ((s.mskAt (s.mskIndex bank index)).valid = true) ∧ (s.mskFrozen bank index = false) ∧ (s.conflict [mskLock bank index] = none)) ∧
    (∃ (s : State) (h : CmdHdr) (bank : Nat) (index : Nat) , (s.refuseCmd h attrNone = none) ∧ (bank < 16) ∧ (s.mskIn bank index = true)) ∧
    (∃ (s : State) (h : CmdHdr) (bank : Nat) (index : Nat) , (s.refuseCmd h attrNone = none) ∧ (bank < 16) ∧ (s.mskIn bank index = true)) ∧
    (∃ (s : State) (h : CmdHdr) (scrubEn : Bool) , (s.refuseCmd h attrNone = none)) :=
  ⟨⟨s0, h0, 0, 1, 0, by decide +kernel⟩,
    ⟨s0, h0, 0, List.replicate 21 0, by decide +kernel⟩,
    ⟨s0, h0, 0, 0, true, false, List.replicate 20 0, List.replicate 20 0, act0, _, rfl, by decide +kernel⟩,
    ⟨sMsk, h0, 0, 0, act0, _, rfl, by decide +kernel⟩,
    ⟨sMsk, h0, 0, 0, false, true, _, rfl, by decide +kernel⟩,
    ⟨sMsk, h0, 0, 0, _, rfl, by decide +kernel⟩,
    ⟨s0, h0, 0, 0, by decide +kernel⟩,
    ⟨s0, h0, 0, 0, by decide +kernel⟩,
    ⟨s0, h0, false, by decide +kernel⟩⟩

theorem test_w_ProgramCommandsComplete :
    (∃ (s : State) (h : CmdHdr) (image : List Nat) (key : Nat) (im : RigImage) , (readImage image = some im) ∧ (s.refuseCmd h attrO = none) ∧ (s.getB F.clsEpoch_draining = false) ∧ (s.rig.restarts = []) ∧ ((key = 1 ∨ key = 2 ∧ s.boot.fuses.slot1 = true))) ∧
    (∃ (s : State) (h : CmdHdr) (entry : Nat) (limit : Nat) (w0 : Nat) (w1 : Nat) (valid : Bool) (ep0 : Bool) (ep1 : Bool) (m : SMap (Nat × Nat)) , (s.refuseCmd h attrO = none) ∧ (entry < 256) ∧ (limit < 512) ∧ (s.entryOf entry = (w0, w1)) ∧ ((bitOf w1 31 = true → s.oldOnly (bitOf w1 29) (bitOf w1 30) = false)) ∧ ((bitOf w1 31 = false → valid = true → s.oldOnly ep0 ep1 = false)) ∧ (m = SMap.put (0, 0) s.rig.entries entry (w0, b2n valid <<< 31 + b2n ep1 <<< 30 + b2n ep0 <<< 29 + limit <<< 20))) ∧
    (∃ (s : State) (h : CmdHdr) , (s.refuseCmd h attrNone = none)) ∧
    (∃ (s : State) (h : CmdHdr) (first : Nat) (rows : List (List Nat)) , (s.refuseCmd h attrNone = none) ∧ (first < 65536) ∧ (first + rows.length ≤ 65536) ∧ ((∀ r ∈ rows, r.length = 4 ∧ ∀ w ∈ r, w < 2 ^ 32))) ∧
    (∃ (s : State) (h : CmdHdr) (first : Nat) (rows : List (List Nat)) , (s.refuseCmd h attrNone = none) ∧ (first < 2 ^ 23) ∧ (first + rows.length ≤ 2 ^ 23) ∧ ((∀ r ∈ rows, r.length = 16 ∧ ∀ w ∈ r, w < 2 ^ 32))) ∧
    (∃ (s : State) (h : CmdHdr) (index : Nat) (cir : Nat) (pir : Nat) (cbs : Nat) (pbs : Nat) (aware : Bool) , (s.refuseCmd h attrNone = none) ∧ (index < 16384) ∧ (cir < 2 ^ 32) ∧ (pir < 2 ^ 32) ∧ (cbs < 2 ^ 32) ∧ (pbs < 2 ^ 32)) ∧
    (∃ (s : State) (h : CmdHdr) (pool : Nat) (seed : Nat) (base : Nat) (backends : List Nat) (t : State) , (s.tablePlace = some base) ∧ (t = s.draw.putHbmRows base (slotRows (newSlots [] backends))) ∧ (s.refuseCmd h attrNone = none) ∧ (pool < 1024) ∧ (seed < 2 ^ 32) ∧ (1 ≤ backends.length) ∧ (backends.length ≤ 4096) ∧ (backends.eraseDups = backends) ∧ ((∀ b ∈ backends, b < 16384)) ∧ (SMap.find? s.rig.pools pool = none)) ∧
    (∃ (s : State) (h : CmdHdr) (backend : Nat) (address : Nat) (port : Nat) (state : Nat) , (s.refuseCmd h attrNone = none) ∧ (backend < 16384) ∧ (address < 2 ^ 32) ∧ (port < 65536) ∧ (state < 3)) :=
  ⟨⟨s0, h0, rig0, 1, _, rfl, by decide +kernel⟩,
    ⟨s0, h0, 0, 0, 0, 0, false, false, false, [], by decide +kernel⟩,
    ⟨s0, h0, by decide +kernel⟩,
    ⟨s0, h0, 0, [], by decide +kernel⟩,
    ⟨s0, h0, 0, [], by decide +kernel⟩,
    ⟨s0, h0, 0, 0, 0, 0, 0, false, by decide +kernel⟩,
    ⟨s0, h0, 0, 0, _, [0], _, rfl, rfl, by decide +kernel⟩,
    ⟨s0, h0, 0, 0, 0, 0, by decide +kernel⟩⟩

theorem test_w_QueueCommandsComplete :
    (∃ (s : State) (h : CmdHdr) (profile : Nat) (cls : Nat) (minCells : Nat) (alpha : Nat) (maxCells : Nat) (yellow : Nat) (red : Nat) (ageLimit : Nat) (t : State) , (t = { s with pk := { s.pk with qprof := SMap.put QClass.reset s.pk.qprof (8 * profile + cls) ⟨minCells, alpha, maxCells, yellow, red, ageLimit⟩ } }) ∧ (s.refuseCmd h attrNone = none) ∧ (profile < 32) ∧ (cls < 8) ∧ (minCells < 1024) ∧ (alpha < 10) ∧ (1 ≤ maxCells) ∧ (maxCells ≤ 24576) ∧ (yellow ≤ 8) ∧ (red ≤ 8) ∧ (1 ≤ ageLimit) ∧ (ageLimit ≤ 2000000) ∧ (t.reservesFit = true)) ∧
    (∃ (s : State) (h : CmdHdr) (port : Nat) (profile : Nat) (defClass : Nat) (sampleN : Nat) (pcpMap : List Nat) (inSession : Option Nat) (egSession : Option Nat) (t : State) , (t = { s with pk := { s.pk with qports := SMap.put QPort.reset s.pk.qports port ⟨profile, pcpMap, defClass, inSession, egSession, sampleN⟩ } }) ∧ (s.refuseCmd h attrNone = none) ∧ (port < 256) ∧ (profile < 32) ∧ (pcpMap.length = 8) ∧ ((∀ c ∈ pcpMap, c < 8)) ∧ (defClass < 8) ∧ (sessionOk inSession = true) ∧ (sessionOk egSession = true) ∧ (sampleN ≤ 2 ^ 24) ∧ ((s.portExists port = true ∨ (s.linkOfPort port).isSome = true)) ∧ (t.reservesFit = true)) ∧
    (∃ (s : State) (h : CmdHdr) (arrivalReserve : Nat) (mcReserve : Nat) (mirrorMax : Nat) (copyRate : Nat) (sampleLen : Nat) (ctEn : Bool) (t : State) , (t = { s with pk := { s.pk with arrivalReserve := arrivalReserve, mcReserve := mcReserve, mirrorMax := mirrorMax } }) ∧ (s.refuseCmd h attrNone = none) ∧ (1 ≤ copyRate) ∧ (copyRate ≤ 255) ∧ (64 ≤ sampleLen) ∧ (sampleLen ≤ 512) ∧ (t.reservesFit = true)) ∧
    (∃ (s : State) (h : CmdHdr) (index : Nat) (ring : Nat) (trapLen : Nat) (toCriod : Bool) , (s.refuseCmd h attrNone = none) ∧ (index < 4096) ∧ (ring < 64) ∧ (64 ≤ trapLen) ∧ (trapLen ≤ 512)) ∧
    (∃ (s : State) (h : CmdHdr) (pipe : Nat) (port : Nat) (cls : Nat) , (s.refuseCmd h attrNone = none) ∧ (pipe < 32) ∧ (port < 256) ∧ (cls < 8) ∧ (s.voq pipe port cls = [])) ∧
    (∃ (s : State) (h : CmdHdr) (pipe : Nat) (port : Nat) (cls : Nat) (id : Nat) (p : Copy) (rest : List (Nat × Copy)) , (s.refuseCmd h attrNone = none) ∧ (pipe < 32) ∧ (port < 256) ∧ (cls < 8) ∧ (s.voq pipe port cls = (id, p) :: rest)) ∧
    (∃ (s : State) (h : CmdHdr) (group : Nat) (prune : Bool) (members : List (Nat × Nat × Option Nat)) , (s.refuseCmd h attrNone = none) ∧ (group < 16384) ∧ (1 ≤ members.length) ∧ (members.length ≤ 256) ∧ ((∀ m ∈ members, m.1 < 256 ∧ m.2.1 < 2 ^ 18 ∧ ∀ c, m.2.2 = some c → c < 8)) ∧ (((s.pk.groups.filter fun e => e.1 != group).foldl (fun a e => a + e.2.members.length) 0) + members.length ≤ 262144)) ∧
    (∃ (s : State) (h : CmdHdr) (session : Nat) (m : MirrorArg) , (s.refuseCmd h attrNone = none) ∧ (session < 64) ∧ (m.dest < 3) ∧ (m.port < 256) ∧ (m.cls < 8) ∧ (m.ring < 64) ∧ ((m.trunc = 0 ∨ (64 ≤ m.trunc ∧ m.trunc ≤ 512))) ∧ (m.srcAddr.length = (if m.ipv6 then 16 else 4)) ∧ (m.dstAddr.length = (if m.ipv6 then 16 else 4)) ∧ (m.dscp < 64) ∧ (m.ttl < 256) ∧ (m.nextHop < 2 ^ 18)) ∧
    (∃ (s : State) (h : CmdHdr) (profile : Nat) (n : Nat) , (s.refuseCmd h attrNone = none) ∧ (profile < 64) ∧ (n ≤ 2 ^ 24)) :=
  ⟨⟨s0, h0, 0, 0, 0, 0, 1, 0, 0, 1, _, rfl, by decide +kernel⟩,
    ⟨sPort, h0, 0, 0, 0, 0, List.replicate 8 0, none, none, _, rfl, by decide +kernel⟩,
    ⟨s0, h0, 0, 0, 0, 1, 64, false, _, rfl, by decide +kernel⟩,
    ⟨s0, h0, 0, 0, 64, false, by decide +kernel⟩,
    ⟨s0, h0, 0, 0, 0, by decide +kernel⟩,
    ⟨{ s0 with pk.copies := [(0, copy0)] }, h0, 0, 0, 0, 0, copy0, [], by decide +kernel⟩,
    ⟨s0, h0, 0, false, [(0, 0, none)], by decide +kernel⟩,
    ⟨s0, h0, 0, ⟨0, 0, 0, 0, 0, false, false, [0, 0, 0, 0], [0, 0, 0, 0], 0, 0, 0⟩, by decide +kernel⟩,
    ⟨s0, h0, 0, 0, by decide +kernel⟩⟩

theorem test_w_EgressCommandsComplete :
    (∃ (s : State) (h : CmdHdr) (port : Nat) (shapedMask : Nat) (classes : List (Bool × Nat)) , (s.refuseCmd h attrNone = none) ∧ (port < 256) ∧ (classes.length = 8) ∧ ((∀ c ∈ classes, c.1 = true → 1 ≤ c.2 ∧ c.2 ≤ 127)) ∧ (shapedMask < 256) ∧ (s.portExists port = true)) ∧
    (∃ (s : State) (h : CmdHdr) (port : Nat) (shaper : Nat) (rate : Nat) (burst : Nat) (overhead : Nat) (hi : Int) (lo : Int) (zeroReset : Bool) , (s.refuseCmd h attrNone = none) ∧ (port < 256) ∧ (shaper < 9) ∧ (s.portExists port = true)) ∧
    (∃ (s : State) (h : CmdHdr) (port : Nat) (shaper : Nat) (rate : Nat) (burst : Nat) (overhead : Nat) (hi : Int) (lo : Int) (zeroReset : Bool) , (s.refuseCmd h attrNone = none) ∧ (port < 256) ∧ (shaper < 9) ∧ (8000 ≤ rate) ∧ (rate ≤ 1600000000000) ∧ (64 ≤ burst) ∧ (burst ≤ 16 * 2 ^ 20) ∧ (overhead < 64) ∧ (s.portExists port = true)) ∧
    (∃ (s : State) (h : CmdHdr) (port : Nat) (gateLead : Nat) (frerElim : Bool) , (s.refuseCmd h attrNone = none) ∧ (port < 256) ∧ (gateLead < 65536) ∧ (s.portExists port = true)) ∧
    (∃ (s : State) (h : CmdHdr) (state : Nat) (mask : Nat) , (s.refuseCmd h attrNone = none) ∧ (state < 3) ∧ (mask < 256)) ∧
    (∃ (s : State) (h : CmdHdr) (index : Nat) (words : List Nat) , (s.refuseCmd h attrNone = none) ∧ (1 ≤ index) ∧ (index < 65536) ∧ (words.length = 4) ∧ ((∀ w ∈ words, w < 2 ^ 32)) ∧ (bitsOf (wordAt words 3) 25 16 = 0)) ∧
    (∃ (s : State) (h : CmdHdr) (revertHoldoff : Nat) , (s.refuseCmd h attrNone = none) ∧ (revertHoldoff ≤ 60000)) ∧
    (∃ (s : State) (h : CmdHdr) (latentEn : Bool) (period : Nat) , (s.refuseCmd h attrNone = none) ∧ (100 ≤ period) ∧ (period ≤ 60000)) ∧
    (∃ (s : State) (h : CmdHdr) (monitor : Nat) (handle : Nat) (n : Nat) (threshold : Nat) (enable : Bool) , (s.refuseCmd h attrNone = none) ∧ (monitor < 4096) ∧ (handle < 2 ^ 29) ∧ (2 ≤ n) ∧ (n ≤ 8) ∧ (threshold < 2 ^ 32)) :=
  ⟨⟨sPort, h0, 0, 0, List.replicate 8 (false, 1), by decide +kernel⟩,
    ⟨sPort, h0, 0, 0, 0, 0, 0, 0, 0, false, by decide +kernel⟩,
    ⟨sPort, h0, 0, 0, 8000, 64, 0, 0, 0, false, by decide +kernel⟩,
    ⟨sPort, h0, 0, 0, false, by decide +kernel⟩,
    ⟨s0, h0, 0, 0, by decide +kernel⟩,
    ⟨s0, h0, 1, List.replicate 4 0, by decide +kernel⟩,
    ⟨s0, h0, 0, by decide +kernel⟩,
    ⟨s0, h0, false, 100, by decide +kernel⟩,
    ⟨s0, h0, 0, 0, 2, 0, false, by decide +kernel⟩⟩

end Sys2Proof.Tests
end

section
/-! Proofs of the family of network time (chapter 2): the commands time.* and tec.*, the selected domain, the full time
container, and the events of the servo, the calendar, the pulses and the references. -/

namespace Sys2Proof.NetworkTime

open Sys2Proof.Machine

/-! ## Fields read back -/

theorem fieldOf_withField_same (w : BitVec 32) {hi lo : Nat} (v : Nat) (hl : lo ≤ hi) (hh : hi < 32) :
    fieldOf (withField w hi lo v) hi lo = v % 2 ^ (hi - lo + 1) := by
  apply Nat.eq_of_testBit_eq
  intro j
  simp only [fieldOf, bitsOf, Nat.testBit_mod_two_pow, Nat.testBit_shiftRight]
  by_cases hj : j < hi - lo + 1
  · rw [withField_testBit w hi lo v (lo + j) hl (by omega), if_pos ⟨by omega, by omega⟩, Nat.add_sub_cancel_left]
  · simp [hj]

theorem rising_setF {s : State} (h : SMap.rising s.regs = true) (f : Fld) (i v : Nat) :
    SMap.rising (s.setF f i v).regs = true := SMap.rising_put _ _ _ h

/-- A field reads back the value set, cut to its width. -/
theorem getF_setF_same {s : State} (h : SMap.rising s.regs = true) (f : Fld) (i v : Nat) (hl : f.lo ≤ f.hi)
    (hh : f.hi < 32) : (s.setF f i v).getF f i = v % 2 ^ (f.hi - f.lo + 1) := by
  unfold State.getF State.setF
  rw [State.rd_wr _ _ _ _ _ _ h, if_pos ⟨rfl, rfl⟩, fieldOf_withField_same _ v hl hh]

/-- A field of another register keeps its value. -/
theorem getF_setF_of_reg_ne {s : State} (h : SMap.rising s.regs = true) {f g : Fld} (i v j : Nat)
    (hr : g.reg ≠ f.reg) : (s.setF f i v).getF g j = s.getF g j := by
  unfold State.getF State.setF
  rw [State.rd_wr _ _ _ _ _ _ h, if_neg fun e => hr e.1]

/-! ## The selected domain -/

/-- The selected domain stands in the registers alone. -/
theorem selected_congr {s t : State} (h : t.regs = s.regs) : t.selected = s.selected := by
  unfold State.selected State.getF State.rd
  rw [h]

/-- Showing the servo writes TBS_FREQ, TBS_SLEW_BIAS and TBS_SERVO_STATUS alone: the selected domain stays. -/
theorem selected_showServo {s : State} (h : SMap.rising s.regs = true) : s.showServo.selected = s.selected := by
  unfold State.selected State.showServo State.setB
  rw [getF_setF_of_reg_ne (rising_setF (rising_setF h _ _ _) _ _ _) _ _ _ (by decide),
    getF_setF_of_reg_ne (rising_setF h _ _ _) _ _ _ (by decide), getF_setF_of_reg_ne h _ _ _ (by decide)]

/-- It stays too where the time part is changed before. -/
theorem selected_showServo_withTm {s : State} (h : SMap.rising s.regs = true) (p : TimePart) :
    ({ s with tm := p } : State).showServo.selected = s.selected :=
  (selected_showServo (s := { s with tm := p }) h).trans (selected_congr rfl)

/-- After a switch, TBS_DOMAIN_CTRL.select names the domain switched to. -/
theorem selected_switchDomain {s : State} (h : SMap.rising s.regs = true) {d : Nat} (hd : d < 2) :
    (s.switchDomain d).selected = d := by
  have hset : ((s.setF F.tbsDomainCtrl_select 0 d).setF F.tbsServoStatus_selected 0 d).selected = d := by
    unfold State.selected
    rw [getF_setF_of_reg_ne (rising_setF h _ _ _) _ _ _ (by decide),
      getF_setF_same h _ _ _ (by decide) (by decide)]
    exact Nat.mod_eq_of_lt hd
  unfold State.switchDomain
  dsimp only
  split
  · exact hset
  · exact (selected_showServo_withTm (rising_setF (rising_setF h _ _ _) _ _ _) _).trans hset

/-! ## Commands -/

/-- A command that is admitted and whose parameters hold answers what its body answers. -/
theorem exec_of_cmd_ran {i c : Instr} {s t : State} {h : CmdHdr} {r : Rsp} {a : CmdAttr} {cs : List Bool}
    {body : State → State × Rsp} (he : exec i s = .next (s.cmd c h a cs body)) (hr : s.refuseCmd h a = none)
    (hc : ∀ c ∈ cs, c = true) (hb : body s = (t, r)) : exec i s = .next (t.finish h r) := by
  rw [he, State.cmd_ran s c h a cs body hr hc, hb]

/-- A command that may finish at a later event is answered at once where its body answers. -/
theorem exec_of_cmdLater_ran {i c : Instr} {s t : State} {h : CmdHdr} {r : Rsp} {a : CmdAttr} {cs : List Bool}
    {body : State → State × Option Rsp} (he : exec i s = .next (s.cmdLater c h a cs body))
    (hr : s.refuseCmd h a = none) (hc : ∀ c ∈ cs, c = true) (hb : body s = (t, some r)) :
    exec i s = .next (t.finish h r) := by
  rw [he, State.cmdLater_ran s c h a cs body hr hc, hb]; rfl

theorem exec_timeSelectDomain_valid (s : State) (h : CmdHdr) (domain : Nat) (hr : s.refuseCmd h attrNone = none)
    (hd : domain < 2) (hv : s.domainValid domain = true) :
    exec (.timeSelectDomain h domain) s = .next ((s.switchDomain domain).finish h .ok) :=
  exec_of_cmd_ran rfl hr (by simpa using hd) (by simp [hv])

theorem exec_timeSelectDomain_invalid (s : State) (h : CmdHdr) (domain : Nat) (hr : s.refuseCmd h attrNone = none)
    (hd : domain < 2) (hv : s.domainValid domain = false) :
    exec (.timeSelectDomain h domain) s = .next (s.finish h (.err 0x0A)) :=
  exec_of_cmd_ran rfl hr (by simpa using hd) (by simp [hv, eState])

/-- An entry at least 2 µs away is armed as it stands. -/
theorem armEntry_in_time {s : State} {e : TecEntry} (hn : s.now + 2000 ≤ e.next) : s.armEntry e = s.armHost e := by
  simp [State.armEntry, hn]

/-- An entry of this device alone, at least 2 µs away: the command answers the handle at once. -/
theorem armCmd_in_time {s t : State} {h : CmdHdr} {e : TecEntry} {i : Nat} (hst : e.stack = false)
    (hn : s.now + 2000 ≤ e.next) (ha : s.armHost e = (t, .ok i)) : s.armCmd h e = (t, some (.val [i])) := by
  simp [State.armCmd, armEntry_in_time hn, ha, hst, Nat.not_lt.2 hn]

/-- Settles O9: the two answers of the command, and the select field read back after the switch. -/
theorem selectDomain : Obligations.SelectDomain :=
  ⟨exec_timeSelectDomain_valid, fun _ _ hi hd => selected_switchDomain hi.regs.1 hd, exec_timeSelectDomain_invalid⟩

/-- Settles O24: each command runs its body, since its parameters hold. -/
theorem timeConfigurationCompletes : Obligations.TimeConfigurationCompletes := by
  refine ⟨?_, ?_, ?_, ?_, ?_, ?_, ?_, ?_, ?_⟩
  · intro s h kp ki fMax lockThreshold lockCount unlockThreshold stepThreshold inputTimeout holdoverGrace hr
      hkp hki hfm hlt hlc hut hst hit hhg
    exact exec_of_cmd_ran rfl hr (by simpa using ⟨hkp, hki, hfm, hlt, hlc, hut, hst, hit, hhg⟩) rfl
  · intro s h source port domainNumber meanPathDelay autoSwitch hr hs hp hd
    exact exec_of_cmd_ran rfl hr (by simpa using ⟨hs, hp, hd⟩) rfl
  · intro s h source port domainNumber meanPathDelay autoSwitch hr hs hp hd
    exact exec_of_cmd_ran rfl hr (by simpa using ⟨hs, hp, hd⟩) rfl
  · exact exec_timeSelectDomain_valid
  · intro s h slewRate slewRamp hr hrate hramp
    exact exec_of_cmd_ran rfl hr (by simpa using ⟨hrate, hramp⟩) rfl
  · intro s h mode ports delays hr hm hp hd
    exact exec_of_cmd_ran rfl hr (by simpa using ⟨hm, hp, fun a b => hd (a, b)⟩) rfl
  · intro s h ioCtrl synce0 synce1 hr hio hbaud hlo hhi h0 h0' h1 h1'
    exact exec_of_cmd_ran rfl hr (by simpa using ⟨⟨⟨⟨hio, hbaud⟩, hlo⟩, hhi⟩, ⟨h0, h0'⟩, h1, h1'⟩) rfl
  · intro s t h words i hr hw hst hn ha
    exact exec_of_cmdLater_ran rfl hr ((firstBad_eq_none _).1 hw) (armCmd_in_time hst hn ha)
  · intro s h handle e hr hh hf hn hst
    refine exec_of_cmd_ran rfl hr (by simp) ?_
    simp [Nat.not_lt.2 hh, hf, Nat.not_lt.2 hn, hst]

/-! ## The container of full time -/

/-- Settles O10: of fields in range nothing is cut off, so each word is a plain quotient or remainder. -/
theorem fullTimeContainer : Obligations.FullTimeContainer := by
  intro sec ns frac hs hn hf
  have hw : fullTimeWords sec ns frac = [frac * 2 ^ 16, ns, sec % 2 ^ 32, sec / 2 ^ 32] := by
    have hhi : sec / 2 ^ 32 < 2 ^ 16 := by omega
    simp only [fullTimeWords, trunc, Nat.shiftLeft_eq, Nat.mod_eq_of_lt hf, Nat.mod_eq_of_lt hn,
      Nat.mod_eq_of_lt hhi]
  rw [hw]
  simp only [wordAt, List.getD_cons_zero, List.getD_cons_succ, bitsOf_eq, List.length_cons, List.length_nil,
    List.mem_cons, List.not_mem_nil, or_false, forall_eq_or_imp, forall_eq, Nat.reduceAdd, Nat.reduceSub,
    Nat.reducePow, Nat.div_one, true_and]
  omega

/-! ## The servo -/

theorem tick_of_slewTick {s : State} {m b sl : Int} (h : s.slewTick = (m, b, sl)) :
    s.tick = ({ s with tm := { s.tm.advance (2 ^ 48 + tickMove s.tm.fPi + m).toNat with
      ticks := (s.tm.advance (2 ^ 48 + tickMove s.tm.fPi + m).toNat).ticks + 1, bias := b, slew := sl } } :
        State).showServo := by
  simp only [State.tick, h]

/-- In ACQUIRE an offset that comes while the step waits, or in the 10 ms after it, changes nothing more (R49). -/
theorem servoInput_ignored {s : State} (theta : Int) (hp : s.phase = phAcquire)
    (hw : s.tm.stepPending.isSome = true ∨
      s.getB F.tbsServoStatus_acqSecond = true ∧ s.tm.ticks < s.tm.discardUntil) : s.servoInput theta = s := by
  rcases hw with hw | ⟨hq, ht⟩
  · simp [State.servoInput, hp, hw]
  · simp [State.servoInput, hp, hq, ht]

theorem servoInput_first {s : State} (theta : Int) (hp : s.phase = phAcquire) (hw : s.tm.stepPending = none)
    (hq : s.getB F.tbsServoStatus_acqSecond = false) : s.servoInput theta = s.firstOffset theta := by
  simp [State.servoInput, hp, hw, hq]

theorem servoInput_second {s : State} (theta : Int) (hp : s.phase = phAcquire) (hw : s.tm.stepPending = none)
    (hq : s.getB F.tbsServoStatus_acqSecond = true) (ht : s.tm.discardUntil ≤ s.tm.ticks) :
    s.servoInput theta = s.secondOffset theta := by
  simp [State.servoInput, hp, hw, hq, Nat.not_lt.2 ht]

theorem servoInput_settled {s : State} (theta : Int) (hp : s.phase ≠ phAcquire) :
    s.servoInput theta = if passes (s.errorOf theta) (s.getF F.tbsStepThresh_stepThreshold) then
      s.enterAcquire.firstOffset theta else s.trackOffset theta := by
  simp [State.servoInput, hp]

/-- The record of an offset of a domain: the domain's own record and valid bit, its register, and the pairing (R52). -/
def recordOffset (s : State) (d : Nat) (theta : Int) : State :=
  ((((s.setDomain d { s.domain d with offset := theta, at_ := some s.tm.ticks, nt := s.now, paired := true }).setDomainValid d
    true).setF F.tbsDomainOffset_offset d (signedField 32 (theta / 2 ^ 16))).pairOffsets d)

/-- An offset of a domain in use is recorded; the servo takes it where that domain is selected. -/
theorem servoOffset_in_use {s : State} {d : Nat} (theta : Int) (hd : d ≤ 1) (hs : s.domainSource d ≠ 3) :
    s.servoOffset d theta = if (recordOffset s d theta).selected = d then (recordOffset s d theta).servoInput theta
      else recordOffset s d theta := by
  have huse : ¬(decide (d > 1) || s.domainSource d == 3) = true := by simp [hd, hs]
  simp only [State.servoOffset, if_neg huse, beq_iff_eq]
  rfl

theorem exec_servoOffset_selected {s t : State} {d : Nat} {theta : Int} (hd : d ≤ 1) (hs : s.domainSource d ≠ 3)
    (ht : t = recordOffset s d theta) (hsel : t.selected = d) :
    exec (.servoOffset d theta) s = .next (t.servoInput theta) := by
  subst ht
  exact congrArg _ ((servoOffset_in_use theta hd hs).trans (if_pos hsel))

theorem exec_servoOffset_unselected {s t : State} {d : Nat} {theta : Int} (hd : d ≤ 1) (hs : s.domainSource d ≠ 3)
    (ht : t = recordOffset s d theta) (hsel : t.selected ≠ d) : exec (.servoOffset d theta) s = .next t := by
  subst ht
  exact congrArg _ ((servoOffset_in_use theta hd hs).trans (if_neg hsel))

/-- A valid domain that is silent for input_timeout becomes invalid, and a selected one is left (R52, R55). -/
theorem domainTimeout_silent {s : State} {d : Nat} (hd : d ≤ 1) (hv : s.domainValid d = true)
    (hs : s.domainSilent d = true) :
    s.domainTimeout d = if s.selected ≠ d then s.setDomainValid d false
      else if s.getB F.tbsDomainCtrl_autoSwitch = true ∧ s.domainValid (1 - d) = true then
        (((s.setDomainValid d false).switchDomain (1 - d)).addF F.tbsServoStatus_autoSwitches 0 1).raise 0x0504 0 (1 - d)
      else if s.phase = phTrack then (s.setDomainValid d false).enterHoldover else s.setDomainValid d false := by
  simp [State.domainTimeout, Nat.not_lt.2 hd, hv, hs]

theorem graceSpent_of_holdover {s : State} {t : Nat} (hh : s.tm.holdoverAt = some t) (hp : s.phase = phHoldover)
    (ht : t + s.getF F.tbsHoldover_holdoverGrace * 1000000000 ≤ s.tm.ticks) : s.graceSpent = true := by
  simp [State.graceSpent, hh, hp, ht]

/-- Settles O22: the events of the servo by `servoOffset_in_use` and the case of `servoInput` that each clause names. -/
theorem networkTimeEventsComplete : Obligations.NetworkTimeEventsComplete := by
  refine ⟨?_, ?_, ?_, ?_, ?_, ?_, ?_, ?_, ?_, ?_, ?_, ?_, ?_, ?_⟩
  · intro s m b sl h
    show Host.Outcome.next s.tick = _
    rw [tick_of_slewTick h]
  · intro s deviations hb
    show execHalyardFrame deviations s = _
    simp only [execHalyardFrame, hb, Bool.not_true, Bool.false_eq_true, if_false]
  · intro s theta hw hb hback
    show execStepFrame s = _
    simp only [execStepFrame, hw, hb, Nat.not_lt.2 hback, Bool.not_true, Bool.false_eq_true, if_false]
  · intro s theta hw hb hfwd
    show execStepFrame s = _
    simp only [execStepFrame, hw, hb, hfwd, Bool.not_true, Bool.false_eq_true, if_false, if_true]
  · intro s t d theta hd hs ht hsel
    exact exec_servoOffset_unselected hd hs ht hsel
  · intro s t d theta hd hs ht hsel hp hw
    rw [exec_servoOffset_selected hd hs ht hsel, servoInput_ignored theta hp hw]
  · intro s t d theta hd hs ht hsel hp hw hq
    rw [exec_servoOffset_selected hd hs ht hsel, servoInput_first theta hp hw hq, State.firstOffset]
  · intro s t d theta i hd hs ht hsel hp hw hq hdis hi
    rw [exec_servoOffset_selected hd hs ht hsel, servoInput_second theta hp hw hq hdis, hi, State.secondOffset]
  · intro s t d theta hd hs ht hsel hp
    rw [exec_servoOffset_selected hd hs ht hsel, servoInput_settled theta hp]
  · intro s d hd hv hs
    show execDomainTimeout d s = _
    rw [execDomainTimeout, domainTimeout_silent hd hv hs]
  · intro s t hh hp ht
    show execHoldoverGraceExpiry s = _
    rw [execHoldoverGraceExpiry, if_pos (graceSpent_of_holdover hh hp ht)]
  · intro s pipeline
    rfl
  · intro s i e hf
    show execTecFiring s = _
    simp only [execTecFiring, hf]
  · intro s d rest hd hn
    show execTecDeferredFiring s = _
    simp only [execTecDeferredFiring, hd, Nat.not_lt.2 hn, if_false]

/-! ## Pulses, time of day and references -/

/-- Settles O23: the conditions of each clause choose one branch of the meaning of its event. -/
theorem pulseAndReferenceEventsComplete : Obligations.PulseAndReferenceEventsComplete := by
  refine ⟨?_, ?_, ?_, ?_, ?_, ?_, ?_, ?_, ?_, ?_⟩
  · intro s hc
    show execPpsOutEdge s = _
    rw [execPpsOutEdge, if_neg (Nat.not_le.2 hc)]
  · intro s hw
    show execPpsOutFall s = _
    rw [execPpsOutFall, if_neg (Nat.not_lt.2 hw)]
  · intro s u hu
    show execPpsInEdge s = _
    rw [hu, execPpsInEdge, State.setF_tm, State.setF_tm]
  · intro s u v chars sec e hm hw ht hi hu hv
    show execTodMessageRx chars s = _
    subst hv hu
    simp only [execTodMessageRx, hm, hw, Nat.not_lt.2 ht, hi, if_false, Bool.false_eq_true, beq_iff_eq]
    rfl
  · intro s chars sec e hm hw ht hi
    show execTodMessageRx chars s = _
    simp only [execTodMessageRx, hm, hw, Nat.not_lt.2 ht, hi, if_false, if_true]
  · intro s e hw ht
    show execTodWindowExpiry s = _
    simp only [execTodWindowExpiry, hw, ht, if_true]
  · intro s sec due hd ht
    show execTodOutput s = _
    simp only [execTodOutput, hd, Nat.not_lt.2 ht, if_false]
  · intro s ref hr hh
    show execReferenceLost ref s = _
    rw [execReferenceLost, if_neg (by simp [hr, hh])]
  · intro s ref hr
    show execReferenceRelock ref s = _
    rw [execReferenceRelock, if_neg (Nat.not_lt.2 hr)]
  · intro s
    rfl

end Sys2Proof.NetworkTime
end

section
/-! Proofs of the family of lanes and ports (chapter 3): the registers after reset, MAC control frames and the timers of
flow control, the link events, frames received, transmit events and the port.* commands. -/

namespace Sys2Proof.LanesAndPorts

open Sys2Proof.Machine
open Sys2Proof.NetworkTime (exec_of_cmd_ran)

/-! ## The registers after reset -/

/-- No register is listed at reset, so every read gives the reset word. -/
theorem rd_reset (r : Reg) (i : Nat) : State.reset.rd r i = r.resetWord := rfl

theorem getF_reset (f : Fld) (i : Nat) : State.reset.getF f i = fieldOf f.reg.resetWord f.hi f.lo := by
  rw [State.getF, rd_reset]

/-- Settles O5: a read at reset gives the reset word, and each value named is a field of one. -/
theorem resetRegisters : Obligations.ResetRegisters := by
  refine ⟨rd_reset, ?_, ?_, ?_, ?_, ?_, ?_, fun _ => rfl, rfl⟩
  · rw [rd_reset]; decide
  all_goals rw [getF_reset]; decide

/-! ## Flow control -/

/-- Settles O14: each timer's clause names the instant kept for it, which has come. -/
theorem macControlEventsComplete : Obligations.MacControlEventsComplete := by
  refine ⟨?_, ?_, ?_, ?_, ?_⟩
  · intro s port opcode classes quanta hex
    show execRxMacControlFrame port opcode classes quanta s = _
    rw [execRxMacControlFrame, if_pos hex]
  · intro s port cls t hend hdue
    show execPauseExpiry port cls s = _
    simp only [execPauseExpiry, hend, ge_iff_le, hdue, if_true]
  · intro s port cls t hat hoff hdue
    show execXoffResend port cls s = _
    simp only [execXoffResend, hat, hoff, ge_iff_le, hdue, decide_true, Bool.and_self, if_true]
  · intro s port cls t hheld hdue
    show execPfcWatchdog port cls s = _
    simp only [execPfcWatchdog, hheld, Nat.not_lt.2 hdue, if_false]
  · intro s port cls t hrest hdue
    show execPfcRestoreEnd port cls s = _
    simp only [execPfcRestoreEnd, hrest, ge_iff_le, hdue, if_true]

/-! ## Link events -/

theorem holdoffSpent_of_cleared {s : State} {port t : Nat} (hc : (s.portInfo port).clearSince = some t)
    (ht : t + msTicks (s.portInfo port).holdoff ≤ s.tm.ticks) : s.holdoffSpent port = true := by
  simp [State.holdoffSpent, hc, ht]

section
variable {s : State} {port : Nat}

/-- Negotiation acts on a port that exists, has it enabled and is in its first or second state: the guard of
AN_COMPLETE does not hold it back. -/
theorem not_anIdle (hex : s.portExists port = true) (hen : s.getB F.portCfg_anEn port = true)
    (hst : s.getF F.portStatus_anState port = 1 ∨ s.getF F.portStatus_anState port = 2) :
    ¬ (!s.portExists port || !s.getB F.portCfg_anEn port ||
      (s.getF F.portStatus_anState port != 1 && s.getF F.portStatus_anState port != 2)) = true := by
  rcases hst with hst | hst <;> simp [hex, hen, hst]

theorem execAnComplete_agreed {l : List (Nat × Nat × Nat)} {a : Nat × Nat × Nat} (hex : s.portExists port = true)
    (hen : s.getB F.portCfg_anEn port = true) (hst : s.getF F.portStatus_anState port = 1)
    (ha : s.resolveAn port l = some a) :
    execAnComplete port (some l) s = .next (((s.setF F.portStatus_anState port
      (if s.getB F.portCfg_ltEn port = true then 2 else 3)).setPort port
        { s.portInfo port with ability := some a, anRestart := none }).calibrate port) := by
  have hne : ¬ (s.getF F.portStatus_anState port == 2) = true := by simp [hst]
  simp only [execAnComplete, if_neg (not_anIdle hex hen (.inl hst)), if_neg hne, ha]

theorem execAnComplete_trained (l : List (Nat × Nat × Nat)) (hex : s.portExists port = true)
    (hen : s.getB F.portCfg_anEn port = true) (hst : s.getF F.portStatus_anState port = 2) :
    execAnComplete port (some l) s = .next (s.setF F.portStatus_anState port 3) := by
  have heq : (s.getF F.portStatus_anState port == 2) = true := by simp [hst]
  simp only [execAnComplete, if_neg (not_anIdle hex hen (.inr hst)), if_pos heq]

/-- Negotiation or training that ends without a partner's abilities has failed. -/
theorem execAnComplete_silent (hex : s.portExists port = true) (hen : s.getB F.portCfg_anEn port = true)
    (hst : s.getF F.portStatus_anState port = 1 ∨ s.getF F.portStatus_anState port = 2) :
    execAnComplete port none s = .next (s.anFailed port) := by
  simp only [execAnComplete, if_neg (not_anIdle hex hen hst)]

/-- Negotiation that finds no common ability has failed. -/
theorem execAnComplete_disjoint {l : List (Nat × Nat × Nat)} (hex : s.portExists port = true)
    (hen : s.getB F.portCfg_anEn port = true) (hst : s.getF F.portStatus_anState port = 1)
    (ha : s.resolveAn port l = none) : execAnComplete port (some l) s = .next (s.anFailed port) := by
  have hne : ¬ (s.getF F.portStatus_anState port == 2) = true := by simp [hst]
  simp only [execAnComplete, if_neg (not_anIdle hex hen (.inl hst)), if_neg hne, ha]

end

/-- Settles O15: the faults by the branch that the port's existence chooses, negotiation by the cases of
`execAnComplete`. -/
theorem linkEventsComplete : Obligations.LinkEventsComplete := by
  refine ⟨?_, ?_, ?_, ?_, ?_, ?_, ?_, ?_⟩
  · intro s port cause hex
    show execLocalLinkFault port cause s = _
    simp only [execLocalLinkFault, hex, Bool.not_true, Bool.false_eq_true, if_false, beq_iff_eq]
  · intro s port hex
    show execRemoteLinkFault port s = _
    simp only [execRemoteLinkFault, hex, Bool.not_true, Bool.false_eq_true, if_false]
  · intro s u port hex hdown hu
    show execReceiveFaultCleared port s = _
    simp only [execReceiveFaultCleared, hex, hdown, Bool.not_true, Bool.or_self, Bool.false_eq_true, if_false,
      beq_iff_eq, hu]
  · intro s port t hex hdown hclear hspent
    show execLinkUpHoldoffExpiry port s = _
    rw [execLinkUpHoldoffExpiry, if_pos (by simp [hex, hdown, holdoffSpent_of_cleared hclear hspent])]
  · intro s port l a hex hen hst ha
    exact execAnComplete_agreed hex hen hst ha
  · intro s port l hex hen hst
    exact execAnComplete_trained l hex hen hst
  · intro s port p hex hen hst hfail
    show execAnComplete port p s = .next (s.anFailed port)
    cases p with
    | none => exact execAnComplete_silent hex hen hst
    | some l =>
      obtain h | ⟨hst1, ha⟩ := hfail
      · exact absurd h (Option.some_ne_none l)
      · exact execAnComplete_disjoint hex hen hst1 ha
  · intro s port t hat hdue
    show execAnRestart port s = _
    simp only [execAnRestart, hat, ge_iff_le, hdue, if_true]

/-! ## Frames received -/

/-- Counting codewords leaves the packets alone. -/
@[simp] theorem countFec_pk (s : State) (port corrCw uncorrCw : Nat) : (s.countFec port corrCw uncorrCw).pk = s.pk := by
  unfold State.countFec
  dsimp only
  split <;> simp

/-- A release after which the rig stage is within 32 packets not started and 128 in all goes through (R307). -/
theorem orStall_of_room {s t : State} {pipe : Nat} (hu : t.unstarted pipe ≤ 32) (hp : t.rigPlaces pipe ≤ 128) :
    s.orStall t pipe = t := by
  have h1 : t.unstarted pipe ≤ Nat.max 32 (s.unstarted pipe) := Nat.le_trans hu (Nat.le_max_left _ _)
  have h2 : t.rigPlaces pipe ≤ Nat.max 128 (s.rigPlaces pipe) := Nat.le_trans hp (Nat.le_max_left _ _)
  simp only [State.orStall, gt_iff_lt, Nat.not_lt.2 h1, Nat.not_lt.2 h2, decide_false, Bool.or_self,
    Bool.false_eq_true, if_false]

/-- Settles O16: the state has room for what arrives, so each event takes its branch that goes on. -/
theorem framesReceivedComplete : Obligations.FramesReceivedComplete := by
  refine ⟨?_, ?_, ?_, ?_, ?_⟩
  · intro s port bytes hex hup
    show execFrameArrival port bytes s = _
    rw [execFrameArrival, if_pos (by simp [hex, hup])]
  · intro s port fcs corrCw uncorrCw errorBlock errored r hex hr
    show execFrameEndStatus port [] fcs ⟨errorBlock, errored⟩ corrCw uncorrCw s = _
    simp only [execFrameEndStatus, hex, Bool.not_true, Bool.false_eq_true, if_false, List.isEmpty_nil, if_true,
      countFec_pk, hr]
  · intro s pipe kind id p err hkind hfirst hroom hpoles
    show execDeal pipe kind err s = _
    have hfresh : (kind == 1) = false := by simpa using hkind
    simp only [execDeal, hfirst, ge_iff_le, Nat.not_le.2 hroom, hpoles, hfresh, decide_false, Bool.or_self,
      Bool.false_and, Bool.false_eq_true, if_false]
  · intro s pipe src id p errs hnext hu hp
    show execParserReorderRelease pipe src errs s = _
    simp only [execParserReorderRelease, hnext, orStall_of_room hu hp]
  · intro s ring words frame hring hen htype hused hdma hok
    show execTxDescriptorFetch ring words frame s = _
    have hready : ¬ (!(s.ring ring).enabled || (s.ring ring).rtype != 2 || (s.ring ring).used == 0 ||
        !s.dmaOn) = true := by
      simp [hen, htype, hused, hdma]
    simp only [execTxDescriptorFetch, if_neg (Nat.not_le.2 hring), if_neg hready, if_pos hok]

/-! ## Transmit events -/

/-- A port may start a frame where its link is up, the device is not in the bare-poles state and none of its copies is
in transmission. -/
theorem may_start {s : State} {port : Nat} (hup : s.linkUp port = true) (hpoles : s.getB F.fltStatus_barePoles = false)
    (hidle : ∀ e ∈ s.pk.copies, e.2.port = port → e.2.stage ≠ .transmitting) :
    ¬ (!s.maySend port || s.pk.copies.any fun e => e.2.port == port && e.2.stage == .transmitting) = true := by
  simpa [State.maySend, hup, hpoles] using hidle

/-- The octets of a copy as its port sends them: padded, drawing the pad, on an Ethernet port (R91), and as they are
on a link port. -/
def framed (s : State) (port : Nat) (c : Copy) : State × List Nat :=
  if (s.linkOfPort port).isSome then (s, s.txBytes c) else s.padFrame (s.txBytes c)

theorem framed_ethernet {s : State} {port : Nat} (c : Copy) (hl : s.linkOfPort port = none) :
    framed s port c = s.padFrame (s.txBytes c) := by
  simp [framed, hl]

theorem framed_link {s : State} {port : Nat} (c : Copy) (hl : s.linkOfPort port ≠ none) :
    framed s port c = (s, s.txBytes c) := by
  simp [framed, Option.isSome_iff_ne_none.2 hl]

/-- A frame in transmission that is stored, or is cut through with its packet whole and its length allowed, finishes. -/
theorem execTxFrameEnd_done {s : State} {port cid : Nat} {c : Copy} {p : Pkt} (hc : s.txCopy port = some (cid, c))
    (hp : SMap.find? s.pk.pkts c.pkt = some p)
    (hct : c.ct = true → p.arriving = false ∧ p.writtenCells ≤ c.landed ∧
      (framed s port c).2.length + 4 ≤ s.getF F.portCfg_maxFrame port) :
    execTxFrameEnd port s = .next ((framed s port c).1.txDone cid c (framed s port c).2) := by
  have hwhole : ¬ (c.ct && (p.arriving || decide (c.landed < p.writtenCells))) = true := by
    intro h
    obtain ⟨hcut, hmore⟩ := Bool.and_eq_true_iff.1 h
    obtain ⟨harr, hland, -⟩ := hct hcut
    simp [harr, Nat.not_lt.2 hland] at hmore
  have hlen : ¬ (c.ct && decide ((framed s port c).2.length + 4 > s.getF F.portCfg_maxFrame port)) = true := by
    intro h
    obtain ⟨hcut, hlong⟩ := Bool.and_eq_true_iff.1 h
    exact absurd (of_decide_eq_true hlong) (Nat.not_lt.2 (hct hcut).2.2)
  unfold framed at hlen ⊢
  simp only [execTxFrameEnd, hc, hp, if_neg hwhole, if_neg hlen]

/-- Settles O20: the ends of frames by `execTxFrameEnd_done`, the rest by the branch that each clause's conditions
choose. -/
theorem transmitEventsComplete : Obligations.TransmitEventsComplete := by
  refine ⟨?_, ?_, ?_, ?_, ?_, ?_, ?_, ?_, ?_⟩
  · intro s t port errs hup hpoles hidle ht
    show execTransmitSelection port errs s = _
    rw [execTransmitSelection, if_neg (may_start hup hpoles hidle), ht]
  · intro s port cid c hc hct
    show execCtUnderrun port s = _
    simp only [execCtUnderrun, hc, hct, if_true]
  · intro s port cid c p hc hp hct
    have hdone := execTxFrameEnd_done hc hp fun h => absurd h (by simp [hct])
    show execTxFrameEnd port s = _
    split
    case isTrue hl => rw [hdone, framed_ethernet c hl]
    case isFalse hl => rw [hdone, framed_link c hl]
  · intro s port cid c p hc hp hct harr hland hl hlen
    show execTxFrameEnd port s = _
    rw [execTxFrameEnd_done hc hp fun _ => ⟨harr, hland, by rwa [framed_ethernet c hl]⟩, framed_ethernet c hl]
  · intro s pipe slot e es here hdue hslot hhere
    show execShaperWake pipe s = _
    subst hhere hslot
    simp only [execShaperWake, hdue]
  · intro s pipe
    rfl
  · intro s port t hrev hdue hup
    show execFailoverRevert port s = _
    simp only [execFailoverRevert, hrev, Nat.not_lt.2 hdue, hup, decide_false, Bool.not_true, Bool.or_self,
      Bool.false_eq_true, if_false]
  · intro s t loudest errs loud hover ht hloud hloudest
    show execLatentPeriodEnd errs s = _
    subst hloudest hloud ht
    rw [execLatentPeriodEnd, if_neg (Nat.not_lt.2 hover)]
  · intro s index hbad
    show execRewriteEntryRepair index s = _
    rw [execRewriteEntryRepair, if_pos (List.contains_iff_mem.2 hbad)]

/-! ## The port.* commands -/

/-- The check of a parameter that one flag demands of another. -/
theorem not_or_beq_of_imp {b : Bool} {m n : Nat} (h : b = true → m = n) : (!b || m == n) = true := by
  cases b with
  | false => rfl
  | true => simpa using h rfl

/-- Settles O52: each command's parameters hold, and its body finds nothing that stands against it. -/
theorem portCommandsComplete : Obligations.PortCommandsComplete := by
  refine ⟨?_, ?_, ?_, ?_, ?_⟩
  · intro s h port lanes laneRate fec medium maxFrame holdoff anEn ltEn ctEn hr hport halign hlanes hcombo hfec
      hmedium han hlt hmin hmax hhold hsame htaken hstk u t hu ht hfit
    have hfree : ¬ (s.portExists port && s.getF F.portCfg_lanes port != lanes || s.laneTaken port lanes) = true := by
      simpa [htaken] using hsame
    have hlink : ¬ (s.stk.lanes.any fun l => lanesOverlap port (2 ^ lanes) l 8) = true := by simpa using hstk
    refine exec_of_cmd_ran rfl hr ?_ ?_
    · simp [hport, halign, hlanes, hcombo, hfec, hmedium, not_or_beq_of_imp han, not_or_beq_of_imp hlt, hmin, hmax,
        hhold]
    · dsimp only
      rw [if_neg hfree, if_neg hlink, ← hu, ← ht, if_pos hfit]
  · intro s h port hr hport hex href u v hu hv
    subst hv hu
    exact exec_of_cmd_ran rfl hr (by simpa using hport)
      (by simp only [hex, href, Bool.not_true, Bool.false_eq_true, if_false])
  · intro s h mac txPol rxPol txOrder rxOrder hr hmac htx htxp hrx hrxp hnone
    have hempty : ¬ (s.port.ports.any fun e => e.1 / 8 == mac) = true := by simpa using hnone
    exact exec_of_cmd_ran rfl hr (by simp [hmac, htx, htxp, hrx, hrxp]) (if_neg hempty)
  · intro s h port mode classes xoff xon quanta watchdog restore headroom hr hport hmode hcls hlen hquanta hwdlo hwdhi
      hrest hex t ht hroom hfit
    have hspace : ¬ (decide (t.headroomSum (pipeOf port) > 12288) || !t.reservesFit) = true := by
      simpa [hfit] using hroom
    refine exec_of_cmd_ran rfl hr (by simpa [hport, hmode, hcls, hlen, hquanta, hwdlo, hwdhi] using hrest) ?_
    dsimp only
    rw [if_neg (by simp [hex]), ← ht, if_neg hspace]
  · intro s h port hr hex
    exact exec_of_cmd_ran rfl hr (by simp) (if_neg (by simp [hex]))

end Sys2Proof.LanesAndPorts
end

section
/-! Proofs of the family of the parser (chapter 4): the repairs of table entries with the visits of the scrubber and the
ager, and the prs.* commands. -/

namespace Sys2Proof.Parser

open Sys2Proof.Machine
open Sys2Proof.NetworkTime (exec_of_cmd_ran)

/-! ## Repairs of table entries, the scrubber and the ager -/

/-- An entry is rewritten from the other die's copy where that copy is whole (R155). -/
theorem clsRepairable_iff (s : State) (die table index : Nat) :
    (s.cls.damaged.contains (die, table, index) && !s.cls.damaged.contains (1 - die, table, index)) = true ↔
      (die, table, index) ∈ s.cls.damaged ∧ (1 - die, table, index) ∉ s.cls.damaged := by
  simp

/-- A suspect entry and one whose shroud copy is bad are the entries that firmware rewrites (R187). -/
theorem mskRepairable_iff (s : State) (k : Nat) :
    (s.msk.suspect.contains k || s.msk.badShroud.contains k) = true ↔ k ∈ s.msk.suspect ∨ k ∈ s.msk.badShroud := by
  simp

/-- A die's ager works outside bare poles and FURLED. -/
theorem ager_not_held {s : State} {die : Nat} (hdie : die ≤ 1) (hpoles : s.getB F.fltStatus_barePoles = false)
    (hfurl : s.furled = false) : ¬ (s.getB F.fltStatus_barePoles || s.furled || decide (die > 1)) = true := by
  simpa [hpoles, hfurl] using hdie

/-- The mark of an entry that a die has not visited since a time step or a bare-poles exit is the die's own. -/
theorem stepMark_eq (e : L2Entry) (die : Nat) :
    (if die == 0 then e.stepFore else e.stepAft) = if die = 0 then e.stepFore else e.stepAft := by
  simp only [beq_iff_eq]

/-- Settles O25: the conditions of each clause choose one branch of the meaning of its event. -/
theorem tableRepairsComplete : Obligations.TableRepairsComplete := by
  refine ⟨?_, ?_, ?_, ?_, ?_, ?_, ?_, ?_⟩
  · intro s pipe table index hbad
    show execPrsEntryRepair pipe table index s = _
    rw [execPrsEntryRepair, if_pos (List.contains_iff_mem.2 hbad)]
  · intro s die table index hbad hother
    show execClsEntryRepair die table index s = _
    rw [execClsEntryRepair, if_pos ((clsRepairable_iff s die table index).2 ⟨hbad, hother⟩)]
  · intro s die table index _ hother
    show execClsEntryRepair die table index s = _
    rw [execClsEntryRepair, if_neg fun h => ((clsRepairable_iff s die table index).1 h).2 hother]
  · intro s t pipe shroud upset hpipe ht
    show execMskScrubVisit pipe upset shroud s = _
    subst ht
    cases upset <;> exact congrArg _ (if_neg (Nat.not_le.2 hpipe))
  · intro s pipe bank unit hbad
    show execMskSuspectRepair pipe bank unit s = _
    rw [execMskSuspectRepair, if_pos ((mskRepairable_iff s _).2 hbad)]
  · intro s pipe bank unit hbad
    show execMskActionRepair pipe bank unit s = _
    rw [execMskActionRepair, if_pos (List.contains_iff_mem.2 hbad)]
  · intro s die slot e hdie he hpoles hfurl hmark
    show execL2AgerVisit die slot s = _
    simp only [execL2AgerVisit, he, if_neg (ager_not_held hdie hpoles hfurl), stepMark_eq, if_pos hmark]
  · intro s die slot e hdie he hpoles hfurl hmark hlearned hold
    have hunmarked : ¬ (if die = 0 then e.stepFore else e.stepAft) = true := by simp [hmark]
    have haged :
        (!e.isStatic && decide (wrapDiff s.coarseNow e.lastSeen 32 > coarseSeconds s.cls.l2AgeTime)) = true := by
      simpa [hlearned] using hold
    show execL2AgerVisit die slot s = _
    simp only [execL2AgerVisit, he, if_neg (ager_not_held hdie hpoles hfurl), stepMark_eq,
      if_neg hunmarked, if_pos haged]

/-! ## The prs.* commands -/

/-- The check of prs.scan_config's first parameter: four option types of a byte each (R104). -/
theorem scanIpv4_ok {l : List Nat} (hlen : l.length = 4) (hl : ∀ t ∈ l, t < 256) :
    (l.length == 4 && l.all fun t => decide (t < 256)) = true := by
  simpa [hlen] using hl

/-- The check of its second parameter: four pairs of an option class and a type (R104). -/
theorem scanGeneve_ok {l : List (Nat × Nat)} (hlen : l.length = 4) (hl : ∀ t ∈ l, t.1 < 65536 ∧ t.2 < 256) :
    (l.length == 4 && l.all fun t => decide (t.1 < 65536) && decide (t.2 < 256)) = true := by
  rw [hlen, beq_self_eq_true, Bool.true_and, List.all_eq_true]
  intro t ht
  simpa using hl t ht

/-- Settles O53: each command is admitted and its parameters hold, so that its body answers. -/
theorem parserCommandsComplete : Obligations.ParserCommandsComplete := by
  refine ⟨?_, ?_, ?_, ?_, ?_, ?_, ?_⟩
  · intro s h index words hr hindex hwords
    exact exec_of_cmd_ran rfl hr (by simp [hindex, hwords]) rfl
  · intro s h index hr hindex
    exact exec_of_cmd_ran rfl hr (by simp [hindex]) rfl
  · intro s h port start group hr hport hstart hgroup
    exact exec_of_cmd_ran rfl hr (by simp [hport, hstart, hgroup]) rfl
  · intro s h index words hr hindex hwords
    exact exec_of_cmd_ran rfl hr (by simp [hindex, hwords]) rfl
  · intro s h group keyClass profile hr hgroup hclass hprofile
    exact exec_of_cmd_ran rfl hr (by simp [hgroup, hclass, hprofile]) rfl
  · intro s h ipv4 geneve hr hlen4 hipv4 hlenG hgeneve
    exact exec_of_cmd_ran rfl hr
      (List.forall_mem_cons.2 ⟨scanIpv4_ok hlen4 hipv4, List.forall_mem_singleton.2 (scanGeneve_ok hlenG hgeneve)⟩) rfl
  · intro s h conflictAction trapRing trapLen trapEn trapToCriod hr haction hring hmin hmax
    exact exec_of_cmd_ran rfl hr (by simp [haction, hring, hmin, hmax]) rfl

end Sys2Proof.Parser
end

section
/-! Proofs of the family of rule tables (chapter 5): the epoch swap with its drain and deadline, the em.* commands, the
cls.* and l2.* commands, and the routes, next hops and ECMP groups. -/

namespace Sys2Proof.RuleTables

open Sys2Proof.Machine
open Sys2Proof.NetworkTime (exec_of_cmd_ran exec_of_cmdLater_ran)

/-! ## Commands that begin, and commands that are transactions -/

/-- A command whose body leaves its answer to a later event has begun (R455). -/
theorem exec_of_cmdLater_begun {i c : Instr} {s t : State} {h : CmdHdr} {a : CmdAttr} {cs : List Bool}
    {body : State → State × Option Rsp} (he : exec i s = .next (s.cmdLater c h a cs body))
    (hr : s.refuseCmd h a = none) (hc : ∀ c ∈ cs, c = true) (hb : body s = (t, none)) :
    exec i s = .next (t.beginCmd h) := by
  rw [he, State.cmdLater_ran s c h a cs body hr hc, hb]; rfl

/-- An answer of OK counts a committed transaction at its coordinator (R269). -/
theorem countTx_ok (s : State) (shard : Nat) : s.countTx shard Rsp.ok.code = s.count (C.txCommit shard) := rfl

/-- A command on the tables whose body answers OK is counted as a committed transaction, its coordinator a free value
(R144, R604; log entry 48). -/
theorem exec_of_cmdTx_committed {i c : Instr} {s t : State} {h : CmdHdr} {cs : List Bool}
    {body : State → State × Rsp} (he : exec i s = .next (s.cmdTx c h cs body)) (hr : s.refuseCmd h attrNone = none)
    (hc : ∀ c ∈ cs, c = true) (hb : body s = (t, .ok)) :
    exec i s = .next ((t.draw.count (C.txCommit (t.freeVal % 32))).finish h .ok) := by
  refine exec_of_cmd_ran (t := t.draw.count (C.txCommit (t.freeVal % 32))) he hr hc ?_
  simp only [hb, ← countTx_ok]
  rfl

/-! ## The epoch swap -/

/-- epoch.swap is not busy outside a drain and a stack's swap, on a device alone or on the acting master (R164,
R562). -/
theorem swap_not_busy {s : State} (hdrain : s.getB F.clsEpoch_draining = false) (hhold : s.stk.swapHold = false)
    (hmaster : s.stkFormed = false ∨ s.actingMaster = true) :
    ¬ (s.getB F.clsEpoch_draining || s.stk.swapHold || (s.stkFormed && !s.actingMaster)) = true := by
  rcases hmaster with h | h <;> simp [hdrain, hhold, h]

/-- Settles O26: the swap's events by the instant or the count that each clause names, the commands by their bodies. A
swap asked while an earlier one waits is queued behind it (log entry 37). -/
theorem epochCommandsComplete : Obligations.EpochCommandsComplete := by
  refine ⟨?_, ?_, ?_, ?_, ?_, ?_⟩
  · intro s r rest hpend hdue
    show execEpochSwapInstant s = _
    simp only [execEpochSwapInstant, hpend, ge_iff_le, hdue, if_true]
  · intro s d hdrain hempty
    show execSwapComplete s = _
    simp only [execSwapComplete, hdrain, hempty, beq_self_eq_true, if_true]
  · intro s d hdrain hdue
    show execEpochDrainDeadline s = _
    simp only [execEpochDrainDeadline, hdrain, if_neg (Nat.not_lt.2 hdue)]
  · intro s h target hr htarget hdrain hhold hmaster hother
    refine exec_of_cmdLater_begun rfl hr (by simpa using htarget) ?_
    dsimp only
    rw [if_neg (swap_not_busy hdrain hhold hmaster), if_neg (by simpa using hother)]
  · intro s h target hr htarget hdrain hhold hmaster hsame
    refine exec_of_cmdLater_ran rfl hr (by simpa using htarget) ?_
    dsimp only
    rw [if_neg (swap_not_busy hdrain hhold hmaster), if_pos (by simpa using hsame)]
  · intro s h hr
    exact exec_of_cmd_ran rfl hr (by simp) rfl

/-! ## The em.* commands -/

/-- A new rule outside the draining epoch, with its locks free and a place in its buckets or the stash, is stored
(R142, R143). -/
theorem emInsert_placed {s t : State} {e : RuleEntry} {m : SMap RuleEntry} {stash : Bool}
    (hepoch : s.oldOnly e.ep0 e.ep1 = false) (hnew : s.emDup e.table e.key e.ep0 e.ep1 none = false)
    (hfree : s.conflict (ruleLocks s.cls.ruleSeed e) = none)
    (hplace : (emCuckoo s.cls.ruleSeed).place s.cls.em e = some (m, stash))
    (ht : t = if stash = true then ((s.setEm m).mendNew 0 s.cls.em m).stashUsed else (s.setEm m).mendNew 0 s.cls.em m) :
    s.emInsert e = (t, .ok) := by
  subst ht
  simp only [State.emInsert, hepoch, hnew, hfree, hplace, Bool.false_eq_true, if_false]

/-- An entry that is held, is not of the draining epoch alone and has its locks free is changed (R163, R259). -/
theorem emChange_found {s : State} {table epoch k : Nat} {key : List Nat} {e : RuleEntry}
    (f : State → Nat → RuleEntry → State × Rsp) (hfind : s.emFind table key epoch = some (k, e))
    (hepoch : s.oldOnly e.ep0 e.ep1 = false) (hfree : s.conflict (ruleLocks s.cls.ruleSeed e) = none) :
    s.emChange table key epoch f = f s k e := by
  simp only [State.emChange, hfind, hepoch, hfree, Bool.false_eq_true, if_false]

/-- Settles O54: insertion by `emInsert_placed`, the three changes by `emChange_found`. -/
theorem exactMatchCommandsComplete : Obligations.ExactMatchCommandsComplete := by
  refine ⟨?_, ?_, ?_, ?_, ?_, ?_⟩
  · intro s h table keyUnits wide hr htable hmin hmax hunused
    have hempty : ¬ (s.cls.em.any fun e => e.2.table == table) = true := by simpa using hunused
    exact exec_of_cmd_ran rfl hr (by simp [htable, hmin, hmax]) (if_neg hempty)
  · intro s h table key action data ep0 ep1 stash m hr hdecl hkey hmember haction hdata hepoch hnew e he hfree hplace t
      ht
    subst he
    exact exec_of_cmdTx_committed rfl hr (by simpa [hdecl, hkey, haction, hdata] using hmember)
      (emInsert_placed hepoch hnew hfree hplace ht)
  · intro s h table epoch k key action data e hr htable hep haction hfind hepoch hfree t ht
    subst ht
    exact exec_of_cmdTx_committed rfl hr (by simp [htable, hep, haction]) (emChange_found _ hfind hepoch hfree)
  · intro s h table epoch k key e hr htable hep hfind hepoch hfree t ht
    subst ht
    exact exec_of_cmdTx_committed rfl hr (by simp [htable, hep]) (emChange_found _ hfind hepoch hfree)
  · intro s h table epoch k key ep0 ep1 e hr htable hep hmember hfind hepoch hfree hnew t ht
    subst ht
    exact exec_of_cmdTx_committed rfl hr (by simpa [htable, hep] using hmember)
      ((emChange_found _ hfind hepoch hfree).trans (if_neg (by simp [hnew])))
  · intro s h table epoch k key clearHit e hr htable hep hfind
    exact exec_of_cmd_ran rfl hr (by simp [htable, hep]) (by simp only [hfind])

/-! ## The cls.* and l2.* commands -/

/-- The check of a flow profile: well formed, the heap within 4 GiB where the profile ages by timestamp, and at most one
sweep descriptor naming it where it ages in two passes (R36, R156, R218). -/
theorem profileSet_ok {s : State} {index : Nat} {words : List Nat} (hwords : flowProfileOk words = true)
    (hheap : pTimestamp words = true → s.heapBytes ≤ 2 ^ 32)
    (hdesc : pTwoPass words = true → (s.fst.descs.filter fun e => bitOf e.2 index).length < 2) :
    (flowProfileOk words && !(pTimestamp words && decide (s.heapBytes > 2 ^ 32))
      && !(pTwoPass words && decide ((s.fst.descs.filter fun e => bitOf e.2 index).length ≥ 2))) = true := by
  have hts : (pTimestamp words && decide (s.heapBytes > 2 ^ 32)) = false := by
    simpa only [Bool.and_eq_false_imp, decide_eq_false_iff_not, gt_iff_lt, Nat.not_lt] using hheap
  have htp : (pTwoPass words && decide ((s.fst.descs.filter fun e => bitOf e.2 index).length ≥ 2)) = false := by
    simpa only [Bool.and_eq_false_imp, decide_eq_false_iff_not, ge_iff_le, Nat.not_le] using hdesc
  rw [hwords, hts, htp]; rfl

/-- Neither the profile held nor, where none is valid, the one written is of the draining epoch alone (R163). -/
theorem profile_not_of_old_epoch {s : State} {old words : List Nat}
    (hold : pValid old = true → s.oldOnly (pEp0 old) (pEp1 old) = false)
    (hnew : pValid old = false → pValid words = true → s.oldOnly (pEp0 words) (pEp1 words) = false) :
    ¬ ((pValid old && s.oldOnly (pEp0 old) (pEp1 old)) ||
      (!pValid old && pValid words && s.oldOnly (pEp0 words) (pEp1 words))) = true := by
  cases hv : pValid old with
  | true => simp [hold hv]
  | false => simpa using hnew hv

/-- A profile without live records, or whose frozen fields stay, may be written (R157). -/
theorem profile_not_frozen {live : Nat} {old words : List Nat}
    (h : live = 0 ∨ frozenFields old = frozenFields words) :
    ¬ (decide (live > 0) && frozenFields old != frozenFields words) = true := by
  rcases h with h | h <;> simp [h]

/-- Settles O55: the conditions of each clause admit the command and choose the branch that stores. -/
theorem classifierCommandsComplete : Obligations.ClassifierCommandsComplete := by
  refine ⟨?_, ?_, ?_, ?_, ?_, ?_⟩
  · intro s h index word hr hindex hword hlow
    exact exec_of_cmd_ran rfl hr (by simpa [hindex, hlow] using hword) rfl
  · intro s h port vrf vlan unknownSa staticMove hr hport hvrf hvlan hsa hmove hex
    exact exec_of_cmd_ran rfl hr (by simpa [hport, hvlan, hsa, hmove] using hvrf) (if_neg (by simp [hex]))
  · intro s h index words old hr hindex hwords hheap hdesc hold hepOld hepNew hfrozen
    subst hold
    have hok := profileSet_ok hwords hheap hdesc
    exact exec_of_cmd_ran rfl hr
      (List.forall_mem_cons.2 ⟨by simpa using hindex, List.forall_mem_singleton.2 hok⟩)
      ((if_neg (profile_not_of_old_epoch hepOld hepNew)).trans (if_neg (profile_not_frozen hfrozen)))
  · intro s h vlan mac port isStatic stash m hr hvlan hmac hport hnew hplace t u hu ht
    subst ht hu
    exact exec_of_cmdTx_committed rfl hr (by simpa [hvlan, hport] using hmac) (by simp only [hnew, hplace])
  · intro s h vlan mac k e hr hvlan hmac hfind t ht
    subst ht
    exact exec_of_cmdTx_committed rfl hr (by simpa [hvlan] using hmac) (by simp only [hfind])
  · intro s h toHost ring holdoff rate ageTime sweepPeriod hr hring hholdoff hrate hage hage' hsweep hsweep' t ht
    subst ht
    exact exec_of_cmd_ran rfl hr (by simp [hring, hholdoff, hrate, hage, hage', hsweep, hsweep']) rfl

/-! ## Routes, next hops and ECMP groups -/

/-- The check of a fwd_op's code: next hop, ECMP group or drop (R147). -/
theorem fwdOpCode_ok {op : Nat} (hop : op ∈ [1, 2, 3]) : (op == 1 || op == 2 || op == 3) = true := by
  simpa [or_assoc] using hop

/-- Settles O56: each route is new or is found, and the tables have room, so that the body stores or removes it. -/
theorem routeCommandsComplete : Obligations.RouteCommandsComplete := by
  refine ⟨?_, ?_, ?_, ?_, ?_, ?_⟩
  · intro s h vrf addr fwdOp fwdTarget v6 stash m hr hvrf haddr hop hfwd hnew hplace t u hu ht
    subst ht hu
    have hunheld : ¬ (s.cls.hostRoutes.any fun e => e.2.vrf == vrf && e.2.v6 == v6 && e.2.addr == addr) = true := by
      simpa using hnew
    exact exec_of_cmdTx_committed rfl hr (by simpa [haddr, fwdOpCode_ok hop, hfwd] using hvrf)
      (by simp only [if_neg hunheld, hplace])
  · intro s h vrf addr plen fwdOp fwdTarget v6 hr hvrf haddr hzero hplen hop hfwd hnew hroom t ht
    subst ht
    have hunheld :
        ¬ (s.cls.lpm.any fun r => r.vrf == vrf && r.v6 == v6 && r.addr == addr && r.plen == plen) = true := by
      simpa using hnew
    exact exec_of_cmdTx_committed rfl hr (by simpa [haddr, hzero, hplen, fwdOpCode_ok hop, hfwd] using hvrf)
      ((if_neg hunheld).trans (if_neg (Nat.not_le.2 hroom)))
  · intro s h vrf addr plen v6 r hr hvrf haddr hplen hfind t ht
    subst ht
    exact exec_of_cmdTx_committed rfl hr (by simpa [haddr, hplen] using hvrf)
      (by simp only [Nat.reduceBEq, Bool.false_eq_true, if_false, hfind])
  · intro s h vrf addr k v6 r hr hvrf haddr hfind t ht
    subst ht
    exact exec_of_cmdTx_committed rfl hr (by simpa [haddr] using hvrf)
      (by simp only [beq_self_eq_true, if_true, hfind])
  · intro s h index port rewrite backup backupValid hr hindex hport hrewrite hbackup t ht
    subst ht
    exact exec_of_cmdTx_committed rfl hr (by simp [hindex, hport, hrewrite, hbackup]) rfl
  · intro s h group hashSel b members hr hgroup hhash hmin hmax hmembers hrun t ht
    subst ht
    exact exec_of_cmdTx_committed rfl hr (by simpa [hgroup, hhash, hmax] using ⟨hmin, hmembers⟩)
      (by simp only [hrun])

end Sys2Proof.RuleTables
end

section
/-! Proofs of the family of masked search (chapter 6): the msk.* commands. -/

namespace Sys2Proof.MaskedSearch

open Sys2Proof.Machine
open Sys2Proof.NetworkTime (exec_of_cmd_ran)
open Sys2Proof.RuleTables (exec_of_cmdTx_committed)

/-! ## Banks -/

/-- The check of a bank's width: 1, 2 or 4 units (R170). -/
theorem bankWidth_ok {width : Nat} (hw : width ∈ [1, 2, 4]) : (width == 1 || width == 2 || width == 4) = true := by
  simpa [or_assoc] using hw

/-- A width that stays, or a bank without valid entries, is no reason for E_BUSY (R170). -/
theorem bank_not_busy {s : State} {bank width : Nat}
    (h : width = (s.mskBank bank).width ∨ ∀ e ∈ s.msk.units, e.1 / 1024 = bank → e.2.valid = false) :
    ¬ (width != (s.mskBank bank).width && s.msk.units.any fun e => e.1 / 1024 == bank && e.2.valid) = true := by
  rcases h with hsame | hempty
  · simp [hsame]
  · have hnone : (s.msk.units.any fun e => e.1 / 1024 == bank && e.2.valid) = false := by simpa using hempty
    simp [hnone]

/-! ## Entries -/

/-- A valid entry that is not of the draining epoch alone and whose lock is free is changed (R180, R181, R259). -/
theorem mskChange_done {s : State} {bank index : Nat} (f : State → State) (hin : s.mskIn bank index = true)
    (hvalid : (s.mskAt (s.mskIndex bank index)).valid = true) (hepoch : s.mskFrozen bank index = false)
    (hfree : s.conflict [mskLock bank index] = none) : s.mskChange bank index f = (f s, .ok) := by
  simp only [State.mskChange, hin, hvalid, hepoch, hfree, Bool.and_self, Bool.not_true, Bool.false_eq_true, if_false]

/-- Settles O57: a write's own conditions, and `mskChange_done` for the three changes of an entry, lead each body to the
branch that stores. msk.read answers the shroud copies, as all pipelines share them (log entry 260). -/
theorem maskedSearchCommandsComplete : Obligations.MaskedSearchCommandsComplete := by
  refine ⟨?_, ?_, ?_, ?_, ?_, ?_, ?_, ?_, ?_⟩
  · intro s h bank width prio hr hbank hwidth hprio hbusy
    exact exec_of_cmd_ran rfl hr (by simp [hbank, bankWidth_ok hwidth, hprio]) (if_neg (bank_not_busy hbusy))
  · intro s h index words hr hindex hlen hwords hres
    exact exec_of_cmd_ran rfl hr (by simpa [hindex, hlen, hres] using hwords) rfl
  · intro s h bank index ep0 ep1 value mask action hr hbank hin hmember hvalue hmask haction hepoch hfree t ht
    subst ht
    exact exec_of_cmdTx_committed rfl hr (by simpa [hbank, hin, hvalue, hmask, haction] using hmember)
      (by simp only [hepoch, hfree, Bool.false_eq_true, if_false])
  · intro s h bank index action hr hbank haction hin hvalid hepoch hfree t ht
    subst ht
    exact exec_of_cmdTx_committed rfl hr (by simp [hbank, haction]) (mskChange_done _ hin hvalid hepoch hfree)
  · intro s h bank index ep0 ep1 hr hbank hmember hin hvalid hepoch hfree t ht
    subst ht
    exact exec_of_cmdTx_committed rfl hr (by simpa [hbank, hin] using hmember)
      (mskChange_done _ hin hvalid hepoch hfree)
  · intro s h bank index hr hbank hin hvalid hepoch hfree t ht
    subst ht
    exact exec_of_cmdTx_committed rfl hr (by simpa using hbank) (mskChange_done _ hin hvalid hepoch hfree)
  · intro s h bank index hr hbank hin
    exact exec_of_cmd_ran rfl hr (by simp [hbank, hin]) rfl
  · intro s h bank index hr hbank hin
    exact exec_of_cmd_ran rfl hr (by simp [hbank, hin]) rfl
  · intro s h scrubEn hr
    exact exec_of_cmd_ran rfl hr (by simp) rfl

end Sys2Proof.MaskedSearch
end

section
/-! Proofs of the family of the flow store (chapter 7): the flow.* commands with the store's settings, the events of the
flow programs, and the power failure's events with the restart of a shard. -/

namespace Sys2Proof.FlowStore

open Sys2Proof.Machine
open Sys2Proof.NetworkTime (exec_of_cmd_ran)
open Sys2Proof.RuleTables (exec_of_cmdLater_begun)

/-! ## Records -/

/-- A record's image is read from the heap and the lines alone. -/
theorem imageNow_congr {s t : State} (hheap : t.fst.heap = s.fst.heap) (hlines : t.fst.lines = s.fst.lines)
    (handle : Nat) : t.imageNow handle = s.imageNow handle := by
  simp only [State.imageNow, State.recNow, hheap, State.recLine_congr hlines]

/-- Updates taken from the queue leave a record's image as it is. -/
theorem imageNow_withUpdates (s : State) (us : List Update) (handle : Nat) :
    ({ s with fst := { s.fst with updates := us } } : State).imageNow handle = s.imageNow handle :=
  imageNow_congr rfl rfl handle

/-! ## The flow.* commands -/

/-- No masked word names a field that a record of the size lacks (R227). -/
theorem hotFields_exist {words : List Nat} {mask size : Nat}
    (hfields : ∀ i < 16, bitOf mask i = true →
      Nat.land (wordAt words i) (fieldMask size i) = wordAt words i ∧ fieldMask size i ≠ 0) :
    ¬ ((List.range 16).any fun i => bitOf mask i && Nat.land (wordAt words i) (fieldMask size i) != wordAt words i
      || bitOf mask i && fieldMask size i == 0) = true := by
  intro hany
  obtain ⟨i, hi, hbad⟩ := List.any_eq_true.1 hany
  cases hm : bitOf mask i with
  | false => simp [hm] at hbad
  | true =>
    obtain ⟨hin, hex⟩ := hfields i (List.mem_range.1 hi) hm
    rw [hm, Bool.true_and, Bool.true_and, hin, bne_self_eq_false, Bool.false_or, beq_iff_eq] at hbad
    exact hex hbad

/-- Settles O31: each command is admitted and its parameters hold, so that its body answers, or opens its transaction
and leaves the answer to the commit. -/
theorem flowCommandsComplete : Obligations.FlowCommandsComplete := by
  refine ⟨?_, ?_, ?_, ?_, ?_, ?_, ?_⟩
  · intro s s1 h flow handle ws hr hflow hlocal hstays hwrites
    refine exec_of_cmdLater_begun rfl hr ((firstBad_eq_none _).1 hflow) ?_
    simp only [hlocal, hstays, hwrites, Option.isSome_none, Bool.false_eq_true, if_false]
  · intro s h handle k key r hr hkey hfind hrec hlive
    exact exec_of_cmd_ran rfl hr (by simpa using hkey)
      (by simp only [hfind, hrec, hlive, Bool.false_eq_true, if_false, if_true])
  · intro s h handle key r hr hgood hrec hlive
    exact exec_of_cmd_ran rfl hr (by simp) (by simp only [hgood, hrec, hlive, if_true])
  · intro s h key words mask k hr hkey hmask hlen hwords hfind hfields
    refine exec_of_cmdLater_begun rfl hr (by simpa [hkey, hlen] using ⟨hmask, hwords⟩) ?_
    simp only [hfind]
    exact if_neg (hotFields_exist hfields)
  · intro s h key k hr hkey hlocal hfind
    refine exec_of_cmdLater_begun rfl hr (by simpa using hkey) ?_
    simp only [hlocal, hfind, Option.isSome_none, Bool.false_eq_true, if_false]
  · intro s h setupCap hr hmin hmax
    exact exec_of_cmd_ran rfl hr (by simp [hmin, hmax]) rfl
  · intro s h shard hr hshard
    exact exec_of_cmd_ran rfl hr (by simpa using hshard) rfl

/-! ## Restarts and the power failure -/

/-- Settles O44: the conditions of each clause choose one branch of the meaning of its event. The gasp is written when the
failure is asserted and committed later, a slot on persistent memory is prepared by its commit word alone, and before
firmware is ready no fault is raised (log entries 123 to 125). -/
theorem powerFailureEventsComplete : Obligations.PowerFailureEventsComplete := by
  refine ⟨?_, ?_, ?_, ?_, ?_, ?_, ?_, ?_⟩
  · intro s shard hshard
    show execShardRestart shard s = _
    rw [execShardRestart, if_neg (Nat.not_le.2 hshard)]
  · intro s shard hrestarts hsound
    show execShardRestartComplete shard s = _
    rw [execShardRestartComplete, if_neg (by simp [hrestarts, hsound])]
  · intro s u hfirst huntripped hpowered hu hready
    show execPwrfailAssert s = _
    subst hu
    rw [execPwrfailAssert, if_neg (by simp [hfirst, huntripped, hpowered])]
    simp only [hready, Bool.not_false, if_true]
  · intro s u v hfirst huntripped hpowered hu hready hv
    show execPwrfailAssert s = _
    subst hv hu
    rw [execPwrfailAssert, if_neg (by simp [hfirst, huntripped, hpowered])]
    simp only [hready, Bool.not_true, Bool.false_eq_true, if_false]
  · intro s hgasp hmagic hwritten hopen
    show execLastGaspCommit s = _
    exact congrArg _ (if_neg (by simp [hgasp, hmagic, hwritten, hopen]))
  · intro s t hfail hgasp
    show execPwrfailRelease s = _
    simp only [execPwrfailRelease, hfail, hgasp, Option.isNone_some, Bool.not_false, Bool.false_eq_true, if_false,
      if_true]
  · intro s u v t hfail hgasp hu hv
    show execPwrfailRelease s = _
    subst hv hu
    simp only [execPwrfailRelease, hfail, hgasp, Option.isNone_some, Bool.not_true, Bool.false_eq_true, if_false]
  · intro s hready hunfurled
    show execServiceSecond s = _
    rw [execServiceSecond, if_pos (by simp [hready, hunfurled])]

/-! ## The events of the flow programs -/

/-- The oldest eligible packet goes to the idle rig, and where it is not marked its run starts (R271, R279). -/
theorem dispatch_starts {t : State} {pipe id rig : Nat} {p : Pkt}
    (hfirst : (t.windowOf pipe).find? (fun e => t.chainFree e.1 e.2
      && !(decide ((t.atStage pipe .ackWait).length ≥ 64) && e.2.runs == 0)) = some (id, p))
    (hrig : t.idleRig pipe = some rig) (hunmarked : p.marked = false) :
    t.dispatch pipe = (({ t with rig := { t.rig with
      window := SMap.set t.rig.window pipe ((t.windowOf pipe).map Prod.fst |>.filter (· != id)) } } :
        State).startRun id rig p) := by
  simp only [State.dispatch, hfirst, hrig, hunmarked, Bool.false_eq_true, if_false]

/-- The call of the packet that waits in a rig returns, where its rule-table read meets no damage and the memory holds
nothing back (R155, R285, R387). -/
theorem callReturn_resumes {t s1 : State} {pipe rig id kind table : Nat} {ws tbl : List Nat} {hit : Bool} {p : Pkt}
    {r : RigRun} (wait : Nat)
    (hpkt : SMap.first? t.pk.pkts (fun _ p => p.pipe == pipe && p.stage == .rig
      && p.run.elim false fun r => r.rig == rig) = some (id, p))
    (hrun : p.run = some r) (hcall : r.call = some (kind, table, ws))
    (hread : kind ≠ 0 ∨ t.readsDamaged pipe (t.emReads table (callKey ws)) = false)
    (hresult : t.tableCall p kind table ws = some (s1, hit, tbl)) :
    t.callReturn pipe rig wait = (s1.count (C.rigTcallWait pipe) wait).resumeRun id p
      { r with call := none, hit := hit, tbl := tbl, cycles := r.cycles + wait, waited := r.waited + wait,
               results := r.results ++ [(hit, tbl)] } := by
  have hsound : (kind == 0 && t.readsDamaged pipe (t.emReads table (callKey ws))) = false := by
    rcases hread with h | h <;> simp [h]
  simp only [State.callReturn, hpkt, hrun, hcall, Option.bind_some, Option.map_some, hsound, hresult,
    Bool.false_eq_true, if_false]

/-- An update applied to its record, and its answer released where it says so. -/
def applyAndRelease (s : State) (u : Update) : State :=
  let t := s.applyUpdate u
  if u.release then (t.lowerInflight u.handle).endChain u.pipe u.handle else t

/-- An update of a good handle and of no setup, whose compared words hold where it has a comparison, is applied and
released, and a transition is acknowledged (R206, R283). -/
theorem exec_updateFlit_applied {s : State} {shard : Nat} {u : Update} {rest : List Update}
    (htake : s.takeUpdate shard s.fst.updates = some (u, rest)) (hserves : shard ∉ s.fst.restarting)
    (hgood : s.badHeap u.handle = none) (hsetup : u.setup = false)
    (hholds : u.transition = true → compareHolds (s.imageNow u.handle) u = true) :
    exec (.updateFlit shard) s = .next (
      let t := applyAndRelease { s with fst := { s.fst with updates := rest } } u
      if u.transition then { t with fst := { t.fst with acks := t.fst.acks ++ u.pkt.toList } } else t) := by
  have hgood' : ({ s with fst := { s.fst with updates := rest } } : State).badHeap u.handle = none :=
    (State.badHeap_congr rfl _).trans hgood
  have hcompared : (u.transition && !compareHolds (s.imageNow u.handle) u) = false := by
    cases ht : u.transition with
    | false => rfl
    | true => simp [hholds ht]
  show execUpdateFlit shard s = _
  simp only [execUpdateFlit, htake, List.contains_iff_mem, hserves, hgood', hsetup, imageNow_withUpdates, hcompared,
    Bool.false_eq_true, if_false]
  rfl

/-- A mismatch of a packet with fewer than three runs sets it back on the current image and puts it at the front of the
window, unless it is marked (R206, R283). -/
theorem exec_replayReply_rewinds {s t : State} {pipe id : Nat} {a : Answer} {rest : List (Nat × Nat × Answer)} {p : Pkt}
    (htake : takeReplay pipe s.fst.replays = some ((id, a), rest)) (hp : SMap.find? s.pk.pkts id = some p)
    (hruns : p.runs < 3) (hunmarked : p.marked = false)
    (ht : t = ((({ s with fst := { s.fst with replays := rest } } : State).modPkt id fun q =>
      { q with awaiting := false }).setChain pipe a.handle a.image).modPkt id
        (fun _ => rewound p (SMap.getD s.rig.saved id p) a)) :
    exec (.replayReply pipe) s = .next { t with rig := { t.rig with
      window := SMap.set t.rig.window pipe (id :: SMap.getD t.rig.window pipe []) } } := by
  show execReplayReply pipe s = _
  subst ht
  simp only [execReplayReply, htake, hp, ge_iff_le, if_neg (Nat.not_le.2 hruns), hunmarked, Bool.false_eq_true, if_false]
  rfl

/-- Settles O18: dispatch, table calls, updates and replays by the lemma of each, the rest by the branch that each
clause's conditions choose. A replay runs on the packet as first entered (log entry 58), and an upset is an operand of
the two events that fetch (log entry 270). -/
theorem flowProgramEventsComplete : Obligations.FlowProgramEventsComplete := by
  refine ⟨?_, ?_, ?_, ?_, ?_, ?_, ?_, ?_, ?_, ?_, ?_⟩
  · intro s t pipe id rig p upset ht hfirst hrig hunmarked
    subst ht
    exact congrArg _ (dispatch_starts hfirst hrig hunmarked)
  · intro s t s1 pipe rig wait id kind table ws tbl hit p r upset ht hpkt hrun hcall hread hresult
    subst ht
    exact congrArg _ (callReturn_resumes wait hpkt hrun hcall hread hresult)
  · intro s pipe r hrestart hruns
    show execRigRestartComplete pipe true s = _
    simp only [execRigRestartComplete, hrestart, hruns, Bool.false_eq_true, if_false, if_true]
  · intro s pipe r hrestart hruns
    show execRigRestartComplete pipe false s = _
    simp only [execRigRestartComplete, hrestart, hruns, Bool.false_eq_true, if_false]
  · intro s shard u rest htake hserves hgood hsetup hplain
    rw [exec_updateFlit_applied htake hserves hgood hsetup (by simp [hplain]), hplain]
    rfl
  · intro s shard id u rest htake hserves hgood hsetup htrans hpkt hholds
    rw [exec_updateFlit_applied htake hserves hgood hsetup fun _ => hholds, htrans, hpkt]
    rfl
  · intro s pipe id rest p htake hp
    show execTransitionAck pipe s = _
    simp only [execTransitionAck, htake, hp]
  · intro s pipe id a rest p htake hp hruns
    show execReplayReply pipe s = _
    simp only [execReplayReply, htake, hp, ge_iff_le, hruns, if_true]
  · intro s t pipe id a rest p htake hp hruns hunmarked ht
    exact exec_replayReply_rewinds htake hp hruns hunmarked ht
  · intro s pipe src id p hnext hfinished hsettled
    show execRigReorderRelease pipe src s = _
    simp only [execRigReorderRelease, hnext, hfinished, hsettled, bne_self_eq_false, Bool.false_eq_true, if_false]
    cases p.again <;> rfl
  · intro s pipe src id p hnext hfinished hawaits hroom
    show execRigReorderRelease pipe src s = _
    simp only [execRigReorderRelease, hnext, hfinished, hawaits, bne_self_eq_false, Bool.false_eq_true, if_false,
      if_true, ge_iff_le, if_neg (Nat.not_le.2 hroom)]

end Sys2Proof.FlowStore
end

section
/-! Proofs of the family of flow setup (chapter 8): the verdicts and timeouts of setups with the NAT pools, the record
pools, and the transactions. -/

namespace Sys2Proof.FlowSetup

open Sys2Proof.Machine
open Sys2Proof.NetworkTime (exec_of_cmd_ran)
open Sys2Proof.RuleTables (exec_of_cmdLater_begun)

/-! ## Setups and the NAT pools -/

/-- The check of a template: eight words of 32 bits whose initial timeout class is not 3 (R234). -/
theorem template_ok {words : List Nat} (hlen : words.length = 8) (hwords : ∀ w ∈ words, w < 2 ^ 32)
    (hclass : tInitTclass words ≠ 3) :
    (words.length == 8 && (words.all fun w => decide (w < 2 ^ 32)) && tInitTclass words != 3) = true := by
  have hall : (words.all fun w => decide (w < 2 ^ 32)) = true :=
    List.all_eq_true.2 fun w hw => decide_eq_true (hwords w hw)
  rw [hlen, hall, bne_iff_ne.2 hclass]; rfl

/-- Settles O28: the events by the entry or the port that each clause names, the commands by their parameters, which
hold. -/
theorem setupAndNatComplete : Obligations.SetupAndNatComplete := by
  refine ⟨?_, ?_, ?_, ?_, ?_, ?_, ?_, ?_, ?_⟩
  · intro s shard place thread e hentry
    show execFwSetupVerdict shard place 1 thread none s = _
    simp only [execFwSetupVerdict, hentry, Option.elim_some]
  · intro s shard place thread e hentry
    show execFwSetupVerdict shard place 2 thread none s = _
    simp only [execFwSetupVerdict, hentry, Option.elim_some]
  · intro s shard place e hentry hdue
    show execFwSetupTimeout shard place s = _
    simp only [execFwSetupTimeout, hentry, if_neg (Nat.not_lt.2 hdue)]
  · intro s shard e rest hholds hdue hfree
    show execNatHoldRelease shard s = _
    simp only [execNatHoldRelease, hholds, if_neg (Nat.not_lt.2 hdue), hfree]
  · intro s h index words hr hindex hlen hwords hclass
    exact exec_of_cmd_ran rfl hr (List.forall_mem_cons.2
      ⟨decide_eq_true hindex, List.forall_mem_singleton.2 (template_ok hlen hwords hclass)⟩) rfl
  · intro s h timeout hr hmin hmax
    exact exec_of_cmd_ran rfl hr (by simp [hmin, hmax]) rfl
  · intro s h pool insideBase insideShift subCount outsideBase addrCount portLo blockSize m pfx64 len64 hr hpool
      hinside hshift hsubMin hsubMax houtside haddrMin haddrMax hportMin hportMax hblock hmMin hmMax hports hblocks
      hpfx hlen hfits hlive
    refine exec_of_cmd_ran rfl hr ?_ (if_neg (by simp [hlive]))
    simp only [List.forall_mem_cons, Bool.and_eq_true, decide_eq_true_eq, List.contains_iff_mem]
    exact ⟨hpool, hinside, hshift, ⟨hsubMin, hsubMax⟩, houtside, ⟨haddrMin, haddrMax⟩, ⟨hportMin, hportMax⟩, hblock,
      ⟨⟨⟨hmMin, hmMax⟩, hports⟩, hblocks⟩, hpfx, hlen, hfits, by simp⟩
  · intro s h pool sub p hr hpool hfind hsub
    refine exec_of_cmd_ran rfl hr ?_ ?_
    · cases sub with
      | none => simp [hpool, SMap.has, hfind]
      | some k => simp [hpool, SMap.has, hfind, hsub k rfl]
    · cases sub <;> simp only [hfind, Option.elim_some, Option.elim_none]
  · intro s h seconds hr hseconds
    exact exec_of_cmd_ran rfl hr (by simpa using hseconds) rfl

/-! ## The record pools -/

/-- The last check of a heap's sizes: the units fit a shard's slice, and a heap beyond 4 GiB has no valid profile that
ages by timestamp (R218, R249). -/
theorem heapConfig_ok {s : State} {units : Nat} (hunits : units ≤ 2 ^ 24)
    (hage : 32 * 64 * units ≤ 2 ^ 32 ∨
      ∀ e ∈ s.cls.flowProf, bitOf (wordAt e.2 7) 31 = true → bitOf (wordAt e.2 7) 21 = true) :
    (decide (units ≤ 2 ^ 24) && !(decide (32 * 64 * units > 2 ^ 32) && s.cls.flowProf.any fun e =>
      bitOf (wordAt e.2 7) 31 && !bitOf (wordAt e.2 7) 21)) = true := by
  rw [decide_eq_true hunits, Bool.true_and, Bool.not_eq_true', Bool.and_eq_false_iff]
  rcases hage with hsmall | hprofs
  · exact .inl (decide_eq_false (Nat.not_lt.2 hsmall))
  · refine .inr (List.any_eq_false.2 fun e he => ?_)
    simpa using hprofs e he

/-- Shards 0 to 31 have a cache of each of the three heap pools (R251). -/
theorem cache_exists {shard pool : Nat} (hshard : shard < 32) (hpool : pool ≤ 2) :
    ¬ (decide (shard ≥ 32) || decide (pool > 2)) = true := by
  simp [hshard, hpool]

/-- Settles O29: the events by the lengths and bits that each clause names, the commands by their parameters, which hold,
with no live record and no control buffer in use. -/
theorem recordPoolsComplete : Obligations.RecordPoolsComplete := by
  refine ⟨fun _ _ _ => rfl, ?_, ?_, ?_, fun _ _ _ _ => rfl, fun _ _ _ _ => rfl, ?_, ?_, ?_⟩
  · intro s shard pool hshard hpool hlow
    show execBpmBatchRefill shard pool s = _
    rw [execBpmBatchRefill, if_neg (cache_exists hshard hpool), if_pos hlow]
  · intro s shard pool hshard hpool hhigh
    show execBpmBatchRefill shard pool s = _
    rw [execBpmBatchRefill, if_neg (cache_exists hshard hpool), if_neg (by omega), if_pos hhigh]
  · intro s pool hpool hrecall
    show execBpmRecallComplete pool s = _
    rw [execBpmRecallComplete, if_neg (by simp [hrecall, hpool])]
  · intro s h n64 n128 n256 hr hunits hage hlive
    refine exec_of_cmd_ran rfl hr ?_ ?_
    · exact List.forall_mem_cons.2 ⟨decide_eq_true (by omega), List.forall_mem_cons.2
        ⟨decide_eq_true (by omega), List.forall_mem_singleton.2 (heapConfig_ok hunits hage)⟩⟩
    · simp only [hlive, beq_iff_eq, Bool.false_eq_true, if_false]
  · intro s h c0 c1 c2 c3 hr hsize hunused
    refine exec_of_cmd_ran rfl hr (List.forall_mem_singleton.2 (decide_eq_true hsize)) ?_
    simp only [hunused, List.isEmpty_nil, Bool.not_true, beq_iff_eq, Bool.false_eq_true, if_false]
  · intro s h hr
    exact exec_of_cmd_ran rfl hr (by simp) rfl

/-! ## Transactions -/

/-- Descriptors that all lie on this device are kept whole. -/
theorem filter_descOwner_isNone {s : State} {descs : List (List Nat)} (hown : ∀ d ∈ descs, s.descOwner d = none) :
    (descs.filter fun d => (s.descOwner d).isNone) = descs :=
  List.filter_eq_self.2 fun d hd => Option.isNone_iff_eq_none.2 (hown d hd)

/-- A transaction of firmware or host that waits neither for a delete's answers, nor for another member's COMMIT, nor for
votes, reaches its commit point (R227, R257, R557). -/
theorem commitPoint_not_held {s : State} {t : Tx} (hcls : 2 ≤ t.cls) (hwaits : s.deleteWaits t = false)
    (horigin : t.origin = none) (hvotes : ∀ e ∈ t.peers, e.2 ≠ 0) :
    ¬ (t.cls == 0 || t.cls == 1 || s.deleteWaits t || t.origin.isSome || t.peers.any fun e => e.2 == 0) = true := by
  have hvoted : (t.peers.any fun e => e.2 == 0) = false := List.any_eq_false.2 fun e he => by simpa using hvotes e he
  have h0 : (t.cls == 0) = false := beq_false_of_ne (by omega)
  have h1 : (t.cls == 1) = false := beq_false_of_ne (by omega)
  rw [hvoted, h0, h1, hwaits, horigin]; decide

/-- The prepare of a transaction that waits or is prepared, has locks and no debug hold, times out 15,000 cycles after
its start (R262, R263). -/
theorem prepare_timed_out {s : State} {t : Tx} (hphase : t.phase = .waiting ∨ t.phase = .prepared) (hlocks : t.locks ≠ [])
    (hheld : t.held = false) (hdue : t.start + 15000 ≤ s.cycle) :
    ¬ ((t.phase != .waiting && t.phase != .prepared) || t.locks.isEmpty || t.held ||
      decide (s.cycle < t.start + 15000)) = true := by
  have hphase' : (t.phase != .waiting && t.phase != .prepared) = false := by
    rcases hphase with h | h <;> rw [h] <;> rfl
  simp [hphase', hlocks, hheld, hdue]

/-- Settles O30: the events of a transaction by its phase, class and locks, the commands by the number that the mailbox
has open. -/
theorem transactionCommandsComplete : Obligations.TransactionCommandsComplete := by
  refine ⟨?_, ?_, fun _ _ _ => rfl, fun _ _ => rfl, ?_, ?_, ?_, ?_, ?_, ?_⟩
  · intro s tx t hfind hready
    have hgoes : ¬ (t.phase == .opened && s.deleteWaits t) = true := by
      rcases hready with h | h <;> simp [h]
    show execTxPrepare tx s = _
    simp only [execTxPrepare, hfind, if_neg hgoes]
  · intro s tx t hfind hcls hwaits horigin hvotes
    show execTxCommitPoint tx s = _
    simp only [execTxCommitPoint, hfind, if_neg (commitPoint_not_held hcls hwaits horigin hvotes)]
  · intro s tx t hfind hphase hlocks hheld hdue hfault
    show execTxPrepareTimeout tx s = _
    simp only [execTxPrepareTimeout, hfind, if_neg (prepare_timed_out hphase hlocks hheld hdue), hfault,
      Bool.false_eq_true, if_false]
  · intro s core hcore
    show execGenerationFence core s = _
    rw [execGenerationFence, if_neg (Nat.not_le.2 hcore)]
  · intro s h hr hroom
    exact exec_of_cmd_ran rfl hr (by simp) (if_neg (Nat.not_le.2 hroom))
  · intro s h tx t descs hr hopen hdescs
    refine exec_of_cmd_ran rfl hr (by simp) ?_
    simp only [hopen, List.all_eq_true.2 hdescs, Bool.not_true, Bool.false_eq_true, if_false]
  · intro s h tx t hr hopen
    exact exec_of_cmd_ran rfl hr (by simp) (by simp only [hopen])
  · intro s s2 h tx coord rest t ws hr hopen hspan hown hexpand hcoord hfits
    refine exec_of_cmdLater_begun rfl hr (by simp) ?_
    simp only [hopen, hspan, filter_descOwner_isNone hown, hexpand, hcoord, hfits, List.any_nil, List.map_nil,
      Bool.not_true, Bool.or_false, Bool.false_eq_true, if_false]

end Sys2Proof.FlowSetup
end

section
/-! Proofs of the family of the rigs (chapter 9): the rig.*, pol.* and lb.* commands. -/

namespace Sys2Proof.Rigs

open Sys2Proof.Machine
open Sys2Proof.NetworkTime (exec_of_cmd_ran)

/-! ## The microcode -/

/-- A load is not busy while no swap drains and no contained restart runs (R290). -/
theorem rigLoad_not_busy {s : State} (hdrain : s.getB F.clsEpoch_draining = false) (hrun : s.rig.restarts = []) :
    ¬ (s.getB F.clsEpoch_draining || !s.rig.restarts.isEmpty) = true := by
  simp [hdrain, hrun]

/-- A signature counts under the key of fuse slot 0, and under that of slot 1 where the slot is programmed (R289). -/
theorem rigKey_known {s : State} {key : Nat} (hkey : key = 1 ∨ key = 2 ∧ s.boot.fuses.slot1 = true) :
    ¬ (!(key == 1 || (key == 2 && s.boot.fuses.slot1))) = true := by
  rcases hkey with h | ⟨h, hslot⟩
  · simp [h]
  · simp [h, hslot]

/-- An entry point may change where neither the valid entry that stands nor the valid one that would come belongs to the
old epoch alone (R163, R288). -/
theorem rigEntry_not_frozen {s : State} {valid standing ep0 ep1 old0 old1 : Bool}
    (hstanding : standing = true → s.oldOnly old0 old1 = false)
    (hcoming : standing = false → valid = true → s.oldOnly ep0 ep1 = false) :
    ¬ ((standing && s.oldOnly old0 old1) || (!standing && valid && s.oldOnly ep0 ep1)) = true := by
  cases standing with
  | true => simp [hstanding rfl]
  | false => simpa using hcoming rfl

/-! ## The commands -/

/-- Settles O58: each command is admitted and its parameters hold, and nothing stands against its body. The golden copy
takes the entry-point table with the load (log entry 268); the place and the slots of a pool's table are those of log
entry 60. -/
theorem programCommandsComplete : Obligations.ProgramCommandsComplete := by
  refine ⟨?_, ?_, ?_, ?_, ?_, ?_, ?_, ?_⟩
  · intro s h image key im hr hdrain hrun hkey himage
    refine exec_of_cmd_ran rfl hr (by simp) ?_
    simp only [if_neg (rigLoad_not_busy hdrain hrun), if_neg (rigKey_known hkey), himage]
  · intro s h entry limit w0 w1 valid ep0 ep1 m hr hentry hlimit hold hstanding hcoming hm
    subst hm
    refine exec_of_cmd_ran rfl hr (by simp [hentry, hlimit]) ?_
    simp only [hold, if_neg (rigEntry_not_frozen hstanding hcoming)]
  · intro s h hr
    exact exec_of_cmd_ran rfl hr (by simp) rfl
  · intro s h first rows hr hfirst hfits hrows
    exact exec_of_cmd_ran rfl hr (by simpa using ⟨hfirst, hfits, hrows⟩) rfl
  · intro s h first rows hr hfirst hfits hrows
    exact exec_of_cmd_ran rfl hr (by simpa using ⟨hfirst, hfits, hrows⟩) rfl
  · intro s h index cir pir cbs pbs aware hr hindex hcir hpir hcbs hpbs
    exact exec_of_cmd_ran rfl hr (by simpa using ⟨hindex, hcir, hpir, hcbs, hpbs⟩) rfl
  · intro s h pool seed base backends hr hpool hseed hmin hmax honce hin hplace hnew t ht
    refine exec_of_cmd_ran rfl hr ?_ ?_
    · simpa using ⟨hpool, hseed, ⟨⟨hmin, hmax⟩, honce⟩, hin⟩
    · simp only [hplace, hnew, Option.elim_none, ← ht]
  · intro s h backend address port state hr hbackend haddress hport hstate
    exact exec_of_cmd_ran rfl hr (by simpa using ⟨hbackend, haddress, hport, hstate⟩) rfl

end Sys2Proof.Rigs
end

section
/-! Proofs of the family of queues and fabric (chapter 10): the fabric's events, and the iqm.*, repl.*, mirror.* and smp.*
commands. -/

namespace Sys2Proof.QueuesFabric

open Sys2Proof.Machine
open Sys2Proof.NetworkTime (exec_of_cmd_ran)

/-! ## The fabric's events -/

/-- A port may get a grant while its link is up, no cut-through frame holds it and its window is not full (R317, R323). -/
theorem grant_not_held {s : State} {port : Nat} (hup : s.linkUp port = true) (hfree : port ∉ s.pk.reserved)
    (hwindow : (s.examinePort port).outstanding port (fun _ => true) < (s.examinePort port).window port) :
    ¬ (!s.linkUp port || s.pk.reserved.contains port ||
      decide ((s.examinePort port).outstanding port (fun _ => true) ≥ (s.examinePort port).window port)) = true := by
  simp [hup, hfree, hwindow]

/-- Where the class is chosen and a pipeline of it is next in turn, the grant goes to that pipeline (R316, R317). -/
theorem exec_grantIssue_grants {s s1 : State} {port c n : Nat} (hup : s.linkUp port = true) (hfree : port ∉ s.pk.reserved)
    (hwindow : (s.examinePort port).outstanding port (fun _ => true) < (s.examinePort port).window port)
    (hcls : (s.examinePort port).grantClass port = (s1, some c))
    (hturn : (((List.range 32).map fun i => (SMap.getD s1.pk.grantRr (8 * port + c) 0 + i) % 32).find? fun n =>
      s1.pk.backlog.contains (voqKey n port c)) = some n) :
    exec (.grantIssue port) s = .next { s1 with pk := { s1.pk with
      grants := s1.pk.grants ++ [⟨n, port, c, 2048⟩],
      credits := SMap.update 0 s1.pk.credits (voqKey n port c) (· + 2048),
      grantRr := SMap.put 0 s1.pk.grantRr (8 * port + c) ((n + 1) % 32) } } := by
  show execGrantIssue port s = _
  simp only [execGrantIssue, if_neg (grant_not_held hup hfree hwindow), hcls, hturn]

/-- A cell of a copy and a packet that are held lands where the buffer and the bridge have room and the cell is good
(R319, R321, R341). -/
theorem exec_cellLanding_lands {s : State} {egress place cid : Nat} {c : Copy} {p : Pkt}
    (hplace : (s.nextInput egress)[place]? = some (cid, c)) (hbuffer : s.landed egress < 1024)
    (hbridge : s.bridgeRoom c p = true) (hcopy : SMap.find? s.pk.copies cid = some c)
    (hpkt : SMap.find? s.pk.pkts c.pkt = some p) (hgood : c.landed ∉ p.badCells) :
    exec (.cellLanding egress place none) s = .next (({ s with pk := { s.pk with
      xbarRr := SMap.put 0 s.pk.xbarRr egress ((c.pipe + 1) % 32) } } : State).landCell cid c) := by
  have hgood' : p.badCells.contains c.landed = false := by simpa using hgood
  show execCellLanding egress place none s = _
  simp only [execCellLanding, hplace, ge_iff_le, if_neg (Nat.not_le.2 hbuffer), hpkt, Option.elim_some, hbridge,
    Bool.not_true, Bool.false_eq_true, if_false, Option.elim_none, hcopy, hgood']

/-- Settles O19: each message is the one that its taking function names, a grant by `exec_grantIssue_grants`, a cell by
`exec_cellLanding_lands`, the rest by the branch that each clause's conditions choose. -/
theorem fabricEventsComplete : Obligations.FabricEventsComplete := by
  refine ⟨?_, ?_, fun _ _ _ _ _ => exec_grantIssue_grants, ?_, ?_, ?_, fun _ _ _ _ _ _ => exec_cellLanding_lands, ?_, ?_⟩
  · intro s egress m rest htake
    show execVoqReq egress s = _
    simp only [execVoqReq, htake]
  · intro s u egress m rest htake hu
    show execVoqEmpty egress s = _
    simp only [execVoqEmpty, htake, ← hu]
  · intro s pipe place m rest err htake
    show execGrantArrival pipe place err s = _
    simp only [execGrantArrival, htake]
  · intro s u port cid m c hturn hu hcopy
    subst hu
    show execCtRequest port s = _
    simp only [execCtRequest, hturn, hcopy]
  · intro s pipe cid m rest c htake hcopy
    show execCtDeny pipe s = _
    simp only [execCtDeny, htake, hcopy]
  · intro s pipe hscan
    show execHeadScan pipe s = _
    simp only [execHeadScan, hscan, if_true]
  · intro s pipe hrestarts
    show execQmRestartComplete pipe s = _
    simp only [execQmRestartComplete, List.contains_iff_mem.2 hrestarts, if_true]

/-! ## The commands -/

/-- A class map of a port names one of the eight classes for each of the eight priorities (R308). -/
theorem pcpMap_ok {pcpMap : List Nat} (hlen : pcpMap.length = 8) (hcls : ∀ c ∈ pcpMap, c < 8) :
    (pcpMap.length == 8 && pcpMap.all fun c => decide (c < 8)) = true := by
  simpa [hlen] using hcls

/-- The members of a replication group: 1 to 256, each with a port, a rewrite entry and, where one is given, a class
in range (R325). -/
theorem groupMembers_ok {members : List (Nat × Nat × Option Nat)} (hmin : 1 ≤ members.length)
    (hmax : members.length ≤ 256) (hmembers : ∀ m ∈ members, m.1 < 256 ∧ m.2.1 < 2 ^ 18 ∧ ∀ c, m.2.2 = some c → c < 8) :
    (decide (1 ≤ members.length) && decide (members.length ≤ 256) && members.all fun m =>
      decide (m.1 < 256) && decide (m.2.1 < 2 ^ 18) && m.2.2.elim true fun c => decide (c < 8)) = true := by
  have hall : (members.all fun m =>
      decide (m.1 < 256) && decide (m.2.1 < 2 ^ 18) && m.2.2.elim true fun c => decide (c < 8)) = true := by
    refine List.all_eq_true.2 fun m hm => ?_
    obtain ⟨hport, hrewrite, hclass⟩ := hmembers m hm
    rw [decide_eq_true hport, decide_eq_true hrewrite]
    cases hc : m.2.2 with
    | none => rfl
    | some c => exact decide_eq_true (hclass c hc)
  rw [decide_eq_true hmin, decide_eq_true hmax, hall]; rfl

/-- A port that exists or is the port of a stack link may be configured. -/
theorem port_or_link {s : State} {port : Nat} (h : s.portExists port = true ∨ (s.linkOfPort port).isSome = true) :
    ¬ (!s.portExists port && (s.linkOfPort port).isNone) = true := by
  rcases h with h | h
  · simp [h]
  · simp [Option.isNone_eq_false_iff.2 h]

/-- Settles O59: each command is admitted, its parameters hold and nothing stands against its body. -/
theorem queueCommandsComplete : Obligations.QueueCommandsComplete := by
  refine ⟨?_, ?_, ?_, ?_, ?_, ?_, ?_, ?_, ?_⟩
  · intro s h profile cls minCells alpha maxCells yellow red ageLimit hr hprofile hcls hcells halpha hmaxLo hmaxHi hyellow
      hred hageLo hageHi t ht hfit
    refine exec_of_cmd_ran rfl hr ?_ ?_
    · simpa using ⟨hprofile, hcls, hcells, halpha, ⟨hmaxLo, hmaxHi⟩, hyellow, hred, hageLo, hageHi⟩
    · simp only [← ht, hfit, if_true]
  · intro s h port profile defClass sampleN pcpMap inSession egSession hr hport hprofile hlen hmap hdef hin heg hsample
      hexists t ht hfit
    refine exec_of_cmd_ran rfl hr ?_ ?_
    · simpa using ⟨hport, hprofile, ⟨hlen, hmap⟩, hdef, hin, heg, hsample⟩
    · simp only [if_neg (port_or_link hexists), ← ht, hfit, if_true]
  · intro s h arrivalReserve mcReserve mirrorMax copyRate sampleLen ctEn hr hrateLo hrateHi hlenLo hlenHi t ht hfit
    refine exec_of_cmd_ran rfl hr (by simp [hrateLo, hrateHi, hlenLo, hlenHi]) ?_
    simp only [← ht, hfit, Bool.not_true, Bool.false_eq_true, if_false]
  · intro s h index ring trapLen toCriod hr hindex hring hlo hhi
    exact exec_of_cmd_ran rfl hr (by simp [hindex, hring, hlo, hhi]) rfl
  · intro s h pipe port cls hr hpipe hport hcls hempty
    exact exec_of_cmd_ran rfl hr (by simp [hpipe, hport, hcls]) (by simp only [hempty])
  · intro s h pipe port cls id p rest hr hpipe hport hcls hhead
    exact exec_of_cmd_ran rfl hr (by simp [hpipe, hport, hcls]) (by simp only [hhead])
  · intro s h group prune members hr hgroup hmin hmax hmembers hfits
    refine exec_of_cmd_ran rfl hr ?_ (if_neg (Nat.not_lt.2 hfits))
    exact List.forall_mem_cons.2 ⟨decide_eq_true hgroup, List.forall_mem_cons.2
      ⟨rfl, List.forall_mem_singleton.2 (groupMembers_ok hmin hmax hmembers)⟩⟩
  · intro s h session m hr hsession hdest hport hcls hring htrunc hsrc hdst hdscp httl hhop
    refine exec_of_cmd_ran rfl hr ?_ rfl
    simpa using ⟨hsession, hdest, hport, hcls, hring, htrunc, hsrc, hdst, hdscp, httl, hhop⟩
  · intro s h profile n hr hprofile hn
    exact exec_of_cmd_ran rfl hr (by simpa using ⟨hprofile, hn⟩) rfl

end Sys2Proof.QueuesFabric
end

section
/-! Proofs of the step, the interrupts (chapter 14) and the saturation of the counters (chapter 16). -/

namespace Sys2Proof.IrqAndCounters

open Sys2Proof.Machine

/-! ## The step -/

/-- Settles O1: the three branches of `step`. -/
theorem stepRunsFront : Obligations.StepRunsFront := by
  refine ⟨?_, ?_, ?_⟩
  · intro s c rest h
    simp only [step, h, State.dropFront, List.drop_succ_cons, List.drop_zero]
  · intro s c rest h ht
    simp only [step, h, ht]
  · intro s h ht
    simp only [step, h, ht]

/-! ## Interrupts -/

/-- A bit of a register's word reads as put, and the other bits as before. -/
theorem bitOf_putBit (w : BitVec 32) (b j : Nat) (v : Bool) (hj : j < 32) :
    bitOf (BitVec.ofNat 32 (putBit w.toNat b v)).toNat j = if j = b then v else bitOf w.toNat j := by
  rw [putBit_eq_withField, bitOf_eq, bitOf_eq, withField_testBit w b b (b2n v) j (Nat.le_refl b) hj]
  by_cases hjb : j = b
  · subst hjb
    cases v <;> simp [b2n]
  · rw [if_neg (by omega), if_neg hjb]

/-- The bits of a mask taken out of a register's word read 0, and the others as before. -/
theorem bitOf_subLand (w : BitVec 32) (m j : Nat) (hj : j < 32) :
    bitOf (BitVec.ofNat 32 (w.toNat - Nat.land w.toNat m)).toNat j = (bitOf w.toNat j && !bitOf m j) := by
  rw [bitOf_eq, bitOf_eq, bitOf_eq, BitVec.toNat_ofNat, Nat.testBit_mod_two_pow, decide_eq_true hj, Bool.true_and,
    subLand_testBit]

/-- SYS_IRQ_STATUS reads the word written, and every other register as before. -/
theorem rd_of_wrIrqStatus {s : State} (h : s.Inv) (w : BitVec 32) :
    (s.wr .sysIrqStatus 0 w).rd .sysIrqStatus 0 = w ∧
      (s.wr .sysIrqStatus 0 w).getF F.sysIrqMask_intnEn = s.getF F.sysIrqMask_intnEn ∧
      (s.wr .sysIrqStatus 0 w).getB F.sysCtrl_intnTest = s.getB F.sysCtrl_intnTest ∧
      (s.wr .sysIrqStatus 0 w).getB F.pciStatus_d3hot = s.getB F.pciStatus_d3hot := by
  simp [State.getF, State.getB, State.rd_wr _ _ _ _ _ _ h.regs.1]

theorem rd_congr {s t : State} (h : t.regs = s.regs) (r : Reg) (i : Nat) : t.rd r i = s.rd r i := by
  unfold State.rd; rw [h]

theorem getF_congr {s t : State} (h : t.regs = s.regs) (f : Fld) (i : Nat) : t.getF f i = s.getF f i := by
  unfold State.getF; rw [rd_congr h]

theorem getB_congr {s t : State} (h : t.regs = s.regs) (f : Fld) (i : Nat) : t.getB f i = s.getB f i := by
  unfold State.getB; rw [getF_congr h]

/-- INT_N's level after it is brought up to date (R466). -/
theorem intN_updateIntN (s : State) : s.updateIntN.host.intN = true ↔
    Nat.land (s.rd .sysIrqStatus 0).toNat (s.getF F.sysIrqMask_intnEn) ≠ 0 ∨ s.getB F.sysCtrl_intnTest = true := by
  simp [State.updateIntN]

theorem out_raiseVector (s : State) (v : Nat) :
    (s.raiseVector v).out = if s.getB F.pciStatus_d3hot = false then .msi v :: s.out else s.out := by
  unfold State.raiseVector
  cases s.getB F.pciStatus_d3hot <;> rfl

/-- The state after the word of SYS_IRQ_STATUS is written and INT_N brought up to date. -/
def irqWritten (s : State) (w : BitVec 32) : State := (s.wr .sysIrqStatus 0 w).updateIntN

theorem irqWritten_regs (s : State) (w : BitVec 32) : (irqWritten s w).regs = (s.wr .sysIrqStatus 0 w).regs := rfl

theorem irqWritten_out (s : State) (w : BitVec 32) : (irqWritten s w).out = s.out := rfl

/-- INT_N after the status word is written: from the new word, the mask and the board test. -/
theorem irqWritten_intN {s : State} (h : s.Inv) (w : BitVec 32) : (irqWritten s w).host.intN = true ↔
    Nat.land w.toNat (s.getF F.sysIrqMask_intnEn) ≠ 0 ∨ s.getB F.sysCtrl_intnTest = true := by
  obtain ⟨hword, hmask, htest, -⟩ := rd_of_wrIrqStatus h w
  rw [irqWritten, intN_updateIntN, hword, hmask, htest]

theorem raiseIrq_eq (s : State) (b : Nat) : s.raiseIrq b =
    if (bitOf (s.getF F.sysIrqMask_msixEn) b && !bitOf (s.rd .sysIrqStatus 0).toNat b) = true then
      (irqWritten s (BitVec.ofNat 32 (putBit (s.rd .sysIrqStatus 0).toNat b true))).raiseVector 9
    else irqWritten s (BitVec.ofNat 32 (putBit (s.rd .sysIrqStatus 0).toNat b true)) := rfl

/-- The vector is sent or not: registers and INT_N are those of the written status word. -/
theorem raiseIrq_regs_host (s : State) (b : Nat) :
    (s.raiseIrq b).regs = (irqWritten s (BitVec.ofNat 32 (putBit (s.rd .sysIrqStatus 0).toNat b true))).regs ∧
      (s.raiseIrq b).host = (irqWritten s (BitVec.ofNat 32 (putBit (s.rd .sysIrqStatus 0).toNat b true))).host := by
  rw [raiseIrq_eq]; split <;> simp

theorem raiseIrq_rd {s : State} (h : s.Inv) (b : Nat) :
    (s.raiseIrq b).rd .sysIrqStatus 0 = BitVec.ofNat 32 (putBit (s.rd .sysIrqStatus 0).toNat b true) := by
  rw [rd_congr (raiseIrq_regs_host s b).1, rd_congr (irqWritten_regs _ _)]
  exact (rd_of_wrIrqStatus h _).1

theorem raiseIrq_out {s : State} (h : s.Inv) (b : Nat) : (s.raiseIrq b).out =
    if bitOf (s.getF F.sysIrqMask_msixEn) b = true ∧ bitOf (s.rd .sysIrqStatus 0).toNat b = false ∧
      s.getB F.pciStatus_d3hot = false then .msi 9 :: s.out else s.out := by
  have hd3 (w : BitVec 32) : (irqWritten s w).getB F.pciStatus_d3hot = s.getB F.pciStatus_d3hot := by
    rw [getB_congr (irqWritten_regs s w)]
    exact (rd_of_wrIrqStatus h w).2.2.2
  rw [raiseIrq_eq]
  split
  · rename_i hsend
    have hboth : bitOf (s.getF F.sysIrqMask_msixEn) b = true ∧ bitOf (s.rd .sysIrqStatus 0).toNat b = false := by
      simpa using hsend
    rw [out_raiseVector, hd3, irqWritten_out]
    simp [hboth]
  · rename_i hsend
    rw [if_neg fun hall => hsend (by simp [hall]), irqWritten_out]

/-- Settles O12: raising and clearing both write the status word and bring INT_N up to date (`irqWritten`). -/
theorem interruptsFollowStatus : Obligations.InterruptsFollowStatus := by
  refine ⟨fun s b hs _ => ⟨fun j hj => ?_, raiseIrq_out hs b, ?_⟩, fun s mask hs => ⟨fun j hj => ?_, rfl, ?_⟩⟩
  · rw [raiseIrq_rd hs, bitOf_putBit _ _ _ _ hj]
    by_cases hjb : j = b <;> simp [hjb]
  · rw [raiseIrq_rd hs, (raiseIrq_regs_host s b).2]
    exact irqWritten_intN hs _
  · show bitOf (BitVec.toNat ((s.wr .sysIrqStatus 0 _).rd .sysIrqStatus 0)) j = _
    rw [(rd_of_wrIrqStatus hs _).1, bitOf_subLand _ _ _ hj]
  · have hword : (s.clearIrq mask).rd .sysIrqStatus 0 =
        BitVec.ofNat 32 ((s.rd .sysIrqStatus 0).toNat - Nat.land (s.rd .sysIrqStatus 0).toNat mask) :=
      (rd_of_wrIrqStatus hs _).1
    rw [hword]
    exact irqWritten_intN hs _

/-! ## Counters -/

/-- What is found in a map stands in it. -/
theorem mem_of_find? {α : Type} {m : SMap α} {k : Nat} {v : α} (h : SMap.find? m k = some v) : (k, v) ∈ m := by
  induction m with
  | nil => cases h
  | cons e m ih =>
    obtain ⟨k', v'⟩ := e
    simp only [SMap.find?] at h
    split at h
    · rename_i hk
      cases h
      simp [hk]
    · exact List.mem_cons_of_mem _ (ih h)

/-- A sound counter never passes its top. -/
theorem ctr_value_le {s : State} (h : s.Inv) (c : CtrId) : (s.ctr c).value ≤ ctrTop := by
  unfold State.ctr SMap.getD
  cases hf : SMap.find? s.ctrs c.key with
  | none => exact Nat.zero_le _
  | some v => exact (h.ctrs.2 _ (mem_of_find? hf)).2

/-- The counters after an add: the counter named has the sum, the others stay. -/
theorem ctr_count {s : State} (h : s.Inv) (c d : CtrId) (n : Nat) :
    (s.count c n).ctr d = if d.key = c.key then (s.ctr c).add n else s.ctr d := by
  have hctrs : (s.count c n).ctrs = SMap.put ⟨0, false⟩ s.ctrs c.key ((s.ctr c).add n) := by
    unfold State.count
    dsimp only
    split <;> rfl
  unfold State.ctr
  rw [hctrs, SMap.getD_put _ _ _ _ _ h.ctrs.1]
  rfl

/-- CNT_EVENT.sat_seen is set by the add that sets the counter's flag (R517). -/
theorem satSeen_count {s : State} (h : s.Inv) {c : CtrId} {n : Nat} (hclear : (s.ctr c).sat = false)
    (hpass : ctrTop < (s.ctr c).value + n) : (s.count c n).getF F.cntEvent_satSeen 0 = 1 := by
  have hadd : (s.ctr c).add n = ⟨ctrTop, true⟩ := if_neg (Nat.not_le.2 hpass)
  unfold State.count
  simp only [hadd, hclear, Bool.not_false, Bool.and_self, if_true]
  exact NetworkTime.getF_setF_same
    (s := { s with ctrs := SMap.put ⟨0, false⟩ s.ctrs c.key ⟨ctrTop, true⟩ }) h.regs.1
    F.cntEvent_satSeen 0 1 (by decide) (by decide)

/-- Settles O8: the sum fits or passes the top, which no sound counter does before the add. -/
theorem counterSaturates : Obligations.CounterSaturates := by
  intro s c n hs
  have hle := ctr_value_le hs c
  have hsame : (s.count c n).ctr c = (s.ctr c).add n := (ctr_count hs c c n).trans (if_pos rfl)
  have hmin (a b : Nat) : Nat.min a b = min a b := rfl
  refine ⟨?_, ?_, fun d hd => (ctr_count hs c d n).trans (if_neg hd), satSeen_count hs⟩
  · rw [hsame, hmin]
    unfold CtrVal.add ctrTop
    split <;> simp only <;> omega
  · rw [hsame]
    unfold CtrVal.add ctrTop
    split
    · exact (or_iff_left (by omega)).symm
    · exact iff_of_true rfl (.inr (by omega))

end Sys2Proof.IrqAndCounters
end

section
/-! Proofs of the family of egress (chapter 11): the egs.* and red.* commands. -/

namespace Sys2Proof.Egress

open Sys2Proof.Machine
open Sys2Proof.NetworkTime (exec_of_cmd_ran)

/-- The check of egs.sched_config's second parameter: eight classes, a weighted one with a weight of 1 to 127 (R347). -/
theorem schedClasses_ok {classes : List (Bool × Nat)} (hlen : classes.length = 8)
    (hweights : ∀ c ∈ classes, c.1 = true → 1 ≤ c.2 ∧ c.2 ≤ 127) :
    (classes.length == 8 && classes.all fun c => !c.1 || (decide (1 ≤ c.2) && decide (c.2 ≤ 127))) = true := by
  rw [hlen, beq_self_eq_true, Bool.true_and, List.all_eq_true]
  intro c hc
  cases hw : c.1 with
  | false => rfl
  | true => simpa using hweights c hc hw

/-- A port that exists is no reason for E_NOENT. -/
theorem port_exists {s : State} {port : Nat} (h : s.portExists port = true) : ¬ (!s.portExists port) = true := by
  simp [h]

/-- Settles O60: each command is admitted, its parameters hold and its port exists, so that its body stores. -/
theorem egressCommandsComplete : Obligations.EgressCommandsComplete := by
  refine ⟨?_, ?_, ?_, ?_, ?_, ?_, ?_, ?_, ?_⟩
  · intro s h port shapedMask classes hr hport hlen hweights hshaped hexists
    refine exec_of_cmd_ran rfl hr ?_ (if_neg (QueuesFabric.port_or_link (.inl hexists)))
    exact List.forall_mem_cons.2 ⟨decide_eq_true hport, List.forall_mem_cons.2
      ⟨schedClasses_ok hlen hweights, List.forall_mem_singleton.2 (decide_eq_true hshaped)⟩⟩
  · intro s h port shaper rate burst overhead hi lo zeroReset hr hport hshaper hexists
    exact exec_of_cmd_ran rfl hr (by simp [hport, hshaper]) (if_neg (port_exists hexists))
  · intro s h port shaper rate burst overhead hi lo zeroReset hr hport hshaper hrateLo hrateHi hburstLo hburstHi hover
      hexists
    exact exec_of_cmd_ran rfl hr (by simpa [hport, hshaper, hrateLo, hrateHi, hburstLo, hover] using hburstHi)
      (if_neg (port_exists hexists))
  · intro s h port gateLead frerElim hr hport hlead hexists
    exact exec_of_cmd_ran rfl hr (by simp [hport, hlead]) (if_neg (port_exists hexists))
  · intro s h state mask hr hstate hmask
    exact exec_of_cmd_ran rfl hr (by simp [hstate, hmask]) rfl
  · intro s h index words hr hmin hmax hlen hwords hres
    exact exec_of_cmd_ran rfl hr (by simpa [hmin, hmax, hlen, hres] using hwords) rfl
  · intro s h revertHoldoff hr hholdoff
    exact exec_of_cmd_ran rfl hr (by simpa using hholdoff) rfl
  · intro s h latentEn period hr hmin hmax
    exact exec_of_cmd_ran rfl hr (by simp [hmin, hmax]) rfl
  · intro s h monitor handle n threshold enable hr hmonitor hhandle hmin hmax hthreshold
    exact exec_of_cmd_ran rfl hr (by simpa [hmonitor, hmin, hmax] using ⟨hhandle, hthreshold⟩) rfl

end Sys2Proof.Egress
end

section
/-! Proofs of the family of the HBM (chapter 12): errors, freezes, retirement and refresh, the watch on temperatures and
activates, self-refresh, and the mcx.* commands. -/

namespace Sys2Proof.Hbm

open Sys2Proof.Machine
open Sys2Proof.NetworkTime (exec_of_cmd_ran)

/-! ## Errors, freezes and retirement -/

/-- A unit that is not poisoned already, or holds no data, is handled (R387). -/
theorem not_already_poisoned {s : State} {g unit : Nat}
    (h : ∀ x, s.dataUnit g unit = some x → s.poisoned x.1 x.2 = false) :
    ((s.dataUnit g unit).any fun x => s.poisoned x.1 x.2) = false := by
  cases hx : s.dataUnit g unit with
  | none => rfl
  | some x => simpa using h x hx

/-- A pseudo-channel that exists, is neither held nor retired, with the patrol on, is read (R386). -/
theorem patrol_not_held {s : State} {g : Nat} (hg : g < 192) (hen : s.getB F.mcxCtrl_patrolEn (g / 32) = true)
    (hfree : s.pcHolds g = false) (hsound : s.getBit F.mcxPcRetired_retired (g / 32) (g % 32) = false) :
    ¬ (decide (g ≥ 192) || !s.getB F.mcxCtrl_patrolEn (g / 32) || s.pcHolds g ||
      s.getBit F.mcxPcRetired_retired (g / 32) (g % 32)) = true := by
  simp [Nat.not_le.2 hg, hen, hfree, hsound]

/-- A window whose length has passed ends (R396). -/
theorem window_passed {s : State} {stack : Nat} {w : TrainWindow} (hfind : SMap.find? s.hbm.windows stack = some w)
    (hdue : w.at_ + w.length ≤ s.tm.ticks) :
    ¬ (!(SMap.find? s.hbm.windows stack).any fun w => decide (w.at_ + w.length ≤ s.tm.ticks)) = true := by
  simp [hfind, hdue]

/-- Settles O32: the conditions of each clause choose one branch of the meaning of its event. That the spare is shown
used at the end of a copy, the line's last value, the 16 banks of refresh and the pace of a copy are log entries 91, 92,
95 and 272. -/
theorem hbmErrorAndRetireEventsComplete : Obligations.HbmErrorAndRetireEventsComplete := by
  refine ⟨?_, ?_, ?_, ?_, ?_, ?_, ?_, ?_⟩
  · intro s g e hg hfresh
    show execHbmUncorrectable g e s = _
    exact congrArg _ (if_neg (by simp [Nat.not_le.2 hg, not_already_poisoned hfresh]))
  · intro s g f hfind hhold
    show execFreezeEnd g s = _
    simp only [execFreezeEnd, hfind, hhold, Bool.false_eq_true, if_false]
  · intro s g f hfind hhold
    show execFreezeEnd g s = _
    simp only [execFreezeEnd, hfind, hhold, if_true]
  · intro s stack r hfind hline
    show execRetireCopyComplete stack s = _
    simp only [execRetireCopyComplete, hfind, if_neg (Nat.not_lt.2 hline)]
  · intro s g href
    show execHbmRefresh g s = _
    rw [execHbmRefresh, if_pos href]
  · intro s u g corrected hg hen hfree hsound hu
    subst hu
    show execPatrolScrubRead g corrected none s = _
    exact congrArg _ (if_neg (patrol_not_held hg hen hfree hsound))
  · intro s u g e corrected hg hen hfree hsound hu
    subst hu
    show execPatrolScrubRead g corrected (some e) s = _
    exact congrArg _ (if_neg (patrol_not_held hg hen hfree hsound))
  · intro s u stack history w hfind hdue hu
    subst hu
    show execRetrainWindowExit stack history s = _
    exact congrArg _ (if_neg (window_passed hfind hdue))

/-! ## Temperatures, activates and self-refresh -/

/-- A reading below 83 is kept with the maximum; it begins a cooling, or ends the condition after 1 s of it (R384). -/
theorem exec_hbmTempRead_cool {s a : State} {stack temp : Nat} (hstack : stack < 6) (htemp : temp < 83)
    (ha : a = (s.setF F.mcxTemp_temp stack temp).maxF F.mcxTemp_tempMax stack temp) :
    exec (.hbmTempRead stack temp) s = .next (match SMap.find? a.hbm.coolSince stack with
      | none => { a with hbm := { a.hbm with coolSince := SMap.set a.hbm.coolSince stack a.now } }
      | some t => if t + 1000000000 ≤ a.now then (a.setF F.mcxTemp_hot stack 0).endCondition 0x2005 stack else a) := by
  have hmin : Nat.min 255 temp = temp := Nat.min_eq_right (by omega)
  have h85 : ¬ temp > 85 := by omega
  have h95 : decide (temp > 95) = false := decide_eq_false (by omega)
  show execHbmTempRead stack temp s = _
  simp only [execHbmTempRead, if_neg (Nat.not_le.2 hstack), hmin, ← ha, if_neg h85, h95, Bool.false_and,
    Bool.false_eq_true, if_false, if_neg (Nat.not_le.2 htemp), ge_iff_le] <;> rfl

/-- Settles O33: a reading below 83 by `exec_hbmTempRead_cool`, the rest by the branch that each clause's conditions
choose. What counts as one neighbour refresh, and the event that names a row and its number of activates, are log entries
93 and 94. -/
theorem hbmWatchAndPowerEventsComplete : Obligations.HbmWatchAndPowerEventsComplete := by
  refine ⟨?_, ?_, ?_, ?_, fun _ _ => rfl, ?_, ?_, ?_, ?_⟩
  · intro s a b c stack temp hstack ha hb hc htemp
    have hraise : c =
        if (decide (temp > 95) && !b.flt.live.any fun l => l.code == 0x2005 && l.instance_ == stack) = true then
          (b.setF F.mcxEvent_tempHighSeen stack 1).raise 0x2005 stack
        else b := by
      rw [hc]
      refine ite_congr (propext ?_) (fun _ => rfl) fun _ => rfl
      simp
    show execHbmTempRead stack temp s = _
    simp only [execHbmTempRead, if_neg (Nat.not_le.2 hstack), ← ha, ← hb, ← hraise, ge_iff_le, if_pos htemp]
  · intro s a stack temp hstack htemp ha hcool
    rw [exec_hbmTempRead_cool hstack htemp ha, hcool]
  · intro s a stack temp t hstack htemp ha hcool
    rw [exec_hbmTempRead_cool hstack htemp ha, hcool]
  · intro s u v g bank row n r hg hr hu hv
    have hocc : (if n = 0 ∨ ∃ e ∈ SMap.getD s.hbm.acts g [], e.bank = bank ∧ e.row = row then
          (SMap.getD s.hbm.acts g []).length else Nat.min 512 ((SMap.getD s.hbm.acts g []).length + 1)) =
        if (n == 0 || (SMap.getD s.hbm.acts g []).any fun e => e.bank == bank && e.row == row) = true then
          (SMap.getD s.hbm.acts g []).length else Nat.min 512 ((SMap.getD s.hbm.acts g []).length + 1) :=
      ite_congr (propext (by simp)) (fun _ => rfl) fun _ => rfl
    rw [hocc] at hv
    show execNeighbourRefresh g bank row n s = _
    simp only [execNeighbourRefresh, if_neg (Nat.not_le.2 hg), ← hr, ← hu, ← hv, beq_iff_eq]
  · intro s stack request hstack hstate hfree hretry hin
    show execFurlSelfRefreshEntry stack request s = _
    exact congrArg _ (if_neg (by simp [Nat.not_le.2 hstack, hstate, hfree, hretry, hin]))
  · intro s stack request t hfind hdue
    show execFurlEntryRetry stack request s = _
    exact congrArg _ (if_pos (by simp [hfind, hdue]))
  · intro s u stack hin hheld hu
    subst hu
    have hexits : (s.hbm.selfRefresh.contains stack &&
        (SMap.has s.hbm.srHeldAt stack || s.hbm.held.any fun e => e.1 / 32 == stack)) = true := by
      simpa [hin] using hheld
    show execSelfRefreshExitHeld stack s = _
    rw [execSelfRefreshExitHeld, if_pos hexits]
  · intro s stack value hstack
    show execPcHoldWrite stack value s = _
    rw [execPcHoldWrite, if_neg (Nat.not_le.2 hstack)]

/-! ## The mcx.* commands -/

/-- Settles O34: each command is admitted, its parameters hold and nothing stands against its body. What
mcx.status reports as held, and that the settings hold for all six stacks, is log entry 98. -/
theorem hbmCommandsComplete : Obligations.HbmCommandsComplete := by
  refine ⟨?_, ?_, ?_, ?_, ?_⟩
  · intro s h stack hr hstack
    exact exec_of_cmd_ran rfl hr (by simpa using hstack) rfl
  · intro s h stack g rs hr hstack hfirst
    exact exec_of_cmd_ran rfl hr (by simpa using hstack) (by simp only [hfirst])
  · intro s h threshold hr hmin hmax
    exact exec_of_cmd_ran rfl hr (by simp [hmin, hmax]) rfl
  · intro s h patrolEn scrubHours extLimit hr hhoursMin hhoursMax hlimitMin hlimitMax
    exact exec_of_cmd_ran rfl hr (by simp [hhoursMin, hhoursMax, hlimitMin, hlimitMax]) rfl
  · intro s h stack pc hr hstack hpc hnone hspare
    exact exec_of_cmd_ran rfl hr (by simp [hstack, hpc]) (by simp only [hnone, hspare, Bool.false_eq_true, if_false])

end Sys2Proof.Hbm
end

section
/-! Proofs of the family of Criod (chapter 13): the events of threads, channels, tasks and the scheduler, the watch over
the cores, and the crd.* and dbg.* commands. -/

namespace Sys2Proof.Criod

open Sys2Proof.Machine
open Sys2Proof.NetworkTime (exec_of_cmd_ran exec_of_cmdLater_ran)
open Sys2Proof.RuleTables (exec_of_cmdLater_begun)

/-! ## Threads, channels, tasks and the scheduler -/

/-- A thread that runs and does not wait may take up a wait (R409). -/
theorem wait_not_barred {u : State} {thread : Nat} (hrun : (u.thread thread).halted = false)
    (hwait : (u.thread thread).wait = none) (hstop : u.threadStopped thread = false) (hon : u.threadOn thread = true) :
    ¬ ((u.thread thread).halted || (u.thread thread).wait.isSome || u.threadStopped thread || !u.threadOn thread) =
      true := by
  simp [hrun, hwait, hstop, hon]

/-- A wait of a thread that may take one up, by whether it is the supervisor (R409, R417). -/
theorem exec_waitEventWake_waits {s u : State} {thread sources m : Nat} (ht : thread < 64)
    (hu : u = s.latch thread (trunc 14 sources)) (hrun : (u.thread thread).halted = false)
    (hwait : (u.thread thread).wait = none) (hstop : u.threadStopped thread = false) (hon : u.threadOn thread = true) :
    exec (.waitEventWake thread (some m) sources) s = .next (
      let boss := u.supervisor == some thread
      let v := if boss && Nat.land (u.thread thread).woke evThreadFault != 0 then
          ((List.range 64).filter fun t => (u.thread t).halted && u.getF F.crdCoreStatus_role (t / 16) == 1).foldl
            (fun w t => w.restartThread t) u
        else u
      let mask := if boss then Nat.lor (trunc 32 m) evBecalmed else trunc 32 m
      (v.setThread thread { v.thread thread with wait := some mask, woke := 0 }).wakeThread thread) := by
  show execWaitEventWake thread (some m) sources s = _
  simp only [execWaitEventWake, if_neg (Nat.not_le.2 ht), ← hu, if_neg (wait_not_barred hrun hwait hstop hon)]

/-- A thread that neither writes the channel nor finds it commits channel misuse (R410). -/
theorem exec_channelEndWrite_misuse {s : State} {thread channel : Nat} (words : List Nat) (last : Option Nat)
    (ht : thread < 64) (hother : ∀ c, SMap.find? s.crd.channels channel = some c → c.writer ≠ thread) :
    exec (.channelEndWrite thread channel words last) s = .next (s.threadFault thread 2 0) := by
  show execChannelEndWrite thread channel words last s = _
  cases hc : SMap.find? s.crd.channels channel with
  | none => simp only [execChannelEndWrite, hc, if_pos ht]
  | some c => simp only [execChannelEndWrite, hc, bne_iff_ne, if_pos (hother c hc), if_pos ht]

/-- A thread that neither reads the channel nor finds it commits channel misuse (R410). -/
theorem exec_channelReadEnd_misuse {s : State} {thread channel : Nat} (ht : thread < 64)
    (hother : ∀ c, SMap.find? s.crd.channels channel = some c → c.reader ≠ thread) :
    exec (.channelReadEnd thread channel) s = .next (s.threadFault thread 2 0) := by
  show execChannelReadEnd thread channel s = _
  cases hc : SMap.find? s.crd.channels channel with
  | none => simp only [execChannelReadEnd, hc, if_pos ht]
  | some c => simp only [execChannelReadEnd, hc, bne_iff_ne, if_pos (hother c hc), if_pos ht]

/-- The parameters of a post are in range. -/
theorem taskPost_in_range {task level core budget : Nat} (htask : task < 1024) (hlevel : level < 32) (hcore : core < 4)
    (hmin : 1 ≤ budget) (hmax : budget ≤ 65535) :
    ¬ (decide (task ≥ 1024) || decide (level ≥ 32) || decide (core ≥ 4) || decide (budget < 1) ||
      decide (budget > 65535)) = true := by
  simp only [Bool.or_eq_true, decide_eq_true_eq]
  omega

/-- A serving thread that runs may switch its task (R415). -/
theorem taskSwitch_not_barred {s : State} {thread : Nat} (ht : thread < 64) (hserves : (s.thread thread).serves = true)
    (hrun : (s.thread thread).halted = false) (hstop : s.threadStopped thread = false) :
    ¬ (decide (thread ≥ 64) || !(s.thread thread).serves || (s.thread thread).halted || s.threadStopped thread) =
      true := by
  simp [Nat.not_le.2 ht, hserves, hrun, hstop]

/-- Settles O35: waits by `exec_waitEventWake_waits`, misuse by its two lemmas, the rest by the branch that each clause's
conditions choose. A message of nine words and the restart of halted threads at the supervisor's next wait are log
entries 101 to 103. -/
theorem criodThreadEventsComplete : Obligations.CriodThreadEventsComplete := by
  refine ⟨?_, ?_, ?_, ?_, ?_, ?_, ?_, ?_, ?_, ?_, ?_, ?_, ?_, ?_, ?_⟩
  · intro s thread sources ht
    show execWaitEventWake thread none sources s = _
    simp only [execWaitEventWake, if_neg (Nat.not_le.2 ht)]
  · intro s u thread sources m ht hu hrun hwait hstop hon hother
    have hboss : (u.supervisor == some thread) = false := beq_false_of_ne hother
    rw [exec_waitEventWake_waits ht hu hrun hwait hstop hon]
    simp only [hboss, Bool.false_and, Bool.false_eq_true, if_false]
  · intro s u v thread sources m ht hu hrun hwait hstop hon hsup hv
    have hboss : (u.supervisor == some thread) = true := beq_iff_eq.2 hsup
    rw [exec_waitEventWake_waits ht hu hrun hwait hstop hon]
    simp only [hboss, Bool.true_and, bne_iff_ne, ← hv, if_true]
  · intro s thread channel words last c hfind hwriter hstalled
    show execChannelEndWrite thread channel words last s = _
    simp only [execChannelEndWrite, hfind, hwriter, hstalled, bne_self_eq_false, List.isEmpty_nil, Bool.not_true,
      Bool.false_eq_true, if_false]
  · intro s thread channel words last c hfind hwriter hstalled
    have hsome : (!c.stalled.isEmpty) = true := by simpa using hstalled
    show execChannelEndWrite thread channel words last s = _
    simp only [execChannelEndWrite, hfind, hwriter, hsome, bne_self_eq_false, Bool.false_eq_true, if_false, if_true]
  · intro s thread channel words last ht hother
    exact exec_channelEndWrite_misuse words last ht hother
  · intro s thread channel c m rest hfind hreader hmessages
    show execChannelReadEnd thread channel s = _
    simp only [execChannelReadEnd, hfind, hreader, hmessages, bne_self_eq_false, Bool.false_eq_true, if_false]
  · intro s thread channel ht hother
    exact exec_channelReadEnd_misuse ht hother
  · intro s task level core budget htask hlevel hcore hmin hmax hfree
    show execTaskPost task level core budget s = _
    simp only [execTaskPost, if_neg (taskPost_in_range htask hlevel hcore hmin hmax), hfree]
  · intro s task level core budget t htask hlevel hcore hmin hmax hfind hwaits
    show execTaskPost task level core budget s = _
    simp only [execTaskPost, if_neg (taskPost_in_range htask hlevel hcore hmin hmax), hfind, hwaits, beq_self_eq_true,
      if_true]
  · intro s thread id how ht hserves hrun hstop hrunning
    show execTaskSwitch thread how s = _
    simp only [execTaskSwitch, if_neg (taskSwitch_not_barred ht hserves hrun hstop), hrunning]
  · intro s thread how ht hserves hrun hstop hrunning
    show execTaskSwitch thread how s = _
    simp only [execTaskSwitch, if_neg (taskSwitch_not_barred ht hserves hrun hstop), hrunning]
  · intro s
    rfl
  · intro s thread addr id t hrunning hfind hrun hdue
    show execRunBudgetExpiry thread addr s = _
    simp only [execRunBudgetExpiry, hrunning, Option.bind_some, hfind, hrun, Bool.false_or,
      decide_eq_false (Nat.not_lt.2 hdue), Bool.false_eq_true, if_false]
  · intro s thread kind addr ht hrun
    show execThreadFault thread kind addr s = _
    rw [execThreadFault, if_neg (by simp [Nat.not_le.2 ht, hrun])]

/-! ## The watch over the cores -/

/-- The state after a self-test pass is counted and shown (R428). -/
def selftestShown (s : State) (core failed age service : Nat) : State :=
  let n := (s.crd.passes + 1) % 65536
  let t := (({ s with crd := { s.crd with
    passes := n, sram := SMap.keep (fun k _ => k / 32768 != core) s.crd.sram } } : State).setF F.crdHealth_value 0
      (n <<< 16 + trunc 6 failed)).setF F.crdHealth_value 1 (trunc 16 age <<< 16 + trunc 8 service <<< 8)
  ((t.setF F.crdHealth_value 2 (trunc 32 s.tm.sec)).count C.crdSelftestPasses).raise 0x1006 core n (trunc 6 failed)

/-- The state after the test of the service checkpoints (test 4) has been looked at. -/
def checkpointTested (u : State) (failed service : Nat) : State :=
  if bitOf failed 4 = true then (({ u with crd := { u.crd with
      forced := u.crd.forced.filter (· != service) ++ [service] } } : State).setF F.crdEvent_healthFailSeen 0 1).count
    C.crdHealthFails
  else u

/-- A pass of the backstay core, or of a core under test outside an update, ends; a failure among tests 0 to 2 takes the
core offline, and a core under test that passes becomes the backstay (R428, R434). -/
theorem exec_selftestPassEnd {s : State} {core failed age service : Nat} (hcore : core < 4)
    (htested : (core ∈ s.crd.testing ∧ s.boot.update = none) ∨
      (core ∉ s.crd.testing ∧ s.getF F.crdCoreStatus_role core = 2)) (hnone : s.crd.takeover = none) :
    exec (.selftestPassEnd core failed age service) s = .next (
      let v := checkpointTested (selftestShown s core failed age service) failed service
      if trunc 3 failed ≠ 0 then v.goOffline core
      else if core ∈ s.crd.testing then v.becomeBackstay core else v) := by
  have hgoes : ¬ (decide (core ≥ 4) || !(s.crd.testing.contains core || s.getF F.crdCoreStatus_role core == 2) ||
      s.crd.takeover.isSome) = true := by
    rcases htested with ⟨hunder, _⟩ | ⟨_, hrole⟩
    · simp [Nat.not_le.2 hcore, hunder, hnone]
    · simp [Nat.not_le.2 hcore, hrole, hnone]
  have hidle : ¬ (s.crd.testing.contains core && s.boot.update.isSome) = true := by
    rcases htested with ⟨_, hupdate⟩ | ⟨hother, _⟩
    · simp [hupdate]
    · simp [hother]
  show execSelftestPassEnd core failed age service s = _
  simp only [execSelftestPassEnd, if_neg hgoes, if_neg hidle, bne_iff_ne, List.contains_iff_mem, checkpointTested,
    selftestShown]
  cases bitOf failed 4 <;> simp only [Bool.false_eq_true, if_false, if_true]

/-- With no test failed, no checkpoint's test has failed. -/
theorem checkpointTested_zero (u : State) (service : Nat) : checkpointTested u 0 service = u := rfl

/-- With no test failed, CRD_HEALTH shows the passes alone and 0x1006 has no failed test. -/
theorem selftestShown_zero (s : State) (core age service : Nat) : selftestShown s core 0 age service =
    ((((({ s with crd := { s.crd with
      passes := (s.crd.passes + 1) % 65536, sram := SMap.keep (fun k _ => k / 32768 != core) s.crd.sram } } : State).setF
        F.crdHealth_value 0 (((s.crd.passes + 1) % 65536) <<< 16)).setF F.crdHealth_value 1
          (trunc 16 age <<< 16 + trunc 8 service <<< 8)).setF F.crdHealth_value 2 (trunc 32 s.tm.sec)).count
          C.crdSelftestPasses).raise 0x1006 core ((s.crd.passes + 1) % 65536) 0 := by
  have hzero : trunc 6 0 = 0 := rfl
  simp only [selftestShown, hzero, Nat.add_zero]

/-- Settles O36: the end of a self-test pass by `exec_selftestPassEnd`, the rest by the branch that each clause's
conditions choose. What a takeover moves when it completes, and the core that fault 0x1004 names, are log entries 106
and 108. -/
theorem criodWatchEventsComplete : Obligations.CriodWatchEventsComplete := by
  have hpassed : trunc 3 0 = 0 := rfl
  refine ⟨?_, ?_, ?_, ?_, ?_, ?_, ?_, ?_, ?_, ?_, ?_⟩
  · intro s w u hw hlive harmed hquiet hu
    subst hu
    show execBecalmed s = _
    simp only [execBecalmed, ← hw, hlive, harmed, Bool.not_true, Bool.false_or, decide_eq_false (Nat.not_lt.2 hquiet),
      Bool.false_eq_true, if_false]
  · intro s w hw hlive haction
    show execBecalmedAction s = _
    simp only [execBecalmedAction, ← hw, hlive, haction, Bool.not_true, bne_self_eq_false, Bool.or_self,
      Bool.false_eq_true, if_false]
  · intro s id t hid hfind
    show execHousekeeping s = _
    simp only [execHousekeeping, hid, Option.bind_some, hfind, Option.map_some]
  · intro s core age service n hcore hother hrole hnone hn
    subst hn
    rw [exec_selftestPassEnd hcore (.inr ⟨hother, hrole⟩) hnone]
    simp only [checkpointTested_zero, selftestShown_zero, hpassed, if_neg hother, ne_eq, not_true, if_false]
  · intro s u core age service n hcore hunder hnone hupdate hn hu
    subst hu hn
    rw [exec_selftestPassEnd hcore (.inl ⟨hunder, hupdate⟩) hnone]
    simp only [checkpointTested_zero, selftestShown_zero, hpassed, if_pos hunder, ne_eq, not_true, if_false]
  · intro s u v core failed age service n hcore hother hrole hnone hn hu hv
    subst hv hu hn
    rw [exec_selftestPassEnd hcore (.inr ⟨hother, hrole⟩) hnone]
    simp only [if_neg hother, checkpointTested, selftestShown]
  · intro s core hcore hrole hstopped
    show execKickTimeout core s = _
    rw [execKickTimeout, if_neg (by simp [Nat.not_le.2 hcore, hrole, hstopped])]
  · intro s core cause hcore hcause
    show execCoreFailure core cause s = _
    simp only [execCoreFailure, if_neg (Nat.not_le.2 hcore), beq_iff_eq, if_neg hcause]
  · intro s core hcore
    show execCoreFailure core 1 s = _
    simp only [execCoreFailure, if_neg (Nat.not_le.2 hcore), beq_self_eq_true, if_true]
  · intro s a b c d e f t htakeover hrole ha hb hc hd he hf
    subst ha hb hc hd he hf
    show execTakeoverComplete s = _
    simp only [execTakeoverComplete, htakeover, hrole, bne_self_eq_false, Bool.false_eq_true, if_false] <;> rfl
  · intro s service content hhas
    show execServiceCheckpoint service content s = _
    simp only [execServiceCheckpoint, hhas, Bool.not_true, Bool.false_eq_true, if_false]

/-! ## The crd.* and dbg.* commands -/

/-- The first two parameters of the debug commands: a core and a thread of it (R436). -/
theorem threadOk_all {core thread : Nat} (hcore : core < 4) (hthread : thread < 16) :
    ∀ c ∈ threadOk core thread, c = true := by
  simp [threadOk, hcore, hthread]

/-- Those two followed by a range of registers or words (R436). -/
theorem threadOk_range {core thread : Nat} {range : Bool} (hcore : core < 4) (hthread : thread < 16)
    (hrange : range = true) : ∀ c ∈ threadOk core thread ++ [true, range], c = true := by
  simp [threadOk, hcore, hthread, hrange]

/-- Settles O37: each command is admitted, its parameters hold and the thread it names is stopped where it must be. The
layouts of the answers are log entry 110; the registers that a step writes are the command's input (log entry 100). -/
theorem criodCommandsComplete : Obligations.CriodCommandsComplete := by
  refine ⟨?_, ?_, ?_, ?_, ?_, ?_, ?_, ?_, ?_, ?_, ?_, ?_⟩
  · intro s h hr
    exact exec_of_cmd_ran rfl hr (by simp) rfl
  · intro s h core hr hcore hrole hbackstay hnone
    have hmay : ¬ (s.backstay.isNone || s.crd.takeover.isSome) = true := by
      simp [hnone, Option.isNone_eq_false_iff.2 hbackstay]
    exact exec_of_cmdLater_begun rfl hr (by simp [hcore, hrole]) (if_neg hmay)
  · intro s h becalmedAction kickPeriod ckptPeriod hr haction hmin hmax hckpt
    exact exec_of_cmd_ran rfl hr (by simp [haction, hmin, hmax, hckpt]) rfl
  · intro s h hr
    exact exec_of_cmd_ran rfl hr (by simp) rfl
  · intro s h core thread hr hcore hthread
    exact exec_of_cmd_ran rfl hr (threadOk_all hcore hthread) rfl
  · intro s h core thread hr hcore hthread hstopped
    exact exec_of_cmd_ran rfl hr (threadOk_all hcore hthread) (if_neg (by simp [hstopped]))
  · intro s h core thread writes hr hcore hthread hstopped
    exact exec_of_cmd_ran rfl hr (threadOk_all hcore hthread) (if_neg (by simp [hstopped]))
  · intro s h core thread on hr hcore hthread
    exact exec_of_cmd_ran rfl hr (threadOk_all hcore hthread) rfl
  · intro s h core thread first count hr hcore hthread hrange hstopped
    exact exec_of_cmd_ran rfl hr (threadOk_range hcore hthread hrange) (if_neg (by simp [hstopped]))
  · intro s h core thread first values hr hcore hthread hrange hstopped
    exact exec_of_cmd_ran rfl hr (threadOk_range hcore hthread hrange) (if_neg (by simp [hstopped]))
  · intro s h channel c hr hchannel hfind
    refine exec_of_cmd_ran rfl hr (by simpa using hchannel) ?_
    simp only [SMap.getD, hfind, Option.getD_some]
  · intro s h channel c hr hchannel hfind hpart hstopped
    have hsome : ¬ c.part.isEmpty = true := by simpa using hpart
    refine exec_of_cmd_ran rfl hr (by simpa using hchannel) ?_
    simp only [hfind, if_neg hsome, hstopped, Bool.not_true, Bool.false_eq_true, if_false]

end Sys2Proof.Criod
end

section
/-! Proofs of the family of the host interface (chapter 14): mailboxes, rings, the PCIe events, the SMBus mailbox and the
accesses to registers. -/

namespace Sys2Proof.HostInterface

open Sys2Proof.Machine
open Sys2Proof.NetworkTime (exec_of_cmd_ran)

/-! ## Mailboxes -/

/-- Commands are fetched while DMA is on, fetching is not stopped and fewer than 64 are in flight (R451). -/
theorem fetch_not_held {s : State} (hdma : s.dmaOn = true) (hstop : s.flt.fetchStopped = false)
    (hroom : s.host.inflight.length < 64) :
    ¬ (!s.dmaOn || s.flt.fetchStopped || decide (s.host.inflight.length ≥ 64)) = true := by
  simp [hdma, hstop, hroom]

/-- A completion of the debug or SMBus mailbox, or one with DMA on, may be posted (R442, R451). -/
theorem post_not_held {s : State} {mbx : Nat} (hdma : 8 ≤ mbx ∨ s.dmaOn = true) :
    ¬ (decide (mbx < 8) && !s.dmaOn) = true := by
  rcases hdma with h | h
  · simp [Nat.not_lt.2 h]
  · simp [h]

/-- Settles O38: the conditions of each clause choose one branch of the meaning of its event. The form in which a fetched
entry waits for its command's completion is log entry 113. -/
theorem mailboxEventsComplete : Obligations.MailboxEventsComplete := by
  refine ⟨fun _ _ _ => rfl, fun _ _ _ _ => rfl, ?_, ?_, ?_, ?_, ?_, ?_⟩
  · intro s mbx entry hmbx
    show execMbxEnable mbx entry s = _
    rw [execMbxEnable, if_neg (Nat.not_lt.2 hmbx)]
  · intro s mbx hmbx
    show execMbxDisable mbx s = _
    rw [execMbxDisable, if_neg (Nat.not_lt.2 hmbx)]
  · intro s words m hdma hstop hroom hfind hhost hheader
    show execCommandFetch words s = _
    simp only [execCommandFetch, if_neg (fetch_not_held hdma hstop hroom), hfind, beq_false_of_ne hhost,
      Bool.false_eq_true, if_false, hheader, if_true, Option.isSome_none]
  · intro s mbx e r hfind hrsp hdma hroom t ht
    subst ht
    show execCompletionPost mbx s = _
    simp only [execCompletionPost, hfind, hrsp, if_neg (post_not_held hdma), beq_iff_eq, if_neg hroom]
  · intro s mbx e r hfind hrsp hdma hfull
    show execCompletionPost mbx s = _
    simp only [execCompletionPost, hfind, hrsp, if_neg (post_not_held hdma), beq_iff_eq, if_pos hfull]
  · intro s h hr
    exact exec_of_cmd_ran rfl hr (by simp) rfl

/-! ## Rings -/

/-- The check of a slot's size: 1,024 or 2,048 bytes for a ring of received frames, else 32 (R458). -/
theorem slotSize_ok {rtype slotSize : Nat}
    (h : if rtype = 1 then slotSize = 1024 ∨ slotSize = 2048 else slotSize = 32) :
    (if rtype == 1 then slotSize == 1024 || slotSize == 2048 else slotSize == 32) = true := by
  by_cases hrx : rtype = 1
  · simpa [hrx] using h
  · simpa [hrx] using h

/-- A notification is taken off the queue and goes where its class is bound (R465). -/
theorem exec_notificationWrite {s : State} {n : NotifRec} {rest : List NotifRec} (hq : s.host.notifQ = n :: rest)
    {t : State} (ht : t = { s with host := { s.host with notifQ := rest } }) :
    (∀ ring, t.notifDest n = .ring ring → exec .notificationWrite s = .next (t.notifyRing ring n)) ∧
    (t.notifDest n = .firmware → exec .notificationWrite s =
      .next { t with host := { t.host with fwInbox := t.host.fwInbox ++ [n] } }) := by
  refine ⟨fun ring hdest => ?_, fun hdest => ?_⟩ <;> subst ht <;> show execNotificationWrite s = _
  · simp only [execNotificationWrite, hq, hdest]
  · simp only [execNotificationWrite, hq, hdest]

/-- Settles O39: the commands by their parameters, which hold, and a notification by `exec_notificationWrite`. That an
enabled ring starts armed with phase one is log entry 40, the numbering of the ring types log entry 12. -/
theorem ringCommandsComplete : Obligations.RingCommandsComplete := by
  refine ⟨fun _ _ _ _ => rfl, ?_, ?_, ?_, ?_, ?_, ?_, ?_, fun _ _ => rfl⟩
  · intro s h ring rtype base n slotSize vector count us hr hring htype halign hbase hnMin hnMax hslot hvecMin hvecMax
      hcountMin hcountMax hus hoff
    refine exec_of_cmd_ran rfl hr ?_ ?_
    · simp only [Bool.not_true, Bool.false_or, List.forall_mem_cons, slotSize_ok hslot]
      simpa [hring, htype, halign, hnMin, hnMax, hvecMin, hvecMax, hcountMin, hcountMax, hus] using hbase
    · simp only [Bool.not_true, Bool.false_eq_true, if_false, hoff]
  · intro s h ring rtype base n slotSize vector count us hr hring
    exact exec_of_cmd_ran rfl hr (by simp [hring]) rfl
  · intro s h cls ring hr hmin hmax hring
    exact exec_of_cmd_ran rfl hr (by simp [hmin, hmax, hring]) rfl
  · intro s h cls dest hr hmin hmax hdest
    cases dest with
    | ring r => exact absurd rfl (hdest r)
    | firmware => exact exec_of_cmd_ran rfl hr (by simp [hmin, hmax]) rfl
    | none => exact exec_of_cmd_ran rfl hr (by simp [hmin, hmax]) rfl
  · intro s h ring hr hring
    exact exec_of_cmd_ran rfl hr (by simpa using hring) rfl
  · intro s n rest ring hq hdest
    exact (exec_notificationWrite hq rfl).1 ring hdest
  · intro s n rest hq hdest
    exact (exec_notificationWrite hq rfl).2 hdest

/-! ## The PCIe events -/

/-- The bit of PCI_EVENT that a kind of read error sets (R443, R474). -/
theorem readErrorBit_eq (kind : Nat) :
    (if (kind == 0) = true then F.pciEvent_cplTimeoutSeen else if (kind == 1) = true then F.pciEvent_urSeen
      else F.pciEvent_poisonSeen) =
    (if kind = 0 then F.pciEvent_cplTimeoutSeen else if kind = 1 then F.pciEvent_urSeen else F.pciEvent_poisonSeen) := by
  simp only [beq_iff_eq]

/-- Settles O40: a read error's kind is one of three, its target names what it ends; the rest by the meaning of each
event. That a reset is counted in the register which it resets, and what the link fields show after it, is log entry
115. -/
theorem pcieEventsComplete : Obligations.PcieEventsComplete := by
  refine ⟨fun _ => rfl, fun _ => rfl, ?_, ?_, fun _ => rfl, fun _ => rfl, ?_, ?_, ?_, fun _ _ => rfl⟩
  · intro s width
    show execPerst 0 width s = _
    rw [execPerst, if_pos (beq_self_eq_true 0)]
  · intro s speed width hlink
    show execPerst speed width s = _
    simp only [execPerst, beq_iff_eq, if_neg (show ¬ speed = 0 by omega)]
  · intro s u kind unit cid addr hkind hu
    have hcode : Nat.min 2 kind = kind := Nat.min_eq_right hkind
    show execDmaReadError kind 0 unit cid addr s = _
    simp only [execDmaReadError, hcode, readErrorBit_eq, ← hu, beq_self_eq_true, if_true]
  · intro s u kind unit cid addr hkind hunit hu
    have hcode : Nat.min 2 kind = kind := Nat.min_eq_right hkind
    show execDmaReadError kind 1 unit cid addr s = _
    simp only [execDmaReadError, hcode, readErrorBit_eq, ← hu, beq_self_eq_true, beq_false_of_ne Nat.one_ne_zero,
      Bool.false_eq_true, if_false, if_true, if_neg (Nat.not_le.2 hunit)]
  · intro s u kind target unit cid addr hkind htarget hu hon htx hmore
    have hcode : Nat.min 2 kind = kind := Nat.min_eq_right hkind
    have hnotCommand : (target == 0) = false := beq_false_of_ne (by omega)
    have hnotEntry : (target == 1) = false := beq_false_of_ne (by omega)
    show execDmaReadError kind target unit cid addr s = _
    simp only [execDmaReadError, hcode, readErrorBit_eq, ← hu, hnotCommand, hnotEntry, Bool.false_eq_true, if_false, hon,
      htx, beq_false_of_ne hmore, bne_self_eq_false, Bool.not_true, Bool.or_self]

/-! ## The SMBus mailbox -/

/-- An enabled SMBus mailbox that is not busy takes a block (R467). -/
theorem smbus_takes {s : State} (hen : s.getB F.mbxCtrl_smbEn = true) (hfree : s.host.smbus.busy = false) :
    ¬ (!s.getB F.mbxCtrl_smbEn || s.host.smbus.busy) = true := by
  simp [hen, hfree]

/-- Settles O41: a block by `smbus_takes`, the reads by their meaning. That a new command makes an unread completion
unreadable is log entry 117. -/
theorem smbusEventsComplete : Obligations.SmbusEventsComplete := by
  refine ⟨?_, ?_, fun _ => rfl, fun _ => rfl, fun _ => rfl, ?_⟩
  · intro s words hen hfree
    show execSmbusBlockWrite words true s = _
    simp only [execSmbusBlockWrite, if_neg (smbus_takes hen hfree), Bool.not_true, Bool.false_eq_true, if_false]
  · intro s words hen hfree
    show execSmbusBlockWrite words false s = _
    simp only [execSmbusBlockWrite, if_neg (smbus_takes hen hfree), Bool.not_false, if_true]
  · intro s bit hbit
    show execSmbusIrqClear bit s = _
    rw [execSmbusIrqClear, if_pos hbit]

/-! ## Register accesses -/

section
variable {s : State} {bar addr data : Nat} {full jtag : Bool}

/-- A write outside BAR 4 goes to the debug mailbox memory, else to a register, else nowhere (R445). -/
theorem exec_registerWrite (hacc : s.accessible jtag = true) (hbar : bar ≠ 4) :
    exec (.registerWrite bar addr data full jtag) s = .next (
      match debugWord bar (addr / 4 * 4), regAt bar (addr / 4 * 4) with
      | some n, _ =>
        if full then { s with host := { s.host with dbgMem := SMap.put 0 s.host.dbgMem n (BitVec.ofNat 32 data).toNat } }
        else s.accessError F.pciEvent_partialWriteSeen (addr / 4 * 4)
      | none, some (r, i) =>
        if full then s.writeReg r i (addr / 4 * 4) (BitVec.ofNat 32 data)
        else s.accessError F.pciEvent_partialWriteSeen (addr / 4 * 4)
      | none, none => s.accessError F.pciEvent_unmappedSeen (addr / 4 * 4)) := by
  show execRegisterWrite bar addr data full jtag s = _
  simp only [execRegisterWrite, hacc, beq_false_of_ne hbar, Bool.not_true, Bool.false_eq_true, if_false] <;> rfl

/-- A partial write of a mapped word is an access error (R445). -/
theorem exec_registerWrite_partial (hacc : s.accessible jtag = true) (hbar : bar ≠ 4)
    (hmapped : debugWord bar (addr / 4 * 4) ≠ none ∨ regAt bar (addr / 4 * 4) ≠ none) :
    exec (.registerWrite bar addr data false jtag) s =
      .next (s.accessError F.pciEvent_partialWriteSeen (addr / 4 * 4)) := by
  rw [exec_registerWrite hacc hbar]
  cases hd : debugWord bar (addr / 4 * 4) with
  | some n => simp only [Bool.false_eq_true, if_false]
  | none =>
    cases hreg : regAt bar (addr / 4 * 4) with
    | some e => simp only [Bool.false_eq_true, if_false]
    | none => exact absurd hmapped (by simp [hd, hreg])

/-- A read outside BAR 4, as a write (R445, R446). -/
theorem exec_registerReadClear (hacc : s.accessible jtag = true) (hbar : bar ≠ 4) :
    exec (.registerReadClear bar addr jtag) s = .next (
      match debugWord bar (addr / 4 * 4), regAt bar (addr / 4 * 4) with
      | some n, _ => s.emit (.regRead bar (addr / 4 * 4) (SMap.getD s.host.dbgMem n 0))
      | none, some (r, i) =>
        let t := ((s.beforeRead r i).emit (.regRead bar (addr / 4 * 4) ((s.beforeRead r i).rd r i).toNat)).clearRc r i
        if (r == .cntWinData && i == 1) = true then t.windowNext else t
      | none, none => (s.emit (.regRead bar (addr / 4 * 4) 0)).accessError F.pciEvent_unmappedSeen (addr / 4 * 4)) := by
  show execRegisterReadClear bar addr jtag s = _
  simp only [execRegisterReadClear, hacc, beq_false_of_ne hbar, Bool.not_true, Bool.false_eq_true, if_false] <;> rfl

end

/-- Settles O42: the accesses outside BAR 4 by their two lemmas, those of BAR 4 by the MSI-X table (log entry 183). What
an access error notes and captures is log entry 184. -/
theorem registerAccessCompletes : Obligations.RegisterAccessCompletes := by
  refine ⟨?_, ?_, ?_, ?_, ?_, ?_, ?_, ?_, ?_, fun _ _ _ => rfl, fun _ => rfl, fun _ => rfl, fun _ => rfl, fun _ => rfl,
    fun _ _ _ _ => rfl, fun _ => rfl⟩
  · intro s bar addr data i r jtag hacc hbar hdebug hreg
    rw [exec_registerWrite hacc hbar, hdebug, hreg]
    rfl
  · intro s bar addr data n jtag hacc hbar hdebug
    rw [exec_registerWrite hacc hbar, hdebug]
    rfl
  · intro s addr data jtag hacc hin
    have hword : addr / 4 * 4 / 4 = addr / 4 := Nat.mul_div_cancel _ (by decide)
    show execRegisterWrite 4 addr data true jtag s = _
    simp only [execRegisterWrite, hacc, beq_self_eq_true, decide_eq_true hin, Bool.and_self, Bool.not_true,
      Bool.false_eq_true, if_false, if_true, hword]
  · intro s bar addr data jtag hacc hbar hmapped
    exact exec_registerWrite_partial hacc hbar hmapped
  · intro s bar addr data full jtag hacc hbar hdebug hreg
    rw [exec_registerWrite hacc hbar, hdebug, hreg]
  · intro s bar addr i r jtag hacc hbar hdebug hreg hother
    have hplain : ¬ (r == .cntWinData && i == 1) = true := by simpa using hother
    rw [exec_registerReadClear hacc hbar, hdebug, hreg]
    exact congrArg _ (if_neg hplain)
  · intro s bar addr n jtag hacc hbar hdebug
    rw [exec_registerReadClear hacc hbar, hdebug]
  · intro s addr jtag hacc
    show execRegisterReadClear 4 addr jtag s = _
    simp only [execRegisterReadClear, hacc, beq_self_eq_true, Bool.not_true, Bool.false_eq_true, if_false, if_true]
  · intro s bar addr jtag hacc hbar hdebug hreg
    rw [exec_registerReadClear hacc hbar, hdebug, hreg]

end Sys2Proof.HostInterface
end

section
/-! Proofs of the family of bring-up and of faults (chapters 18 and 15): the resets and boot stages, the sys.* commands,
and the flt.*, log.* and avail.* commands. -/

namespace Sys2Proof.BringUpAndFaults

open Sys2Proof.Machine
open Sys2Proof.NetworkTime (exec_of_cmd_ran)

/-! ## Commands that the ROM answers -/

/-- A command that the ROM or firmware admits and whose parameters hold answers what its body answers (R467, R575). -/
theorem exec_of_cmdRom_ran {i c : Instr} {s t : State} {h : CmdHdr} {r : Rsp} {cs : List Bool}
    {body : State → State × Rsp} {recovery : Bool} (he : exec i s = .next (s.cmdRom c h cs body recovery))
    (hr : s.refuseCmd h attrS true recovery = none) (hc : ∀ c ∈ cs, c = true) (hb : body s = (t, r)) :
    exec i s = .next (t.finish h r) := by
  rw [he]
  simp only [State.cmdRom, hr, (firstBad_eq_none cs).2 hc, hb]

/-! ## Resets and boot stages -/

/-- The end of a boot stage of a device that is alive, by the state it is in (R574, R576). -/
theorem exec_bootStageComplete {s : State} (setup : CrdSetup) (halive : s.alive = true) {n : Nat}
    (hn : s.getF F.sysStatus_bootState = n) : exec (.bootStageComplete setup) s = .next (
      if n == 0 then (if s.getB F.sysStraps_testEn then s else s.endRom)
      else if n == 1 then s.endCheck
      else if n == 2 then s.endTraining
      else if n == 3 then (let t := s.setBoot 4; { t with boot := { t.boot with watchAt := some t.tm.ticks } })
      else if n == 4 then (if s.seedSettled then s.firmwareStart setup else s)
      else s) := by
  have hgoes : ¬ (!s.alive) = true := by simp [halive]
  show execBootStageComplete setup s = _
  simp only [execBootStageComplete, if_neg hgoes, hn]

/-- A correction of a rail is due a second after the last, of a device that is alive and ready (R598). -/
theorem avs_not_held {s : State} {rail last : Nat} (hrail : rail ≤ 1) (halive : s.alive = true)
    (hready : s.getB F.sysStatus_ready = true) (hdue : last + 1000000000 ≤ s.tm.ticks) :
    ¬ (decide (rail > 1) || !s.alive || !s.getB F.sysStatus_ready || decide (s.tm.ticks < last + 1000000000)) =
      true := by
  simp [Nat.not_lt.2 hrail, halive, hready, Nat.not_lt.2 hdue]

/-- The voltage that a direction asks for (R598). -/
theorem railWanted_eq (direction old : Nat) :
    (if (direction == 1) = true then old + 5 else if (direction == 2) = true then old - 5 else old) =
    (if direction = 1 then old + 5 else if direction = 2 then old - 5 else old) := by
  simp only [beq_iff_eq]

/-- A die that exists, of a device that is alive, is looked at (R602). -/
theorem die_looked_at {s : State} {unit : Nat} (hunit : unit ≤ 7) (halive : s.alive = true) :
    ¬ (decide (unit > 7) || !s.alive) = true := by
  simp [Nat.not_lt.2 hunit, halive]

/-- A core under test in an update, with no takeover running, ends its core-logic test (R583). -/
theorem coreTest_ends {s : State} {core : Nat} (hupdate : s.boot.update.isSome = true) (hunder : core ∈ s.crd.testing)
    (hnone : s.crd.takeover = none) :
    ¬ (s.boot.update.isNone || !s.crd.testing.contains core || s.crd.takeover.isSome) = true := by
  simp [Option.isNone_eq_false_iff.2 hupdate, hunder, hnone]

/-- Settles O50: the stages of boot by `exec_bootStageComplete`, the rest by the branch that each clause's conditions
choose. What a reset keeps is log entry 155, the direction and the bounds of a rail's correction log entry 161. -/
theorem bootEventsComplete : Obligations.BootEventsComplete := by
  refine ⟨fun _ _ _ => rfl, ?_, ?_, ?_, ?_, ?_, ?_, ?_, ?_, ?_, ?_, ?_, ?_, ?_, ?_, ?_, ?_⟩
  · intro s straps hpowered
    show execPinReset straps s = _
    rw [execPinReset, if_neg (by simp [hpowered])]
  · intro s t halive ht
    subst ht
    show execThermalTrip s = _
    rw [execThermalTrip, if_neg (by simp [halive])]
  · intro s setup halive hstate htest
    rw [exec_bootStageComplete setup halive hstate, if_pos (beq_self_eq_true 0), if_neg (by simp [htest])]
  · intro s setup halive hstate
    rw [exec_bootStageComplete setup halive hstate]
    simp only [Nat.reduceBEq, Bool.false_eq_true, if_false, if_true]
  · intro s setup halive hstate
    rw [exec_bootStageComplete setup halive hstate]
    simp only [Nat.reduceBEq, Bool.false_eq_true, if_false, if_true]
  · intro s t setup halive hstate ht
    subst ht
    rw [exec_bootStageComplete setup halive hstate]
    simp only [Nat.reduceBEq, Bool.false_eq_true, if_false, if_true]
  · intro s setup halive hstate hseed
    rw [exec_bootStageComplete setup halive hstate]
    simp only [Nat.reduceBEq, Bool.false_eq_true, if_false, if_true, hseed]
  · intro s t hwatch halive hready hdue
    have hfires : ¬ (!s.alive || s.getB F.sysStatus_ready || decide (s.tm.ticks < t + 4000000000)) = true := by
      simp [halive, hready, Nat.not_lt.2 hdue]
    show execBootWatchdog s = _
    simp only [execBootWatchdog, hwatch, if_neg hfires]
  · intro s ws t hnonce hdue
    show execNonceExpiry s = _
    simp only [execNonceExpiry, hnonce, if_neg (Nat.not_lt.2 hdue)]
  · intro s direction answered u mv halive hready hdue hu hmv
    have hfore : ((0 : Nat) == 1) = false := rfl
    show execAvsCorrection 0 direction answered s = _
    simp only [execAvsCorrection, hfore, Bool.false_eq_true, if_false, railWanted_eq, ← hu, ← hmv,
      if_neg (avs_not_held (Nat.zero_le 1) halive hready hdue)]
  · intro s direction answered u mv halive hready hdue hu hmv
    show execAvsCorrection 1 direction answered s = _
    simp only [execAvsCorrection, beq_self_eq_true, if_true, railWanted_eq, ← hu, ← hmv,
      if_neg (avs_not_held (Nat.le_refl 1) halive hready hdue)]
  · intro s unit temp hunit halive htemp hlive
    have hquiet : (s.flt.live.any fun l => l.code == 0x0003 && l.instance_ == unit) = false := by simpa using hlive
    show execDieTempWarning unit temp s = _
    simp only [execDieTempWarning, if_neg (die_looked_at hunit halive), ge_iff_le, if_pos htemp, hquiet,
      Bool.false_eq_true, if_false]
  · intro s unit temp hunit halive htemp
    show execDieTempWarning unit temp s = _
    simp only [execDieTempWarning, if_neg (die_looked_at hunit halive), ge_iff_le,
      if_neg (show ¬ 100 ≤ temp by omega), if_pos htemp]
  · intro s t ht
    subst ht
    rfl
  · intro s core hupdate hunder hnone
    show execCoreLogicTestEnd core true s = _
    rw [execCoreLogicTestEnd, if_neg (coreTest_ends hupdate hunder hnone), if_pos rfl]
  · intro s core hupdate hunder hnone
    show execCoreLogicTestEnd core false s = _
    rw [execCoreLogicTestEnd, if_neg (coreTest_ends hupdate hunder hnone), if_neg Bool.false_ne_true]

/-! ## The sys.* commands -/

/-- A device with nothing running, not furled already, may be furled (R586). -/
theorem furl_not_barred {s : State} (hpoles : s.getB F.fltStatus_barePoles = false) (hnone : s.crd.takeover = none)
    (hupdate : s.boot.update = none) (hunfurled : s.furled = false) :
    ¬ (s.getB F.fltStatus_barePoles || s.crd.takeover.isSome || s.boot.update.isSome || s.furled) = true := by
  simp [hpoles, hnone, hupdate, hunfurled]

/-- Settles O51: each command is admitted and its body answers, or begins the update. The order of the checks of an update,
what a furl discards and that an unfurl completes at once are log entries 156, 162 and 163. -/
theorem systemCommandsComplete : Obligations.SystemCommandsComplete := by
  refine ⟨?_, ?_, ?_, ?_, ?_, ?_, ?_⟩
  · intro s h hr
    exact exec_of_cmdRom_ran rfl hr (by simp) rfl
  · intro s h hr hready
    exact exec_of_cmdRom_ran rfl hr (by simp) (by simp only [hready, if_true, List.cons_append, List.nil_append])
  · intro s h hr hlocked hfails
    refine exec_of_cmd_ran rfl hr (by simp) ?_
    simp only [hlocked, Bool.false_eq_true, if_false, ge_iff_le, if_neg (Nat.not_le.2 hfails)]
  · intro s u h key t ws hr hnonce hdue hu
    have hbody : (if s.boot.fuses.keyOk key = true then (u.setF F.sysStatus_debugUnlocked 0 1).finish h .ok
        else ({ u with boot := { u.boot with unlockFails := u.boot.unlockFails + 1 } } : State).finish h (.err eAuth)) =
        (if s.boot.fuses.keyOk key = true then u.setF F.sysStatus_debugUnlocked 0 1
          else ({ u with boot := { u.boot with unlockFails := u.boot.unlockFails + 1 } } : State)).finish h
          (if s.boot.fuses.keyOk key = true then .ok else .err eAuth) := by
      split <;> rfl
    rw [hbody]
    refine exec_of_cmd_ran rfl hr (by simp) ?_
    subst hu
    simp only [hnonce, ge_iff_le, if_neg (Nat.not_le.2 hdue)]
    split <;> rfl
  · intro s t h image key written hr hready hupdate
    show execSysFwUpdate h image key written s = _
    simp only [execSysFwUpdate, hr, hready, Bool.false_eq_true, if_false, hupdate]
  · intro s h hr hpoles hnone hupdate hunfurled u hu
    subst hu
    exact exec_of_cmd_ran rfl hr (by simp) (if_neg (furl_not_barred hpoles hnone hupdate hunfurled))
  · intro s h hr hfurled u hu
    subst hu
    exact exec_of_cmd_ran rfl hr (by simp) (if_neg (by simp [hfurled]))

/-! ## The flt.*, log.* and avail.* commands -/

/-- Settles O45: each command is admitted and its parameters hold; the index 0xFFFFFFFF names the capture, any other a
record. The order of the words of avail.read, and that a clear of the capture answers OK in every case, are log entries
126 and 127. -/
theorem faultCommandsComplete : Obligations.FaultCommandsComplete := by
  refine ⟨?_, ?_, ?_, ?_, ?_, ?_, ?_, ?_, ?_⟩
  · intro s h index r hr hindex hfind
    refine exec_of_cmd_ran rfl hr (by simp) ?_
    simp only [beq_iff_eq, if_neg hindex, hfind]
  · intro s h hr hvalid
    refine exec_of_cmd_ran rfl hr (by simp) ?_
    simp only [beq_self_eq_true, hvalid, if_true]
  · intro s h index r hr hindex hfind
    refine exec_of_cmd_ran rfl hr (by simp) ?_
    simp only [beq_iff_eq, if_neg hindex, hfind]
  · intro s h hr
    exact exec_of_cmd_ran rfl hr (by simp) (if_pos (beq_self_eq_true _))
  · intro s h code notify intn hr hrow
    exact exec_of_cmd_ran rfl hr (by simp [hrow]) rfl
  · intro s h first count hr hfirst hmin hmax
    have hfits : count ≤ if (h.mbx == 9) = true then 3 else 65536 := by split <;> omega
    have hcount : (decide (1 ≤ count) && decide (count ≤ if (h.mbx == 9) = true then 3 else 65536)) = true := by
      simp only [hmin, hfits, decide_true, Bool.and_self]
    exact exec_of_cmdRom_ran rfl hr
      (List.forall_mem_cons.2 ⟨decide_eq_true hfirst, List.forall_mem_singleton.2 hcount⟩) rfl
  · intro s h code word hr hcode
    exact exec_of_cmd_ran rfl hr (by simpa using hcode) rfl
  · intro s h hr
    refine exec_of_cmd_ran rfl hr (by simp) ?_
    cases s.flt.lossOpen with
    | none => simp only [Option.elim_none]
    | some v => simp only [Option.elim_some]
  · intro s h hr
    exact exec_of_cmd_ran rfl hr (by simp) rfl

end Sys2Proof.BringUpAndFaults
end

section
/-! Proofs of the family of counters and the life estimate (chapter 16): snapshots, clears and bandwidth windows, the
flow records sent to collectors, and the life estimate with its commands. -/

namespace Sys2Proof.CountersAndLife

open Sys2Proof.Machine
open Sys2Proof.NetworkTime (exec_of_cmd_ran exec_of_cmdLater_ran)
open Sys2Proof.RuleTables (exec_of_cmdLater_begun)

/-! ## Snapshots, clears and bandwidth windows -/

/-- Settles O46: the events by the request or the latched bank that each clause names, the commands by their parameters,
which hold. A requested snapshot of a held bank, the words of cnt.read_one and the start of a port's window are log entries
132, 146 and 218. -/
theorem counterCommandsComplete : Obligations.CounterCommandsComplete := by
  refine ⟨?_, ?_, ?_, ?_, fun _ _ => rfl, ?_, ?_, ?_, ?_, ?_, ?_, ?_⟩
  · intro s r hfind
    show execSnapshotLatch s = _
    simp only [execSnapshotLatch, hfind]
  · intro s bank r m hfind hcmd
    show execSnapshotDrain bank s = _
    simp only [execSnapshotDrain, hfind, hcmd]
  · intro s bank mbx cid q r m hfind hcmd
    show execSnapshotDrain bank s = _
    simp only [execSnapshotDrain, hfind, hcmd]
  · intro s u r hfind hu
    subst hu
    show execCounterClearApply s = _
    simp only [execCounterClearApply, hfind]
  · intro s h bank groups hr hbank hgroups hfree
    exact exec_of_cmdLater_begun rfl hr (by simp [hbank, hgroups]) (if_neg (by simp [hfree]))
  · intro s t h bank groups instant stack r hr hbank hmin hmax harm _
    exact exec_of_cmdLater_ran rfl hr (by simp [hbank, hmin, hmax]) harm
  · intro s h bank group first count hr hbank hgroup hmin hmax hfits hreadable
    have hfirst : first < ctrSlots group := by omega
    exact exec_of_cmd_ran rfl hr (by simp [hbank, hgroup, hfirst, hmin, hmax, hfits]) (if_neg (by simp [hreadable]))
  · intro s h group index hr hgroup hindex
    exact exec_of_cmd_ran rfl hr (by simp [hgroup, hindex]) rfl
  · intro s h groups hr hgroups
    exact exec_of_cmdLater_begun rfl hr (by simpa using hgroups) rfl
  · intro s h port code enable hr hport hcode hexists
    exact exec_of_cmd_ran rfl hr (by simp [hport, hcode]) (if_neg (by simp [hexists]))
  · intro s h port d w ws hr hport hexists hfind hlatest
    refine exec_of_cmd_ran rfl hr (by simpa using hport) ?_
    simp only [hexists, Bool.not_true, Bool.false_eq_true, if_false, hfind, hlatest]

/-! ## Flow records sent to collectors -/

/-- A record without a template of its size and state is counted, and its reference given back (R528). -/
theorem exec_exportEncode_noTemplate {s a : State} {q : ExpRecord} {r : FlowRec} (hnext : s.nextExport = some q)
    (ha : a = ({ s with cnt := { s.cnt with expQueue := s.cnt.expQueue.erase q } } : State).shrinkQueue)
    (hrec : a.recNow q.handle = some r)
    (hslot : (exportSlot r.size (toImage r.size r.words)).bind
      (fun i => (SMap.getD a.cnt.tmplSets q.set ⟨0, []⟩).slots[i]?) = none) :
    exec .exportEncode s = .next ((a.count C.expNoTemplate).refHeap q.handle crowsNest false) := by
  show execExportEncode s = _
  simp only [execExportEncode, hnext, ← ha, hrec, hslot, Option.filter_none]

/-- A record with a template is added to its collector's message, and its reference given back (R528, R530). -/
theorem exec_exportEncode_added {s a b : State} {q : ExpRecord} {r : FlowRec} {t : TmplSlot} {sent : Bool}
    (hnext : s.nextExport = some q)
    (ha : a = ({ s with cnt := { s.cnt with expQueue := s.cnt.expQueue.erase q } } : State).shrinkQueue)
    (hrec : a.recNow q.handle = some r)
    (hslot : (exportSlot r.size (toImage r.size r.words)).bind
      (fun i => (SMap.getD a.cnt.tmplSets q.set ⟨0, []⟩).slots[i]?) = some t) (htid : t.tid ≠ 0)
    (hadd : a.addRecord (SMap.getD a.cnt.tmplSets q.set ⟨0, []⟩).collector t.tid
      (a.dataRecord q r.size (toImage r.size r.words) t) = (b, sent)) :
    exec .exportEncode s = .next ((if sent = true then (if q.isEnd = true then (b.count C.expRecords).noteReason q
        else ((b.count C.expRecords).noteReason q).exportClear q.handle r.size (toImage r.size r.words)) else b).refHeap
      q.handle crowsNest false) := by
  have hused : (some t).filter (fun t => t.tid != 0) = some t := by
    rw [Option.filter_some, if_pos (bne_iff_ne.2 htid)]
  show execExportEncode s = _
  simp only [execExportEncode, hnext, ← ha, hrec, hslot, hused, hadd]
  cases sent <;> rfl

/-- The check of exp.template_set's header and slots: a collector of 0 to 7, zeros, and four good slots (R528). -/
theorem templateSet_ok {s : State} {c : Nat} {slots : List TmplSlot} (hc : c ≤ 7) (hlen : slots.length = 4)
    (hslots : ∀ x ∈ slots, s.slotOk x = true) :
    ([c, 0, 0, 0, 0, 0, 0, 0].length == 8 && ([c, 0, 0, 0, 0, 0, 0, 0].drop 1).all (· == 0) &&
      decide ([c, 0, 0, 0, 0, 0, 0, 0].getD 0 0 ≤ 7) && slots.length == 4 && slots.all s.slotOk) = true := by
  have hall : slots.all s.slotOk = true := List.all_eq_true.2 hslots
  simp [hc, hlen, hall]

/-- A collector none of whose template sets is in use may change (R529). -/
theorem collector_unused {s : State} {collector : Nat}
    (h : ∀ e ∈ s.cnt.tmplSets, e.2.collector = collector → s.setInUse e.1 = false) :
    (s.cnt.tmplSets.any fun e => e.2.collector == collector && s.setInUse e.1) = false := by
  rw [List.any_eq_false]
  intro e he
  cases hc : e.2.collector == collector with
  | false => simp
  | true => simp [h e he (beq_iff_eq.1 hc)]

/-! ## The life estimate -/

/-- A good sample that is due is taken of its source, or of none where the source does not exist (R535). -/
theorem exec_lifeSample_good {s : State} {m : Measure} (hen : s.getB F.lifeCtrl_enable = true)
    (hdue : s.sampleDue m = true) : exec (.lifeSample m true) s = .next ((match m with
      | .sensor n a b =>
        if n ≥ 48 then s else if b == 0 then s.setF F.lifeEvent_sampleFailSeen 0 1 else s.sampleSensor n a b
      | .channel g => if g < 192 then s.sampleChannel g else s
      | .lane k v => if k < 256 then s.sampleLane k v else s
      | .sector n => if n < 64 then s.addSample (0x300 + n) ((SMap.getD s.cnt.norErases n 0 : Nat) : Int) else s
      | .thermal a b => s.sampleThermal a b).sampleTaken m).syncLife := by
  show execLifeSample m true s = _
  simp only [execLifeSample, hen, hdue, Bool.not_true, Bool.false_eq_true, if_false] <;> rfl

/-- Settles O47: an encoded record by its two lemmas, a good sample by `exec_lifeSample_good`, the rest by the branch that
each clause's conditions choose. The words of exp.status and life.report are log entry 146. -/
theorem exportAndLifeComplete : Obligations.ExportAndLifeComplete := by
  refine ⟨?_, ?_, ?_, ?_, ?_, ?_, ?_, ?_, ?_, ?_, ?_, ?_, ?_, ?_, ?_, ?_, ?_, ?_, ?_, ?_⟩
  · intro s q r hnext hrec hslot
    exact exec_exportEncode_noTemplate hnext rfl hrec hslot
  · intro s a b q r t sent hnext ha hrec hslot htid hadd
    exact exec_exportEncode_added hnext ha hrec hslot htid hadd
  · intro s set w t hfind hopen hdue hwalked hset
    show execExportWindowClose set s = _
    simp only [execExportWindowClose, hfind, hopen, Bool.not_true, Bool.false_or, decide_eq_false (Nat.not_lt.2 hdue),
      hwalked, Bool.false_eq_true, if_false, hset]
  · intro s collector m hfind hdue
    show execExportMessageTimer collector s = _
    simp only [execExportMessageTimer, hfind, if_neg (Nat.not_lt.2 hdue)]
  · intro s hen hdue
    show execTemplateResend s = _
    rw [execTemplateResend, if_neg (by simp [hen, Nat.not_lt.2 hdue])]
  · intro s u set base w hfind hopen hwalking hen hbase hu
    subst hu hbase
    show execExportWalkVisit set s = _
    simp only [execExportWalkVisit, hfind, hopen, hwalking, hen, Bool.not_true, Bool.or_self, Bool.false_eq_true, if_false]
  · intro s h set c slots hr hset hc hlen hslots hunused
    exact exec_of_cmd_ran rfl hr (List.forall_mem_cons.2
      ⟨decide_eq_true hset, List.forall_mem_singleton.2 (templateSet_ok hc hlen hslots)⟩) (if_neg (by simp [hunused]))
  · intro s h collector dest hr hcollector hdest hunused
    refine exec_of_cmd_ran rfl hr (by simp [hcollector, hdest]) ?_
    simp only [collector_unused hunused, Bool.false_and, Bool.false_eq_true, if_false]
  · intro s h interval defaultSet msgMax enterprise hr hinterval hset hmin hmax henterprise
    refine exec_of_cmd_ran rfl hr (by simpa [hinterval, hset, hmin, hmax] using henterprise) ?_
    simp only [Bool.false_and, Bool.false_eq_true, if_false]
  · intro s h hr
    exact exec_of_cmd_ran rfl hr (by simp) rfl
  · intro s n a b hen hdue hn hb
    rw [exec_lifeSample_good hen hdue]
    simp only [ge_iff_le, if_neg (Nat.not_le.2 hn), beq_iff_eq, if_neg hb]
  · intro s g hen hdue hg
    rw [exec_lifeSample_good hen hdue]
    simp only [if_pos hg]
  · intro s k v hen hdue hk
    rw [exec_lifeSample_good hen hdue]
    simp only [if_pos hk]
  · intro s n hen hdue hn
    rw [exec_lifeSample_good hen hdue]
    simp only [if_pos hn]
  · intro s a b hen hdue
    rw [exec_lifeSample_good hen hdue]
  · intro s m hen hdue
    show execLifeSample m false s = _
    simp only [execLifeSample, hen, hdue, Bool.not_true, Bool.not_false, Bool.false_eq_true, if_false, if_true]
  · intro s hen hdue
    show execLifePrediction s = _
    rw [execLifePrediction, if_neg (by simp [hen, Nat.not_lt.2 hdue])]
  · intro s u i seq verified hdue hi hseq hu
    subst hu hseq hi
    show execWearAccWrite verified s = _
    simp only [execWearAccWrite, if_neg (Nat.not_lt.2 hdue)]
  · intro s h source hr hsource
    exact exec_of_cmd_ran rfl hr (by simp [hsource]) rfl
  · intro s h alarmMonths hr hmin hmax
    exact exec_of_cmd_ran rfl hr (by simp [hmin, hmax]) rfl

end Sys2Proof.CountersAndLife
end

section
/-! Proofs of the family of stacking (chapter 17): the slot frames and links, the seed, the forming of a stack, its time,
and who acts as its master. -/

namespace Sys2Proof.Stacking

open Sys2Proof.Machine

/-! ## Slot frames and links -/

/-- A frame of a link that is up: one with a bad header is counted, one of another device drops the link (R546, R547). -/
theorem exec_kendrelSlotFrame {s u : State} {link slot : Nat} {frame : StkFrame} (hlink : link < 4)
    (hup : s.getB F.stkLink_up link = true)
    (hu : u = (s.count (C.stkLinkFecCorr link) frame.fecCorr).count (C.stkLinkFecUncorr link) frame.fecUncorr) :
    exec (.kendrelSlotFrame link slot frame) s = .next (
      if (!frame.valid) = true then
        ({ u with stk := { u.stk with
          headerErrors := SMap.set u.stk.headerErrors link (SMap.getD u.stk.headerErrors link 0 + 1) } } : State).sendSlot
          link slot
      else if (frame.id != u.peerOf link) = true then u.dropLink link
      else (u.takeFields link slot frame).sendSlot link slot) := by
  have htaken : ¬ (decide (link ≥ 4) || !s.getB F.stkLink_up link) = true := by simp [hlink, hup]
  subst hu
  show execKendrelSlotFrame link slot frame s = _
  simp only [execKendrelSlotFrame, if_neg htaken]

/-- A link of a device with a role, neither up already nor in bare poles nor FURLED, comes up where the map expects its
peer (R547, R548). -/
theorem link_may_come_up {s : State} {link macro_ peer role : Nat} (hlink : link < 4) (hmacro : macro_ < 32)
    (hpeer : peer < 4) (hrole : role ≠ 0) (hown : s.stkRole ≠ 0) (hdown : s.getB F.stkLink_up link = false)
    (hpoles : s.getB F.fltStatus_barePoles = false) (hunfurled : s.furled = false)
    (hfits : s.linkFits link macro_ peer = true) :
    ¬ (decide (link ≥ 4) || decide (macro_ ≥ 32) || decide (peer ≥ 4) || role == 0 || s.stkRole == 0 ||
      s.getB F.stkLink_up link || s.getB F.fltStatus_barePoles || s.furled || !s.linkFits link macro_ peer) = true := by
  simp [hlink, hmacro, hpeer, hrole, hown, hdown, hpoles, hunfurled, hfits]

/-! ## The seed, the time and the master -/

/-- A member or deputy that has no seed 2 s after reset has waited long enough (R549). -/
theorem seed_waited {s : State} (hrole : s.stkRole = 1 ∨ s.stkRole = 2) (hseed : s.stk.seed = none)
    (hready : s.getB F.sysStatus_ready = false) (hdue : 2000000000 ≤ s.tm.ticks) :
    ¬ ((s.stkRole != 1 && s.stkRole != 2) || s.stk.seed.isSome || s.getB F.sysStatus_ready ||
      decide (s.tm.ticks < 2000000000)) = true := by
  rcases hrole with h | h <;> simp [h, hseed, hready, Nat.not_lt.2 hdue]

/-- The master of a formed stack has been silent for 10 ms (R565). -/
theorem master_silent {s : State} (hformed : s.stkFormed = true) (hother : s.actingMaster = false)
    (hdue : s.stk.masterAt + 10000000 ≤ s.tm.ticks) :
    ¬ (!s.stkFormed || s.actingMaster || decide (s.tm.ticks < s.stk.masterAt + 10000000)) = true := by
  simp [hformed, hother, Nat.not_lt.2 hdue]

/-- Only the acting master of a formed stack resigns (R565). -/
theorem master_may_resign {s : State} (hmaster : s.actingMaster = true) (hformed : s.stkFormed = true) :
    ¬ (!s.actingMaster || !s.stkFormed) = true := by
  simp [hmaster, hformed]

/-- Settles O48: a slot frame by `exec_kendrelSlotFrame`, the rest by the branch that each clause's conditions choose. A
frame and the one sent for it bear the same slot number, and an unmapped link may come up on a macro without a port: log
entries 170 and 166. -/
theorem stackEventsComplete : Obligations.StackEventsComplete := by
  refine ⟨?_, ?_, ?_, ?_, ?_, ?_, ?_, fun _ _ _ => rfl, ?_, ?_, ?_, ?_, ?_, ?_, ?_⟩
  · intro s u link slot frame hlink hup hvalid hu hpeer
    rw [exec_kendrelSlotFrame hlink hup hu, if_neg (by simp [hvalid]), if_neg (by simp [hpeer])]
  · intro s u link slot frame hlink hup hvalid hu
    rw [exec_kendrelSlotFrame hlink hup hu, if_pos (by simp [hvalid])]
  · intro s u link slot frame hlink hup hvalid hu hpeer
    rw [exec_kendrelSlotFrame hlink hup hu, if_neg (by simp [hvalid]), if_pos (bne_iff_ne.2 hpeer)]
  · intro s u v link macro_ peer role delay hlink hmacro hpeer hrole hown hdown hpoles hunfurled hfits hvalid hu hv
    subst hv hu
    show execKendrelLinkUp link macro_ peer role delay s = _
    simp only [execKendrelLinkUp,
      if_neg (link_may_come_up hlink hmacro hpeer hrole hown hdown hpoles hunfurled hfits), hvalid, Bool.not_true,
      Bool.false_eq_true, if_false]
  · intro s link macro_ peer role delay hlink hmacro hpeer hrole hown hdown hpoles hunfurled hfits hvalid
    show execKendrelLinkUp link macro_ peer role delay s = _
    simp only [execKendrelLinkUp,
      if_neg (link_may_come_up hlink hmacro hpeer hrole hown hdown hpoles hunfurled hfits), hvalid, Bool.not_false, if_true]
  · intro s link hlink hup
    show execKendrelLinkDown link s = _
    rw [execKendrelLinkDown, if_neg (by simp [hlink, hup])]
  · intro s hrole hseed hready hdue
    show execSeedWaitExpiry s = _
    rw [execSeedWaitExpiry, if_neg (seed_waited hrole hseed hready hdue)]
  · intro s f hform hdue
    show execStackFormTimeout s = _
    simp only [execStackFormTimeout, hform, if_neg (Nat.not_lt.2 hdue)]
  · intro s link theta rest hformed hother hlinks
    show execTimeMarkerExchange link theta s = _
    simp only [execTimeMarkerExchange, hformed, hother, hlinks, Bool.not_true, Bool.or_self, Bool.false_eq_true, if_false,
      beq_self_eq_true, if_true]
  · intro s link a theta rest hformed hother hlinks hsecond hin
    show execTimeMarkerExchange link theta s = _
    simp only [execTimeMarkerExchange, hformed, hother, hlinks, Bool.not_true, Bool.or_self, Bool.false_eq_true, if_false,
      beq_iff_eq, if_neg hsecond, List.contains_iff_mem, if_pos hin]
  · intro s hformed hother hdue hdeputy
    show execDeputyTakeover s = _
    rw [execDeputyTakeover, if_neg (master_silent hformed hother hdue), if_pos (beq_iff_eq.2 hdeputy)]
  · intro s hformed hother hdue hmember hunheard hlive
    have hquiet : (s.flt.live.any fun l => l.code == 0x2802) = false := by simpa using hlive
    show execDeputyTakeover s = _
    simp only [execDeputyTakeover, if_neg (master_silent hformed hother hdue), beq_false_of_ne hmember, hunheard, hquiet,
      Bool.or_self, Bool.false_eq_true, if_false]
  · intro s hmaster hformed hgen
    show execMasterResign s = _
    rw [execMasterResign, if_neg (master_may_resign hmaster hformed), if_pos hgen]
  · intro s hmaster hformed hgen hrole hheard hdue
    show execMasterResign s = _
    rw [execMasterResign, if_neg (master_may_resign hmaster hformed), if_neg (Nat.not_lt.2 hgen),
      if_pos (by simp [hrole, hheard, hdue])]

end Sys2Proof.Stacking
end

section
/-! Proofs about registers and notifications: the state after reset, fields set and written by their access types (R3,
R446), and the numbers of notification records (R462, R463). -/

namespace Sys2Proof.Registers

open Sys2Proof.Machine
open Sys2Proof.NetworkTime (fieldOf_withField_same getF_setF_same)

/-! ## After reset -/

/-- Settles O4: nothing is listed after reset, so every register reads its reset word and no counter has counted. -/
theorem resetSound : Obligations.ResetSound :=
  ⟨⟨⟨rfl, fun _ h => absurd h List.not_mem_nil⟩, fun _ _ => rfl, rfl, fun _ h => absurd h List.not_mem_nil⟩, rfl, rfl⟩

/-! ## Fields set by the device -/

/-- Settles O6: the register takes a word in which the field alone is replaced (`withField_testBit`). -/
theorem fieldHolds : Obligations.FieldHolds := by
  intro s f i v hs hl hh hv
  refine ⟨?_, fun j hj hout => ?_, fun r k hother => ?_, rfl⟩
  · rw [getF_setF_same hs.regs.1 f i v hl hh]
    have hpos : 0 < 2 ^ (f.hi - f.lo + 1) := Nat.two_pow_pos _
    exact Nat.mod_eq_of_lt (by unfold Fld.top at hv; omega)
  · unfold State.setF
    rw [State.rd_wr _ _ _ _ _ _ hs.regs.1, if_pos ⟨rfl, rfl⟩, bitOf_eq, bitOf_eq, withField_testBit _ _ _ _ _ hl hj,
      if_neg (by omega)]
  · unfold State.setF
    rw [State.rd_wr _ _ _ _ _ _ hs.regs.1, if_neg fun h => hother.elim (· h.1) (· h.2)]

/-! ## Fields of a word -/

/-- A field is read from its own bits alone. -/
theorem fieldOf_congr {w w' : BitVec 32} {hi lo : Nat} (hl : lo ≤ hi)
    (h : ∀ j, lo ≤ j → j ≤ hi → w.toNat.testBit j = w'.toNat.testBit j) : fieldOf w hi lo = fieldOf w' hi lo := by
  apply Nat.eq_of_testBit_eq
  intro j
  simp only [fieldOf, bitsOf, Nat.testBit_mod_two_pow, Nat.testBit_shiftRight]
  by_cases hj : j < hi - lo + 1
  · rw [h (lo + j) (by omega) (by omega)]
  · simp [hj]

theorem fieldOf_lt (w : BitVec 32) (hi lo : Nat) : fieldOf w hi lo < 2 ^ (hi - lo + 1) :=
  Nat.mod_lt _ (Nat.two_pow_pos _)

/-! ## Words written by host software -/

/-- A row of a register's table lies inside the word. -/
abbrev Inside (f : FieldRow) : Prop := f.lo ≤ f.hi ∧ f.hi < 32

/-- Two rows share no bit. -/
abbrev Apart (f g : FieldRow) : Prop := f.hi < g.lo ∨ g.hi < f.lo

theorem fields_inside (r : Reg) : ∀ f ∈ r.fields, Inside f := by cases r <;> decide

theorem fields_apart (r : Reg) : r.fields.Pairwise Apart := by cases r <;> decide

/-- What a write does to one row: the field by its type, and whether its lock was met. -/
def writeRow (r : Reg) (locked : Bool) (data : BitVec 32) (a : BitVec 32 × Bool) (f : FieldRow) : BitVec 32 × Bool :=
  let (v, b) := writeField r locked f (fieldOf a.1 f.hi f.lo) (fieldOf data f.hi f.lo)
  (withField a.1 f.hi f.lo v, a.2 || b)

/-- A write of a register without a capture's valid bit writes its rows in turn. -/
theorem writeWord_eq (s : State) {r : Reg} {i : Nat} (data : BitVec 32) (hv : r.captureValid i = false) :
    s.writeWord r i data = r.fields.foldl (writeRow r (s.regLocked r i) data) (s.rd r i, false) := by
  simp only [State.writeWord, hv, Bool.false_and, Bool.false_eq_true, if_false]
  rfl

section
variable {r : Reg} {locked : Bool} {data : BitVec 32}

/-- A row written leaves the bits outside it. -/
theorem writeRow_testBit {a : BitVec 32 × Bool} {f : FieldRow} (hf : Inside f) {j : Nat} (hj : j < 32)
    (hout : j < f.lo ∨ f.hi < j) : (writeRow r locked data a f).1.toNat.testBit j = a.1.toNat.testBit j := by
  show (withField _ _ _ _).toNat.testBit j = _
  rw [withField_testBit _ _ _ _ _ hf.1 hj, if_neg (by omega)]

/-- Rows written leave the bits outside all of them. -/
theorem writeRows_testBit {fs : List FieldRow} (hin : ∀ f ∈ fs, Inside f) {j : Nat} (hj : j < 32)
    (hout : ∀ f ∈ fs, j < f.lo ∨ f.hi < j) (a : BitVec 32 × Bool) :
    (fs.foldl (writeRow r locked data) a).1.toNat.testBit j = a.1.toNat.testBit j := by
  induction fs generalizing a with
  | nil => rfl
  | cons f fs ih =>
    rw [List.foldl_cons, ih (fun g hg => hin g (List.mem_cons_of_mem _ hg)) fun g hg => hout g (List.mem_cons_of_mem _ hg)]
    exact writeRow_testBit (hin f List.mem_cons_self) hj (hout f List.mem_cons_self)

/-- Rows written leave a field that lies apart from all of them. -/
theorem fieldOf_writeRows {fs : List FieldRow} (hin : ∀ f ∈ fs, Inside f) {g : FieldRow} (hg : Inside g)
    (hapart : ∀ f ∈ fs, Apart g f) (a : BitVec 32 × Bool) :
    fieldOf (fs.foldl (writeRow r locked data) a).1 g.hi g.lo = fieldOf a.1 g.hi g.lo :=
  fieldOf_congr hg.1 fun _ hlo hhi => writeRows_testBit hin (by have := hg.2; omega)
    (fun f hf => by have := hapart f hf; omega) a

/-- A written field keeps to its width. -/
theorem writeField_lt (f : FieldRow) {old new n : Nat} (ho : old < n) (hn : new < n) :
    (writeField r locked f old new).1 < n := by
  unfold writeField
  split
  · exact hn
  · dsimp only; split <;> assumption
  · exact Nat.lt_of_le_of_lt (Nat.sub_le _ _) ho
  · split <;> assumption
  all_goals exact ho

/-- A row written takes the value its type gives it. -/
theorem fieldOf_writeRow {a : BitVec 32 × Bool} {f : FieldRow} (hf : Inside f) :
    fieldOf (writeRow r locked data a f).1 f.hi f.lo =
      (writeField r locked f (fieldOf a.1 f.hi f.lo) (fieldOf data f.hi f.lo)).1 :=
  (fieldOf_withField_same a.1 _ hf.1 hf.2).trans
    (Nat.mod_eq_of_lt (writeField_lt f (fieldOf_lt _ _ _) (fieldOf_lt _ _ _)))

/-- Of rows that lie apart each takes the value its type gives it, from the word before the write. -/
theorem fieldOf_writeRows_mem {fs : List FieldRow} (hin : ∀ f ∈ fs, Inside f) (hapart : fs.Pairwise Apart)
    {g : FieldRow} (hg : g ∈ fs) (a : BitVec 32 × Bool) :
    fieldOf (fs.foldl (writeRow r locked data) a).1 g.hi g.lo =
      (writeField r locked g (fieldOf a.1 g.hi g.lo) (fieldOf data g.hi g.lo)).1 := by
  induction fs generalizing a with
  | nil => cases hg
  | cons f fs ih =>
    obtain ⟨hffs, hfs⟩ := List.pairwise_cons.1 hapart
    have hf : Inside f := hin f List.mem_cons_self
    have hrest : ∀ f ∈ fs, Inside f := fun f hf => hin f (List.mem_cons_of_mem _ hf)
    rw [List.foldl_cons]
    rcases List.mem_cons.1 hg with rfl | hg
    · rw [fieldOf_writeRows hrest hf hffs, fieldOf_writeRow hf]
    · have hsame : fieldOf (writeRow r locked data a f).1 g.hi g.lo = fieldOf a.1 g.hi g.lo :=
        fieldOf_writeRows (fs := [f]) (by simpa using hf) (hrest g hg) (by simpa using (hffs g hg).symm) a
      rw [ih hrest hfs hg, hsame]

/-- The lock is met where it is met in one of the rows, each read from the word before the write. -/
theorem writeRows_hit {fs : List FieldRow} (hin : ∀ f ∈ fs, Inside f) (hapart : fs.Pairwise Apart)
    (a : BitVec 32 × Bool) :
    (fs.foldl (writeRow r locked data) a).2 = true ↔ a.2 = true ∨
      ∃ f ∈ fs, (writeField r locked f (fieldOf a.1 f.hi f.lo) (fieldOf data f.hi f.lo)).2 = true := by
  induction fs generalizing a with
  | nil => simp
  | cons f fs ih =>
    obtain ⟨hffs, hfs⟩ := List.pairwise_cons.1 hapart
    have hrest : ∀ f ∈ fs, Inside f := fun f hf => hin f (List.mem_cons_of_mem _ hf)
    have hsame (g : FieldRow) (hg : g ∈ fs) :
        fieldOf (writeRow r locked data a f).1 g.hi g.lo = fieldOf a.1 g.hi g.lo :=
      fieldOf_writeRows (fs := [f]) (by simpa using hin f List.mem_cons_self) (hrest g hg)
        (by simpa using (hffs g hg).symm) a
    have hflag : (writeRow r locked data a f).2 =
        (a.2 || (writeField r locked f (fieldOf a.1 f.hi f.lo) (fieldOf data f.hi f.lo)).2) := rfl
    rw [List.foldl_cons, ih hrest hfs, hflag, Bool.or_eq_true, or_assoc]
    simp only [List.mem_cons, exists_eq_or_imp]
    refine or_congr_right (or_congr_right ?_)
    exact exists_congr fun g => and_congr_right fun hg => by rw [hsame g hg]

end

/-- A field meets its lock where it is of type RWL, locked, and the written value differs from its own. -/
theorem writeField_hit (r : Reg) (locked : Bool) (f : FieldRow) (old new : Nat) :
    (writeField r locked f old new).2 = true ↔ locked = true ∧ f.ty = .rwl ∧ old ≠ new := by
  unfold writeField
  cases f.ty <;> cases locked <;> simp

/-- Settles O7: the rows of a register lie apart, so each takes the value that `writeField` gives it from the word before
the write. -/
theorem registerWriteTypes : Obligations.RegisterWriteTypes := by
  intro s r i data hv
  have hin := fields_inside r
  have hapart := fields_apart r
  rw [writeWord_eq s data hv]
  refine ⟨fun f hf => ?_, ?_, fun j hj hout => ?_⟩
  · rw [fieldOf_writeRows_mem hin hapart hf]
    refine ⟨fun h => ?_, fun h => ?_, fun h => ?_, fun h hl => ?_, fun h hl => ?_⟩
    · simp only [writeField, h]
    · simp only [writeField, h]
    · rcases h with h | h | h <;> simp only [writeField, h]
    · simp only [writeField, h, hl, Bool.false_eq_true, if_false]
    · simp only [writeField, h, hl, if_true]
  · rw [writeRows_hit hin hapart]
    simp only [writeField_hit, Bool.false_eq_true, false_or]
    constructor
    · rintro ⟨f, hf, hlocked, hty, hne⟩
      exact ⟨hlocked, f, hf, hty, hne⟩
    · rintro ⟨hlocked, f, hf, hty, hne⟩
      exact ⟨f, hf, hlocked, hty, hne⟩
  · rw [bitOf_eq, bitOf_eq]
    exact writeRows_testBit hin hj hout _

/-! ## Numbers of notification records -/

/-- A map set at one key is found as before at the others, whatever its form. -/
theorem find?_set_other {α : Type} (m : SMap α) {k k' : Nat} (v : α) (hne : k' ≠ k) :
    SMap.find? (SMap.set m k v) k' = SMap.find? m k' := by
  induction m with
  | nil => simp [SMap.set, SMap.find?, hne]
  | cons e m ih =>
    obtain ⟨k0, v0⟩ := e
    simp only [SMap.set]
    split
    · simp [SMap.find?, hne]
    · split
      · rename_i heq
        simp [SMap.find?, ← heq, hne]
      · simp only [SMap.find?, ih]

theorem find?_del_other {α : Type} (m : SMap α) {k k' : Nat} (hne : k' ≠ k) :
    SMap.find? (SMap.del m k) k' = SMap.find? m k' := by
  induction m with
  | nil => rfl
  | cons e m ih =>
    obtain ⟨k0, v0⟩ := e
    simp only [SMap.del]
    split
    · rename_i heq
      simp [SMap.find?, ← heq, hne]
    · simp only [SMap.find?, ih]

theorem getD_put_other {m : SMap Nat} {k k' : Nat} (v : Nat) (hne : k' ≠ k) :
    SMap.getD (SMap.put 0 m k v) k' 0 = SMap.getD m k' 0 := by
  unfold SMap.put SMap.getD
  split
  · rw [find?_del_other m hne]
  · rw [find?_set_other m v hne]

theorem getD_put_same {m : SMap Nat} {k v : Nat} (hv : v ≠ 0) : SMap.getD (SMap.put 0 m k v) k 0 = v := by
  unfold SMap.put SMap.getD
  rw [if_neg hv, SMap.find?_set_self]
  rfl

/-- A number that goes on without passing 2^32 - 1 is read back. -/
theorem getD_next {m : SMap Nat} {k n : Nat} (hn : 0 < n) (h : SMap.getD m k 0 + n < 2 ^ 32) :
    SMap.getD (SMap.put 0 m k ((SMap.getD m k 0 + n) % 2 ^ 32)) k 0 = SMap.getD m k 0 + n := by
  rw [Nat.mod_eq_of_lt h]
  exact getD_put_same (by omega)

/-- Settles O13: both operations put the next number at the source's own key. That the number is taken at the event, in
one queue for all sources, is log entry 14. -/
theorem notificationsNumbered : Obligations.NotificationsNumbered :=
  ⟨fun _ _ _ _ _ _ => ⟨⟨_, rfl, rfl, rfl, rfl⟩, getD_next Nat.one_pos, fun _ hk => getD_put_other _ hk⟩,
    fun _ _ _ _ hn h => ⟨rfl, getD_next hn h⟩⟩

end Sys2Proof.Registers
end

section
/-! Proofs of the flow store's lookup events (chapter 7): requests, hops, fills, answers and reissues. -/

namespace Sys2Proof.FlowLookup

open Sys2Proof.Machine
open Sys2Proof.FlowStore (imageNow_congr)

/-- A request taken from those that wait, its packet present and its shard serving, is looked up at its home. -/
theorem exec_flowLookupRequest {s t : State} {shard : Nat} {err : Option EccErr} {r : LookReq} {rest : List LookReq}
    (ht : t = err.elim s fun e => s.fstEcc shard e)
    (htake : takeReq (fun r => r.shard == shard && r.hop.isNone) t.fst.reqs = some (r, rest))
    (hpkt : SMap.has t.pk.pkts r.pkt = true) (hserves : shard ∉ t.fst.restarting) :
    exec (.flowLookupRequest shard err) s = .next
      (({ t with fst := { t.fst with reqs := rest } } : State).homeLookup shard r t) := by
  show execFlowLookupRequest shard err s = _
  subst ht
  simp only [execFlowLookupRequest, htake, hpkt, List.contains_iff_mem, hserves, Bool.not_true, Bool.false_eq_true,
    if_false]

section
variable {s : State} {shard h dir : Nat} {set : Option Nat} {r : LookReq} {rest : List LookReq}

/-- The state in which RECORD_HOP looks: the hop is taken and counted as a lookup. -/
def hopTaken (s : State) (shard : Nat) (rest : List LookReq) : State :=
  ({ s with fst := { s.fst with reqs := rest } } : State).count (C.fstLookups shard)

/-- Taking a hop leaves the flow store as it is, but for the requests. -/
theorem hopTaken_fst : (hopTaken s shard rest).fst = { s.fst with reqs := rest } := State.count_fst _ _ _

/-- A hop whose handle is good goes on by whether its owner set is known, its record cached and no request of its key
waits. -/
theorem exec_recordHop (htake : takeReq (fun r => r.shard == shard && r.hop.isSome) s.fst.reqs = some (r, rest))
    (hpkt : SMap.has s.pk.pkts r.pkt = true) (hserves : shard ∉ s.fst.restarting) (hhop : r.hop = some (h, dir, set))
    (hgood : s.badHeap h = none) :
    exec (.recordHop shard) s = .next (
      match if ((s.mqOf shard).any fun e => e.key == r.key) || set.isNone then none else s.recLine 0 h with
      | none => (hopTaken s shard rest).enqueue shard r (some (h, dir))
      | some (k, l) =>
        if !verifyRec l.size (s.imageNow h) r.key dir then (hopTaken s shard rest).enqueue shard r (some (h, dir))
        else
          match (hopTaken s shard rest).answerLine k l r.pkt dir with
          | (t, true) => t.count (C.fstHits shard)
          | (_, false) => (hopTaken s shard rest).waitHit shard r (some (h, dir)) s) := by
  have hfst : (hopTaken s shard rest).fst = { s.fst with reqs := rest } := hopTaken_fst
  have hgood' : (hopTaken s shard rest).badHeap h = none := by
    rw [State.badHeap_congr (s := s) (by rw [hfst]), hgood]
  have hline : (hopTaken s shard rest).recLine 0 h = s.recLine 0 h := State.recLine_congr (by rw [hfst]) 0 h
  have hmq : (hopTaken s shard rest).mqOf shard = s.mqOf shard := by unfold State.mqOf; rw [hfst]
  have himage : (hopTaken s shard rest).imageNow h = s.imageNow h := imageNow_congr (by rw [hfst]) (by rw [hfst]) h
  show execRecordHop shard s = _
  unfold hopTaken at hgood' hline hmq himage ⊢
  simp only [execRecordHop, htake, hpkt, List.contains_iff_mem, hserves, hhop, hgood', hline, hmq, himage,
    Bool.not_true, Bool.false_eq_true, if_false] <;> rfl

end

/-- Settles O17: requests and hops by `exec_flowLookupRequest` and `exec_recordHop`, the rest by the branch that each
clause's conditions choose. -/
theorem flowLookupEventsComplete : Obligations.FlowLookupEventsComplete := by
  refine ⟨fun s shard r rest htake hpkt hserves => exec_flowLookupRequest rfl htake hpkt hserves,
    fun s shard e r rest htake hpkt hserves => exec_flowLookupRequest rfl htake hpkt hserves, ?_, ?_, ?_,
    fun _ _ _ _ => rfl, ?_, ?_, ?_, ?_, ?_⟩
  · intro s shard h dir set r rest htake hpkt hserves hhop hgood hwaits
    rw [exec_recordHop htake hpkt hserves hhop hgood]
    have hnone : (if ((s.mqOf shard).any fun e => e.key == r.key) || set.isNone then none else s.recLine 0 h) = none := by
      rcases hwaits with hset | hline | ⟨e, he, hkey⟩
      · simp [hset]
      · simp [hline]
      · rw [if_pos]
        rw [Bool.or_eq_true, List.any_eq_true]
        exact .inl ⟨e, he, beq_iff_eq.2 hkey⟩
    rw [hnone]
    rfl
  · intro s shard h dir set k l r rest htake hpkt hserves hhop hgood hfree hline hverify hroom
    have hquiet : ((s.mqOf shard).any fun e => e.key == r.key) = false := by simpa using hfree
    rw [exec_recordHop htake hpkt hserves hhop hgood]
    simp only [hquiet, Option.isNone_some, Bool.or_self, Bool.false_eq_true, if_false, hline, hverify, Bool.not_true,
      State.answerLine, ge_iff_le, if_neg (Nat.not_le.2 hroom), hopTaken]
  · intro s shard k h set a l hfill hline
    show execLinkFill shard s = _
    simp only [execLinkFill, hfill, hline]
  · intro s shard place h d e hentry htarget
    show execInstallRetry shard place s = _
    simp only [execInstallRetry, hentry, htarget]
  · intro s pipe id a p rest htake hp hwindow hrig
    have hwindow' : ({ s with fst := { s.fst with answers := rest } } : State).windowFull pipe = false := hwindow
    have hrig' : ({ s with fst := { s.fst with answers := rest } } : State).rigFull pipe = false := hrig
    show execLookupAnswer pipe s = _
    simp only [execLookupAnswer, htake, hp, hwindow', hrig', Bool.or_self, Bool.and_false, Bool.false_eq_true, if_false]
  · intro s pipe id p rest htake hp hrig
    have hrig' : ({ s with fst := { s.fst with answers := rest } } : State).rigFull pipe = false := hrig
    show execLookupAnswer pipe s = _
    simp only [execLookupAnswer, htake, hp, hrig', Bool.false_eq_true, if_false]
  · intro s shard k hk
    show execRelocationClear shard s = _
    simp only [execRelocationClear, hk]
  · intro s pkt e x he hx hpkt hparked hdue
    have hany : (s.fst.mq.any fun e => e.2.any fun x =>
        x.pkt == pkt && x.wait == .parked && decide (s.tm.ticks ≥ x.asked + 20000)) = true := by
      rw [List.any_eq_true]
      refine ⟨e, he, List.any_eq_true.2 ⟨x, hx, ?_⟩⟩
      simp [hpkt, hparked, hdue]
    show execRemoteReissueTimeout pkt s = _
    simp only [execRemoteReissueTimeout, hany, if_true]

end Sys2Proof.FlowLookup
end

section
/-! Proofs of the fault collector's events (chapter 15): the capture window, the exits and the heartbeat. -/

namespace Sys2Proof.FaultCollector

open Sys2Proof.Machine

/-- What a held notification sends when the capture window closes: nothing, a loss notification or a fault notification
(R486). -/
def sendHeld (simul : Bool) (tied : List HeldFault) (t : State) (h : HeldFault) : State :=
  if h.notify = false then t
  else if h.loss ≠ [] then t.notifyAt 5 4 0 false h.loss h.unlocked h.fault.sec h.fault.ns
  else t.sendFaultNotif h.fault h.severity (simul && tied.contains h) ((faultRow h.fault.code).any (·.condition)) h.unlocked

/-- The model's test of a held notification, which reads the flags as Booleans, sends the same. -/
theorem sendHeld_eq (simul : Bool) (tied : List HeldFault) :
    (fun (t : State) (h : HeldFault) =>
      if !h.notify then t
      else if !h.loss.isEmpty then t.notifyAt 5 4 0 false h.loss h.unlocked h.fault.sec h.fault.ns
      else t.sendFaultNotif h.fault h.severity (simul && tied.contains h) ((faultRow h.fault.code).any (·.condition))
        h.unlocked) = sendHeld simul tied := by
  funext t h
  unfold sendHeld
  cases h.notify <;> cases h.loss <;> rfl

/-- The faults that tie for the capture: at or above capture_min and within 1 ns of the earliest stamp (R488). -/
theorem exec_captureWindowClose {s a b : State} {start : Nat} {tied : List HeldFault} (hw : s.flt.window = some start)
    (htied : tied = (s.flt.windowFaults.filter (·.loss.isEmpty)).filter fun h =>
      decide (s.getF F.fltCtrl_captureMin ≤ h.severity) && decide (h.stamp ≤ start + 1))
    (ha : a = (match captured tied with
      | none => ({ s with flt := { s.flt with window := none, windowFaults := [] } } : State)
      | some h => (({ s with flt := { s.flt with window := none, windowFaults := [] } } : State).fillCapture h
        (decide (1 < tied.length))).addF F.fltSimul_others 0 (tied.length - 1)))
    (hb : b = if 1 < tied.length then tied.foldl (fun t h => t.markTied h) a else a) :
    exec .captureWindowClose s = .next
      ((s.flt.windowFaults.foldl (fun l h => insertStamp h l) []).foldl (sendHeld (decide (1 < tied.length)) tied) b) := by
  show execCaptureWindowClose s = _
  rw [← sendHeld_eq]
  subst hb ha htied
  simp only [execCaptureWindowClose, hw, decide_eq_true_eq] <;> rfl

/-- Settles O43: the capture window by `exec_captureWindowClose`, the rest by the branch that each clause's conditions
choose. That a parity error is recorded before the table is emptied, and that the log records of tied faults carry the
simultaneous bit from the close of the window, are log entries 119 and 120. -/
theorem faultEventsComplete : Obligations.FaultEventsComplete := by
  refine ⟨fun _ _ _ _ _ _ _ _ _ => rfl, fun s a b start tied hw ht ha hb => exec_captureWindowClose hw ht ha hb,
    fun _ _ _ => rfl, ?_, ?_, ?_, ?_, fun _ => rfl, ?_⟩
  · intro s a b hreef hpoles hquiet ha hb
    subst hb ha
    show execReefExit s = _
    simp only [execReefExit, hreef, hpoles, hquiet, Bool.not_true, Bool.or_self, Bool.false_eq_true, if_false]
  · intro s hpoles hlatched hquiet hexits
    show execBarePolesExit s = _
    simp only [execBarePolesExit, hpoles, hlatched, hquiet, Bool.not_true, Bool.or_self, Bool.false_eq_true, if_false,
      if_neg (Nat.not_le.2 hexits)]
  · intro s hpoles hlatched hquiet hexits
    show execBarePolesExit s = _
    simp only [execBarePolesExit, hpoles, hlatched, hquiet, Bool.not_true, Bool.or_self, Bool.false_eq_true, if_false,
      if_pos hexits]
  · intro s a b ha hb
    subst hb ha
    rfl
  · intro s hs4 hdue
    show execHeartbeatCheck false s = _
    simp only [execHeartbeatCheck, hs4, decide_eq_false (Nat.not_lt.2 hdue), Bool.or_self, Bool.false_eq_true, if_false]

end Sys2Proof.FaultCollector
end

section
/-! Every step keeps the registers and the counters sound, takes the front of the queue and nothing else, and takes
back neither an output nor a free value (R3, R27, R440, R446, R498, R517). `Keeps s t` is carried through the model,
definition by definition in its order: one lemma for each function over the state and for each meaning of an
instruction. -/

namespace Sys2Proof.Sound

open Sys2Proof.Machine

/-! ## Rules for pairs, programs and folds -/

theorem fstProg {α : Type} {s : State} {c : Prog} {v : α} {p : Prog × α} (e : p = (c, v)) (h : Keeps s p.1.s) :
    Keeps s c.s := by
  rw [e] at h
  exact h

theorem elimProg {α : Type} {s : State} {o : Option α} {c : Prog} {f : α → Prog} (hf : ∀ a, Keeps s (f a).s)
    (hc : Keeps s c.s) : Keeps s (o.elim c f).s := by
  cases o with
  | none => exact hc
  | some a => exact hf a

theorem iteProg {s : State} {p : Prop} [Decidable p] {a b : Prog} (ha : Keeps s a.s) (hb : Keeps s b.s) :
    Keeps s (if p then a else b).s := by
  split
  · exact ha
  · exact hb

theorem iteProgFst {α : Type} {s : State} {p : Prop} [Decidable p] {a b : Prog × α} (ha : Keeps s a.1.s)
    (hb : Keeps s b.1.s) : Keeps s (if p then a else b).1.s := by
  split
  · exact ha
  · exact hb

theorem keeps_getD {s t : State} {o : Option State} (h : Keeps s t) (ho : ∀ u, o = some u → Keeps s u) :
    Keeps s (o.getD t) := by
  cases o with
  | none => exact h
  | some u => exact ho u rfl

theorem foldlMem_keeps {β : Type} {s t : State} {g : State → β → State} (l : List β)
    (hg : ∀ u, ∀ a ∈ l, Keeps s u → Keeps s (g u a)) (h : Keeps s t) : Keeps s (l.foldl g t) := by
  induction l generalizing t with
  | nil => exact h
  | cons a l ih =>
    exact ih (fun u b hb => hg u b (List.mem_cons_of_mem _ hb)) (hg t a List.mem_cons_self h)

/-! ## Rules for registers -/

theorem wrFree_keeps {s t : State} (h : Keeps s t) (r : Reg) (i : Nat) (w : BitVec 32) (hr : r.fixedMask = 0) :
    Keeps s (t.wr r i w) :=
  wr_keeps h _ _ _ fun _ => by rw [hr]; exact (Nat.and_zero _).trans (Nat.and_zero _).symm

/-- A register takes the word it holds in another state that follows soundly. -/
theorem wrOf_keeps {s t u : State} (h : Keeps s t) (hu : Keeps s u) (r : Reg) (i : Nat) :
    Keeps s (t.wr r i (u.rd r i)) :=
  ⟨h.queue, h.drawn, h.out, fun hi => (wr_keeps (.refl t) r i _ fun _ => (hu.inv hi).fixed r i).inv (h.inv hi)⟩

/-- Words that share no bit. -/
theorem land_eq_zero {x m : Nat} (h : ∀ j, x.testBit j = true → m.testBit j = false) : Nat.land x m = 0 := by
  apply Nat.eq_of_testBit_eq
  intro j
  show (x &&& m : Nat).testBit j = _
  rw [Nat.testBit_and, Nat.zero_testBit]
  cases hx : x.testBit j with
  | false => rfl
  | true => rw [h j hx]; rfl

/-- A field of the later bank number lies above bit 31 where no such bank is. -/
theorem bankF_free {b hi lo : Nat} (hl : lo ≤ hi) (h0 : (bankF 0 hi lo).free = true)
    (h1 : (bankF 1 hi lo).free = true) : (bankF b hi lo).free = true := by
  match b with
  | 0 => exact h0
  | 1 => exact h1
  | b + 2 => exact Fld.free_high (by omega) (by omega)

end Sys2Proof.Sound
end

section
/-! What the definitions of Machine/Ops.lean keep: the queue, the outputs, the free values, and soundness. -/

namespace Sys2Proof.Sound

open Sys2Proof.Machine Sys2Proof.Registers

theorem drawOne_keeps {s t : State} (h : Keeps s t) :
    Keeps s t.draw :=
  Keeps.mkDraw h

theorem eraseSector_keeps {s t : State} (h : Keeps s t) (n : Nat) :
    Keeps s (t.eraseSector n) :=
  Keeps.mk_iff.2 h

theorem logCountdown_keeps {s t : State} (h : Keeps s t) :
    Keeps s t.logCountdown := by
  unfold State.logCountdown
  split
  · exact h
  · exact Keeps.ite (setF_keeps (setF_keeps (Keeps.mk_iff.2 h) _ _ _ (by decide)) _ _ _ (by decide))
      (Keeps.mk_iff.2 h)

theorem logWrite_keeps {s t : State} (h : Keeps s t) (lr : LogRec) :
    Keeps s (t.logWrite lr) := by
  unfold State.logWrite
  extract_lets stopped head seq wraps src s1 s2 s3 s4
  have hs1 : Keeps s s1 := Keeps.mk_iff.2 h
  have hs2 : Keeps s s2 := setF_keeps (setF_keeps hs1 _ _ _ (by decide)) _ _ _ (by decide)
  have hs3 : Keeps s s3 := Keeps.ite (setF_keeps (setF_keeps hs2 _ _ _ (by decide)) _ _ _ (by decide)) hs2
  have hs4 : Keeps s s4 := Keeps.ite (addF_keeps hs3 _ _ _ (by decide)) hs3
  exact Keeps.ite h (logCountdown_keeps (count_keeps hs4 _ _))

theorem notifyAt_keeps {s t : State} (h : Keeps s t) (kind cls index : Nat) (late : Bool) (payload : List Nat)
    (unlocked : Bool) (sec ns : Nat) :
    Keeps s (t.notifyAt kind cls index late payload unlocked sec ns) :=
  Keeps.mk_iff.2 h

theorem notify_keeps {s t : State} (h : Keeps s t) (kind cls index : Nat) (late : Bool) (payload : List Nat) :
    Keeps s (t.notify kind cls index late payload) :=
  notifyAt_keeps h _ _ _ _ _ _ _ _

theorem skipNotif_keeps {s t : State} (h : Keeps s t) (cls index n : Nat) :
    Keeps s (t.skipNotif cls index n) :=
  Keeps.mk_iff.2 h

end Sys2Proof.Sound
end

section
/-! What the definitions of Machine/Bandwidth.lean keep: the queue, the outputs, the free values, and soundness. -/

namespace Sys2Proof.Sound

open Sys2Proof.Machine Sys2Proof.Registers

theorem bwFrame_keeps {s t : State} (h : Keeps s t) (port : Nat) (tx : Bool) (octets : Nat) :
    Keeps s (t.bwFrame port tx octets) :=
  Keeps.mk_iff.2 h

theorem bwRoll_keeps {s t : State} (h : Keeps s t) :
    Keeps s t.bwRoll :=
  Keeps.mk_iff.2 h

theorem bwUnlocked_keeps {s t : State} (h : Keeps s t) :
    Keeps s t.bwUnlocked :=
  Keeps.mk_iff.2 h

theorem bwStep_keeps {s t : State} (h : Keeps s t) (old new : Nat) :
    Keeps s (t.bwStep old new) :=
  Keeps.mk_iff.2 h

end Sys2Proof.Sound
end

section
/-! What the definitions of Machine/Flags.lean keep: the queue, the outputs, the free values, and soundness. -/

namespace Sys2Proof.Sound

open Sys2Proof.Machine Sys2Proof.Registers

theorem raiseVector_keeps {s t : State} (h : Keeps s t) (v : Nat) :
    Keeps s (t.raiseVector v) :=
  Keeps.ite h (emit_keeps h _)

theorem updateIntN_keeps {s t : State} (h : Keeps s t) :
    Keeps s t.updateIntN :=
  Keeps.mk_iff.2 h

theorem raiseIrq_keeps {s t : State} (h : Keeps s t) (b : Nat) (hb : Fld.free ⟨.sysIrqStatus, b, b⟩ = true) :
    Keeps s (t.raiseIrq b) := by
  unfold State.raiseIrq
  extract_lets w s1
  have hs1 : Keeps s s1 := updateIntN_keeps (putBit_keeps h _ _ _ _ hb)
  exact Keeps.ite (raiseVector_keeps hs1 _) hs1

theorem mbxEvent_keeps {s t : State} (h : Keeps s t) (f : Fld) (hf : f.free = true) :
    Keeps s (t.mbxEvent f) :=
  raiseIrq_keeps (setF_keeps h _ _ _ hf) _ (by decide)

theorem pciEvent_keeps {s t : State} (h : Keeps s t) (f : Fld) (hf : f.free = true) :
    Keeps s (t.pciEvent f) :=
  raiseIrq_keeps (setF_keeps h _ _ _ hf) _ (by decide)

theorem updatePins_keeps {s t : State} (h : Keeps s t) :
    Keeps s t.updatePins := by
  unfold State.updatePins
  extract_lets e d src s1 s2
  have hs1 : Keeps s s1 := Keeps.mk_iff.2 h
  have hs2 : Keeps s s2 := Keeps.ite (raiseIrq_keeps hs1 _ (by decide)) hs1
  exact Keeps.ite (raiseIrq_keeps hs2 _ (by decide)) hs2

theorem setReduction_keeps {s t : State} (h : Keeps s t) (b : Nat) (v : Bool)
    (hb : Fld.free ⟨.fltReduction, b, b⟩ = true) : Keeps s (t.setReduction b v) :=
  putBit_keeps h _ _ _ _ hb

end Sys2Proof.Sound
end

section
/-! What the definitions of Machine/Peers.lean keep: the queue, the outputs, the free values, and soundness. -/

namespace Sys2Proof.Sound

open Sys2Proof.Machine Sys2Proof.Registers

theorem sendBulk_keeps {s t : State} (h : Keeps s t) (link : Nat) (m : StkMsg) :
    Keeps s (t.sendBulk link m) :=
  Keeps.mk_iff.2 h

theorem sendTo_keeps {s t : State} (h : Keeps s t) (member : Nat) (m : StkMsg) :
    Keeps s (t.sendTo member m) := by
  unfold State.sendTo
  split
  · exact sendBulk_keeps h _ _
  · exact h

theorem sendAll_keeps {s t : State} (h : Keeps s t) (m : StkMsg) :
    Keeps s (t.sendAll m) :=
  Keeps.foldl _ (fun _ _ ht1 => sendTo_keeps ht1 _ _) h

theorem sendMaster_keeps {s t : State} (h : Keeps s t) (m : StkMsg) :
    Keeps s (t.sendMaster m) :=
  Keeps.elim (fun _ => sendTo_keeps h _ _) h

theorem sendProxy_keeps {s t : State} (h : Keeps s t) (id : Nat) (m : StkMsg) :
    Keeps s (t.sendProxy id m) := by
  unfold State.sendProxy
  split
  · exact Keeps.ite (sendBulk_keeps h _ _) (sendTo_keeps h _ _)
  · exact sendTo_keeps h _ _

theorem proxyReady_keeps {s t : State} (h : Keeps s t) (id : Nat) (r : StkReturn) :
    Keeps s (t.proxyReady id r) := by
  unfold State.proxyReady
  extract_lets src s1 src1
  have hs1 : Keeps s s1 := Keeps.mk_iff.2 h
  exact Keeps.ite (sendProxy_keeps (Keeps.mk_iff.2 hs1) _ _) hs1

theorem forgetProxy_keeps {s t : State} (h : Keeps s t) (id : Nat) :
    Keeps s (t.forgetProxy id) :=
  Keeps.mk_iff.2 h

theorem dropProxy_keeps {s t : State} (h : Keeps s t) (id : Nat) :
    Keeps s (t.dropProxy id) :=
  proxyReady_keeps (Keeps.mk_iff.2 h) _ _

end Sys2Proof.Sound
end

section
/-! What the definitions of Machine/Buffer.lean keep: the queue, the outputs, the free values, and soundness. -/

namespace Sys2Proof.Sound

open Sys2Proof.Machine Sys2Proof.Registers

theorem setPort_keeps {s t : State} (h : Keeps s t) (p : Nat) (i : PortInfo) :
    Keeps s (t.setPort p i) :=
  Keeps.mk_iff.2 h

theorem syncLine_keeps {s t : State} (h : Keeps s t) (p : Nat) :
    Keeps s (t.syncLine p) :=
  Keeps.ite h (emit_keeps (setPort_keeps h _ _) _)

theorem syncLines_keeps {s t : State} (h : Keeps s t) :
    Keeps s t.syncLines :=
  Keeps.foldl _ (fun _ _ ht1 => syncLine_keeps ht1 _) h

theorem syncSynce_keeps {s t : State} (h : Keeps s t) :
    Keeps s t.syncSynce :=
  Keeps.mk_iff.2 h

theorem lineChanged_keeps {s t : State} (h : Keeps s t) (p : Nat) :
    Keeps s (t.lineChanged p) :=
  syncSynce_keeps (syncLine_keeps h _)

theorem modPkt_keeps {s t : State} (h : Keeps s t) (id : Nat) (f : Pkt → Pkt) :
    Keeps s (t.modPkt id f) :=
  Keeps.mk_iff.2 h

theorem syncReorder_keeps {s t : State} (h : Keeps s t) (pipe : Nat) :
    Keeps s (t.syncReorder pipe) :=
  setF_keeps h _ _ _ (by decide)

theorem syncIqm_keeps {s t : State} (h : Keeps s t) (n : Nat) :
    Keeps s (t.syncIqm n) :=
  setF_keeps (setF_keeps h _ _ _ (by decide)) _ _ _ (by decide)

theorem sendFc_keeps {s t : State} (h : Keeps s t) (port c q : Nat) :
    Keeps s (t.sendFc port c q) := by
  unfold State.sendFc
  extract_lets s1
  have hs1 : Keeps s s1 := bwFrame_keeps h _ _ _
  exact Keeps.ite h (Keeps.ite (count_keeps (emit_keeps hs1 _) _ _) (count_keeps (emit_keeps hs1 _) _ _))

theorem sendLine_keeps {s t : State} (h : Keeps s t) (port : Nat) (bs : List Nat) (stomped : Bool) :
    Keeps s (t.sendLine port bs stomped) :=
  bwFrame_keeps (emit_keeps h _) _ _ _

theorem setXoff_keeps {s t : State} (h : Keeps s t) (port c : Nat) (b : Bool) :
    Keeps s (t.setXoff port c b) :=
  Keeps.ite (setF_keeps h _ _ _ (by decide)) (setBit_keeps h _ _ _ _ (by decide))

theorem fcClass_keeps {s t : State} (h : Keeps s t) (port c : Nat) :
    Keeps s (t.fcClass port c) := by
  unfold State.fcClass
  extract_lets i held on s1 s11
  have hs1 : Keeps s s1 := sendFc_keeps (setXoff_keeps h _ _ _) _ _ _
  have hs11 : Keeps s s11 := sendFc_keeps (setXoff_keeps h _ _ _) _ _ _
  exact Keeps.ite h (Keeps.ite (setPort_keeps hs1 _ _) (Keeps.ite (setPort_keeps hs11 _ _) h))

theorem fcUpdate_keeps {s t : State} (h : Keeps s t) (port : Nat) :
    Keeps s (t.fcUpdate port) :=
  Keeps.ite h (Keeps.ite (fcClass_keeps h _ _) (Keeps.foldl _ (fun _ _ ht1 => fcClass_keeps ht1 _ _) h))

theorem sendEmpty_keeps {s t : State} (h : Keeps s t) (pipe port c : Nat) :
    Keeps s (t.sendEmpty pipe port c) :=
  Keeps.ite (Keeps.mk_iff.2 h) h

theorem protDrop_keeps {s t : State} (h : Keeps s t) (tagged : Bool) :
    Keeps s (t.protDrop tagged) := by
  unfold State.protDrop
  split
  · exact h
  · exact Keeps.ite (count_keeps (Keeps.mk_iff.2 h) _ _) (count_keeps (Keeps.mk_iff.2 h) _ _)

theorem noteDrop_keeps {s t : State} (h : Keeps s t) (p : Pkt) :
    Keeps s (t.noteDrop p) :=
  Keeps.ite (protDrop_keeps h _) h

theorem staleChain_keeps {s t : State} (h : Keeps s t) (u : Update) :
    Keeps s (t.staleChain u) :=
  Keeps.mk_iff.2 h

theorem endChain_keeps {s t : State} (h : Keeps s t) (pipe handle : Nat) :
    Keeps s (t.endChain pipe handle) := by
  unfold State.endChain
  split
  · exact h
  · exact Keeps.mk_iff.2 h

theorem pushUpdate_keeps {s t : State} (h : Keeps s t) (u : Update) :
    Keeps s (t.pushUpdate u) := by
  unfold State.pushUpdate
  split
  · exact Keeps.mk_iff.2 h
  · extract_lets gone s1
    have hs1 : Keeps s s1 := sendTo_keeps h _ _
    exact Keeps.ite hs1 (endChain_keeps hs1 _ _)

theorem detachRx_keeps {s t : State} (h : Keeps s t) (id : Nat) :
    Keeps s (t.detachRx id) :=
  Keeps.mk_iff.2 h

theorem syncEpoch_keeps {s t : State} (h : Keeps s t) (n : Nat) :
    Keeps s (t.syncEpoch n) :=
  setF_keeps h _ _ _ (by decide)

theorem writeBack460_keeps {s t : State} (h : Keeps s t) (ring slot status sec ns frac : Nat) :
    Keeps s (t.writeBack460 ring slot status sec ns frac) :=
  Keeps.ite (Keeps.mk_iff.2 h) (emit_keeps h _)

theorem txRefused_keeps {s t : State} (h : Keeps s t) (p : Pkt) :
    Keeps s (t.txRefused p) := by
  unfold State.txRefused
  split
  · exact writeBack460_keeps h _ _ _ _ _ _
  · exact h

theorem discardPkt_keeps {s t : State} (h : Keeps s t) (id : Nat) :
    Keeps s (t.discardPkt id) := by
  unfold State.discardPkt
  split
  · exact h
  · extract_lets s1 rel src src1 s2 s3 s4 s5
    have hs1 : Keeps s s1 := txRefused_keeps h _
    have hs2 : Keeps s s2 := Keeps.mk_iff.2 hs1
    have hs3 : Keeps s s3 := by
      unfold s3
      split
      · exact Keeps.ite (endChain_keeps hs2 _ _) hs2
      · exact hs2
    have hs4 : Keeps s s4 := Keeps.foldl _ (fun _ _ hu => pushUpdate_keeps hu _)
      (Keeps.foldl _ (fun _ _ hu => staleChain_keeps hu _) hs3)
    have hs5 : Keeps s s5 := Keeps.ite (syncReorder_keeps hs4 _) hs4
    exact Keeps.ite (dropProxy_keeps h _) (fcUpdate_keeps (syncIqm_keeps (syncEpoch_keeps (detachRx_keeps hs5 _) _)
      _) _)

theorem dropPkt_keeps {s t : State} (h : Keeps s t) (id : Nat) :
    Keeps s (t.dropPkt id) := by
  unfold State.dropPkt
  split
  · exact h
  · exact Keeps.ite (dropProxy_keeps h _) (discardPkt_keeps (noteDrop_keeps h _) _)

theorem endPkt_keeps {s t : State} (h : Keeps s t) (id : Nat) (dropped : Bool) :
    Keeps s (t.endPkt id dropped) := by
  unfold State.endPkt
  split
  · exact h
  · extract_lets s1 q
    have hs1 : Keeps s s1 := Keeps.ite (noteDrop_keeps h _) h
    exact Keeps.ite (Keeps.ite (dropPkt_keeps h _) (discardPkt_keeps h _))
      (fcUpdate_keeps (syncIqm_keeps (syncEpoch_keeps (modPkt_keeps hs1 _ _) _) _) _)

theorem releaseCells_keeps {s t : State} (h : Keeps s t) (id : Nat) (f : List Nat → List Nat) :
    Keeps s (t.releaseCells id f) := by
  unfold State.releaseCells
  split
  · exact h
  · extract_lets refs freed p' left gone pkts src s1
    have hs1 : Keeps s s1 := fcUpdate_keeps (syncIqm_keeps (Keeps.mk_iff.2 h) _) _
    exact Keeps.ite (txRefused_keeps hs1 _) hs1

theorem dropCopy_keeps {s t : State} (h : Keeps s t) (cid : Nat) :
    Keeps s (t.dropCopy cid) := by
  unfold State.dropCopy
  split
  · exact h
  · extract_lets src s1 s2
    have hs1 : Keeps s s1 := Keeps.mk_iff.2 h
    have hs2 : Keeps s s2 := releaseCells_keeps hs1 _ _
    exact Keeps.ite (sendEmpty_keeps hs2 _ _ _) hs2

theorem leavePort_keeps {s t : State} (h : Keeps s t) (c : Copy) :
    Keeps s (t.leavePort c) :=
  Keeps.mk_iff.2 h

theorem loseCopy_keeps {s t : State} (h : Keeps s t) (cid : Nat) :
    Keeps s (t.loseCopy cid) := by
  unfold State.loseCopy
  split
  · exact h
  · extract_lets s1
    have hs1 : Keeps s s1 := Keeps.elim (fun _ => noteDrop_keeps h _) h
    exact dropCopy_keeps (Keeps.ite hs1 (leavePort_keeps hs1 _)) _

theorem stompTx_keeps {s t : State} (h : Keeps s t) (cid : Nat) :
    Keeps s (t.stompTx cid) := by
  unfold State.stompTx
  split
  · exact h
  · extract_lets out s1 s2
    have hs1 : Keeps s s1 := sendLine_keeps h _ _ _
    have hs2 : Keeps s s2 := leavePort_keeps (setF_keeps (count_keeps hs1 _ _) _ _ _ (by decide)) _
    exact dropCopy_keeps hs2 _

end Sys2Proof.Sound
end

section
/-! What the definitions of Machine/Drop.lean keep: the queue, the outputs, the free values, and soundness. -/

namespace Sys2Proof.Sound

open Sys2Proof.Machine Sys2Proof.Registers

theorem bareCopy_keeps {s t : State} (h : Keeps s t) (e : Nat × Copy) :
    Keeps s (t.bareCopy e) := by
  unfold State.bareCopy
  extract_lets s1
  have hs1 : Keeps s s1 := Keeps.ite (stompTx_keeps h _) (loseCopy_keeps h _)
  exact count_keeps hs1 _ _

theorem clearLookups_keeps {s t : State} (h : Keeps s t) :
    Keeps s t.clearLookups :=
  Keeps.mk_iff.2 h

theorem idleCredits_keeps {s t : State} (h : Keeps s t) :
    Keeps s t.idleCredits :=
  Keeps.mk_iff.2 h

theorem dropTraffic_keeps {s t : State} (h : Keeps s t) :
    Keeps s t.dropTraffic := by
  unfold State.dropTraffic
  extract_lets s1 s2
  have hs1 : Keeps s s1 := Keeps.foldl _ (fun _ _ hu => bareCopy_keeps hu _) h
  have hs2 : Keeps s s2 := by
    unfold s2
    refine Keeps.foldl _ (fun t1 e ht1 => ?_) hs1
    extract_lets u
    have hu : Keeps s u := dropPkt_keeps ht1 _
    exact Keeps.ite hu (count_keeps hu _ _)
  exact idleCredits_keeps (clearLookups_keeps hs2)

end Sys2Proof.Sound
end

section
/-! What the definitions of Machine/Threads.lean keep: the queue, the outputs, the free values, and soundness. -/

namespace Sys2Proof.Sound

open Sys2Proof.Machine Sys2Proof.Registers

theorem syncThread_keeps {s u : State} (h : Keeps s u) (t : Nat) :
    Keeps s (u.syncThread t) :=
  setF_keeps h _ _ _ (by decide)

theorem setThread_keeps {s u : State} (h : Keeps s u) (t : Nat) (x : Thread) :
    Keeps s (u.setThread t x) :=
  syncThread_keeps (Keeps.mk_iff.2 h) _

theorem breakCalm_keeps {s t : State} (h : Keeps s t) :
    Keeps s t.breakCalm :=
  setF_keeps (setF_keeps (Keeps.mk_iff.2 h) _ _ _ (by decide)) _ _ _ (by decide)

theorem wakeThread_keeps {s u : State} (h : Keeps s u) (t : Nat) :
    Keeps s (u.wakeThread t) := by
  unfold State.wakeThread
  extract_lets x
  split
  · exact h
  · exact Keeps.ite h (breakCalm_keeps (setThread_keeps h _ _))

theorem latch_keeps {s u : State} (h : Keeps s u) (t bits : Nat) :
    Keeps s (u.latch t bits) :=
  wakeThread_keeps (setThread_keeps h _ _) _

theorem latchSupervisor_keeps {s t : State} (h : Keeps s t) (bits : Nat) :
    Keeps s (t.latchSupervisor bits) := by
  unfold State.latchSupervisor
  split
  · exact latch_keeps h _ _
  · exact h

theorem setFence_keeps {s t : State} (h : Keeps s t) (core gen : Nat) :
    Keeps s (t.setFence core gen) :=
  setF_keeps h _ _ _ (by decide)

theorem journal_keeps {s t : State} (h : Keeps s t) (thread gen code : Nat) (tag : Option (Nat × Nat)) :
    Keeps s (t.journal thread gen code tag) :=
  latch_keeps (Keeps.mk_iff.2 h) _ _

end Sys2Proof.Sound
end

section
/-! What the definitions of Machine/Collector.lean keep: the queue, the outputs, the free values, and soundness. -/

namespace Sys2Proof.Sound

open Sys2Proof.Machine Sys2Proof.Registers

theorem syncFlt_keeps {s t : State} (h : Keeps s t) :
    Keeps s t.syncFlt :=
  setB_keeps (setB_keeps (setF_keeps (setF_keeps h _ _ _ (by decide)) _ _ _ (by decide)) _ _ _ (by decide)) _ _ _
    (by decide)

theorem restartQuiet_keeps {s t : State} (h : Keeps s t) :
    Keeps s t.restartQuiet :=
  Keeps.mk_iff.2 h

theorem logState_keeps {s t : State} (h : Keeps s t) (what : Nat) :
    Keeps s (t.logState what) := by
  unfold State.logState
  extract_lets src s1
  have hs1 : Keeps s s1 := logWrite_keeps h _
  exact Keeps.ite (sendMaster_keeps hs1 _) hs1

theorem enterReef_keeps {s t : State} (h : Keeps s t) :
    Keeps s t.enterReef :=
  Keeps.ite h (logState_keeps (setF_keeps (setF_keeps h _ _ _ (by decide)) _ _ _ (by decide)) _)

theorem enterBarePoles_keeps {s t : State} (h : Keeps s t) :
    Keeps s t.enterBarePoles := by
  unfold State.enterBarePoles
  extract_lets s1
  have hs1 : Keeps s s1 := setF_keeps (setF_keeps (setF_keeps h _ _ _ (by decide)) _ _ _ (by decide)) _ _ _
    (by decide)
  exact Keeps.ite h (logState_keeps (syncLines_keeps (dropTraffic_keeps hs1)) _)

theorem openLoss_keeps {s t : State} (h : Keeps s t) (at_ : Nat) (byS4 : Bool) :
    Keeps s (t.openLoss at_ byS4) := by
  unfold State.openLoss
  split
  · exact Keeps.mk_iff.2 h
  · exact Keeps.mk_iff.2 h

theorem pauseLoss_keeps {s t : State} (h : Keeps s t) :
    Keeps s t.pauseLoss :=
  Keeps.mk_iff.2 h

theorem resumeLoss_keeps {s t : State} (h : Keeps s t) :
    Keeps s t.resumeLoss :=
  Keeps.mk_iff.2 h

theorem setLossTime_keeps {s t : State} (h : Keeps s t) (v : Nat) :
    Keeps s (t.setLossTime v) :=
  setF_keeps (setF_keeps h _ _ _ (by decide)) _ _ _ (by decide)

theorem closeLoss_keeps {s t : State} (h : Keeps s t) (byS3 : Bool) :
    Keeps s (t.closeLoss byS3) := by
  unfold State.closeLoss
  split
  · exact h
  · extract_lets free src s1
    have hs1 : Keeps s s1 := Keeps.mk_iff.2 h
    exact Keeps.ite hs1 (setLossTime_keeps hs1 _)

theorem sendFaultNotif_keeps {s t : State} (h : Keeps s t) (f : FaultArg) (sev : Nat) (simul live : Bool)
    (unlocked : optParam Bool !t.locked) :
    Keeps s (t.sendFaultNotif f sev simul live unlocked) :=
  notifyAt_keeps h _ _ _ _ _ _ _ _

theorem noteSent_keeps {s t : State} (h : Keeps s t) (code : Nat) :
    Keeps s (t.noteSent code) :=
  Keeps.mk_iff.2 h

theorem recordFault_keeps {s t : State} (h : Keeps s t) (f : FaultArg) (row : FaultRow) :
    Keeps s (t.recordFault f row).1 := by
  unfold State.recordFault
  extract_lets src src1 r
  split
  · exact Keeps.mk_iff.2 h
  · split
    · exact Keeps.mk_iff.2 h
    · exact h

theorem logFault_keeps {s t : State} (h : Keeps s t) (f : FaultArg) (row : FaultRow) (n : Option Nat) :
    Keeps s (t.logFault f row n) :=
  Keeps.ite h (logWrite_keeps h _)

theorem armLogStop_keeps {s t : State} (h : Keeps s t) :
    Keeps s t.armLogStop :=
  Keeps.ite (Keeps.mk_iff.2 h) h

theorem notifyFault_keeps {s t : State} (h : Keeps s t) (f : FaultArg) (row : FaultRow) :
    Keeps s (t.notifyFault f row) := by
  unfold State.notifyFault
  extract_lets want room s1 s2 src
  have hs1 : Keeps s s1 := Keeps.ite (count_keeps h _ _) h
  have hs2 : Keeps s s2 := Keeps.ite (noteSent_keeps hs1 _) hs1
  split
  · exact Keeps.mk_iff.2 hs2
  · exact Keeps.ite (sendFaultNotif_keeps hs2 _ _ _ _ _) hs2

theorem openWindow_keeps {s t : State} (h : Keeps s t) (f : FaultArg) (row : FaultRow) :
    Keeps s (t.openWindow f row) := by
  unfold State.openWindow
  extract_lets stamp src
  refine Keeps.ite h ?_
  split
  · exact Keeps.mk_iff.2 h
  · exact Keeps.mk_iff.2 h

theorem holdCondition_keeps {s t : State} (h : Keeps s t) (f : FaultArg) (row : FaultRow) :
    Keeps s (t.holdCondition f row) :=
  Keeps.ite (Keeps.mk_iff.2 h) h

/-- A row of the fault catalogue names a reduction bit outside the fixed bits of FLT_REDUCTION, or none. -/
def FaultRow.fits (row : FaultRow) : Bool := row.reduction.all fun b => Fld.free ⟨.fltReduction, b, b⟩

theorem faultRow_fits {code : Nat} {row : FaultRow} (h : faultRow code = some row) : FaultRow.fits row = true := by
  have hall : ∀ row ∈ catalogue, FaultRow.fits row = true := by decide
  exact hall row (List.mem_of_find?_eq_some h)

theorem reactFault_keeps {s t : State} (h : Keeps s t) (f : FaultArg) (row : FaultRow)
    (hr : FaultRow.fits row = true) :
    Keeps s (t.reactFault f row) := by
  unfold State.reactFault
  extract_lets s1 src s2 src1 s3
  have hs1 : Keeps s s1 := by
    unfold s1
    split
    · rename_i hb
      rw [FaultRow.fits, hb] at hr
      exact setReduction_keeps h _ _ hr
    · exact h
  have hs2 : Keeps s s2 := Keeps.ite (Keeps.mk_iff.2 hs1) hs1
  have hs3 : Keeps s s3 := Keeps.ite (enterBarePoles_keeps (Keeps.mk_iff.2 hs2)) (enterReef_keeps hs2)
  exact Keeps.ite h (restartQuiet_keeps hs3)

theorem chargeFault_keeps {s t : State} (h : Keeps s t) (f : FaultArg) (row : FaultRow) :
    Keeps s (t.chargeFault f row) := by
  unfold State.chargeFault
  extract_lets s1 rest src
  have hs1 : Keeps s s1 := openLoss_keeps h _ _
  exact Keeps.ite (Keeps.ite (Keeps.mk_iff.2 hs1) hs1) h

theorem takeFault_keeps {s t : State} (h : Keeps s t) (f : FaultArg) (row : FaultRow) (hr : FaultRow.fits row = true) :
    Keeps s (t.takeFault f row).1 := by
  unfold State.takeFault
  extract_lets s0
  have hs0 : Keeps s s0 := count_keeps h _ _
  split
  rename_i x s1 _ e
  have hs1 := Keeps.fst e (recordFault_keeps hs0 _ _)
  extract_lets s2 s3 s4 s5 s6 s8 s7
  have hs2 : Keeps s s2 := logFault_keeps hs1 _ _ _
  have hs3 : Keeps s s3 := Keeps.ite (armLogStop_keeps hs2) hs2
  have hs4 : Keeps s s4 := maxF_keeps hs3 _ _ _ (by decide)
  have hs5 : Keeps s s5 := Keeps.ite (raiseIrq_keeps hs4 _ (by decide)) hs4
  have hs6 : Keeps s s6 := notifyFault_keeps (openWindow_keeps hs5 _ _) _ _
  have hs8 : Keeps s s8 := Keeps.ite (sendMaster_keeps hs6 _) hs6
  exact reactFault_keeps (chargeFault_keeps (holdCondition_keeps hs8 _ _) _ _) _ _ hr

theorem loseFault_keeps {s t : State} (h : Keeps s t) (sev : Nat) :
    Keeps s (t.loseFault sev) := by
  unfold State.loseFault
  extract_lets s1
  have hs1 : Keeps s s1 := addF_keeps h _ _ _ (by decide)
  exact Keeps.ite (setF_keeps hs1 _ _ _ (by decide)) hs1

theorem report_keeps {s t : State} (h : Keeps s t) (f : FaultArg) :
    Keeps s (t.report f) := by
  unfold State.report
  split
  · exact h
  · rename_i hrow
    split
    rename_i x s1 _ e
    have hs1 := Keeps.fst e (takeFault_keeps h _ _ (faultRow_fits hrow))
    extract_lets src s3 src1 s4 g s2
    have hs3 : Keeps s s3 := loseFault_keeps hs1 _
    have hs4 : Keeps s s4 := Keeps.mk_iff.2 hs3
    have hs2 : Keeps s s2 := by
      unfold s2
      refine Keeps.ite (latchSupervisor_keeps (Keeps.mk_iff.2 hs1) _) (Keeps.ite hs3 ?_)
      split
      rename_i x1 s11 _ e1
      have hs11 := Keeps.fst e1 (takeFault_keeps hs4 _ _ (by decide))
      exact Keeps.ite hs11 (loseFault_keeps hs11 _)
    exact updatePins_keeps (syncFlt_keeps hs2)

theorem sendFault_keeps {s t : State} (h : Keeps s t) (f : FaultArg) :
    Keeps s (t.sendFault f) :=
  report_keeps (Keeps.mkDraw h) _

theorem raise_keeps {s t : State} (h : Keeps s t) (code inst arg0 arg1 : Nat) :
    Keeps s (t.raise code inst arg0 arg1) :=
  sendFault_keeps h _

theorem endCondition_keeps {s t : State} (h : Keeps s t) (code inst : Nat) :
    Keeps s (t.endCondition code inst) := by
  unfold State.endCondition
  split
  · exact h
  · rename_i hrow
    extract_lets live src hit still recs transient charged src1 s1 src2 s2 s3 s4 s5
    have hs1 : Keeps s s1 := Keeps.mk_iff.2 h
    have hs2 : Keeps s s2 := logWrite_keeps hs1 _
    have hs3 : Keeps s s3 := by
      unfold s3
      split
      · rename_i hb
        have hr := faultRow_fits hrow
        rw [FaultRow.fits, hb] at hr
        exact Keeps.ite hs2 (setReduction_keeps hs2 _ _ hr)
      · exact hs2
    have hs4 : Keeps s s4 := by
      unfold s4
      split
      · exact Keeps.ite (closeLoss_keeps hs3 _) hs3
      · exact hs3
    have hs5 : Keeps s s5 := Keeps.ite (restartQuiet_keeps hs4) hs4
    exact Keeps.ite h (updatePins_keeps (syncFlt_keeps hs5))

theorem logLoss_keeps {s t : State} (h : Keeps s t) (source lost what : Nat) :
    Keeps s (t.logLoss source lost what) :=
  logWrite_keeps h _

end Sys2Proof.Sound
end

section
/-! What the definitions of Machine/Operands.lean keep: the queue, the outputs, the free values, and soundness. -/

namespace Sys2Proof.Sound

open Sys2Proof.Machine Sys2Proof.Registers

theorem answer_keeps {s t : State} (h : Keeps s t) (mbx cid : Nat) (noIrq : Bool) (r : Rsp) :
    Keeps s (t.answer mbx cid noIrq r) := by
  unfold State.answer
  extract_lets src src1 e
  refine Keeps.ite (Keeps.mk_iff.2 h) ?_
  split
  · exact Keeps.mk_iff.2 h
  · exact Keeps.mk_iff.2 h

theorem finish_keeps {s t : State} (hk : Keeps s t) (h : CmdHdr) (r : Rsp) :
    Keeps s (t.finish h r) :=
  answer_keeps hk _ _ _ _

theorem failUpdate_keeps {s t : State} (h : Keeps s t) :
    Keeps s t.failUpdate := by
  unfold State.failUpdate
  split
  · exact h
  · exact answer_keeps (Keeps.mk_iff.2 h) _ _ _ _

theorem noteCmd_keeps {s t : State} (hk : Keeps s t) (h : CmdHdr) (begun : Bool) :
    Keeps s (t.noteCmd h begun) :=
  Keeps.mk_iff.2 hk

theorem beginCmd_keeps {s t : State} (hk : Keeps s t) (h : CmdHdr) :
    Keeps s (t.beginCmd h) :=
  noteCmd_keeps hk _ _

theorem stopCmd_keeps {s t : State} (hk : Keeps s t) (c : Instr) (h : CmdHdr) (a : CmdStop) :
    Keeps s (t.stopCmd c h a) := by
  unfold State.stopCmd
  split
  · exact finish_keeps hk _ _
  · extract_lets t1 src
    have ht1 : Keeps s t1 := noteCmd_keeps hk _ _
    exact Keeps.mk_iff.2 ht1

theorem cmd_keeps {s t : State} (hk : Keeps s t) (c : Instr) (h : CmdHdr) (a : CmdAttr) (checks : List Bool)
    (body : State → State × Rsp) (hbody : ∀ u, Keeps s u → Keeps s (body u).1) :
    Keeps s (t.cmd c h a checks body) := by
  unfold State.cmd
  split
  · exact stopCmd_keeps hk _ _ _
  · split
    · exact finish_keeps hk _ _
    · split
      rename_i _ e
      have hs' := Keeps.fst e (hbody _ hk)
      exact finish_keeps hs' _ _

theorem cmdLater_keeps {s t : State} (hk : Keeps s t) (c : Instr) (h : CmdHdr) (a : CmdAttr) (checks : List Bool)
    (body : State → State × Option Rsp) (hbody : ∀ u, Keeps s u → Keeps s (body u).1) :
    Keeps s (t.cmdLater c h a checks body) := by
  unfold State.cmdLater
  split
  · exact stopCmd_keeps hk _ _ _
  · split
    · exact finish_keeps hk _ _
    · split
      · rename_i _ e
        have hs' := Keeps.fst e (hbody _ hk)
        exact finish_keeps hs' _ _
      · rename_i e
        have hs' := Keeps.fst e (hbody _ hk)
        exact beginCmd_keeps hs' _

end Sys2Proof.Sound
end

section
/-! What the definitions of Machine/Gates.lean keep: the queue, the outputs, the free values, and soundness. -/

namespace Sys2Proof.Sound

open Sys2Proof.Machine Sys2Proof.Registers

theorem setGate_keeps {s t : State} (h : Keeps s t) (p : Nat) (g : GatePort) :
    Keeps s (t.setGate p g) :=
  Keeps.mk_iff.2 h

theorem syncGate_keeps {s t : State} (h : Keeps s t) (p : Nat) :
    Keeps s (t.syncGate p) :=
  setBit_keeps (setBit_keeps (setBit_keeps h _ _ _ _ (by decide)) _ _ _ _ (by decide)) _ _ _ _ (by decide)

theorem regrid_keeps {s t : State} (h : Keeps s t) (p : Nat) :
    Keeps s (t.regrid p) :=
  Keeps.ite h (setGate_keeps h _ _)

theorem noteUnlocked_keeps {s t : State} (h : Keeps s t) (p : Nat) :
    Keeps s (t.noteUnlocked p) :=
  Keeps.ite (setF_keeps h _ _ _ (by decide)) h

theorem regridAll_keeps {s t : State} (h : Keeps s t) :
    Keeps s t.regridAll :=
  Keeps.foldl _ (fun _ _ ht1 => noteUnlocked_keeps (regrid_keeps ht1 _) _) h

theorem gatePend_keeps {s u : State} (h : Keeps s u) (p n t : Nat) (late : Bool) :
    Keeps s (u.gatePend p n t late) := by
  unfold State.gatePend
  extract_lets g
  split
  · exact setF_keeps h _ _ _ (by decide)
  · extract_lets at_ s1 src
    have hs1 : Keeps s s1 := syncGate_keeps (setGate_keeps h _ _) _
    exact Keeps.ite (setF_keeps h _ _ _ (by decide)) (sendFault_keeps hs1 _)

theorem execGateEntryChange_keeps (port : Nat) (s : State) :
    NextKeeps s (execGateEntryChange port s) :=
  .next (noteUnlocked_keeps (regrid_keeps (.refl _) _) _)

theorem execGateChangeInstant_keeps (port : Nat) (s : State) :
    NextKeeps s (execGateChangeInstant port s) := by
  unfold execGateChangeInstant
  extract_lets g
  refine .next ?_
  split
  · exact .refl _
  · extract_lets s1
    have hs1 : Keeps s s1 := syncGate_keeps (setGate_keeps (.refl _) _ _) _
    exact Keeps.ite (.refl _) (noteUnlocked_keeps (regrid_keeps (setF_keeps hs1 _ _ _ (by decide)) _) _)

theorem egsCapture_keeps {s t : State} (h : Keeps s t) (pipe memory port index : Nat) (double : Bool) :
    Keeps s (t.egsCapture pipe memory port index double) :=
  Keeps.ite h (setF_keeps (setF_keeps (setF_keeps (setB_keeps (setF_keeps h _ _ _ (by decide)) _ _ _ (by decide)) _ _
    _ (by decide)) _ _ _ (by decide)) _ _ _ (by decide))

theorem gateEcc_keeps {s t : State} (h : Keeps s t) (p : Nat) (e : EccErr) :
    Keeps s (t.gateEcc p e) := by
  unfold State.gateEcc
  extract_lets pipe s1 g
  have hs1 : Keeps s s1 := egsCapture_keeps h _ _ _ _ _
  exact Keeps.ite (raise_keeps (noteUnlocked_keeps (setF_keeps (setGate_keeps hs1 _ _) _ _ _ (by decide)) _) _ _ _ _)
    (raise_keeps (setF_keeps hs1 _ _ _ (by decide)) _ _ _ _)

theorem execGateListRepair_keeps (port : Nat) (s : State) :
    NextKeeps s (execGateListRepair port s) :=
  .next (Keeps.ite (endCondition_keeps (regrid_keeps (setGate_keeps (.refl _) _ _) _) _ _) (.refl _))

theorem execGateListSet_keeps (h : CmdHdr) (port list : Nat) (valid : Bool) (gateMask : Nat) (base : List Nat)
    (cycleTime cycleExt : Nat) (entries : List (Nat × Nat)) (s : State) :
    NextKeeps s (execGateListSet h port list valid gateMask base cycleTime cycleExt entries s) := by
  unfold execGateListSet
  refine .next (cmd_keeps (.refl _) _ _ _ _ _ (fun s1 hs1 => Keeps.iteFst hs1 ?_))
  exact Keeps.iteFst hs1 (setGate_keeps hs1 _ _)

theorem execGateActivate_keeps (h : CmdHdr) (port list : Nat) (s : State) :
    NextKeeps s (execGateActivate h port list s) := by
  unfold execGateActivate
  refine .next (cmd_keeps (.refl _) _ _ _ _ _ (fun s1 hs1 => ?_))
  extract_lets g t
  refine Keeps.iteFst hs1 ?_
  split
  · exact hs1
  · exact Keeps.iteFst hs1 (gatePend_keeps hs1 _ _ _ _)

theorem execGateStatus_keeps (h : CmdHdr) (port : Nat) (s : State) :
    NextKeeps s (execGateStatus h port s) := by
  unfold execGateStatus
  refine .next (cmd_keeps (.refl _) _ _ _ _ _ (fun s1 hs1 => Keeps.iteFst hs1 ?_))
  exact hs1

end Sys2Proof.Sound
end

section
/-! What the definitions of Machine/Shapers.lean keep: the queue, the outputs, the free values, and soundness. -/

namespace Sys2Proof.Sound

open Sys2Proof.Machine Sys2Proof.Registers

theorem setShaper_keeps {s t : State} (h : Keeps s t) (k : Nat) (v : Shaper) :
    Keeps s (t.setShaper k v) :=
  Keeps.mk_iff.2 h

theorem examine_keeps {s t : State} (h : Keeps s t) (k : Nat) :
    Keeps s (t.examine k) :=
  Keeps.ite (Keeps.ite h (setShaper_keeps h _ _)) (Keeps.ite (setShaper_keeps h _ _) h)

theorem touchCredits_keeps {s t : State} (h : Keeps s t) (port : Nat) :
    Keeps s (t.touchCredits port) :=
  Keeps.foldl _ (fun _ _ ht1 => Keeps.ite (examine_keeps ht1 _) ht1) h

theorem examinePort_keeps {s t : State} (h : Keeps s t) (port : Nat) :
    Keeps s (t.examinePort port) :=
  Keeps.foldl _ (fun _ _ ht1 => examine_keeps ht1 _) h

theorem syncWheel_keeps {s t : State} (h : Keeps s t) (pipe : Nat) :
    Keeps s (t.syncWheel pipe) :=
  setF_keeps (setF_keeps (setF_keeps h _ _ _ (by decide)) _ _ _ (by decide)) _ _ _ (by decide)

theorem park_keeps {s t : State} (h : Keeps s t) (k : Nat) :
    Keeps s (t.park k) :=
  Keeps.ite h (syncWheel_keeps (Keeps.mk_iff.2 h) _)

theorem unpark_keeps {s t : State} (h : Keeps s t) (k : Nat) :
    Keeps s (t.unpark k) :=
  syncWheel_keeps (Keeps.mk_iff.2 h) _

theorem wake_keeps {s t : State} (h : Keeps s t) (k : Nat) :
    Keeps s (t.wake k) :=
  park_keeps (examine_keeps (unpark_keeps h _) _) _

theorem execShaperWake_keeps (pipe : Nat) (s : State) :
    NextKeeps s (execShaperWake pipe s) := by
  unfold execShaperWake
  refine .next ?_
  split
  · exact .refl _
  · extract_lets slot here s1
    have hs1 : Keeps s s1 := Keeps.foldl _ (fun _ _ ht => Keeps.mk_iff.2 ht) (.refl _)
    exact Keeps.foldl _ (fun _ _ ht => wake_keeps (maxF_keeps ht _ _ _ (by decide)) _) hs1

theorem execWheelTurn_keeps (pipe : Nat) (s : State) :
    NextKeeps s (execWheelTurn pipe s) :=
  .next (syncWheel_keeps (Keeps.mk_iff.2 (.refl _)) _)

theorem examineAll_keeps {s t : State} (h : Keeps s t) :
    Keeps s t.examineAll := by
  unfold State.examineAll
  refine Keeps.foldl _ (fun t1 e ht1 => ?_) h
  exact Keeps.ite (setShaper_keeps ht1 _ _) (examine_keeps ht1 _)

theorem restep_keeps {s t : State} (h : Keeps s t) :
    Keeps s t.restep := by
  unfold State.restep
  refine Keeps.foldl _ (fun t1 e ht1 => ?_) h
  extract_lets k src t11
  have ht11 : Keeps s t11 := setShaper_keeps ht1 _ _
  exact Keeps.ite (park_keeps (unpark_keeps ht11 _) _) ht11

theorem chargeShaper_keeps {s t : State} (h : Keeps s t) (k len : Nat) (start : Bool) :
    Keeps s (t.chargeShaper k len start) :=
  Keeps.ite (park_keeps (setShaper_keeps h _ _) _) h

theorem chargeFrame_keeps {s t : State} (h : Keeps s t) (port c len : Nat) (start : Bool) :
    Keeps s (t.chargeFrame port c len start) := by
  unfold State.chargeFrame
  extract_lets s1
  have hs1 : Keeps s s1 := chargeShaper_keeps h _ _ _
  exact Keeps.ite (chargeShaper_keeps hs1 _ _ _) hs1

theorem settleCredits_keeps {s t : State} (h : Keeps s t) (port : Nat) :
    Keeps s (t.settleCredits port) := by
  unfold State.settleCredits
  refine Keeps.foldl _ (fun t1 i ht1 => ?_) h
  extract_lets k t11
  have ht11 : Keeps s t11 := examine_keeps ht1 _
  exact Keeps.ite (Keeps.ite ht11 (park_keeps ht11 _)) ht1

theorem shaperEcc_keeps {s t : State} (h : Keeps s t) (port : Nat) (e : EccErr) :
    Keeps s (t.shaperEcc port e) := by
  unfold State.shaperEcc
  extract_lets pipe s1 k s2
  have hs1 : Keeps s s1 := egsCapture_keeps h _ _ _ _ _
  have hs2 : Keeps s s2 := unpark_keeps hs1 _
  exact Keeps.ite (raise_keeps (setF_keeps (setShaper_keeps hs2 _ _) _ _ _ (by decide)) _ _ _ _)
    (raise_keeps hs1 _ _ _ _)

theorem execEgsShaperSet_keeps (h : CmdHdr) (port shaper mode rate burst overhead : Nat) (hi lo : Int)
    (zeroReset : Bool) (s : State) :
    NextKeeps s (execEgsShaperSet h port shaper mode rate burst overhead hi lo zeroReset s) := by
  unfold execEgsShaperSet
  refine .next (cmd_keeps (.refl _) _ _ _ _ _ (fun s1 hs1 => Keeps.iteFst hs1 ?_))
  extract_lets k v s11
  have hs11 : Keeps s s11 := unpark_keeps hs1 _
  exact setShaper_keeps hs11 _ _

end Sys2Proof.Sound
end

section
/-! What the definitions of Machine/Ports.lean keep: the queue, the outputs, the free values, and soundness. -/

namespace Sys2Proof.Sound

open Sys2Proof.Machine Sys2Proof.Registers

theorem abortTx_keeps {s t : State} (h : Keeps s t) (port : Nat) :
    Keeps s (t.abortTx port) := by
  unfold State.abortTx
  split
  · exact h
  · extract_lets s1
    have hs1 : Keeps s s1 := count_keeps (sendLine_keeps h _ _ _) _ _
    exact settleCredits_keeps (dropCopy_keeps (leavePort_keeps hs1 _) _) _

theorem failover_keeps {s t : State} (h : Keeps s t) (port : Nat) :
    Keeps s (t.failover port) := by
  unfold State.failover
  extract_lets src s1 s2
  have hs1 : Keeps s s1 := Keeps.mk_iff.2 h
  have hs2 : Keeps s s2 := setF_keeps (setBit_keeps hs1 _ _ _ _ (by decide)) _ _ _ (by decide)
  exact Keeps.ite h (raise_keeps (count_keeps hs2 _ _) _ _ _ _)

theorem linkFault_keeps {s t : State} (h : Keeps s t) (port : Nat) :
    Keeps s (t.linkFault port) := by
  unfold State.linkFault
  extract_lets i s1 s2
  have hs1 : Keeps s s1 := setPort_keeps h _ _
  have hs2 : Keeps s s2 := Keeps.ite (abortTx_keeps (setF_keeps (setF_keeps hs1 _ _ _ (by decide)) _ _ _ (by decide))
    _) hs1
  exact lineChanged_keeps (failover_keeps hs2 _) _

theorem execLocalLinkFault_keeps (port cause : Nat) (s : State) :
    NextKeeps s (execLocalLinkFault port cause s) := by
  unfold execLocalLinkFault
  extract_lets s1 s2
  have hs1 : Keeps s s1 := setF_keeps (.refl _) _ _ _ (by decide)
  have hs2 : Keeps s s2 := Keeps.ite (setF_keeps (setF_keeps hs1 _ _ _ (by decide)) _ _ _ (by decide))
    (Keeps.ite (setF_keeps hs1 _ _ _ (by decide)) (Keeps.ite (setF_keeps (setF_keeps hs1 _ _ _ (by decide)) _ _ _
    (by decide)) hs1))
  exact .next (Keeps.ite (.refl _) (linkFault_keeps hs2 _))

theorem execRemoteLinkFault_keeps (port : Nat) (s : State) :
    NextKeeps s (execRemoteLinkFault port s) :=
  .next (Keeps.ite (.refl _) (linkFault_keeps (setF_keeps (.refl _) _ _ _ (by decide)) _))

theorem declareUp_keeps {s t : State} (h : Keeps s t) (port : Nat) :
    Keeps s (t.declareUp port) := by
  unfold State.declareUp
  extract_lets s1 src
  have hs1 : Keeps s s1 := setF_keeps (setF_keeps h _ _ _ (by decide)) _ _ _ (by decide)
  exact Keeps.ite h (Keeps.ite (Keeps.mk_iff.2 hs1) hs1)

theorem execLinkUpHoldoffExpiry_keeps (port : Nat) (s : State) :
    NextKeeps s (execLinkUpHoldoffExpiry port s) :=
  .next (Keeps.ite (declareUp_keeps (.refl _) _) (.refl _))

theorem execReceiveFaultCleared_keeps (port : Nat) (s : State) :
    NextKeeps s (execReceiveFaultCleared port s) := by
  unfold execReceiveFaultCleared
  extract_lets s1 s2 src s3
  have hs1 : Keeps s s1 := setF_keeps (setF_keeps (setF_keeps (.refl _) _ _ _ (by decide)) _ _ _ (by decide)) _ _ _
    (by decide)
  have hs2 : Keeps s s2 := setB_keeps (setF_keeps (setF_keeps hs1 _ _ _ (by decide)) _ _ _ (by decide)) _ _ _
    (by decide)
  have hs3 : Keeps s s3 := lineChanged_keeps (setPort_keeps hs2 _ _) _
  exact .next (Keeps.ite (.refl _) (Keeps.ite (declareUp_keeps hs3 _) hs3))

theorem calibrate_keeps {s t : State} (h : Keeps s t) (port : Nat) :
    Keeps s (t.calibrate port) := by
  unfold State.calibrate
  extract_lets s1
  have hs1 : Keeps s s1 := drawOne_keeps (setF_keeps h _ _ _ (by decide))
  exact drawOne_keeps (setF_keeps hs1 _ _ _ (by decide))

theorem anFailed_keeps {s t : State} (h : Keeps s t) (port : Nat) :
    Keeps s (t.anFailed port) :=
  setPort_keeps (setF_keeps (setF_keeps h _ _ _ (by decide)) _ _ _ (by decide)) _ _

theorem execAnComplete_keeps (port : Nat) (partner : Option (List (Nat × Nat × Nat))) (s : State) :
    NextKeeps s (execAnComplete port partner s) := by
  unfold execAnComplete
  extract_lets st src
  refine .next (Keeps.ite (.refl _) ?_)
  split
  · exact anFailed_keeps (.refl _) _
  · refine Keeps.ite (setF_keeps (.refl _) _ _ _ (by decide)) ?_
    split
    · exact anFailed_keeps (.refl _) _
    · extract_lets s1
      have hs1 : Keeps s s1 := setPort_keeps (setF_keeps (.refl _) _ _ _ (by decide)) _ _
      exact calibrate_keeps hs1 _

theorem execAnRestart_keeps (port : Nat) (s : State) :
    NextKeeps s (execAnRestart port s) := by
  unfold execAnRestart
  refine .next ?_
  split
  · exact Keeps.ite (setPort_keeps (setF_keeps (.refl _) _ _ _ (by decide)) _ _) (.refl _)
  · exact .refl _

theorem holdClass_keeps {s t : State} (h : Keeps s t) (port c q : Nat) :
    Keeps s (t.holdClass port c q) :=
  Keeps.ite h (Keeps.ite (setBit_keeps (setPort_keeps h _ _) _ _ _ _ (by decide))
    (setBit_keeps (setPort_keeps h _ _) _ _ _ _ (by decide)))

theorem macControl_keeps {s t : State} (h : Keeps s t) (port opcode classes : Nat) (quanta : List Nat) :
    Keeps s (t.macControl port opcode classes quanta) := by
  unfold State.macControl
  extract_lets m s1
  have hs1 : Keeps s s1 := count_keeps h _ _
  refine Keeps.ite (Keeps.ite (Keeps.foldl _ (fun _ _ ht1 => holdClass_keeps ht1 _ _ _) hs1) hs1)
    (Keeps.ite (Keeps.foldl _ (fun t1 c ht1 => Keeps.ite ?_ ht1) h) (count_keeps h _ _))
  extract_lets t11
  have ht11 : Keeps s t11 := count_keeps ht1 _ _
  exact Keeps.ite (holdClass_keeps ht11 _ _ _) ht11

theorem execRxMacControlFrame_keeps (port opcode classes : Nat) (quanta : List Nat) (s : State) :
    NextKeeps s (execRxMacControlFrame port opcode classes quanta s) :=
  .next (Keeps.ite (macControl_keeps (bwFrame_keeps (.refl _) _ _ _) _ _ _ _) (.refl _))

theorem execPauseExpiry_keeps (port cls : Nat) (s : State) :
    NextKeeps s (execPauseExpiry port cls s) := by
  unfold execPauseExpiry
  refine .next ?_
  split
  · exact Keeps.ite (holdClass_keeps (.refl _) _ _ _) (.refl _)
  · exact .refl _

theorem execXoffResend_keeps (port cls : Nat) (s : State) :
    NextKeeps s (execXoffResend port cls s) := by
  unfold execXoffResend
  extract_lets i
  refine .next ?_
  split
  · exact Keeps.ite (setPort_keeps (sendFc_keeps (.refl _) _ _ _) _ _) (.refl _)
  · exact .refl _

theorem watchdogDrop_keeps {s t : State} (h : Keeps s t) (port c : Nat) :
    Keeps s (t.watchdogDrop port c) :=
  Keeps.foldl _ (fun _ _ ht1 => count_keeps (loseCopy_keeps ht1 _) _ _) h

theorem execPfcWatchdog_keeps (port cls : Nat) (s : State) :
    NextKeeps s (execPfcWatchdog port cls s) := by
  unfold execPfcWatchdog
  extract_lets i s1 src s2
  have hs1 : Keeps s s1 := holdClass_keeps (.refl _) _ _ _
  have hs2 : Keeps s s2 := setPort_keeps hs1 _ _
  refine .next ?_
  split
  · exact .refl _
  · exact Keeps.ite (.refl _) (raise_keeps (setF_keeps (watchdogDrop_keeps hs2 _ _) _ _ _ (by decide)) _ _ _ _)

theorem execPfcRestoreEnd_keeps (port cls : Nat) (s : State) :
    NextKeeps s (execPfcRestoreEnd port cls s) := by
  unfold execPfcRestoreEnd
  extract_lets i
  refine .next ?_
  split
  · exact Keeps.ite (setPort_keeps (.refl _) _ _) (.refl _)
  · exact .refl _

theorem resetReg_keeps {s t : State} (h : Keeps s t) (r : Reg) (i : Nat) :
    Keeps s (t.resetReg r i) :=
  wr_keeps h _ _ _ fun _ => rfl

theorem writePortCfg_keeps {s t : State} (h : Keeps s t) (port lanes rate fec medium : Nat) (anEn ltEn : Bool)
    (maxFrame : Nat) (ctEn : Bool) :
    Keeps s (t.writePortCfg port lanes rate fec medium anEn ltEn maxFrame ctEn) := by
  unfold State.writePortCfg
  extract_lets s1 s2 s3
  have hs1 : Keeps s s1 := setF_keeps (setF_keeps (setF_keeps (setF_keeps h _ _ _ (by decide)) _ _ _ (by decide)) _ _
    _ (by decide)) _ _ _ (by decide)
  have hs2 : Keeps s s2 := setF_keeps (setB_keeps (setB_keeps (setF_keeps hs1 _ _ _ (by decide)) _ _ _ (by decide)) _
    _ _ (by decide)) _ _ _ (by decide)
  have hs3 : Keeps s s3 := setF_keeps (setF_keeps (setB_keeps hs2 _ _ _ (by decide)) _ _ _ (by decide)) _ _ _
    (by decide)
  exact calibrate_keeps hs3 _

theorem execPortConfig_keeps (h : CmdHdr) (port lanes laneRate fec medium : Nat) (anEn ltEn : Bool) (maxFrame : Nat)
    (ctEn : Bool) (holdoff : Nat) (s : State) :
    NextKeeps s (execPortConfig h port lanes laneRate fec medium anEn ltEn maxFrame ctEn holdoff s) := by
  unfold execPortConfig
  refine .next (cmd_keeps (.refl _) _ _ _ _ _ (fun s1 hs1 => ?_))
  extract_lets there changed s11 src s2
  have hs11 : Keeps s s11 := Keeps.ite (linkFault_keeps hs1 _) hs1
  have hs2 : Keeps s s2 := setPort_keeps (writePortCfg_keeps hs11 _ _ _ _ _ _ _ _ _) _ _
  exact Keeps.iteFst hs1 (Keeps.iteFst hs1 (Keeps.iteFst (lineChanged_keeps hs2 _) hs1))

theorem execPortDelete_keeps (h : CmdHdr) (port : Nat) (s : State) :
    NextKeeps s (execPortDelete h port s) := by
  unfold execPortDelete
  refine .next (cmd_keeps (.refl _) _ _ _ _ _ (fun s1 hs1 => Keeps.iteFst hs1 (Keeps.iteFst hs1 ?_)))
  extract_lets s11 src src1 src2 s2 s3
  have hs11 : Keeps s s11 := linkFault_keeps hs1 _
  have hs2 : Keeps s s2 := Keeps.mk_iff.2 hs11
  have hs3 : Keeps s s3 := resetReg_keeps (resetReg_keeps (resetReg_keeps (resetReg_keeps hs2 _ _) _ _) _ _) _ _
  exact syncSynce_keeps (setBit_keeps hs3 _ _ _ _ (by decide))

theorem execPortLaneMap_keeps (h : CmdHdr) (macro_ : Nat) (txOrder : List Nat) (txPol : Nat) (rxOrder : List Nat)
    (rxPol : Nat) (s : State) :
    NextKeeps s (execPortLaneMap h macro_ txOrder txPol rxOrder rxPol s) :=
  .next (cmd_keeps (.refl _) _ _ _ _ _ (fun _ hs1 => Keeps.iteFst hs1 (Keeps.mk_iff.2 hs1)))

theorem clearXoff_keeps {s t : State} (h : Keeps s t) (port oldMode : Nat) :
    Keeps s (t.clearXoff port oldMode) :=
  setPort_keeps (setF_keeps h _ _ _ (by decide)) _ _

theorem execPortFcConfig_keeps (h : CmdHdr) (port mode classes xoff xon : Nat) (headroom : List Nat)
    (quanta watchdog restore : Nat) (s : State) :
    NextKeeps s (execPortFcConfig h port mode classes xoff xon headroom quanta watchdog restore s) := by
  unfold execPortFcConfig
  refine .next (cmd_keeps (.refl _) _ _ _ _ _ (fun s1 hs1 => Keeps.iteFst hs1 ?_))
  extract_lets src s11
  have hs11 : Keeps s s11 := setPort_keeps (setF_keeps hs1 _ _ _ (by decide)) _ _
  exact Keeps.iteFst hs1 (fcUpdate_keeps (clearXoff_keeps hs11 _ _) _)

theorem execPortStatus_keeps (h : CmdHdr) (port : Nat) (s : State) :
    NextKeeps s (execPortStatus h port s) := by
  unfold execPortStatus
  refine .next (cmd_keeps (.refl _) _ _ _ _ _ (fun s1 hs1 => Keeps.iteFst hs1 ?_))
  exact hs1

end Sys2Proof.Sound
end

section
/-! What the definitions of Machine/Locks.lean keep: the queue, the outputs, the free values, and soundness. -/

namespace Sys2Proof.Sound

open Sys2Proof.Machine Sys2Proof.Registers

theorem countTx_keeps {s t : State} (h : Keeps s t) (shard code : Nat) :
    Keeps s (t.countTx shard code) :=
  Keeps.ite (count_keeps h _ _) (Keeps.ite (count_keeps h _ _) (Keeps.ite (count_keeps h _ _)
    (Keeps.ite (count_keeps h _ _) (Keeps.ite (count_keeps h _ _) (Keeps.ite (count_keeps h _ _) h)))))

theorem cmdTx_keeps {s t : State} (hk : Keeps s t) (c : Instr) (h : CmdHdr) (checks : List Bool)
    (body : State → State × Rsp) (hbody : ∀ u, Keeps s u → Keeps s (body u).1) :
    Keeps s (t.cmdTx c h checks body) := by
  unfold State.cmdTx
  refine cmd_keeps hk _ _ _ _ _ (fun t1 ht1 => ?_)
  split
  rename_i _ e
  have hs' := Keeps.fst e (hbody _ ht1)
  exact Keeps.ite (countTx_keeps (drawOne_keeps hs') _ _) hs'

theorem setAll_keeps {s t : State} (h : Keeps s t) (f : Fld) (n v : Nat) (hf : f.free = true) :
    Keeps s (t.setAll f n v) :=
  Keeps.foldl _ (fun _ _ ht1 => setF_keeps ht1 _ _ _ hf) h

end Sys2Proof.Sound
end

section
/-! What the definitions of Machine/Memory.lean keep: the queue, the outputs, the free values, and soundness. -/

namespace Sys2Proof.Sound

open Sys2Proof.Machine Sys2Proof.Registers

theorem cleanse_keeps {s t : State} (h : Keeps s t) (shard : Nat) (us : List Nat) :
    Keeps s (t.cleanse shard us) :=
  Keeps.mk_iff.2 h

theorem poisonUnit_keeps {s t : State} (h : Keeps s t) (shard u : Nat) :
    Keeps s (t.poisonUnit shard u) :=
  Keeps.mk_iff.2 h

theorem syncHeld_keeps {s t : State} (h : Keeps s t) (stack : Nat) :
    Keeps s (t.syncHeld stack) :=
  setF_keeps h _ _ _ (by decide)

theorem holdRequest_keeps {s t : State} (h : Keeps s t) (g pkt : Nat) :
    Keeps s (t.holdRequest g pkt) :=
  Keeps.ite h (count_keeps (syncHeld_keeps (Keeps.mk_iff.2 h) _) _ _)

theorem releaseHeld_keeps {s t : State} (h : Keeps s t) (stack : Nat) :
    Keeps s (t.releaseHeld stack) :=
  syncHeld_keeps (Keeps.mk_iff.2 h) _

theorem hbmCorrected_keeps {s t : State} (h : Keeps s t) (g unit : Nat) :
    Keeps s (t.hbmCorrected g unit) := by
  unfold State.hbmCorrected
  extract_lets stack s1 s2 src
  have hs1 : Keeps s s1 := setF_keeps (count_keeps h _ _) _ _ _ (by decide)
  have hs2 : Keeps s s2 := Keeps.ite hs1 (setF_keeps (setF_keeps (setF_keeps hs1 _ _ _ (by decide)) _ _ _
    (by decide)) _ _ _ (by decide))
  exact sendFault_keeps hs2 _

end Sys2Proof.Sound
end

section
/-! What the definitions of Machine/Bpm.lean keep: the queue, the outputs, the free values, and soundness. -/

namespace Sys2Proof.Sound

open Sys2Proof.Machine Sys2Proof.Registers

theorem setCache_keeps {s t : State} (h : Keeps s t) (shard p : Nat) (l : List Nat) :
    Keeps s (t.setCache shard p l) :=
  Keeps.mk_iff.2 h

theorem syncHeap_keeps {s t : State} (h : Keeps s t) (p : Nat) :
    Keeps s (t.syncHeap p) := by
  unfold State.syncHeap
  extract_lets n was s1
  have hs1 : Keeps s s1 := setBit_keeps (setF_keeps h _ _ _ (by decide)) _ _ _ _ (by decide)
  exact Keeps.ite (setF_keeps hs1 _ _ _ (by decide)) hs1

theorem setList_keeps {s t : State} (h : Keeps s t) (shard p : Nat) (r : Ranges) :
    Keeps s (t.setList shard p r) :=
  syncHeap_keeps (Keeps.mk_iff.2 h) _

theorem takeList_keeps {s t : State} (h : Keeps s t) (shard p : Nat) :
    Keeps s (t.takeList shard p).1 := by
  unfold State.takeList
  extract_lets r
  refine Keeps.iteFst h ?_
  split
  · exact h
  · exact setList_keeps (drawOne_keeps h) _ _ _

theorem startRecall_keeps {s t : State} (h : Keeps s t) (p : Nat) :
    Keeps s (t.startRecall p) :=
  Keeps.ite h (count_keeps (setF_keeps (setBit_keeps h _ _ _ _ (by decide)) _ _ _ (by decide)) _ _)

theorem setGrants_keeps {s t : State} (h : Keeps s t) (requester p : Nat) (l : List Nat) :
    Keeps s (t.setGrants requester p l) :=
  Keeps.mk_iff.2 h

theorem takeOwn_keeps {s t : State} (h : Keeps s t) (requester p : Nat) :
    Keeps s (t.takeOwn requester p).1 := by
  unfold State.takeOwn
  split
  · exact setGrants_keeps h _ _ _
  · exact setCache_keeps h _ _ _
  · exact h

theorem takeFromPool_keeps {s t : State} (h : Keeps s t) (requester shard p : Nat) :
    Keeps s (t.takeFromPool requester shard p).1 := by
  unfold State.takeFromPool
  split
  · rename_i e
    exact Keeps.fst e (takeOwn_keeps h _ _)
  · rename_i e
    have hs2 := Keeps.fst e (takeOwn_keeps h _ _)
    split
    · rename_i e1
      exact Keeps.fst e1 (takeList_keeps hs2 _ _)
    · rename_i e1
      have hs21 := Keeps.fst e1 (takeList_keeps hs2 _ _)
      refine Keeps.iteFst ?_ (Keeps.ite (startRecall_keeps hs21 _) hs21)
      split
      · rename_i e2
        exact count_keeps (Keeps.fst e2 (takeList_keeps hs21 _ _)) _ _
      · rename_i e2
        exact startRecall_keeps (Keeps.fst e2 (takeList_keeps hs21 _ _)) _

theorem takeHandleGo_keeps {s t : State} (h : Keeps s t) (requester shard : Nat) (a : List Nat) :
    Keeps s (State.takeHandle.go requester shard t a).1 := by
  induction a generalizing t with
  | nil =>
    rw [State.takeHandle.go]
    exact h
  | cons x rest ih =>
    rw [State.takeHandle.go]
    split
    · rename_i e
      exact Keeps.fst e (takeFromPool_keeps h _ _ _)
    · rename_i e
      have hs2 := Keeps.fst e (takeFromPool_keeps h _ _ _)
      exact ih (Keeps.ite hs2 (count_keeps hs2 _ _))

theorem takeHandle_keeps {s t : State} (h : Keeps s t) (requester shard size : Nat) :
    Keeps s (t.takeHandle requester shard size).1 :=
  takeHandleGo_keeps h _ _ _

theorem noHeap_keeps {s t : State} (h : Keeps s t) (shard : Nat) :
    Keeps s (t.noHeap shard) := by
  unfold State.noHeap
  extract_lets s1 src
  have hs1 : Keeps s s1 := count_keeps h _ _
  split
  · exact Keeps.ite hs1 (raise_keeps (Keeps.mk_iff.2 hs1) _ _ _ _)
  · exact raise_keeps (Keeps.mk_iff.2 hs1) _ _ _ _

theorem rejectHandle_keeps {s t : State} (h : Keeps s t) (handle chk op requester : Nat) :
    Keeps s (t.rejectHandle handle chk op requester) := by
  unfold State.rejectHandle
  extract_lets s1 held s2
  have hs1 : Keeps s s1 := setF_keeps (count_keeps h _ _) _ _ _ (by decide)
  have hs2 : Keeps s s2 := Keeps.ite hs1 (setF_keeps (setF_keeps hs1 _ _ _ (by decide)) _ _ _ (by decide))
  exact raise_keeps hs2 _ _ _ _

theorem freeHandle_keeps {s t : State} (h : Keeps s t) (handle : Nat) :
    Keeps s (t.freeHandle handle) := by
  unfold State.freeHandle
  refine Keeps.ite h ?_
  split
  · exact Keeps.ite (setList_keeps (setCache_keeps h _ _ _) _ _ _) (setCache_keeps h _ _ _)
  · exact rejectHandle_keeps h _ _ _ _

theorem syncCtrl_keeps {s t : State} (h : Keeps s t) (p : Nat) :
    Keeps s (t.syncCtrl p) := by
  unfold State.syncCtrl
  extract_lets n was s1
  have hs1 : Keeps s s1 := setBit_keeps (setF_keeps h _ _ _ (by decide)) _ _ _ _ (by decide)
  exact Keeps.ite (setF_keeps hs1 _ _ _ (by decide)) hs1

theorem takeCtrlOf_keeps {s t : State} (h : Keeps s t) (p requester : Nat) :
    Keeps s (t.takeCtrlOf p requester).1 := by
  unfold State.takeCtrlOf
  extract_lets r s1 src
  have hs1 : Keeps s s1 := drawOne_keeps h
  refine Keeps.iteFst h ?_
  split
  · exact h
  · exact syncCtrl_keeps (Keeps.mk_iff.2 hs1) _

theorem takeCtrlGo_keeps {s t : State} (h : Keeps s t) (requester : Nat) (a : List Nat) :
    Keeps s (State.takeCtrl.go requester t a).1 := by
  induction a generalizing t with
  | nil =>
    rw [State.takeCtrl.go]
    exact h
  | cons x rest ih =>
    rw [State.takeCtrl.go]
    split
    · rename_i e
      exact Keeps.fst e (takeCtrlOf_keeps h _ _)
    · rename_i e
      have hs2 := Keeps.fst e (takeCtrlOf_keeps h _ _)
      exact ih (Keeps.ite (count_keeps hs2 _ _) hs2)

theorem takeCtrl_keeps {s t : State} (h : Keeps s t) (bytes requester : Nat) :
    Keeps s (t.takeCtrl bytes requester).1 :=
  takeCtrlGo_keeps h _ _

theorem freeCtrl_keeps {s t : State} (h : Keeps s t) (handle requester : Nat) :
    Keeps s (t.freeCtrl handle requester) := by
  unfold State.freeCtrl
  split
  · exact rejectHandle_keeps h _ _ _ _
  · exact Keeps.ite (rejectHandle_keeps h _ _ _ _) (syncCtrl_keeps (Keeps.mk_iff.2 h) _)

theorem grantDemand_keeps {s t : State} (h : Keeps s t) (ctrl : Bool) (p r : Nat) :
    Keeps s (t.grantDemand ctrl p r).1 := by
  unfold State.grantDemand
  extract_lets own from_
  refine Keeps.iteFst ?_ (Keeps.iteFst h ?_)
  · split
    rename_i e
    exact Keeps.fst e (takeCtrlOf_keeps h _ _)
  · split
    · rename_i _ e
      have hs2 := Keeps.fst e (takeList_keeps h _ _)
      exact setGrants_keeps (Keeps.ite hs2 (count_keeps hs2 _ _)) _ _ _
    · rename_i e
      exact Keeps.fst e (takeList_keeps h _ _)

theorem grantAll_keeps {s t : State} (h : Keeps s t) (ctrl : Bool) (p : Nat) (a : List Nat) :
    Keeps s (t.grantAll ctrl p a).1 := by
  induction a generalizing t with
  | nil =>
    rw [State.grantAll]
    exact h
  | cons x rest ih =>
    rw [State.grantAll]
    split
    rename_i _ e
    have hs1 := Keeps.fst e (grantDemand_keeps h _ _ _)
    split
    rename_i e1
    have hs2 := Keeps.fst e1 (ih hs1)
    exact Keeps.iteFst hs2 hs2

theorem demand_keeps {s t : State} (h : Keeps s t) (ctrl : Bool) (a a1 : List Nat) :
    Keeps s (t.demand ctrl a a1) := by
  induction a generalizing t a1 with
  | nil =>
    rw [State.demand]
    exact Keeps.ite h (Keeps.foldl _ (fun _ _ hu => noHeap_keeps hu _) h)
  | cons x rest ih =>
    rw [State.demand]
    refine Keeps.ite h ?_
    split
    rename_i _ _ e
    have hs2 := Keeps.fst e (grantAll_keeps h _ _ _)
    extract_lets src s21 s3 s4
    have hs21 : Keeps s s21 := by
      unfold s21
      split
      · extract_lets t1
        have ht1 : Keeps s t1 := Keeps.mk_iff.2 hs2
        exact count_keeps (setF_keeps (setF_keeps ht1 _ _ _ (by decide)) _ _ _ (by decide)) _ _
      · exact hs2
    have hs3 : Keeps s s3 := Keeps.ite (startRecall_keeps hs21 _) hs21
    have hs4 : Keeps s s4 := Keeps.ite hs3 (Keeps.ite (count_keeps hs3 _ _) (count_keeps hs3 _ _))
    exact ih hs4 _

theorem execBpmDemandRequest_keeps (ctrl : Bool) (pool : Nat) (requesters : List Nat) (s : State) :
    NextKeeps s (execBpmDemandRequest ctrl pool requesters s) :=
  .next (demand_keeps (.refl _) _ _ _)

theorem refill_keeps {s t : State} (h : Keeps s t) (shard p a : Nat) :
    Keeps s (t.refill shard p a) := by
  induction a generalizing t with
  | zero =>
    rw [State.refill]
    exact h
  | succ n ih =>
    rw [State.refill]
    split
    · rename_i e
      exact ih (setCache_keeps (Keeps.fst e (takeList_keeps h _ _)) _ _ _)
    · rename_i e
      exact Keeps.fst e (takeList_keeps h _ _)

theorem execBpmBatchRefill_keeps (shard pool : Nat) (s : State) :
    NextKeeps s (execBpmBatchRefill shard pool s) :=
  .next (Keeps.ite (.refl _) (Keeps.ite (refill_keeps (.refl _) _ _ _)
    (Keeps.ite (setList_keeps (setCache_keeps (.refl _) _ _ _) _ _ _) (.refl _))))

theorem execBpmRecallComplete_keeps (pool : Nat) (s : State) :
    NextKeeps s (execBpmRecallComplete pool s) := by
  unfold execBpmRecallComplete
  extract_lets back
  have hback : ∀ t k, Keeps s t → Keeps s (back t k) := by
    refine fun t k ht => ?_
    unfold back
    exact setList_keeps (setCache_keeps ht _ _ _) _ _ _
  exact .next (Keeps.ite (.refl _) (setBit_keeps (Keeps.foldl _ (fun _ _ hu => hback _ _ hu) (.refl _)) _ _ _ _
    (by decide)))

theorem execBpmHeapConfig_keeps (h : CmdHdr) (n64 n128 n256 : Nat) (s : State) :
    NextKeeps s (execBpmHeapConfig h n64 n128 n256 s) := by
  unfold execBpmHeapConfig
  refine .next (cmd_keeps (.refl _) _ _ _ _ _ (fun s1 hs1 => Keeps.iteFst hs1 ?_))
  extract_lets src s11 fill s2
  have hs11 : Keeps s s11 := Keeps.mk_iff.2 hs1
  have hfill : ∀ t k, Keeps s t → Keeps s (fill t k) := by
    refine fun t k ht => Keeps.foldl _ (fun u p hu => Keeps.ite hu ?_) ht
    exact Keeps.mk_iff.2 hu
  have hs2 : Keeps s s2 := Keeps.foldl _ (fun _ _ hu => hfill _ _ hu) hs11
  dsimp only
  exact syncHeap_keeps (syncHeap_keeps (syncHeap_keeps hs2 _) _) _

theorem execBpmCtrlConfig_keeps (h : CmdHdr) (counts : List Nat) (s : State) :
    NextKeeps s (execBpmCtrlConfig h counts s) := by
  unfold execBpmCtrlConfig
  refine .next (cmd_keeps (.refl _) _ _ _ _ _ (fun s1 hs1 => Keeps.iteFst hs1 ?_))
  extract_lets src s11 fill
  have hs11 : Keeps s s11 := Keeps.mk_iff.2 hs1
  have hfill : ∀ t p, Keeps s t → Keeps s (fill t p) := fun _ _ ht => Keeps.ite (syncCtrl_keeps ht _)
    (syncCtrl_keeps (Keeps.mk_iff.2 ht) _)
  exact Keeps.foldl _ (fun _ _ hu => hfill _ _ hu) hs11

theorem execBpmStatus_keeps (h : CmdHdr) (s : State) :
    NextKeeps s (execBpmStatus h s) := by
  unfold execBpmStatus
  refine .next (cmd_keeps (.refl _) _ _ _ _ _ (fun s1 hs1 => ?_))
  exact hs1

end Sys2Proof.Sound
end

section
/-! What the definitions of Machine/Rings.lean keep: the queue, the outputs, the free values, and soundness. -/

namespace Sys2Proof.Sound

open Sys2Proof.Machine Sys2Proof.Registers

theorem setRing_keeps {s t : State} (h : Keeps s t) (r : Nat) (v : Machine.Ring) :
    Keeps s (t.setRing r v) :=
  Keeps.mk_iff.2 h

theorem ringDrop_keeps {s t : State} (h : Keeps s t) (r : Nat) :
    Keeps s (t.ringDrop r) :=
  mbxEvent_keeps (count_keeps h _ _) _ (by decide)

theorem ringVector_keeps {s t : State} (h : Keeps s t) (n : Nat) :
    Keeps s (t.ringVector n) :=
  Keeps.ite (raiseVector_keeps (setRing_keeps h _ _) _) h

theorem ringPut_keeps {s t : State} (h : Keeps s t) (n k : Nat) :
    Keeps s (t.ringPut n k) :=
  ringVector_keeps (count_keeps (setRing_keeps h _ _) _ _) _

theorem ringCopyTo_keeps {s t : State} (h : Keeps s t) (n : Nat) (copy : List Nat) :
    Keeps s (t.ringCopyTo n copy).1 :=
  Keeps.iteFst (ringPut_keeps (emit_keeps h _) _ _) (ringDrop_keeps h _)

theorem notifyRing_keeps {s t : State} (h : Keeps s t) (n : Nat) (rec_ : NotifRec) :
    Keeps s (t.notifyRing n rec_) := by
  unfold State.notifyRing
  extract_lets r k left pad s1 r1
  have hs1 : Keeps s s1 := Keeps.ite (setRing_keeps (emit_keeps h _) _ _) h
  exact Keeps.ite (ringPut_keeps (Keeps.foldl _ (fun _ _ ht1 => emit_keeps ht1 _) hs1) _ _) (ringDrop_keeps h _)

theorem execNotificationWrite_keeps (s : State) :
    NextKeeps s (execNotificationWrite s) := by
  unfold execNotificationWrite
  refine .next ?_
  split
  · exact .refl _
  · extract_lets src s1 src1
    have hs1 : Keeps s s1 := Keeps.mk_iff.2 (.refl _)
    split
    · exact notifyRing_keeps hs1 _ _
    · exact Keeps.mk_iff.2 hs1
    · exact hs1

theorem execRingCoalesceTimer_keeps (ring : Nat) (s : State) :
    NextKeeps s (execRingCoalesceTimer ring s) :=
  .next (ringVector_keeps (.refl _) _)

theorem mbxCapture_keeps {s t : State} (h : Keeps s t) (kind unit value : Nat) :
    Keeps s (t.mbxCapture kind unit value) :=
  Keeps.ite h (setF_keeps (setF_keeps (setF_keeps (setF_keeps h _ _ _ (by decide)) _ _ _ (by decide)) _ _ _
    (by decide)) _ _ _ (by decide))

theorem badDoorbell_keeps {s t : State} (h : Keeps s t) (kind unit value : Nat) :
    Keeps s (t.badDoorbell kind unit value) :=
  mbxCapture_keeps (mbxEvent_keeps h _ (by decide)) _ _ _

theorem ringDoorbell_keeps {s t : State} (h : Keeps s t) (ring : Nat) (arm : Bool) (index : Nat) :
    Keeps s (t.ringDoorbell ring arm index) :=
  Keeps.ite h (Keeps.ite (badDoorbell_keeps h _ _ _) (ringVector_keeps (setRing_keeps h _ _) _))

theorem execRingDoorbell_keeps (ring : Nat) (arm : Bool) (index : Nat) (s : State) :
    NextKeeps s (execRingDoorbell ring arm index s) :=
  .next (ringDoorbell_keeps (.refl _) _ _ _)

theorem syncRings_keeps {s t : State} (h : Keeps s t) :
    Keeps s t.syncRings :=
  setF_keeps h _ _ _ (by decide)

theorem execRingConfig_keeps (h : CmdHdr) (ring rtype base n slotSize vector count us : Nat) (enable : Bool)
    (s : State) :
    NextKeeps s (execRingConfig h ring rtype base n slotSize vector count us enable s) := by
  unfold execRingConfig
  extract_lets off
  refine .next (cmd_keeps (.refl _) _ _ _ _ _ (fun s1 hs1 => ?_))
  exact Keeps.iteFst (syncRings_keeps (setRing_keeps hs1 _ _)) (Keeps.iteFst hs1
    (syncRings_keeps (setRing_keeps hs1 _ _)))

theorem execRingBind_keeps (h : CmdHdr) (cls : Nat) (dest : NotifTo) (s : State) :
    NextKeeps s (execRingBind h cls dest s) :=
  .next (cmd_keeps (.refl _) _ _ _ _ _ (fun _ hs1 => Keeps.mk_iff.2 hs1))

theorem execRingStatus_keeps (h : CmdHdr) (ring : Nat) (s : State) :
    NextKeeps s (execRingStatus h ring s) := by
  unfold execRingStatus
  refine .next (cmd_keeps (.refl _) _ _ _ _ _ (fun s1 hs1 => ?_))
  exact hs1

end Sys2Proof.Sound
end

section
/-! What the definitions of Machine/Copies.lean keep: the queue, the outputs, the free values, and soundness. -/

namespace Sys2Proof.Sound

open Sys2Proof.Machine Sys2Proof.Registers

theorem drawSample_keeps {s t : State} (h : Keeps s t) (n bit : Nat) :
    Keeps s (t.drawSample n bit).1 :=
  Keeps.iteFst h (drawOne_keeps h)

theorem copyLost_keeps {s t : State} (h : Keeps s t) (pipe : Nat) (c : CtrId) :
    Keeps s (t.copyLost pipe c) :=
  setF_keeps (count_keeps h _ _) _ _ _ (by decide)

theorem deliverCopy_keeps {s t : State} (h : Keeps s t) (c : CopyReq) (bytes : List Nat) :
    Keeps s (t.deliverCopy c bytes).1 :=
  Keeps.iteFst (Keeps.mk_iff.2 h) (ringCopyTo_keeps h _ _)

theorem ringCopy_keeps {s t : State} (h : Keeps s t) (p : Pkt) (c : CopyReq) :
    Keeps s (t.ringCopy p c) := by
  unfold State.ringCopy
  extract_lets key seq tokens src s1 src1 s2 len
  have hs1 : Keeps s s1 := Keeps.mk_iff.2 h
  have hs2 : Keeps s s2 := Keeps.mk_iff.2 hs1
  refine Keeps.ite (copyLost_keeps hs1 _ _) ?_
  split
  · rename_i e
    exact copyLost_keeps (Keeps.fst e (takeCtrl_keeps hs2 _ _)) _ _
  · rename_i _ e
    have hs3 := Keeps.fst e (takeCtrl_keeps hs2 _ _)
    split
    rename_i _ e1
    have hs11 := Keeps.fst e1 (deliverCopy_keeps hs3 _ _)
    extract_lets s5 s6
    have hs5 : Keeps s s5 := freeCtrl_keeps hs11 _ _
    have hs6 : Keeps s s6 := copyLost_keeps hs5 _ _
    exact Keeps.ite hs5 (Keeps.ite (setF_keeps (count_keeps hs6 _ _) _ _ _ (by decide)) hs6)

theorem countCopy_keeps {s t : State} (h : Keeps s t) (pipe : Nat) (c : CopyReq) :
    Keeps s (t.countCopy pipe c) :=
  Keeps.ite (count_keeps h _ _) (Keeps.ite (count_keeps h _ _) (count_keeps h _ _))

theorem makeRingCopies_keeps {s t : State} (h : Keeps s t) (id : Nat) :
    Keeps s (t.makeRingCopies id) := by
  unfold State.makeRingCopies
  split
  · exact h
  · exact Keeps.foldl _ (fun _ _ ht1 => ringCopy_keeps (countCopy_keeps ht1 _ _) _ _) h

end Sys2Proof.Sound
end

section
/-! What the definitions of Machine/MissQueue.lean keep: the queue, the outputs, the free values, and soundness. -/

namespace Sys2Proof.Sound

open Sys2Proof.Machine Sys2Proof.Registers

theorem syncMq_keeps {s t : State} (h : Keeps s t) (shard : Nat) :
    Keeps s (t.syncMq shard) :=
  maxF_keeps (maxF_keeps (setF_keeps (setF_keeps h _ _ _ (by decide)) _ _ _ (by decide)) _ _ _ (by decide)) _ _ _
    (by decide)

theorem setMq_keeps {s t : State} (h : Keeps s t) (shard : Nat) (q : List MqEntry) :
    Keeps s (t.setMq shard q) :=
  syncMq_keeps (Keeps.mk_iff.2 h) _

theorem mqDrop_keeps {s t : State} (h : Keeps s t) (shard : Nat) (pkts : List Nat) :
    Keeps s (t.mqDrop shard pkts) :=
  setMq_keeps h _ _

theorem mqSet_keeps {s t : State} (h : Keeps s t) (shard pkt : Nat) (f : MqEntry → MqEntry) :
    Keeps s (t.mqSet shard pkt f) :=
  setMq_keeps h _ _

theorem mqAdd_keeps {s t : State} (h : Keeps s t) (shard : Nat) (e : MqEntry) :
    Keeps s (t.mqAdd shard e) :=
  setMq_keeps h _ _

theorem sendAnswer_keeps {s t : State} (h : Keeps s t) (pkt : Nat) (a : Option Answer) :
    Keeps s (t.sendAnswer pkt a) :=
  Keeps.mk_iff.2 h

theorem forwardStateless_keeps {s t : State} (h : Keeps s t) (pkt : Nat) (key : List Nat) :
    Keeps s (t.forwardStateless pkt key) :=
  sendAnswer_keeps (modPkt_keeps h _ _) _ _

theorem overflow_keeps {s t : State} (h : Keeps s t) (pkt : Nat) (key : List Nat) :
    Keeps s (t.overflow pkt key) :=
  Keeps.ite (forwardStateless_keeps h _ _) (dropPkt_keeps h _)

theorem overflowAll_keeps {s t : State} (h : Keeps s t) (shard pkt : Nat) (key : List Nat) :
    Keeps s (t.overflowAll shard pkt key) :=
  Keeps.foldl _ (fun _ _ ht1 => overflow_keeps ht1 _ _) (mqDrop_keeps h _ _)

theorem syncParked_keeps {s t : State} (h : Keeps s t) :
    Keeps s t.syncParked :=
  maxF_keeps (setF_keeps h _ _ _ (by decide)) _ _ _ (by decide)

theorem unreachable_keeps {s t : State} (h : Keeps s t) (pkts key : List Nat) :
    Keeps s (t.unreachable pkts key) :=
  syncParked_keeps (Keeps.foldl _ (fun _ _ ht1 => overflow_keeps (count_keeps ht1 _ _) _ _) h)

theorem sendRequest_keeps {s t : State} (h : Keeps s t) (id member hash : Nat) (key : List Nat) :
    Keeps s (t.sendRequest id member hash key) := by
  unfold State.sendRequest
  split
  · exact Keeps.mk_iff.2 h
  · exact Keeps.ite (unreachable_keeps (mqDrop_keeps h _ _) _ _) (unreachable_keeps h _ _)

theorem issueRemote_keeps {s t : State} (h : Keeps s t) (id member hash : Nat) (p : Pkt) (key : List Nat) :
    Keeps s (t.issueRemote id member hash p key) :=
  Keeps.ite (Keeps.ite (mqAdd_keeps h _ _) (dropPkt_keeps (count_keeps (setF_keeps h _ _ _ (by decide)) _ _) _))
    (sendRequest_keeps h _ _ _ _)

end Sys2Proof.Sound
end

section
/-! What the definitions of Machine/Masked.lean keep: the queue, the outputs, the free values, and soundness. -/

namespace Sys2Proof.Sound

open Sys2Proof.Machine Sys2Proof.Registers

theorem mskSearch_keeps {s t : State} (h : Keeps s t) (pipe profile : Nat) (key : List Nat) (epoch : Nat) :
    Keeps s (t.mskSearch pipe profile key epoch).1 := by
  unfold State.mskSearch
  extract_lets p sel banks ms s1
  have hs1 : Keeps s s1 := count_keeps h _ _
  split
  · exact count_keeps hs1 _ _
  · extract_lets tied s2 k hits src
    have hs2 : Keeps s s2 := Keeps.ite (setF_keeps (count_keeps hs1 _ _) _ _ _ (by decide)) hs1
    exact count_keeps (Keeps.mk_iff.2 hs2) _ _

theorem mskCapture_keeps {s t : State} (h : Keeps s t) (pipe kind phys : Nat) :
    Keeps s (t.mskCapture pipe kind phys) :=
  Keeps.ite h (setF_keeps (setF_keeps (setF_keeps (setF_keeps h _ _ _ (by decide)) _ _ _ (by decide)) _ _ _
    (by decide)) _ _ _ (by decide))

theorem syncMsk_keeps {s t : State} (h : Keeps s t) (pipe : Nat) :
    Keeps s (t.syncMsk pipe) :=
  setB_keeps (setF_keeps h _ _ _ (by decide)) _ _ _ (by decide)

theorem syncMskAll_keeps {s t : State} (h : Keeps s t) :
    Keeps s t.syncMskAll :=
  Keeps.foldl _ (fun _ _ hu => syncMsk_keeps hu _) h

theorem mskUpset_keeps {s t : State} (h : Keeps s t) (pipe : Nat) (u : MskUpset) :
    Keeps s (t.mskUpset pipe u) :=
  Keeps.mk_iff.2 h

theorem mskRestore_keeps {s t : State} (h : Keeps s t) (pipe phys w : Nat) :
    Keeps s (t.mskRestore pipe phys w) :=
  Keeps.mk_iff.2 h

theorem mskVisit_keeps {s t : State} (h : Keeps s t) (pipe shroud : Nat) :
    Keeps s (t.mskVisit pipe shroud) := by
  unfold State.mskVisit
  extract_lets pos s1 k unlike t1 src s2
  have hs1 : Keeps s s1 := setF_keeps h _ _ _ (by decide)
  have ht1 : Keeps s t1 := mskCapture_keeps (setF_keeps hs1 _ _ _ (by decide)) _ _ _
  have hs2 : Keeps s s2 := Keeps.ite (raise_keeps (mskCapture_keeps (setF_keeps hs1 _ _ _ (by decide)) _ _ _) _ _ _
    _) (Keeps.ite (Keeps.ite (syncMsk_keeps (Keeps.mk_iff.2 ht1) _) (Keeps.mk_iff.2 ht1)) hs1)
  exact Keeps.ite (raise_keeps (mskCapture_keeps (setF_keeps (count_keeps (mskRestore_keeps hs2 _ _ _) _ _) _ _ _
    (by decide)) _ _ _) _ _ _ _) hs2

theorem execMskScrubVisit_keeps (pipe : Nat) (upset : Option MskUpset) (shroud : Nat) (s : State) :
    NextKeeps s (execMskScrubVisit pipe upset shroud s) := by
  unfold execMskScrubVisit
  extract_lets s1
  have hs1 : Keeps s s1 := by
    unfold s1
    split
    · exact mskUpset_keeps (.refl _) _ _
    · exact .refl _
  exact .next (Keeps.ite (.refl _) (Keeps.ite (mskVisit_keeps hs1 _ _) hs1))

theorem execMskSuspectRepair_keeps (pipe bank unit : Nat) (s : State) :
    NextKeeps s (execMskSuspectRepair pipe bank unit s) := by
  unfold execMskSuspectRepair
  extract_lets k t src
  have ht : Keeps s t := mskRestore_keeps (.refl _) _ _ _
  exact .next (Keeps.ite (raise_keeps (syncMsk_keeps (Keeps.mk_iff.2 ht) _) _ _ _ _) (.refl _))

theorem execMskActionRepair_keeps (pipe bank unit : Nat) (s : State) :
    NextKeeps s (execMskActionRepair pipe bank unit s) :=
  .next (Keeps.ite (raise_keeps (Keeps.mk_iff.2 (.refl _)) _ _ _ _) (.refl _))

theorem execMskBankConfig_keeps (h : CmdHdr) (bank width prio : Nat) (s : State) :
    NextKeeps s (execMskBankConfig h bank width prio s) :=
  .next (cmd_keeps (.refl _) _ _ _ _ _ (fun _ hs1 => Keeps.iteFst hs1 (Keeps.mk_iff.2 hs1)))

theorem execMskProfileSet_keeps (h : CmdHdr) (index : Nat) (words : List Nat) (s : State) :
    NextKeeps s (execMskProfileSet h index words s) :=
  .next (cmd_keeps (.refl _) _ _ _ _ _ (fun _ hs1 => Keeps.mk_iff.2 hs1))

theorem mskPutUnit_keeps {s t : State} (h : Keeps s t) (phys : Nat) (u : MskUnit) :
    Keeps s (t.mskPutUnit phys u) :=
  Keeps.mk_iff.2 h

theorem mskControl_keeps {s t : State} (h : Keeps s t) (phys : Nat) (f : MskUnit → MskUnit) :
    Keeps s (t.mskControl phys f) :=
  Keeps.mk_iff.2 h

theorem mskPutAction_keeps {s t : State} (h : Keeps s t) (phys : Nat) (action : List Nat) :
    Keeps s (t.mskPutAction phys action) :=
  Keeps.mk_iff.2 h

theorem mskSet_keeps {s t : State} (h : Keeps s t) (bank index : Nat) (e : MskEntry) :
    Keeps s (t.mskSet bank index e) := by
  unfold State.mskSet
  extract_lets phys s1 off s2 src
  have hs1 : Keeps s s1 := Keeps.foldl _ (fun _ _ ht1 => mskPutUnit_keeps ht1 _ _) h
  have hs2 : Keeps s s2 := mskPutAction_keeps hs1 _ _
  exact syncMskAll_keeps (Keeps.mk_iff.2 hs2)

theorem mskInvalidate_keeps {s t : State} (h : Keeps s t) (bank index : Nat) :
    Keeps s (t.mskInvalidate bank index) :=
  syncMskAll_keeps (mskControl_keeps h _ _)

theorem execMskWrite_keeps (h : CmdHdr) (bank index : Nat) (ep0 ep1 : Bool) (width : Nat)
    (value mask action : List Nat) (s : State) :
    NextKeeps s (execMskWrite h bank index ep0 ep1 width value mask action s) := by
  unfold execMskWrite
  refine .next (cmdTx_keeps (.refl _) _ _ _ _ (fun s1 hs1 => Keeps.iteFst hs1 ?_))
  split
  · exact hs1
  · exact mskSet_keeps hs1 _ _ _

theorem mskChange_keeps {s t : State} (h : Keeps s t) (bank index : Nat) (f : State → State)
    (hf : ∀ u, Keeps s u → Keeps s (f u)) :
    Keeps s (t.mskChange bank index f).1 := by
  unfold State.mskChange
  refine Keeps.iteFst h (Keeps.iteFst h ?_)
  split
  · exact h
  · exact hf _ h

theorem execMskModifyAction_keeps (h : CmdHdr) (bank index : Nat) (action : List Nat) (s : State) :
    NextKeeps s (execMskModifyAction h bank index action s) :=
  .next (cmdTx_keeps (.refl _) _ _ _ _ (fun _ hs1 => mskChange_keeps hs1 _ _ _
    (fun _ ht => mskPutAction_keeps ht _ _)))

theorem execMskSetMembership_keeps (h : CmdHdr) (bank index : Nat) (ep0 ep1 : Bool) (s : State) :
    NextKeeps s (execMskSetMembership h bank index ep0 ep1 s) :=
  .next (cmdTx_keeps (.refl _) _ _ _ _ (fun _ hs1 => mskChange_keeps hs1 _ _ _ (fun _ ht => mskControl_keeps ht _ _)))

theorem execMskDelete_keeps (h : CmdHdr) (bank index : Nat) (s : State) :
    NextKeeps s (execMskDelete h bank index s) :=
  .next (cmdTx_keeps (.refl _) _ _ _ _ (fun _ hs1 => mskChange_keeps hs1 _ _ _
    (fun _ ht => mskInvalidate_keeps ht _ _)))

theorem execMskRead_keeps (h : CmdHdr) (bank index : Nat) (clearHit : Bool) (s : State) :
    NextKeeps s (execMskRead h bank index clearHit s) := by
  unfold execMskRead
  refine .next (cmd_keeps (.refl _) _ _ _ _ _ (fun s1 hs1 => ?_))
  extract_lets phys here img src s11
  have hs11 : Keeps s s11 := Keeps.ite (Keeps.mk_iff.2 hs1) hs1
  exact hs11

theorem execMskScrubConfig_keeps (h : CmdHdr) (scrubEn : Bool) (s : State) :
    NextKeeps s (execMskScrubConfig h scrubEn s) :=
  .next (cmd_keeps (.refl _) _ _ _ _ _ (fun _ hs1 => setAll_keeps hs1 _ _ _ (by decide)))

end Sys2Proof.Sound
end

section
/-! What the definitions of Machine/Tables.lean keep: the queue, the outputs, the free values, and soundness. -/

namespace Sys2Proof.Sound

open Sys2Proof.Machine Sys2Proof.Registers

theorem clsCapture_keeps {s t : State} (h : Keeps s t) (pipe table index : Nat) (unc : Bool) :
    Keeps s (t.clsCapture pipe table index unc) :=
  Keeps.ite h (setF_keeps (setF_keeps (setB_keeps (setF_keeps h _ _ _ (by decide)) _ _ _ (by decide)) _ _ _
    (by decide)) _ _ _ (by decide))

theorem clsEcc_keeps {s t : State} (h : Keeps s t) (pipe : Nat) (e : EccErr) :
    Keeps s (t.clsEcc pipe e) := by
  unfold State.clsEcc
  extract_lets die s1 rest src s2
  have hs1 : Keeps s s1 := clsCapture_keeps (setF_keeps h _ _ _ (by decide)) _ _ _ _
  have hs2 : Keeps s s2 := Keeps.mk_iff.2 hs1
  exact Keeps.ite (Keeps.ite (raise_keeps hs2 _ _ _ _) hs2) (raise_keeps
    (clsCapture_keeps (setF_keeps h _ _ _ (by decide)) _ _ _ _) _ _ _ _)

theorem execClsEntryRepair_keeps (die table index : Nat) (s : State) :
    NextKeeps s (execClsEntryRepair die table index s) :=
  .next (Keeps.ite (raise_keeps (Keeps.mk_iff.2 (.refl _)) _ _ _ _) (.refl _))

theorem mendCls_keeps {s t : State} (h : Keeps s t) (table index : Nat) :
    Keeps s (t.mendCls table index) := by
  unfold State.mendCls
  extract_lets hit src s1
  have hs1 : Keeps s s1 := Keeps.mk_iff.2 h
  exact Keeps.ite (Keeps.foldl _ (fun _ _ ht1 => endCondition_keeps ht1 _ _) hs1) hs1

theorem mendNew_keeps {s t : State} (h : Keeps s t) {α : Type} [DecidableEq α] (table : Nat) (old new : SMap α) :
    Keeps s (t.mendNew table old new) :=
  Keeps.foldl _ (fun _ _ ht1 => mendCls_keeps ht1 _ _) h

theorem setEm_keeps {s t : State} (h : Keeps s t) (m : SMap RuleEntry) :
    Keeps s (t.setEm m) :=
  Keeps.mk_iff.2 h

theorem stashUsed_keeps {s t : State} (h : Keeps s t) :
    Keeps s t.stashUsed :=
  setAll_keeps h _ _ _ (by decide)

theorem emInsert_keeps {s t : State} (h : Keeps s t) (e : RuleEntry) :
    Keeps s (t.emInsert e).1 := by
  unfold State.emInsert
  refine Keeps.iteFst h (Keeps.iteFst h ?_)
  split
  · exact h
  · split
    · exact h
    · extract_lets s1
      have hs1 : Keeps s s1 := mendNew_keeps (setEm_keeps h _) _ _ _
      exact Keeps.ite (stashUsed_keeps hs1) hs1

theorem emChange_keeps {s t : State} (h : Keeps s t) (table : Nat) (key : List Nat) (epoch : Nat)
    (f : State → Nat → RuleEntry → State × Rsp) (hf : ∀ u x1 x2, Keeps s u → Keeps s (f u x1 x2).1) :
    Keeps s (t.emChange table key epoch f).1 := by
  unfold State.emChange
  split
  · exact h
  · refine Keeps.iteFst h ?_
    split
    · exact h
    · exact hf _ _ _ h

theorem execEmTableConfig_keeps (h : CmdHdr) (table : Nat) (wide : Bool) (keyUnits : Nat) (s : State) :
    NextKeeps s (execEmTableConfig h table wide keyUnits s) :=
  .next (cmd_keeps (.refl _) _ _ _ _ _ (fun _ hs1 => Keeps.iteFst hs1 (Keeps.mk_iff.2 hs1)))

theorem execEmInsert_keeps (h : CmdHdr) (table : Nat) (key : List Nat) (ep0 ep1 : Bool) (action data : List Nat)
    (s : State) :
    NextKeeps s (execEmInsert h table key ep0 ep1 action data s) := by
  unfold execEmInsert
  refine .next (cmdTx_keeps (.refl _) _ _ _ _ (fun s1 hs1 => ?_))
  exact emInsert_keeps hs1 _

theorem execEmModify_keeps (h : CmdHdr) (table : Nat) (key : List Nat) (epoch : Nat) (action data : List Nat)
    (s : State) :
    NextKeeps s (execEmModify h table key epoch action data s) :=
  .next (cmdTx_keeps (.refl _) _ _ _ _ (fun _ hs1 => emChange_keeps hs1 _ _ _ _
    (fun _ _ _ ht => mendCls_keeps (setEm_keeps ht _) _ _)))

theorem execEmDelete_keeps (h : CmdHdr) (table : Nat) (key : List Nat) (epoch : Nat) (s : State) :
    NextKeeps s (execEmDelete h table key epoch s) :=
  .next (cmdTx_keeps (.refl _) _ _ _ _ (fun _ hs1 => emChange_keeps hs1 _ _ _ _
    (fun _ _ _ ht => mendCls_keeps (setEm_keeps ht _) _ _)))

theorem execEmSetMembership_keeps (h : CmdHdr) (table : Nat) (key : List Nat) (epoch : Nat) (ep0 ep1 : Bool)
    (s : State) :
    NextKeeps s (execEmSetMembership h table key epoch ep0 ep1 s) :=
  .next (cmdTx_keeps (.refl _) _ _ _ _ (fun _ hs1 => emChange_keeps hs1 _ _ _ _
    (fun _ _ _ ht => Keeps.iteFst ht (mendCls_keeps (setEm_keeps ht _) _ _))))

theorem execEmRead_keeps (h : CmdHdr) (table : Nat) (key : List Nat) (epoch : Nat) (clearHit : Bool) (s : State) :
    NextKeeps s (execEmRead h table key epoch clearHit s) := by
  unfold execEmRead
  refine .next (cmd_keeps (.refl _) _ _ _ _ _ (fun s1 hs1 => ?_))
  split
  · exact hs1
  · exact Keeps.ite (setEm_keeps hs1 _) hs1

theorem execClsClassProfile_keeps (h : CmdHdr) (index word : Nat) (s : State) :
    NextKeeps s (execClsClassProfile h index word s) :=
  .next (cmd_keeps (.refl _) _ _ _ _ _ (fun _ hs1 => mendCls_keeps (Keeps.mk_iff.2 hs1) _ _))

theorem execClsPortConfig_keeps (h : CmdHdr) (port vrf vlan unknownSa staticMove : Nat) (s : State) :
    NextKeeps s (execClsPortConfig h port vrf vlan unknownSa staticMove s) :=
  .next (cmd_keeps (.refl _) _ _ _ _ _ (fun _ hs1 => Keeps.iteFst hs1 (Keeps.mk_iff.2 hs1)))

theorem execClsProfileSet_keeps (h : CmdHdr) (index : Nat) (words : List Nat) (s : State) :
    NextKeeps s (execClsProfileSet h index words s) := by
  unfold execClsProfileSet
  refine .next (cmd_keeps (.refl _) _ _ _ _ _ (fun s1 hs1 => ?_))
  exact Keeps.iteFst hs1 (Keeps.iteFst hs1 (mendCls_keeps (Keeps.mk_iff.2 hs1) _ _))

theorem execL2Insert_keeps (h : CmdHdr) (vlan mac port : Nat) (isStatic : Bool) (s : State) :
    NextKeeps s (execL2Insert h vlan mac port isStatic s) := by
  unfold execL2Insert
  refine .next (cmdTx_keeps (.refl _) _ _ _ _ (fun s1 hs1 => ?_))
  split
  · exact hs1
  · split
    · exact hs1
    · extract_lets src s11
      have hs11 : Keeps s s11 := mendNew_keeps (Keeps.mk_iff.2 hs1) _ _ _
      exact Keeps.ite (stashUsed_keeps hs11) hs11

theorem execL2Delete_keeps (h : CmdHdr) (vlan mac : Nat) (s : State) :
    NextKeeps s (execL2Delete h vlan mac s) := by
  unfold execL2Delete
  refine .next (cmdTx_keeps (.refl _) _ _ _ _ (fun s1 hs1 => ?_))
  split
  · exact hs1
  · exact mendCls_keeps (Keeps.mk_iff.2 hs1) _ _

theorem execL2LearnConfig_keeps (h : CmdHdr) (toHost : Bool) (ring holdoff rate ageTime sweepPeriod : Nat)
    (s : State) :
    NextKeeps s (execL2LearnConfig h toHost ring holdoff rate ageTime sweepPeriod s) := by
  unfold execL2LearnConfig
  refine .next (cmd_keeps (.refl _) _ _ _ _ _ (fun s1 hs1 => ?_))
  extract_lets s11 s2 src
  have hs11 : Keeps s s11 := setAll_keeps (setAll_keeps (setAll_keeps hs1 _ _ _ (by decide)) _ _ _ (by decide)) _ _ _
    (by decide)
  have hs2 : Keeps s s2 := setAll_keeps hs11 _ _ _ (by decide)
  exact Keeps.mk_iff.2 hs2

theorem execL2AgerVisit_keeps (die slot : Nat) (s : State) :
    NextKeeps s (execL2AgerVisit die slot s) := by
  unfold execL2AgerVisit
  refine .next ?_
  split
  · exact .refl _
  · extract_lets marked e' src s1
    have hs1 : Keeps s s1 := Keeps.mk_iff.2 (.refl _)
    exact Keeps.ite (.refl _) (Keeps.ite (Keeps.mk_iff.2 (.refl _))
      (Keeps.ite (notify_keeps hs1 _ _ _ _ _) (.refl _)))

theorem execRouteHostAdd_keeps (h : CmdHdr) (vrf : Nat) (v6 : Bool) (addr plen fwdOp fwdTarget : Nat) (s : State) :
    NextKeeps s (execRouteHostAdd h vrf v6 addr plen fwdOp fwdTarget s) := by
  unfold execRouteHostAdd
  refine .next (cmdTx_keeps (.refl _) _ _ _ _ (fun s1 hs1 => Keeps.iteFst hs1 ?_))
  split
  · exact hs1
  · extract_lets src s11
    have hs11 : Keeps s s11 := mendNew_keeps (Keeps.mk_iff.2 hs1) _ _ _
    exact Keeps.ite (stashUsed_keeps hs11) hs11

theorem execRouteLpmAdd_keeps (h : CmdHdr) (vrf : Nat) (v6 : Bool) (addr plen fwdOp fwdTarget : Nat) (s : State) :
    NextKeeps s (execRouteLpmAdd h vrf v6 addr plen fwdOp fwdTarget s) := by
  unfold execRouteLpmAdd
  refine .next (cmdTx_keeps (.refl _) _ _ _ _ (fun s1 hs1 => Keeps.iteFst hs1 (Keeps.iteFst hs1 ?_)))
  exact mendCls_keeps (Keeps.mk_iff.2 hs1) _ _

theorem execRouteDelete_keeps (h : CmdHdr) (table vrf : Nat) (v6 : Bool) (addr plen : Nat) (s : State) :
    NextKeeps s (execRouteDelete h table vrf v6 addr plen s) := by
  unfold execRouteDelete
  refine .next (cmdTx_keeps (.refl _) _ _ _ _ (fun s1 hs1 => Keeps.iteFst ?_ ?_))
  · split
    · exact hs1
    · exact mendCls_keeps (Keeps.mk_iff.2 hs1) _ _
  · extract_lets hit src
    split
    · exact mendCls_keeps (Keeps.mk_iff.2 hs1) _ _
    · exact hs1

theorem execNhSet_keeps (h : CmdHdr) (index port rewrite backup : Nat) (backupValid : Bool) (s : State) :
    NextKeeps s (execNhSet h index port rewrite backup backupValid s) :=
  .next (cmdTx_keeps (.refl _) _ _ _ _ (fun _ hs1 => mendCls_keeps (Keeps.mk_iff.2 hs1) _ _))

theorem execEcmpSet_keeps (h : CmdHdr) (group hashSel : Nat) (members : List Nat) (s : State) :
    NextKeeps s (execEcmpSet h group hashSel members s) := by
  unfold execEcmpSet
  refine .next (cmdTx_keeps (.refl _) _ _ _ _ (fun s1 hs1 => ?_))
  split
  · exact hs1
  · extract_lets src s11
    have hs11 : Keeps s s11 := Keeps.mk_iff.2 hs1
    exact Keeps.foldl _ (fun _ _ ht => mendCls_keeps ht _ _) (mendCls_keeps hs11 _ _)

end Sys2Proof.Sound
end

section
/-! What the definitions of Machine/Parser.lean keep: the queue, the outputs, the free values, and soundness. -/

namespace Sys2Proof.Sound

open Sys2Proof.Machine Sys2Proof.Registers

theorem prsCapture_keeps {s t : State} (h : Keeps s t) (pipe : Nat) (e : EccErr) :
    Keeps s (t.prsCapture pipe e) :=
  Keeps.ite h (setF_keeps (setF_keeps (setF_keeps (setB_keeps (setF_keeps h _ _ _ (by decide)) _ _ _ (by decide)) _ _
    _ (by decide)) _ _ _ (by decide)) _ _ _ (by decide))

theorem prsEcc_keeps {s t : State} (h : Keeps s t) (pipe : Nat) (e : EccErr) :
    Keeps s (t.prsEcc pipe e) := by
  unfold State.prsEcc
  extract_lets rest src s1
  have hs1 : Keeps s s1 := Keeps.mk_iff.2 h
  exact Keeps.ite (prsCapture_keeps (setF_keeps hs1 _ _ _ (by decide)) _ _)
    (raise_keeps (prsCapture_keeps (setF_keeps h _ _ _ (by decide)) _ _) _ _ _ _)

theorem execPrsEntryRepair_keeps (pipe table index : Nat) (s : State) :
    NextKeeps s (execPrsEntryRepair pipe table index s) :=
  .next (Keeps.ite (raise_keeps (Keeps.mk_iff.2 (.refl _)) _ _ _ _) (.refl _))

theorem mendPrs_keeps {s t : State} (h : Keeps s t) (table index : Nat) :
    Keeps s (t.mendPrs table index) :=
  Keeps.mk_iff.2 h

theorem countParse_keeps {s t : State} (h : Keeps s t) (pipe : Nat) (r : ParseRes) :
    Keeps s (t.countParse pipe r) := by
  unfold State.countParse
  extract_lets s1 s2 s3 s4
  have hs1 : Keeps s s1 := Keeps.ite (setF_keeps (count_keeps h _ _) _ _ _ (by decide)) h
  have hs2 : Keeps s s2 := Keeps.ite (setF_keeps (count_keeps hs1 _ _) _ _ _ (by decide)) hs1
  have hs3 : Keeps s s3 := Keeps.ite (setF_keeps (count_keeps hs2 _ _) _ _ _ (by decide)) hs2
  have hs4 : Keeps s s4 := Keeps.ite (count_keeps hs3 _ _) hs3
  exact Keeps.ite (count_keeps hs4 _ _) hs4

theorem countLate_keeps {s t : State} (h : Keeps s t) (pipe : Nat) :
    Keeps s (t.countLate pipe) :=
  setF_keeps (count_keeps h _ _) _ _ _ (by decide)

theorem passBounds_keeps {s t : State} (h : Keeps s t) (id : Nat) (growth : Int) (bounds : List Nat) :
    Keeps s (t.passBounds id growth bounds) :=
  Keeps.mk_iff.2 h

theorem parseAndPlace_keeps {s t : State} (h : Keeps s t) (id : Nat) (p : Pkt) (err : Option EccErr) :
    Keeps s (t.parseAndPlace id p err) := by
  unfold State.parseAndPlace
  extract_lets r hit s1 lane seq s0 src s2
  have hs1 : Keeps s s1 := by
    unfold s1
    clear_value hit
    split
    · exact prsEcc_keeps h _ _
    · exact h
  have hs0 : Keeps s s0 := passBounds_keeps hs1 _ _ _
  have hs2 : Keeps s s2 := Keeps.mk_iff.2 hs0
  exact Keeps.ite (dropPkt_keeps (count_keeps hs1 _ _) _) (Keeps.ite
    (dropPkt_keeps (countLate_keeps (countParse_keeps hs1 _ _) _) _)
    (syncReorder_keeps (countParse_keeps (modPkt_keeps hs2 _ _) _ _) _))

theorem lateDrop_keeps {s t : State} (h : Keeps s t) (id pipe : Nat) :
    Keeps s (t.lateDrop id pipe) :=
  dropPkt_keeps (setF_keeps (count_keeps h _ _) _ _ _ (by decide)) _

theorem execDeal_keeps (pipe kind : Nat) (err : Option EccErr) (s : State) :
    NextKeeps s (execDeal pipe kind err s) := by
  unfold execDeal
  refine .next ?_
  split
  · exact .refl _
  · exact Keeps.ite (.refl _) (Keeps.ite (lateDrop_keeps (.refl _) _ _)
      (Keeps.ite (dropPkt_keeps (setF_keeps (count_keeps (.refl _) _ _) _ _ _ (by decide)) _)
      (parseAndPlace_keeps (.refl _) _ _ _)))

theorem syncGraph_keeps {s t : State} (h : Keeps s t) :
    Keeps s t.syncGraph :=
  setAll_keeps h _ _ _ (by decide)

theorem execPrsGraphWrite_keeps (h : CmdHdr) (index : Nat) (words : List Nat) (s : State) :
    NextKeeps s (execPrsGraphWrite h index words s) :=
  .next (cmd_keeps (.refl _) _ _ _ _ _ (fun _ hs1 => syncGraph_keeps (mendPrs_keeps (Keeps.mk_iff.2 hs1) _ _)))

theorem execPrsGraphRead_keeps (h : CmdHdr) (index : Nat) (s : State) :
    NextKeeps s (execPrsGraphRead h index s) :=
  .next (cmd_keeps (.refl _) _ _ _ _ _ (fun _ hs1 => hs1))

theorem execPrsPortStart_keeps (h : CmdHdr) (port start group : Nat) (s : State) :
    NextKeeps s (execPrsPortStart h port start group s) :=
  .next (cmd_keeps (.refl _) _ _ _ _ _ (fun _ hs1 => Keeps.mk_iff.2 hs1))

theorem execPrsKeyProfile_keeps (h : CmdHdr) (index : Nat) (words : List Nat) (s : State) :
    NextKeeps s (execPrsKeyProfile h index words s) :=
  .next (cmd_keeps (.refl _) _ _ _ _ _ (fun _ hs1 => mendPrs_keeps (Keeps.mk_iff.2 hs1) _ _))

theorem execPrsKeyMap_keeps (h : CmdHdr) (group keyClass profile : Nat) (s : State) :
    NextKeeps s (execPrsKeyMap h group keyClass profile s) :=
  .next (cmd_keeps (.refl _) _ _ _ _ _ (fun _ hs1 => Keeps.mk_iff.2 hs1))

theorem execPrsScanConfig_keeps (h : CmdHdr) (ipv4 : List Nat) (geneve : List (Nat × Nat)) (s : State) :
    NextKeeps s (execPrsScanConfig h ipv4 geneve s) :=
  .next (cmd_keeps (.refl _) _ _ _ _ _ (fun _ hs1 => Keeps.mk_iff.2 hs1))

theorem execPrsExcConfig_keeps (h : CmdHdr) (conflictAction : Nat) (trapEn trapToCriod : Bool)
    (trapRing trapLen : Nat) (s : State) :
    NextKeeps s (execPrsExcConfig h conflictAction trapEn trapToCriod trapRing trapLen s) := by
  unfold execPrsExcConfig
  refine .next (cmd_keeps (.refl _) _ _ _ _ _ (fun s1 hs1 => ?_))
  extract_lets s11 s2
  have hs11 : Keeps s s11 := setAll_keeps (setAll_keeps hs1 _ _ _ (by decide)) _ _ _ (by decide)
  have hs2 : Keeps s s2 := setAll_keeps (setAll_keeps hs11 _ _ _ (by decide)) _ _ _ (by decide)
  exact setAll_keeps hs2 _ _ _ (by decide)

end Sys2Proof.Sound
end

section
/-! What the definitions of Machine/Classify.lean keep: the queue, the outputs, the free values, and soundness. -/

namespace Sys2Proof.Sound

open Sys2Proof.Machine Sys2Proof.Registers

theorem mskActionError_keeps {s t : State} (h : Keeps s t) (pipe phys : Nat) (errs : List EccErr) :
    Keeps s (t.mskActionError pipe phys errs) := by
  unfold State.mskActionError
  split
  · exact h
  · extract_lets k t1 src
    have ht1 : Keeps s t1 := mskCapture_keeps (setF_keeps h _ _ _ (by decide)) _ _ _
    exact Keeps.ite (Keeps.mk_iff.2 ht1) (raise_keeps (mskCapture_keeps (setF_keeps h _ _ _ (by decide)) _ _ _) _ _ _
      _)

theorem emStage_keeps {s t : State} (h : Keeps s t) (p : Pkt) (cw : Nat) :
    Keeps s (t.emStage p cw).1 := by
  unfold State.emStage
  extract_lets none_ table reads
  refine Keeps.iteFst h ?_
  split
  · exact count_keeps h _ _
  · extract_lets s1
    have hs1 : Keeps s s1 := count_keeps (setEm_keeps h _) _ _
    exact hs1

theorem mskStage_keeps {s t : State} (hk : Keeps s t) (p : Pkt) (cw : Nat) (errs : List EccErr) (h : RuleHits) :
    Keeps s (t.mskStage p cw errs h).1 := by
  unfold State.mskStage
  refine Keeps.iteFst hk ?_
  split
  · rename_i e
    exact Keeps.fst e (mskSearch_keeps hk _ _ _ _)
  · rename_i _ e
    have hs3 := Keeps.fst e (mskSearch_keeps hk _ _ _ _)
    extract_lets s2 k
    have hs2 : Keeps s s2 := mskActionError_keeps hs3 _ _ _
    exact Keeps.iteFst (setF_keeps (count_keeps hs2 _ _) _ _ _ (by decide)) hs2

theorem sendLearn_keeps {s t : State} (h : Keeps s t) (pipe kind vlan mac port old : Nat) :
    Keeps s (t.sendLearn pipe kind vlan mac port old) := by
  unfold State.sendLearn
  extract_lets hold seen ms sent rest src s1
  have hs1 : Keeps s s1 := Keeps.mk_iff.2 h
  exact Keeps.ite (count_keeps h _ _) (Keeps.ite (setF_keeps (count_keeps h _ _) _ _ _ (by decide))
    (notify_keeps (count_keeps hs1 _ _) _ _ _ _ _))

theorem learnStage_keeps {s t : State} (h : Keeps s t) (p : Pkt) (fwdSrc : Nat) :
    Keeps s (t.learnStage p fwdSrc).1 := by
  unfold State.learnStage
  split
  extract_lets cfg reads src
  split
  · exact sendLearn_keeps h _ _ _ _ _ _
  · extract_lets s1
    have hs1 : Keeps s s1 := Keeps.ite (Keeps.mk_iff.2 h) h
    exact Keeps.iteFst hs1 (Keeps.iteFst (setF_keeps (sendLearn_keeps hs1 _ _ _ _ _ _) _ _ _ (by decide))
      (sendLearn_keeps hs1 _ _ _ _ _ _))

theorem dropClassified_keeps {s t : State} (h : Keeps s t) (id : Nat) :
    Keeps s (t.dropClassified id) :=
  dropPkt_keeps (makeRingCopies_keeps h _) _

theorem storeHead_keeps {s t : State} (h : Keeps s t) (id : Nat) :
    Keeps s (t.storeHead id) := by
  unfold State.storeHead
  split
  · exact h
  · split
    · exact endPkt_keeps (setF_keeps (count_keeps h _ _) _ _ _ (by decide)) _ _
    · exact fcUpdate_keeps (syncIqm_keeps (modPkt_keeps h _ _) _) _

theorem bypass_keeps {s t : State} (h : Keeps s t) (id pipe : Nat) :
    Keeps s (t.bypass id pipe) := by
  unfold State.bypass
  extract_lets n src s1
  have hs1 : Keeps s s1 := Keeps.mk_iff.2 h
  exact storeHead_keeps (count_keeps (modPkt_keeps hs1 _ _) _ _) _

theorem enterWindow_keeps {s t : State} (h : Keeps s t) (id pipe : Nat) :
    Keeps s (t.enterWindow id pipe) := by
  unfold State.enterWindow
  extract_lets w n src src1 s1
  have hs1 : Keeps s s1 := Keeps.mk_iff.2 h
  exact Keeps.ite (dropPkt_keeps (count_keeps h _ _) _) (modPkt_keeps hs1 _ _)

theorem useProfile_keeps {s t : State} (h : Keeps s t) (p : Pkt) (n : Option Nat) :
    Keeps s (t.useProfile p n).1 := by
  unfold State.useProfile
  split
  · exact h
  · exact Keeps.iteFst h (setF_keeps (count_keeps h _ _) _ _ _ (by decide))

theorem issueLookup_keeps {s t : State} (h : Keeps s t) (id : Nat) (p : Pkt) (key : List Nat) :
    Keeps s (t.issueLookup id p key) := by
  unfold State.issueLookup
  extract_lets s1 src
  have hs1 : Keeps s s1 := modPkt_keeps h _ _
  split
  · exact issueRemote_keeps hs1 _ _ _ _ _
  · exact Keeps.mk_iff.2 hs1

theorem afterClassify_keeps {s t : State} (h : Keeps s t) (id : Nat) (p : Pkt) (prof : Option (Nat × List Nat))
    (flowSrc : Nat) :
    Keeps s (t.afterClassify id p prof flowSrc) := by
  unfold State.afterClassify
  extract_lets win s1
  have hs1 : Keeps s s1 := count_keeps h _ _
  refine Keeps.ite ?_ (Keeps.ite (bypass_keeps h _ _) ?_)
  · split
    · exact bypass_keeps h _ _
    · extract_lets copy s11
      have hs11 : Keeps s s11 := Keeps.ite (modPkt_keeps h _ _) h
      exact Keeps.ite (dropClassified_keeps h _) (bypass_keeps hs11 _ _)
  · split
    · exact Keeps.ite (enterWindow_keeps hs1 _ _) (bypass_keeps hs1 _ _)
    · exact bypass_keeps h _ _
    · exact Keeps.ite (enterWindow_keeps (modPkt_keeps h _ _) _ _) (issueLookup_keeps h _ _ _)

theorem sampleStage_keeps {s t : State} (hk : Keeps s t) (p : Pkt) (h : RuleHits) (prof : Option Nat) :
    Keeps s (t.sampleStage p h prof).1 := by
  unfold State.sampleStage
  split
  rename_i _ e
  have hs3 := Keeps.fst e (drawSample_keeps hk _ _)
  split
  rename_i _ e1
  have hs31 := Keeps.fst e1 (drawSample_keeps hs3 _ _)
  split
  rename_i e2
  exact Keeps.fst e2 (drawSample_keeps hs31 _ _)

theorem classify_keeps {s t : State} (h : Keeps s t) (id : Nat) (p : Pkt) (errs : List EccErr) :
    Keeps s (t.classify id p errs) := by
  unfold State.classify
  extract_lets pipe cw kw fwdSrc
  split
  rename_i _ e
  have hs2 := Keeps.fst e (emStage_keeps h _ _)
  split
  rename_i _ e1
  have hs21 := Keeps.fst e1 (mskStage_keeps hs2 _ _ _ _)
  extract_lets prof vrf p1
  split
  split
  rename_i _ _ e2
  have hs3 := Keeps.fst e2 (Keeps.iteFst (learnStage_keeps hs21 _ _) hs21)
  extract_lets hops reads met s4
  have hs4 : Keeps s s4 := Keeps.foldl _ (fun _ _ ht1 => clsEcc_keeps ht1 _ _) hs3
  refine Keeps.ite (dropPkt_keeps hs4 _) (Keeps.ite (dropPkt_keeps (count_keeps hs4 _ _) _) ?_)
  split
  rename_i _ e3
  have hs31 := Keeps.fst e3 (sampleStage_keeps hs4 _ _ _)
  split
  extract_lets src p11 s6 s7
  have hs6 : Keeps s s6 := modPkt_keeps hs31 _ _
  have hs7 : Keeps s s7 := Keeps.ite (count_keeps hs6 _ _) hs6
  refine Keeps.ite (dropClassified_keeps (count_keeps hs6 _ _) _)
    (Keeps.ite (dropClassified_keeps (setF_keeps (count_keeps hs6 _ _) _ _ _ (by decide)) _)
    (Keeps.ite (dropClassified_keeps (count_keeps hs6 _ _) _) (Keeps.ite (dropClassified_keeps hs6 _) ?_)))
  split
  rename_i e4
  exact afterClassify_keeps (modPkt_keeps (Keeps.fst e4 (useProfile_keeps hs7 _ _)) _ _) _ _ _ _

theorem parserRelease_keeps {s t : State} (h : Keeps s t) (id : Nat) (p0 : Pkt) (errs : List EccErr) :
    Keeps s (t.parserRelease id p0 errs) := by
  unfold State.parserRelease
  extract_lets pipe p1 s1 kp p2
  have hs1 : Keeps s s1 := syncReorder_keeps (modPkt_keeps h _ _) _
  refine Keeps.ite (dropClassified_keeps hs1 _) ?_
  split
  · extract_lets s2 p21
    have hs2 : Keeps s s2 := prsEcc_keeps hs1 _ _
    exact Keeps.ite (dropPkt_keeps (count_keeps hs2 _ _) _) (classify_keeps (modPkt_keeps hs2 _ _) _ _ _)
  · exact classify_keeps (modPkt_keeps hs1 _ _) _ _ _

theorem orStall_keeps {s t t_ : State} (h : Keeps s t) (ht_ : Keeps s t_) (pipe : Nat) :
    Keeps s (t.orStall t_ pipe) :=
  Keeps.ite h ht_

theorem execParserReorderRelease_keeps (pipe src : Nat) (errs : List EccErr) (s : State) :
    NextKeeps s (execParserReorderRelease pipe src errs s) := by
  unfold execParserReorderRelease
  refine .next ?_
  split
  · exact .refl _
  · exact orStall_keeps (.refl _) (parserRelease_keeps (.refl _) _ _ _) _

end Sys2Proof.Sound
end

section
/-! What the definitions of Machine/ExportQ.lean keep: the queue, the outputs, the free values, and soundness. -/

namespace Sys2Proof.Sound

open Sys2Proof.Machine Sys2Proof.Registers

theorem queueExport_keeps {s t : State} (h : Keeps s t) (r : ExpRecord) :
    Keeps s (t.queueExport r).1 := by
  unfold State.queueExport
  extract_lets put
  have hput : ∀ t1, Keeps s t1 → Keeps s (put t1) := fun _ ht1 => Keeps.mk_iff.2 ht1
  refine Keeps.iteFst (hput _ h) ?_
  split
  · rename_i e
    exact count_keeps (Keeps.fst e (takeCtrl_keeps h _ _)) _ _
  · rename_i e
    exact hput _ (Keeps.mk_iff.2 (Keeps.fst e (takeCtrl_keeps h _ _)))

theorem shrinkQueue_keeps {s t : State} (h : Keeps s t) :
    Keeps s t.shrinkQueue := by
  unfold State.shrinkQueue
  split
  · exact h
  · exact Keeps.ite h (freeCtrl_keeps (Keeps.mk_iff.2 h) _ _)

theorem endExport_keeps {s t : State} (h : Keeps s t) (handle size why : Nat) (im : List Nat) :
    Keeps s (t.endExport handle size why im).1 := by
  unfold State.endExport
  extract_lets src s1
  have hs1 : Keeps s s1 := Keeps.mk_iff.2 h
  exact Keeps.iteFst hs1 (queueExport_keeps hs1 _)

end Sys2Proof.Sound
end

section
/-! What the definitions of Machine/Shard.lean keep: the queue, the outputs, the free values, and soundness. -/

namespace Sys2Proof.Sound

open Sys2Proof.Machine Sys2Proof.Registers

theorem syncCache_keeps {s t : State} (h : Keeps s t) (shard : Nat) :
    Keeps s (t.syncCache shard) :=
  setF_keeps (setF_keeps h _ _ _ (by decide)) _ _ _ (by decide)

theorem setLine_keeps {s t : State} (h : Keeps s t) (k : Nat) (l : Line) :
    Keeps s (t.setLine k l) :=
  syncCache_keeps (Keeps.mk_iff.2 h) _

theorem delLine_keeps {s t : State} (h : Keeps s t) (k : Nat) :
    Keeps s (t.delLine k) :=
  syncCache_keeps (Keeps.mk_iff.2 h) _

theorem touchWay_keeps {s t : State} (h : Keeps s t) (k : Nat) :
    Keeps s (t.touchWay k) :=
  Keeps.mk_iff.2 h

theorem ageBitsSet_keeps {s t : State} (h : Keeps s t) (handle on off : Nat) :
    Keeps s (t.ageBitsSet handle on off) :=
  Keeps.mk_iff.2 h

theorem noteClosing_keeps {s t : State} (h : Keeps s t) (handle : Nat) (before after : List Nat) :
    Keeps s (t.noteClosing handle before after) :=
  Keeps.ite (ageBitsSet_keeps h _ _ _) h

theorem putWords_keeps {s t : State} (h : Keeps s t) (handle size : Nat) (ws : List Nat)
    (dirty : optParam Bool false) :
    Keeps s (t.putWords handle size ws dirty) := by
  unfold State.putWords
  extract_lets fix src
  have hfix : ∀ t1 kind part, Keeps s t1 → Keeps s (fix t1 kind part) := by
    refine fun t1 kind part ht1 => ?_
    unfold fix
    split
    · exact setLine_keeps ht1 _ _
    · exact ht1
  exact hfix _ _ _ (hfix _ _ _ (Keeps.mk_iff.2 h))

theorem putCached_keeps {s t : State} (h : Keeps s t) (handle : Nat) (ws : List Nat) :
    Keeps s (t.putCached handle ws) := by
  unfold State.putCached
  extract_lets fix
  have hfix : ∀ t1 kind part, Keeps s t1 → Keeps s (fix t1 kind part) := by
    refine fun t1 kind part ht1 => ?_
    unfold fix
    split
    · exact Keeps.ite ht1 (setLine_keeps ht1 _ _)
    · exact ht1
  exact hfix _ _ _ (hfix _ _ _ h)

theorem writeBack_keeps {s t : State} (h : Keeps s t) (l : Line) :
    Keeps s (t.writeBack l) := by
  unfold State.writeBack
  split
  · exact count_keeps (cleanse_keeps (Keeps.mk_iff.2 h) _ _) _ _
  · exact h

theorem noteTouch_keeps {s t : State} (h : Keeps s t) (l : Line) :
    Keeps s (t.noteTouch l) := by
  unfold State.noteTouch
  extract_lets k im pass
  refine Keeps.ite h ?_
  split
  · exact h
  · exact putWords_keeps (ageBitsSet_keeps h _ _ _) _ _ _ _

theorem evict_keeps {s t : State} (h : Keeps s t) (k : Nat) (l : Line) :
    Keeps s (t.evict k l) := by
  unfold State.evict
  extract_lets one other
  have hone : ∀ t1 e, Keeps s t1 → Keeps s (one t1 e) := fun _ _ ht1 => noteTouch_keeps
    (writeBack_keeps (delLine_keeps ht1 _) _) _
  refine Keeps.ite (delLine_keeps h _) ?_
  clear_value other
  split
  · exact Keeps.ite (hone _ _ (hone _ _ h)) (hone _ _ (hone _ _ h))
  · exact hone _ _ h

theorem freeWaysGo_keeps {s t : State} (h : Keeps s t) (shard set n a : Nat) :
    ∀ u, State.freeWays.go shard set n a t = some u → Keeps s u.1 := by
  induction a generalizing t with
  | zero =>
    intro u e
    unfold State.freeWays.go at e
    simp only [Option.ite_none_right_eq_some, Option.some.injEq] at e
    obtain ⟨_, rfl⟩ := e
    exact h
  | succ n ih =>
    intro u e
    unfold State.freeWays.go at e
    dsimp only at e
    split at e
    · cases e
      exact h
    · split at e
      · cases e
      · exact ih (evict_keeps h _ _) _ e

theorem freeWays_keeps {s t : State} (h : Keeps s t) (shard set n : Nat) :
    ∀ u, t.freeWays shard set n = some u → Keeps s u.1 :=
  freeWaysGo_keeps h _ _ _ _

theorem installRec_keeps {s t : State} (h : Keeps s t) (handle : Nat) :
    ∀ u, t.installRec handle = some u → Keeps s u := by
  intro u e
  unfold State.installRec at e
  split at e
  · cases e
    exact h
  · cases e
  · dsimp only at e
    split at e
    · cases e
    · rename_i e1
      have h1 := freeWays_keeps h _ _ _ _ e1
      split at e
      · cases e
        exact setLine_keeps (touchWay_keeps (setLine_keeps h1 _ _) _) _ _
      · cases e
        exact touchWay_keeps (setLine_keeps h1 _ _) _

theorem installLink_keeps {s t : State} (h : Keeps s t) (shard handle dir : Nat) (key : List Nat) :
    ∀ u, t.installLink shard handle dir key = some u → Keeps s u := by
  intro u e
  unfold State.installLink at e
  dsimp only at e
  split at e
  · cases e
    exact h
  · split at e
    · cases e
    · rename_i e1
      cases e
      exact touchWay_keeps (setLine_keeps (freeWays_keeps h _ _ _ _ e1) _ _) _

theorem dropLines_keeps {s t : State} (h : Keeps s t) (handle : Nat) :
    Keeps s (t.dropLines handle) :=
  Keeps.foldl _ (fun _ _ ht1 => delLine_keeps ht1 _) h

theorem syncStash_keeps {s t : State} (h : Keeps s t) (shard : Nat) :
    Keeps s (t.syncStash shard) :=
  setF_keeps h _ _ _ (by decide)

theorem clearSlot_keeps {s t : State} (h : Keeps s t) (shard : Nat) (f : Found) :
    Keeps s (t.clearSlot shard f) :=
  Keeps.ite (syncStash_keeps (Keeps.mk_iff.2 h) _) (Keeps.mk_iff.2 h)

theorem relocate_keeps {s t : State} (h : Keeps s t) (shard : Nat) (path : List (Nat × Nat)) :
    Keeps s (t.relocate shard path) :=
  count_keeps (Keeps.mk_iff.2 h) _ _

theorem notifyLoss_keeps {s t : State} (h : Keeps s t) (pay : List Nat) :
    Keeps s (t.notifyLoss pay) := by
  unfold State.notifyLoss
  split
  · exact notify_keeps h _ _ _ _ _
  · exact Keeps.mk_iff.2 h

theorem declareLoss_keeps {s t : State} (h : Keeps s t) (region shard location n tag : Nat) :
    Keeps s (t.declareLoss region shard location n tag) := by
  unfold State.declareLoss
  extract_lets pay s1
  have hs1 : Keeps s s1 := logLoss_keeps (notifyLoss_keeps h _) _ _ _
  exact Keeps.ite hs1 (setF_keeps (setF_keeps (setF_keeps hs1 _ _ _ (by decide)) _ _ _ (by decide)) _ _ _ (by decide))

theorem emptyBucket_keeps {s t : State} (h : Keeps s t) (shard : Nat) (gen : Bool) (b : Nat) :
    Keeps s (t.emptyBucket shard gen b) := by
  unfold State.emptyBucket
  extract_lets lost src s1
  have hs1 : Keeps s s1 := Keeps.mk_iff.2 h
  exact declareLoss_keeps (setF_keeps (cleanse_keeps hs1 _ _) _ _ _ (by decide)) _ _ _ _ _

theorem mendBucket_keeps {s t : State} (h : Keeps s t) (shard : Nat) (b : Bool × Nat) :
    Keeps s (t.mendBucket shard b) :=
  Keeps.ite (emptyBucket_keeps h _ _ _) h

theorem makeRoomFull_keeps {s t : State} (h : Keeps s t) (shard : Nat) :
    Keeps s (State.makeRoom.full shard t).1 :=
  setF_keeps (count_keeps h _ _) _ _ _ (by decide)

theorem makeRoomGo_keeps {s t : State} (h : Keeps s t) (shard : Nat) (gen : Bool) (locked : TxLock → Bool)
    (stashTaken a a1 a2 : Nat) :
    Keeps s (State.makeRoom.go shard gen locked stashTaken a a1 a2 t).1 := by
  induction a generalizing t a1 a2 with
  | zero =>
    rw [State.makeRoom.go]
    exact makeRoomFull_keeps h _
  | succ n ih =>
    rw [State.makeRoom.go]
    split
    · exact Keeps.iteFst h h
    · split
      · extract_lets bad
        refine Keeps.iteFst (ih (Keeps.foldl _ (fun u x hu => ?_) h) _ _) ?_
        · split
          exact mendBucket_keeps hu _ _
        · split
          · exact relocate_keeps h _ _
          · exact h
      · exact Keeps.iteFst h (makeRoomFull_keeps h _)

theorem makeRoom_keeps {s t : State} (h : Keeps s t) (shard : Nat) (gen : Bool) (sig : Nat) (locked : TxLock → Bool)
    (stashTaken : Nat) :
    Keeps s (t.makeRoom shard gen sig locked stashTaken).1 := by
  unfold State.makeRoom
  refine Keeps.iteFst (makeRoomFull_keeps h _) ?_
  split
  exact makeRoomGo_keeps (mendBucket_keeps (mendBucket_keeps h _ _) _ _) _ _ _ _ _ _ _

theorem putSlot_keeps {s t : State} (h : Keeps s t) (shard : Nat) (gen : Bool) (e : Slot)
    (stashOnly : optParam Bool false) :
    Keeps s (t.putSlot shard gen e stashOnly) := by
  unfold State.putSlot
  split
  split
  · exact Keeps.mk_iff.2 h
  · split
    · exact setF_keeps (count_keeps (syncStash_keeps (Keeps.mk_iff.2 h) _) _ _) _ _ _ (by decide)
    · exact h

theorem unstash_keeps {s t : State} (h : Keeps s t) (shard : Nat) (f : Found) :
    Keeps s (t.unstash shard f) := by
  unfold State.unstash
  extract_lets b src
  refine Keeps.ite h ?_
  split
  · exact h
  · exact syncStash_keeps (Keeps.mk_iff.2 h) _

theorem answerLine_keeps {s t : State} (h : Keeps s t) (k : Nat) (l : Line) (pkt dir : Nat) :
    Keeps s (t.answerLine k l pkt dir).1 := by
  unfold State.answerLine
  extract_lets s1
  have hs1 : Keeps s s1 := touchWay_keeps (setLine_keeps h _ _) _
  exact Keeps.iteFst h (sendAnswer_keeps hs1 _ _)

theorem sendHop_keeps {s t : State} (h : Keeps s t) (shard pkt pipe : Nat) (key : List Nat) (handle dir : Nat)
    (set : Option Nat) :
    Keeps s (t.sendHop shard pkt pipe key handle dir set) :=
  count_keeps (Keeps.mk_iff.2 h) _ _

theorem countLive_keeps {s t : State} (h : Keeps s t) (handle profile : Nat) (up : Bool) :
    Keeps s (t.countLive handle profile up) := by
  unfold State.countLive
  extract_lets n m s1 src
  have hs1 : Keeps s s1 := setF_keeps h _ _ _ (by decide)
  exact Keeps.mk_iff.2 hs1

theorem retireHandle_keeps {s t : State} (hk : Keeps s t) (h profile : Nat) :
    Keeps s (t.retireHandle h profile) := by
  unfold State.retireHandle
  extract_lets k s1 src s2
  have hs1 : Keeps s s1 := countLive_keeps (dropLines_keeps hk _) _ _ _
  have hs2 : Keeps s s2 := Keeps.mk_iff.2 hs1
  exact Keeps.ite hk (declareLoss_keeps (setF_keeps (count_keeps hs2 _ _) _ _ _ (by decide)) _ _ _ _ _)

theorem loseKey_keeps {s t : State} (h : Keeps s t) (key : List Nat) :
    Keeps s (t.loseKey key) :=
  Keeps.ite h (Keeps.mk_iff.2 h)

theorem retireRec_keeps {s t : State} (h : Keeps s t) (shard : Nat) (f : Found) (key : List Nat) :
    Keeps s (t.retireRec shard f key) :=
  retireHandle_keeps (loseKey_keeps (unstash_keeps (clearSlot_keeps h _ _) _ _) _) _ _

theorem retireMet_keeps {s t : State} (hk : Keeps s t) (h : Nat) :
    Keeps s (t.retireMet h) :=
  ageBitsSet_keeps (retireHandle_keeps (Keeps.foldl _ (fun _ _ ht1 => unstash_keeps (clearSlot_keeps ht1 _ _) _ _)
    hk) _ _) _ _ _

end Sys2Proof.Sound
end

section
/-! What the definitions of Machine/Nat.lean keep: the queue, the outputs, the free values, and soundness. -/

namespace Sys2Proof.Sound

open Sys2Proof.Machine Sys2Proof.Registers

theorem setNatBit_keeps {s t : State} (h : Keeps s t) (key bit : Nat) (on : Bool) :
    Keeps s (t.setNatBit key bit on) :=
  Keeps.mk_iff.2 h

theorem holdPort_keeps {s t : State} (h : Keeps s t) (shard key bit : Nat) :
    Keeps s (t.holdPort shard key bit) := by
  unfold State.holdPort
  extract_lets l new src
  clear_value l
  split
  · extract_lets t1
    have ht1 : Keeps s t1 := Keeps.mk_iff.2 h
    exact Keeps.ite (count_keeps (setNatBit_keeps ht1 _ _ _) _ _) (Keeps.mk_iff.2 h)
  · exact Keeps.mk_iff.2 h

theorem execNatHoldRelease_keeps (shard : Nat) (s : State) :
    NextKeeps s (execNatHoldRelease shard s) := by
  unfold execNatHoldRelease
  refine .next ?_
  split
  · refine Keeps.ite (.refl _) ?_
    split
    · exact countTx_keeps (.refl _) _ _
    · exact countTx_keeps (setNatBit_keeps (Keeps.mk_iff.2 (.refl _)) _ _ _) _ _
  · exact .refl _

theorem putPool_keeps {s t : State} (h : Keeps s t) (pool : Nat) (p : NatPool) :
    Keeps s (t.putPool pool p) :=
  Keeps.mk_iff.2 h

theorem execNatPoolSet_keeps (h : CmdHdr) (pool insideBase insideShift subCount outsideBase addrCount portLo
    blockSize m prefix64 len64 : Nat) (s : State) :
    NextKeeps s (execNatPoolSet h pool insideBase insideShift subCount outsideBase addrCount portLo blockSize m
      prefix64 len64 s) :=
  .next (cmd_keeps (.refl _) _ _ _ _ _ (fun _ hs1 => Keeps.iteFst hs1 (putPool_keeps hs1 _ _)))

theorem execNatPoolStatus_keeps (h : CmdHdr) (pool : Nat) (sub : Option Nat) (s : State) :
    NextKeeps s (execNatPoolStatus h pool sub s) := by
  unfold execNatPoolStatus
  refine .next (cmd_keeps (.refl _) _ _ _ _ _ (fun s1 hs1 => ?_))
  split
  exact hs1

theorem execNatHoldConfig_keeps (h : CmdHdr) (seconds : Nat) (s : State) :
    NextKeeps s (execNatHoldConfig h seconds s) :=
  .next (cmd_keeps (.refl _) _ _ _ _ _ (fun _ hs1 => Keeps.mk_iff.2 hs1))

end Sys2Proof.Sound
end

section
/-! What the definitions of Machine/Txn.lean keep: the queue, the outputs, the free values, and soundness. -/

namespace Sys2Proof.Sound

open Sys2Proof.Machine Sys2Proof.Registers

theorem markRestarts_keeps {s t : State} (h : Keeps s t) (key : List Nat) :
    Keeps s (t.markRestarts key) :=
  Keeps.mk_iff.2 h

theorem recall_keeps {s t : State} (h : Keeps s t) (handle : Nat) (key : List Nat) :
    Keeps s (t.recall handle key) := by
  unfold State.recall
  extract_lets owner home named back src s1 q busy fresh lead mine behind s2
  have hs1 : Keeps s s1 := mqDrop_keeps (Keeps.mk_iff.2 h) _ _
  have hs2 : Keeps s s2 := setMq_keeps hs1 _ _
  exact Keeps.ite h (Keeps.foldl _ (fun _ _ ht1 => dropPkt_keeps (count_keeps (setF_keeps ht1 _ _ _ (by decide)) _ _)
    _) hs2)

theorem unlinkRec_keeps {s t : State} (h : Keeps s t) (handle : Nat) (r : FlowRec) :
    Keeps s (t.unlinkRec handle r) := by
  unfold State.unlinkRec
  extract_lets im s1 s2
  have hs1 : Keeps s s1 := ageBitsSet_keeps (countLive_keeps (dropLines_keeps h _) _ _ _) _ _ _
  have hs2 : Keeps s s2 := by
    unfold s2
    split
    · exact holdPort_keeps hs1 _ _ _
    · exact hs1
  exact Keeps.foldl _ (fun _ _ ht1 => markRestarts_keeps (recall_keeps ht1 _ _) _) hs2

theorem freeRec_keeps {s t : State} (h : Keeps s t) (handle left : Nat) (r : FlowRec) :
    Keeps s (t.freeRec handle left r) :=
  Keeps.ite (freeHandle_keeps (Keeps.mk_iff.2 h) _) (Keeps.mk_iff.2 h)

theorem removeRec_keeps {s t : State} (h : Keeps s t) (handle n why : Nat) :
    Keeps s (t.removeRec handle n why) := by
  unfold State.removeRec
  split
  · exact h
  · extract_lets im
    split
    rename_i e
    exact freeRec_keeps (Keeps.fst e (endExport_keeps (unlinkRec_keeps h _ _) _ _ _ _)) _ _ _

theorem loseRec_keeps {s t : State} (h : Keeps s t) (handle : Nat) :
    Keeps s (t.loseRec handle) := by
  unfold State.loseRec
  split
  · exact h
  · extract_lets im clear keys n
    have hclear : ∀ t1 key, Keeps s t1 → Keeps s (clear t1 key) := by
      refine fun t1 key ht1 => Keeps.foldl _ (fun u f hu => ?_) ht1
      exact unstash_keeps (clearSlot_keeps hu _ _) _ _
    exact Keeps.ite h (freeRec_keeps (unlinkRec_keeps (loseKey_keeps (Keeps.foldl _ (fun _ _ hu => hclear _ _ hu) h)
      _) _ _) _ _ _)

theorem ruleReplace_keeps {s t : State} (h : Keeps s t) (epoch : Nat) (e : RuleEntry) :
    Keeps s (t.ruleReplace epoch e) := by
  unfold State.ruleReplace
  split
  · exact mendCls_keeps (setEm_keeps h _) _ _
  · exact h

theorem applyWrite_keeps {s t : State} (h : Keeps s t) (ws : List TxWrite) (a : TxWrite) :
    Keeps s (t.applyWrite ws a) := by
  unfold State.applyWrite
  split
  · exact putSlot_keeps h _ _ _ _
  · exact Keeps.foldl _ (fun _ _ ht1 => unstash_keeps (clearSlot_keeps ht1 _ _) _ _) h
  · exact countLive_keeps (cleanse_keeps (Keeps.mk_iff.2 h) _ _) _ _ _
  · split
    · exact h
    · exact noteClosing_keeps (putWords_keeps h _ _ _ _) _ _ _
  · split
    · exact h
    · exact noteClosing_keeps (putWords_keeps h _ _ _ _) _ _ _
  · exact removeRec_keeps h _ _ _
  · exact ageBitsSet_keeps h _ _ _
  · exact setNatBit_keeps h _ _ _
  · split
    · exact mendCls_keeps (setEm_keeps h _) _ _
    · exact h
  · split
    · extract_lets s1
      have hs1 : Keeps s s1 := mendNew_keeps (setEm_keeps h _) _ _ _
      exact Keeps.ite (stashUsed_keeps hs1) hs1
    · exact h
  · exact ruleReplace_keeps h _ _
  · exact mskSet_keeps h _ _ _
  · exact mskInvalidate_keeps h _ _
  · exact putCtr_keeps h _ _ (Nat.le_sub_one_of_lt (Nat.mod_lt _ (Nat.two_pow_pos 64)))

theorem bufferWrites_keeps {s t : State} (h : Keeps s t) (ws : List TxWrite) :
    Keeps s (t.bufferWrites ws) :=
  Keeps.foldl _ (fun _ _ ht1 => Keeps.mk_iff.2 ht1) h

theorem drainCommits_keeps {s t : State} (h : Keeps s t) (shard : Nat) :
    Keeps s (t.drainCommits shard) := by
  unfold State.drainCommits
  extract_lets n src src1
  have hsrc : Keeps s src := drawOne_keeps h
  exact Keeps.ite h (Keeps.mk_iff.2 hsrc)

theorem applyAll_keeps {s t : State} (h : Keeps s t) (ws : List TxWrite) (p : TxWrite → Bool) :
    Keeps s (t.applyAll ws p) :=
  bufferWrites_keeps (Keeps.foldl _ (fun _ _ ht1 => Keeps.foldl _ (fun _ _ hu => applyWrite_keeps hu _ _) ht1) h) _

theorem syncTx_keeps {s t : State} (h : Keeps s t) :
    Keeps s t.syncTx :=
  setF_keeps h _ _ _ (by decide)

theorem setTx_keeps {s u : State} (h : Keeps s u) (id : Nat) (t : Tx) :
    Keeps s (u.setTx id t) :=
  syncTx_keeps (Keeps.mk_iff.2 h)

theorem delTx_keeps {s t : State} (h : Keeps s t) (id : Nat) :
    Keeps s (t.delTx id) :=
  syncTx_keeps (Keeps.mk_iff.2 h)

theorem openTx_keeps {s u : State} (h : Keeps s u) (t : Tx) :
    Keeps s (u.openTx t).1 :=
  setTx_keeps (Keeps.mk_iff.2 h) _ _

theorem returnHandles_keeps {s t : State} (h : Keeps s t) (ws : List TxWrite) :
    Keeps s (t.returnHandles ws) := by
  unfold State.returnHandles
  refine Keeps.foldl _ (fun t1 w ht1 => ?_) h
  split
  · exact freeHandle_keeps ht1 _
  · exact ht1

theorem leaveRig_keeps {s t : State} (h : Keeps s t) (id : Nat) (p : Pkt) :
    Keeps s (t.leaveRig id p) := by
  unfold State.leaveRig
  extract_lets s1 rest src s2
  have hs1 : Keeps s s1 := by
    unfold s1
    split
    · exact setBit_keeps h _ _ _ _ (by decide)
    · exact h
  have hs2 : Keeps s s2 := Keeps.mk_iff.2 hs1
  split
  · exact Keeps.ite (endChain_keeps hs2 _ _) hs2
  · exact hs2

theorem failTrigger_keeps {s t : State} (h : Keeps s t) (pkt : Nat) (key : List Nat) :
    Keeps s (t.failTrigger pkt key) := by
  unfold State.failTrigger
  refine Keeps.ite (forgetProxy_keeps (sendProxy_keeps h _ _) _) ?_
  split
  · exact h
  · extract_lets mine src s1 src1 q
    have hs1 : Keeps s s1 := leaveRig_keeps h _ _
    exact Keeps.ite (overflow_keeps (Keeps.mk_iff.2 h) _ _) (Keeps.ite (storeHead_keeps (modPkt_keeps hs1 _ _) _)
      (dropPkt_keeps (modPkt_keeps hs1 _ _) _))

theorem endFailed_keeps {s t : State} (h : Keeps s t) (shard pkt : Nat) (key : List Nat) (answered : Bool) :
    Keeps s (t.endFailed shard pkt key answered) := by
  unfold State.endFailed
  extract_lets ids s1 s2
  have hs1 : Keeps s s1 := mqDrop_keeps h _ _
  have hs2 : Keeps s s2 := Keeps.ite (failTrigger_keeps hs1 _ _) (overflow_keeps hs1 _ _)
  exact Keeps.foldl _ (fun _ _ ht1 => overflow_keeps ht1 _ _) hs2

theorem failSetup_keeps {s t : State} (h : Keeps s t) (shard pkt : Nat) (key : List Nat) (answered : Bool) :
    Keeps s (t.failSetup shard pkt key answered) :=
  Keeps.ite (mqSet_keeps h _ _ _) (endFailed_keeps h _ _ _ _)

theorem answerTx_keeps {s u : State} (h : Keeps s u) (t : Tx) (code : Nat) :
    Keeps s (u.answerTx t code) := by
  unfold State.answerTx
  extract_lets s1
  have hs1 : Keeps s s1 := Keeps.ite (journal_keeps h _ _ _ _) h
  split
  · exact answer_keeps hs1 _ _ _ _
  · exact hs1

theorem tellAbort_keeps {s u : State} (h : Keeps s u) (id code : Nat) (t : Tx) :
    Keeps s (u.tellAbort id code t) := by
  unfold State.tellAbort
  extract_lets s1
  have hs1 : Keeps s s1 := Keeps.foldl _ (fun _ _ hu1 => sendTo_keeps hu1 _ _) h
  split
  · exact sendTo_keeps hs1 _ _
  · exact hs1

theorem txAbort_keeps {s t : State} (h : Keeps s t) (id code : Nat) :
    Keeps s (t.txAbort id code) := by
  unfold State.txAbort
  split
  · exact h
  · extract_lets s1 s2 again s3 s4
    have hs1 : Keeps s s1 := countTx_keeps h _ _
    have hs2 : Keeps s s2 := Keeps.ite (setF_keeps hs1 _ _ _ (by decide)) hs1
    have hs3 : Keeps s s3 := tellAbort_keeps (answerTx_keeps (returnHandles_keeps (delTx_keeps hs2 _) _) _ _) _ _ _
    have hs4 : Keeps s s4 := Keeps.ite (count_keeps hs3 _ _) (Keeps.ite (count_keeps hs3 _ _) hs3)
    refine Keeps.ite (setTx_keeps hs2 _ _) ?_
    split
    · exact failSetup_keeps hs4 _ _ _ _
    · exact hs4

theorem rejectFenced_keeps {s t : State} (h : Keeps s t) (id : Nat) :
    Keeps s (t.rejectFenced id) :=
  txAbort_keeps (count_keeps (setF_keeps (setF_keeps h _ _ _ (by decide)) _ _ _ (by decide)) _ _) _ _

theorem placeSlots_keeps {s t : State} (h : Keeps s t) (id : Nat) (ws a : List TxWrite) (a1 : List TxLock) :
    Keeps s (t.placeSlots id ws a a1).1 := by
  induction a generalizing t a1 with
  | nil =>
    rw [State.placeSlots]
    exact h
  | cons x rest ih =>
    unfold State.placeSlots
    split
    · rename_i e
      cases e
    · rename_i e
      cases e
      extract_lets key g bs s1 other
      have hs1 : Keeps s s1 := Keeps.foldl _ (fun _ _ ht1 => mendBucket_keeps ht1 _ _) h
      refine Keeps.iteFst hs1 ?_
      split
      · rename_i e
        exact Keeps.fst e (makeRoom_keeps hs1 _ _ _ _ _)
      · rename_i e
        exact Keeps.fst e (makeRoom_keeps hs1 _ _ _ _ _)
      · rename_i e
        exact ih (Keeps.fst e (makeRoom_keeps hs1 _ _ _ _ _)) _
      · rename_i e
        exact ih (Keeps.fst e (makeRoom_keeps hs1 _ _ _ _ _)) _
    · rename_i e
      cases e
      exact ih h _

theorem mendDeletes_keeps {s t : State} (h : Keeps s t) (ws : List TxWrite) :
    Keeps s (t.mendDeletes ws) := by
  unfold State.mendDeletes
  refine Keeps.foldl _ (fun t1 w ht1 => ?_) h
  split
  · exact Keeps.foldl _ (fun _ _ hu => mendBucket_keeps hu _ _) ht1
  · exact ht1

theorem prepareWith_keeps {s t : State} (h : Keeps s t) (fuel id : Nat) :
    Keeps s (t.prepareWith fuel id) := by
  induction fuel generalizing t with
  | zero =>
    rw [State.prepareWith]
    exact h
  | succ n ih =>
    unfold State.prepareWith
    split
    · exact h
    · exact h
    · rename_i e0 _
      cases e0
      extract_lets t1 wait s1 base c
      have hwait : ∀ u t2, Keeps s u → Keeps s (wait u t2) := fun _ _ hu => setTx_keeps hu _ _
      have hs1 : Keeps s s1 := Keeps.foldl _ (fun _ _ hu => drainCommits_keeps hu _) (mendDeletes_keeps h _)
      have hwound : ∀ (u : State) (ids : List Nat), Keeps s u →
          Keeps s (ids.foldl (fun v i => v.txAbort i eConflict) (u.setTx id t1)) := fun _ _ hu =>
        Keeps.foldl _ (fun _ _ hv => txAbort_keeps hv _ _) (setTx_keeps hu _ _)
      refine Keeps.ite h (Keeps.ite (rejectFenced_keeps h _) (Keeps.ite (Keeps.ite h (setTx_keeps h _ _))
        (Keeps.ite (hwait _ _ hs1) ?_)))
      split
      · exact txAbort_keeps hs1 _ _
      · exact hwait _ _ hs1
      · exact ih (hwound _ _ hs1)
      · refine Keeps.ite (txAbort_keeps hs1 _ _) ?_
        split
        · rename_i e
          exact txAbort_keeps (Keeps.fst e (placeSlots_keeps hs1 _ _ _ _)) _ _
        · rename_i u _ _ e
          have hu := Keeps.fst e (placeSlots_keeps hs1 _ _ _ _)
          split
          · exact Keeps.ite (hwait _ _ hu) (txAbort_keeps hu _ _)
          · exact ih (hwound _ _ hu)
          · exact hwait _ _ hu
        · rename_i e
          exact setTx_keeps (Keeps.fst e (placeSlots_keeps hs1 _ _ _ _)) _ _

theorem prepareTx_keeps {s t : State} (h : Keeps s t) (id : Nat) :
    Keeps s (t.prepareTx id) :=
  prepareWith_keeps h _ _

theorem commitPoint_keeps {s t : State} (h : Keeps s t) (id : Nat) :
    Keeps s (t.commitPoint id) := by
  unfold State.commitPoint
  split
  · exact h
  · extract_lets ws others s1
    have hs1 : Keeps s s1 := Keeps.foldl _ (fun _ _ hu => sendTo_keeps hu _ _) h
    exact Keeps.ite h (Keeps.ite (rejectFenced_keeps h _) (Keeps.ite (txAbort_keeps h _ _)
      (setTx_keeps (applyAll_keeps hs1 _ _) _ _)))

theorem applyAt_keeps {s t : State} (h : Keeps s t) (id shard : Nat) :
    Keeps s (t.applyAt id shard) := by
  unfold State.applyAt
  split
  · exact h
  · exact Keeps.ite h (setTx_keeps (applyAll_keeps h _ _) _ _)

theorem serveHop_keeps {s t : State} (h : Keeps s t) (shard : Nat) (e : MqEntry) (handle dir : Nat) :
    ∀ u, t.serveHop shard e handle dir = some u → Keeps s u.1 := by
  intro u eu
  unfold State.serveHop at eu
  split at eu
  · cases eu
  · split at eu
    · cases eu
    · split at eu
      · cases eu
        exact h
      · rename_i e1
        cases eu
        exact count_keeps (mqDrop_keeps (Keeps.fst e1 (answerLine_keeps h _ _ _ _)) _ _) _ _

theorem serveChainedGo_keeps {s t : State} (h : Keeps s t) (shard : Nat) (key : List Nat) (a : List MqEntry) :
    Keeps s (State.serveChained.go shard key a t) := by
  induction a generalizing t with
  | nil =>
    rw [State.serveChained.go]
    exact h
  | cons x rest ih =>
    rw [State.serveChained.go]
    split
    · split
      · exact mqSet_keeps h _ _ _
      · rename_i _ e
        have hu := serveHop_keeps h _ _ _ _ _ e
        exact Keeps.ite (ih hu) hu
    · split
      · exact mqSet_keeps h _ _ _
      · refine Keeps.ite (ih (sendHop_keeps (count_keeps (mqDrop_keeps h _ _) _ _) _ _ _ _ _ _ _)) ?_
        split
        · rename_i e
          have hfst := Keeps.fst e (answerLine_keeps h _ _ _ _)
          exact h
        · rename_i e
          exact ih (count_keeps (mqDrop_keeps (Keeps.fst e (answerLine_keeps h _ _ _ _)) _ _) _ _)

theorem serveChained_keeps {s t : State} (h : Keeps s t) (shard : Nat) (key : List Nat) :
    Keeps s (t.serveChained shard key) :=
  Keeps.ite h (serveChainedGo_keeps h _ _ _)

theorem setupDone_keeps {s t : State} (h : Keeps s t) (shard pkt handle : Nat) :
    Keeps s (t.setupDone shard pkt handle) := by
  unfold State.setupDone
  extract_lets key s0 src s1 s2
  have hs0 : Keeps s s0 := mqDrop_keeps h _ _
  have hs1 : Keeps s s1 := Keeps.mk_iff.2 hs0
  have hs2 : Keeps s s2 :=
    Keeps.ite hs1 (Keeps.ite (keeps_getD hs1 (installRec_keeps hs1 _))
        (keeps_getD hs1 (installLink_keeps hs1 _ _ _ _)))
  exact serveChained_keeps hs2 _ _

theorem sendAgeOut_keeps {s t : State} (h : Keeps s t) (shard handle : Nat) (r : FlowRec) (reason : Nat) :
    Keeps s (t.sendAgeOut shard handle r reason) :=
  notify_keeps h _ _ _ _ _

theorem ackAll_keeps {s t : State} (h : Keeps s t) (id : Nat) :
    Keeps s (t.ackAll id) := by
  unfold State.ackAll
  split
  · exact h
  · extract_lets code s0 s1
    have hs0 : Keeps s s0 := answerTx_keeps (delTx_keeps (countTx_keeps h _ _) _) _ _
    have hs1 : Keeps s s1 := by
      unfold s1
      split
      · exact sendTo_keeps hs0 _ _
      · exact hs0
    refine Keeps.ite h ?_
    split
    · exact setupDone_keeps hs1 _ _ _
    · exact mqSet_keeps hs1 _ _ _
    · exact hs1

theorem execTxCommitPoint_keeps (tx : Nat) (s : State) :
    NextKeeps s (execTxCommitPoint tx s) := by
  unfold execTxCommitPoint
  refine .next ?_
  split
  · exact .refl _
  · exact Keeps.ite (.refl _) (commitPoint_keeps (.refl _) _)

theorem execTxCommitReceipt_keeps (tx shard : Nat) (s : State) :
    NextKeeps s (execTxCommitReceipt tx shard s) :=
  .next (applyAt_keeps (.refl _) _ _)

theorem execTxAckAll_keeps (tx : Nat) (s : State) :
    NextKeeps s (execTxAckAll tx s) :=
  .next (ackAll_keeps (.refl _) _)

theorem execTxPrepareTimeout_keeps (tx : Nat) (s : State) :
    NextKeeps s (execTxPrepareTimeout tx s) := by
  unfold execTxPrepareTimeout
  refine .next ?_
  split
  · exact .refl _
  · exact Keeps.ite (.refl _) (txAbort_keeps (.refl _) _ _)

theorem execGenerationFence_keeps (core : Nat) (s : State) :
    NextKeeps s (execGenerationFence core s) :=
  .next (Keeps.ite (.refl _) (setFence_keeps (.refl _) _ _))

end Sys2Proof.Sound
end

section
/-! What the definitions of Machine/Setup.lean keep: the queue, the outputs, the free values, and soundness. -/

namespace Sys2Proof.Sound

open Sys2Proof.Machine Sys2Proof.Registers

theorem natFailed_keeps {s t : State} (h : Keeps s t) (shard pool : Nat) (exhausted : Bool) (sub : Nat) :
    Keeps s (t.natFailed shard pool exhausted sub) := by
  unfold State.natFailed
  extract_lets s1 due src
  have hs1 : Keeps s s1 := count_keeps h _ _
  exact Keeps.ite (raise_keeps (Keeps.mk_iff.2 hs1) _ _ _ _) hs1

theorem provisional_keeps {s t : State} (h : Keeps s t) (id : Nat) :
    Keeps s (t.provisional id) := by
  unfold State.provisional
  split
  · exact h
  · split
    · exact h
    · extract_lets h1
      refine Keeps.ite h ?_
      split
      exact sendAnswer_keeps (setTx_keeps h _ _) _ _

theorem rechoose_keeps {s u : State} (h : Keeps s u) (id : Nat) (t : Tx) :
    Keeps s (u.rechoose id t) := by
  unfold State.rechoose
  split
  · extract_lets key h1 size taken
    refine Keeps.ite h (Keeps.ite (Keeps.ite (txAbort_keeps h _ _) h) ?_)
    split
    · exact setTx_keeps h _ _
    · exact failSetup_keeps (natFailed_keeps (returnHandles_keeps (delTx_keeps h _) _) _ _ _ _) _ _ _ _
  · exact h

theorem fastSetup_keeps {s t : State} (h : Keeps s t) (shard : Nat) (e : MqEntry) (p : Pkt) :
    Keeps s (t.fastSetup shard e p) := by
  unfold State.fastSetup
  extract_lets key prof tmpl s0 ids
  have hs0 : Keeps s s0 := mqSet_keeps (count_keeps h _ _) _ _ _
  refine Keeps.ite (failSetup_keeps hs0 _ _ _ _) (Keeps.ite (Keeps.foldl _ (fun _ _ ht1 => dropPkt_keeps ht1 _)
    (count_keeps (mqDrop_keeps hs0 _ _) _ _)) ?_)
  split
  · rename_i e1
    exact failSetup_keeps (noHeap_keeps (Keeps.fst e1 (takeHandle_keeps hs0 _ _ _)) _) _ _ _ _
  · rename_i _ _ e1
    have hs1 := Keeps.fst e1 (takeHandle_keeps hs0 _ _ _)
    split
    · exact failSetup_keeps (natFailed_keeps (freeHandle_keeps hs1 _) _ _ _ _) _ _ _ _
    · extract_lets src
      split
      rename_i _ e2
      have hs3 := Keeps.fst e2 (openTx_keeps hs1 _)
      extract_lets s31
      have hs31 : Keeps s s31 := mqSet_keeps hs3 _ _ _
      exact provisional_keeps (prepareTx_keeps hs31 _) _

theorem askFirmware_keeps {s t : State} (h : Keeps s t) (shard pkt : Nat) (p : Pkt) :
    Keeps s (t.askFirmware shard pkt p) :=
  notify_keeps (mqSet_keeps h _ _ _) _ _ _ _ _

theorem badTrigger_keeps {s t : State} (h : Keeps s t) (shard pkt : Nat) (key : List Nat) :
    Keeps s (t.badTrigger shard pkt key) :=
  serveChained_keeps (count_keeps (mqDrop_keeps h _ _) _ _) _ _

theorem badSetup_keeps {s t : State} (h : Keeps s t) (shard pkt : Nat) (key : List Nat) :
    Keeps s (t.badSetup shard pkt key) := by
  unfold State.badSetup
  split
  · exact h
  · exact badTrigger_keeps (returnHandles_keeps (delTx_keeps (countTx_keeps h _ _) _) _) _ _ _

theorem tellFrameEnd_keeps {s t : State} (h : Keeps s t) (pkt : Nat) (p : Pkt) :
    Keeps s (t.tellFrameEnd pkt p) := by
  unfold State.tellFrameEnd
  split
  · exact Keeps.ite (sendTo_keeps h _ _) h
  · exact h

theorem setupFrameEnd_keeps {s t : State} (h : Keeps s t) (pkt : Nat) (p : Pkt) :
    Keeps s (t.setupFrameEnd pkt p) := by
  unfold State.setupFrameEnd
  split
  · exact h
  · split
    · exact tellFrameEnd_keeps h _ _
    · exact Keeps.ite (badTrigger_keeps h _ _ _) (askFirmware_keeps h _ _ _)
    · exact Keeps.ite (badSetup_keeps h _ _ _) h
    · exact Keeps.ite h (Keeps.ite (badTrigger_keeps h _ _ _) (endFailed_keeps h _ _ _ _))
    · exact h

theorem fullMiss_keeps {s t : State} (h : Keeps s t) (shard : Nat) (e : MqEntry) :
    Keeps s (t.fullMiss shard e) := by
  unfold State.fullMiss
  extract_lets s0 ep s1
  have hs0 : Keeps s s0 := count_keeps h _ _
  have hs1 : Keeps s s1 := mqSet_keeps (count_keeps hs0 _ _) _ _ _
  split
  · exact serveChained_keeps (mqDrop_keeps hs0 _ _) _ _
  · extract_lets member
    refine Keeps.ite (overflowAll_keeps (setF_keeps (count_keeps hs0 _ _) _ _ _ (by decide)) _ _ _)
      (Keeps.ite (serveChained_keeps (sendAnswer_keeps (Keeps.ite (count_keeps (mqDrop_keeps hs0 _ _) _ _)
      (mqDrop_keeps hs0 _ _)) _ _) _ _) ?_)
    split
    · exact fastSetup_keeps hs0 _ _ _
    · exact Keeps.ite hs1 (setupFrameEnd_keeps hs1 _ _)
    · exact overflowAll_keeps (count_keeps hs0 _ _) _ _ _

theorem takeLost_keeps {s t : State} (h : Keeps s t) (key : List Nat) :
    Keeps s (t.takeLost key) :=
  Keeps.ite (Keeps.mk_iff.2 h) h

theorem commitSetup_keeps {s t : State} (h : Keeps s t) (id : Nat) :
    Keeps s (t.commitSetup id) := by
  unfold State.commitSetup
  split
  · exact h
  · split
    · extract_lets key ws s1 added away
      have hs1 : Keeps s s1 := takeLost_keeps h _
      refine Keeps.ite h (Keeps.ite (txAbort_keeps (setF_keeps (count_keeps hs1 _ _) _ _ _ (by decide)) _ _) ?_)
      split
      · rename_i e
        exact commitPoint_keeps (setTx_keeps (Keeps.fst e (placeSlots_keeps hs1 _ _ _ _)) _ _) _
      · rename_i e
        exact txAbort_keeps (Keeps.fst e (placeSlots_keeps hs1 _ _ _ _)) _ _
      · rename_i e
        exact txAbort_keeps (Keeps.fst e (placeSlots_keeps hs1 _ _ _ _)) _ _
    · exact h

theorem setupUpdate_keeps {s t : State} (h : Keeps s t) (pkt : Nat) (u : Update) :
    Keeps s (t.setupUpdate pkt u) := by
  unfold State.setupUpdate
  split
  · split
    · exact h
    · exact Keeps.ite (badTrigger_keeps h _ _ _) (endFailed_keeps h _ _ _ _)
  · exact Keeps.ite (badSetup_keeps h _ _ _) (Keeps.ite (txAbort_keeps h _ _)
      (commitSetup_keeps (setTx_keeps h _ _) _))

theorem execTxPrepare_keeps (tx : Nat) (s : State) :
    NextKeeps s (execTxPrepare tx s) := by
  unfold execTxPrepare
  refine .next ?_
  split
  · exact .refl _
  · exact Keeps.ite (.refl _) (commitSetup_keeps (provisional_keeps
      (prepareTx_keeps (rechoose_keeps (.refl _) _ _) _) _) _)

theorem insertWrites_keeps {s t : State} (h : Keeps s t) (n : FlowNew) :
    Keeps s (t.insertWrites n).1 := by
  unfold State.insertWrites
  extract_lets key prof want
  split
  · rename_i e
    exact Keeps.fst e (takeHandle_keeps h _ _ _)
  · rename_i e
    exact Keeps.fst e (takeHandle_keeps h _ _ _)

theorem openFirmware_keeps {s t : State} (h : Keeps s t) (source : Nat) (ws : List TxWrite) (f : Tx → Tx) :
    Keeps s (t.openFirmware source ws f).1 := by
  unfold State.openFirmware
  split
  rename_i s3 _ e
  have hs3 : Keeps s s3 := by
    refine Keeps.fst e ?_
    split
    · exact h
    · exact drawOne_keeps h
  exact openTx_keeps hs3 _

theorem execFwSetupVerdict_keeps (shard place verdict thread : Nat) (flow : Option FlowNew) (s : State) :
    NextKeeps s (execFwSetupVerdict shard place verdict thread flow s) := by
  unfold execFwSetupVerdict
  extract_lets e all
  refine .next ?_
  split
  · refine Keeps.ite (.refl _) ?_
    split
    · rename_i e1
      exact noHeap_keeps (Keeps.fst e1 (insertWrites_keeps (.refl _) _)) _
    · rename_i e1
      exact openFirmware_keeps (Keeps.fst e1 (insertWrites_keeps (.refl _) _)) _ _ _
  · exact Keeps.elim (fun _ => Keeps.foldl _ (fun _ _ ht => dropPkt_keeps ht _) (mqDrop_keeps (.refl _) _ _))
      (.refl _)
  · exact Keeps.elim (fun _ => Keeps.foldl _ (fun _ _ ht => forwardStateless_keeps ht _ _)
      (mqDrop_keeps (.refl _) _ _)) (.refl _)
  · exact .refl _

theorem execFwSetupTimeout_keeps (shard place : Nat) (s : State) :
    NextKeeps s (execFwSetupTimeout shard place s) := by
  unfold execFwSetupTimeout
  refine .next ?_
  split
  · exact .refl _
  · exact Keeps.ite (.refl _) (overflowAll_keeps (count_keeps (.refl _) _ _) _ _ _)

end Sys2Proof.Sound
end

section
/-! What the definitions of Machine/Lookup.lean keep: the queue, the outputs, the free values, and soundness. -/

namespace Sys2Proof.Sound

open Sys2Proof.Machine Sys2Proof.Registers

theorem restartDrop_keeps {s t : State} (h : Keeps s t) (shard : Nat) (pkts : List Nat) :
    Keeps s (t.restartDrop shard pkts) :=
  Keeps.foldl _ (fun _ _ ht1 => Keeps.ite (count_keeps (dropPkt_keeps ht1 _) _ _) ht1) h

theorem restartTx_keeps {s t : State} (h : Keeps s t) (shard : Nat) (e : Nat × Tx) :
    Keeps s (t.restartTx shard e) :=
  Keeps.ite (setTx_keeps h _ _) (Keeps.ite h (Keeps.ite (Keeps.ite (declareLoss_keeps (setTx_keeps h _ _) _ _ _ _ _)
    h) (txAbort_keeps h _ _)))

theorem shardRestart_keeps {s t : State} (h : Keeps s t) (shard : Nat) :
    Keeps s (t.shardRestart shard) := by
  unfold State.shardRestart
  extract_lets failed src waiting s0 s1 s2 dirty src1 s3 s4
  have hs0 : Keeps s s0 := Keeps.mk_iff.2 h
  have hs1 : Keeps s s1 := restartDrop_keeps (setMq_keeps (raise_keeps hs0 _ _ _ _) _ _) _ _
  have hs2 : Keeps s s2 := Keeps.foldl _ (fun _ _ ht1 => restartTx_keeps ht1 _ _) hs1
  have hs3 : Keeps s s3 := declareLoss_keeps (syncCache_keeps (Keeps.mk_iff.2 hs2) _) _ _ _ _ _
  have hs4 : Keeps s s4 := Keeps.foldl _ (fun _ _ hu => loseRec_keeps hu _) hs3
  refine Keeps.ite (raise_keeps (endCondition_keeps (Keeps.mk_iff.2 h) _ _) _ _ _ _)
    (Keeps.foldl _ (fun t1 p ht1 => ?_) hs4)
  exact Keeps.ite ht1 (setList_keeps (setCache_keeps ht1 _ _ _) _ _ _)

theorem fstCapture_keeps {s t : State} (h : Keeps s t) (shard : Nat) (e : EccErr) :
    Keeps s (t.fstCapture shard e) :=
  Keeps.ite h (setF_keeps (setF_keeps (setF_keeps (setB_keeps (setF_keeps h _ _ _ (by decide)) _ _ _ (by decide)) _ _
    _ (by decide)) _ _ _ (by decide)) _ _ _ (by decide))

theorem loseLine_keeps {s t : State} (h : Keeps s t) (k : Nat) (l : Line) :
    Keeps s (t.loseLine k l) := by
  unfold State.loseLine
  extract_lets head other used
  refine Keeps.ite (delLine_keeps h _) ?_
  clear_value used
  split
  · exact setLine_keeps h _ _
  · exact Keeps.elim (fun e => delLine_keeps (delLine_keeps h _) _) (delLine_keeps h _)

theorem fstEcc_keeps {s t : State} (h : Keeps s t) (shard : Nat) (e : EccErr) :
    Keeps s (t.fstEcc shard e) := by
  unfold State.fstEcc
  extract_lets s1 k s2
  have hs1 : Keeps s s1 := fstCapture_keeps h _ _
  have hs2 : Keeps s s2 := setF_keeps hs1 _ _ _ (by decide)
  refine Keeps.ite (raise_keeps (setF_keeps hs1 _ _ _ (by decide)) _ _ _ _) (Keeps.ite (shardRestart_keeps hs2 _) ?_)
  split
  · exact Keeps.ite (shardRestart_keeps hs2 _) (raise_keeps (loseLine_keeps hs2 _ _) _ _ _ _)
  · exact raise_keeps hs2 _ _ _ _

theorem enqueue_keeps {s t : State} (h : Keeps s t) (shard : Nat) (r : LookReq) (target : Option (Nat × Nat)) :
    Keeps s (t.enqueue shard r target) := by
  unfold State.enqueue
  extract_lets q chain e s1
  have hs1 : Keeps s s1 := setF_keeps h _ _ _ (by decide)
  exact Keeps.ite (mqAdd_keeps (Keeps.ite h (count_keeps h _ _)) _ _)
    (Keeps.ite (dropPkt_keeps (count_keeps hs1 _ _) _) (overflow_keeps (count_keeps (count_keeps hs1 _ _) _ _) _ _))

theorem waitHit_keeps {s t back : State} (h : Keeps s t) (hback : Keeps s back) (shard : Nat) (r : LookReq)
    (target : Option (Nat × Nat)) :
    Keeps s (t.waitHit shard r target back) :=
  Keeps.ite (mqAdd_keeps h _ _) hback

theorem homeLookup_keeps {s t back : State} (h : Keeps s t) (hback : Keeps s back) (shard : Nat) (r : LookReq) :
    Keeps s (t.homeLookup shard r back) := by
  unfold State.homeLookup
  extract_lets s1
  have hs1 : Keeps s s1 := count_keeps h _ _
  refine Keeps.ite (enqueue_keeps hs1 _ _ _) ?_
  split
  · exact enqueue_keeps hs1 _ _ _
  · refine Keeps.ite (sendHop_keeps (count_keeps (touchWay_keeps hs1 _) _ _) _ _ _ _ _ _ _) ?_
    split
    · rename_i e
      exact count_keeps (Keeps.fst e (answerLine_keeps hs1 _ _ _ _)) _ _
    · rename_i e
      have hfst := Keeps.fst e (answerLine_keeps hs1 _ _ _ _)
      exact waitHit_keeps hs1 hback _ _ _

theorem execFlowLookupRequest_keeps (shard : Nat) (err : Option EccErr) (s : State) :
    NextKeeps s (execFlowLookupRequest shard err s) := by
  unfold execFlowLookupRequest
  extract_lets s0 src
  have hs0 : Keeps s s0 := Keeps.elim (fun e => fstEcc_keeps (.refl _) _ _) (.refl _)
  refine .next ?_
  split
  · exact hs0
  · extract_lets s1
    have hs1 : Keeps s s1 := Keeps.mk_iff.2 hs0
    exact Keeps.ite hs1 (Keeps.ite (restartDrop_keeps hs1 _ _) (homeLookup_keeps hs1 hs0 _ _))

theorem execRecordHop_keeps (shard : Nat) (s : State) :
    NextKeeps s (execRecordHop shard s) := by
  unfold execRecordHop
  refine .next ?_
  split
  · exact .refl _
  · extract_lets src s0 s1 busy
    have hs0 : Keeps s s0 := Keeps.mk_iff.2 (.refl _)
    have hs1 : Keeps s s1 := count_keeps hs0 _ _
    refine Keeps.ite hs0 (Keeps.ite (restartDrop_keeps hs0 _ _) ?_)
    split
    · exact hs1
    · split
      · exact overflow_keeps (rejectHandle_keeps hs1 _ _ _ _) _ _
      · split
        · exact enqueue_keeps hs1 _ _ _
        · refine Keeps.ite (enqueue_keeps hs1 _ _ _) ?_
          split
          · rename_i e
            exact count_keeps (Keeps.fst e (answerLine_keeps hs1 _ _ _ _)) _ _
          · rename_i e
            have hfst := Keeps.fst e (answerLine_keeps hs1 _ _ _ _)
            exact waitHit_keeps hs1 (.refl _) _ _ _

theorem execLinkFill_keeps (shard : Nat) (s : State) :
    NextKeeps s (execLinkFill shard s) := by
  unfold execLinkFill
  refine .next ?_
  split
  · exact .refl _
  · extract_lets src s1
    have hs1 : Keeps s s1 := Keeps.mk_iff.2 (.refl _)
    split
    · exact setLine_keeps hs1 _ _
    · exact hs1

theorem walkSlots_keeps {s t : State} (h : Keeps s t) (shard : Nat) (key : List Nat) (a : List Found) :
    Keeps s (t.walkSlots shard key a).1 := by
  induction a generalizing t with
  | nil =>
    rw [State.walkSlots]
    exact h
  | cons x rest ih =>
    rw [State.walkSlots]
    refine Keeps.iteFst h ?_
    split
    · exact ih (rejectHandle_keeps h _ _ _ _)
    · extract_lets us
      split
      · exact h
      · refine Keeps.iteFst (ih (retireRec_keeps h _ _ _)) ?_
        split
        · exact Keeps.iteFst h (ih h)
        · exact ih h

theorem walk_keeps {s t : State} (h : Keeps s t) (shard : Nat) (key : List Nat) :
    Keeps s (t.walk shard key).1 := by
  unfold State.walk
  extract_lets buckets s1
  have hs1 : Keeps s s1 := Keeps.foldl _ (fun _ _ ht1 => Keeps.ite (emptyBucket_keeps ht1 _ _ _) ht1) h
  refine Keeps.iteFst h ?_
  split
  · exact h
  · exact walkSlots_keeps hs1 _ _ _

theorem installAnswer_keeps {s t : State} (h : Keeps s t) (shard : Nat) (e : MqEntry) (handle dir : Nat) :
    Keeps s (t.installAnswer shard e handle dir) := by
  unfold State.installAnswer
  extract_lets wait
  have hwait : ∀ t1, Keeps s t1 → Keeps s (wait t1) := fun _ ht1 => mqSet_keeps ht1 _ _ _
  refine Keeps.ite ?_ ?_
  · split
    · exact hwait _ h
    · rename_i e1
      have hu := installLink_keeps h _ _ _ _ _ e1
      exact serveChained_keeps (sendHop_keeps (mqDrop_keeps hu _ _) _ _ _ _ _ _ _) _ _
  · split
    · exact hwait _ h
    · rename_i e1
      have hu := installRec_keeps h _ _ e1
      split
      · exact hwait _ h
      · split
        · rename_i e2
          have hfst := Keeps.fst e2 (answerLine_keeps hu _ _ _ _)
          exact hwait _ hu
        · rename_i e2
          have ht2 := Keeps.fst e2 (answerLine_keeps hu _ _ _ _)
          extract_lets home unknown src u1
          have hu1 : Keeps s u1 := Keeps.ite (Keeps.mk_iff.2 ht2) ht2
          exact serveChained_keeps (mqDrop_keeps hu1 _ _) _ _

theorem hopGone_keeps {s t : State} (h : Keeps s t) (e : MqEntry) (handle : Nat) :
    Keeps s (t.hopGone e handle) := by
  unfold State.hopGone
  extract_lets s1
  have hs1 : Keeps s s1 := by
    unfold s1
    split
    · exact Keeps.ite (delLine_keeps h _) h
    · exact h
  exact recall_keeps hs1 _ _

theorem hopReturn_keeps {s t : State} (h : Keeps s t) (shard : Nat) (e : MqEntry) (handle dir : Nat) :
    Keeps s (t.hopReturn shard e handle dir) := by
  unfold State.hopReturn
  split
  · exact hopGone_keeps h _ _
  · extract_lets us cached home t1
    have ht1 : Keeps s t1 := by
      unfold t1
      split
      · exact retireRec_keeps h _ _ _
      · exact h
    split
    · exact holdRequest_keeps h _ _
    · exact Keeps.ite (hopGone_keeps ht1 _ _) (Keeps.ite (installAnswer_keeps h _ _ _ _) (hopGone_keeps h _ _))

theorem missReads_keeps {s t : State} (h : Keeps s t) (shard place : Nat) :
    Keeps s (t.missReads shard place) := by
  unfold State.missReads
  split
  · exact h
  · refine Keeps.ite (serveChained_keeps (mqDrop_keeps h _ _) _ _) ?_
    split
    · exact hopReturn_keeps h _ _ _ _
    · split
      · rename_i e
        exact holdRequest_keeps (Keeps.fst e (walk_keeps h _ _)) _ _
      · rename_i e
        exact installAnswer_keeps (Keeps.fst e (walk_keeps h _ _)) _ _ _ _
      · rename_i e
        exact fullMiss_keeps (Keeps.fst e (walk_keeps h _ _)) _ _
      · rename_i _ _ e
        have ht1 := Keeps.fst e (walk_keeps h _ _)
        exact Keeps.ite (mqSet_keeps ht1 _ _ _) (installAnswer_keeps ht1 _ _ _ _)

theorem execMissReadReturn_keeps (shard place : Nat) (corrected : List (Nat × Nat)) (s : State) :
    NextKeeps s (execMissReadReturn shard place corrected s) :=
  .next (missReads_keeps (Keeps.foldl _ (fun _ _ ht => hbmCorrected_keeps ht _ _) (.refl _)) _ _)

theorem execInstallRetry_keeps (shard place : Nat) (s : State) :
    NextKeeps s (execInstallRetry shard place s) := by
  unfold execInstallRetry
  refine .next ?_
  split
  · exact .refl _
  · split
    · exact installAnswer_keeps (.refl _) _ _ _ _
    · exact .refl _

theorem chainAnswer_keeps {s t : State} (h : Keeps s t) (pipe : Nat) (a : Answer) :
    Keeps s (t.chainAnswer pipe a) := by
  unfold State.chainAnswer
  extract_lets k src
  split
  exact Keeps.mk_iff.2 h

theorem execLookupAnswer_keeps (pipe : Nat) (s : State) :
    NextKeeps s (execLookupAnswer pipe s) := by
  unfold execLookupAnswer
  refine .next ?_
  split
  · exact .refl _
  · extract_lets src s1
    have hs1 : Keeps s s1 := Keeps.mk_iff.2 (.refl _)
    split
    · exact hs1
    · exact pushUpdate_keeps hs1 _
    · exact Keeps.ite (.refl _) (bypass_keeps hs1 _ _)
    · exact Keeps.ite (.refl _) (enterWindow_keeps (chainAnswer_keeps (modPkt_keeps hs1 _ _) _ _) _ _)

end Sys2Proof.Sound
end

section
/-! What the definitions of Machine/Age.lean keep: the queue, the outputs, the free values, and soundness. -/

namespace Sys2Proof.Sound

open Sys2Proof.Machine Sys2Proof.Registers

theorem execRelocationClear_keeps (shard : Nat) (s : State) :
    NextKeeps s (execRelocationClear shard s) := by
  unfold execRelocationClear
  refine .next ?_
  split
  · exact .refl _
  · exact Keeps.mk_iff.2 (.refl _)

theorem rebuildSlots_keeps {s t : State} (h : Keeps s t) (shard : Nat) (newSeed : Bool) (a : List Slot) :
    ∀ u, t.rebuildSlots shard newSeed a = some u → Keeps s u := by
  induction a generalizing t with
  | nil =>
    intro u e
    cases e
    exact h
  | cons x rest ih =>
    intro u e
    rw [State.rebuildSlots] at e
    dsimp only at e
    split at e
    · exact ih h _ e
    · split at e
      · cases e
      · cases e
      · rename_i e1
        exact ih (putSlot_keeps (Keeps.fst e1 (makeRoom_keeps h _ _ _ _ _)) _ _ _ _) _ e
      · rename_i e1
        exact ih (Keeps.mk_iff.2 (Keeps.fst e1 (makeRoom_keeps h _ _ _ _ _))) _ e

theorem rebuildStash_keeps {s t : State} (h : Keeps s t) (shard : Nat) (r : Rebuild) :
    Keeps s (t.rebuildStash shard r) := by
  unfold State.rebuildStash
  extract_lets old olds one s1 src
  have hone : ∀ t1 e, Keeps s t1 → Keeps s (one t1 e) := by
    refine fun t1 e ht1 => ?_
    unfold one
    extract_lets src1 free kept
    have hfree : Keeps s free := syncStash_keeps (Keeps.mk_iff.2 ht1) _
    split
    · rename_i e1
      have hu := rebuildSlots_keeps hfree _ _ _ _ e1
      exact hu
    · exact Keeps.mk_iff.2 ht1
  have hs1 : Keeps s s1 := Keeps.foldl _ (fun _ _ hu => hone _ _ hu) h
  exact Keeps.mk_iff.2 hs1

theorem execRebuildBucket_keeps (shard : Nat) (s : State) :
    NextKeeps s (execRebuildBucket shard s) := by
  unfold execRebuildBucket
  refine .next ?_
  split
  · exact .refl _
  · extract_lets k old n s0 slots r'
    have hs0 : Keeps s s0 := Keeps.ite (emptyBucket_keeps (.refl _) _ _ _) (.refl _)
    refine Keeps.ite (.refl _) (Keeps.ite (rebuildStash_keeps (.refl _) _ _) (Keeps.ite (.refl _) ?_))
    split
    · exact .refl _
    · rename_i e
      have hu := rebuildSlots_keeps hs0 _ _ _ _ e
      extract_lets src t1
      have ht1 : Keeps s t1 := setF_keeps (Keeps.mk_iff.2 hu) _ _ _ (by decide)
      exact Keeps.ite (rebuildStash_keeps ht1 _ _) ht1

theorem rebuildFlip_keeps {s t : State} (h : Keeps s t) (shard : Nat) :
    Keeps s (t.rebuildFlip shard) := by
  unfold State.rebuildFlip
  extract_lets old base src s1
  have hs1 : Keeps s s1 := Keeps.mk_iff.2 h
  exact setF_keeps (setF_keeps (setF_keeps (setF_keeps (setF_keeps
    (setF_keeps (setB_keeps hs1 _ _ _ (by decide)) _ _ _ (by decide)) _ _ _ (by decide)) _ _ _ (by decide)) _ _ _
    (by decide)) _ _ _ (by decide)) _ _ _ (by decide)

theorem execRebuildComplete_keeps (s : State) :
    NextKeeps s (execRebuildComplete s) := by
  unfold execRebuildComplete
  extract_lets newSeed old src s0 s1 src1
  have hs0 : Keeps s s0 := Keeps.ite (.refl _) (Keeps.ite (Keeps.mk_iff.2 (.refl _)) (Keeps.mk_iff.2 (.refl _)))
  have hs1 : Keeps s s1 := Keeps.foldl _ (fun _ _ hu => rebuildFlip_keeps hu _) hs0
  exact .next (Keeps.ite (.refl _) (raise_keeps (Keeps.mk_iff.2 hs1) _ _ _ _))

theorem startPass_keeps {s t : State} (h : Keeps s t) (shard desc : Nat) :
    Keeps s (t.startPass shard desc) := by
  unfold State.startPass
  extract_lets k n reb sw src s1
  have hs1 : Keeps s s1 := Keeps.mk_iff.2 h
  exact setF_keeps (setF_keeps (setF_keeps hs1 _ _ _ (by decide)) _ _ _ (by decide)) _ _ _ (by decide)

theorem sweepOverrun_keeps {s t : State} (h : Keeps s t) (shard : Nat) :
    Keeps s (t.sweepOverrun shard) :=
  setF_keeps (count_keeps h _ _) _ _ _ (by decide)

theorem startSweep_keeps {s t : State} (h : Keeps s t) (shard desc : Nat) :
    Keeps s (t.startSweep shard desc) := by
  unfold State.startSweep
  extract_lets q src
  refine Keeps.ite h (Keeps.ite (sweepOverrun_keeps h _) ?_)
  split
  · exact startPass_keeps h _ _
  · exact Keeps.ite (sweepOverrun_keeps h _) (setBit_keeps (Keeps.mk_iff.2 h) _ _ _ _ (by decide))

theorem execAgeingPassStart_keeps (shard desc : Nat) (s : State) :
    NextKeeps s (execAgeingPassStart shard desc s) :=
  .next (startSweep_keeps (.refl _) _ _)

theorem endPass_keeps {s t : State} (h : Keeps s t) (shard : Nat) :
    Keeps s (t.endPass shard) := by
  unfold State.endPass
  extract_lets src s1 src1
  have hs1 : Keeps s s1 := setF_keeps (Keeps.mk_iff.2 h) _ _ _ (by decide)
  split
  · exact hs1
  · exact startPass_keeps (setBit_keeps (Keeps.mk_iff.2 hs1) _ _ _ _ (by decide)) _ _

theorem openRemoval_keeps {s t : State} (h : Keeps s t) (shard handle reason : Nat) (r : FlowRec) :
    Keeps s (t.openRemoval shard handle reason r) := by
  unfold State.openRemoval
  extract_lets im prof second home del0 del1 why endReason src t1
  split
  rename_i e
  exact prepareTx_keeps (Keeps.fst e (openTx_keeps h _)) _

theorem clearTouched_keeps {s t : State} (h : Keeps s t) (handle : Nat) :
    Keeps s (t.clearTouched handle) := by
  unfold State.clearTouched
  split
  · exact setLine_keeps h _ _
  · exact h

theorem restamp_keeps {s t : State} (h : Keeps s t) (handle : Nat) (r : FlowRec) :
    Keeps s (t.restamp handle r) :=
  putWords_keeps h _ _ _ _

theorem visitRec_keeps {s t : State} (h : Keeps s t) (shard : Nat) (sw : Sweep) (handle : Nat) (r : FlowRec) :
    Keeps s (t.visitRec shard sw handle r) := by
  unfold State.visitRec
  extract_lets im prof bits two tc remove
  have hremove : ∀ t1 reason, Keeps s t1 → Keeps s (remove t1 reason) := fun _ _ ht1 => Keeps.ite ht1
    (openRemoval_keeps (clearTouched_keeps ht1 _) _ _ _ _)
  refine Keeps.ite (Keeps.ite (restamp_keeps h _ _) (hremove _ _ (Keeps.ite (ageBitsSet_keeps h _ _ _) h)))
    (Keeps.ite (Keeps.ite (restamp_keeps h _ _) (Keeps.ite (hremove _ _ h) h))
    (Keeps.ite h (Keeps.ite (ageBitsSet_keeps h _ _ _) ?_)))
  split
  · exact Keeps.ite (setLine_keeps h _ _) (Keeps.ite h (hremove _ _ h))
  · exact Keeps.ite h (hremove _ _ h)

theorem rebuildBlock_keeps {s t : State} (h : Keeps s t) (shard block : Nat) :
    Keeps s (t.rebuildBlock shard block) := by
  unfold State.rebuildBlock
  extract_lets lo here named hs src s1 s2
  have hs1 : Keeps s s1 := Keeps.mk_iff.2 h
  have hs2 : Keeps s s2 := Keeps.foldl _ (fun _ _ ht1 => ageBitsSet_keeps ht1 _ _ _) hs1
  exact declareLoss_keeps (setF_keeps (cleanse_keeps hs2 _ _) _ _ _ (by decide)) _ _ _ _ _

theorem execAgeingBlockVisit_keeps (shard : Nat) (s : State) :
    NextKeeps s (execAgeingBlockVisit shard s) := by
  unfold execAgeingBlockVisit
  refine .next ?_
  split
  · exact .refl _
  · extract_lets s1 lo mask visit s2 src
    have hs1 : Keeps s s1 := Keeps.ite (rebuildBlock_keeps (.refl _) _ _) (.refl _)
    have hvisit : ∀ t e, Keeps s t → Keeps s (visit t e) := by
      refine fun t e ht => Keeps.ite ht ?_
      split
      · exact Keeps.ite (retireMet_keeps ht _) ht
      · exact Keeps.ite (retireMet_keeps ht _) (Keeps.ite ht (visitRec_keeps ht _ _ _ _))
    have hs2 : Keeps s s2 := Keeps.foldl _ (fun _ _ hu => hvisit _ _ hu) hs1
    exact Keeps.ite (.refl _) (Keeps.ite (.refl _) (Keeps.ite (endPass_keeps hs2 _) (Keeps.mk_iff.2 hs2)))

theorem execAgeRemovalCommit_keeps (shard : Nat) (s : State) :
    NextKeeps s (execAgeRemovalCommit shard s) := by
  unfold execAgeRemovalCommit
  refine .next ?_
  split
  · exact .refl _
  · split
    · exact .refl _
    · split
      · exact txAbort_keeps (.refl _) _ _
      · extract_lets s1
        have hs1 : Keeps s s1 := commitPoint_keeps (.refl _) _
        exact Keeps.ite (sendAgeOut_keeps (count_keeps hs1 _ _) _ _ _ _) hs1

end Sys2Proof.Sound
end

section
/-! What the definitions of Machine/FlowCmds.lean keep: the queue, the outputs, the free values, and soundness. -/

namespace Sys2Proof.Sound

open Sys2Proof.Machine Sys2Proof.Registers

theorem refFull_keeps {s t : State} (h : Keeps s t) (handle requester : Nat) :
    Keeps s (t.refFull handle requester) :=
  emit_keeps (setF_keeps (count_keeps h _ _) _ _ _ (by decide)) _

theorem refCtrl_keeps {s t : State} (h : Keeps s t) (handle requester : Nat) (add : Bool) :
    Keeps s (t.refCtrl handle requester add) := by
  unfold State.refCtrl
  split
  · exact rejectHandle_keeps h _ _ _ _
  · exact rejectHandle_keeps h _ _ _ _
  · exact Keeps.ite (refFull_keeps h _ _) (Keeps.ite (Keeps.mk_iff.2 h)
      (Keeps.ite (Keeps.mk_iff.2 h) (freeCtrl_keeps h _ _)))

theorem refHeap_keeps {s t : State} (h : Keeps s t) (handle requester : Nat) (add : Bool) :
    Keeps s (t.refHeap handle requester add) := by
  unfold State.refHeap
  split
  · exact rejectHandle_keeps h _ _ _ _
  · exact rejectHandle_keeps h _ _ _ _
  · exact Keeps.ite (refFull_keeps h _ _) (Keeps.ite (putWords_keeps h _ _ _ _)
      (Keeps.ite (rejectHandle_keeps h _ _ _ _) (Keeps.ite (putWords_keeps h _ _ _ _)
      (freeHandle_keeps (dropLines_keeps (Keeps.mk_iff.2 h) _) _))))

theorem execRefcountOp_keeps (ctrl : Bool) (handle requester : Nat) (add : Bool) (s : State) :
    NextKeeps s (execRefcountOp ctrl handle requester add s) :=
  .next (Keeps.ite (refCtrl_keeps (.refl _) _ _ _) (refHeap_keeps (.refl _) _ _ _))

theorem sendParts_keeps {s t : State} (h : Keeps s t) (id : Nat) (parts : List (Nat × List (List Nat))) :
    Keeps s (t.sendParts id parts) :=
  Keeps.foldl _ (fun _ _ ht1 => sendTo_keeps ht1 _ _) h

theorem spanCmd_keeps {s t : State} (hk : Keeps s t) (h : CmdHdr) (ds : List (List Nat)) :
    Keeps s (t.spanCmd h ds).1 := by
  unfold State.spanCmd
  extract_lets parts
  refine Keeps.iteFst hk ?_
  split
  rename_i e
  exact sendParts_keeps (Keeps.fst e (openFirmware_keeps (drawOne_keeps hk) _ _ _)) _ _

theorem execFlowInsert_keeps (h : CmdHdr) (flow : FlowNew) (s : State) :
    NextKeeps s (execFlowInsert h flow s) := by
  unfold execFlowInsert
  refine .next (cmdLater_keeps (.refl _) _ _ _ _ _ (fun s1 hs1 => ?_))
  extract_lets key home
  refine Keeps.iteFst (spanCmd_keeps hs1 _ _) (Keeps.iteFst hs1 ?_)
  split
  · rename_i e
    exact Keeps.fst e (insertWrites_keeps hs1 _)
  · rename_i _ _ e
    have hs11 := Keeps.fst e (insertWrites_keeps hs1 _)
    dsimp only
    exact openFirmware_keeps (drawOne_keeps hs11) _ _ _

theorem execFlowRead_keeps (h : CmdHdr) (byHandle : Bool) (handle : Nat) (key : List Nat) (s : State) :
    NextKeeps s (execFlowRead h byHandle handle key s) := by
  unfold execFlowRead
  extract_lets show_
  have hshow_ : ∀ t k, Keeps s t → Keeps s (show_ t k).1 := by
    refine fun t k ht => ?_
    unfold show_
    split
    · exact Keeps.iteFst ht ht
    · exact ht
  refine .next (cmd_keeps (.refl _) _ _ _ _ _ (fun s1 hs1 => Keeps.iteFst ?_ ?_))
  · split
    · dsimp only
      exact rejectHandle_keeps hs1 _ _ _ _
    · exact hshow_ _ _ hs1
  · split
    · exact hshow_ _ _ hs1
    · exact hs1

theorem execFlowModify_keeps (h : CmdHdr) (key : List Nat) (mask : Nat) (words : List Nat) (s : State) :
    NextKeeps s (execFlowModify h key mask words s) := by
  unfold execFlowModify
  refine .next (cmdLater_keeps (.refl _) _ _ _ _ _ (fun s1 hs1 => ?_))
  split
  · exact hs1
  · refine Keeps.iteFst hs1 ?_
    dsimp only
    exact openFirmware_keeps (drawOne_keeps hs1) _ _ _

theorem execFlowDelete_keeps (h : CmdHdr) (key : List Nat) (s : State) :
    NextKeeps s (execFlowDelete h key s) := by
  unfold execFlowDelete
  refine .next (cmdLater_keeps (.refl _) _ _ _ _ _ (fun s1 hs1 => Keeps.iteFst (spanCmd_keeps hs1 _ _) ?_))
  split
  · exact hs1
  · dsimp only
    exact openFirmware_keeps (drawOne_keeps hs1) _ _ _

theorem execFstRebuild_keeps (h : CmdHdr) (k : Nat) (newSeed : Bool) (s : State) :
    NextKeeps s (execFstRebuild h k newSeed s) := by
  unfold execFstRebuild
  refine .next (cmd_keeps (.refl _) _ _ _ _ _ (fun s1 hs1 => Keeps.iteFst hs1 ?_))
  extract_lets src src1 s0 r one
  have hsrc : Keeps s src := drawOne_keeps hs1
  have hs0 : Keeps s s0 := Keeps.ite hs1 (Keeps.ite (Keeps.mk_iff.2 hsrc) (Keeps.mk_iff.2 hsrc))
  have hone : ∀ t i, Keeps s t → Keeps s (one t i) := by
    refine fun t i ht => ?_
    unfold one
    extract_lets src2 u
    have hu : Keeps s u := Keeps.mk_iff.2 ht
    exact setF_keeps (setB_keeps (setF_keeps (setF_keeps hu _ _ _ (by decide)) _ _ _ (by decide)) _ _ _ (by decide))
      _ _ _ (by decide)
  exact Keeps.foldl _ (fun _ _ hu => hone _ _ hu) hs0

theorem execFstSweepConfig_keeps (h : CmdHdr) (desc mask : Nat) (s : State) :
    NextKeeps s (execFstSweepConfig h desc mask s) :=
  .next (cmd_keeps (.refl _) _ _ _ _ _ (fun _ hs1 => Keeps.mk_iff.2 hs1))

theorem execFstMqConfig_keeps (h : CmdHdr) (setupCap : Nat) (s : State) :
    NextKeeps s (execFstMqConfig h setupCap s) :=
  .next (cmd_keeps (.refl _) _ _ _ _ _ (fun _ hs1 => setAll_keeps hs1 _ _ _ (by decide)))

theorem execFstStatus_keeps (h : CmdHdr) (shard : Nat) (s : State) :
    NextKeeps s (execFstStatus h shard s) :=
  .next (cmd_keeps (.refl _) _ _ _ _ _ (fun _ hs1 => hs1))

theorem execSetupTemplateSet_keeps (h : CmdHdr) (index : Nat) (words : List Nat) (s : State) :
    NextKeeps s (execSetupTemplateSet h index words s) :=
  .next (cmd_keeps (.refl _) _ _ _ _ _ (fun _ hs1 => Keeps.mk_iff.2 hs1))

theorem execSetupFwConfig_keeps (h : CmdHdr) (timeout : Nat) (s : State) :
    NextKeeps s (execSetupFwConfig h timeout s) :=
  .next (cmd_keeps (.refl _) _ _ _ _ _ (fun _ hs1 => Keeps.mk_iff.2 hs1))

theorem execTxOpen_keeps (h : CmdHdr) (s : State) :
    NextKeeps s (execTxOpen h s) := by
  unfold execTxOpen
  refine .next (cmd_keeps (.refl _) _ _ _ _ _ (fun s1 hs1 => Keeps.iteFst hs1 ?_))
  exact Keeps.mk_iff.2 hs1

theorem execTxAdd_keeps (h : CmdHdr) (tx : Nat) (descs : List (List Nat)) (s : State) :
    NextKeeps s (execTxAdd h tx descs s) := by
  unfold execTxAdd
  refine .next (cmd_keeps (.refl _) _ _ _ _ _ (fun s1 hs1 => ?_))
  split
  · exact hs1
  · exact Keeps.iteFst hs1 (Keeps.mk_iff.2 hs1)

theorem expand_keeps {s t : State} (h : Keeps s t) (d : List Nat) :
    Keeps s (t.expand d).1 := by
  unfold State.expand
  extract_lets hi lo data n base mask cond table ep index g i
  split
  · refine Keeps.iteFst h ?_
    split
    · rename_i e
      exact Keeps.fst e (insertWrites_keeps h _)
    · rename_i e
      exact Keeps.fst e (insertWrites_keeps h _)
  · exact h
  · split
    · dsimp only
      exact rejectHandle_keeps h _ _ _ _
    · exact Keeps.iteFst h (Keeps.iteFst h h)
  · split
    · exact h
    · exact Keeps.iteFst h (Keeps.iteFst h h)
  · refine Keeps.iteFst h (Keeps.iteFst h ?_)
    split
    · exact Keeps.iteFst h h
    · exact h
  · exact Keeps.iteFst h h

theorem expandAll_keeps {s t : State} (h : Keeps s t) (a : List (List Nat)) (a1 : List TxWrite)
    (a2 : List (Nat × List WordWrite)) :
    Keeps s (t.expandAll a a1 a2).1 := by
  induction a generalizing t a1 a2 with
  | nil =>
    rw [State.expandAll]
    exact h
  | cons x rest ih =>
    rw [State.expandAll]
    split
    · rename_i e
      exact ih (Keeps.fst e (expand_keeps h _)) _ _
    · rename_i e
      exact returnHandles_keeps (Keeps.fst e (expand_keeps h _)) _

theorem execTxCommit_keeps (h : CmdHdr) (tx : Nat) (s : State) :
    NextKeeps s (execTxCommit h tx s) := by
  unfold execTxCommit
  refine .next (cmdLater_keeps (.refl _) _ _ _ _ _ (fun s1 hs1 => ?_))
  split
  · exact hs1
  · extract_lets src s11 parts
    have hs11 : Keeps s s11 := Keeps.mk_iff.2 hs1
    refine Keeps.iteFst hs11 ?_
    split
    · rename_i e
      exact Keeps.fst e (expandAll_keeps hs11 _ _ _)
    · rename_i _ _ e
      have hs2 := Keeps.fst e (expandAll_keeps hs11 _ _ _)
      split
      rename_i s3 _ e1
      have hs3 : Keeps s s3 := by
        refine Keeps.fst e1 ?_
        split
        · exact hs2
        · exact drawOne_keeps hs2
      extract_lets src1
      refine Keeps.iteFst (returnHandles_keeps hs3 _) ?_
      split
      rename_i e2
      exact sendParts_keeps (Keeps.fst e2 (openTx_keeps hs3 _)) _ _

theorem execTxAbort_keeps (h : CmdHdr) (tx : Nat) (s : State) :
    NextKeeps s (execTxAbort h tx s) := by
  unfold execTxAbort
  refine .next (cmd_keeps (.refl _) _ _ _ _ _ (fun s1 hs1 => ?_))
  split
  · exact hs1
  · exact Keeps.mk_iff.2 hs1

end Sys2Proof.Sound
end

section
/-! What the definitions of Machine/Micro.lean keep: the queue, the outputs, the free values, and soundness. -/

namespace Sys2Proof.Sound

open Sys2Proof.Machine Sys2Proof.Registers

theorem rigUpset_keeps {s t : State} (h : Keeps s t) (pipe : Nat) (u : RigUpset) :
    Keeps s (t.rigUpset pipe u) :=
  Keeps.mk_iff.2 h

theorem recWrites_keeps {s t : State} (h : Keeps s t) (p : Pkt) (r : RigRun) (ws : List WordWrite) :
    Keeps s (t.recWrites p r ws).1 := by
  unfold State.recWrites
  split
  · exact h
  · extract_lets allowed kept k s1 s2 one
    have hs1 : Keeps s s1 := Keeps.ite (setF_keeps (count_keeps h _ _) _ _ _ (by decide)) h
    have hs2 : Keeps s s2 := Keeps.ite (setF_keeps (count_keeps hs1 _ _) _ _ _ (by decide)) hs1
    exact hs2

theorem recWrite_keeps {s t : State} (h : Keeps s t) (p : Pkt) (r : RigRun) (i mask value : Nat) :
    Keeps s (t.recWrite p r i mask value).1 :=
  recWrites_keeps h _ _ _

theorem storeField_keeps {s t : State} (h : Keeps s t) (p : Pkt) (r : RigRun) (w : List Nat) (v : Nat) :
    Keeps s (t.storeField p r w v).1 := by
  unfold State.storeField
  extract_lets off m64 v64 i
  split
  · split
    · exact h
    · exact h
  · extract_lets part
    refine Keeps.iteFst h ?_
    split
    rename_i e
    exact Keeps.fst e (recWrites_keeps h _ _ _)

theorem alu_keeps {s t : State} (h : Keeps s t) (r : RigRun) (w : List Nat) :
    Keeps s (t.alu r w).1 := by
  unfold State.alu
  extract_lets a b op known
  split
  rename_i s3 _ e
  have hs3 : Keeps s s3 := by
    refine Keeps.fst e ?_
    split
    · exact h
    · exact drawOne_keeps h
  exact Keeps.iteFst hs3 (Keeps.ite hs3 (drawOne_keeps hs3))

theorem police_keeps {s t : State} (h : Keeps s t) (p : Pkt) (r : RigRun) (w : List Nat) :
    Keeps s (t.police p r w).1 := by
  unfold State.police
  extract_lets index full dt n put
  have hput : ∀ x e, Keeps s x.1 → Keeps s (put x e).1 := fun _ _ hx => recWrite_keeps hx _ _ _ _ _
  split
  · exact count_keeps (count_keeps h _ _) _ _
  · extract_lets tc tp
    split
    extract_lets s1
    have hs1 : Keeps s s1 := Keeps.ite (count_keeps h _ _) (Keeps.ite (count_keeps h _ _) h)
    split
    rename_i e
    exact Keeps.fst e (Keeps.foldlFst _ (fun _ _ hu => hput _ _ hu) hs1)

/-- The immediate stands as a variable: the kernel would else evaluate it. -/
theorem pktOp_keeps {s t : State} (h : Keeps s t) (p : Pkt) (r : RigRun) (w : List Nat) :
    Keeps s (t.pktOp p r w).1 := by
  unfold State.pktOp
  obtain ⟨imm, himm⟩ : ∃ n, uImm w = n := ⟨_, rfl⟩
  rw [himm]
  extract_lets b
  split
  case h_2 => exact count_keeps h _ _
  case h_10 =>
    split
    · exact h
    · split
      · exact h
      · exact h
  all_goals exact h

theorem cntOp_keeps {s t : State} (h : Keeps s t) (p : Pkt) (r : RigRun) (w : List Nat) :
    Keeps s (t.cntOp p r w).1 :=
  Keeps.iteFst (count_keeps h _ _) (Keeps.iteFst h h)

theorem execWord_keeps {s t : State} (h : Keeps s t) (p : Pkt) (r : RigRun) (w : List Nat) :
    Keeps s (t.execWord p r w).1 := by
  unfold State.execWord
  split
  · split
    rename_i e
    exact Keeps.fst e (alu_keeps h _ _)
  · exact h
  · split
    rename_i e
    exact Keeps.fst e (storeField_keeps h _ _ _ _)
  · exact h
  · exact h
  · exact h
  · exact h
  · split
    rename_i e
    exact Keeps.fst e (police_keeps h _ _ _)
  · split
    rename_i e
    exact Keeps.fst e (cntOp_keeps h _ _ _)
  · exact h
  · split
    rename_i e
    exact Keeps.fst e (pktOp_keeps h _ _ _)
  · exact h
  · exact h

theorem runFrom_keeps {s t : State} (h : Keeps s t) (a : Nat) (a1 : Pkt) (a2 : RigRun) :
    Keeps s (t.runFrom a a1 a2).1 := by
  induction a generalizing t a1 a2 with
  | zero =>
    rw [State.runFrom]
    exact h
  | succ n ih =>
    rw [State.runFrom]
    extract_lets w on r1
    refine Keeps.iteFst h (Keeps.iteFst h ?_)
    split
    rename_i e
    have hs2 := Keeps.fst e (Keeps.iteFst (execWord_keeps h _ _ _) h)
    exact Keeps.iteFst hs2 (Keeps.iteFst hs2 (Keeps.iteFst hs2 (Keeps.iteFst hs2 (ih hs2 _ _))))

end Sys2Proof.Sound
end

section
/-! What the definitions of Machine/Programs.lean keep: the queue, the outputs, the free values, and soundness. -/

namespace Sys2Proof.Sound

open Sys2Proof.Machine Sys2Proof.Registers

theorem progPut_keeps {s : State} {c : Prog} (h : Keeps s c.s) (word hi lo v : Nat) :
    Keeps s (c.put word hi lo v).s := by
  unfold Prog.put
  extract_lets w mask
  refine iteProg h ?_
  split
  rename_i e
  exact Keeps.fst e (recWrite_keeps h _ _ _ _ _)

theorem progCount_keeps {s : State} {c : Prog} (h : Keeps s c.s) (n : Nat) :
    Keeps s (c.count n).s :=
  count_keeps h _ _

theorem progDrop_keeps {s : State} {c : Prog} (h : Keeps s c.s) (n : Nat) :
    Keeps s (c.drop n).s := by
  unfold Prog.drop
  extract_lets src src1
  have hsrc : Keeps s src.s := progCount_keeps h _
  exact hsrc

theorem progCountFlow_keeps {s : State} {c : Prog} (h : Keeps s c.s) :
    Keeps s c.countFlow.s := by
  unfold Prog.countFlow
  split
  rename_i e
  exact Keeps.fst e (cntOp_keeps h _ _ _)

theorem progPoke_keeps {s : State} {c : Prog} (h : Keeps s c.s) (at_ : Nat) (bs : List Nat) :
    Keeps s (c.poke at_ bs).s :=
  h

theorem progFix_keeps {s : State} {c : Prog} (h : Keeps s c.s) (at_ : Nat) (udp4 : Bool) (old new : List Nat) :
    Keeps s (c.fix at_ udp4 old new).s :=
  iteProg h (progPoke_keeps h _ _)

theorem progRewrite4_keeps {s : State} {c : Prog} (h : Keeps s c.s) (src : Bool) (addr port : List Nat) :
    Keeps s (c.rewrite4 src addr port).s := by
  unfold Prog.rewrite4
  split
  · exact h
  · extract_lets ao oldA c1
    have hc1 : Keeps s c1.s := progPoke_keeps (progFix_keeps h _ _ _ _) _ _
    split
    · exact hc1
    · extract_lets po oldP c2
      have hc2 : Keeps s c2.s := iteProg hc1 (progFix_keeps hc1 _ _ _ _)
      exact iteProg hc1 (progPoke_keeps (progFix_keeps hc2 _ _ _ _) _ _)

theorem progTcpSet_keeps {s : State} {c : Prog} (h : Keeps s c.s) (code fin tclass : Nat) :
    Keeps s (c.tcpSet code fin tclass).s :=
  progPut_keeps (progPut_keeps (progPut_keeps h _ _ _ _) _ _ _ _) _ _ _ _

theorem progTcp_keeps {s : State} {c : Prog} (h : Keeps s c.s) :
    Keeps s c.tcp.1.s := by
  unfold Prog.tcp
  split
  · extract_lets flags w
    refine iteProgFst h (iteProgFst (iteProg (progTcpSet_keeps h _ _ _) (progTcpSet_keeps h _ _ _)) ?_)
    split
    · exact h
    · exact iteProgFst (progDrop_keeps h _) (progTcpSet_keeps (iteProg (progCount_keeps h _) h) _ _ _)
  · exact h

theorem progFilter_keeps {s : State} {c : Prog} (h : Keeps s c.s) (l3 : Nat) :
    Keeps s (c.filter l3).1.s := by
  unfold Prog.filter
  refine iteProgFst h ?_
  split
  extract_lets l i old c1
  have hc1 : Keeps s c1.s := iteProg h (progCount_keeps h _)
  exact iteProgFst h (iteProgFst (progDrop_keeps h _) (progPut_keeps (progPut_keeps hc1 _ _ _ _) _ _ _ _))

theorem progHairpin_keeps {s : State} {c : Prog} (h : Keeps s c.s) (tbl : List Nat) :
    Keeps s (c.hairpin tbl).s := by
  unfold Prog.hairpin
  extract_lets key c1 c2 src src1
  have hc1 : Keeps s c1.s := progRewrite4_keeps h _ _ _
  have hc2 : Keeps s c2.s := progRewrite4_keeps hc1 _ _ _
  have hsrc : Keeps s src.s := progCount_keeps hc2 _
  exact hsrc

theorem progTranslate_keeps {s : State} {c : Prog} (h : Keeps s c.s) (l3 : Nat) :
    Keeps s (c.translate l3).1.s := by
  unfold Prog.translate
  refine iteProgFst (progRewrite4_keeps h _ _ _) ?_
  split
  refine iteProgFst ?_ (progRewrite4_keeps h _ _ _)
  split
  · exact h
  · exact progHairpin_keeps h _
  · exact progDrop_keeps h _

theorem progNat44_keeps {s : State} {c : Prog} (h : Keeps s c.s) (withTcp : Bool) :
    Keeps s (c.nat44 withTcp).1.s := by
  unfold Prog.nat44
  refine iteProgFst (progDrop_keeps h _) ?_
  split
  rename_i _ e
  have hc2 := fstProg e (iteProgFst (progTcp_keeps h) h)
  refine iteProgFst hc2 ?_
  split
  · exact progCountFlow_keeps hc2
  · split
    rename_i _ e1
    have hc21 := fstProg e1 (progFilter_keeps hc2 _)
    exact iteProgFst hc21 (progTranslate_keeps (progCountFlow_keeps hc21) _)

theorem progSpliceAt_keeps {s : State} {c : Prog} (h : Keeps s c.s) (at_ : Nat) (n : Int) :
    Keeps s (c.spliceAt at_ n).s := by
  unfold Prog.spliceAt
  split
  · exact h
  · exact h

theorem progSetL3_keeps {s : State} {c : Prog} (h : Keeps s c.s) (l3 t : Nat) :
    Keeps s (c.setL3 l3 t).s :=
  h

theorem progTo4_keeps {s : State} {c : Prog} (h : Keeps s c.s) (l3 : Nat) :
    Keeps s (c.to4 l3).s := by
  unfold Prog.to4
  extract_lets h1 plen nh src dst proto tos hdr full c1 c2 l4 port t t' pseudo c3 ck c31
  have hc1 : Keeps s c1.s := progPoke_keeps (progPoke_keeps (progSpliceAt_keeps h _ _) _ _) _ _
  have hc2 : Keeps s c2.s := progSetL3_keeps hc1 _ _
  have hc3 : Keeps s c3.s := progFix_keeps hc2 _ _ _ _
  have hc31 : Keeps s c31.s := progFix_keeps hc2 _ _ _ _
  exact iteProg (progPoke_keeps (progPoke_keeps hc3 _ _) _ _) (iteProg (progPoke_keeps hc31 _ _)
    (iteProg (progPoke_keeps hc2 _ _) hc2))

theorem progTo6_keeps {s : State} {c : Prog} (h : Keeps s c.s) (l3 : Nat) :
    Keeps s (c.to6 l3).s := by
  unfold Prog.to6
  extract_lets h1 plen pr nh src dst tos hdr c1 c2 l4 port t t' pseudo c3 ck c31
  have hc1 : Keeps s c1.s := progPoke_keeps (progPoke_keeps (progSpliceAt_keeps h _ _) _ _) _ _
  have hc2 : Keeps s c2.s := progSetL3_keeps hc1 _ _
  have hc3 : Keeps s c3.s := progFix_keeps hc2 _ _ _ _
  have hc31 : Keeps s c31.s := progFix_keeps hc2 _ _ _ _
  exact iteProg (progPoke_keeps (progPoke_keeps hc3 _ _) _ _) (iteProg (progPoke_keeps hc31 _ _)
    (iteProg (progPoke_keeps hc2 _ _) hc2))

theorem progNat64_keeps {s : State} {c : Prog} (h : Keeps s c.s) :
    Keeps s c.nat64.s := by
  unfold Prog.nat64
  refine iteProg ?_ ?_
  · split
    · exact progCountFlow_keeps h
    · exact iteProg (progDrop_keeps h _) (progTo4_keeps (progCountFlow_keeps h) _)
  · split
    · exact progCountFlow_keeps h
    · exact iteProg (progDrop_keeps h _) (progTo6_keeps (progCountFlow_keeps h) _)

theorem progPin_keeps {s : State} {c : Prog} (h : Keeps s c.s) (b : Nat) :
    Keeps s (c.pin b).s :=
  progPut_keeps (progPut_keeps (progPut_keeps h _ _ _ _) _ _ _ _) _ _ _ _

theorem progProbe_keeps {s : State} {c : Prog} (h : Keeps s c.s) (base start a : Nat) (a1 : List (Bool × List Nat)) :
    Keeps s (c.probe base start a a1).1.s := by
  induction a1 generalizing a with
  | nil =>
    rw [Prog.probe]
    exact iteProgFst (progDrop_keeps h _) h
  | cons x rest ih =>
    obtain ⟨hit, tbl⟩ := x
    rw [Prog.probe]
    exact iteProgFst (progDrop_keeps h _) (iteProgFst (progPin_keeps h _) (ih _))

theorem progSelect_keeps {s : State} {c : Prog} (h : Keeps s c.s) :
    Keeps s c.select.1.s :=
  progProbe_keeps h _ _ _ _

theorem progBalance_keeps {s : State} {c : Prog} (h : Keeps s c.s) :
    Keeps s c.balance.1.s := by
  unfold Prog.balance
  split
  rename_i _ e
  have hc2 := fstProg e (progTcp_keeps h)
  extract_lets down
  refine iteProgFst hc2 (iteProgFst (progRewrite4_keeps (progCountFlow_keeps hc2) _ _ _) ?_)
  split
  rename_i _ e1
  have hc21 := fstProg e1 (iteProgFst (progSelect_keeps (iteProg (progCount_keeps hc2 _) hc2)) hc2)
  split
  · exact hc21
  · exact iteProgFst hc21 (progRewrite4_keeps (progCountFlow_keeps hc21) _ _ _)

theorem progPolicing_keeps {s : State} {c : Prog} (h : Keeps s c.s) :
    Keeps s c.policing.s := by
  unfold Prog.policing
  split
  rename_i _ e
  have hs1 := Keeps.fst e (police_keeps h _ _ _)
  extract_lets colour c1 src
  have hc1 : Keeps s c1.s := progCountFlow_keeps (progPut_keeps hs1 _ _ _ _)
  exact iteProg (progDrop_keeps hc1 _) hc1

theorem progFrerGen_keeps {s : State} {c : Prog} (h : Keeps s c.s) :
    Keeps s c.frerGen.s := by
  unfold Prog.frerGen
  extract_lets seq at_ c1 src
  have hc1 : Keeps s c1.s := progPoke_keeps (progSpliceAt_keeps (progCountFlow_keeps (progPut_keeps h _ _ _ _)) _ _)
    _ _
  exact iteProg hc1 hc1

/-- What the recovery finds stands as a variable: the kernel would else evaluate it. -/
theorem progFrerRcv_keeps {s : State} {c : Prog} (h : Keeps s c.s) :
    Keeps s c.frerRcv.s := by
  unfold Prog.frerRcv
  extract_lets +onlyGivenNames at_
  refine iteProg (progCountFlow_keeps h) ?_
  extract_lets seq im hist reset expired
  obtain ⟨found, hfound⟩ : ∃ r, frerRecover seq (bitsOf (wordAt im 45) 31 16) hist (bitOf (wordAt im 45) 15) expired
      = r :=
    ⟨_, rfl⟩
  rw [hfound]
  obtain ⟨last, hist1, take, v, n⟩ := found
  split
  extract_lets +onlyGivenNames c1 c2 c3 src c4
  have hc1 : Keeps s c1.s := elimProg (fun _ => progCount_keeps h _) h
  have hc2 : Keeps s c2.s := progPut_keeps (progPut_keeps (progPut_keeps hc1 _ _ _ _) _ _ _ _) _ _ _ _
  have hc4 : Keeps s c4.s := progCountFlow_keeps (progPut_keeps hc2 _ _ _ _)
  refine iteProg hc4 ?_
  extract_lets c5 src1
  have hc5 : Keeps s c5.s := iteProg (progSpliceAt_keeps hc4 _ _) hc4
  exact iteProg hc5 hc5

/-- The difference of the times stands as a variable: the kernel would else evaluate it. -/
theorem progRtt_keeps {s : State} {c : Prog} (h : Keeps s c.s) :
    Keeps s c.rtt.s := by
  unfold Prog.rtt
  generalize wrapDiff _ _ _ = d
  have hc1 : Keeps s (c.count 15).s := progCount_keeps h _
  have hput : ∀ u : Prog, Keeps s u.s → ∀ w v, Keeps s (u.put w 31 0 v).s := fun _ hu _ _ => progPut_keeps hu _ _ _ _
  exact iteProg (hput _ (iteProg (hput _ hc1 _ _) hc1) _ _) (iteProg (hput _ hc1 _ _) hc1)

theorem progTelemetry_keeps {s : State} {c : Prog} (h : Keeps s c.s) :
    Keeps s c.telemetry.s := by
  unfold Prog.telemetry
  split
  rename_i _ e
  have hc2 := fstProg e (progTcp_keeps h)
  split
  · extract_lets flags c21 synAck c3
    have hc21 : Keeps s c21.s := progPut_keeps (progCountFlow_keeps hc2) _ _ _ _
    have hc3 : Keeps s c3.s := iteProg (progPut_keeps hc21 _ _ _ _) (iteProg (progRtt_keeps hc21) hc21)
    exact iteProg (progCountFlow_keeps hc2) (iteProg (progPut_keeps hc3 _ _ _ _) hc3)
  · exact progCountFlow_keeps hc2

theorem progEntry_keeps {s : State} {c : Prog} (h : Keeps s c.s) (e : Nat) :
    Keeps s (c.entry e).1.s := by
  unfold Prog.entry
  split
  · split
    rename_i e
    have hc2 := fstProg e (progTcp_keeps h)
    exact iteProg hc2 (progCountFlow_keeps hc2)
  · exact progNat44_keeps h _
  · exact progNat44_keeps h _
  · exact progNat64_keeps h
  · exact progBalance_keeps h
  · exact progPolicing_keeps h
  · exact progFrerGen_keeps h
  · exact progFrerRcv_keeps h
  · exact progTelemetry_keeps h
  · exact progCountFlow_keeps h

theorem runStandard_keeps {s t : State} (h : Keeps s t) (p : Pkt) (r : RigRun) :
    Keeps s (t.runStandard p r).1 := by
  unfold State.runStandard
  split
  · rename_i _ _ e
    have hfst := fstProg e (progEntry_keeps h _)
    exact h
  · rename_i e
    have hc := fstProg e (progEntry_keeps h _)
    exact Keeps.ite hc (drawOne_keeps hc)

theorem runOn_keeps {s t : State} (h : Keeps s t) (p : Pkt) (r : RigRun) :
    Keeps s (t.runOn p r).1 := by
  unfold State.runOn
  refine Keeps.iteFst ?_ (runFrom_keeps h _ _ _)
  split
  · exact Keeps.iteFst (drawOne_keeps h) (runStandard_keeps (drawOne_keeps h) _ _)
  · exact runStandard_keeps h _ _

end Sys2Proof.Sound
end

section
/-! What the definitions of Machine/Rig.lean keep: the queue, the outputs, the free values, and soundness. -/

namespace Sys2Proof.Sound

open Sys2Proof.Machine Sys2Proof.Registers

theorem setChain_keeps {s t : State} (h : Keeps s t) (pipe handle : Nat) (im : List Nat) :
    Keeps s (t.setChain pipe handle im) :=
  Keeps.mk_iff.2 h

theorem sendUpdate_keeps {s t : State} (h : Keeps s t) (u : Update) :
    Keeps s (t.sendUpdate u) := by
  unfold State.sendUpdate
  extract_lets s1
  have hs1 : Keeps s s1 := pushUpdate_keeps h _
  split
  · refine Keeps.ite hs1 ?_
    split
    · exact Keeps.ite (endPkt_keeps (modPkt_keeps hs1 _ _) _ _) (failTrigger_keeps hs1 _ _)
    · exact hs1
  · exact hs1

theorem sendUpdates_keeps {s t : State} (h : Keeps s t) (us : List Update) :
    Keeps s (t.sendUpdates us) :=
  Keeps.foldl _ (fun _ _ hu => sendUpdate_keeps hu _) h

theorem freeRig_keeps {s t : State} (h : Keeps s t) (pipe rig : Nat) :
    Keeps s (t.freeRig pipe rig) :=
  setBit_keeps h _ _ _ _ (by decide)

theorem finishRun_keeps {s t : State} (h : Keeps s t) (id : Nat) (p : Pkt) (r : RigRun) :
    Keeps s (t.finishRun id p r) := by
  unfold State.finishRun
  extract_lets s1 q
  have hs1 : Keeps s s1 := count_keeps (freeRig_keeps h _ _) _ _
  split
  · exact Keeps.ite (dropPkt_keeps (modPkt_keeps hs1 _ _) _) (modPkt_keeps hs1 _ _)
  · extract_lets s2 u wait q1 q2 s3
    have hs2 : Keeps s s2 := setChain_keeps hs1 _ _ _
    have hs3 : Keeps s s3 := syncEpoch_keeps (sendUpdates_keeps (modPkt_keeps hs2 _ _) _) _
    exact Keeps.ite (dropPkt_keeps (modPkt_keeps hs2 _ _) _) (Keeps.ite (syncEpoch_keeps (modPkt_keeps hs2 _ _) _)
      (Keeps.ite (dropPkt_keeps hs3 _) hs3))

theorem machineCheck_keeps {s t : State} (h : Keeps s t) (pipe rig addr quarters : Nat) :
    Keeps s (t.machineCheck pipe rig addr quarters) := by
  unfold State.machineCheck
  extract_lets ids s1 s2 s3 src
  have hs1 : Keeps s s1 := Keeps.foldl _ (fun _ _ ht1 => count_keeps (dropPkt_keeps ht1 _) _ _) h
  have hs2 : Keeps s s2 := Keeps.ite hs1 (setF_keeps (setF_keeps
    (setF_keeps (setF_keeps hs1 _ _ _ (by decide)) _ _ _ (by decide)) _ _ _ (by decide)) _ _ _ (by decide))
  have hs3 : Keeps s s3 := setF_keeps (addF_keeps (setF_keeps hs2 _ _ _ (by decide)) _ _ _ (by decide)) _ _ _
    (by decide)
  exact raise_keeps (Keeps.mk_iff.2 hs3) _ _ _ _

theorem reloadGolden_keeps {s t : State} (h : Keeps s t) (pipe : Nat) :
    Keeps s (t.reloadGolden pipe) :=
  Keeps.mk_iff.2 h

theorem execRigRestartComplete_keeps (pipe : Nat) (goldenOk : Bool) (s : State) :
    NextKeeps s (execRigRestartComplete pipe goldenOk s) := by
  unfold execRigRestartComplete
  refine .next ?_
  split
  · exact .refl _
  · extract_lets t src src1
    have ht : Keeps s t := reloadGolden_keeps (.refl _) _
    exact Keeps.ite (.refl _) (Keeps.ite (endCondition_keeps (setF_keeps (Keeps.mk_iff.2 ht) _ _ _ (by decide)) _ _)
      (raise_keeps (endCondition_keeps (setF_keeps (Keeps.mk_iff.2 (.refl _)) _ _ _ (by decide)) _ _) _ _ _ _))

theorem settleRun_keeps {s : State} {x : State × Pkt × RigRun × RunEnd} (h : Keeps s x.1) (id : Nat) :
    Keeps s (settleRun id x) := by
  unfold settleRun
  split
  split
  · exact finishRun_keeps h _ _ _
  · exact modPkt_keeps h _ _
  · exact dropPkt_keeps (setF_keeps (count_keeps (count_keeps (freeRig_keeps h _ _) _ _) _ _) _ _ _ (by decide)) _
  · exact dropPkt_keeps (setF_keeps (count_keeps (count_keeps (freeRig_keeps h _ _) _ _) _ _) _ _ _ (by decide)) _
  · exact machineCheck_keeps h _ _ _ _

theorem runLength_keeps {s t : State} (h : Keeps s t) (p : Pkt) :
    Keeps s (t.runLength p).1 :=
  Keeps.iteFst (drawOne_keeps h) h

theorem startRun_keeps {s t : State} (h : Keeps s t) (id rig : Nat) (p : Pkt) :
    Keeps s (t.startRun id rig p) := by
  unfold State.startRun
  extract_lets pipe im rel
  split
  · exact count_keeps (count_keeps (sendUpdates_keeps (modPkt_keeps h _ _) _) _ _) _ _
  · split
    split
    rename_i _ e
    have hs3 := Keeps.fst e (runLength_keeps h _)
    extract_lets pc r0 src s2
    have hs2 : Keeps s s2 := Keeps.ite (count_keeps (Keeps.mk_iff.2 hs3) _ _) (count_keeps hs3 _ _)
    split
    rename_i _ e1
    have hs1 := Keeps.fst e1 (Keeps.iteFst (recWrite_keeps hs2 _ _ _ _ _) hs2)
    extract_lets r2 src1 src2 s4 q
    have hsrc1 : Keeps s src1 := setBit_keeps hs1 _ _ _ _ (by decide)
    have hs4 : Keeps s s4 := Keeps.mk_iff.2 hsrc1
    exact settleRun_keeps (runOn_keeps (modPkt_keeps hs4 _ _) _ _) _

theorem dispatch_keeps {s t : State} (h : Keeps s t) (pipe : Nat) :
    Keeps s (t.dispatch pipe) := by
  unfold State.dispatch
  extract_lets full src
  split
  · extract_lets s1
    have hs1 : Keeps s s1 := Keeps.mk_iff.2 h
    exact Keeps.ite (lateDrop_keeps hs1 _ _) (startRun_keeps hs1 _ _ _)
  · exact h

theorem execRigDispatch_keeps (pipe : Nat) (upset : Option RigUpset) (s : State) :
    NextKeeps s (execRigDispatch pipe upset s) :=
  .next (dispatch_keeps (Keeps.elim (fun _ => rigUpset_keeps (.refl _) _ _) (.refl _)) _)

theorem tableCall_keeps {s t : State} (h : Keeps s t) (p : Pkt) (kind table : Nat) (ws : List Nat) :
    ∀ u, t.tableCall p kind table ws = some u → Keeps s u.1 := by
  intro u e
  unfold State.tableCall at e
  split at e
  · split at e
    · cases e
      exact h
    · cases e
      exact setEm_keeps h _
  · cases e
    exact h
  · dsimp only at e
    split at e
    · cases e
      exact h
    · split at e
      · cases e
      · cases e
        exact h
  · dsimp only at e
    split at e
    · cases e
      exact h
    · cases e
      exact h

theorem resumeRun_keeps {s t : State} (h : Keeps s t) (id : Nat) (p : Pkt) (r : RigRun) :
    Keeps s (t.resumeRun id p r) :=
  Keeps.ite (settleRun_keeps h _) (Keeps.ite (settleRun_keeps h _) (settleRun_keeps (runOn_keeps h _ _) _))

theorem callReturn_keeps {s t : State} (h : Keeps s t) (pipe rig wait : Nat) :
    Keeps s (t.callReturn pipe rig wait) := by
  unfold State.callReturn
  split
  · exact h
  · split
    · exact h
    · refine Keeps.ite (dropPkt_keeps (count_keeps (count_keeps (freeRig_keeps h _ _) _ _) _ _) _) ?_
      split
      · exact h
      · rename_i _ _ e
        have hu := tableCall_keeps h _ _ _ _ _ e
        exact resumeRun_keeps (count_keeps hu _ _) _ _ _

theorem execTcallResult_keeps (pipe rig wait : Nat) (upset : Option RigUpset) (s : State) :
    NextKeeps s (execTcallResult pipe rig wait upset s) :=
  .next (callReturn_keeps (Keeps.elim (fun _ => rigUpset_keeps (.refl _) _ _) (.refl _)) _ _ _)

theorem lowerInflight_keeps {s t : State} (h : Keeps s t) (handle : Nat) :
    Keeps s (t.lowerInflight handle) := by
  unfold State.lowerInflight
  split
  · extract_lets s1 im
    have hs1 : Keeps s s1 := setLine_keeps h _ _
    exact Keeps.ite hs1 (Keeps.foldl _ (fun _ _ ht1 => serveChained_keeps ht1 _ _) hs1)
  · exact h

theorem applyUpdate_keeps {s t : State} (h : Keeps s t) (u : Update) :
    Keeps s (t.applyUpdate u) := by
  unfold State.applyUpdate
  split
  · exact h
  · exact noteClosing_keeps (putCached_keeps h _ _) _ _ _

theorem execUpdateFlit_keeps (shard : Nat) (s : State) :
    NextKeeps s (execUpdateFlit shard s) := by
  unfold execUpdateFlit
  refine .next ?_
  split
  · exact .refl _
  · extract_lets src s0 im waiter src1 s1 s2 src2
    have hs0 : Keeps s s0 := Keeps.mk_iff.2 (.refl _)
    have hs1 : Keeps s s1 := Keeps.ite hs0 (applyUpdate_keeps hs0 _)
    have hs2 : Keeps s s2 := Keeps.ite (endChain_keeps (lowerInflight_keeps hs1 _) _ _) hs1
    refine Keeps.ite (restartDrop_keeps (endChain_keeps hs0 _ _) _ _) ?_
    split
    · exact Keeps.foldl _ (fun _ _ hu => dropPkt_keeps hu _) (rejectHandle_keeps (endChain_keeps hs0 _ _) _ _ _ _)
    · refine Keeps.ite (setupUpdate_keeps (endChain_keeps hs0 _ _) _ _) ?_
      split
      · exact Keeps.mk_iff.2 hs0
      · exact Keeps.ite (Keeps.mk_iff.2 hs2) hs2

theorem acknowledge_keeps {s t : State} (h : Keeps s t) (id : Nat) (p : Pkt) :
    Keeps s (t.acknowledge id p) := by
  unfold State.acknowledge
  extract_lets s1
  have hs1 : Keeps s s1 := modPkt_keeps h _ _
  exact Keeps.ite (dropPkt_keeps hs1 _) hs1

theorem execTransitionAck_keeps (pipe : Nat) (s : State) :
    NextKeeps s (execTransitionAck pipe s) := by
  unfold execTransitionAck
  refine .next ?_
  split
  · exact .refl _
  · extract_lets src s1
    have hs1 : Keeps s s1 := Keeps.mk_iff.2 (.refl _)
    split
    · exact hs1
    · exact acknowledge_keeps hs1 _ _

theorem execReplayReply_keeps (pipe : Nat) (s : State) :
    NextKeeps s (execReplayReply pipe s) := by
  unfold execReplayReply
  refine .next ?_
  split
  · exact .refl _
  · extract_lets src s1 s2
    have hs1 : Keeps s s1 := Keeps.mk_iff.2 (.refl _)
    have hs2 : Keeps s s2 := setChain_keeps (modPkt_keeps hs1 _ _) _ _ _
    split
    · exact sendUpdates_keeps hs1 _
    · extract_lets before s3 src1
      have hs3 : Keeps s s3 := modPkt_keeps hs2 _ _
      exact Keeps.ite (dropPkt_keeps (setF_keeps (count_keeps hs2 _ _) _ _ _ (by decide)) _)
        (Keeps.ite (lateDrop_keeps hs2 _ _) (Keeps.mk_iff.2 hs3))

end Sys2Proof.Sound
end

section
/-! What the definitions of Machine/Admit.lean keep: the queue, the outputs, the free values, and soundness. -/

namespace Sys2Proof.Sound

open Sys2Proof.Machine Sys2Proof.Registers

theorem failedOver_keeps {s t : State} (h : Keeps s t) (pipe : Nat) (d : Dest) (n : NextHop) :
    Keeps s (t.failedOver pipe d n).1 := by
  unfold State.failedOver
  refine Keeps.iteFst h (Keeps.iteFst (count_keeps h _ _) ?_)
  split
  · exact h
  · exact Keeps.iteFst (setF_keeps (count_keeps h _ _) _ _ _ (by decide)) h

theorem viaNextHop_keeps {s t : State} (h : Keeps s t) (pipe nh c : Nat) :
    Keeps s (t.viaNextHop pipe nh c).1 := by
  unfold State.viaNextHop
  refine Keeps.iteFst (count_keeps h _ _) ?_
  split
  · exact h
  · exact failedOver_keeps h _ _ _

theorem viaMember_keeps {s t : State} (h : Keeps s t) (pipe : Nat) (d : Dest) (nh : Nat) :
    Keeps s (t.viaMember pipe d nh).1 := by
  unfold State.viaMember
  refine Keeps.iteFst (count_keeps h _ _) ?_
  split
  · exact h
  · exact failedOver_keeps h _ _ _

theorem members_keeps {s t : State} (h : Keeps s t) (p : Pkt) (g : ReplGroup) :
    Keeps s (t.members p g).1 := by
  unfold State.members
  refine Keeps.foldlFst _ (fun x m hx => ?_) h
  split
  refine Keeps.iteFst hx (Keeps.iteFst hx ?_)
  split
  rename_i e
  exact Keeps.fst e (viaMember_keeps hx _ _ _)

theorem rawDests_keeps {s t : State} (h : Keeps s t) (p : Pkt) :
    Keeps s (t.rawDests p).1 := by
  unfold State.rawDests
  split
  · split
    rename_i e
    exact Keeps.fst e (viaMember_keeps h _ _ _)
  · split
    · exact members_keeps h _ _
    · split
      · split
        rename_i e
        exact Keeps.fst e (viaNextHop_keeps h _ _ _)
      · refine Keeps.iteFst (count_keeps h _ _) ?_
        split
        · split
          rename_i e
          exact Keeps.fst e (viaNextHop_keeps h _ _ _)
        · exact h
      · exact h
      · exact h

theorem destsOf_keeps {s t : State} (h : Keeps s t) (p : Pkt) :
    Keeps s (t.destsOf p).1 := by
  unfold State.destsOf
  split
  rename_i e
  exact Keeps.fst e (rawDests_keeps h _)

theorem countRefused_keeps {s t : State} (h : Keeps s t) (pipe port : Nat) (r : Refused) :
    Keeps s (t.countRefused pipe port r) :=
  setF_keeps (count_keeps (count_keeps h _ _) _ _) _ _ _ (by decide)

theorem sendReq_keeps {s t : State} (h : Keeps s t) (pipe port c : Nat) :
    Keeps s (t.sendReq pipe port c) :=
  Keeps.mk_iff.2 h

theorem queueCopy_keeps {s t : State} (h : Keeps s t) (id : Nat) (p : Pkt) (d : Dest) (mirror : Option (Nat × Bool))
    (ct : Bool) :
    Keeps s (t.queueCopy id p d mirror ct) := by
  unfold State.queueCopy
  extract_lets s0 fresh c src s1 src1 s2
  have hs0 : Keeps s s0 := touchCredits_keeps h _
  have hs1 : Keeps s s1 := Keeps.mk_iff.2 hs0
  have hs2 : Keeps s s2 := Keeps.ite (Keeps.mk_iff.2 hs1) (Keeps.ite (sendReq_keeps hs1 _ _ _) hs1)
  exact touchCredits_keeps hs2 _

theorem accept_keeps {s t : State} (h : Keeps s t) (id : Nat) (d : Dest) (n : Nat) (multi first : Bool)
    (mirror : Option (Nat × Bool)) (ct : Bool) :
    Keeps s (t.accept id d n multi first mirror ct) := by
  unfold State.accept
  split
  · exact h
  · extract_lets s1
    have hs1 : Keeps s s1 := Keeps.ite (modPkt_keeps h _ _) h
    exact queueCopy_keeps hs1 _ _ _ _ _

theorem admitMember_keeps {s : State} {x : State × Tally} (h : Keeps s x.1) (id n : Nat) (multi : Bool) (d : Dest) :
    Keeps s (State.admitMember id n multi x d).1 := by
  unfold State.admitMember
  split
  split
  · exact h
  · refine Keeps.iteFst (count_keeps h _ _) (Keeps.iteFst (count_keeps h _ _) ?_)
    split
    · exact countRefused_keeps h _ _ _
    · exact accept_keeps h _ _ _ _ _ _ _

theorem mirrorLost_keeps {s t : State} (h : Keeps s t) (pipe n : Nat) :
    Keeps s (t.mirrorLost pipe n) :=
  setF_keeps (count_keeps h _ _) _ _ _ (by decide)

theorem admitMirror_keeps {s : State} {x : State × Tally} (h : Keeps s x.1) (id n : Nat) (multi : Bool)
    (m : Nat × Bool) :
    Keeps s (State.admitMirror id n multi x m).1 := by
  unfold State.admitMirror
  split
  split
  · extract_lets k d
    refine Keeps.iteFst h (Keeps.iteFst (mirrorLost_keeps h _ _)
      (Keeps.iteFst (mirrorLost_keeps (count_keeps h _ _) _ _) (Keeps.iteFst (mirrorLost_keeps h _ _) ?_)))
    split
    · exact mirrorLost_keeps (countRefused_keeps h _ _ _) _ _
    · exact count_keeps (accept_keeps h _ _ _ _ _ _ _) _ _
  · exact h

theorem egressRing_keeps {s t : State} (h : Keeps s t) (id m : Nat) :
    Keeps s (t.egressRing id m) := by
  unfold State.egressRing
  split
  · exact Keeps.ite h (ringCopy_keeps (countCopy_keeps h _ _) _ _)
  · exact h

theorem setPartial_keeps {s t : State} (h : Keeps s t) (id : Nat) (p : Pkt) :
    Keeps s (t.setPartial id p) := by
  unfold State.setPartial
  split
  · exact h
  · extract_lets u s1
    have hs1 : Keeps s s1 := Keeps.ite (modPkt_keeps h _ _) (sendUpdates_keeps h _)
    exact setF_keeps (count_keeps hs1 _ _) _ _ _ (by decide)

theorem redCount_keeps {s t : State} (h : Keeps s t) (p : Pkt) :
    Keeps s (t.redCount p) := by
  unfold State.redCount
  split
  · exact h
  · exact Keeps.ite h (Keeps.mk_iff.2 h)

theorem settleAdmitted_keeps {s t : State} (h : Keeps s t) (id n count : Nat) (multi : Bool) :
    Keeps s (t.settleAdmitted id n count multi) := by
  unfold State.settleAdmitted
  split
  · exact h
  · extract_lets refs extra s1 s2
    have hs1 : Keeps s s1 := modPkt_keeps h _ _
    have hs2 : Keeps s s2 := syncIqm_keeps (count_keeps (count_keeps hs1 _ _) _ _) _
    exact fcUpdate_keeps (Keeps.ite (count_keeps hs2 _ _) hs2) _

theorem admitTo_keeps {s t : State} (h : Keeps s t) (id : Nat) :
    Keeps s (t.admitTo id) := by
  unfold State.admitTo
  extract_lets s1
  have hs1 : Keeps s s1 := storeHead_keeps h _
  split
  · exact hs1
  · extract_lets multi n
    refine Keeps.ite hs1 ?_
    split
    rename_i _ e
    have ht1 := Keeps.fst e (destsOf_keeps hs1 _)
    extract_lets s11
    have hs11 : Keeps s s11 := Keeps.ite (mirrorLost_keeps ht1 _ _) ht1
    split
    rename_i _ e1
    have hs2 := Keeps.fst e1 (Keeps.foldlFst _ (fun _ _ hu => admitMember_keeps hu _ _ _ _) hs11)
    extract_lets eg sessions
    refine Keeps.ite (endPkt_keeps hs2 _ _) ?_
    split
    rename_i _ e2
    have hs3 := Keeps.fst e2 (Keeps.foldlFst _ (fun _ _ hu => admitMirror_keeps hu _ _ _ _) hs2)
    extract_lets s4 s5
    have hs4 : Keeps s s4 := Keeps.foldl _ (fun _ _ ht2 => egressRing_keeps ht2 _ _) hs3
    have hs5 : Keeps s s5 := Keeps.ite (setPartial_keeps hs4 _ _) hs4
    exact Keeps.ite (endPkt_keeps hs5 _ _) (settleAdmitted_keeps hs5 _ _ _ _)

theorem recirculate_keeps {s t : State} (h : Keeps s t) (id : Nat) (p : Pkt) (st : Nat) (noProg : Bool) :
    Keeps s (t.recirculate id p st noProg) := by
  unfold State.recirculate
  extract_lets pipe q src s1
  have hs1 : Keeps s s1 := Keeps.mk_iff.2 h
  exact Keeps.ite (endPkt_keeps (setF_keeps (count_keeps h _ _) _ _ _ (by decide)) _ _)
    (Keeps.ite (endPkt_keeps (setF_keeps (count_keeps h _ _) _ _ _ (by decide)) _ _)
    (count_keeps (modPkt_keeps hs1 _ _) _ _))

theorem lastPass_keeps {s t : State} (h : Keeps s t) (id : Nat) (p : Pkt) :
    Keeps s (t.lastPass id p) := by
  unfold State.lastPass
  extract_lets pipe p1 src s1 s2 src1
  have hs1 : Keeps s s1 := Keeps.mk_iff.2 h
  have hs2 : Keeps s s2 := makeRingCopies_keeps (syncEpoch_keeps (modPkt_keeps hs1 _ _) _) _
  exact Keeps.ite (endPkt_keeps hs2 _ _) (Keeps.ite (endPkt_keeps (count_keeps hs2 _ _) _ _)
    (Keeps.ite (endPkt_keeps (Keeps.mk_iff.2 hs2) _ _) (admitTo_keeps (redCount_keeps hs2 _) _)))

theorem execRigReorderRelease_keeps (pipe src : Nat) (s : State) :
    NextKeeps s (execRigReorderRelease pipe src s) := by
  unfold execRigReorderRelease
  refine .next ?_
  split
  · exact .refl _
  · refine Keeps.ite (.refl _) (Keeps.ite (Keeps.ite (.refl _) (modPkt_keeps (.refl _) _ _)) ?_)
    split
    · exact recirculate_keeps (.refl _) _ _ _ _
    · exact lastPass_keeps (.refl _) _ _

end Sys2Proof.Sound
end

section
/-! What the definitions of Machine/Fabric.lean keep: the queue, the outputs, the free values, and soundness. -/

namespace Sys2Proof.Sound

open Sys2Proof.Machine Sys2Proof.Registers

theorem ageDrop_keeps {s t : State} (h : Keeps s t) (cid : Nat) (c : Copy) :
    Keeps s (t.ageDrop cid c) :=
  loseCopy_keeps (setF_keeps (count_keeps (count_keeps (touchCredits_keeps h _) _ _) _ _) _ _ _ (by decide)) _

theorem dropExpired_keeps {s t : State} (h : Keeps s t) (a : Nat) (a1 : List (Nat × Copy)) :
    Keeps s (t.dropExpired a a1) := by
  induction a generalizing t a1 with
  | zero =>
    rw [State.dropExpired]
    exact h
  | succ n ih =>
    cases a1 with
    | nil =>
      rw [State.dropExpired]
      · exact h
      · omega
    | cons c rest =>
      rw [State.dropExpired]
      exact Keeps.ite (ih (ageDrop_keeps h _ _) _) h

theorem execHeadScan_keeps (pipe : Nat) (s : State) :
    NextKeeps s (execHeadScan pipe s) := by
  unfold execHeadScan
  extract_lets v src s1
  have hs1 : Keeps s s1 := Keeps.mk_iff.2 (.refl _)
  exact .next (Keeps.ite (dropExpired_keeps hs1 _ _) (.refl _))

theorem setDeficit_keeps {s t : State} (h : Keeps s t) (port c : Nat) (v : Int) :
    Keeps s (t.setDeficit port c v) :=
  Keeps.mk_iff.2 h

theorem execVoqReq_keeps (egress : Nat) (s : State) :
    NextKeeps s (execVoqReq egress s) := by
  unfold execVoqReq
  refine .next ?_
  split
  · exact .refl _
  · exact Keeps.mk_iff.2 (.refl _)

theorem execVoqEmpty_keeps (egress : Nat) (s : State) :
    NextKeeps s (execVoqEmpty egress s) := by
  unfold execVoqEmpty
  refine .next ?_
  split
  · exact .refl _
  · extract_lets src s1 d
    have hs1 : Keeps s s1 := Keeps.mk_iff.2 (.refl _)
    exact setDeficit_keeps hs1 _ _ _

theorem dwrrRound_keeps {s t : State} (h : Keeps s t) (port : Nat) (cs : List Nat) :
    Keeps s (t.dwrrRound port cs) :=
  Keeps.foldl _ (fun _ _ ht1 => setDeficit_keeps ht1 _ _ _) h

theorem dwrrNextClass_keeps {s t : State} (h : Keeps s t) (port : Nat) (cs : List Nat) (a : Nat) :
    Keeps s (t.dwrrNextClass port cs a).1 := by
  induction a generalizing t with
  | zero =>
    rw [State.dwrrNextClass]
    exact h
  | succ n ih =>
    rw [State.dwrrNextClass]
    split
    · exact h
    · exact ih (dwrrRound_keeps h _ _)

theorem grantClass_keeps {s t : State} (h : Keeps s t) (port : Nat) :
    Keeps s (t.grantClass port).1 := by
  unfold State.grantClass
  extract_lets cs sp
  split
  · exact h
  · refine Keeps.iteFst h ?_
    split
    · rename_i e
      exact Keeps.fst e (dwrrNextClass_keeps h _ _ _)
    · rename_i _ e
      have hs3 := Keeps.fst e (dwrrNextClass_keeps h _ _ _)
      extract_lets d s2 nxt src
      have hs2 : Keeps s s2 := setDeficit_keeps hs3 _ _ _
      exact Keeps.mk_iff.2 hs2

theorem execGrantIssue_keeps (port : Nat) (s : State) :
    NextKeeps s (execGrantIssue port s) := by
  unfold execGrantIssue
  extract_lets s0
  have hs0 : Keeps s s0 := examinePort_keeps (.refl _) _
  refine .next (Keeps.ite hs0 ?_)
  split
  · rename_i e
    exact Keeps.fst e (grantClass_keeps hs0 _)
  · rename_i _ e
    have hs3 := Keeps.fst e (grantClass_keeps hs0 _)
    extract_lets v from_ src
    split
    · exact hs3
    · exact Keeps.mk_iff.2 hs3

theorem iqmCapture_keeps {s t : State} (h : Keeps s t) (pipe : Nat) (e : EccErr) :
    Keeps s (t.iqmCapture pipe e) :=
  Keeps.ite h (setF_keeps (setF_keeps (setB_keeps (setF_keeps h _ _ _ (by decide)) _ _ _ (by decide)) _ _ _
    (by decide)) _ _ _ (by decide))

theorem fabCapture_keeps {s t : State} (h : Keeps s t) (input output : Nat) (double : Bool) :
    Keeps s (t.fabCapture input output double) :=
  Keeps.ite h (setF_keeps (setF_keeps (setB_keeps (setF_keeps h _ _ _ (by decide)) _ _ _ (by decide)) _ _ _
    (by decide)) _ _ _ (by decide))

theorem eccCopy_keeps {s t : State} (h : Keeps s t) (cid : Nat) :
    Keeps s (t.eccCopy cid) := by
  unfold State.eccCopy
  split
  · exact h
  · exact Keeps.ite (settleCredits_keeps (stompTx_keeps h _) _) (loseCopy_keeps (count_keeps h _ _) _)

theorem restartCopy_keeps {s t : State} (h : Keeps s t) (pipe : Nat) (e : Nat × Copy) :
    Keeps s (t.restartCopy pipe e) :=
  Keeps.ite h (Keeps.ite (loseCopy_keeps (count_keeps h _ _) _)
    (Keeps.ite h (Keeps.ite (settleCredits_keeps (stompTx_keeps h _) _) (loseCopy_keeps (count_keeps h _ _) _))))

theorem dropOrphans_keeps {s t : State} (h : Keeps s t) (pipe : Nat) :
    Keeps s (t.dropOrphans pipe) :=
  Keeps.foldl _ (fun _ _ ht1 => Keeps.ite (detachRx_keeps (Keeps.mk_iff.2 ht1) _) ht1) h

theorem qmRestartBegin_keeps {s t : State} (h : Keeps s t) (pipe : Nat) :
    Keeps s (t.qmRestartBegin pipe) := by
  unfold State.qmRestartBegin
  extract_lets s1 src s2
  have hs1 : Keeps s s1 := dropOrphans_keeps (Keeps.foldl _ (fun _ _ ht1 => restartCopy_keeps ht1 _ _) h) _
  have hs2 : Keeps s s2 := Keeps.mk_iff.2 hs1
  exact Keeps.ite h (raise_keeps (syncIqm_keeps (setF_keeps (setF_keeps hs2 _ _ _ (by decide)) _ _ _ (by decide)) _)
    _ _ _ _)

theorem execQmRestartComplete_keeps (pipe : Nat) (s : State) :
    NextKeeps s (execQmRestartComplete pipe s) :=
  .next (Keeps.ite (endCondition_keeps (setF_keeps (Keeps.mk_iff.2 (.refl _)) _ _ _ (by decide)) _ _) (.refl _))

theorem copyEcc_keeps {s t : State} (h : Keeps s t) (cid : Nat) (c : Copy) (e : EccErr) :
    Keeps s (t.copyEcc cid c e) := by
  unfold State.copyEcc
  extract_lets s1 s11 s2
  have hs1 : Keeps s s1 := fabCapture_keeps h _ _ _
  have hs11 : Keeps s s11 := iqmCapture_keeps h _ _
  have hs2 : Keeps s s2 := setF_keeps hs11 _ _ _ (by decide)
  exact Keeps.ite (Keeps.ite (eccCopy_keeps (raise_keeps (count_keeps (setF_keeps hs1 _ _ _ (by decide)) _ _) _ _ _
    _) _) (raise_keeps (setF_keeps hs1 _ _ _ (by decide)) _ _ _ _))
    (Keeps.ite (raise_keeps (setF_keeps hs11 _ _ _ (by decide)) _ _ _ _)
    (Keeps.ite (eccCopy_keeps (raise_keeps (modPkt_keeps hs2 _ _) _ _ _ _) _) (qmRestartBegin_keeps hs2 _)))

theorem modCopy_keeps {s t : State} (h : Keeps s t) (cid : Nat) (f : Copy → Copy) :
    Keeps s (t.modCopy cid f) :=
  Keeps.mk_iff.2 h

theorem sendCopy_keeps {s t : State} (h : Keeps s t) (cid : Nat) (c : Copy) (p : Pkt) :
    Keeps s (t.sendCopy cid c p) := by
  unfold State.sendCopy
  extract_lets k src s1 s2
  have hs1 : Keeps s s1 := Keeps.mk_iff.2 h
  have hs2 : Keeps s s2 := modCopy_keeps hs1 _ _
  exact releaseCells_keeps hs2 _ _

theorem sendVoqFrom_keeps {s t : State} (h : Keeps s t) (a : List (Nat × Copy)) (a1 : Option EccErr) :
    Keeps s (t.sendVoqFrom a a1) := by
  induction a generalizing t a1 with
  | nil =>
    rw [State.sendVoqFrom]
    exact h
  | cons x rest ih =>
    rw [State.sendVoqFrom]
    refine Keeps.ite h (Keeps.ite (ih (ageDrop_keeps h _ _) _) ?_)
    split
    · exact h
    · extract_lets s1
      have hs1 : Keeps s s1 := Keeps.elim (fun e => copyEcc_keeps h _ _ _) h
      exact Keeps.ite h (Keeps.ite (ih hs1 _) (Keeps.ite (ih (eccCopy_keeps hs1 _) _)
        (ih (sendCopy_keeps hs1 _ _ _) _)))

theorem sendVoq_keeps {s t : State} (h : Keeps s t) (pipe port c : Nat) (err : optParam (Option EccErr) none) :
    Keeps s (t.sendVoq pipe port c err) := by
  unfold State.sendVoq
  extract_lets s1
  have hs1 : Keeps s s1 := sendVoqFrom_keeps h _ _
  exact Keeps.ite (sendEmpty_keeps hs1 _ _ _) hs1

theorem execGrantArrival_keeps (pipe place : Nat) (err : Option EccErr) (s : State) :
    NextKeeps s (execGrantArrival pipe place err s) := by
  unfold execGrantArrival
  refine .next ?_
  split
  · exact .refl _
  · extract_lets src s1
    have hs1 : Keeps s s1 := Keeps.mk_iff.2 (.refl _)
    exact touchCredits_keeps (sendVoq_keeps (touchCredits_keeps hs1 _) _ _ _ _) _

theorem crossBridge_keeps {s t : State} (h : Keeps s t) (c : Copy) (p : Pkt) :
    Keeps s (t.crossBridge c p) := by
  unfold State.crossBridge
  split
  · exact h
  · split
    exact count_keeps (Keeps.mk_iff.2 h) _ _

theorem syncFab_keeps {s t : State} (h : Keeps s t) :
    Keeps s t.syncFab :=
  setF_keeps (setF_keeps (setF_keeps (setF_keeps h _ _ _ (by decide)) _ _ _ (by decide)) _ _ _ (by decide)) _ _ _
    (by decide)

theorem landCell_keeps {s t : State} (h : Keeps s t) (cid : Nat) (c : Copy) :
    Keeps s (t.landCell cid c) := by
  unfold State.landCell
  extract_lets s1 c1 s2 s3 s4 src
  have hs1 : Keeps s s1 := Keeps.elim (fun p => crossBridge_keeps h _ _) h
  have hs2 : Keeps s s2 := modCopy_keeps hs1 _ _
  have hs3 : Keeps s s3 := Keeps.ite (releaseCells_keeps hs2 _ _) hs2
  have hs4 : Keeps s s4 := modCopy_keeps hs3 _ _
  split
  · exact hs3
  · exact Keeps.ite (Keeps.mk_iff.2 hs4) hs3

theorem execCellLanding_keeps (egress place : Nat) (err : Option EccErr) (s : State) :
    NextKeeps s (execCellLanding egress place err s) := by
  unfold execCellLanding
  refine .next ?_
  split
  · exact .refl _
  · extract_lets src s0 s1
    have hs0 : Keeps s s0 := Keeps.mk_iff.2 (.refl _)
    have hs1 : Keeps s s1 := Keeps.elim (fun e => copyEcc_keeps hs0 _ _ _) hs0
    refine Keeps.ite (.refl _) (Keeps.ite (setF_keeps (.refl _) _ _ _ (by decide)) ?_)
    split
    · exact Keeps.ite (eccCopy_keeps hs1 _) (landCell_keeps hs1 _ _)
    · exact hs1

theorem execCtRequest_keeps (port : Nat) (s : State) :
    NextKeeps s (execCtRequest port s) := by
  unfold execCtRequest
  extract_lets from_ here src
  refine .next ?_
  split
  · exact .refl _
  · extract_lets s1 src1 s2
    have hs1 : Keeps s s1 := Keeps.mk_iff.2 (.refl _)
    have hs2 : Keeps s s2 := Keeps.mk_iff.2 hs1
    split
    · exact hs1
    · exact Keeps.ite (syncIqm_keeps (count_keeps (modCopy_keeps hs2 _ _) _ _) _) (Keeps.mk_iff.2 hs1)

theorem execCtDeny_keeps (pipe : Nat) (s : State) :
    NextKeeps s (execCtDeny pipe s) := by
  unfold execCtDeny
  refine .next ?_
  split
  · exact .refl _
  · extract_lets src s1
    have hs1 : Keeps s s1 := count_keeps (Keeps.mk_iff.2 (.refl _)) _ _
    split
    · exact hs1
    · exact sendReq_keeps (modCopy_keeps hs1 _ _) _ _ _

end Sys2Proof.Sound
end

section
/-! What the definitions of Machine/Egress.lean keep: the queue, the outputs, the free values, and soundness. -/

namespace Sys2Proof.Sound

open Sys2Proof.Machine Sys2Proof.Registers

theorem mirrorData_keeps {s t : State} (h : Keeps s t) (c : Copy) (m : MirrorSession) (bs : List Nat) :
    Keeps s (t.mirrorData c m bs).1 :=
  Keeps.iteFst (count_keeps h _ _) h

theorem addResidence_keeps {s t : State} (h : Keeps s t) (pipe : Nat) (e : ResEntry) :
    Keeps s (t.addResidence pipe e) := by
  unfold State.addResidence
  extract_lets l s1 src
  have hs1 : Keeps s s1 := Keeps.ite (addF_keeps h _ _ _ (by decide)) h
  exact Keeps.mk_iff.2 hs1

theorem tcSkip_keeps {s t : State} (h : Keeps s t) (port : Nat) (bs : List Nat) :
    Keeps s (t.tcSkip port bs).1 :=
  count_keeps h _ _

theorem tcEdit_keeps {s t : State} (h : Keeps s t) (p : Pkt) (port d off encap : Nat) (bs : List Nat) :
    Keeps s (t.tcEdit p port d off encap bs).1 := by
  unfold State.tcEdit
  extract_lets m kind p2p lin event bad r l src
  refine Keeps.iteFst h (Keeps.iteFst (tcSkip_keeps h _ _) (Keeps.iteFst
    (Keeps.iteFst (tcSkip_keeps h _ _) (Keeps.iteFst (addResidence_keeps h _ _)
    (Keeps.iteFst (tcSkip_keeps h _ _) h))) (Keeps.iteFst ?_ h)))
  split
  · exact addF_keeps h _ _ _ (by decide)
  · extract_lets s1
    have hs1 : Keeps s s1 := Keeps.mk_iff.2 h
    exact Keeps.iteFst (tcSkip_keeps hs1 _ _) hs1

theorem ptpEdit_keeps {s t : State} (h : Keeps s t) (c : Copy) (p : Pkt) (d : Nat) (moved : Int) (bs : List Nat) :
    Keeps s (t.ptpEdit c p d moved bs).1 := by
  unfold State.ptpEdit
  refine Keeps.iteFst ?_ ?_
  · split
    · exact h
    · exact h
  · split
    · exact tcEdit_keeps h _ _ _ _ _ _
    · exact h

theorem rewriteEcc_keeps {s t : State} (h : Keeps s t) (port i : Nat) (errs : List EccErr) :
    Keeps s (t.rewriteEcc port i errs) := by
  unfold State.rewriteEcc
  split
  · exact h
  · extract_lets s1 src
    have hs1 : Keeps s s1 := egsCapture_keeps h _ _ _ _ _
    exact Keeps.ite (Keeps.mk_iff.2 hs1) (raise_keeps hs1 _ _ _ _)

theorem padFrame_keeps {s t : State} (h : Keeps s t) (bs : List Nat) :
    Keeps s (t.padFrame bs).1 :=
  Keeps.iteFst h (drawOne_keeps h)

theorem greEdit_keeps {s t : State} (h : Keeps s t) (c : Copy) (p : Pkt) (n : Nat) (egress : Bool)
    (m : MirrorSession) :
    Keeps s (t.greEdit c p n egress m).1 := by
  unfold State.greEdit
  split
  · exact h
  · split
    rename_i e
    exact drawOne_keeps (Keeps.fst e (mirrorData_keeps h _ _ _))

theorem egressEdit_keeps {s t : State} (h : Keeps s t) (c : Copy) (p : Pkt) (d : Nat) :
    Keeps s (t.egressEdit c p d).1 := by
  unfold State.egressEdit
  extract_lets maxLen session
  refine Keeps.iteFst h ?_
  clear_value session
  split
  · refine Keeps.iteFst (greEdit_keeps h _ _ _ _ _) ?_
    split
    rename_i _ e
    have hs1 := Keeps.fst e (mirrorData_keeps h _ _ _)
    split
    rename_i _ e1
    have hs11 := Keeps.fst e1 (ptpEdit_keeps hs1 _ _ _ _ _)
    split
    rename_i e2
    exact Keeps.fst e2 (padFrame_keeps hs11 _)
  · split
    · exact h
    · split
      rename_i _ e
      have hs1 := Keeps.fst e (ptpEdit_keeps h _ _ _ _ _)
      split
      rename_i e1
      exact Keeps.iteFst h (Keeps.fst e1 (Keeps.iteFst hs1 (padFrame_keeps hs1 _)))

theorem editDrop_keeps {s t : State} (h : Keeps s t) (cid : Nat) (c : Copy) (e : EditDrop) :
    Keeps s (t.editDrop cid c e) := by
  unfold State.editDrop
  extract_lets n s1 s2
  have hs1 : Keeps s s1 := by
    unfold s1
    split
    · exact setF_keeps (count_keeps h _ _) _ _ _ (by decide)
    · exact setF_keeps (count_keeps h _ _) _ _ _ (by decide)
    · exact setF_keeps (count_keeps h _ _) _ _ _ (by decide)
  have hs2 : Keeps s s2 := by
    unfold s2
    split
    · exact modCopy_keeps hs1 _ _
    · exact hs1
  exact Keeps.ite (settleCredits_keeps (stompTx_keeps hs2 _) _) (loseCopy_keeps hs1 _)

theorem noFit_keeps {s t : State} (h : Keeps s t) (cid : Nat) (c : Copy) :
    Keeps s (t.noFit cid c) :=
  Keeps.ite h (setF_keeps (count_keeps (modCopy_keeps h _ _) _ _) _ _ _ (by decide))

theorem startTx_keeps {s t : State} (h : Keeps s t) (cid : Nat) (c : Copy) (d : Nat) (bs : List Nat) :
    Keeps s (t.startTx cid c d bs) := by
  unfold State.startTx
  extract_lets len s1
  have hs1 : Keeps s s1 := modCopy_keeps h _ _
  exact settleCredits_keeps (chargeFrame_keeps hs1 _ _ _ _) _

theorem tryHeads_keeps {s t : State} (h : Keeps s t) (errs : List EccErr) (a : List (Nat × Copy)) :
    Keeps s (t.tryHeads errs a) := by
  induction a generalizing t with
  | nil =>
    rw [State.tryHeads]
    exact h
  | cons x rest ih =>
    rw [State.tryHeads]
    refine Keeps.ite (ih h) ?_
    split
    · exact ih h
    · extract_lets d s1
      have hs1 : Keeps s s1 := rewriteEcc_keeps h _ _ _
      split
      · rename_i e
        exact ih (editDrop_keeps (Keeps.fst e (egressEdit_keeps hs1 _ _ _)) _ _ _)
      · rename_i _ e
        have hs2 := Keeps.fst e (egressEdit_keeps hs1 _ _ _)
        exact Keeps.ite (startTx_keeps hs2 _ _ _ _) (ih (noFit_keeps hs1 _ _))

theorem execTransmitSelection_keeps (port : Nat) (errs : List EccErr) (s : State) :
    NextKeeps s (execTransmitSelection port errs s) := by
  unfold execTransmitSelection
  extract_lets s1 s2 s3
  have hs1 : Keeps s s1 := examinePort_keeps (.refl _) _
  have hs2 : Keeps s s2 := Keeps.foldl _ (fun _ _ ht => gateEcc_keeps ht _ _) hs1
  have hs3 : Keeps s s3 := Keeps.foldl _ (fun _ _ ht => shaperEcc_keeps ht _ _) hs2
  exact .next (Keeps.ite (.refl _) (tryHeads_keeps hs3 _ _))

theorem txSent_keeps {s t : State} (h : Keeps s t) (c : Copy) :
    Keeps s (t.txSent c) := by
  unfold State.txSent
  split
  · exact h
  · split
    · exact h
    · extract_lets ns s1
      have hs1 : Keeps s s1 := modPkt_keeps h _ _
      exact Keeps.ite (writeBack460_keeps hs1 _ _ _ _ _ _) (writeBack460_keeps hs1 _ _ _ _ _ _)

theorem sendMember_keeps {s t : State} (h : Keeps s t) (link : Nat) (c : Copy) (bs : List Nat) :
    Keeps s (t.sendMember link c bs) := by
  unfold State.sendMember
  split
  · exact h
  · exact sendBulk_keeps h _ _

theorem txDone_keeps {s t : State} (h : Keeps s t) (cid : Nat) (c : Copy) (bs : List Nat) :
    Keeps s (t.txDone cid c bs) := by
  unfold State.txDone
  extract_lets s1 s2 s3
  have hs1 : Keeps s s1 := sendLine_keeps h _ _ _
  have hs2 : Keeps s s2 := by
    unfold s2
    split
    · exact sendMember_keeps h _ _ _
    · exact count_keeps (count_keeps (count_keeps hs1 _ _) _ _) _ _
  have hs3 : Keeps s s3 := dropCopy_keeps (leavePort_keeps (txSent_keeps hs2 _) _) _
  exact settleCredits_keeps (chargeFrame_keeps hs3 _ _ _ _) _

theorem execTxFrameEnd_keeps (port : Nat) (s : State) :
    NextKeeps s (execTxFrameEnd port s) := by
  unfold execTxFrameEnd
  refine .next ?_
  split
  · exact .refl _
  · split
    · exact .refl _
    · refine Keeps.ite (.refl _) ?_
      split
      rename_i _ e
      have hs1 := Keeps.fst e (Keeps.iteFst (.refl _) (padFrame_keeps (.refl _) _))
      exact Keeps.ite (editDrop_keeps (.refl _) _ _ _) (txDone_keeps (hs1) _ _ _)

theorem execCtUnderrun_keeps (port : Nat) (s : State) :
    NextKeeps s (execCtUnderrun port s) := by
  unfold execCtUnderrun
  refine .next ?_
  split
  · exact .refl _
  · exact Keeps.ite (settleCredits_keeps (stompTx_keeps (count_keeps (.refl _) _ _) _) _) (.refl _)

end Sys2Proof.Sound
end

section
/-! What the definitions of Machine/Time.lean keep: the queue, the outputs, the free values, and soundness. -/

namespace Sys2Proof.Sound

open Sys2Proof.Machine Sys2Proof.Registers

theorem showServo_keeps {s t : State} (h : Keeps s t) :
    Keeps s t.showServo :=
  setB_keeps (setF_keeps (setF_keeps h _ _ _ (by decide)) _ _ _ (by decide)) _ _ _ (by decide)

theorem tick_keeps {s t : State} (h : Keeps s t) :
    Keeps s t.tick := by
  unfold State.tick
  split
  exact showServo_keeps (Keeps.mk_iff.2 h)

theorem execTimeBaseTick_keeps (s : State) :
    NextKeeps s (execTimeBaseTick s) :=
  .next (tick_keeps (.refl _))

theorem syncPps_keeps {s t : State} (h : Keeps s t) :
    Keeps s t.syncPps :=
  Keeps.ite h (Keeps.mk_iff.2 h)

theorem setLocked_keeps {s t : State} (h : Keeps s t) (b : Bool) :
    Keeps s (t.setLocked b) := by
  unfold State.setLocked
  extract_lets u src s0
  have hu : Keeps s u := bwUnlocked_keeps (bwRoll_keeps h)
  have hs0 : Keeps s s0 := Keeps.ite (bwRoll_keeps h) (Keeps.mk_iff.2 hu)
  exact Keeps.ite h (syncPps_keeps (regridAll_keeps (raise_keeps
    (setB_keeps (setB_keeps hs0 _ _ _ (by decide)) _ _ _ (by decide)) _ _ _ _)))

theorem enterAcquire_keeps {s t : State} (h : Keeps s t) :
    Keeps s t.enterAcquire := by
  unfold State.enterAcquire
  extract_lets src s1
  have hs1 : Keeps s s1 := Keeps.mk_iff.2 h
  exact showServo_keeps (setLocked_keeps (setF_keeps (setF_keeps hs1 _ _ _ (by decide)) _ _ _ (by decide)) _)

theorem firstOffset_keeps {s t : State} (h : Keeps s t) (theta : Int) :
    Keeps s (t.firstOffset theta) :=
  Keeps.mk_iff.2 h

theorem secondOffset_keeps {s t : State} (h : Keeps s t) (theta : Int) :
    Keeps s (t.secondOffset theta) := by
  unfold State.secondOffset
  extract_lets delta i src s1
  have hs1 : Keeps s s1 := Keeps.mk_iff.2 h
  exact Keeps.ite (addF_keeps (setF_keeps h _ _ _ (by decide)) _ _ _ (by decide))
    (showServo_keeps (setF_keeps (setF_keeps hs1 _ _ _ (by decide)) _ _ _ (by decide)))

theorem lockStep_keeps {s t : State} (h : Keeps s t) (e : Int) :
    Keeps s (t.lockStep e) := by
  unfold State.lockStep
  extract_lets run src s1
  have hs1 : Keeps s s1 := Keeps.mk_iff.2 h
  exact Keeps.ite (setLocked_keeps hs1 _) (Keeps.ite (setLocked_keeps hs1 _) hs1)

theorem trackOffset_keeps {s t : State} (h : Keeps s t) (theta : Int) :
    Keeps s (t.trackOffset theta) := by
  unfold State.trackOffset
  extract_lets e i raw src s1
  have hs1 : Keeps s s1 := Keeps.mk_iff.2 h
  exact showServo_keeps (lockStep_keeps (setF_keeps hs1 _ _ _ (by decide)) _)

theorem servoInput_keeps {s t : State} (h : Keeps s t) (theta : Int) :
    Keeps s (t.servoInput theta) :=
  Keeps.ite (Keeps.ite h (Keeps.ite (Keeps.ite h (secondOffset_keeps h _)) (firstOffset_keeps h _)))
    (Keeps.ite (firstOffset_keeps (enterAcquire_keeps h) _) (trackOffset_keeps h _))

theorem setDomain_keeps {s t : State} (h : Keeps s t) (d : Nat) (v : Domain) :
    Keeps s (t.setDomain d v) :=
  Keeps.ite (Keeps.mk_iff.2 h) (Keeps.mk_iff.2 h)

theorem setDomainValid_keeps {s t : State} (h : Keeps s t) (d : Nat) (b : Bool) :
    Keeps s (t.setDomainValid d b) :=
  Keeps.ite (setB_keeps h _ _ _ (by decide)) (setB_keeps h _ _ _ (by decide))

theorem pairOffsets_keeps {s t : State} (h : Keeps s t) (d : Nat) :
    Keeps s (t.pairOffsets d) := by
  unfold State.pairOffsets
  extract_lets other diff ps src s1 src1
  have hs1 : Keeps s s1 := setDomain_keeps (setDomain_keeps h _ _) _ _
  exact Keeps.ite (setF_keeps (Keeps.mk_iff.2 hs1) _ _ _ (by decide)) h

theorem servoOffset_keeps {s t : State} (h : Keeps s t) (d : Nat) (theta : Int) :
    Keeps s (t.servoOffset d theta) := by
  unfold State.servoOffset
  extract_lets src v s1 s2
  have hs1 : Keeps s s1 := setF_keeps (setDomainValid_keeps (setDomain_keeps h _ _) _ _) _ _ _ (by decide)
  have hs2 : Keeps s s2 := pairOffsets_keeps hs1 _
  exact Keeps.ite h (Keeps.ite (servoInput_keeps hs2 _) hs2)

theorem execServoOffset_keeps (domain : Nat) (theta : Int) (s : State) :
    NextKeeps s (execServoOffset domain theta s) :=
  .next (servoOffset_keeps (.refl _) _ _)

theorem switchDomain_keeps {s t : State} (h : Keeps s t) (d : Nat) :
    Keeps s (t.switchDomain d) := by
  unfold State.switchDomain
  extract_lets old b s1 src
  have hs1 : Keeps s s1 := setF_keeps (setF_keeps h _ _ _ (by decide)) _ _ _ (by decide)
  exact Keeps.ite hs1 (showServo_keeps (Keeps.mk_iff.2 hs1))

theorem enterHoldover_keeps {s t : State} (h : Keeps s t) :
    Keeps s t.enterHoldover := by
  unfold State.enterHoldover
  extract_lets f src s1 s2
  have hs1 : Keeps s s1 := Keeps.mk_iff.2 h
  have hs2 : Keeps s s2 := showServo_keeps (setF_keeps hs1 _ _ _ (by decide))
  exact Keeps.ite (setLocked_keeps hs2 _) hs2

theorem domainTimeout_keeps {s t : State} (h : Keeps s t) (d : Nat) :
    Keeps s (t.domainTimeout d) := by
  unfold State.domainTimeout
  extract_lets s1
  have hs1 : Keeps s s1 := setDomainValid_keeps h _ _
  exact Keeps.ite h (Keeps.ite hs1 (Keeps.ite (raise_keeps (addF_keeps (switchDomain_keeps hs1 _) _ _ _ (by decide))
    _ _ _ _) (Keeps.ite (enterHoldover_keeps hs1) hs1)))

theorem execDomainTimeout_keeps (domain : Nat) (s : State) :
    NextKeeps s (execDomainTimeout domain s) :=
  .next (domainTimeout_keeps (.refl _) _)

theorem execHoldoverGraceExpiry_keeps (s : State) :
    NextKeeps s (execHoldoverGraceExpiry s) :=
  .next (Keeps.ite (setLocked_keeps (.refl _) _) (.refl _))

theorem applyStep_keeps {s t : State} (h : Keeps s t) (theta : Int) :
    Keeps s (t.applyStep theta) := by
  unfold State.applyStep
  extract_lets t1 s0 src s1
  have hs0 : Keeps s s0 := Keeps.mk_iff.2 h
  have hs1 : Keeps s s1 := bwStep_keeps (Keeps.mk_iff.2 hs0) _ _
  exact setLocked_keeps (addF_keeps (setF_keeps hs1 _ _ _ (by decide)) _ _ _ (by decide)) _

theorem execTimeServoConfig_keeps (h : CmdHdr) (kp ki fMax lockThreshold lockCount unlockThreshold stepThreshold
    inputTimeout holdoverGrace : Nat) (s : State) :
    NextKeeps s (execTimeServoConfig h kp ki fMax lockThreshold lockCount unlockThreshold stepThreshold inputTimeout
      holdoverGrace s) := by
  unfold execTimeServoConfig
  refine .next (cmd_keeps (.refl _) _ _ _ _ _ (fun s1 hs1 => ?_))
  extract_lets s11 s2 s3
  have hs11 : Keeps s s11 := setF_keeps (setF_keeps (setF_keeps hs1 _ _ _ (by decide)) _ _ _ (by decide)) _ _ _
    (by decide)
  have hs2 : Keeps s s2 := setF_keeps (setF_keeps (setF_keeps hs11 _ _ _ (by decide)) _ _ _ (by decide)) _ _ _
    (by decide)
  have hs3 : Keeps s s3 := setF_keeps (setF_keeps (setF_keeps hs2 _ _ _ (by decide)) _ _ _ (by decide)) _ _ _
    (by decide)
  exact hs3

theorem execTimeDomainConfig_keeps (h : CmdHdr) (domain source port domainNumber : Nat) (meanPathDelay : Int)
    (autoSwitch : Bool) (s : State) :
    NextKeeps s (execTimeDomainConfig h domain source port domainNumber meanPathDelay autoSwitch s) := by
  unfold execTimeDomainConfig
  refine .next (cmd_keeps (.refl _) _ _ _ _ _ (fun s1 hs1 => ?_))
  extract_lets src s11 s2
  have hs11 : Keeps s s11 := setDomain_keeps hs1 _ _
  have hs2 : Keeps s s2 := Keeps.ite (setF_keeps (setF_keeps hs11 _ _ _ (by decide)) _ _ _ (by decide))
    (setF_keeps (setF_keeps hs11 _ _ _ (by decide)) _ _ _ (by decide))
  exact setB_keeps hs2 _ _ _ (by decide)

theorem execTimeSelectDomain_keeps (h : CmdHdr) (domain : Nat) (s : State) :
    NextKeeps s (execTimeSelectDomain h domain s) :=
  .next (cmd_keeps (.refl _) _ _ _ _ _ (fun _ hs1 => Keeps.iteFst hs1 (switchDomain_keeps hs1 _)))

theorem execTimeSlewConfig_keeps (h : CmdHdr) (slewRate slewRamp : Nat) (s : State) :
    NextKeeps s (execTimeSlewConfig h slewRate slewRamp s) :=
  .next (cmd_keeps (.refl _) _ _ _ _ _ (fun _ hs1 => setF_keeps (setF_keeps hs1 _ _ _ (by decide)) _ _ _ (by decide)))

theorem execTimeTcConfig_keeps (h : CmdHdr) (mode : Nat) (ports : List Nat) (delays : List (Nat × Nat)) (s : State) :
    NextKeeps s (execTimeTcConfig h mode ports delays s) := by
  unfold execTimeTcConfig
  refine .next (cmd_keeps (.refl _) _ _ _ _ _ (fun s1 hs1 => ?_))
  exact Keeps.mk_iff.2 hs1

theorem markRefArg_keeps {s t : State} (h : Keeps s t) (arg0 : Nat) :
    Keeps s (t.markRefArg arg0) :=
  Keeps.mk_iff.2 h

theorem refGone_keeps {s t : State} (h : Keeps s t) :
    Keeps s t.refGone := by
  unfold State.refGone
  extract_lets sel other s1 src
  have hs1 : Keeps s s1 := Keeps.ite (markRefArg_keeps h _) (raise_keeps h _ _ _ _)
  exact Keeps.ite (endCondition_keeps (setF_keeps (Keeps.mk_iff.2 hs1) _ _ _ (by decide)) _ _) (Keeps.mk_iff.2 hs1)

theorem settleRef_keeps {s t : State} (h : Keeps s t) :
    Keeps s t.settleRef :=
  Keeps.ite (Keeps.ite (endCondition_keeps (Keeps.mk_iff.2 h) _ _) h) (refGone_keeps h)

theorem afterIo_keeps {s t : State} (h : Keeps s t) :
    Keeps s t.afterIo :=
  settleRef_keeps (syncSynce_keeps (syncPps_keeps h))

/-- A word whose bits 29 to 20 are zero shares no bit with the reserved ones of TBS_SYNCE_CTRL. -/
theorem synce_fixed {n : Nat} (hlt : n < 2 ^ 32) (h : bitsOf n 29 20 = 0) :
    Nat.land (BitVec.ofNat 32 n).toNat Reg.tbsSynceCtrl.fixedMask =
      Nat.land Reg.tbsSynceCtrl.resetWord.toNat Reg.tbsSynceCtrl.fixedMask := by
  rw [BitVec.toNat_ofNat, Nat.mod_eq_of_lt hlt]
  refine (land_eq_zero fun j hj => ?_).trans (by decide)
  rw [show Reg.tbsSynceCtrl.fixedMask = (2 ^ 10 - 1) <<< 20 by decide, Nat.testBit_shiftLeft,
      Nat.testBit_two_pow_sub_one]
  refine Bool.eq_false_iff.2 fun hin => ?_
  rw [Bool.and_eq_true, decide_eq_true_eq, decide_eq_true_eq] at hin
  obtain ⟨hge, hlt⟩ := hin
  have hbit : (bitsOf n 29 20).testBit (j - 20) = n.testBit j := by
    unfold bitsOf
    rw [Nat.testBit_mod_two_pow, Nat.testBit_shiftRight, show 20 + (j - 20) = j by omega]
    simp only [show j - 20 < 29 - 20 + 1 by omega, decide_true, Bool.true_and]
  rw [h, Nat.zero_testBit, hj] at hbit
  cases hbit

/-- The work of a command is done only where its operands pass every check. -/
theorem cmdChecked_keeps {s t : State} (hk : Keeps s t) (c : Instr) (h : CmdHdr) (a : CmdAttr) (checks : List Bool)
    (body : State → State × Rsp) (hbody : (∀ b ∈ checks, b = true) → ∀ u, Keeps s u → Keeps s (body u).1) :
    Keeps s (t.cmd c h a checks body) := by
  unfold State.cmd
  split
  · exact stopCmd_keeps hk _ _ _
  · split
    · exact finish_keeps hk _ _
    · rename_i hnone
      split
      rename_i e
      refine finish_keeps (Keeps.fst e (hbody ?_ _ hk)) _ _
      exact (firstBad_eq_none checks).1 hnone

theorem execTimeIoConfig_keeps (h : CmdHdr) (ioCtrl synce0 synce1 : Nat) (s : State) :
    NextKeeps s (execTimeIoConfig h ioCtrl synce0 synce1 s) := by
  unfold execTimeIoConfig
  refine .next (cmdChecked_keeps (.refl _) _ _ _ _ _ fun hc u hu => afterIo_keeps ?_)
  simp only [List.mem_cons, List.not_mem_nil, or_false, forall_eq_or_imp, forall_eq, Bool.and_eq_true,
      decide_eq_true_eq,
    beq_iff_eq] at hc
  obtain ⟨_, ⟨h0, hr0⟩, h1, hr1⟩ := hc
  exact wr_keeps (wr_keeps (wrFree_keeps hu _ _ _ (by decide)) _ _ _ fun _ => synce_fixed h0 hr0) _ _ _ fun _ =>
    synce_fixed h1 hr1

theorem latchTime_keeps {s t : State} (h : Keeps s t) :
    Keeps s t.latchTime := by
  unfold State.latchTime
  refine wr_keeps (setF_keeps (setF_keeps (setF_keeps h _ _ _ (by decide)) _ _ _ (by decide)) _ _ _ (by decide)) _ _ _
    fun _ => ?_
  have hb : b2n (!t.locked) ≤ 1 := by unfold b2n; split <;> omega
  have hlt : b2n (!t.locked) <<< 16 + t.tm.sec / 2 ^ 32 % 2 ^ 16 < 2 ^ 17 := by
    rw [Nat.shiftLeft_eq]
    omega
  rw [BitVec.toNat_ofNat, Nat.mod_eq_of_lt (Nat.lt_of_lt_of_le hlt (by decide))]
  refine (land_eq_zero fun j hj => ?_).trans (by decide)
  have hj17 : ¬ j ≥ 17 := fun hge => by
    rw [Nat.testBit_lt_two_pow (Nat.lt_of_lt_of_le hlt (Nat.pow_le_pow_right (by omega) hge))] at hj
    cases hj
  rw [show Reg.tbsTimeSecHi.fixedMask = (2 ^ 15 - 1) <<< 17 by decide, Nat.testBit_shiftLeft, decide_eq_false hj17,
    Bool.false_and]

theorem execTbsTimeLatch_keeps (s : State) :
    NextKeeps s (execTbsTimeLatch s) := by
  unfold execTbsTimeLatch
  extract_lets s1
  have hs1 : Keeps s s1 := latchTime_keeps (.refl _)
  exact .next (emit_keeps hs1 _)

theorem execPpsOutEdge_keeps (s : State) :
    NextKeeps s (execPpsOutEdge s) :=
  .next (Keeps.ite (.refl _) (syncPps_keeps (Keeps.mk_iff.2 (.refl _))))

theorem execPpsOutFall_keeps (s : State) :
    NextKeeps s (execPpsOutFall s) :=
  .next (Keeps.ite (.refl _) (Keeps.mk_iff.2 (.refl _)))

theorem execPpsInEdge_keeps (s : State) :
    NextKeeps s (execPpsInEdge s) := by
  unfold execPpsInEdge
  extract_lets s1 src
  have hs1 : Keeps s s1 := setF_keeps (setF_keeps (.refl _) _ _ _ (by decide)) _ _ _ (by decide)
  exact .next (Keeps.mk_iff.2 hs1)

theorem execTodMessageRx_keeps (chars : List Nat) (s : State) :
    NextKeeps s (execTodMessageRx chars s) := by
  unfold execTodMessageRx
  refine .next ?_
  split
  · extract_lets theta src s1 s2
    have hs1 : Keeps s s1 := Keeps.mk_iff.2 (.refl _)
    have hs2 : Keeps s s2 := Keeps.ite (servoOffset_keeps hs1 _ _) hs1
    exact Keeps.ite (.refl _) (Keeps.ite hs1 (Keeps.ite (servoOffset_keeps hs2 _ _) hs2))
  · exact .refl _

theorem execTodWindowExpiry_keeps (s : State) :
    NextKeeps s (execTodWindowExpiry s) := by
  unfold execTodWindowExpiry
  refine .next ?_
  split
  · exact Keeps.ite (Keeps.mk_iff.2 (.refl _)) (.refl _)
  · exact .refl _

theorem execTodOutput_keeps (s : State) :
    NextKeeps s (execTodOutput s) := by
  unfold execTodOutput
  refine .next ?_
  split
  · exact .refl _
  · exact Keeps.ite (.refl _) (emit_keeps (Keeps.mk_iff.2 (.refl _)) _)

theorem setRef_keeps {s t : State} (h : Keeps s t) (r : Nat) (b : Bool) :
    Keeps s (t.setRef r b) :=
  Keeps.ite (Keeps.mk_iff.2 h) (Keeps.mk_iff.2 h)

theorem execReferenceLost_keeps (ref : Nat) (s : State) :
    NextKeeps s (execReferenceLost ref s) :=
  .next (Keeps.ite (.refl _) (settleRef_keeps (setRef_keeps (.refl _) _ _)))

theorem execReferenceRelock_keeps (ref : Nat) (s : State) :
    NextKeeps s (execReferenceRelock ref s) :=
  .next (Keeps.ite (.refl _) (settleRef_keeps (setRef_keeps (.refl _) _ _)))

theorem execResidenceEntryExpiry_keeps (pipeline : Nat) (s : State) :
    NextKeeps s (execResidenceEntryExpiry pipeline s) :=
  .next (Keeps.mk_iff.2 (.refl _))

end Sys2Proof.Sound
end

section
/-! What the definitions of Machine/Arrival.lean keep: the queue, the outputs, the free values, and soundness. -/

namespace Sys2Proof.Sound

open Sys2Proof.Machine Sys2Proof.Registers

theorem addPkt_keeps {s t : State} (h : Keeps s t) (p : Pkt) :
    Keeps s (t.addPkt p).1 :=
  Keeps.mk_iff.2 h

theorem badCopy_keeps {s t : State} (h : Keeps s t) (cutThrough : Bool) (e : Nat × Copy) :
    Keeps s (t.badCopy cutThrough e) := by
  unfold State.badCopy
  extract_lets s1
  have hs1 : Keeps s s1 := Keeps.ite (count_keeps h _ _) h
  exact Keeps.ite (settleCredits_keeps (stompTx_keeps h _) _) (loseCopy_keeps hs1 _)

theorem discardHeld_keeps {s t : State} (h : Keeps s t) (id : Nat) (p : Pkt) :
    Keeps s (t.discardHeld id p) := by
  unfold State.discardHeld
  extract_lets s1 s2
  have hs1 : Keeps s s1 := modPkt_keeps h _ _
  have hs2 : Keeps s s2 := sendUpdates_keeps (Keeps.foldl _ (fun _ _ hu => staleChain_keeps hu _) hs1) _
  exact setupFrameEnd_keeps hs2 _ _

theorem frameBad_keeps {s t : State} (h : Keeps s t) (id : Nat) :
    Keeps s (t.frameBad id) := by
  unfold State.frameBad
  split
  · exact h
  · extract_lets mine began cut s1 s2 s3
    have hs1 : Keeps s s1 := discardHeld_keeps (detachRx_keeps h _) _ _
    have hs2 : Keeps s s2 := Keeps.ite (setF_keeps (count_keeps hs1 _ _) _ _ _ (by decide)) hs1
    have hs3 : Keeps s s3 := Keeps.foldl _ (fun _ _ hu => badCopy_keeps hu _ _) hs2
    exact Keeps.ite (dropPkt_keeps hs2 _) (releaseCells_keeps hs3 _ _)

theorem noCell_keeps {s t : State} (h : Keeps s t) (id : Nat) (p : Pkt) :
    Keeps s (t.noCell id p) := by
  unfold State.noCell
  extract_lets s1
  have hs1 : Keeps s s1 := Keeps.ite (setF_keeps (count_keeps h _ _) _ _ _ (by decide))
    (setF_keeps (count_keeps h _ _) _ _ _ (by decide))
  exact frameBad_keeps hs1 _

theorem storeBody_keeps {s t : State} (h : Keeps s t) (id a : Nat) (a1 : List Nat) :
    Keeps s (t.storeBody id a a1) := by
  induction a generalizing t a1 with
  | zero =>
    rw [State.storeBody]
    exact h
  | succ n ih =>
    unfold State.storeBody
    split
    · exact h
    · exact h
    · extract_lets room
      refine Keeps.ite (ih (modPkt_keeps h _ _) _) ?_
      split
      · exact noCell_keeps h _ _
      · exact ih (modPkt_keeps h _ _) _

theorem setRx_keeps {s t : State} (h : Keeps s t) (port : Nat) (r : Rx) :
    Keeps s (t.setRx port r) :=
  Keeps.mk_iff.2 h

theorem feed_keeps {s t : State} (h : Keeps s t) (port id : Nat) (bs : List Nat) :
    Keeps s (t.feed port id bs) := by
  unfold State.feed
  split
  · exact h
  · extract_lets n s1
    have hs1 : Keeps s s1 := Keeps.ite (modPkt_keeps h _ _) h
    exact Keeps.ite h (fcUpdate_keeps (syncIqm_keeps (storeBody_keeps hs1 _ _ _) _) _)

theorem startFrame_keeps {s t : State} (h : Keeps s t) (port : Nat) :
    Keeps s (t.startFrame port) := by
  unfold State.startFrame
  extract_lets pipe src p
  refine Keeps.ite (setRx_keeps (count_keeps h _ _) _ _) (Keeps.ite (setRx_keeps h _ _)
    (Keeps.ite (setRx_keeps h _ _) (Keeps.ite (setRx_keeps (setF_keeps (count_keeps h _ _) _ _ _ (by decide)) _ _)
    ?_)))
  split
  rename_i e
  exact setRx_keeps (syncEpoch_keeps (Keeps.fst e (addPkt_keeps h _)) _) _ _

theorem arrive_keeps {s t : State} (h : Keeps s t) (port : Nat) (bs : List Nat) :
    Keeps s (t.arrive port bs) := by
  unfold State.arrive
  extract_lets s1
  have hs1 : Keeps s s1 := Keeps.ite h (startFrame_keeps h _)
  split
  · exact hs1
  · extract_lets s2
    have hs2 : Keeps s s2 := setRx_keeps hs1 _ _
    split
    · exact hs2
    · exact feed_keeps hs2 _ _ _

theorem execFrameArrival_keeps (port : Nat) (bytes : List Nat) (s : State) :
    NextKeeps s (execFrameArrival port bytes s) :=
  .next (Keeps.ite (arrive_keeps (.refl _) _ _) (.refl _))

theorem countCheck_keeps {s t : State} (h : Keeps s t) (port len : Nat) (r : RxCheck) :
    Keeps s (t.countCheck port len r) := by
  unfold State.countCheck
  split
  · exact count_keeps (count_keeps h _ _) _ _
  · exact count_keeps h _ _
  · exact count_keeps h _ _
  · exact count_keeps h _ _
  · exact count_keeps h _ _
  · exact count_keeps h _ _

theorem sendFrameVoqs_keeps {s t : State} (h : Keeps s t) (id : Nat) :
    Keeps s (t.sendFrameVoqs id) :=
  Keeps.foldl _ (fun _ _ ht1 => sendVoq_keeps ht1 _ _ _ _) h

theorem correctCharge_keeps {s t : State} (h : Keeps s t) (id : Nat) :
    Keeps s (t.correctCharge id) :=
  modPkt_keeps h _ _

theorem frameGood_keeps {s t : State} (h : Keeps s t) (id len : Nat) :
    Keeps s (t.frameGood id len) := by
  unfold State.frameGood
  split
  · exact h
  · extract_lets us p1 s1 s2
    have hs1 : Keeps s s1 := setupFrameEnd_keeps (sendUpdates_keeps (modPkt_keeps h _ _) _) _ _
    have hs2 : Keeps s s2 := syncIqm_keeps (correctCharge_keeps hs1 _) _
    exact Keeps.ite (Keeps.ite (dropPkt_keeps hs2 _) (discardPkt_keeps hs2 _))
      (Keeps.ite (releaseCells_keeps (sendFrameVoqs_keeps hs2 _) _ _) hs2)

theorem macBytes_keeps {s t : State} (h : Keeps s t) (port : Nat) (bs : List Nat) :
    Keeps s (t.macBytes port bs) :=
  Keeps.ite (macControl_keeps h _ _ _ _) (macControl_keeps h _ _ _ _)

theorem frameEnd_keeps {s t : State} (h : Keeps s t) (id len : Nat) (good : Bool) :
    Keeps s (t.frameEnd id len good) :=
  Keeps.ite (frameGood_keeps h _ _) (frameBad_keeps h _)

theorem oneStepSync_keeps {s t : State} (h : Keeps s t) (port : Nat) (r : Rx) :
    Keeps s (t.oneStepSync port r) := by
  unfold State.oneStepSync
  split
  · exact h
  · extract_lets m c corr origin from_
    have hfrom_ : ∀ u d, Keeps s u → Keeps s (from_ u d) := by
      refine fun u d hu => ?_
      unfold from_
      exact Keeps.ite (servoOffset_keeps hu _ _) hu
    exact Keeps.ite h (Keeps.foldl _ (fun _ _ hu => hfrom_ _ _ hu) h)

theorem countFec_keeps {s t : State} (h : Keeps s t) (port corrCw uncorrCw : Nat) :
    Keeps s (t.countFec port corrCw uncorrCw) := by
  unfold State.countFec
  extract_lets s1
  have hs1 : Keeps s s1 := count_keeps (count_keeps h _ _) _ _
  exact Keeps.ite (setF_keeps hs1 _ _ _ (by decide)) hs1

theorem endRx_keeps {s t : State} (h : Keeps s t) (port fcs : Nat) (errorBlock errored : Bool) (r : Rx) :
    Keeps s (t.endRx port fcs errorBlock errored r) := by
  unfold State.endRx
  extract_lets c src s1 s2 s3 s31 late s4 s5
  have hs1 : Keeps s s1 := bwFrame_keeps (Keeps.mk_iff.2 h) _ _ _
  have hs2 : Keeps s s2 := Keeps.ite (setF_keeps hs1 _ _ _ (by decide)) hs1
  have hs3 : Keeps s s3 := macBytes_keeps hs2 _ _
  have hs31 : Keeps s s31 := countCheck_keeps hs2 _ _ _
  have hs4 : Keeps s s4 := Keeps.ite (countLate_keeps hs31 _) hs31
  have hs5 : Keeps s s5 := Keeps.ite (oneStepSync_keeps hs4 _ _) hs4
  exact Keeps.ite (Keeps.elim (fun _ => discardPkt_keeps hs3 _) hs3)
    (Keeps.elim (fun _ => frameEnd_keeps hs5 _ _ _) hs5)

theorem execFrameEndStatus_keeps (port : Nat) (bytes : List Nat) (fcs : Nat) (err : LineErr) (corrCw uncorrCw : Nat)
    (s : State) :
    NextKeeps s (execFrameEndStatus port bytes fcs err corrCw uncorrCw s) := by
  unfold execFrameEndStatus
  extract_lets s1 s2
  have hs1 : Keeps s s1 := countFec_keeps (.refl _) _ _ _
  have hs2 : Keeps s s2 := Keeps.ite hs1 (arrive_keeps hs1 _ _)
  refine .next (Keeps.ite (.refl _) ?_)
  split
  · exact hs2
  · exact endRx_keeps hs2 _ _ _ _ _

theorem injectBody_keeps {s t : State} (h : Keeps s t) (id : Nat) (bs : List Nat) :
    Keeps s (t.injectBody id bs) :=
  storeBody_keeps h _ _ _

theorem inject_keeps {s t : State} (h : Keeps s t) (src ring slot : Nat) (w frame : List Nat) :
    Keeps s (t.inject src ring slot w frame) := by
  unfold State.inject
  extract_lets w7 pipe cls direct p0 p
  refine Keeps.ite (txRefused_keeps (count_keeps h _ _) _) (Keeps.ite (txRefused_keeps h _) ?_)
  split
  rename_i _ e
  have hs3 := Keeps.fst e (addPkt_keeps h _)
  extract_lets s2
  have hs2 : Keeps s s2 := syncEpoch_keeps (injectBody_keeps hs3 _ _) _
  exact Keeps.ite (admitTo_keeps hs2 _) hs2

theorem injectThread_keeps {s t : State} (h : Keeps s t) (thread : Nat) (words frame : List Nat) :
    Keeps s (t.injectThread thread words frame) :=
  Keeps.ite h (Keeps.ite (inject_keeps h _ _ _ _ _) (writeBack460_keeps h _ _ _ _ _ _))

theorem execTxDescriptorFetch_keeps (ring : Nat) (words frame : List Nat) (s : State) :
    NextKeeps s (execTxDescriptorFetch ring words frame s) := by
  unfold execTxDescriptorFetch
  extract_lets r slot s1
  have hs1 : Keeps s s1 := setRing_keeps (.refl _) _ _
  exact .next (Keeps.ite (injectThread_keeps (.refl _) _ _ _) (Keeps.ite (.refl _)
    (Keeps.ite (inject_keeps hs1 _ _ _ _ _) (writeBack460_keeps hs1 _ _ _ _ _ _))))

end Sys2Proof.Sound
end

section
/-! What the definitions of Machine/Hbm.lean keep: the queue, the outputs, the free values, and soundness. -/

namespace Sys2Proof.Sound

open Sys2Proof.Machine Sys2Proof.Registers

theorem startRetire_keeps {s t : State} (h : Keeps s t) (stack pc : Nat) :
    Keeps s (t.startRetire stack pc) := by
  unfold State.startRetire
  extract_lets since src s1
  have hs1 : Keeps s s1 := Keeps.mk_iff.2 h
  exact setF_keeps (setF_keeps (setF_keeps hs1 _ _ _ (by decide)) _ _ _ (by decide)) _ _ _ (by decide)

theorem pauseCopy_keeps {s t : State} (h : Keeps s t) (g : Nat) (pause : Bool) :
    Keeps s (t.pauseCopy g pause) :=
  Keeps.mk_iff.2 h

theorem syncRetireLine_keeps {s t : State} (h : Keeps s t) (stack : Nat) :
    Keeps s (t.syncRetireLine stack) := by
  unfold State.syncRetireLine
  split
  · exact setF_keeps h _ _ _ (by decide)
  · exact h

theorem retireIfDue_keeps {s t : State} (h : Keeps s t) (g : Nat) :
    Keeps s (t.retireIfDue g) := by
  unfold State.retireIfDue
  extract_lets stack src s1 src1 s2
  have hs1 : Keeps s s1 := Keeps.mk_iff.2 h
  have hs2 : Keeps s s2 := Keeps.mk_iff.2 hs1
  exact Keeps.ite h (Keeps.ite hs1 (Keeps.ite (raise_keeps (setF_keeps hs2 _ _ _ (by decide)) _ _ _ _)
    (startRetire_keeps hs1 _ _)))

theorem noteUe_keeps {s t : State} (h : Keeps s t) (g : Nat) :
    Keeps s (t.noteUe g) := by
  unfold State.noteUe
  extract_lets stack ts due src s1
  have hs1 : Keeps s s1 := Keeps.mk_iff.2 h
  exact setF_keeps (setF_keeps hs1 _ _ _ (by decide)) _ _ _ (by decide)

theorem syncUeRecent_keeps {s t : State} (h : Keeps s t) (stack : Nat) :
    Keeps s (t.syncUeRecent stack) :=
  setF_keeps h _ _ _ (by decide)

theorem poisonAt_keeps {s t : State} (h : Keeps s t) (g unit : Nat) :
    Keeps s (t.poisonAt g unit) := by
  unfold State.poisonAt
  extract_lets s1
  have hs1 : Keeps s s1 := count_keeps h _ _
  split
  · exact poisonUnit_keeps hs1 _ _
  · exact hs1

theorem captureUe_keeps {s t : State} (h : Keeps s t) (g : Nat) (e : HbmUe) :
    Keeps s (t.captureUe g e) :=
  Keeps.ite h (setF_keeps (setF_keeps (setF_keeps (setF_keeps h _ _ _ (by decide)) _ _ _ (by decide)) _ _ _
    (by decide)) _ _ _ (by decide))

theorem showHistory_keeps {s t : State} (h : Keeps s t) (stack : Nat) :
    Keeps s (t.showHistory stack) := by
  unfold State.showHistory
  split
  · exact h
  · exact Keeps.foldl _ (fun _ _ ht1 => setF_keeps ht1 _ _ _ (by decide)) h

theorem startFreeze_keeps {s t : State} (h : Keeps s t) (g : Nat) (history : List (List Nat)) :
    Keeps s (t.startFreeze g history) := by
  unfold State.startFreeze
  extract_lets stack kept src s1 s2
  have hs1 : Keeps s s1 := Keeps.mk_iff.2 h
  have hs2 : Keeps s s2 := count_keeps (setBit_keeps (pauseCopy_keeps hs1 _ _) _ _ _ _ (by decide)) _ _
  exact showHistory_keeps (setF_keeps hs2 _ _ _ (by decide)) _

theorem syncPcHeld_keeps {s t : State} (h : Keeps s t) :
    Keeps s t.syncPcHeld :=
  setReduction_keeps h _ _ (by decide)

theorem endFreeze_keeps {s t : State} (h : Keeps s t) (g : Nat) :
    Keeps s (t.endFreeze g) := by
  unfold State.endFreeze
  extract_lets stack src s1 s2 s3
  have hs1 : Keeps s s1 := Keeps.mk_iff.2 h
  have hs2 : Keeps s s2 := setBit_keeps (pauseCopy_keeps hs1 _ _) _ _ _ _ (by decide)
  have hs3 : Keeps s s3 := Keeps.ite hs2 (setF_keeps hs2 _ _ _ (by decide))
  exact retireIfDue_keeps (endCondition_keeps (syncPcHeld_keeps (releaseHeld_keeps hs3 _)) _ _) _

theorem repairRegion_keeps {s t : State} (h : Keeps s t) (k u : Nat) :
    Keeps s (t.repairRegion k u) :=
  Keeps.ite (Keeps.ite (emptyBucket_keeps h _ _ _) h) (Keeps.ite (rebuildBlock_keeps h _ _)
    (Keeps.ite (cleanse_keeps h _ _) h))

theorem loseCtrl_keeps {s t : State} (h : Keeps s t) (handle : Nat) :
    Keeps s (t.loseCtrl handle) :=
  Keeps.mk_iff.2 h

theorem poisonedRead_keeps {s t : State} (h : Keeps s t) (g : Nat) (e : HbmUe) :
    Keeps s (t.poisonedRead g e) := by
  unfold State.poisonedRead
  extract_lets s1 s2
  have hs1 : Keeps s s1 := by
    unfold s1
    split
    · exact Keeps.ite (repairRegion_keeps h _ _) h
    · exact h
  have hs2 : Keeps s s2 := by
    unfold s2
    split
    · exact Keeps.ite (missReads_keeps hs1 _ _) hs1
    · exact hs1
  split
  · exact Keeps.ite (loseCtrl_keeps hs2 _) hs2
  · exact hs2

theorem hbmUncorrectable_keeps {s t : State} (h : Keeps s t) (g : Nat) (e : HbmUe) :
    Keeps s (t.hbmUncorrectable g e) := by
  unfold State.hbmUncorrectable
  extract_lets stack s1 s2 s3 s4 m src s5 src1
  have hs1 : Keeps s s1 := setF_keeps (captureUe_keeps (poisonAt_keeps h _ _) _ _) _ _ _ (by decide)
  have hs2 : Keeps s s2 := Keeps.ite (setF_keeps hs1 _ _ _ (by decide)) hs1
  have hs3 : Keeps s s3 := noteUe_keeps (poisonedRead_keeps hs2 _ _) _
  have hs4 : Keeps s s4 := Keeps.foldl _ (fun _ _ ht1 => hbmCorrected_keeps ht1 _ _)
    (Keeps.foldl _ (fun _ _ ht1 => poisonAt_keeps ht1 _ _) hs3)
  have hs5 : Keeps s s5 := sendFault_keeps hs4 _
  exact Keeps.ite hs5 (Keeps.ite (Keeps.mk_iff.2 hs5) (startFreeze_keeps hs5 _ _))

theorem execHbmUncorrectable_keeps (g : Nat) (e : HbmUe) (s : State) :
    NextKeeps s (execHbmUncorrectable g e s) :=
  .next (Keeps.ite (.refl _) (hbmUncorrectable_keeps (.refl _) _ _))

theorem execFreezeEnd_keeps (g : Nat) (s : State) :
    NextKeeps s (execFreezeEnd g s) := by
  unfold execFreezeEnd
  refine .next ?_
  split
  · exact .refl _
  · exact Keeps.ite (syncPcHeld_keeps (Keeps.mk_iff.2 (.refl _))) (endFreeze_keeps (.refl _) _)

theorem writeHold_keeps {s t : State} (h : Keeps s t) (stack value : Nat) :
    Keeps s (t.writeHold stack value) := by
  unfold State.writeHold
  extract_lets s1
  have hs1 : Keeps s s1 := setF_keeps h _ _ _ (by decide)
  refine Keeps.foldl _ (fun t1 p ht1 => ?_) hs1
  split
  · exact Keeps.ite (endFreeze_keeps ht1 _) ht1
  · exact ht1

theorem execPcHoldWrite_keeps (stack value : Nat) (s : State) :
    NextKeeps s (execPcHoldWrite stack value s) :=
  .next (Keeps.ite (.refl _) (writeHold_keeps (.refl _) _ _))

theorem execRetireCopyComplete_keeps (stack : Nat) (s : State) :
    NextKeeps s (execRetireCopyComplete stack s) := by
  unfold execRetireCopyComplete
  refine .next ?_
  split
  · exact .refl _
  · extract_lets g src s1 s2 s3
    have hs1 : Keeps s s1 := eraseSector_keeps (Keeps.mk_iff.2 (.refl _)) _
    have hs2 : Keeps s s2 := setF_keeps (setF_keeps (setBit_keeps hs1 _ _ _ _ (by decide)) _ _ _ (by decide)) _ _ _
      (by decide)
    have hs3 : Keeps s s3 := setF_keeps (setF_keeps (setF_keeps hs2 _ _ _ (by decide)) _ _ _ (by decide)) _ _ _
      (by decide)
    exact Keeps.ite (.refl _) (raise_keeps hs3 _ _ _ _)

theorem execHbmRefresh_keeps (g : Nat) (s : State) :
    NextKeeps s (execHbmRefresh g s) :=
  .next (Keeps.ite (Keeps.mk_iff.2 (.refl _)) (.refl _))

theorem execHbmTempRead_keeps (stack temp : Nat) (s : State) :
    NextKeeps s (execHbmTempRead stack temp s) := by
  unfold execHbmTempRead
  extract_lets s1 s2 live s3 src
  have hs1 : Keeps s s1 := maxF_keeps (setF_keeps (.refl _) _ _ _ (by decide)) _ _ _ (by decide)
  have hs2 : Keeps s s2 := Keeps.ite (setF_keeps hs1 _ _ _ (by decide)) hs1
  have hs3 : Keeps s s3 := Keeps.ite (raise_keeps (setF_keeps hs2 _ _ _ (by decide)) _ _ _ _) hs2
  refine .next (Keeps.ite (.refl _) (Keeps.ite (Keeps.mk_iff.2 hs3) ?_))
  split
  · exact Keeps.mk_iff.2 hs3
  · exact Keeps.ite (endCondition_keeps (setF_keeps hs3 _ _ _ (by decide)) _ _) hs3

theorem execNeighbourRefresh_keeps (g bank row n : Nat) (s : State) :
    NextKeeps s (execNeighbourRefresh g bank row n s) := by
  unfold execNeighbourRefresh
  extract_lets stack th table r occ src s1 s2
  have hs1 : Keeps s s1 := Keeps.mk_iff.2 (.refl _)
  have hs2 : Keeps s s2 := maxF_keeps (maxF_keeps hs1 _ _ _ (by decide)) _ _ _ (by decide)
  exact .next (Keeps.ite (.refl _) (Keeps.ite hs2 (setF_keeps (count_keeps hs2 _ _) _ _ _ (by decide))))

theorem execRefreshWindowBoundary_keeps (stack : Nat) (s : State) :
    NextKeeps s (execRefreshWindowBoundary stack s) :=
  .next (Keeps.mk_iff.2 (.refl _))

theorem execPatrolScrubRead_keeps (g : Nat) (corrected : Bool) (uncorrectable : Option HbmUe) (s : State) :
    NextKeeps s (execPatrolScrubRead g corrected uncorrectable s) := by
  unfold execPatrolScrubRead
  extract_lets stack unit src s1 already
  have hs1 : Keeps s s1 := Keeps.mk_iff.2 (.refl _)
  refine .next (Keeps.ite (.refl _) ?_)
  split
  · exact Keeps.ite hs1 (hbmUncorrectable_keeps hs1 _ _)
  · exact Keeps.ite (hbmCorrected_keeps hs1 _ _) hs1

theorem openTrain_keeps {s t : State} (h : Keeps s t) (stack length : Nat) :
    Keeps s (t.openTrain stack length) :=
  Keeps.ite (raise_keeps (setF_keeps (addF_keeps h _ _ _ (by decide)) _ _ _ (by decide)) _ _ _ _)
    (Keeps.ite h (setF_keeps (Keeps.mk_iff.2 h) _ _ _ (by decide)))

theorem execRetrainWindowExit_keeps (stack : Nat) (history : List (List Nat)) (s : State) :
    NextKeeps s (execRetrainWindowExit stack history s) := by
  unfold execRetrainWindowExit
  extract_lets due src s1 s2
  have hs1 : Keeps s s1 := Keeps.mk_iff.2 (.refl _)
  have hs2 : Keeps s s2 := setF_keeps (addF_keeps (count_keeps hs1 _ _) _ _ _ (by decide)) _ _ _ (by decide)
  exact .next (Keeps.ite (.refl _) (releaseHeld_keeps (Keeps.foldl _ (fun _ _ ht => startFreeze_keeps ht _ _) hs2) _))

theorem enterSelfRefresh_keeps {s t : State} (h : Keeps s t) (stack request : Nat) :
    Keeps s (t.enterSelfRefresh stack request) := by
  unfold State.enterSelfRefresh
  extract_lets src s0 src1 s1 s11 s2 src2 s3
  have hs0 : Keeps s s0 := Keeps.mk_iff.2 h
  have hs1 : Keeps s s1 := Keeps.mk_iff.2 hs0
  have hs11 : Keeps s s11 := Keeps.mk_iff.2 hs0
  have hs2 : Keeps s s2 := setF_keeps hs11 _ _ _ (by decide)
  have hs3 : Keeps s s3 := Keeps.mk_iff.2 hs2
  exact Keeps.ite (count_keeps (setF_keeps (addF_keeps hs1 _ _ _ (by decide)) _ _ _ (by decide)) _ _)
    (Keeps.ite hs2 (count_keeps (addF_keeps hs3 _ _ _ (by decide)) _ _))

theorem execFurlSelfRefreshEntry_keeps (stack request : Nat) (s : State) :
    NextKeeps s (execFurlSelfRefreshEntry stack request s) :=
  .next (Keeps.ite (.refl _) (enterSelfRefresh_keeps (.refl _) _ _))

theorem execFurlEntryRetry_keeps (stack request : Nat) (s : State) :
    NextKeeps s (execFurlEntryRetry stack request s) :=
  .next (Keeps.ite (enterSelfRefresh_keeps (.refl _) _ _) (.refl _))

theorem exitSelfRefresh_keeps {s t : State} (h : Keeps s t) (stack : Nat) :
    Keeps s (t.exitSelfRefresh stack) :=
  releaseHeld_keeps (setF_keeps (Keeps.mk_iff.2 h) _ _ _ (by decide)) _

theorem execSelfRefreshExitHeld_keeps (stack : Nat) (s : State) :
    NextKeeps s (execSelfRefreshExitHeld stack s) := by
  unfold execSelfRefreshExitHeld
  extract_lets s1 src
  have hs1 : Keeps s s1 := exitSelfRefresh_keeps (.refl _) _
  exact .next (Keeps.ite (Keeps.mk_iff.2 hs1) (.refl _))

theorem execMcxStatus_keeps (h : CmdHdr) (stack : Nat) (s : State) :
    NextKeeps s (execMcxStatus h stack s) := by
  unfold execMcxStatus
  refine .next (cmd_keeps (.refl _) _ _ _ _ _ (fun s1 hs1 => ?_))
  exact hs1

theorem execMcxHistory_keeps (h : CmdHdr) (stack : Nat) (s : State) :
    NextKeeps s (execMcxHistory h stack s) := by
  unfold execMcxHistory
  refine .next (cmd_keeps (.refl _) _ _ _ _ _ (fun s1 hs1 => ?_))
  split
  · exact hs1
  · exact hs1

theorem execMcxRhConfig_keeps (h : CmdHdr) (threshold : Nat) (s : State) :
    NextKeeps s (execMcxRhConfig h threshold s) :=
  .next (cmd_keeps (.refl _) _ _ _ _ _ (fun _ hs1 => Keeps.foldl _ (fun _ _ ht => setF_keeps ht _ _ _ (by decide))
    hs1))

theorem execMcxScrubConfig_keeps (h : CmdHdr) (patrolEn : Bool) (scrubHours extLimit : Nat) (s : State) :
    NextKeeps s (execMcxScrubConfig h patrolEn scrubHours extLimit s) :=
  .next (cmd_keeps (.refl _) _ _ _ _ _ (fun _ hs1 => Keeps.foldl _
    (fun _ _ ht => setF_keeps (setF_keeps (setB_keeps ht _ _ _ (by decide)) _ _ _ (by decide)) _ _ _ (by decide))
    hs1))

theorem execMcxRetire_keeps (h : CmdHdr) (stack pc : Nat) (s : State) :
    NextKeeps s (execMcxRetire h stack pc s) :=
  .next (cmd_keeps (.refl _) _ _ _ _ _ (fun _ hs1 => Keeps.iteFst hs1 (Keeps.iteFst hs1 (startRetire_keeps hs1 _ _))))

end Sys2Proof.Sound
end

section
/-! What the definitions of Machine/Criod.lean keep: the queue, the outputs, the free values, and soundness. -/

namespace Sys2Proof.Sound

open Sys2Proof.Machine Sys2Proof.Registers

theorem setReady_keeps {s t : State} (h : Keeps s t) (level : Nat) (l : List Nat) :
    Keeps s (t.setReady level l) :=
  Keeps.mk_iff.2 h

theorem setTask_keeps {s u : State} (h : Keeps s u) (id : Nat) (t : Machine.Task) :
    Keeps s (u.setTask id t) :=
  Keeps.mk_iff.2 h

theorem readyTail_keeps {s u : State} (h : Keeps s u) (id : Nat) (t : Machine.Task) :
    Keeps s (u.readyTail id t) :=
  setReady_keeps (setTask_keeps h _ _) _ _

theorem readyHead_keeps {s t : State} (h : Keeps s t) (id : Nat) :
    Keeps s (t.readyHead id) := by
  unfold State.readyHead
  split
  · exact h
  · exact setReady_keeps (setTask_keeps h _ _) _ _

theorem syncSched_keeps {s t : State} (h : Keeps s t) :
    Keeps s t.syncSched :=
  setF_keeps (setF_keeps (setF_keeps h _ _ _ (by decide)) _ _ _ (by decide)) _ _ _ (by decide)

theorem fillNext_keeps {s t : State} (h : Keeps s t) (thread level id : Nat) :
    Keeps s (t.fillNext thread level id) := by
  unfold State.fillNext
  extract_lets s1 src
  have hs1 : Keeps s s1 := setReady_keeps h _ _
  exact latch_keeps (setThread_keeps hs1 _ _) _ _

theorem serveSlot_keeps {s t : State} (h : Keeps s t) (thread : Nat) :
    Keeps s (t.serveSlot thread) := by
  unfold State.serveSlot
  extract_lets x
  refine Keeps.ite h ?_
  split
  · split
    · exact fillNext_keeps h _ _ _
    · exact h
  · extract_lets level
    split
    · exact fillNext_keeps (readyHead_keeps h _) _ _ _
    · exact h

theorem schedule_keeps {s t : State} (h : Keeps s t) :
    Keeps s t.schedule :=
  syncSched_keeps (Keeps.foldl _ (fun _ _ ht1 => serveSlot_keeps ht1 _) h)

theorem dropNext_keeps {s t : State} (h : Keeps s t) (thread : Nat) :
    Keeps s (t.dropNext thread) := by
  unfold State.dropNext
  split
  · exact h
  · exact readyHead_keeps (setThread_keeps h _ _) _

theorem delayTask_keeps {s t : State} (h : Keeps s t) (id ticks : Nat) :
    Keeps s (t.delayTask id ticks) := by
  unfold State.delayTask
  split
  · exact h
  · extract_lets s1 src
    have hs1 : Keeps s s1 := setTask_keeps h _ _
    exact Keeps.mk_iff.2 hs1

theorem execTaskPost_keeps (task level core budget : Nat) (s : State) :
    NextKeeps s (execTaskPost task level core budget s) := by
  unfold execTaskPost
  refine .next (Keeps.ite (.refl _) ?_)
  split
  · exact schedule_keeps (readyTail_keeps (.refl _) _ _)
  · exact Keeps.ite (schedule_keeps (readyTail_keeps (.refl _) _ _)) (.refl _)

theorem leaveTask_keeps {s t : State} (h : Keeps s t) (id : Nat) (how : TaskEnd) :
    Keeps s (t.leaveTask id how) := by
  unfold State.leaveTask
  split
  · exact h
  · split
    · exact Keeps.mk_iff.2 h
    · exact readyTail_keeps h _ _
    · exact setTask_keeps h _ _
    · exact delayTask_keeps h _ _

theorem takeNext_keeps {s t : State} (h : Keeps s t) (thread : Nat) :
    Keeps s (t.takeNext thread) := by
  unfold State.takeNext
  extract_lets x s1
  have hs1 : Keeps s s1 := setThread_keeps h _ _
  split
  · exact setTask_keeps hs1 _ _
  · exact hs1

theorem execTaskSwitch_keeps (thread : Nat) (how : TaskEnd) (s : State) :
    NextKeeps s (execTaskSwitch thread how s) := by
  unfold execTaskSwitch
  extract_lets x s1
  have hs1 : Keeps s s1 := by
    unfold s1
    split
    · exact leaveTask_keeps (.refl _) _ _
    · exact .refl _
  exact .next (Keeps.ite (.refl _) (schedule_keeps (takeNext_keeps hs1 _)))

theorem watchCalm_keeps {s t : State} (h : Keeps s t) (us : Nat) :
    Keeps s (t.watchCalm us) :=
  Keeps.ite (setF_keeps (setF_keeps h _ _ _ (by decide)) _ _ _ (by decide)) (breakCalm_keeps h)

theorem execBecalmed_keeps (s : State) :
    NextKeeps s (execBecalmed s) := by
  unfold execBecalmed
  extract_lets s0 src s1 s2 s3
  have hs0 : Keeps s s0 := watchCalm_keeps (.refl _) _
  have hs1 : Keeps s s1 := setF_keeps (Keeps.mk_iff.2 hs0) _ _ _ (by decide)
  have hs2 : Keeps s s2 := count_keeps (setF_keeps (setF_keeps hs1 _ _ _ (by decide)) _ _ _ (by decide)) _ _
  have hs3 : Keeps s s3 := setF_keeps (setF_keeps hs2 _ _ _ (by decide)) _ _ _ (by decide)
  exact .next (Keeps.ite hs0 (latchSupervisor_keeps (raiseIrq_keeps (raise_keeps hs3 _ _ _ _) _ (by decide)) _))

theorem restartThread_keeps {s u : State} (h : Keeps s u) (t : Nat) :
    Keeps s (u.restartThread t) :=
  breakCalm_keeps (setThread_keeps h _ _)

theorem execBecalmedAction_keeps (s : State) :
    NextKeeps s (execBecalmedAction s) := by
  unfold execBecalmedAction
  extract_lets s0 ts
  have hs0 : Keeps s s0 := watchCalm_keeps (.refl _) _
  exact .next (Keeps.ite hs0 (count_keeps (Keeps.foldl _ (fun _ _ hu => restartThread_keeps hu _) hs0) _ _))

theorem execSchedulerTick_keeps (s : State) :
    NextKeeps s (execSchedulerTick s) := by
  unfold execSchedulerTick
  extract_lets due rest src s1 s2
  have hs1 : Keeps s s1 := Keeps.mk_iff.2 (.refl _)
  have hs2 : Keeps s s2 := by
    unfold s2
    refine Keeps.foldl _ (fun t id ht => ?_) hs1
    split
    · exact readyTail_keeps ht _ _
    · exact ht
  exact .next (watchCalm_keeps (schedule_keeps hs2) _)

theorem execHousekeeping_keeps (s : State) :
    NextKeeps s (execHousekeeping s) := by
  unfold execHousekeeping
  refine .next ?_
  split
  · exact .refl _
  · extract_lets s1 s2
    have hs1 : Keeps s s1 := setReady_keeps (.refl _) _ _
    have hs2 : Keeps s s2 := by
      unfold s2
      refine Keeps.foldl _ (fun u i hu => ?_) hs1
      exact Keeps.ite (takeNext_keeps hu _) (Keeps.ite (setThread_keeps hu _ _) hu)
    exact schedule_keeps (delayTask_keeps hs2 _ _)

theorem setChannel_keeps {s t : State} (h : Keeps s t) (i : Nat) (c : Channel) :
    Keeps s (t.setChannel i c) :=
  Keeps.mk_iff.2 h

theorem dropPartials_keeps {s t : State} (h : Keeps s t) (thread : Nat) :
    Keeps s (t.dropPartials thread) :=
  Keeps.mk_iff.2 h

theorem threadFault_keeps {s t : State} (h : Keeps s t) (thread kind addr : Nat) :
    Keeps s (t.threadFault thread kind addr) := by
  unfold State.threadFault
  extract_lets s0 src s1 held w s2 s3
  have hs0 : Keeps s s0 := dropPartials_keeps (dropNext_keeps h _) _
  have hs1 : Keeps s s1 := setThread_keeps hs0 _ _
  have hs2 : Keeps s s2 := Keeps.ite hs1 (setF_keeps (setF_keeps hs1 _ _ _ (by decide)) _ _ _ (by decide))
  have hs3 : Keeps s s3 := breakCalm_keeps (count_keeps (setF_keeps hs2 _ _ _ (by decide)) _ _)
  exact schedule_keeps (latchSupervisor_keeps (raise_keeps hs3 _ _ _ _) _)

theorem execThreadFault_keeps (thread kind addr : Nat) (s : State) :
    NextKeeps s (execThreadFault thread kind addr s) :=
  .next (Keeps.ite (.refl _) (threadFault_keeps (.refl _) _ _ _))

theorem execRunBudgetExpiry_keeps (thread addr : Nat) (s : State) :
    NextKeeps s (execRunBudgetExpiry thread addr s) := by
  unfold execRunBudgetExpiry
  extract_lets x
  refine .next ?_
  split
  · exact .refl _
  · exact Keeps.ite (.refl _) (threadFault_keeps (.refl _) _ _ _)

theorem writeChannel_keeps {s t : State} (h : Keeps s t) (i : Nat) (c : Channel) (ws : List (Nat × Bool)) :
    Keeps s (t.writeChannel i c ws) := by
  unfold State.writeChannel
  split
  extract_lets s1 s2
  have hs1 : Keeps s s1 := setChannel_keeps h _ _
  have hs2 : Keeps s s2 := Keeps.ite (latch_keeps hs1 _ _) hs1
  exact Keeps.ite (threadFault_keeps hs2 _ _ _) (breakCalm_keeps hs2)

theorem execChannelEndWrite_keeps (thread channel : Nat) (words : List Nat) (last : Option Nat) (s : State) :
    NextKeeps s (execChannelEndWrite thread channel words last s) := by
  unfold execChannelEndWrite
  refine .next ?_
  split
  · exact Keeps.ite (threadFault_keeps (.refl _) _ _ _) (.refl _)
  · exact Keeps.ite (Keeps.ite (threadFault_keeps (.refl _) _ _ _) (.refl _))
      (Keeps.ite (setChannel_keeps (.refl _) _ _) (writeChannel_keeps (.refl _) _ _ _))

theorem execChannelReadEnd_keeps (thread channel : Nat) (s : State) :
    NextKeeps s (execChannelReadEnd thread channel s) := by
  unfold execChannelReadEnd
  refine .next ?_
  split
  · exact Keeps.ite (threadFault_keeps (.refl _) _ _ _) (.refl _)
  · refine Keeps.ite (Keeps.ite (threadFault_keeps (.refl _) _ _ _) (.refl _)) ?_
    split
    · exact .refl _
    · extract_lets c1 src s1
      have hs1 : Keeps s s1 := setChannel_keeps (setThread_keeps (.refl _) _ _) _ _
      exact latch_keeps (writeChannel_keeps hs1 _ _ _) _ _

theorem execWaitEventWake_keeps (thread : Nat) (wait : Option Nat) (sources : Nat) (s : State) :
    NextKeeps s (execWaitEventWake thread wait sources s) := by
  unfold execWaitEventWake
  extract_lets s1 x boss s2 src
  have hs1 : Keeps s s1 := latch_keeps (.refl _) _ _
  have hs2 : Keeps s s2 := Keeps.ite (Keeps.foldl _ (fun _ _ hu => restartThread_keeps hu _) hs1) hs1
  refine .next (Keeps.ite (.refl _) ?_)
  split
  · exact hs1
  · exact Keeps.ite hs1 (wakeThread_keeps (setThread_keeps hs2 _ _) _)

theorem moveCore_keeps {s t : State} (h : Keeps s t) (failed core : Nat) :
    Keeps s (t.moveCore failed core) := by
  unfold State.moveCore
  extract_lets moved cross there kept chans owner s0 src src1 s1 src2
  have hs0 : Keeps s s0 := by
    unfold s0
    refine Keeps.foldl _ (fun u t1 hu => ?_) h
    split
    · exact readyHead_keeps (setThread_keeps (dropNext_keeps hu _) _ _) _
    · exact dropNext_keeps hu _
  have hs1 : Keeps s s1 := Keeps.mk_iff.2 hs0
  refine Keeps.foldl _ (fun u i hu => ?_) hs1
  exact setThread_keeps (setThread_keeps hu _ _) _ _

/-- The cases are taken one by one, from the outside: the kernel would else evaluate the core that takes over. -/
theorem coreFail_keeps {s t : State} (h : Keeps s t) (core : Nat) (planned : Bool) (cmd : Option (Nat × Nat × Bool)) :
    Keeps s (t.coreFail core planned cmd) := by
  unfold State.coreFail
  extract_lets +onlyGivenNames role during
  refine Keeps.ite h ?_
  extract_lets +onlyGivenNames s9 s0
  have hs0 : Keeps s s0 :=
    breakCalm_keeps (setF_keeps (setF_keeps (Keeps.ite h (failUpdate_keeps h)) _ _ _ (by decide)) _ _ _ (by decide))
  clear_value s0
  split
  · exact raise_keeps hs0 _ _ _ _
  · refine Keeps.ite (raise_keeps hs0 _ _ _ _) ?_
    extract_lets src s1 s2 s3 s4
    have hs1 : Keeps s s1 := Keeps.mk_iff.2 hs0
    have hs2 : Keeps s s2 := setF_keeps (setF_keeps (setF_keeps hs1 _ _ _ (by decide)) _ _ _ (by decide)) _ _ _
        (by decide)
    have hs3 : Keeps s s3 := count_keeps (setF_keeps (setB_keeps hs2 _ _ _ (by decide)) _ _ _ (by decide)) _ _
    have hs4 : Keeps s s4 := setF_keeps (setF_keeps hs3 _ _ _ (by decide)) _ _ _ (by decide)
    exact raiseIrq_keeps (moveCore_keeps (raise_keeps hs4 _ _ _ _) _ _) _ (by decide)

theorem execCoreFailure_keeps (core cause : Nat) (s : State) :
    NextKeeps s (execCoreFailure core cause s) :=
  .next (Keeps.ite (.refl _) (coreFail_keeps (Keeps.ite (setF_keeps (.refl _) _ _ _ (by decide)) (.refl _)) _ _ _))

theorem execKickTimeout_keeps (core : Nat) (s : State) :
    NextKeeps s (execKickTimeout core s) :=
  .next (Keeps.ite (.refl _) (coreFail_keeps (count_keeps (setF_keeps (.refl _) _ _ _ (by decide)) _ _) _ _ _))

theorem takeClasses_keeps {s t : State} (h : Keeps s t) (failed core : Nat) :
    Keeps s (t.takeClasses failed core) := by
  unfold State.takeClasses
  extract_lets s1 src s2
  have hs1 : Keeps s s1 := setF_keeps (setF_keeps h _ _ _ (by decide)) _ _ _ (by decide)
  have hs2 : Keeps s s2 := Keeps.mk_iff.2 hs1
  exact Keeps.foldl _ (fun _ _ hu => syncThread_keeps (syncThread_keeps hu _) _) hs2

/-- The states in between stay unnamed: the kernel would else evaluate the update that the last of them is asked for.
    -/
theorem execTakeoverComplete_keeps (s : State) : NextKeeps s (execTakeoverComplete s) := by
  unfold execTakeoverComplete
  refine .next ?_
  split
  · exact .refl _
  · rename_i tk _
    obtain ⟨failed, core, start, cmd⟩ := tk
    split
    · exact .refl _
    · obtain _ | c := cmd
      case' none => refine schedule_keeps (raise_keeps ?_ _ _ _ _)
      case' some => refine answer_keeps (schedule_keeps (raise_keeps ?_ _ _ _ _)) _ _ _ _
      all_goals
        split
        case' h_1 => refine Keeps.mk_iff.2 ?_
        all_goals
          refine endCondition_keeps (setF_keeps (setF_keeps (takeClasses_keeps ?_ _ _) _ _ _ (by decide)) _ _ _
            (by decide)) _ _
          refine Keeps.ite (setF_keeps (setF_keeps ?_ _ _ _ (by decide)) _ _ _ (by decide)) ?_
          all_goals
            exact setFence_keeps (setF_keeps (setF_keeps (setF_keeps (Keeps.mk_iff.2 (.refl _)) _ _ _ (by decide)) _
                _ _
              (by decide)) _ _ _ (by decide)) _ _

theorem becomeBackstay_keeps {s t : State} (h : Keeps s t) (core : Nat) :
    Keeps s (t.becomeBackstay core) := by
  unfold State.becomeBackstay
  extract_lets src s1
  have hs1 : Keeps s s1 := Keeps.mk_iff.2 h
  exact endCondition_keeps (setF_keeps (setF_keeps (setF_keeps hs1 _ _ _ (by decide)) _ _ _ (by decide)) _ _ _
    (by decide)) _ _

theorem goOffline_keeps {s t : State} (h : Keeps s t) (core : Nat) :
    Keeps s (t.goOffline core) := by
  unfold State.goOffline
  extract_lets src s1
  have hs1 : Keeps s s1 := Keeps.mk_iff.2 h
  exact raise_keeps (setF_keeps (setF_keeps (setF_keeps hs1 _ _ _ (by decide)) _ _ _ (by decide)) _ _ _ (by decide))
    _ _ _ _

theorem execSelftestPassEnd_keeps (core failed age service : Nat) (s : State) :
    NextKeeps s (execSelftestPassEnd core failed age service s) := by
  unfold execSelftestPassEnd
  extract_lets under n src s1 s2 s3 src1 s4 s5
  have hs1 : Keeps s s1 := Keeps.mk_iff.2 (.refl _)
  have hs2 : Keeps s s2 := setF_keeps (setF_keeps (setF_keeps hs1 _ _ _ (by decide)) _ _ _ (by decide)) _ _ _
    (by decide)
  have hs3 : Keeps s s3 := raise_keeps (count_keeps hs2 _ _) _ _ _ _
  have hs4 : Keeps s s4 := Keeps.ite (Keeps.mk_iff.2 hs3) hs3
  have hs5 : Keeps s s5 := Keeps.ite (count_keeps (setF_keeps hs4 _ _ _ (by decide)) _ _) hs4
  exact .next (Keeps.ite (.refl _) (Keeps.ite (.refl _) (Keeps.ite (goOffline_keeps hs5 _)
    (Keeps.ite (becomeBackstay_keeps hs5 _) hs5))))

theorem execServiceCheckpoint_keeps (service : Nat) (content : List Nat) (s : State) :
    NextKeeps s (execServiceCheckpoint service content s) :=
  .next (Keeps.ite (.refl _) (Keeps.mk_iff.2 (.refl _)))

theorem startCriod_keeps {s t : State} (h : Keeps s t) (u : CrdSetup) :
    Keeps s (t.startCriod u) := by
  unfold State.startCriod
  extract_lets bs s1 s2 chans src s3 s4
  have hs1 : Keeps s s1 := by
    unfold s1
    refine Keeps.foldl _ (fun t1 c ht1 => ?_) h
    split
    extract_lets t11 tb src1 t2
    have ht11 : Keeps s t11 := setF_keeps (setF_keeps ht1 _ _ _ (by decide)) _ _ _ (by decide)
    have ht2 : Keeps s t2 := Keeps.ite (Keeps.mk_iff.2 ht11) ht11
    exact Keeps.ite (setF_keeps (setF_keeps (setF_keeps ht2 _ _ _ (by decide)) _ _ _ (by decide)) _ _ _ (by decide))
      (setF_keeps (setF_keeps (setF_keeps ht2 _ _ _ (by decide)) _ _ _ (by decide)) _ _ _ (by decide))
  have hs2 : Keeps s s2 := setF_keeps hs1 _ _ _ (by decide)
  have hs3 : Keeps s s3 := Keeps.mk_iff.2 hs2
  have hs4 : Keeps s s4 := Keeps.foldl _ (fun _ _ ht1 => setThread_keeps ht1 _ _) hs3
  split
  extract_lets s5 src1
  have hs5 : Keeps s s5 := setTask_keeps hs4 _ _
  exact syncSched_keeps (delayTask_keeps (Keeps.mk_iff.2 hs5) _ _)

theorem execCrdStatus_keeps (h : CmdHdr) (s : State) :
    NextKeeps s (execCrdStatus h s) := by
  unfold execCrdStatus
  refine .next (cmd_keeps (.refl _) _ _ _ _ _ (fun s1 hs1 => ?_))
  exact hs1

theorem execCrdTakeover_keeps (h : CmdHdr) (core : Nat) (s : State) :
    NextKeeps s (execCrdTakeover h core s) :=
  .next (cmdLater_keeps (.refl _) _ _ _ _ _ (fun _ hs1 => Keeps.iteFst hs1 (coreFail_keeps hs1 _ _ _)))

theorem execCrdConfig_keeps (h : CmdHdr) (becalmedAction kickPeriod ckptPeriod : Nat) (s : State) :
    NextKeeps s (execCrdConfig h becalmedAction kickPeriod ckptPeriod s) :=
  .next (cmd_keeps (.refl _) _ _ _ _ _ (fun _ hs1 => setF_keeps
    (setF_keeps (setF_keeps hs1 _ _ _ (by decide)) _ _ _ (by decide)) _ _ _ (by decide)))

theorem execCrdHealth_keeps (h : CmdHdr) (s : State) :
    NextKeeps s (execCrdHealth h s) :=
  .next (cmd_keeps (.refl _) _ _ _ _ _ (fun _ hs1 => hs1))

theorem syncHold_keeps {s u : State} (h : Keeps s u) (t : Nat) :
    Keeps s (u.syncHold t) :=
  Keeps.mk_iff.2 h

theorem execDbgStop_keeps (h : CmdHdr) (core thread : Nat) (s : State) :
    NextKeeps s (execDbgStop h core thread s) := by
  unfold execDbgStop
  refine .next (cmd_keeps (.refl _) _ _ _ _ _ (fun s1 hs1 => ?_))
  extract_lets t s11
  have hs11 : Keeps s s11 := setBit_keeps (dropNext_keeps hs1 _) _ _ _ _ (by decide)
  exact schedule_keeps (setF_keeps (breakCalm_keeps (syncHold_keeps (syncThread_keeps hs11 _) _)) _ _ _ (by decide))

theorem execDbgResume_keeps (h : CmdHdr) (core thread : Nat) (s : State) :
    NextKeeps s (execDbgResume h core thread s) := by
  unfold execDbgResume
  refine .next (cmd_keeps (.refl _) _ _ _ _ _ (fun s1 hs1 => ?_))
  extract_lets t s11
  have hs11 : Keeps s s11 := setBit_keeps hs1 _ _ _ _ (by decide)
  exact Keeps.iteFst hs1 (schedule_keeps (wakeThread_keeps (syncHold_keeps (syncThread_keeps hs11 _) _) _))

theorem setThreadReg_keeps {s u : State} (h : Keeps s u) (t r v : Nat) :
    Keeps s (u.setThreadReg t r v) :=
  Keeps.mk_iff.2 h

theorem setSram_keeps {s t : State} (h : Keeps s t) (core a v : Nat) :
    Keeps s (t.setSram core a v) :=
  Keeps.mk_iff.2 h

theorem execDbgStep_keeps (h : CmdHdr) (core thread : Nat) (writes : List (Nat × Nat)) (s : State) :
    NextKeeps s (execDbgStep h core thread writes s) := by
  unfold execDbgStep
  refine .next (cmd_keeps (.refl _) _ _ _ _ _ (fun s1 hs1 => ?_))
  exact Keeps.iteFst hs1 (Keeps.foldl _ (fun _ _ hu => setThreadReg_keeps hu _ _ _) hs1)

theorem execDbgHold_keeps (h : CmdHdr) (core thread : Nat) (on : Bool) (s : State) :
    NextKeeps s (execDbgHold h core thread on s) := by
  unfold execDbgHold
  refine .next (cmd_keeps (.refl _) _ _ _ _ _ (fun s1 hs1 => ?_))
  exact syncHold_keeps (setThread_keeps hs1 _ _) _

theorem execDbgThreadRead_keeps (h : CmdHdr) (core thread : Nat) (sram : Bool) (first count : Nat) (s : State) :
    NextKeeps s (execDbgThreadRead h core thread sram first count s) := by
  unfold execDbgThreadRead
  refine .next (cmd_keeps (.refl _) _ _ _ _ _ (fun s1 hs1 => ?_))
  exact Keeps.iteFst hs1 hs1

theorem execDbgThreadWrite_keeps (h : CmdHdr) (core thread : Nat) (sram : Bool) (first : Nat) (values : List Nat)
    (s : State) :
    NextKeeps s (execDbgThreadWrite h core thread sram first values s) := by
  unfold execDbgThreadWrite
  refine .next (cmd_keeps (.refl _) _ _ _ _ _ (fun s1 hs1 => ?_))
  exact Keeps.iteFst hs1 (Keeps.foldl _ (fun _ _ hu => Keeps.ite (setSram_keeps hu _ _ _)
    (setThreadReg_keeps hu _ _ _)) hs1)

theorem execDbgChannelRead_keeps (h : CmdHdr) (channel : Nat) (s : State) :
    NextKeeps s (execDbgChannelRead h channel s) := by
  unfold execDbgChannelRead
  refine .next (cmd_keeps (.refl _) _ _ _ _ _ (fun s1 hs1 => ?_))
  exact hs1

theorem execDbgChannelAbort_keeps (h : CmdHdr) (channel : Nat) (s : State) :
    NextKeeps s (execDbgChannelAbort h channel s) := by
  unfold execDbgChannelAbort
  refine .next (cmd_keeps (.refl _) _ _ _ _ _ (fun s1 hs1 => ?_))
  split
  · exact hs1
  · exact Keeps.iteFst hs1 (Keeps.iteFst hs1 (latch_keeps (writeChannel_keeps (setChannel_keeps hs1 _ _) _ _ _) _ _))

end Sys2Proof.Sound
end

section
/-! What the definitions of Machine/HostIf.lean keep: the queue, the outputs, the free values, and soundness. -/

namespace Sys2Proof.Sound

open Sys2Proof.Machine Sys2Proof.Registers

theorem setMailbox_keeps {s t : State} (h : Keeps s t) (m : Nat) (v : Mailbox) :
    Keeps s (t.setMailbox m v) :=
  Keeps.mk_iff.2 h

theorem setMbxReady_keeps {s t : State} (h : Keeps s t) (m : Nat) (b : Bool) :
    Keeps s (t.setMbxReady m b) :=
  Keeps.ite (setBit_keeps h _ _ _ _ (by decide)) (setB_keeps h _ _ _ (by decide))

theorem setMbxEn_keeps {s t : State} (h : Keeps s t) (m : Nat) (b : Bool) :
    Keeps s (t.setMbxEn m b) :=
  Keeps.ite (setBit_keeps h _ _ _ _ (by decide)) (setB_keeps h _ _ _ (by decide))

theorem syncInflight_keeps {s t : State} (h : Keeps s t) :
    Keeps s t.syncInflight :=
  setF_keeps h _ _ _ (by decide)

theorem closeMailbox_keeps {s t : State} (h : Keeps s t) (m : Nat) :
    Keeps s (t.closeMailbox m) :=
  Keeps.ite (setMbxReady_keeps (setMailbox_keeps h _ _) _ _) h

theorem setupMailbox_keeps {s t : State} (h : Keeps s t) (m : Nat) (entry : List Nat) :
    Keeps s (t.setupMailbox m entry) :=
  Keeps.ite (mbxCapture_keeps (mbxEvent_keeps h _ (by decide)) _ _ _)
    (setMbxReady_keeps (setBit_keeps (setF_keeps (setF_keeps (setMailbox_keeps h _ _) _ _ _ (by decide)) _ _ _
    (by decide)) _ _ _ _ (by decide)) _ _)

theorem lateSetups_keeps {s t : State} (h : Keeps s t) :
    Keeps s t.lateSetups := by
  unfold State.lateSetups
  extract_lets src
  refine Keeps.ite h (Keeps.ite ?_ (Keeps.foldl _ (fun _ _ ht1 => setupMailbox_keeps ht1 _ _) (Keeps.mk_iff.2 h)))
  split
  · exact Keeps.ite (setupMailbox_keeps (Keeps.mk_iff.2 h) _ _) h
  · exact h

theorem enableMailbox_keeps {s t : State} (h : Keeps s t) (mbx : Nat) (entry : List Nat) :
    Keeps s (t.enableMailbox mbx entry) := by
  unfold State.enableMailbox
  extract_lets s1 src
  have hs1 : Keeps s s1 := setMbxEn_keeps h _ _
  exact lateSetups_keeps (Keeps.mk_iff.2 hs1)

theorem execMbxEnable_keeps (mbx : Nat) (entry : List Nat) (s : State) :
    NextKeeps s (execMbxEnable mbx entry s) :=
  .next (Keeps.ite (.refl _) (enableMailbox_keeps (.refl _) _ _))

theorem disableMailbox_keeps {s t : State} (h : Keeps s t) (m : Nat) :
    Keeps s (t.disableMailbox m) := by
  unfold State.disableMailbox
  extract_lets s1 src s2 src1
  have hs1 : Keeps s s1 := setMbxEn_keeps h _ _
  have hs2 : Keeps s s2 := Keeps.mk_iff.2 hs1
  exact Keeps.ite (closeMailbox_keeps (setMailbox_keeps hs2 _ _) _) hs2

theorem execMbxDisable_keeps (mbx : Nat) (s : State) :
    NextKeeps s (execMbxDisable mbx s) :=
  .next (Keeps.ite (.refl _) (disableMailbox_keeps (.refl _) _))

theorem sqDoorbell_keeps {s t : State} (h : Keeps s t) (mbx tail : Nat) :
    Keeps s (t.sqDoorbell mbx tail) :=
  Keeps.ite h (Keeps.ite (badDoorbell_keeps h _ _ _) (setMailbox_keeps h _ _))

theorem execMbxSqDoorbell_keeps (mbx tail : Nat) (s : State) :
    NextKeeps s (execMbxSqDoorbell mbx tail s) :=
  .next (sqDoorbell_keeps (.refl _) _ _)

theorem cqDoorbell_keeps {s t : State} (h : Keeps s t) (mbx : Nat) (arm : Bool) (head : Nat) :
    Keeps s (t.cqDoorbell mbx arm head) :=
  Keeps.ite h (Keeps.ite (badDoorbell_keeps h _ _ _) (setMailbox_keeps h _ _))

theorem execMbxCqDoorbell_keeps (mbx : Nat) (arm : Bool) (head : Nat) (s : State) :
    NextKeeps s (execMbxCqDoorbell mbx arm head s) :=
  .next (cqDoorbell_keeps (.refl _) _ _ _)

theorem execCommandFetch_keeps (words : List Nat) (s : State) :
    NextKeeps s (execCommandFetch words s) := by
  unfold execCommandFetch
  extract_lets order src
  refine .next (Keeps.ite (.refl _) ?_)
  split
  · exact .refl _
  · extract_lets head ws next w15 w14 rsp e s1
    have hs1 : Keeps s s1 := Keeps.mk_iff.2 (.refl _)
    exact syncInflight_keeps (setF_keeps hs1 _ _ _ (by decide))

theorem postEntry_keeps {s t : State} (h : Keeps s t) (e : Inflight) (r : Rsp) :
    Keeps s (t.postEntry e r) := by
  unfold State.postEntry
  extract_lets m b tail ws ws1 s1 src s2 next fire s3
  have hs1 : Keeps s s1 := Keeps.ite h (emit_keeps h _)
  have hs2 : Keeps s s2 := Keeps.ite (Keeps.mk_iff.2 hs1) hs1
  have hs3 : Keeps s s3 := setF_keeps (setMailbox_keeps (emit_keeps hs2 _) _ _) _ _ _ (by decide)
  exact Keeps.ite (raiseVector_keeps hs3 _) hs3

theorem execCompletionPost_keeps (mbx : Nat) (s : State) :
    NextKeeps s (execCompletionPost mbx s) := by
  unfold execCompletionPost
  refine .next ?_
  split
  · exact .refl _
  · split
    · exact .refl _
    · extract_lets b full s1 src
      have hs1 : Keeps s s1 := setBit_keeps (postEntry_keeps (.refl _) _ _) _ _ _ _ (by decide)
      exact Keeps.ite (.refl _) (Keeps.ite (mbxEvent_keeps (setBit_keeps (.refl _) _ _ _ _ (by decide)) _
        (by decide)) (closeMailbox_keeps (syncInflight_keeps (Keeps.mk_iff.2 hs1)) _))

theorem resetHost_keeps {s t : State} (h : Keeps s t) :
    Keeps s t.resetHost := by
  unfold State.resetHost
  extract_lets resets smb lost keep src src1 src2 s1 s2
  have hs1 : Keeps s s1 := Keeps.mkRegsFilter h _
  have hs2 : Keeps s s2 := setF_keeps (setF_keeps hs1 _ _ _ (by decide)) _ _ _ (by decide)
  exact Keeps.ite (mbxEvent_keeps hs2 _ (by decide)) hs2

theorem execFlr_keeps (s : State) :
    NextKeeps s (execFlr s) := by
  unfold execFlr
  extract_lets link s1
  have hs1 : Keeps s s1 := setF_keeps (setF_keeps (setF_keeps (resetHost_keeps (.refl _)) _ _ _ (by decide)) _ _ _
    (by decide)) _ _ _ (by decide)
  exact .next (setF_keeps (setF_keeps hs1 _ _ _ (by decide)) _ _ _ (by decide))

theorem execFlrComplete_keeps (s : State) :
    NextKeeps s (execFlrComplete s) :=
  .next (setF_keeps (.refl _) _ _ _ (by decide))

theorem execPerst_keeps (speed width : Nat) (s : State) :
    NextKeeps s (execPerst speed width s) := by
  unfold execPerst
  extract_lets s1
  have hs1 : Keeps s s1 := resetHost_keeps (.refl _)
  exact .next (Keeps.ite hs1 (setF_keeps (setF_keeps (setF_keeps hs1 _ _ _ (by decide)) _ _ _ (by decide)) _ _ _
    (by decide)))

theorem resumeDma_keeps {s t : State} (h : Keeps s t) :
    Keeps s t.resumeDma := by
  unfold State.resumeDma
  extract_lets src s1
  have hs1 : Keeps s s1 := Keeps.mk_iff.2 h
  exact Keeps.ite h (lateSetups_keeps (Keeps.foldl _ (fun _ _ ht1 => emit_keeps ht1 _) hs1))

theorem execD3hotEntry_keeps (s : State) :
    NextKeeps s (execD3hotEntry s) :=
  .next (setF_keeps (.refl _) _ _ _ (by decide))

theorem execD3hotExit_keeps (s : State) :
    NextKeeps s (execD3hotExit s) :=
  .next (resumeDma_keeps (setF_keeps (.refl _) _ _ _ (by decide)))

theorem writeDmaStop_keeps {s t : State} (h : Keeps s t) (stop : Bool) :
    Keeps s (t.writeDmaStop stop) :=
  resumeDma_keeps (setB_keeps h _ _ _ (by decide))

theorem execDmaStopWrite_keeps (stop : Bool) (s : State) :
    NextKeeps s (execDmaStopWrite stop s) :=
  .next (writeDmaStop_keeps (.refl _) _)

theorem pciCapture_keeps {s t : State} (h : Keeps s t) (kind target unit addr : Nat) :
    Keeps s (t.pciCapture kind target unit addr) :=
  Keeps.ite h (setF_keeps (setF_keeps h _ _ _ (by decide)) _ _ _ (by decide))

theorem execDmaReadError_keeps (kind target unit cid addr : Nat) (s : State) :
    NextKeeps s (execDmaReadError kind target unit cid addr s) := by
  unfold execDmaReadError
  extract_lets bit s1 s2 r
  have hbit : bit.free = true := by
    unfold bit
    split
    · decide
    · split <;> decide
  have hs1 : Keeps s s1 := pciCapture_keeps (pciEvent_keeps (.refl _) _ hbit) _ _ _ _
  have hs2 : Keeps s s2 := setMbxReady_keeps (setBit_keeps hs1 _ _ _ _ (by decide)) _ _
  refine .next (Keeps.ite (Keeps.ite (answer_keeps hs1 _ _ _ _) hs1) (Keeps.ite (Keeps.ite hs1 ?_) (Keeps.ite hs1 ?_)))
  · exact mbxCapture_keeps (mbxEvent_keeps hs2 _ (by decide)) _ _ _
  · exact writeBack460_keeps (setRing_keeps hs1 _ _) _ _ _ _ _ _

theorem setSmbus_keeps {s t : State} (h : Keeps s t) (v : SmbusPart) :
    Keeps s (t.setSmbus v) :=
  Keeps.mk_iff.2 h

theorem execSmbusBlockWrite_keeps (words : List Nat) (pecGood : Bool) (s : State) :
    NextKeeps s (execSmbusBlockWrite words pecGood s) := by
  unfold execSmbusBlockWrite
  extract_lets b s1
  have hs1 : Keeps s s1 := setSmbus_keeps (.refl _) _
  exact .next (Keeps.ite (.refl _) (Keeps.ite (mbxEvent_keeps (setSmbus_keeps (.refl _) _) _ (by decide))
    (Keeps.ite hs1 (answer_keeps hs1 _ _ _ _))))

theorem execSmbusStatusRead_keeps (s : State) :
    NextKeeps s (execSmbusStatusRead s) :=
  .next (emit_keeps (.refl _) _)

theorem execSmbusCompletionRead_keeps (s : State) :
    NextKeeps s (execSmbusCompletionRead s) :=
  .next (setSmbus_keeps (emit_keeps (.refl _) _) _)

theorem execSmbusResultRead_keeps (s : State) :
    NextKeeps s (execSmbusResultRead s) :=
  .next (emit_keeps (.refl _) _)

theorem clearIrq_keeps {s t : State} (h : Keeps s t) (mask : Nat) :
    Keeps s (t.clearIrq mask) :=
  updateIntN_keeps (subBits_keeps h .sysIrqStatus 0 mask (by decide))

theorem execSmbusIrqClear_keeps (bit : Nat) (s : State) :
    NextKeeps s (execSmbusIrqClear bit s) :=
  .next (Keeps.ite (clearIrq_keeps (.refl _) _) (.refl _))

theorem cmdRom_keeps {s t : State} (hk : Keeps s t) (c : Instr) (h : CmdHdr) (checks : List Bool)
    (body : State → State × Rsp) (recovery : optParam Bool false) (hbody : ∀ u, Keeps s u → Keeps s (body u).1) :
    Keeps s (t.cmdRom c h checks body recovery) := by
  unfold State.cmdRom
  split
  · exact stopCmd_keeps hk _ _ _
  · split
    · exact finish_keeps hk _ _
    · split
      rename_i _ e
      have hs' := Keeps.fst e (hbody _ hk)
      exact finish_keeps hs' _ _

theorem execSysIdentity_keeps (h : CmdHdr) (s : State) :
    NextKeeps s (execSysIdentity h s) :=
  .next (cmdRom_keeps (.refl _) _ _ _ _ _ (fun _ hs1 => hs1))

theorem execSysStatus_keeps (h : CmdHdr) (s : State) :
    NextKeeps s (execSysStatus h s) := by
  unfold execSysStatus
  refine .next (cmdRom_keeps (.refl _) _ _ _ _ _ (fun s1 hs1 => ?_))
  exact hs1

theorem execMbxNop_keeps (h : CmdHdr) (s : State) :
    NextKeeps s (execMbxNop h s) :=
  .next (cmd_keeps (.refl _) _ _ _ _ _ (fun _ hs1 => hs1))

end Sys2Proof.Sound
end

section
/-! What the definitions of Machine/Faults.lean keep: the queue, the outputs, the free values, and soundness. -/

namespace Sys2Proof.Sound

open Sys2Proof.Machine Sys2Proof.Registers

theorem sramError_keeps {s t : State} (h : Keeps s t) (code addr : Nat) :
    Keeps s (t.sramError code addr) := by
  unfold State.sramError
  extract_lets s1 src
  have hs1 : Keeps s s1 := setF_keeps h _ _ _ (by decide)
  exact Keeps.ite (count_keeps (setF_keeps h _ _ _ (by decide)) _ _) (Keeps.ite (Keeps.mk_iff.2 hs1) h)

theorem execFaultReport_keeps (code inst arg0 arg1 addr master masterIndex access : Nat) (s : State) :
    NextKeeps s (execFaultReport code inst arg0 arg1 addr master masterIndex access s) := by
  unfold execFaultReport
  extract_lets s1 src
  have hs1 : Keeps s s1 := sramError_keeps (.refl _) _ _
  exact .next (report_keeps hs1 _)

theorem execConditionEnd_keeps (code inst : Nat) (s : State) :
    NextKeeps s (execConditionEnd code inst s) :=
  .next (endCondition_keeps (.refl _) _ _)

theorem fillCapture_keeps {s t : State} (hk : Keeps s t) (h : HeldFault) (simul : Bool) :
    Keeps s (t.fillCapture h simul) := by
  unfold State.fillCapture
  extract_lets f s1 s2 s3 s4 s5
  have hs1 : Keeps s s1 := setB_keeps (setB_keeps (setF_keeps (setF_keeps hk _ _ _ (by decide)) _ _ _ (by decide)) _
    _ _ (by decide)) _ _ _ (by decide)
  have hs2 : Keeps s s2 := setF_keeps (setF_keeps (setF_keeps hs1 _ _ _ (by decide)) _ _ _ (by decide)) _ _ _
    (by decide)
  have hs3 : Keeps s s3 := setF_keeps (setF_keeps hs2 _ _ _ (by decide)) _ _ _ (by decide)
  have hs4 : Keeps s s4 := setF_keeps (setF_keeps hs3 _ _ _ (by decide)) _ _ _ (by decide)
  have hs5 : Keeps s s5 := setF_keeps (setF_keeps (setF_keeps hs4 _ _ _ (by decide)) _ _ _ (by decide)) _ _ _
    (by decide)
  exact setF_keeps (setF_keeps hs5 _ _ _ (by decide)) _ _ _ (by decide)

theorem markTied_keeps {s t : State} (hk : Keeps s t) (h : HeldFault) :
    Keeps s (t.markTied h) :=
  Keeps.mk_iff.2 hk

theorem execCaptureWindowClose_keeps (s : State) :
    NextKeeps s (execCaptureWindowClose s) := by
  unfold execCaptureWindowClose
  refine .next ?_
  split
  · exact .refl _
  · extract_lets all min tied simul src s1 s2 s3 order
    have hs1 : Keeps s s1 := Keeps.mk_iff.2 (.refl _)
    have hs2 : Keeps s s2 := by
      unfold s2
      split
      · exact hs1
      · exact addF_keeps (fillCapture_keeps hs1 _ _) _ _ _ (by decide)
    have hs3 : Keeps s s3 := Keeps.ite (Keeps.foldl _ (fun _ _ ht => markTied_keeps ht _) hs2) hs2
    exact Keeps.foldl _ (fun _ _ ht => Keeps.ite ht (Keeps.ite (notifyAt_keeps ht _ _ _ _ _ _ _ _)
      (sendFaultNotif_keeps ht _ _ _ _ _))) hs3

theorem execReefExit_keeps (s : State) :
    NextKeeps s (execReefExit s) := by
  unfold execReefExit
  extract_lets s1 s2 s3 src
  have hs1 : Keeps s s1 := setReduction_keeps (setReduction_keeps (.refl _) _ _ (by decide)) _ _ (by decide)
  have hs2 : Keeps s s2 := count_keeps (setF_keeps (setF_keeps hs1 _ _ _ (by decide)) _ _ _ (by decide)) _ _
  have hs3 : Keeps s s3 := logState_keeps (closeLoss_keeps hs2 _) _
  exact .next (Keeps.ite (.refl _) (updatePins_keeps (syncFlt_keeps (Keeps.mk_iff.2 hs3))))

theorem restartIdle_keeps {s t : State} (h : Keeps s t) :
    Keeps s t.restartIdle :=
  Keeps.mk_iff.2 h

theorem restartUnit_keeps {s t : State} (h : Keeps s t) (u : Nat × Nat) :
    Keeps s (t.restartUnit u) := by
  unfold State.restartUnit
  extract_lets i src src1 taking s1 s2
  have hs1 : Keeps s s1 := setF_keeps h _ _ _ (by decide)
  have hs2 : Keeps s s2 := Keeps.ite hs1 (setF_keeps hs1 _ _ _ (by decide))
  exact Keeps.ite (setF_keeps (Keeps.mk_iff.2 h) _ _ _ (by decide))
    (Keeps.ite (shardRestart_keeps (Keeps.mk_iff.2 h) _) (Keeps.ite
    (Keeps.foldl _ (fun _ _ ht1 => restartThread_keeps ht1 _) hs2) h))

theorem endBarePoles_keeps {s t : State} (h : Keeps s t) :
    Keeps s t.endBarePoles := by
  unfold State.endBarePoles
  extract_lets class_ units s1 s2 exits src s3 s4 src1 s5
  have hs1 : Keeps s s1 := syncLines_keeps (setF_keeps (setF_keeps (setF_keeps h _ _ _ (by decide)) _ _ _
    (by decide)) _ _ _ (by decide))
  have hs2 : Keeps s s2 := logState_keeps (count_keeps (closeLoss_keeps hs1 _) _ _) _
  have hs3 : Keeps s s3 := Keeps.mk_iff.2 hs2
  have hs4 : Keeps s s4 := restartIdle_keeps hs3
  have hs5 : Keeps s s5 := restartQuiet_keeps (Keeps.mk_iff.2 hs4)
  exact updatePins_keeps (syncFlt_keeps (Keeps.foldl _ (fun _ _ ht1 => restartUnit_keeps ht1 _) hs5))

theorem execBarePolesExit_keeps (s : State) :
    NextKeeps s (execBarePolesExit s) :=
  .next (Keeps.ite (.refl _) (Keeps.ite (logState_keeps (raise_keeps
    (setF_keeps (setF_keeps (.refl _) _ _ _ (by decide)) _ _ _ (by decide)) _ _ _ _) _)
    (endBarePoles_keeps (.refl _))))

theorem execCollectorParity_keeps (s : State) :
    NextKeeps s (execCollectorParity s) := by
  unfold execCollectorParity
  extract_lets s1 regs s2 lost src src1 s3
  have hs1 : Keeps s s1 := raise_keeps (.refl _) _ _ _ _
  have hs2 : Keeps s s2 := Keeps.foldl _ (fun _ _ ht => Keeps.foldl _ (fun _ _ hu => wr_keeps hu _ _ _ fun _ => rfl)
    ht) hs1
  have hsrc : Keeps s src := skipNotif_keeps hs2 _ _ _
  have hs3 : Keeps s s3 := Keeps.mk_iff.2 hsrc
  exact .next (updatePins_keeps (syncFlt_keeps (setF_keeps hs3 _ _ _ (by decide))))

theorem execHeartbeatCheck_keeps (beat : Bool) (s : State) :
    NextKeeps s (execHeartbeatCheck beat s) :=
  .next (Keeps.ite (endCondition_keeps (Keeps.mk_iff.2 (.refl _)) _ _)
    (Keeps.ite (.refl _) (raise_keeps (.refl _) _ _ _ _)))

theorem execShardRestart_keeps (shard : Nat) (s : State) :
    NextKeeps s (execShardRestart shard s) :=
  .next (Keeps.ite (.refl _) (shardRestart_keeps (.refl _) _))

theorem execShardRestartComplete_keeps (shard : Nat) (s : State) :
    NextKeeps s (execShardRestartComplete shard s) := by
  unfold execShardRestartComplete
  extract_lets src s1 s2
  have hs1 : Keeps s s1 := Keeps.mk_iff.2 (.refl _)
  have hs2 : Keeps s s2 := Keeps.foldl _ (fun _ _ ht => refill_keeps ht _ _ _) hs1
  exact .next (Keeps.ite (.refl _) (endCondition_keeps (syncStash_keeps hs2 _) _ _))

theorem logPower_keeps {s t : State} (h : Keeps s t) (what : Nat) :
    Keeps s (t.logPower what) :=
  logWrite_keeps h _

theorem prepareSlot_keeps {s t : State} (h : Keeps s t) (i : Nat) :
    Keeps s (t.prepareSlot i) := by
  unfold State.prepareSlot
  extract_lets seq src src1 g src2 s1
  have hs1 : Keeps s s1 := Keeps.mk_iff.2 h
  exact Keeps.ite hs1 (eraseSector_keeps hs1 _)

theorem writeGasp_keeps {s t : State} (h : Keeps s t) :
    Keeps s t.writeGasp :=
  Keeps.ite h (Keeps.mk_iff.2 h)

theorem execPwrfailAssert_keeps (s : State) :
    NextKeeps s (execPwrfailAssert s) := by
  unfold execPwrfailAssert
  extract_lets src s1 s2 src1
  have hs1 : Keeps s s1 := setF_keeps (Keeps.mk_iff.2 (.refl _)) _ _ _ (by decide)
  have hs2 : Keeps s s2 := logPower_keeps (raise_keeps hs1 _ _ _ _) _
  exact .next (Keeps.ite (.refl _) (Keeps.ite (logPower_keeps hs1 _) (writeGasp_keeps (Keeps.mk_iff.2 hs2))))

theorem execLastGaspCommit_keeps (s : State) :
    NextKeeps s (execLastGaspCommit s) := by
  unfold execLastGaspCommit
  extract_lets t src s1
  have hs1 : Keeps s s1 := Keeps.mk_iff.2 (.refl _)
  exact .next (Keeps.ite (.refl _) (logPower_keeps (setF_keeps hs1 _ _ _ (by decide)) _))

theorem execPwrfailRelease_keeps (s : State) :
    NextKeeps s (execPwrfailRelease s) := by
  unfold execPwrfailRelease
  extract_lets src s1 s2 i src1 src2 s3
  have hs1 : Keeps s s1 := Keeps.mk_iff.2 (.refl _)
  have hs2 : Keeps s s2 := logPower_keeps (raise_keeps hs1 _ _ _ _) _
  have hs3 : Keeps s s3 := Keeps.mk_iff.2 hs2
  exact .next (Keeps.ite (.refl _) (Keeps.ite hs1 (setF_keeps (prepareSlot_keeps hs3 _) _ _ _ (by decide))))

theorem execServiceSecond_keeps (s : State) :
    NextKeeps s (execServiceSecond s) :=
  .next (Keeps.ite (setF_keeps (.refl _) _ _ _ (by decide)) (.refl _))

theorem restartLog_keeps {s t : State} (h : Keeps s t) :
    Keeps s t.restartLog :=
  setF_keeps (Keeps.mk_iff.2 h) _ _ _ (by decide)

theorem execLogRestartWrite_keeps (s : State) :
    NextKeeps s (execLogRestartWrite s) :=
  .next (restartLog_keeps (.refl _))

theorem execFltRead_keeps (h : CmdHdr) (index : Nat) (s : State) :
    NextKeeps s (execFltRead h index s) := by
  unfold execFltRead
  refine .next (cmd_keeps (.refl _) _ _ _ _ _ (fun s1 hs1 => Keeps.iteFst (Keeps.iteFst hs1 hs1) ?_))
  split
  · exact hs1
  · exact Keeps.mk_iff.2 hs1

theorem recordLive_keeps {s t : State} (h : Keeps s t) (r : FltRec) :
    Keeps s (t.recordLive r) := by
  unfold State.recordLive
  split
  · exact Keeps.mk_iff.2 h
  · exact h

theorem execFltClear_keeps (h : CmdHdr) (index : Nat) (s : State) :
    NextKeeps s (execFltClear h index s) := by
  unfold execFltClear
  refine .next (cmd_keeps (.refl _) _ _ _ _ _ (fun s1 hs1 => Keeps.iteFst (setF_keeps hs1 _ _ _ (by decide)) ?_))
  split
  · exact hs1
  · extract_lets src s11
    have hs11 : Keeps s s11 := Keeps.mk_iff.2 hs1
    exact updatePins_keeps (syncFlt_keeps (recordLive_keeps hs11 _))

theorem execFltConfig_keeps (h : CmdHdr) (code : Nat) (notify intn : Bool) (s : State) :
    NextKeeps s (execFltConfig h code notify intn s) :=
  .next (cmd_keeps (.refl _) _ _ _ _ _ (fun _ hs1 => Keeps.mk_iff.2 hs1))

theorem execLogRead_keeps (h : CmdHdr) (first count : Nat) (s : State) :
    NextKeeps s (execLogRead h first count s) := by
  unfold execLogRead
  refine .next (cmdRom_keeps (.refl _) _ _ _ _ _ (fun s1 hs1 => ?_))
  exact hs1

theorem execLogMarker_keeps (h : CmdHdr) (code word : Nat) (s : State) :
    NextKeeps s (execLogMarker h code word s) :=
  .next (cmd_keeps (.refl _) _ _ _ _ _ (fun _ hs1 => logWrite_keeps hs1 _))

theorem execAvailRead_keeps (h : CmdHdr) (s : State) :
    NextKeeps s (execAvailRead h s) := by
  unfold execAvailRead
  refine .next (cmd_keeps (.refl _) _ _ _ _ _ (fun s1 hs1 => ?_))
  exact hs1

theorem execAvailReset_keeps (h : CmdHdr) (s : State) :
    NextKeeps s (execAvailReset h s) := by
  unfold execAvailReset
  refine .next (cmd_keeps (.refl _) _ _ _ _ _ (fun s1 hs1 => ?_))
  extract_lets s11 src
  have hs11 : Keeps s s11 := setF_keeps (setLossTime_keeps hs1 _) _ _ _ (by decide)
  exact Keeps.mk_iff.2 hs11

end Sys2Proof.Sound
end

section
/-! What the definitions of Machine/Life.lean keep: the queue, the outputs, the free values, and soundness. -/

namespace Sys2Proof.Sound

open Sys2Proof.Machine Sys2Proof.Registers

theorem setSource_keeps {s t : State} (h : Keeps s t) (k : Nat) (w : WearSource) :
    Keeps s (t.setSource k w) :=
  Keeps.mk_iff.2 h

theorem syncLife_keeps {s t : State} (h : Keeps s t) :
    Keeps s t.syncLife := by
  unfold State.syncLife
  extract_lets w d s1 s2
  have hs1 : Keeps s s1 := setB_keeps (setF_keeps h _ _ _ (by decide)) _ _ _ (by decide)
  have hs2 : Keeps s s2 := setF_keeps (setB_keeps hs1 _ _ _ (by decide)) _ _ _ (by decide)
  exact setF_keeps hs2 _ _ _ (by decide)

theorem lifeAlarm_keeps {s t : State} (h : Keeps s t) (k months : Nat) :
    Keeps s (t.lifeAlarm k months) :=
  raise_keeps (setF_keeps h _ _ _ (by decide)) _ _ _ _

theorem lifeExceeds_keeps {s t : State} (h : Keeps s t) (k : Nat) :
    Keeps s (t.lifeExceeds k) :=
  Keeps.ite h (lifeAlarm_keeps (setF_keeps (setSource_keeps h _ _) _ _ _ (by decide)) _ _)

theorem addSample_keeps {s t : State} (h : Keeps s t) (k : Nat) (v : Int) :
    Keeps s (t.addSample k v) :=
  setSource_keeps h _ _

theorem sampleSensor_keeps {s t : State} (h : Keeps s t) (n stressed fresh : Nat) :
    Keeps s (t.sampleSensor n stressed fresh) :=
  Keeps.ite (setSource_keeps h _ _) (addSample_keeps (setSource_keeps h _ _) _ _)

theorem sampleChannel_keeps {s t : State} (h : Keeps s t) (g : Nat) :
    Keeps s (t.sampleChannel g) :=
  Keeps.ite (Keeps.ite (lifeExceeds_keeps h _) h) (addSample_keeps (setSource_keeps h _ _) _ _)

theorem sampleLane_keeps {s t : State} (h : Keeps s t) (k margin : Nat) :
    Keeps s (t.sampleLane k margin) := by
  unfold State.sampleLane
  split
  · exact h
  · extract_lets key rate i s1 old fresh src w s11 base
    have hs1 : Keeps s s1 := setPort_keeps h _ _
    have hs11 : Keeps s s11 := setSource_keeps hs1 _ _
    exact Keeps.ite (Keeps.ite (lifeExceeds_keeps hs11 _) hs11) (addSample_keeps (setSource_keeps hs1 _ _) _ _)

theorem sampleThermal_keeps {s t : State} (h : Keeps s t) (fore aft : Int) :
    Keeps s (t.sampleThermal fore aft) := by
  unfold State.sampleThermal
  extract_lets t1 x s1 put s2
  have hs1 : Keeps s s1 := setF_keeps (setF_keeps h _ _ _ (by decide)) _ _ _ (by decide)
  have hput : ∀ u falling e, Keeps s u → Keeps s (put u falling e) := fun _ _ _ hu => Keeps.mk_iff.2 hu
  have hs2 : Keeps s s2 := addF_keeps (hput _ _ _ hs1) _ _ _ (by decide)
  exact Keeps.ite (Keeps.ite (hput _ _ _ hs1) (hput _ _ _ hs1)) (Keeps.ite (addSample_keeps hs2 _ _) (hput _ _ _ hs1))

theorem sampleTaken_keeps {s t : State} (h : Keeps s t) (m : Measure) :
    Keeps s (t.sampleTaken m) := by
  unfold State.sampleTaken
  split
  · exact h
  · exact setSource_keeps h _ _

theorem execLifeSample_keeps (m : Measure) (good : Bool) (s : State) :
    NextKeeps s (execLifeSample m good s) := by
  unfold execLifeSample
  extract_lets bad
  have hbad : Keeps s bad := setF_keeps (.refl _) _ _ _ (by decide)
  refine .next (Keeps.ite (.refl _) (Keeps.ite (.refl _) (Keeps.ite hbad (syncLife_keeps (sampleTaken_keeps ?_ _)))))
  split
  · exact Keeps.ite (.refl _) (Keeps.ite hbad (sampleSensor_keeps (.refl _) _ _ _))
  · exact Keeps.ite (sampleChannel_keeps (.refl _) _) (.refl _)
  · exact Keeps.ite (sampleLane_keeps (.refl _) _ _) (.refl _)
  · exact Keeps.ite (addSample_keeps (.refl _) _ _) (.refl _)
  · exact sampleThermal_keeps (.refl _) _ _

theorem checkAlarm_keeps {s t : State} (h : Keeps s t) (k months : Nat) :
    Keeps s (t.checkAlarm k months) :=
  Keeps.ite (lifeAlarm_keeps (setSource_keeps h _ _) _ _) h

theorem predict_keeps {s t : State} (h : Keeps s t) :
    Keeps s t.predict := by
  unfold State.predict
  extract_lets ms worst dev s1 src s2 s3 src1 s4
  have hs1 : Keeps s s1 := Keeps.foldl _ (fun _ _ ht1 => setSource_keeps ht1 _ _) h
  have hs2 : Keeps s s2 := setSource_keeps hs1 _ _
  have hs3 : Keeps s s3 := setF_keeps (setF_keeps hs2 _ _ _ (by decide)) _ _ _ (by decide)
  have hs4 : Keeps s s4 := Keeps.mk_iff.2 hs3
  exact syncLife_keeps (Keeps.foldl _ (fun _ _ ht1 => checkAlarm_keeps ht1 _ _) hs4)

theorem execLifePrediction_keeps (s : State) :
    NextKeeps s (execLifePrediction s) :=
  .next (Keeps.ite (.refl _) (predict_keeps (.refl _)))

theorem execWearAccWrite_keeps (verified : Bool) (s : State) :
    NextKeeps s (execWearAccWrite verified s) := by
  unfold execWearAccWrite
  extract_lets i seq s1 src s2
  have hs1 : Keeps s s1 := eraseSector_keeps (.refl _) _
  have hs2 : Keeps s s2 := Keeps.mk_iff.2 hs1
  exact .next (Keeps.ite (.refl _) (Keeps.ite (setF_keeps (setF_keeps (setF_keeps hs2 _ _ _ (by decide)) _ _ _
    (by decide)) _ _ _ (by decide)) (setF_keeps hs2 _ _ _ (by decide))))

theorem restoreWear_keeps {s t : State} (h : Keeps s t) (cold : Bool) (gasp : Option (Nat × Nat)) :
    Keeps s (t.restoreWear cold gasp) := by
  unfold State.restoreWear
  extract_lets torn s1 acc best s11 src
  have hs1 : Keeps s s1 := setB_keeps h _ _ _ (by decide)
  have hs11 : Keeps s s11 := by
    unfold s11
    clear_value best
    split
    · exact Keeps.ite (setF_keeps (setLossTime_keeps hs1 _) _ _ _ (by decide)) hs1
    · exact hs1
  split
  · exact syncLife_keeps (Keeps.mk_iff.2 hs11)
  · extract_lets s2 s3
    have hs2 : Keeps s s2 := Keeps.mk_iff.2 hs11
    have hs3 : Keeps s s3 := setF_keeps (setF_keeps (setF_keeps hs2 _ _ _ (by decide)) _ _ _ (by decide)) _ _ _
      (by decide)
    exact syncLife_keeps hs3

theorem execLifeReport_keeps (h : CmdHdr) (source : Nat) (s : State) :
    NextKeeps s (execLifeReport h source s) := by
  unfold execLifeReport
  refine .next (cmd_keeps (.refl _) _ _ _ _ _ (fun s1 hs1 => ?_))
  exact hs1

theorem execLifeConfig_keeps (h : CmdHdr) (alarmMonths : Nat) (s : State) :
    NextKeeps s (execLifeConfig h alarmMonths s) :=
  .next (cmd_keeps (.refl _) _ _ _ _ _ (fun _ hs1 => setF_keeps hs1 _ _ _ (by decide)))

end Sys2Proof.Sound
end

section
/-! What the definitions of Machine/RigCmds.lean keep: the queue, the outputs, the free values, and soundness. -/

namespace Sys2Proof.Sound

open Sys2Proof.Machine Sys2Proof.Registers

theorem setVersion_keeps {s t : State} (h : Keeps s t) (f : Fld) (epoch v : Nat) (hf : f.free = true) :
    Keeps s (t.setVersion f epoch v) :=
  Keeps.foldl _ (fun _ _ ht1 => setF_keeps ht1 _ _ _ hf) h

theorem failedLoad_keeps {s t : State} (h : Keeps s t) (epoch : Nat) :
    Keeps s (t.failedLoad epoch) :=
  setVersion_keeps (setVersion_keeps h _ _ _ (by decide)) _ _ _ (by decide)

theorem loadImage_keeps {s t : State} (h : Keeps s t) (im : RigImage) (region epoch key : Nat) :
    Keeps s (t.loadImage im region epoch key) := by
  unfold State.loadImage
  extract_lets base store start entries standard old src s1 s2
  have hs1 : Keeps s s1 := Keeps.mk_iff.2 h
  have hs2 : Keeps s s2 := setVersion_keeps (setVersion_keeps (setVersion_keeps hs1 _ _ _ (by decide)) _ _ _
    (by decide)) _ _ _ (by decide)
  exact setVersion_keeps (setVersion_keeps (setVersion_keeps hs2 _ _ _ (by decide)) _ _ _ (by decide)) _ _ _
    (by decide)

theorem execRigLoad_keeps (h : CmdHdr) (image : List Nat) (key : Nat) (s : State) :
    NextKeeps s (execRigLoad h image key s) := by
  unfold execRigLoad
  refine .next (cmd_keeps (.refl _) _ _ _ _ _ (fun s1 hs1 => ?_))
  extract_lets e
  refine Keeps.iteFst hs1 (Keeps.iteFst (failedLoad_keeps hs1 _) ?_)
  split
  · exact failedLoad_keeps hs1 _
  · exact loadImage_keeps hs1 _ _ _ _

theorem execRigEntrySet_keeps (h : CmdHdr) (entry : Nat) (valid ep0 ep1 : Bool) (limit : Nat) (s : State) :
    NextKeeps s (execRigEntrySet h entry valid ep0 ep1 limit s) := by
  unfold execRigEntrySet
  refine .next (cmd_keeps (.refl _) _ _ _ _ _ (fun s1 hs1 => ?_))
  split
  exact Keeps.iteFst hs1 (Keeps.mk_iff.2 hs1)

theorem execRigStatus_keeps (h : CmdHdr) (s : State) :
    NextKeeps s (execRigStatus h s) := by
  unfold execRigStatus
  refine .next (cmd_keeps (.refl _) _ _ _ _ _ (fun s1 hs1 => ?_))
  exact hs1

theorem putHbmRow_keeps {s t : State} (h : Keeps s t) (row : Nat) (ws : List Nat) :
    Keeps s (t.putHbmRow row ws) :=
  cleanse_keeps (Keeps.mk_iff.2 h) _ _

theorem putHbmRows_keeps {s t : State} (h : Keeps s t) (a : Nat) (a1 : List (List Nat)) :
    Keeps s (t.putHbmRows a a1) := by
  induction a1 generalizing t a with
  | nil =>
    rw [State.putHbmRows]
    exact h
  | cons x rest ih =>
    rw [State.putHbmRows]
    exact ih (putHbmRow_keeps h _ _) _

theorem execRigTableWrite_keeps (h : CmdHdr) (kind first : Nat) (rows : List (List Nat)) (s : State) :
    NextKeeps s (execRigTableWrite h kind first rows s) :=
  .next (cmd_keeps (.refl _) _ _ _ _ _ (fun _ hs1 => Keeps.iteFst (Keeps.mk_iff.2 hs1) (putHbmRows_keeps hs1 _ _)))

theorem execPolProfileSet_keeps (h : CmdHdr) (index cir pir cbs pbs : Nat) (aware : Bool) (s : State) :
    NextKeeps s (execPolProfileSet h index cir pir cbs pbs aware s) :=
  .next (cmd_keeps (.refl _) _ _ _ _ _ (fun _ hs1 => Keeps.mk_iff.2 hs1))

theorem execLbPoolSet_keeps (h : CmdHdr) (pool seed : Nat) (backends : List Nat) (s : State) :
    NextKeeps s (execLbPoolSet h pool seed backends s) := by
  unfold execLbPoolSet
  refine .next (cmd_keeps (.refl _) _ _ _ _ _ (fun s1 hs1 => ?_))
  split
  · exact hs1
  · extract_lets old s11 src
    have hs11 : Keeps s s11 := putHbmRows_keeps (drawOne_keeps hs1) _ _
    exact Keeps.mk_iff.2 hs11

theorem execLbBackendSet_keeps (h : CmdHdr) (backend address port state : Nat) (s : State) :
    NextKeeps s (execLbBackendSet h backend address port state s) :=
  .next (cmd_keeps (.refl _) _ _ _ _ _ (fun _ hs1 => Keeps.mk_iff.2 hs1))

end Sys2Proof.Sound
end

section
/-! What the definitions of Machine/Boot.lean keep: the queue, the outputs, the free values, and soundness. -/

namespace Sys2Proof.Sound

open Sys2Proof.Machine Sys2Proof.Registers

theorem setBoot_keeps {s t : State} (h : Keeps s t) (n : Nat) :
    Keeps s (t.setBoot n) :=
  setF_keeps h _ _ _ (by decide)

theorem sampleStraps_keeps {s t : State} (h : Keeps s t) (v : Straps) :
    Keeps s (t.sampleStraps v) := by
  unfold State.sampleStraps
  extract_lets s1
  have hs1 : Keeps s s1 := setB_keeps (setF_keeps (setF_keeps (setF_keeps h _ _ _ (by decide)) _ _ _ (by decide)) _ _
    _ (by decide)) _ _ _ (by decide)
  exact setF_keeps (setF_keeps hs1 _ _ _ (by decide)) _ _ _ (by decide)

theorem afterPowerOn_keeps {s t : State} (h : Keeps s t) (persistent : Bool) :
    Keeps s (t.afterPowerOn persistent) :=
  ⟨h.queue, h.drawn, h.out, fun _ => ⟨⟨rfl, fun _ hm => absurd hm List.not_mem_nil⟩, fun _ _ => rfl, rfl,
    fun _ hm => absurd hm List.not_mem_nil⟩⟩

theorem warmReset_keeps {s t : State} (h : Keeps s t) (causes : List Fld) (hf : ∀ f ∈ causes, f.free = true) :
    Keeps s (t.warmReset causes) := by
  unfold State.warmReset
  extract_lets s1 t1 src src1 src2 t11 t2 t3 latched
  have hs1 : Keeps s s1 := closeLoss_keeps h _
  have ht1 : Keeps s t1 := afterPowerOn_keeps hs1 _
  have ht11 : Keeps s t11 := Keeps.mk_iff.2 ht1
  have ht2 : Keeps s t2 := Keeps.foldl _ (fun _ _ hu => Keeps.foldl _ (fun _ _ hv => wrOf_keeps hv hs1 _ _) hu) ht11
  have ht3 : Keeps s t3 := setF_keeps (setF_keeps ht2 _ _ _ (by decide)) _ _ _ (by decide)
  refine foldlMem_keeps _ (fun u f hm hu => setF_keeps hu _ _ _ ?_) ht3
  rcases List.mem_append.1 hm with hm | hm
  · exact hf f hm
  · revert hm
    unfold latched
    split
    · intro hm
      cases List.mem_singleton.1 hm
      decide
    · intro hm
      cases hm

theorem execPowerOnReset_keeps (straps : Straps) (persistent : Bool) (s : State) :
    NextKeeps s (execPowerOnReset straps persistent s) :=
  .next (sampleStraps_keeps (afterPowerOn_keeps (.refl _) _) _)

theorem execPowerLoss_keeps (s : State) :
    NextKeeps s (execPowerLoss s) := by
  unfold execPowerLoss
  extract_lets t src
  have ht : Keeps s t := afterPowerOn_keeps (.refl _) _
  exact .next (Keeps.mk_iff.2 ht)

theorem execPinReset_keeps (straps : Straps) (s : State) :
    NextKeeps s (execPinReset straps s) :=
  .next (Keeps.ite (.refl _) (sampleStraps_keeps (warmReset_keeps (.refl _) _ (by decide)) _))

theorem writeReset_keeps {s t : State} (h : Keeps s t) (key : Nat) (warm : Bool) :
    Keeps s (t.writeReset key warm) :=
  Keeps.ite (warmReset_keeps h _ (by decide)) h

theorem execWarmResetWrite_keeps (key : Nat) (warm : Bool) (s : State) :
    NextKeeps s (execWarmResetWrite key warm s) :=
  .next (writeReset_keeps (.refl _) _ _)

theorem execThermalTrip_keeps (s : State) :
    NextKeeps s (execThermalTrip s) := by
  unfold execThermalTrip
  extract_lets t src
  have ht : Keeps s t := warmReset_keeps (.refl _) _ (by decide)
  exact .next (Keeps.ite (.refl _) (Keeps.mk_iff.2 ht))

theorem setNorSlot_keeps {s t : State} (h : Keeps s t) (i : Nat) (v : NorSlot) :
    Keeps s (t.setNorSlot i v) :=
  eraseSector_keeps (Keeps.mk_iff.2 h) _

theorem logBoot_keeps {s t : State} (h : Keeps s t) :
    Keeps s t.logBoot :=
  logWrite_keeps h _

theorem bootFailed_keeps {s t : State} (h : Keeps s t) :
    Keeps s t.bootFailed :=
  updatePins_keeps (setBoot_keeps (logBoot_keeps h) _)

theorem setRail_keeps {s t : State} (h : Keeps s t) (aft : Bool) (mv : Nat) :
    Keeps s (t.setRail aft mv) :=
  emit_keeps (Keeps.mk_iff.2 h) _

theorem endRom_keeps {s t : State} (h : Keeps s t) :
    Keeps s t.endRom := by
  unfold State.endRom
  extract_lets s1 src s2 s3 src1 s4 src2
  have hs1 : Keeps s s1 := addF_keeps h _ _ _ (by decide)
  have hs2 : Keeps s s2 := setF_keeps (Keeps.mk_iff.2 hs1) _ _ _ (by decide)
  have hs3 : Keeps s s3 := setRail_keeps (setRail_keeps hs2 _ _) _ _
  have hs4 : Keeps s s4 := updatePins_keeps hs3
  exact Keeps.ite (bootFailed_keeps hs4) (Keeps.ite (lateSetups_keeps (setBoot_keeps (Keeps.mk_iff.2 hs4) _))
    (setBoot_keeps hs4 _))

theorem endCheck_keeps {s t : State} (h : Keeps s t) :
    Keeps s t.endCheck := by
  unfold State.endCheck
  extract_lets order bad src s1 src1
  have hs1 : Keeps s s1 := Keeps.mk_iff.2 h
  refine Keeps.ite h ?_
  split
  · exact bootFailed_keeps hs1
  · exact setBoot_keeps (Keeps.mk_iff.2 hs1) _

theorem endTraining_keeps {s t : State} (h : Keeps s t) :
    Keeps s t.endTraining := by
  unfold State.endTraining
  extract_lets s1 s2
  have hs1 : Keeps s s1 := Keeps.foldl _ (fun _ _ ht1 => setF_keeps ht1 _ _ _ (by decide)) h
  have hs2 : Keeps s s2 := Keeps.foldl _ (fun _ _ ht1 => setF_keeps
    (setF_keeps (setF_keeps (setBit_keeps ht1 _ _ _ _ (by decide)) _ _ _ (by decide)) _ _ _ (by decide)) _ _ _
    (by decide)) hs1
  exact setBoot_keeps hs2 _

theorem readGasp_keeps {s t : State} (h : Keeps s t) :
    Keeps s t.readGasp := by
  unfold State.readGasp
  extract_lets best torn s1
  have hs1 : Keeps s s1 := setB_keeps (setB_keeps h _ _ _ (by decide)) _ _ _ (by decide)
  clear_value s1 best
  split
  · exact prepareSlot_keeps hs1 _
  · extract_lets g s2 s3
    have hs2 : Keeps s s2 := Keeps.foldl _ (fun _ _ hu => logWrite_keeps hu _) hs1
    have hs3 : Keeps s s3 := setF_keeps (setF_keeps (setF_keeps hs2 _ _ _ (by decide)) _ _ _ (by decide)) _ _ _
        (by decide)
    exact prepareSlot_keeps hs3 _

theorem drawSeeds_keeps {s t : State} (h : Keeps s t) :
    Keeps s t.drawSeeds := by
  unfold State.drawSeeds
  extract_lets own
  split
  rename_i s3 _ e
  have hs3 : Keeps s s3 := by
    refine Keeps.fst e ?_
    split
    · exact h
    · exact drawOne_keeps h
  extract_lets rule s2 index s31 src src1 s4
  have hs2 : Keeps s s2 := drawOne_keeps hs3
  have hs31 : Keeps s s31 := drawOne_keeps hs2
  have hs4 : Keeps s s4 := Keeps.mk_iff.2 hs31
  exact setB_keeps hs4 _ _ _ (by decide)

theorem loadStandard_keeps {s t : State} (h : Keeps s t) :
    Keeps s t.loadStandard := by
  unfold State.loadStandard
  extract_lets v s1 entries src s2 key
  have hs1 : Keeps s s1 := drawOne_keeps h
  have hs2 : Keeps s s2 := Keeps.mkDraw hs1
  refine Keeps.foldl _ (fun t1 e ht1 => ?_) hs2
  extract_lets t11
  have ht11 : Keeps s t11 := setVersion_keeps (setVersion_keeps (setVersion_keeps ht1 _ _ _ (by decide)) _ _ _
    (by decide)) _ _ _ (by decide)
  exact setVersion_keeps (setVersion_keeps (setVersion_keeps ht11 _ _ _ (by decide)) _ _ _ (by decide)) _ _ _
    (by decide)

theorem setLocks_keeps {s t : State} (h : Keeps s t) :
    Keeps s t.setLocks := by
  have hfree : ∀ f ∈ lockFields, f.free = true := by decide
  exact foldlMem_keeps _ (fun _ f hm ht1 =>
    Keeps.foldl _ (fun _ _ hu => Keeps.ite hu (setF_keeps hu _ _ _ (hfree f hm))) ht1) h

theorem startMaster_keeps {s t : State} (h : Keeps s t) :
    Keeps s t.startMaster := by
  unfold State.startMaster
  extract_lets s1 up
  have hs1 : Keeps s s1 := setF_keeps (setF_keeps (setF_keeps h _ _ _ (by decide)) _ _ _ (by decide)) _ _ _
    (by decide)
  exact Keeps.ite (Keeps.foldl _ (fun _ _ ht1 => sendBulk_keeps ht1 _ _) hs1) h

theorem endRecovery_keeps {s t : State} (h : Keeps s t) :
    Keeps s t.endRecovery := by
  unfold State.endRecovery
  split
  · exact h
  · exact answer_keeps (Keeps.mk_iff.2 h) _ _ _ _

theorem firmwareStart_keeps {s t : State} (h : Keeps s t) (setup : CrdSetup) :
    Keeps s (t.firmwareStart setup) := by
  unfold State.firmwareStart
  extract_lets slot version s1 src s2 gasp s3 src1 s4 s5 s6
  have hs1 : Keeps s s1 := wrFree_keeps (startCriod_keeps h _) _ _ _ (by decide)
  have hs2 : Keeps s s2 := Keeps.mk_iff.2 hs1
  have hs3 : Keeps s s3 := drawSeeds_keeps (readGasp_keeps (logBoot_keeps (restoreWear_keeps hs2 _ _)))
  have hs4 : Keeps s s4 := syncGraph_keeps (Keeps.mk_iff.2 hs3)
  have hs5 : Keeps s s5 := startMaster_keeps (setF_keeps (setLocks_keeps (loadStandard_keeps hs4)) _ _ _ (by decide))
  have hs6 : Keeps s s6 := raiseIrq_keeps (resumeLoss_keeps (setBoot_keeps (setF_keeps hs5 _ _ _ (by decide)) _)) _
      (by decide)
  exact lateSetups_keeps (endRecovery_keeps hs6)

theorem execBootStageComplete_keeps (setup : CrdSetup) (s : State) :
    NextKeeps s (execBootStageComplete setup s) := by
  unfold execBootStageComplete
  extract_lets n t src
  have ht : Keeps s t := setBoot_keeps (.refl _) _
  exact .next (Keeps.ite (.refl _) (Keeps.ite (Keeps.ite (.refl _) (endRom_keeps (.refl _)))
    (Keeps.ite (endCheck_keeps (.refl _)) (Keeps.ite (endTraining_keeps (.refl _))
    (Keeps.ite (Keeps.mk_iff.2 ht) (Keeps.ite (Keeps.ite (firmwareStart_keeps (.refl _) _) (.refl _)) (.refl _)))))))

theorem execBootWatchdog_keeps (s : State) :
    NextKeeps s (execBootWatchdog s) := by
  unfold execBootWatchdog
  refine .next ?_
  split
  · exact .refl _
  · extract_lets i n src s1
    have hs1 : Keeps s s1 := Keeps.mk_iff.2 (.refl _)
    exact Keeps.ite (.refl _) (warmReset_keeps hs1 _ (by decide))

theorem execSysDebugChallenge_keeps (h : CmdHdr) (s : State) :
    NextKeeps s (execSysDebugChallenge h s) := by
  unfold execSysDebugChallenge
  refine .next (cmd_keeps (.refl _) _ _ _ _ _ (fun s1 hs1 => Keeps.iteFst hs1 (Keeps.iteFst hs1 ?_)))
  exact Keeps.mkDraw hs1

theorem execSysDebugUnlock_keeps (h : CmdHdr) (key : Nat) (s : State) :
    NextKeeps s (execSysDebugUnlock h key s) := by
  unfold execSysDebugUnlock
  refine .next (cmd_keeps (.refl _) _ _ _ _ _ (fun s1 hs1 => ?_))
  split
  · exact hs1
  · extract_lets src s11 src1
    have hs11 : Keeps s s11 := Keeps.mk_iff.2 hs1
    exact Keeps.iteFst hs11 (Keeps.iteFst (setF_keeps hs11 _ _ _ (by decide)) (Keeps.mk_iff.2 hs11))

theorem execNonceExpiry_keeps (s : State) :
    NextKeeps s (execNonceExpiry s) := by
  unfold execNonceExpiry
  refine .next ?_
  split
  · exact Keeps.ite (.refl _) (Keeps.mk_iff.2 (.refl _))
  · exact .refl _

theorem rotate_keeps {s t : State} (h : Keeps s t) :
    Keeps s t.rotate := by
  unfold State.rotate
  split
  · exact h
  · split
    · exact coreFail_keeps (Keeps.mk_iff.2 h) _ _ _
    · exact answer_keeps (wrFree_keeps (Keeps.mk_iff.2 h) _ _ _ (by decide)) _ _ _ _

theorem recoverImage_keeps {s t : State} (hk : Keeps s t) (h : CmdHdr) (image : List Nat) (key : Nat)
    (written : Bool) :
    Keeps s (t.recoverImage h image key written).1 := by
  unfold State.recoverImage
  extract_lets seq s1 u src
  have hs1 : Keeps s s1 := setNorSlot_keeps hk _ _
  exact Keeps.iteFst hk (Keeps.iteFst hk (Keeps.iteFst hk (Keeps.iteFst hk (setBoot_keeps (Keeps.mk_iff.2 hs1) _))))

theorem updateImage_keeps {s t : State} (hk : Keeps s t) (h : CmdHdr) (image : List Nat) (key : Nat) (written : Bool) :
    Keeps s (t.updateImage h image key written).1 := by
  unfold State.updateImage
  extract_lets slot running s1 version active u src
  have hs1 : Keeps s s1 := setNorSlot_keeps hk _ _
  refine Keeps.iteFst hk ?_
  split
  · exact hk
  · refine Keeps.iteFst hk (Keeps.iteFst hk (Keeps.iteFst hk (Keeps.iteFst hs1 ?_)))
    dsimp only
    exact rotate_keeps (Keeps.mk_iff.2 hs1)

theorem execSysFwUpdate_keeps (h : CmdHdr) (image : List Nat) (key : Nat) (written : Bool) (s : State) :
    NextKeeps s (execSysFwUpdate h image key written s) := by
  unfold execSysFwUpdate
  refine .next ?_
  split
  · exact stopCmd_keeps (.refl _) _ _ _
  · split
    · rename_i _ e
      have hs' := Keeps.fst e (Keeps.iteFst (Keeps.iteFst (recoverImage_keeps (.refl _) _ _ _ _) (.refl _))
        (updateImage_keeps (.refl _) _ _ _ _))
      exact finish_keeps hs' _ _
    · rename_i e
      have hs' := Keeps.fst e (Keeps.iteFst (Keeps.iteFst (recoverImage_keeps (.refl _) _ _ _ _) (.refl _))
        (updateImage_keeps (.refl _) _ _ _ _))
      exact beginCmd_keeps hs' _

theorem execCoreLogicTestEnd_keeps (core : Nat) (passed : Bool) (s : State) :
    NextKeeps s (execCoreLogicTestEnd core passed s) :=
  .next (Keeps.ite (.refl _) (Keeps.ite (rotate_keeps (becomeBackstay_keeps (.refl _) _))
    (failUpdate_keeps (goOffline_keeps (.refl _) _))))

theorem furlTraffic_keeps {s t : State} (h : Keeps s t) :
    Keeps s t.furlTraffic := by
  unfold State.furlTraffic
  extract_lets ports s1 s2 gone s3 src
  have hs1 : Keeps s s1 := Keeps.foldl _ (fun _ _ ht1 => linkFault_keeps
    (setF_keeps (setF_keeps (setF_keeps ht1 _ _ _ (by decide)) _ _ _ (by decide)) _ _ _ (by decide)) _) h
  have hs2 : Keeps s s2 := Keeps.foldl _ (fun _ _ ht1 => loseCopy_keeps ht1 _) hs1
  have hs3 : Keeps s s3 := Keeps.foldl _ (fun _ _ ht1 => discardPkt_keeps ht1 _) hs2
  exact idleCredits_keeps (Keeps.mk_iff.2 hs3)

theorem flushLines_keeps {s t : State} (h : Keeps s t) :
    Keeps s t.flushLines :=
  Keeps.foldl _ (fun _ _ ht1 => setLine_keeps (writeBack_keeps ht1 _) _ _) h

theorem execSysFurl_keeps (h : CmdHdr) (s : State) :
    NextKeeps s (execSysFurl h s) := by
  unfold execSysFurl
  refine .next (cmd_keeps (.refl _) _ _ _ _ _ (fun s1 hs1 => Keeps.iteFst hs1 ?_))
  extract_lets s11 src
  have hs11 : Keeps s s11 := syncLines_keeps (setBoot_keeps (pauseLoss_keeps
    (flushLines_keeps (furlTraffic_keeps hs1))) _)
  exact Keeps.mk_iff.2 hs11

theorem emptyCache_keeps {s t : State} (h : Keeps s t) :
    Keeps s t.emptyCache := by
  unfold State.emptyCache
  extract_lets s1 src
  have hs1 : Keeps s s1 := by
    unfold s1
    refine Keeps.foldl _ (fun t1 e ht1 => ?_) h
    split
    · exact evict_keeps ht1 _ _
    · exact ht1
  exact Keeps.mk_iff.2 hs1

theorem restartShapers_keeps {s t : State} (h : Keeps s t) :
    Keeps s t.restartShapers := by
  unfold State.restartShapers
  refine Keeps.foldl _ (fun t1 e ht1 => ?_) h
  extract_lets u
  have hu : Keeps s u := unpark_keeps ht1 _
  exact setShaper_keeps hu _ _

theorem execSysUnfurl_keeps (h : CmdHdr) (s : State) :
    NextKeeps s (execSysUnfurl h s) := by
  unfold execSysUnfurl
  refine .next (cmd_keeps (.refl _) _ _ _ _ _ (fun s1 hs1 => Keeps.iteFst hs1 ?_))
  extract_lets s11 s2 src s3
  have hs11 : Keeps s s11 := Keeps.foldl _ (fun _ _ ht => Keeps.ite (exitSelfRefresh_keeps ht _) ht) hs1
  have hs2 : Keeps s s2 := emptyCache_keeps hs11
  have hs3 : Keeps s s3 := Keeps.mk_iff.2 hs2
  dsimp only
  exact syncLines_keeps (resumeLoss_keeps (setBoot_keeps (restartShapers_keeps hs3) _))

theorem execAvsCorrection_keeps (rail direction : Nat) (answered : Bool) (s : State) :
    NextKeeps s (execAvsCorrection rail direction answered s) := by
  unfold execAvsCorrection
  extract_lets aft last old want src b s1 mv
  have hs1 : Keeps s s1 := Keeps.mk_iff.2 (.refl _)
  exact .next (Keeps.ite (.refl _) (Keeps.ite (setRail_keeps hs1 _ _) (emit_keeps hs1 _)))

theorem execDieTempWarning_keeps (unit temp : Nat) (s : State) :
    NextKeeps s (execDieTempWarning unit temp s) :=
  .next (Keeps.ite (.refl _) (Keeps.ite (Keeps.ite (.refl _) (raiseIrq_keeps (raise_keeps (.refl _) _ _ _ _) _
    (by decide))) (Keeps.ite (endCondition_keeps (.refl _) _ _) (.refl _))))

end Sys2Proof.Sound
end

section
/-! What the definitions of Machine/Counts.lean keep: the queue, the outputs, the free values, and soundness. -/

namespace Sys2Proof.Sound

open Sys2Proof.Machine Sys2Proof.Registers

theorem setBank_keeps {s t : State} (h : Keeps s t) (b : Nat) (m : SMap CtrVal) :
    Keeps s (t.setBank b m) :=
  Keeps.ite (Keeps.mk_iff.2 h) (Keeps.mk_iff.2 h)

theorem capture_keeps {s t : State} (h : Keeps s t) (r : SnapReq) :
    Keeps s (t.capture r) := by
  unfold State.capture
  extract_lets src s1 s2 s3
  have hs1 : Keeps s s1 := Keeps.mk_iff.2 h
  have hs2 : Keeps s s2 := setB_keeps (setF_keeps (setF_keeps hs1 _ _ _
    (bankF_free (by decide) (by decide) (by decide))) _ _ _ (bankF_free (by decide) (by decide) (by decide))) _ _ _
    (bankF_free (by decide) (by decide) (by decide))
  have hs3 : Keeps s s3 := setB_keeps hs2 _ _ _ (bankF_free (by decide) (by decide) (by decide))
  exact setF_keeps (setF_keeps hs3 _ _ _ (by decide)) _ _ _ (by decide)

theorem refuseSnap_keeps {s t : State} (h : Keeps s t) (r : SnapReq) :
    Keeps s (t.refuseSnap r) := by
  unfold State.refuseSnap
  split
  · exact answer_keeps h _ _ _ _
  · exact setF_keeps h _ _ _ (by decide)

theorem takeSnap_keeps {s t : State} (h : Keeps s t) (r : SnapReq) :
    Keeps s (t.takeSnap r) := by
  unfold State.takeSnap
  extract_lets src s1
  have hs1 : Keeps s s1 := Keeps.mk_iff.2 h
  exact Keeps.ite (refuseSnap_keeps hs1 _) (capture_keeps hs1 _)

theorem fireSnap_keeps {s t : State} (h : Keeps s t) (bank groups at_ : Nat) (stack : Bool) :
    Keeps s (t.fireSnap bank groups at_ stack) :=
  Keeps.ite (count_keeps (setF_keeps (setF_keeps h _ _ _ (bankF_free (by decide) (by decide) (by decide))) _ _ _
    (by decide)) _ _) (capture_keeps h _)

theorem execSnapshotLatch_keeps (s : State) :
    NextKeeps s (execSnapshotLatch s) := by
  unfold execSnapshotLatch
  refine .next ?_
  split
  · exact .refl _
  · exact takeSnap_keeps (.refl _) _

theorem execSnapshotDrain_keeps (bank : Nat) (s : State) :
    NextKeeps s (execSnapshotDrain bank s) := by
  unfold execSnapshotDrain
  refine .next ?_
  split
  · exact .refl _
  · extract_lets src s1 s2
    have hs1 : Keeps s s1 := Keeps.mk_iff.2 (.refl _)
    have hs2 : Keeps s s2 := setF_keeps (setBank_keeps hs1 _ _) _ _ _ (bankF_free (by decide) (by decide) (by decide))
    split
    · exact answer_keeps hs2 _ _ _ _
    · exact hs2

theorem execCntSnapshot_keeps (h : CmdHdr) (bank groups : Nat) (s : State) :
    NextKeeps s (execCntSnapshot h bank groups s) := by
  unfold execCntSnapshot
  refine .next (cmdLater_keeps (.refl _) _ _ _ _ _ (fun s1 hs1 => Keeps.iteFst hs1 ?_))
  exact Keeps.mk_iff.2 hs1

theorem requestSnap_keeps {s t : State} (h : Keeps s t) (go : Bool) (bank groups : Nat) :
    Keeps s (t.requestSnap go bank groups) :=
  Keeps.ite h (Keeps.ite (setF_keeps h _ _ _ (by decide)) (Keeps.mk_iff.2 h))

theorem execCntSnapReqWrite_keeps (go : Bool) (bank groups : Nat) (s : State) :
    NextKeeps s (execCntSnapReqWrite go bank groups s) :=
  .next (requestSnap_keeps (.refl _) _ _ _)

theorem execCntClear_keeps (h : CmdHdr) (groups : Nat) (s : State) :
    NextKeeps s (execCntClear h groups s) := by
  unfold execCntClear
  refine .next (cmdLater_keeps (.refl _) _ _ _ _ _ (fun s1 hs1 => ?_))
  exact Keeps.mk_iff.2 hs1

theorem execCounterClearApply_keeps (s : State) :
    NextKeeps s (execCounterClearApply s) := by
  unfold execCounterClearApply
  refine .next ?_
  split
  · exact .refl _
  · extract_lets s1 src s2
    have hs1 : Keeps s s1 := Keeps.foldl _ (fun _ _ ht => takeSnap_keeps ht _) (.refl _)
    have hs2 : Keeps s s2 := Keeps.mkCtrsFilter hs1 _
    exact answer_keeps (setF_keeps hs2 _ _ _ (by decide)) _ _ _ _

theorem execCntRead_keeps (h : CmdHdr) (bank group first count : Nat) (s : State) :
    NextKeeps s (execCntRead h bank group first count s) :=
  .next (cmd_keeps (.refl _) _ _ _ _ _ (fun _ hs1 => Keeps.iteFst hs1 hs1))

theorem execCntReadOne_keeps (h : CmdHdr) (group index : Nat) (s : State) :
    NextKeeps s (execCntReadOne h group index s) := by
  unfold execCntReadOne
  refine .next (cmd_keeps (.refl _) _ _ _ _ _ (fun s1 hs1 => ?_))
  exact hs1

theorem readReg_keeps {s t : State} (h : Keeps s t) (r : Reg) (i : Nat) :
    Keeps s (t.readReg r i) :=
  emit_keeps h _

theorem windowRead_keeps {s t : State} (h : Keeps s t) :
    Keeps s t.windowRead := by
  unfold State.windowRead
  extract_lets b g i ok v s1
  have hs1 : Keeps s s1 := setF_keeps (setF_keeps h _ _ _ (by decide)) _ _ _ (by decide)
  exact Keeps.ite hs1 (setF_keeps hs1 _ _ _ (by decide))

theorem windowNext_keeps {s t : State} (h : Keeps s t) :
    Keeps s t.windowNext :=
  setF_keeps h _ _ _ (by decide)

theorem execCntWindowRead_keeps (high : Bool) (s : State) :
    NextKeeps s (execCntWindowRead high s) :=
  .next (Keeps.ite (windowNext_keeps (readReg_keeps (.refl _) _ _)) (readReg_keeps (windowRead_keeps (.refl _)) _ _))

theorem liveRead_keeps {s t : State} (h : Keeps s t) :
    Keeps s t.liveRead :=
  setF_keeps (setF_keeps h _ _ _ (by decide)) _ _ _ (by decide)

theorem execCntLiveSample_keeps (high : Bool) (s : State) :
    NextKeeps s (execCntLiveSample high s) :=
  .next (Keeps.ite (readReg_keeps (.refl _) _ _) (readReg_keeps (liveRead_keeps (.refl _)) _ _))

theorem execCntBwConfig_keeps (h : CmdHdr) (port code : Nat) (enable : Bool) (s : State) :
    NextKeeps s (execCntBwConfig h port code enable s) := by
  unfold execCntBwConfig
  refine .next (cmd_keeps (.refl _) _ _ _ _ _ (fun s1 hs1 => Keeps.iteFst hs1 ?_))
  exact Keeps.mk_iff.2 hs1

theorem execCntBwRead_keeps (h : CmdHdr) (port : Nat) (s : State) :
    NextKeeps s (execCntBwRead h port s) := by
  unfold execCntBwRead
  refine .next (cmd_keeps (.refl _) _ _ _ _ _ (fun s1 hs1 => Keeps.iteFst hs1 ?_))
  extract_lets s11 v
  have hs11 : Keeps s s11 := bwRoll_keeps hs1
  split
  · exact hs1
  · split
    · exact hs11
    · exact Keeps.mkDraw hs11

theorem execBwWindowEnd_keeps (port : Nat) (s : State) :
    NextKeeps s (execBwWindowEnd port s) :=
  .next (Keeps.mk_iff.2 (.refl _))

end Sys2Proof.Sound
end

section
/-! What the definitions of Machine/Access.lean keep: the queue, the outputs, the free values, and soundness. -/

namespace Sys2Proof.Sound

open Sys2Proof.Machine Sys2Proof.Registers

theorem accessError_keeps {s t : State} (h : Keeps s t) (f : Fld) (off : Nat) (hf : f.free = true) :
    Keeps s (t.accessError f off) :=
  pciCapture_keeps (pciEvent_keeps h _ hf) _ _ _ _

theorem hostWords_keeps {s t : State} (h : Keeps s t) :
    Keeps s t.hostWords.1 :=
  Keeps.mkDraw h

theorem writeMbxEn_keeps {s t : State} (h : Keeps s t) (data : BitVec 32) (m : Nat) :
    Keeps s (t.writeMbxEn data m) := by
  unfold State.writeMbxEn
  extract_lets was
  refine Keeps.ite (Keeps.ite h ?_) (Keeps.ite (disableMailbox_keeps h _) h)
  split
  rename_i e
  exact enableMailbox_keeps (Keeps.fst e (hostWords_keeps h)) _ _

theorem writeAbsent_keeps {s t : State} (h : Keeps s t) (r : Reg) (i off : Nat) (data : BitVec 32) :
    Keeps s (t.writeAbsent r i off data) :=
  Keeps.ite (accessError_keeps h _ _ (by decide)) h

theorem afterWrite_keeps {s t : State} (h : Keeps s t) (r : Reg) (i : Nat) (data : BitVec 32) :
    Keeps s (t.afterWrite r i data) := by
  unfold State.afterWrite
  extract_lets d old
  split
  · exact writeReset_keeps (updateIntN_keeps h) _ _
  · exact updateIntN_keeps h
  · exact updateIntN_keeps h
  · exact updatePins_keeps h
  · exact Keeps.ite h (switchDomain_keeps (setF_keeps h _ _ _ (by decide)) _)
  · exact afterIo_keeps h
  · exact afterIo_keeps h
  · exact Keeps.ite (restartLog_keeps h) h
  · exact requestSnap_keeps h _ _ _
  · exact showHistory_keeps h _
  · exact syncLife_keeps h
  · exact sqDoorbell_keeps h _ _
  · exact cqDoorbell_keeps h _ _ _
  · exact ringDoorbell_keeps h _ _ _
  · exact h

/-- A row of a register's table lies outside the register's fixed bits, or no write and no read changes it. -/
def rowHolds (r : Reg) (f : FieldRow) : Bool :=
  Fld.free ⟨r, f.hi, f.lo⟩ || decide (f.lo ≤ f.hi) && (f.ty == .ro || f.ty == .wo)

theorem rows_hold (r : Reg) : ∀ f ∈ r.fields, rowHolds r f = true := by cases r <;> decide

/-- A field that takes its own value again leaves every bit of its word. -/
theorem withField_self (w : BitVec 32) {hi lo : Nat} (hl : lo ≤ hi) : withField w hi lo (fieldOf w hi lo) = w := by
  apply BitVec.eq_of_toNat_eq
  apply Nat.eq_of_testBit_eq
  intro j
  by_cases hj : j < 32
  · rw [withField_testBit _ _ _ _ _ hl hj]
    split
    · unfold fieldOf bitsOf
      rw [Nat.testBit_mod_two_pow, Nat.testBit_shiftRight, show lo + (j - lo) = j by omega]
      simp only [show j - lo < hi - lo + 1 by omega, decide_true, Bool.true_and]
    · rfl
  · have hp := Nat.pow_le_pow_right (n := 2) (by omega) (Nat.le_of_not_lt hj)
    rw [Nat.testBit_lt_two_pow (Nat.lt_of_lt_of_le (BitVec.isLt _) hp),
      Nat.testBit_lt_two_pow (Nat.lt_of_lt_of_le (BitVec.isLt _) hp)]

theorem writeRow_fixed {r : Reg} {f : FieldRow} (hf : rowHolds r f = true) (locked : Bool) (data : BitVec 32)
    (a : BitVec 32 × Bool) :
    Nat.land (writeRow r locked data a f).1.toNat r.fixedMask = Nat.land a.1.toNat r.fixedMask := by
  simp only [rowHolds, Bool.or_eq_true, Bool.and_eq_true, decide_eq_true_eq, beq_iff_eq] at hf
  rcases hf with hf | ⟨hl, hty⟩
  · exact withField_fixed ⟨r, f.hi, f.lo⟩ hf _ _
  · have hold : (writeField r locked f (fieldOf a.1 f.hi f.lo) (fieldOf data f.hi f.lo)).1 = fieldOf a.1 f.hi f.lo :=
      by
      rcases hty with hty | hty <;> simp only [writeField, hty]
    have hrow : (writeRow r locked data a f).1 =
        withField a.1 f.hi f.lo (writeField r locked f (fieldOf a.1 f.hi f.lo) (fieldOf data f.hi f.lo)).1 := rfl
    rw [hrow, hold, withField_self _ hl]

theorem writeRows_fixed {r : Reg} {fs : List FieldRow} (hfs : ∀ f ∈ fs, rowHolds r f = true) (locked : Bool)
    (data : BitVec 32) (a : BitVec 32 × Bool) :
    Nat.land (fs.foldl (writeRow r locked data) a).1.toNat r.fixedMask = Nat.land a.1.toNat r.fixedMask := by
  induction fs generalizing a with
  | nil => rfl
  | cons f fs ih =>
    rw [List.foldl_cons, ih (fun g hg => hfs g (List.mem_cons_of_mem _ hg)),
      writeRow_fixed (hfs f List.mem_cons_self)]

/-- A capture's valid bit lies outside the fixed bits. -/
theorem captureValid_free {r : Reg} {i : Nat} (h : r.captureValid i = true) : Fld.free ⟨r, 31, 31⟩ = true := by
  have hall : r.validInstance = none ∨ Fld.free ⟨r, 31, 31⟩ = true := by cases r <;> decide
  rcases hall with hn | hf
  · simp [Reg.captureValid, hn] at h
  · exact hf

/-- A word written by host software has the fixed bits of the word before it. -/
theorem writeWord_fixed (s : State) (r : Reg) (i : Nat) (data : BitVec 32) :
    Nat.land (s.writeWord r i data).1.toNat r.fixedMask = Nat.land (s.rd r i).toNat r.fixedMask := by
  have hrows := writeRows_fixed (rows_hold r) (s.regLocked r i) data (s.rd r i, false)
  show Nat.land (if r.captureValid i && decide (data.toNat ≥ 2 ^ 31) then
    withField (r.fields.foldl (writeRow r (s.regLocked r i) data) (s.rd r i, false)).1 31 31 0
    else (r.fields.foldl (writeRow r (s.regLocked r i) data) (s.rd r i, false)).1).toNat _ = _
  split
  · rename_i hv
    exact (withField_fixed ⟨r, 31, 31⟩ (captureValid_free (Bool.and_eq_true_iff.1 hv).1) _ _).trans hrows
  · exact hrows

theorem writeReg_keeps {s t : State} (h : Keeps s t) (r : Reg) (i off : Nat) (data : BitVec 32) :
    Keeps s (t.writeReg r i off data) := by
  unfold State.writeReg
  split
  · exact Keeps.foldl _ (fun _ _ hu => writeMbxEn_keeps hu _ _) (setB_keeps h _ _ _ (by decide))
  · exact writeDmaStop_keeps h _
  · exact writeHold_keeps h _ _
  · refine Keeps.ite (writeAbsent_keeps h _ _ _ _) ?_
    split
    rename_i w _ e
    extract_lets s1
    have hw : (t.writeWord r i data).1 = w := congrArg Prod.fst e
    have hs1 : Keeps s s1 := wr_keeps h _ _ _ fun hx => by
      rw [← hw, writeWord_fixed]
      exact hx _ _
    exact afterWrite_keeps (Keeps.ite (accessError_keeps hs1 _ _ (by decide)) hs1) _ _ _

theorem execRegisterWrite_keeps (bar addr data : Nat) (full jtag : Bool) (s : State) :
    NextKeeps s (execRegisterWrite bar addr data full jtag s) := by
  unfold execRegisterWrite
  extract_lets off w src
  refine .next (Keeps.ite (.refl _) (Keeps.ite (Keeps.ite (Keeps.mk_iff.2 (.refl _)) (.refl _)) ?_))
  split
  · exact Keeps.ite (Keeps.mk_iff.2 (.refl _)) (accessError_keeps (.refl _) _ _ (by decide))
  · exact Keeps.ite (writeReg_keeps (.refl _) _ _ _ _) (accessError_keeps (.refl _) _ _ (by decide))
  · exact accessError_keeps (.refl _) _ _ (by decide)

theorem openField_keeps {s t : State} (h : Keeps s t) (f : Fld) (i : Nat) (hf : f.free = true) :
    Keeps s (t.openField f i) :=
  drawOne_keeps (setF_keeps h _ _ _ hf)

theorem beforeRead_keeps {s t : State} (h : Keeps s t) (r : Reg) (i : Nat) :
    Keeps s (t.beforeRead r i) := by
  unfold State.beforeRead
  split
  · exact latchTime_keeps h
  · exact Keeps.ite (windowRead_keeps h) h
  · exact Keeps.ite (liveRead_keeps h) h
  · exact syncWheel_keeps h _
  · exact syncFab_keeps h
  · exact syncFab_keeps h
  · exact syncRetireLine_keeps h _
  · exact syncUeRecent_keeps h _
  · exact openField_keeps (openField_keeps h _ _ (by decide)) _ _ (by decide)
  · exact openField_keeps (openField_keeps (openField_keeps h _ _ (by decide)) _ _ (by decide)) _ _ (by decide)
  · exact openField_keeps h _ _ (by decide)
  · exact openField_keeps h _ _ (by decide)
  · exact openField_keeps h _ _ (by decide)
  · exact syncLife_keeps h
  · exact syncLife_keeps h
  · exact syncLife_keeps h
  · exact h

/-- A read-clear row lies outside the fixed bits. -/
theorem rc_free (r : Reg) : ∀ f ∈ r.fields, f.ty = .rc → Fld.free ⟨r, f.hi, f.lo⟩ = true := by cases r <;> decide

theorem clearRows_fixed {r : Reg} {fs : List FieldRow}
    (hfs : ∀ f ∈ fs, f.ty = .rc → Fld.free ⟨r, f.hi, f.lo⟩ = true) (w : BitVec 32) :
    Nat.land (fs.foldl (fun w f => if f.ty == .rc then withField w f.hi f.lo 0 else w) w).toNat r.fixedMask =
      Nat.land w.toNat r.fixedMask := by
  induction fs generalizing w with
  | nil => rfl
  | cons f fs ih =>
    rw [List.foldl_cons, ih fun g hg => hfs g (List.mem_cons_of_mem _ hg)]
    split
    · rename_i hty
      exact withField_fixed ⟨r, f.hi, f.lo⟩ (hfs f List.mem_cons_self (beq_iff_eq.1 hty)) _ _
    · rfl

theorem clearRc_keeps {s t : State} (h : Keeps s t) (r : Reg) (i : Nat) :
    Keeps s (t.clearRc r i) :=
  wr_keeps h _ _ _ fun hx => (clearRows_fixed (rc_free r) _).trans (hx _ _)

theorem execRegisterReadClear_keeps (bar addr : Nat) (jtag : Bool) (s : State) :
    NextKeeps s (execRegisterReadClear bar addr jtag s) := by
  unfold execRegisterReadClear
  extract_lets off say
  have hsay : ∀ t v, Keeps s t → Keeps s (say t v) := fun _ _ ht => emit_keeps ht _
  refine .next (Keeps.ite (.refl _) (Keeps.ite (hsay _ _ (.refl _)) ?_))
  split
  · exact hsay _ _ (.refl _)
  · extract_lets s1 s2
    have hs1 : Keeps s s1 := beforeRead_keeps (.refl _) _ _
    have hs2 : Keeps s s2 := clearRc_keeps (hsay _ _ hs1) _ _
    exact Keeps.ite (windowNext_keeps hs2) hs2
  · exact accessError_keeps (hsay _ _ (.refl _)) _ _ (by decide)

end Sys2Proof.Sound
end

section
/-! What the definitions of Machine/Epoch.lean keep: the queue, the outputs, the free values, and soundness. -/

namespace Sys2Proof.Sound

open Sys2Proof.Machine Sys2Proof.Registers

theorem syncEpochs_keeps {s t : State} (h : Keeps s t) :
    Keeps s t.syncEpochs :=
  Keeps.foldl _ (fun _ _ hu => syncEpoch_keeps hu _) h

theorem swapDone_keeps {s t : State} (h : Keeps s t) (cmd : Option (Nat × Nat)) :
    Keeps s (t.swapDone cmd) := by
  unfold State.swapDone
  split
  · exact answer_keeps h _ _ _ _
  · exact h

theorem reportSwap_keeps {s t : State} (h : Keeps s t) (late : Bool) :
    Keeps s (t.reportSwap late) :=
  sendFault_keeps h _

theorem swapNoop_keeps {s t : State} (h : Keeps s t) :
    Keeps s t.swapNoop :=
  Keeps.foldl _ (fun _ _ ht1 => count_keeps ht1 _ _) h

theorem flipEpoch_keeps {s t : State} (h : Keeps s t) (target : Nat) (late stack : Bool) (cmd : Option (Nat × Nat)) :
    Keeps s (t.flipEpoch target late stack cmd) := by
  unfold State.flipEpoch
  extract_lets s1 src s2 src1
  have hs1 : Keeps s s1 := setAll_keeps (setAll_keeps h _ _ _ (by decide)) _ _ _ (by decide)
  have hs2 : Keeps s s2 := syncEpochs_keeps (Keeps.mk_iff.2 hs1)
  exact Keeps.ite (Keeps.mk_iff.2 hs2) hs2

theorem setHeld_keeps {s t : State} (h : Keeps s t) (held : List HeldSwap) :
    Keeps s (t.setHeld held) :=
  setAll_keeps (Keeps.mk_iff.2 h) _ _ _ (by decide)

theorem applyHeld_keeps {s t : State} (h : Keeps s t) (a : List HeldSwap) :
    Keeps s (t.applyHeld a) := by
  induction a generalizing t with
  | nil =>
    rw [State.applyHeld]
    exact setHeld_keeps h _
  | cons x rest ih =>
    obtain ⟨target, stack, cmd⟩ := x
    rw [State.applyHeld]
    exact Keeps.ite (ih (swapDone_keeps (reportSwap_keeps (swapNoop_keeps h) _) _))
      (flipEpoch_keeps (setHeld_keeps h _) _ _ _ _)

theorem swapNow_keeps {s t : State} (h : Keeps s t) (target : Nat) (stack : Bool) (cmd : Option (Nat × Nat))
    (late : optParam Bool false) :
    Keeps s (t.swapNow target stack cmd late) := by
  unfold State.swapNow
  extract_lets t1
  have ht1 : Keeps s t1 := swapDone_keeps (swapNoop_keeps h) _
  exact Keeps.ite (setHeld_keeps h _) (Keeps.ite (Keeps.ite (sendMaster_keeps ht1 _) ht1) (flipEpoch_keeps h _ _ _ _))

theorem execEpochSwapInstant_keeps (s : State) :
    NextKeeps s (execEpochSwapInstant s) := by
  unfold execEpochSwapInstant
  refine .next ?_
  split
  · exact Keeps.ite (swapNow_keeps (Keeps.mk_iff.2 (.refl _)) _ _ _ _) (.refl _)
  · exact .refl _

theorem endStackSwap_keeps {s t : State} (h : Keeps s t) (late : Bool) (cmd : Option (Nat × Nat)) :
    Keeps s (t.endStackSwap late cmd) := by
  unfold State.endStackSwap
  extract_lets src s1
  have hs1 : Keeps s s1 := Keeps.mk_iff.2 h
  exact sendAll_keeps (swapDone_keeps (reportSwap_keeps hs1 _) _) _

theorem drainedHere_keeps {s t : State} (h : Keeps s t) (late : Bool) (cmd : Option (Nat × Nat)) :
    Keeps s (t.drainedHere late cmd) :=
  Keeps.ite (sendMaster_keeps h _) (Keeps.ite (endStackSwap_keeps h _ _) (Keeps.mk_iff.2 h))

theorem completeSwap_keeps {s t : State} (h : Keeps s t) :
    Keeps s t.completeSwap := by
  unfold State.completeSwap
  split
  · exact h
  · extract_lets src s1 s2
    have hs1 : Keeps s s1 := setAll_keeps (Keeps.mk_iff.2 h) _ _ _ (by decide)
    have hs2 : Keeps s s2 := Keeps.ite (drainedHere_keeps hs1 _ _) (swapDone_keeps (reportSwap_keeps hs1 _) _)
    exact applyHeld_keeps hs2 _

theorem execSwapComplete_keeps (s : State) :
    NextKeeps s (execSwapComplete s) := by
  unfold execSwapComplete
  refine .next ?_
  split
  · exact Keeps.ite (completeSwap_keeps (.refl _)) (.refl _)
  · exact .refl _

theorem execEpochDrainDeadline_keeps (s : State) :
    NextKeeps s (execEpochDrainDeadline s) := by
  unfold execEpochDrainDeadline
  refine .next ?_
  split
  · exact .refl _
  · exact Keeps.ite (.refl _) (completeSwap_keeps (syncEpochs_keeps (Keeps.mk_iff.2 (.refl _))))

theorem execEpochSwap_keeps (h : CmdHdr) (target : Nat) (s : State) : NextKeeps s (execEpochSwap h target s) := by
  unfold execEpochSwap
  refine .next (cmdLater_keeps (.refl _) _ _ _ _ _ (fun u hu => ?_))
  extract_lets at_
  refine Keeps.iteFst hu (Keeps.iteFst ?_ ?_)
  · dsimp only
    exact swapNoop_keeps hu
  · exact sendAll_keeps (Keeps.mk_iff.2 hu) _

theorem execEpochStatus_keeps (h : CmdHdr) (s : State) :
    NextKeeps s (execEpochStatus h s) :=
  .next (cmd_keeps (.refl _) _ _ _ _ _ (fun _ hs1 => hs1))

end Sys2Proof.Sound
end

section
/-! What the definitions of Machine/Tec.lean keep: the queue, the outputs, the free values, and soundness. -/

namespace Sys2Proof.Sound

open Sys2Proof.Machine Sys2Proof.Registers

theorem syncTec_keeps {s t : State} (h : Keeps s t) :
    Keeps s t.syncTec :=
  setF_keeps (setF_keeps h _ _ _ (by decide)) _ _ _ (by decide)

theorem putTec_keeps {s t : State} (h : Keeps s t) (i : Nat) (e : TecEntry) :
    Keeps s (t.putTec i e) :=
  syncTec_keeps (Keeps.mk_iff.2 h)

theorem delTec_keeps {s t : State} (h : Keeps s t) (i : Nat) :
    Keeps s (t.delTec i) :=
  syncTec_keeps (Keeps.mk_iff.2 h)

theorem armTec_keeps {s t : State} (h : Keeps s t) (e : TecEntry) (first n : Nat) :
    Keeps s (t.armTec e first n).1 := by
  unfold State.armTec
  refine Keeps.iteFst h ?_
  split
  · exact h
  · exact putTec_keeps (drawOne_keeps h) _ _

theorem armHost_keeps {s t : State} (h : Keeps s t) (e : TecEntry) :
    Keeps s (t.armHost e).1 :=
  armTec_keeps h _ _ _

theorem armFirmware_keeps {s t : State} (h : Keeps s t) (e : TecEntry) :
    Keeps s (t.armFirmware e).1 :=
  armTec_keeps (drawOne_keeps h) _ _ _

end Sys2Proof.Sound
end

section
/-! What the definitions of Machine/Export.lean keep: the queue, the outputs, the free values, and soundness. -/

namespace Sys2Proof.Sound

open Sys2Proof.Machine Sys2Proof.Registers

theorem injectMessage_keeps {s t : State} (h : Keeps s t) (c : Collector) (frame : List Nat) :
    Keeps s (t.injectMessage c frame).1 := by
  unfold State.injectMessage
  extract_lets pipe p0 p
  refine Keeps.iteFst (count_keeps h _ _) (Keeps.iteFst h (Keeps.iteFst (count_keeps h _ _) ?_))
  split
  rename_i _ e
  have hs3 := Keeps.fst e (addPkt_keeps h _)
  extract_lets s2
  have hs2 : Keeps s s2 := admitTo_keeps (syncEpoch_keeps (injectBody_keeps hs3 _ _) _) _
  exact hs2

theorem deliverMessage_keeps {s t : State} (h : Keeps s t) (c : Collector) (msg : List Nat) :
    Keeps s (t.deliverMessage c msg).1 :=
  Keeps.iteFst (ringCopyTo_keeps h _ _) (injectMessage_keeps (drawOne_keeps h) _ _)

theorem sendMessage_keeps {s t : State} (h : Keeps s t) (c : Nat) :
    Keeps s (t.sendMessage c) := by
  unfold State.sendMessage
  split
  · exact h
  · extract_lets dest bytes
    split
    rename_i s1 _ e
    have hs1 : Keeps s s1 := by
      refine Keeps.fst e ?_
      clear_value dest
      split
      · exact deliverMessage_keeps h _ _
      · exact h
    extract_lets s2 seq src
    have hs2 : Keeps s s2 := count_keeps hs1 _ _
    exact freeCtrl_keeps (Keeps.mk_iff.2 hs2) _ _

theorem addRecord_keeps {s t : State} (h : Keeps s t) (c tid : Nat) (bs : List Nat) :
    Keeps s (t.addRecord c tid bs).1 := by
  unfold State.addRecord
  extract_lets s1 put
  have hs1 : Keeps s s1 := by
    unfold s1
    split
    · exact Keeps.ite (sendMessage_keeps h _) h
    · exact h
  have hput : ∀ t1 m, Keeps s t1 → Keeps s (put t1 m) := fun _ _ ht1 => Keeps.mk_iff.2 ht1
  refine Keeps.iteFst (count_keeps hs1 _ _) ?_
  split
  · exact hput _ _ hs1
  · split
    · rename_i e
      exact count_keeps (Keeps.fst e (takeCtrl_keeps hs1 _ _)) _ _
    · rename_i e
      exact hput _ _ (Keeps.fst e (takeCtrl_keeps hs1 _ _))

theorem sendTemplates_keeps {s u : State} (h : Keeps s u) (t : TmplSet) :
    Keeps s (u.sendTemplates t) := by
  unfold State.sendTemplates
  refine Keeps.foldl _ (fun u1 e hu1 => ?_) h
  split
  · exact count_keeps hu1 _ _
  · split
    rename_i e1
    exact count_keeps (Keeps.fst e1 (deliverMessage_keeps hu1 _ _)) _ _

theorem sendAllTemplates_keeps {s t : State} (h : Keeps s t) :
    Keeps s t.sendAllTemplates :=
  Keeps.foldl _ (fun _ _ ht1 => sendTemplates_keeps ht1 _) (Keeps.mk_iff.2 h)

theorem exportClear_keeps {s t : State} (h : Keeps s t) (handle size : Nat) (im : List Nat) :
    Keeps s (t.exportClear handle size im) := by
  unfold State.exportClear
  extract_lets w old new mark ws src t1
  split
  rename_i e
  exact prepareTx_keeps (Keeps.fst e (openTx_keeps h _)) _

theorem noteReason_keeps {s t : State} (h : Keeps s t) (r : ExpRecord) :
    Keeps s (t.noteReason r) :=
  Keeps.mk_iff.2 h

theorem execExportEncode_keeps (s : State) :
    NextKeeps s (execExportEncode s) := by
  unfold execExportEncode
  refine .next ?_
  split
  · exact .refl _
  · extract_lets src s1 ts
    have hs1 : Keeps s s1 := shrinkQueue_keeps (Keeps.mk_iff.2 (.refl _))
    split
    · exact hs1
    · extract_lets im slot s2
      have hs2 : Keeps s s2 := by
        unfold s2
        split
        · exact count_keeps hs1 _ _
        · split
          · rename_i e
            exact Keeps.fst e (addRecord_keeps hs1 _ _ _)
          · rename_i e
            have ht := Keeps.fst e (addRecord_keeps hs1 _ _ _)
            extract_lets s3
            have hs3 : Keeps s s3 := noteReason_keeps (count_keeps ht _ _) _
            exact Keeps.ite hs3 (exportClear_keeps hs3 _ _ _)
      exact refHeap_keeps hs2 _ _ _

theorem openExportWindow_keeps {s t : State} (h : Keeps s t) (set ms : Nat) :
    Keeps s (t.openExportWindow set ms) :=
  Keeps.mk_iff.2 h

theorem visitExport_keeps {s t : State} (h : Keeps s t) (set handle : Nat) :
    Keeps s (t.visitExport set handle) := by
  unfold State.visitExport
  split
  · exact h
  · extract_lets im
    split
    · exact h
    · refine Keeps.ite h (Keeps.ite (refHeap_keeps h _ _ _) ?_)
      split
      · rename_i e
        exact Keeps.fst e (queueExport_keeps h _)
      · rename_i e
        exact refHeap_keeps (Keeps.fst e (queueExport_keeps h _)) _ _ _

theorem execExportWalkVisit_keeps (set : Nat) (s : State) :
    NextKeeps s (execExportWalkVisit set s) := by
  unfold execExportWalkVisit
  refine .next ?_
  split
  · exact .refl _
  · extract_lets base live s1 src
    have hs1 : Keeps s s1 := Keeps.foldl _ (fun _ _ hu => visitExport_keeps hu _ _) (.refl _)
    exact Keeps.ite (.refl _) (Keeps.mk_iff.2 hs1)

theorem execExportWindowClose_keeps (set : Nat) (s : State) :
    NextKeeps s (execExportWindowClose set s) := by
  unfold execExportWindowClose
  refine .next ?_
  split
  · exact .refl _
  · extract_lets src s1 s2
    have hs1 : Keeps s s1 := Keeps.mk_iff.2 (.refl _)
    have hs2 : Keeps s s2 := Keeps.ite (count_keeps hs1 _ _) hs1
    refine Keeps.ite (.refl _) ?_
    split
    · exact sendMessage_keeps hs2 _
    · exact hs2

theorem execExportMessageTimer_keeps (collector : Nat) (s : State) :
    NextKeeps s (execExportMessageTimer collector s) := by
  unfold execExportMessageTimer
  refine .next ?_
  split
  · exact .refl _
  · exact Keeps.ite (.refl _) (sendMessage_keeps (.refl _) _)

theorem execTemplateResend_keeps (s : State) :
    NextKeeps s (execTemplateResend s) :=
  .next (Keeps.ite (.refl _) (sendAllTemplates_keeps (.refl _)))

theorem execExpTemplateSet_keeps (h : CmdHdr) (set : Nat) (header : List Nat) (slots : List TmplSlot) (s : State) :
    NextKeeps s (execExpTemplateSet h set header slots s) := by
  unfold execExpTemplateSet
  refine .next (cmd_keeps (.refl _) _ _ _ _ _ (fun s1 hs1 => Keeps.iteFst hs1 ?_))
  exact sendTemplates_keeps (Keeps.mk_iff.2 hs1) _

theorem execExpCollectorSet_keeps (h : CmdHdr) (collector : Nat) (dest : Collector) (s : State) :
    NextKeeps s (execExpCollectorSet h collector dest s) := by
  unfold execExpCollectorSet
  refine .next (cmd_keeps (.refl _) _ _ _ _ _ (fun s1 hs1 => ?_))
  exact Keeps.iteFst hs1 (Keeps.mk_iff.2 hs1)

theorem armInterval_keeps {s t : State} (h : Keeps s t) (interval set : Nat) :
    Keeps s (t.armInterval interval set) := by
  unfold State.armInterval
  extract_lets old s1 p e
  have hs1 : Keeps s s1 := Keeps.foldl _ (fun _ _ ht1 => delTec_keeps ht1 _) h
  exact Keeps.ite hs1 (armFirmware_keeps hs1 _)

theorem execExpConfig_keeps (h : CmdHdr) (enable : Bool) (interval defaultSet msgMax enterprise : Nat) (s : State) :
    NextKeeps s (execExpConfig h enable interval defaultSet msgMax enterprise s) := by
  unfold execExpConfig
  refine .next (cmd_keeps (.refl _) _ _ _ _ _ (fun s1 hs1 => ?_))
  extract_lets was src s11
  have hs11 : Keeps s s11 := armInterval_keeps (Keeps.mk_iff.2 hs1) _ _
  exact Keeps.ite (sendAllTemplates_keeps hs11) hs11

theorem execExpStatus_keeps (h : CmdHdr) (s : State) :
    NextKeeps s (execExpStatus h s) := by
  unfold execExpStatus
  refine .next (cmd_keeps (.refl _) _ _ _ _ _ (fun s1 hs1 => ?_))
  exact hs1

end Sys2Proof.Sound
end

section
/-! What the definitions of Machine/Calendar.lean keep: the queue, the outputs, the free values, and soundness. -/

namespace Sys2Proof.Sound

open Sys2Proof.Machine Sys2Proof.Registers

theorem noteFiring_keeps {s t : State} (h : Keeps s t) (late stepped : Bool) :
    Keeps s (t.noteFiring late stepped) := by
  unfold State.noteFiring
  extract_lets s1 s2 s3
  have hs1 : Keeps s s1 := setF_keeps h _ _ _ (by decide)
  have hs2 : Keeps s s2 := Keeps.ite hs1 (addF_keeps hs1 _ _ _ (by decide))
  have hs3 : Keeps s s3 := Keeps.ite (addF_keeps hs2 _ _ _ (by decide)) hs2
  exact Keeps.ite (addF_keeps hs3 _ _ _ (by decide)) hs3

theorem fire_keeps {s u : State} (h : Keeps s u) (kind a b t : Nat) (stack late : Bool) :
    Keeps s (u.fire kind a b t stack late) := by
  unfold State.fire
  split
  · exact fireSnap_keeps h _ _ _ _
  · exact swapNow_keeps h _ _ _ _
  · exact gatePend_keeps h _ _ _ _
  · exact Keeps.foldl _ (fun _ _ hu1 => startSweep_keeps hu1 _ _) h
  · exact openExportWindow_keeps h _ _
  · exact openTrain_keeps h _ _
  · exact logWrite_keeps h _
  · exact latch_keeps (setThread_keeps h _ _) _ _

theorem dispatchFiring_keeps {s u : State} (h : Keeps s u) (i : Nat) (e : TecEntry) (t : Nat) (late stepped : Bool) :
    Keeps s (u.dispatchFiring i e t late stepped) := by
  unfold State.dispatchFiring
  extract_lets w src s0 used src1 d
  have hs0 : Keeps s s0 := Keeps.ite h (Keeps.mk_iff.2 h)
  exact Keeps.ite (fire_keeps (noteFiring_keeps (Keeps.mk_iff.2 hs0) _ _) _ _ _ _ _ _) (Keeps.mk_iff.2 hs0)

theorem firedTec_keeps {s t : State} (h : Keeps s t) (i : Nat) (e : TecEntry) (next : Nat) :
    Keeps s (t.firedTec i e next) :=
  Keeps.ite (delTec_keeps h _) (putTec_keeps h _ _)

theorem execTecFiring_keeps (s : State) :
    NextKeeps s (execTecFiring s) := by
  unfold execTecFiring
  refine .next ?_
  split
  · exact .refl _
  · exact dispatchFiring_keeps (firedTec_keeps (.refl _) _ _ _) _ _ _ _ _

theorem execTecDeferredFiring_keeps (s : State) :
    NextKeeps s (execTecDeferredFiring s) := by
  unfold execTecDeferredFiring
  refine .next ?_
  split
  · exact .refl _
  · exact Keeps.ite (.refl _) (fire_keeps (noteFiring_keeps (Keeps.mk_iff.2 (.refl _)) _ _) _ _ _ _ _ _)

theorem markInvalid_keeps {s t : State} (h : Keeps s t) (point : Nat) :
    Keeps s (t.markInvalid point) :=
  Keeps.mk_iff.2 h

theorem mismatch_keeps {s t : State} (h : Keeps s t) (point : Nat) :
    Keeps s (t.mismatch point) := by
  unfold State.mismatch
  extract_lets old seen s0 src s1 s2
  have hs0 : Keeps s s0 := markInvalid_keeps h _
  have hs1 : Keeps s s1 := Keeps.mk_iff.2 hs0
  have hs2 : Keeps s s2 := raise_keeps hs1 _ _ _ _
  exact Keeps.ite (raise_keeps hs2 _ _ _ _) hs2

theorem pointGood_keeps {s t : State} (h : Keeps s t) (point : Nat) (p : TsPoint) :
    Keeps s (t.pointGood point p) := by
  unfold State.pointGood
  extract_lets recent src s1
  have hs1 : Keeps s s1 := Keeps.mk_iff.2 h
  exact Keeps.ite (endCondition_keeps hs1 _ _) hs1

theorem checkPoint_keeps {s t : State} (h : Keeps s t) (point : Nat) (p : TsPoint) :
    Keeps s (t.checkPoint point p) :=
  Keeps.ite (mismatch_keeps h _) (pointGood_keeps h _ _)

theorem upsetPoint_keeps {s t : State} (h : Keeps s t) (point : Nat) (d : Int) :
    Keeps s (t.upsetPoint point d) :=
  Keeps.mk_iff.2 h

theorem execHalyardFrame_keeps (deviations : List (Nat × Int)) (s : State) :
    NextKeeps s (execHalyardFrame deviations s) := by
  unfold execHalyardFrame
  extract_lets s1 s2 src
  have hs1 : Keeps s s1 := Keeps.foldl _ (fun _ _ ht => checkPoint_keeps ht _ _) (.refl _)
  have hs2 : Keeps s s2 := Keeps.foldl _ (fun _ _ ht => upsetPoint_keeps ht _ _) hs1
  exact .next (Keeps.ite (.refl _) (Keeps.mk_iff.2 hs2))

theorem fireSkipped_keeps {s t : State} (h : Keeps s t) (fuel : Nat) :
    Keeps s (t.fireSkipped fuel) := by
  induction fuel generalizing t with
  | zero =>
    rw [State.fireSkipped]
    · exact h
    · intros; omega
  | succ n ih =>
    unfold State.fireSkipped
    split
    · rename_i e _
      cases e
      exact ih (dispatchFiring_keeps (firedTec_keeps h _ _ _) _ _ _ _ _)
    · exact h

theorem execStepFrame_keeps (s : State) :
    NextKeeps s (execStepFrame s) := by
  unfold execStepFrame
  refine .next ?_
  split
  · exact .refl _
  · extract_lets old s1 s2
    have hs1 : Keeps s s1 := applyStep_keeps (examineAll_keeps (.refl _)) _
    have hs2 : Keeps s s2 := Keeps.ite (fireSkipped_keeps hs1 _) hs1
    exact Keeps.ite (.refl _) (restartIdle_keeps (regridAll_keeps (restep_keeps hs2)))

theorem armEntry_keeps {s t : State} (h : Keeps s t) (e : TecEntry) :
    Keeps s (t.armEntry e).1 := by
  unfold State.armEntry
  refine Keeps.iteFst (armHost_keeps h _) ?_
  split
  · rename_i e1
    exact Keeps.fst e1 (armHost_keeps h _)
  · rename_i _ e1
    have hs1 := Keeps.fst e1 (armHost_keeps h _)
    split
    · exact hs1
    · exact dispatchFiring_keeps (firedTec_keeps hs1 _ _ _) _ _ _ _ _

theorem armCmd_keeps {s t : State} (hk : Keeps s t) (h : CmdHdr) (e : TecEntry) :
    Keeps s (t.armCmd h e).1 := by
  unfold State.armCmd
  refine Keeps.iteFst hk (Keeps.iteFst hk ?_)
  split
  · rename_i e1
    exact Keeps.fst e1 (armEntry_keeps hk _)
  · rename_i _ e1
    have hs1 := Keeps.fst e1 (armEntry_keeps hk _)
    exact Keeps.iteFst (sendAll_keeps (Keeps.mk_iff.2 hs1) _) hs1

theorem execTecArm_keeps (h : CmdHdr) (words : List Nat) (s : State) :
    NextKeeps s (execTecArm h words s) :=
  .next (cmdLater_keeps (.refl _) _ _ _ _ _ (fun _ hs1 => armCmd_keeps hs1 _ _))

theorem execTecCancel_keeps (h : CmdHdr) (handle : Nat) (s : State) :
    NextKeeps s (execTecCancel h handle s) := by
  unfold execTecCancel
  refine .next (cmd_keeps (.refl _) _ _ _ _ _ (fun s1 hs1 => Keeps.iteFst hs1 ?_))
  split
  · exact hs1
  · extract_lets s11
    have hs11 : Keeps s s11 := delTec_keeps hs1 _
    exact Keeps.iteFst hs1 (Keeps.ite (sendAll_keeps hs11 _) hs11)

theorem execCntSnapshotAt_keeps (h : CmdHdr) (bank groups instant : Nat) (stack : Bool) (s : State) :
    NextKeeps s (execCntSnapshotAt h bank groups instant stack s) :=
  .next (cmdLater_keeps (.refl _) _ _ _ _ _ (fun _ hs1 => armCmd_keeps hs1 _ _))

end Sys2Proof.Sound
end

section
/-! What the definitions of Machine/EgressCmds.lean keep: the queue, the outputs, the free values, and soundness. -/

namespace Sys2Proof.Sound

open Sys2Proof.Machine Sys2Proof.Registers

theorem execIqmProfileSet_keeps (h : CmdHdr) (profile cls minCells alpha maxCells yellow red ageLimit : Nat)
    (s : State) :
    NextKeeps s (execIqmProfileSet h profile cls minCells alpha maxCells yellow red ageLimit s) := by
  unfold execIqmProfileSet
  refine .next (cmd_keeps (.refl _) _ _ _ _ _ (fun s1 hs1 => ?_))
  extract_lets v src s11
  have hs11 : Keeps s s11 := Keeps.mk_iff.2 hs1
  exact Keeps.iteFst hs11 hs1

theorem execIqmPortConfig_keeps (h : CmdHdr) (port profile : Nat) (pcpMap : List Nat) (defClass : Nat)
    (inSession egSession : Option Nat) (sampleN : Nat) (s : State) :
    NextKeeps s (execIqmPortConfig h port profile pcpMap defClass inSession egSession sampleN s) := by
  unfold execIqmPortConfig
  refine .next (cmd_keeps (.refl _) _ _ _ _ _ (fun s1 hs1 => Keeps.iteFst hs1 ?_))
  extract_lets v src s11
  have hs11 : Keeps s s11 := Keeps.mk_iff.2 hs1
  exact Keeps.iteFst hs11 hs1

theorem execIqmGlobalConfig_keeps (h : CmdHdr) (arrivalReserve mcReserve mirrorMax copyRate sampleLen : Nat)
    (ctEn : Bool) (s : State) :
    NextKeeps s (execIqmGlobalConfig h arrivalReserve mcReserve mirrorMax copyRate sampleLen ctEn s) := by
  unfold execIqmGlobalConfig
  refine .next (cmd_keeps (.refl _) _ _ _ _ _ (fun s1 hs1 => ?_))
  extract_lets src s11
  have hs11 : Keeps s s11 := Keeps.mk_iff.2 hs1
  exact Keeps.iteFst hs1 (setAll_keeps (setAll_keeps (setAll_keeps hs11 _ _ _ (by decide)) _ _ _ (by decide)) _ _ _
    (by decide))

theorem execIqmTrapConfig_keeps (h : CmdHdr) (index : Nat) (toCriod : Bool) (ring trapLen : Nat) (s : State) :
    NextKeeps s (execIqmTrapConfig h index toCriod ring trapLen s) :=
  .next (cmd_keeps (.refl _) _ _ _ _ _ (fun _ hs1 => Keeps.mk_iff.2 hs1))

theorem execIqmVoqStatus_keeps (h : CmdHdr) (pipe port cls : Nat) (s : State) :
    NextKeeps s (execIqmVoqStatus h pipe port cls s) := by
  unfold execIqmVoqStatus
  refine .next (cmd_keeps (.refl _) _ _ _ _ _ (fun s1 hs1 => ?_))
  exact hs1

theorem execReplGroupSet_keeps (h : CmdHdr) (group : Nat) (prune : Bool) (members : List (Nat × Nat × Option Nat))
    (s : State) :
    NextKeeps s (execReplGroupSet h group prune members s) := by
  unfold execReplGroupSet
  refine .next (cmd_keeps (.refl _) _ _ _ _ _ (fun s1 hs1 => ?_))
  exact Keeps.iteFst hs1 (Keeps.mk_iff.2 hs1)

theorem execMirrorSessionSet_keeps (h : CmdHdr) (session : Nat) (m : MirrorArg) (s : State) :
    NextKeeps s (execMirrorSessionSet h session m s) := by
  unfold execMirrorSessionSet
  refine .next (cmd_keeps (.refl _) _ _ _ _ _ (fun s1 hs1 => ?_))
  exact Keeps.mk_iff.2 hs1

theorem execSmpProfileSet_keeps (h : CmdHdr) (profile n : Nat) (s : State) :
    NextKeeps s (execSmpProfileSet h profile n s) :=
  .next (cmd_keeps (.refl _) _ _ _ _ _ (fun _ hs1 => Keeps.mk_iff.2 hs1))

theorem execEgsSchedConfig_keeps (h : CmdHdr) (port : Nat) (classes : List (Bool × Nat)) (shapedMask : Nat)
    (s : State) :
    NextKeeps s (execEgsSchedConfig h port classes shapedMask s) := by
  unfold execEgsSchedConfig
  refine .next (cmd_keeps (.refl _) _ _ _ _ _ (fun s1 hs1 => Keeps.iteFst hs1 ?_))
  exact Keeps.mk_iff.2 hs1

theorem execEgsPortConfig_keeps (h : CmdHdr) (port : Nat) (frerElim : Bool) (gateLead : Nat) (s : State) :
    NextKeeps s (execEgsPortConfig h port frerElim gateLead s) := by
  unfold execEgsPortConfig
  refine .next (cmd_keeps (.refl _) _ _ _ _ _ (fun s1 hs1 => Keeps.iteFst hs1 ?_))
  extract_lets rest src s11
  have hs11 : Keeps s s11 := Keeps.mk_iff.2 hs1
  exact setF_keeps hs11 _ _ _ (by decide)

theorem execEgsUnlockedConfig_keeps (h : CmdHdr) (state mask : Nat) (s : State) :
    NextKeeps s (execEgsUnlockedConfig h state mask s) :=
  .next (cmd_keeps (.refl _) _ _ _ _ _ (fun _ hs1 => setAll_keeps (setAll_keeps hs1 _ _ _ (by decide)) _ _ _
    (by decide)))

theorem execEgsRewriteSet_keeps (h : CmdHdr) (index : Nat) (words : List Nat) (s : State) :
    NextKeeps s (execEgsRewriteSet h index words s) :=
  .next (cmd_keeps (.refl _) _ _ _ _ _ (fun _ hs1 => Keeps.mk_iff.2 hs1))

theorem execRewriteEntryRepair_keeps (index : Nat) (s : State) :
    NextKeeps s (execRewriteEntryRepair index s) :=
  .next (Keeps.ite (raise_keeps (Keeps.mk_iff.2 (.refl _)) _ _ _ _) (.refl _))

theorem execEgsFailoverConfig_keeps (h : CmdHdr) (revertHoldoff : Nat) (s : State) :
    NextKeeps s (execEgsFailoverConfig h revertHoldoff s) :=
  .next (cmd_keeps (.refl _) _ _ _ _ _ (fun _ hs1 => Keeps.mk_iff.2 hs1))

theorem execFailoverRevert_keeps (port : Nat) (s : State) :
    NextKeeps s (execFailoverRevert port s) := by
  unfold execFailoverRevert
  refine .next ?_
  split
  · exact .refl _
  · extract_lets n src s1
    have hs1 : Keeps s s1 := Keeps.mk_iff.2 (.refl _)
    exact Keeps.ite (.refl _) (raise_keeps (setF_keeps (setBit_keeps hs1 _ _ _ _ (by decide)) _ _ _ (by decide)) _ _
      _ _)

theorem syncRed_keeps {s t : State} (h : Keeps s t) :
    Keeps s t.syncRed :=
  setF_keeps h _ _ _ (by decide)

theorem execRedConfig_keeps (h : CmdHdr) (latentEn : Bool) (period : Nat) (s : State) :
    NextKeeps s (execRedConfig h latentEn period s) :=
  .next (cmd_keeps (.refl _) _ _ _ _ _ (fun _ hs1 => setF_keeps (setB_keeps hs1 _ _ _ (by decide)) _ _ _ (by decide)))

theorem execRedMonitorSet_keeps (h : CmdHdr) (monitor handle n threshold : Nat) (enable : Bool) (s : State) :
    NextKeeps s (execRedMonitorSet h monitor handle n threshold enable s) := by
  unfold execRedMonitorSet
  refine .next (cmd_keeps (.refl _) _ _ _ _ _ (fun s1 hs1 => ?_))
  exact syncRed_keeps (Keeps.mk_iff.2 hs1)

theorem redAlarm_keeps {s t : State} (h : Keeps s t) (i : Nat) (m : Monitor) :
    Keeps s (t.redAlarm i m) := by
  unfold State.redAlarm
  extract_lets s1
  have hs1 : Keeps s s1 := Keeps.ite h (setF_keeps (setF_keeps h _ _ _ (by decide)) _ _ _ (by decide))
  exact raise_keeps (count_keeps (setF_keeps hs1 _ _ _ (by decide)) _ _) _ _ _ _

theorem redEcc_keeps {s t : State} (h : Keeps s t) (e : EccErr) :
    Keeps s (t.redEcc e) :=
  Keeps.ite (setF_keeps h _ _ _ (by decide)) (raise_keeps (setF_keeps (Keeps.mk_iff.2 h) _ _ _ (by decide)) _ _ _ _)

theorem execLatentPeriodEnd_keeps (errs : List EccErr) (s : State) :
    NextKeeps s (execLatentPeriodEnd errs s) := by
  unfold execLatentPeriodEnd
  extract_lets s1 loud s2 src
  have hs1 : Keeps s s1 := Keeps.foldl _ (fun _ _ hu => redEcc_keeps hu _) (.refl _)
  have hs2 : Keeps s s2 := setF_keeps (Keeps.foldl _ (fun _ _ ht => redAlarm_keeps ht _ _) hs1) _ _ _ (by decide)
  exact .next (Keeps.ite (.refl _) (Keeps.mk_iff.2 hs2))

end Sys2Proof.Sound
end

section
/-! What the definitions of Machine/Remote.lean keep: the queue, the outputs, the free values, and soundness. -/

namespace Sys2Proof.Sound

open Sys2Proof.Machine Sys2Proof.Registers

theorem quitRequest_keeps {s t : State} (h : Keeps s t) (member id : Nat) :
    Keeps s (t.quitRequest member id) :=
  sendTo_keeps h _ _

theorem setDefers_keeps {s t : State} (h : Keeps s t) (id n : Nat) :
    Keeps s (t.setDefers id n) :=
  Keeps.mk_iff.2 h

theorem nextRemote_keeps {s t : State} (h : Keeps s t) (key : List Nat) :
    Keeps s (t.nextRemote key) := by
  unfold State.nextRemote
  extract_lets k chain ask
  have hask : ∀ t1 e, Keeps s t1 → Keeps s (ask t1 e) := by
    refine fun t1 e ht1 => ?_
    unfold ask
    split
    · exact sendRequest_keeps (mqSet_keeps ht1 _ _ _) _ _ _ _
    · exact mqDrop_keeps ht1 _ _
  exact Keeps.ite (syncParked_keeps h) (syncParked_keeps (Keeps.foldl _ (fun _ _ hu => hask _ _ hu) h))

theorem parkRequest_keeps {s t : State} (h : Keeps s t) (member id : Nat) (p : Pkt) :
    Keeps s (t.parkRequest member id p) :=
  Keeps.ite (syncParked_keeps (mqSet_keeps h _ _ _)) (Keeps.ite (syncParked_keeps (mqAdd_keeps h _ _))
    (quitRequest_keeps (overflow_keeps (count_keeps (setF_keeps h _ _ _ (by decide)) _ _) _ _) _ _))

theorem deferred_keeps {s t : State} (h : Keeps s t) (member id : Nat) :
    Keeps s (t.deferred member id) := by
  unfold State.deferred
  split
  · exact quitRequest_keeps h _ _
  · extract_lets n s1 k behind s2 s21
    have hs1 : Keeps s s1 := count_keeps h _ _
    have hs2 : Keeps s s2 := setF_keeps (count_keeps hs1 _ _) _ _ _ (by decide)
    have hs21 : Keeps s s21 := parkRequest_keeps (setDefers_keeps hs1 _ _) _ _ _
    exact Keeps.ite (syncParked_keeps (quitRequest_keeps (setDefers_keeps (overflowAll_keeps hs2 _ _ _) _ _) _ _))
      (Keeps.ite hs21 (tellFrameEnd_keeps hs21 _ _))

theorem releaseRemote_keeps {s t : State} (h : Keeps s t) (member id : Nat) (a : Answer) :
    Keeps s (t.releaseRemote member id a) :=
  sendTo_keeps h _ _

theorem returned_keeps {s t : State} (h : Keeps s t) (member id : Nat) (r : StkReturn) :
    Keeps s (t.returned member id r) := by
  unfold State.returned
  split
  · exact deferred_keeps h _ _
  · exact releaseRemote_keeps h _ _ _
  · exact h
  · extract_lets s1 k s11 s2
    have hs1 : Keeps s s1 := by
      unfold s1
      split
      · exact releaseRemote_keeps h _ _ _
      · exact h
    have hs11 : Keeps s s11 := setDefers_keeps (mqDrop_keeps h _ _) _ _
    have hs2 : Keeps s s2 := by
      unfold s2
      split
      · exact sendAnswer_keeps hs11 _ _
      · exact sendAnswer_keeps (modPkt_keeps hs11 _ _) _ _
      · exact dropPkt_keeps hs11 _
    exact Keeps.ite (parkRequest_keeps hs1 _ _ _) (nextRemote_keeps hs2 _)

theorem reissue_keeps {s t : State} (h : Keeps s t) (id : Nat) :
    Keeps s (t.reissue id) := by
  unfold State.reissue
  split
  · exact h
  · split
    · exact h
    · split
      · exact h
      · exact sendRequest_keeps h _ _ _ _
      · exact nextRemote_keeps (mqDrop_keeps h _ _) _

theorem execRemoteReissueTimeout_keeps (pkt : Nat) (s : State) :
    NextKeeps s (execRemoteReissueTimeout pkt s) :=
  .next (Keeps.ite (reissue_keeps (.refl _) _) (.refl _))

theorem remoteDone_keeps {s t : State} (h : Keeps s t) (tag : Nat) :
    Keeps s (t.remoteDone tag) := by
  unfold State.remoteDone
  split
  · exact h
  · extract_lets s1 src
    have hs1 : Keeps s s1 := by
      unfold s1
      split
      · exact Keeps.ite h (endChain_keeps h _ _)
      · exact h
    exact Keeps.mk_iff.2 hs1

theorem remoteReplay_keeps {s t : State} (h : Keeps s t) (member tag handle : Nat) (image : List Nat) :
    Keeps s (t.remoteReplay member tag handle image) := by
  unfold State.remoteReplay
  extract_lets rel src
  split
  · exact sendTo_keeps h _ _
  · split
    · exact Keeps.mk_iff.2 h
    · exact sendTo_keeps h _ _

theorem takeRequest_keeps {s t : State} (h : Keeps s t) (link slot member : Nat) (r : StkRequest) :
    Keeps s (t.takeRequest link slot member r) := by
  unfold State.takeRequest
  extract_lets id src s1 src1 src2 p home src3 src4
  have hs1 : Keeps s s1 := Keeps.mk_iff.2 h
  exact Keeps.ite (Keeps.mk_iff.2 hs1) (Keeps.mk_iff.2 hs1)

theorem serveProxies_keeps {s t : State} (h : Keeps s t) :
    Keeps s t.serveProxies := by
  unfold State.serveProxies
  extract_lets mine acks reps src s0 give s1 s2
  have hs0 : Keeps s s0 := Keeps.mk_iff.2 h
  have hgive : ∀ t1 a, Keeps s t1 → Keeps s (give t1 a) := by
    refine fun t1 a ht1 => ?_
    unfold give
    split
    · exact proxyReady_keeps ht1 _ _
    · exact proxyReady_keeps ht1 _ _
    · exact pushUpdate_keeps ht1 _
    · exact ht1
  have hs1 : Keeps s s1 := Keeps.foldl _ (fun _ _ hu => hgive _ _ hu) hs0
  have hs2 : Keeps s s2 := Keeps.foldl _ (fun _ _ ht1 => forgetProxy_keeps (sendProxy_keeps ht1 _ _) _) hs1
  exact Keeps.foldl _ (fun _ _ ht1 => sendProxy_keeps ht1 _ _) hs2

theorem remoteUpdate_keeps {s t : State} (h : Keeps s t) (member : Nat) (tag : Option Nat) (gone : Bool) (u : Update)
    :
    Keeps s (t.remoteUpdate member tag gone u) := by
  unfold State.remoteUpdate
  extract_lets pkt src s1 s2 src1
  have hs1 : Keeps s s1 := Keeps.ite (Keeps.elim (fun _ => Keeps.mk_iff.2 h) h) h
  have hs2 : Keeps s s2 := pushUpdate_keeps hs1 _
  exact Keeps.ite (Keeps.elim (fun _ => Keeps.mk_iff.2 hs2) hs2) hs2

theorem remoteEnd_keeps {s t : State} (h : Keeps s t) (member tag : Nat) (bad : Bool) (len : Nat) (head : List Nat) :
    Keeps s (t.remoteEnd member tag bad len head) := by
  unfold State.remoteEnd
  extract_lets id
  split
  · exact h
  · exact setupFrameEnd_keeps (modPkt_keeps h _ _) _ _

theorem payReturn_keeps {s t : State} (h : Keeps s t) (link slot : Nat) :
    Keeps s (t.payReturn link slot).1 := by
  unfold State.payReturn
  split
  · exact h
  · extract_lets src s1 src1 s2
    have hs1 : Keeps s s1 := Keeps.mk_iff.2 h
    have hs2 : Keeps s s2 := Keeps.mk_iff.2 hs1
    split
    · exact Keeps.ite hs2 (forgetProxy_keeps hs2 _)
    · exact forgetProxy_keeps hs1 _
    · exact Keeps.iteFst (Keeps.mk_iff.2 hs1) hs1

theorem nextRequest_keeps {s t : State} (h : Keeps s t) (link slot : Nat) :
    Keeps s (t.nextRequest link slot).1 := by
  unfold State.nextRequest
  extract_lets q live src
  clear_value live
  split
  · exact Keeps.mk_iff.2 h
  · split
    · exact h
    · extract_lets s1
      have hs1 : Keeps s s1 := Keeps.mk_iff.2 h
      exact count_keeps hs1 _ _

end Sys2Proof.Sound
end

section
/-! What the definitions of Machine/Stack.lean keep: the queue, the outputs, the free values, and soundness. -/

namespace Sys2Proof.Sound

open Sys2Proof.Machine Sys2Proof.Registers

theorem formStack_keeps {s t : State} (h : Keeps s t) (mode lSlots members : Nat) (master : Option Nat) :
    Keeps s (t.formStack mode lSlots members master) := by
  unfold State.formStack
  extract_lets s1 s2 src
  have hs1 : Keeps s s1 := setF_keeps (setF_keeps (setF_keeps h _ _ _ (by decide)) _ _ _ (by decide)) _ _ _
    (by decide)
  have hs2 : Keeps s s2 := setF_keeps (setF_keeps (setF_keeps hs1 _ _ _ (by decide)) _ _ _ (by decide)) _ _ _
    (by decide)
  exact raiseIrq_keeps (endCondition_keeps (Keeps.mk_iff.2 hs2) _ _) _ (by decide)

theorem resign_keeps {s t : State} (h : Keeps s t) (master : Option Nat) :
    Keeps s (t.resign master) := by
  unfold State.resign
  extract_lets s1 src
  have hs1 : Keeps s s1 := setF_keeps (setF_keeps (setF_keeps h _ _ _ (by decide)) _ _ _ (by decide)) _ _ _
    (by decide)
  exact raiseIrq_keeps (setF_keeps (Keeps.mk_iff.2 hs1) _ _ _ (by decide)) _ (by decide)

theorem takeOver_keeps {s t : State} (h : Keeps s t) :
    Keeps s t.takeOver := by
  unfold State.takeOver
  extract_lets g s1 s2 src s3 src1
  have hs1 : Keeps s s1 := setF_keeps (setF_keeps (setF_keeps h _ _ _ (by decide)) _ _ _ (by decide)) _ _ _
    (by decide)
  have hs2 : Keeps s s2 := raiseIrq_keeps (raise_keeps (count_keeps (setF_keeps hs1 _ _ _ (by decide)) _ _) _ _ _ _)
    _ (by decide)
  have hs3 : Keeps s s3 := Keeps.mk_iff.2 hs2
  exact Keeps.ite (sendAll_keeps (Keeps.mk_iff.2 hs3) _) hs3

theorem execDeputyTakeover_keeps (s : State) :
    NextKeeps s (execDeputyTakeover s) :=
  .next (Keeps.ite (.refl _) (Keeps.ite (takeOver_keeps (.refl _))
    (Keeps.ite (.refl _) (raise_keeps (.refl _) _ _ _ _))))

theorem execMasterResign_keeps (s : State) :
    NextKeeps s (execMasterResign s) :=
  .next (Keeps.ite (.refl _) (Keeps.ite (resign_keeps (.refl _) _) (Keeps.ite (resign_keeps (.refl _) _) (.refl _))))

theorem execSeedWaitExpiry_keeps (s : State) :
    NextKeeps s (execSeedWaitExpiry s) :=
  .next (Keeps.ite (.refl _) (setF_keeps (.refl _) _ _ _ (by decide)))

theorem loseTx_keeps {s t : State} (h : Keeps s t) (m : Nat) (e : Nat × Tx) :
    Keeps s (t.loseTx m e) :=
  Keeps.ite (Keeps.ite h (txAbort_keeps h _ _)) (Keeps.ite h (Keeps.ite
    (declareLoss_keeps (setTx_keeps h _ _) _ _ _ _ _) (txAbort_keeps h _ _)))

theorem loseRequest_keeps {s t : State} (h : Keeps s t) (id : Nat) :
    Keeps s (t.loseRequest id) := by
  unfold State.loseRequest
  split
  · exact h
  · exact unreachable_keeps (setDefers_keeps (mqDrop_keeps h _ _) _ _) _ _

theorem loseAwaiting_keeps {s t : State} (h : Keeps s t) (m : Nat) (e : Nat × Pkt) :
    Keeps s (t.loseAwaiting m e) := by
  unfold State.loseAwaiting
  split
  · exact h
  · extract_lets s1
    have hs1 : Keeps s s1 := Keeps.ite h (endChain_keeps h _ _)
    exact Keeps.ite h (Keeps.ite (endPkt_keeps (modPkt_keeps hs1 _ _) _ _) (failTrigger_keeps hs1 _ _))

theorem loseMember_keeps {s t : State} (h : Keeps s t) (m : Nat) :
    Keeps s (t.loseMember m) := by
  unfold State.loseMember
  extract_lets ids links src s0 s1 s2 s3 mine
  have hs0 : Keeps s s0 := Keeps.mk_iff.2 h
  have hs1 : Keeps s s1 := Keeps.foldl _ (fun _ _ hu => loseRequest_keeps hu _) hs0
  have hs2 : Keeps s s2 := Keeps.foldl _ (fun _ _ hu => loseAwaiting_keeps hu _ _) hs1
  have hs3 : Keeps s s3 := Keeps.foldl _ (fun _ _ hu => loseTx_keeps hu _ _) hs2
  exact Keeps.foldl _ (fun _ _ hu => forgetProxy_keeps hu _) (serveProxies_keeps hs3)

theorem showLink_keeps {s t : State} (h : Keeps s t) (link : Nat) (up : Bool) :
    Keeps s (t.showLink link up) :=
  setF_keeps (setB_keeps h _ _ _ (by decide)) _ _ _ (by decide)

theorem bindLink_keeps {s t : State} (h : Keeps s t) (link macro_ peer : Nat) :
    Keeps s (t.bindLink link macro_ peer) := by
  unfold State.bindLink
  extract_lets s1 src
  have hs1 : Keeps s s1 := setF_keeps (setF_keeps (setF_keeps h _ _ _ (by decide)) _ _ _ (by decide)) _ _ _
    (by decide)
  exact Keeps.mk_iff.2 hs1

theorem giveSeed_keeps {s t : State} (h : Keeps s t) (link : Nat) :
    Keeps s (t.giveSeed link) :=
  Keeps.ite (sendBulk_keeps h _ _) h

theorem execKendrelLinkUp_keeps (link macro_ peer role delay : Nat) (s : State) :
    NextKeeps s (execKendrelLinkUp link macro_ peer role delay s) := by
  unfold execKendrelLinkUp
  extract_lets s1 src s2
  have hs1 : Keeps s s1 := setF_keeps (bindLink_keeps (.refl _) _ _ _) _ _ _ (by decide)
  have hs2 : Keeps s s2 := Keeps.mk_iff.2 hs1
  exact .next (Keeps.ite (.refl _) (Keeps.ite (raise_keeps (.refl _) _ _ _ _)
    (giveSeed_keeps (endCondition_keeps (showLink_keeps hs2 _ _) _ _) _)))

theorem resend_keeps {s t : State} (h : Keeps s t) (member : Nat) (m : StkMsg) :
    Keeps s (t.resend member m) := by
  unfold State.resend
  split
  · exact h
  · exact sendTo_keeps h _ _

theorem dropLink_keeps {s t : State} (h : Keeps s t) (link : Nat) :
    Keeps s (t.dropLink link) := by
  unfold State.dropLink
  extract_lets m s0 s1 port s2 waiting asked queued src s3 s4 park s5 again
  have hs0 : Keeps s s0 := count_keeps (setF_keeps (showLink_keeps h _ _) _ _ _ (by decide)) _ _
  have hs1 : Keeps s s1 := raise_keeps hs0 _ _ _ _
  have hs2 : Keeps s s2 := Keeps.foldl _ (fun _ _ ht1 => loseCopy_keeps ht1 _) hs1
  have hs3 : Keeps s s3 := Keeps.mk_iff.2 hs2
  have hs4 : Keeps s s4 := Keeps.foldl _ (fun _ _ hu => resend_keeps hu _ _) hs3
  have hpark : ∀ t1 id, Keeps s t1 → Keeps s (park t1 id) := fun _ _ ht1 => Keeps.elim
    (fun p => parkRequest_keeps ht1 _ _ _) ht1
  have hs5 : Keeps s s5 := Keeps.foldl _ (fun _ _ hu => hpark _ _ hu) hs4
  have hagain : ∀ t1 id, Keeps s t1 → Keeps s (again t1 id) := fun _ _ ht1 => Keeps.elim
    (fun p => sendRequest_keeps ht1 _ _ _ _) ht1
  exact Keeps.ite (loseMember_keeps (Keeps.mk_iff.2 hs2) _) (Keeps.foldl _ (fun _ _ hu => hagain _ _ hu)
    (Keeps.foldl _ (fun _ _ hu => reissue_keeps hu _) hs5))

theorem execKendrelLinkDown_keeps (link : Nat) (s : State) :
    NextKeeps s (execKendrelLinkDown link s) :=
  .next (Keeps.ite (.refl _) (dropLink_keeps (.refl _) _))

theorem formFails_keeps {s t : State} (h : Keeps s t) (f : StkForm) :
    Keeps s (t.formFails f) :=
  answer_keeps (setF_keeps (Keeps.mk_iff.2 h) _ _ _ (by decide)) _ _ _ _

theorem formed_keeps {s t : State} (h : Keeps s t) (f : StkForm) :
    Keeps s (t.formed f) := by
  unfold State.formed
  extract_lets bits src s1
  have hs1 : Keeps s s1 := formStack_keeps (Keeps.mk_iff.2 h) _ _ _ _
  exact answer_keeps (sendAll_keeps hs1 _) _ _ _ _

theorem formAnswer_keeps {s t : State} (h : Keeps s t) (member : Nat) (accept : Bool) :
    Keeps s (t.formAnswer member accept) := by
  unfold State.formAnswer
  split
  · exact h
  · exact Keeps.ite h (Keeps.ite (formFails_keeps h _) (Keeps.ite (formed_keeps h _) (Keeps.mk_iff.2 h)))

theorem execStackFormResponse_keeps (member : Nat) (accept : Bool) (s : State) :
    NextKeeps s (execStackFormResponse member accept s) :=
  .next (formAnswer_keeps (.refl _) _ _)

theorem execStackFormTimeout_keeps (s : State) :
    NextKeeps s (execStackFormTimeout s) := by
  unfold execStackFormTimeout
  refine .next ?_
  split
  · exact .refl _
  · exact Keeps.ite (.refl _) (formFails_keeps (.refl _) _)

theorem dissolve_keeps {s t : State} (h : Keeps s t) :
    Keeps s t.dissolve := by
  unfold State.dissolve
  extract_lets s1 s2 src
  have hs1 : Keeps s s1 := Keeps.foldl _ (fun _ _ hu => loseMember_keeps hu _) h
  have hs2 : Keeps s s2 := setF_keeps (setF_keeps (setF_keeps hs1 _ _ _ (by decide)) _ _ _ (by decide)) _ _ _
    (by decide)
  exact raiseIrq_keeps (Keeps.mk_iff.2 hs2) _ (by decide)

theorem execStkConfig_keeps (h : CmdHdr) (mode lSlots : Nat) (maps : List StkMap) (s : State) :
    NextKeeps s (execStkConfig h mode lSlots maps s) := by
  unfold execStkConfig
  refine .next (cmdLater_keeps (.refl _) _ _ _ _ _ (fun s1 hs1 => ?_))
  extract_lets own others f s11 src s12
  have hs11 : Keeps s s11 := formStack_keeps hs1 _ _ _ _
  have hs12 : Keeps s s12 := Keeps.mk_iff.2 hs1
  exact Keeps.iteFst hs1 (Keeps.iteFst hs1 (Keeps.iteFst (Keeps.ite (dissolve_keeps (sendAll_keeps hs1 _)) hs1)
    (Keeps.iteFst hs1 (Keeps.iteFst hs11 (Keeps.foldl _ (fun _ _ ht => sendTo_keeps ht _ _) hs12)))))

/-- The definition is unfolded as a constant, before its arguments: the kernel would else evaluate the entry that the
words spell. -/
theorem armFor_keeps {s t : State} (h : Keeps s t) (member ref : Nat) (words : List Nat) :
    Keeps s (t.armFor member ref words) := by
  obtain ⟨f, hf⟩ : ∃ f, f = State.armFor := ⟨_, rfl⟩
  rw [← hf]
  delta State.armFor at hf
  have happ := congrFun (congrFun (congrFun (congrFun hf t) member) ref) words
  rw [happ]
  have harm : Keeps s (t.armEntry (tecOf words 0)).1 := armEntry_keeps h _
  generalize t.armEntry (tecOf words 0) = r at harm ⊢
  obtain ⟨u, i | i⟩ := r
  · exact sendTo_keeps harm _ _
  · exact sendTo_keeps (Keeps.mk_iff.2 harm) _ _

theorem disarmFor_keeps {s t : State} (h : Keeps s t) (ref : Nat) :
    Keeps s (t.disarmFor ref) := by
  unfold State.disarmFor
  split
  · exact h
  · exact delTec_keeps (Keeps.mk_iff.2 h) _

theorem armAnswer_keeps {s t : State} (h : Keeps s t) (member ref : Nat) (ok : Bool) :
    Keeps s (t.armAnswer member ref ok) := by
  unfold State.armAnswer
  split
  · exact h
  · exact Keeps.ite (answer_keeps (sendAll_keeps (delTec_keeps (Keeps.mk_iff.2 h) _) _) _ _ _ _)
      (Keeps.ite (answer_keeps (Keeps.mk_iff.2 h) _ _ _ _) (Keeps.mk_iff.2 h))

theorem openPart_keeps {s t : State} (h : Keeps s t) (member ref : Nat) (descs : List (List Nat)) :
    Keeps s (t.openPart member ref descs) := by
  unfold State.openPart
  split
  · rename_i e
    exact sendTo_keeps (Keeps.fst e (expandAll_keeps h _ _ _)) _ _
  · rename_i _ _ e
    have hs2 := Keeps.fst e (expandAll_keeps h _ _ _)
    exact Keeps.ite (sendTo_keeps (returnHandles_keeps hs2 _) _ _) (openFirmware_keeps (drawOne_keeps hs2) _ _ _)

theorem castVotes_keeps {s t : State} (h : Keeps s t) :
    Keeps s t.castVotes := by
  unfold State.castVotes
  extract_lets ready
  refine Keeps.foldl _ (fun t1 e ht1 => ?_) h
  split
  · exact ht1
  · exact Keeps.ite (txAbort_keeps ht1 _ _) (sendTo_keeps (setTx_keeps ht1 _ _) _ _)

theorem takeVote_keeps {s t : State} (h : Keeps s t) (member id code : Nat) :
    Keeps s (t.takeVote member id code) := by
  unfold State.takeVote
  split
  · exact h
  · exact Keeps.ite h (Keeps.ite (txAbort_keeps h _ _) (setTx_keeps h _ _))

theorem takeDone_keeps {s t : State} (h : Keeps s t) (member id code : Nat) (words : List Nat) :
    Keeps s (t.takeDone member id code words) := by
  unfold State.takeDone
  split
  · exact h
  · exact setTx_keeps h _ _

theorem takeFrame_keeps {s t : State} (hk : Keeps s t) (link : Nat) (h : StkHeader) (bytes : List Nat) :
    Keeps s (t.takeFrame link h bytes) := by
  unfold State.takeFrame
  extract_lets pipe p0 src p
  refine Keeps.ite hk ?_
  split
  rename_i e
  exact admitTo_keeps (injectBody_keeps (Keeps.fst e (addPkt_keeps hk _)) _ _) _

theorem quitProxy_keeps {s t : State} (h : Keeps s t) (id : Nat) :
    Keeps s (t.quitProxy id) := by
  unfold State.quitProxy
  extract_lets waits
  split
  · exact serveChained_keeps (mqDrop_keeps (forgetProxy_keeps h _) _ _) _ _
  · exact forgetProxy_keeps h _

theorem takeSwap_keeps {s t : State} (h : Keeps s t) (target at_ : Nat) :
    Keeps s (t.takeSwap target at_) :=
  Keeps.mk_iff.2 h

theorem takeDrained_keeps {s t : State} (h : Keeps s t) (member : Nat) :
    Keeps s (t.takeDrained member) := by
  unfold State.takeDrained
  extract_lets src s1
  have hs1 : Keeps s s1 := Keeps.mk_iff.2 h
  split
  · exact endStackSwap_keeps hs1 _ _
  · exact hs1

theorem logMember_keeps {s t : State} (h : Keeps s t) (member code severity arg0 arg1 sec ns : Nat) :
    Keeps s (t.logMember member code severity arg0 arg1 sec ns) :=
  logWrite_keeps h _

theorem takeMsg_keeps {s t : State} (h : Keeps s t) (link m gen role : Nat) (msg : StkMsg) :
    Keeps s (t.takeMsg link m gen role msg) := by
  unfold State.takeMsg
  refine Keeps.ite (setF_keeps (count_keeps h _ _) _ _ _ (by decide)) ?_
  split
  · exact takeFrame_keeps (count_keeps h _ _) _ _ _
  · exact remoteUpdate_keeps h _ _ _ _
  · exact Keeps.elim (fun e => reissue_keeps h _) h
  · exact remoteDone_keeps h _
  · exact Keeps.elim (fun e => failTrigger_keeps h _ _) h
  · exact remoteReplay_keeps h _ _ _ _
  · exact remoteEnd_keeps h _ _ _ _ _
  · exact quitProxy_keeps h _
  · exact Keeps.ite (Keeps.mk_iff.2 h) h
  · exact sendBulk_keeps h _ _
  · exact formAnswer_keeps h _ _
  · exact formStack_keeps h _ _ _ _
  · exact Keeps.ite (dissolve_keeps h) h
  · exact armFor_keeps h _ _ _
  · exact armAnswer_keeps h _ _ _
  · exact disarmFor_keeps h _
  · exact takeSwap_keeps h _ _
  · exact takeDrained_keeps h _
  · exact reportSwap_keeps (Keeps.mk_iff.2 h) _
  · exact logMember_keeps h _ _ _ _ _ _ _
  · extract_lets src s1
    have hs1 : Keeps s s1 := Keeps.mk_iff.2 h
    exact logMember_keeps hs1 _ _ _ _ _ _ _
  · exact openPart_keeps h _ _ _
  · exact takeVote_keeps h _ _ _
  · exact Keeps.elim (fun e => commitPoint_keeps h _) h
  · exact Keeps.elim (fun e => Keeps.ite h (returnHandles_keeps (delTx_keeps h _) _)) h
  · exact takeDone_keeps h _ _ _ _

theorem takeHeader_keeps {s t : State} (h : Keeps s t) (link : Nat) (f : StkFrame) :
    Keeps s (t.takeHeader link f) := by
  unfold State.takeHeader
  extract_lets heard src s1 src1 s2 src2 s3 s4 src3
  have hs1 : Keeps s s1 := Keeps.mk_iff.2 h
  have hs2 : Keeps s s2 := Keeps.ite (Keeps.mk_iff.2 hs1) hs1
  have hs3 : Keeps s s3 := Keeps.ite (Keeps.mk_iff.2 hs2) hs2
  have hs4 : Keeps s s4 := setF_keeps hs3 _ _ _ (by decide)
  exact Keeps.ite hs3 (Keeps.ite (Keeps.ite (resign_keeps hs4 _) hs4) (endCondition_keeps (Keeps.mk_iff.2 hs4) _ _))

theorem sendSlot_keeps {s t : State} (h : Keeps s t) (link slot : Nat) :
    Keeps s (t.sendSlot link slot) := by
  unfold State.sendSlot
  refine Keeps.ite h ?_
  split
  rename_i _ e
  have hs1 := Keeps.fst e (payReturn_keeps (serveProxies_keeps (castVotes_keeps h)) _ _)
  split
  rename_i _ e1
  have hs2 := Keeps.fst e1 (nextRequest_keeps hs1 _ _)
  extract_lets q bulk src s3 gen
  have hs3 : Keeps s s3 := Keeps.mk_iff.2 hs2
  exact emit_keeps hs3 _

theorem takeFields_keeps {s t : State} (h : Keeps s t) (link slot : Nat) (f : StkFrame) :
    Keeps s (t.takeFields link slot f) := by
  unfold State.takeFields
  extract_lets s1 l src s2 s3
  have hs1 : Keeps s s1 := takeHeader_keeps h _ _
  have hs2 : Keeps s s2 := by
    unfold s2
    split
    · exact hs1
    · extract_lets t1
      have ht1 : Keeps s t1 := Keeps.mk_iff.2 hs1
      split
      · exact returned_keeps ht1 _ _ _
      · exact deferred_keeps ht1 _ _
  have hs3 : Keeps s s3 := by
    unfold s3
    split
    · exact Keeps.ite (takeRequest_keeps hs2 _ _ _ _) hs2
    · exact hs2
  exact Keeps.foldl _ (fun _ _ hu => takeMsg_keeps hu _ _ _ _ _) hs3

theorem execKendrelSlotFrame_keeps (link slot : Nat) (frame : StkFrame) (s : State) :
    NextKeeps s (execKendrelSlotFrame link slot frame s) := by
  unfold execKendrelSlotFrame
  extract_lets s1 n src
  have hs1 : Keeps s s1 := count_keeps (count_keeps (.refl _) _ _) _ _
  exact .next (Keeps.ite (.refl _) (Keeps.ite (sendSlot_keeps (Keeps.mk_iff.2 hs1) _ _)
    (Keeps.ite (dropLink_keeps hs1 _) (sendSlot_keeps (takeFields_keeps hs1 _ _ _) _ _))))

theorem execTimeMarkerExchange_keeps (link : Nat) (theta : Int) (s : State) :
    NextKeeps s (execTimeMarkerExchange link theta s) := by
  unfold execTimeMarkerExchange
  refine .next (Keeps.ite (.refl _) ?_)
  split
  · exact .refl _
  · exact Keeps.ite (servoOffset_keeps (setF_keeps (.refl _) _ _ _ (by decide)) _ _)
      (Keeps.ite (servoOffset_keeps (setF_keeps (.refl _) _ _ _ (by decide)) _ _) (.refl _))

theorem execStkStatus_keeps (h : CmdHdr) (s : State) :
    NextKeeps s (execStkStatus h s) := by
  unfold execStkStatus
  refine .next (cmd_keeps (.refl _) _ _ _ _ _ (fun s1 hs1 => ?_))
  exact hs1

theorem execStkLinkStatus_keeps (h : CmdHdr) (link : Nat) (s : State) :
    NextKeeps s (execStkLinkStatus h link s) := by
  unfold execStkLinkStatus
  refine .next (cmd_keeps (.refl _) _ _ _ _ _ (fun s1 hs1 => ?_))
  exact hs1

end Sys2Proof.Sound
end

section
/-! The step, from the meanings of the instructions. -/

namespace Sys2Proof.Sound

open Sys2Proof.Machine

/-- Each instruction has the meaning of its own definition, and each of these keeps what a step keeps. -/
theorem exec_keeps (i : Instr) (s : State) : NextKeeps s (exec i s) :=
  match i with
  | .sysIdentity h => execSysIdentity_keeps h s
  | .sysStatus h => execSysStatus_keeps h s
  | .sysDebugChallenge h => execSysDebugChallenge_keeps h s
  | .sysDebugUnlock h key => execSysDebugUnlock_keeps h key s
  | .sysFwUpdate h image key written => execSysFwUpdate_keeps h image key written s
  | .sysFurl h => execSysFurl_keeps h s
  | .sysUnfurl h => execSysUnfurl_keeps h s
  | .mbxNop h => execMbxNop_keeps h s
  | .ringConfig h ring rtype base n slotSize vector count us enable =>
    execRingConfig_keeps h ring rtype base n slotSize vector count us enable s
  | .ringBind h cls dest => execRingBind_keeps h cls dest s
  | .ringStatus h ring => execRingStatus_keeps h ring s
  | .timeServoConfig h kp ki fMax lockThreshold lockCount unlockThreshold stepThreshold inputTimeout holdoverGrace =>
    execTimeServoConfig_keeps h kp ki fMax lockThreshold lockCount unlockThreshold stepThreshold inputTimeout
      holdoverGrace s
  | .timeDomainConfig h domain source port domainNumber meanPathDelay autoSwitch =>
    execTimeDomainConfig_keeps h domain source port domainNumber meanPathDelay autoSwitch s
  | .timeSelectDomain h domain => execTimeSelectDomain_keeps h domain s
  | .timeSlewConfig h slewRate slewRamp => execTimeSlewConfig_keeps h slewRate slewRamp s
  | .timeTcConfig h mode ports delays => execTimeTcConfig_keeps h mode ports delays s
  | .timeIoConfig h ioCtrl synce0 synce1 => execTimeIoConfig_keeps h ioCtrl synce0 synce1 s
  | .tecArm h words => execTecArm_keeps h words s
  | .tecCancel h handle => execTecCancel_keeps h handle s
  | .portConfig h port lanes laneRate fec medium anEn ltEn maxFrame ctEn holdoff =>
    execPortConfig_keeps h port lanes laneRate fec medium anEn ltEn maxFrame ctEn holdoff s
  | .portDelete h port => execPortDelete_keeps h port s
  | .portLaneMap h macro_ txOrder txPol rxOrder rxPol => execPortLaneMap_keeps h macro_ txOrder txPol rxOrder rxPol s
  | .portFcConfig h port mode classes xoff xon headroom quanta watchdog restore =>
    execPortFcConfig_keeps h port mode classes xoff xon headroom quanta watchdog restore s
  | .portStatus h port => execPortStatus_keeps h port s
  | .prsGraphWrite h index words => execPrsGraphWrite_keeps h index words s
  | .prsGraphRead h index => execPrsGraphRead_keeps h index s
  | .prsPortStart h port start group => execPrsPortStart_keeps h port start group s
  | .prsKeyProfile h index words => execPrsKeyProfile_keeps h index words s
  | .prsKeyMap h group keyClass profile => execPrsKeyMap_keeps h group keyClass profile s
  | .prsScanConfig h ipv4 geneve => execPrsScanConfig_keeps h ipv4 geneve s
  | .prsExcConfig h conflictAction trapEn trapToCriod trapRing trapLen =>
    execPrsExcConfig_keeps h conflictAction trapEn trapToCriod trapRing trapLen s
  | .emTableConfig h table wide keyUnits => execEmTableConfig_keeps h table wide keyUnits s
  | .emInsert h table key ep0 ep1 action data => execEmInsert_keeps h table key ep0 ep1 action data s
  | .emModify h table key epoch action data => execEmModify_keeps h table key epoch action data s
  | .emDelete h table key epoch => execEmDelete_keeps h table key epoch s
  | .emSetMembership h table key epoch ep0 ep1 => execEmSetMembership_keeps h table key epoch ep0 ep1 s
  | .emRead h table key epoch clearHit => execEmRead_keeps h table key epoch clearHit s
  | .clsClassProfile h index word => execClsClassProfile_keeps h index word s
  | .clsPortConfig h port vrf vlan unknownSa staticMove =>
    execClsPortConfig_keeps h port vrf vlan unknownSa staticMove s
  | .clsProfileSet h index words => execClsProfileSet_keeps h index words s
  | .l2Insert h vlan mac port isStatic => execL2Insert_keeps h vlan mac port isStatic s
  | .l2Delete h vlan mac => execL2Delete_keeps h vlan mac s
  | .l2LearnConfig h toHost ring holdoff rate ageTime sweepPeriod =>
    execL2LearnConfig_keeps h toHost ring holdoff rate ageTime sweepPeriod s
  | .routeHostAdd h vrf v6 addr plen fwdOp fwdTarget => execRouteHostAdd_keeps h vrf v6 addr plen fwdOp fwdTarget s
  | .routeLpmAdd h vrf v6 addr plen fwdOp fwdTarget => execRouteLpmAdd_keeps h vrf v6 addr plen fwdOp fwdTarget s
  | .routeDelete h table vrf v6 addr plen => execRouteDelete_keeps h table vrf v6 addr plen s
  | .nhSet h index port rewrite backup backupValid => execNhSet_keeps h index port rewrite backup backupValid s
  | .ecmpSet h group hashSel members => execEcmpSet_keeps h group hashSel members s
  | .epochSwap h target => execEpochSwap_keeps h target s
  | .epochStatus h => execEpochStatus_keeps h s
  | .mskBankConfig h bank width prio => execMskBankConfig_keeps h bank width prio s
  | .mskProfileSet h index words => execMskProfileSet_keeps h index words s
  | .mskWrite h bank index ep0 ep1 width value mask action =>
    execMskWrite_keeps h bank index ep0 ep1 width value mask action s
  | .mskModifyAction h bank index action => execMskModifyAction_keeps h bank index action s
  | .mskSetMembership h bank index ep0 ep1 => execMskSetMembership_keeps h bank index ep0 ep1 s
  | .mskDelete h bank index => execMskDelete_keeps h bank index s
  | .mskRead h bank index clearHit => execMskRead_keeps h bank index clearHit s
  | .mskScrubConfig h scrubEn => execMskScrubConfig_keeps h scrubEn s
  | .flowInsert h flow => execFlowInsert_keeps h flow s
  | .flowRead h byHandle handle key => execFlowRead_keeps h byHandle handle key s
  | .flowModify h key mask words => execFlowModify_keeps h key mask words s
  | .flowDelete h key => execFlowDelete_keeps h key s
  | .fstRebuild h k newSeed => execFstRebuild_keeps h k newSeed s
  | .fstSweepConfig h desc mask => execFstSweepConfig_keeps h desc mask s
  | .fstMqConfig h setupCap => execFstMqConfig_keeps h setupCap s
  | .fstStatus h shard => execFstStatus_keeps h shard s
  | .setupTemplateSet h index words => execSetupTemplateSet_keeps h index words s
  | .setupFwConfig h timeout => execSetupFwConfig_keeps h timeout s
  | .natPoolSet h pool insideBase insideShift subCount outsideBase addrCount portLo blockSize m prefix64 len64 =>
    execNatPoolSet_keeps h pool insideBase insideShift subCount outsideBase addrCount portLo blockSize m prefix64 len64 s
  | .natPoolStatus h pool sub => execNatPoolStatus_keeps h pool sub s
  | .natHoldConfig h seconds => execNatHoldConfig_keeps h seconds s
  | .bpmHeapConfig h n64 n128 n256 => execBpmHeapConfig_keeps h n64 n128 n256 s
  | .bpmCtrlConfig h counts => execBpmCtrlConfig_keeps h counts s
  | .bpmStatus h => execBpmStatus_keeps h s
  | .txOpen h => execTxOpen_keeps h s
  | .txAdd h tx descs => execTxAdd_keeps h tx descs s
  | .txCommit h tx => execTxCommit_keeps h tx s
  | .txAbort h tx => execTxAbort_keeps h tx s
  | .rigLoad h image key => execRigLoad_keeps h image key s
  | .rigEntrySet h entry valid ep0 ep1 limit => execRigEntrySet_keeps h entry valid ep0 ep1 limit s
  | .rigStatus h => execRigStatus_keeps h s
  | .rigTableWrite h kind first rows => execRigTableWrite_keeps h kind first rows s
  | .polProfileSet h index cir pir cbs pbs aware => execPolProfileSet_keeps h index cir pir cbs pbs aware s
  | .lbPoolSet h pool seed backends => execLbPoolSet_keeps h pool seed backends s
  | .lbBackendSet h backend address port state => execLbBackendSet_keeps h backend address port state s
  | .iqmProfileSet h profile cls minCells alpha maxCells yellow red ageLimit =>
    execIqmProfileSet_keeps h profile cls minCells alpha maxCells yellow red ageLimit s
  | .iqmPortConfig h port profile pcpMap defClass inSession egSession sampleN =>
    execIqmPortConfig_keeps h port profile pcpMap defClass inSession egSession sampleN s
  | .iqmGlobalConfig h arrivalReserve mcReserve mirrorMax copyRate sampleLen ctEn =>
    execIqmGlobalConfig_keeps h arrivalReserve mcReserve mirrorMax copyRate sampleLen ctEn s
  | .iqmTrapConfig h index toCriod ring trapLen => execIqmTrapConfig_keeps h index toCriod ring trapLen s
  | .iqmVoqStatus h pipe port cls => execIqmVoqStatus_keeps h pipe port cls s
  | .replGroupSet h group prune members => execReplGroupSet_keeps h group prune members s
  | .mirrorSessionSet h session m => execMirrorSessionSet_keeps h session m s
  | .smpProfileSet h profile n => execSmpProfileSet_keeps h profile n s
  | .egsSchedConfig h port classes shapedMask => execEgsSchedConfig_keeps h port classes shapedMask s
  | .egsShaperSet h port shaper mode rate burst overhead hi lo zeroReset =>
    execEgsShaperSet_keeps h port shaper mode rate burst overhead hi lo zeroReset s
  | .egsPortConfig h port frerElim gateLead => execEgsPortConfig_keeps h port frerElim gateLead s
  | .egsUnlockedConfig h state mask => execEgsUnlockedConfig_keeps h state mask s
  | .egsRewriteSet h index words => execEgsRewriteSet_keeps h index words s
  | .egsFailoverConfig h revertHoldoff => execEgsFailoverConfig_keeps h revertHoldoff s
  | .gateListSet h port list valid gateMask base cycleTime cycleExt entries =>
    execGateListSet_keeps h port list valid gateMask base cycleTime cycleExt entries s
  | .gateActivate h port list => execGateActivate_keeps h port list s
  | .gateStatus h port => execGateStatus_keeps h port s
  | .redConfig h latentEn period => execRedConfig_keeps h latentEn period s
  | .redMonitorSet h monitor handle n threshold enable =>
    execRedMonitorSet_keeps h monitor handle n threshold enable s
  | .mcxStatus h stack => execMcxStatus_keeps h stack s
  | .mcxHistory h stack => execMcxHistory_keeps h stack s
  | .mcxRhConfig h threshold => execMcxRhConfig_keeps h threshold s
  | .mcxScrubConfig h patrolEn scrubHours extLimit => execMcxScrubConfig_keeps h patrolEn scrubHours extLimit s
  | .mcxRetire h stack pc => execMcxRetire_keeps h stack pc s
  | .crdStatus h => execCrdStatus_keeps h s
  | .crdTakeover h core => execCrdTakeover_keeps h core s
  | .crdConfig h becalmedAction kickPeriod ckptPeriod => execCrdConfig_keeps h becalmedAction kickPeriod ckptPeriod s
  | .crdHealth h => execCrdHealth_keeps h s
  | .dbgStop h core thread => execDbgStop_keeps h core thread s
  | .dbgResume h core thread => execDbgResume_keeps h core thread s
  | .dbgStep h core thread writes => execDbgStep_keeps h core thread writes s
  | .dbgHold h core thread on => execDbgHold_keeps h core thread on s
  | .dbgThreadRead h core thread sram first count => execDbgThreadRead_keeps h core thread sram first count s
  | .dbgThreadWrite h core thread sram first values => execDbgThreadWrite_keeps h core thread sram first values s
  | .dbgChannelRead h channel => execDbgChannelRead_keeps h channel s
  | .dbgChannelAbort h channel => execDbgChannelAbort_keeps h channel s
  | .fltRead h index => execFltRead_keeps h index s
  | .fltClear h index => execFltClear_keeps h index s
  | .fltConfig h code notify intn => execFltConfig_keeps h code notify intn s
  | .logRead h first count => execLogRead_keeps h first count s
  | .logMarker h code word => execLogMarker_keeps h code word s
  | .availRead h => execAvailRead_keeps h s
  | .availReset h => execAvailReset_keeps h s
  | .cntSnapshot h bank groups => execCntSnapshot_keeps h bank groups s
  | .cntSnapshotAt h bank groups instant stack => execCntSnapshotAt_keeps h bank groups instant stack s
  | .cntRead h bank group first count => execCntRead_keeps h bank group first count s
  | .cntReadOne h group index => execCntReadOne_keeps h group index s
  | .cntClear h groups => execCntClear_keeps h groups s
  | .cntBwConfig h port code enable => execCntBwConfig_keeps h port code enable s
  | .cntBwRead h port => execCntBwRead_keeps h port s
  | .expTemplateSet h set header slots => execExpTemplateSet_keeps h set header slots s
  | .expCollectorSet h collector dest => execExpCollectorSet_keeps h collector dest s
  | .expConfig h enable interval defaultSet msgMax enterprise =>
    execExpConfig_keeps h enable interval defaultSet msgMax enterprise s
  | .expStatus h => execExpStatus_keeps h s
  | .lifeReport h source => execLifeReport_keeps h source s
  | .lifeConfig h alarmMonths => execLifeConfig_keeps h alarmMonths s
  | .stkConfig h mode lSlots maps => execStkConfig_keeps h mode lSlots maps s
  | .stkStatus h => execStkStatus_keeps h s
  | .stkLinkStatus h link => execStkLinkStatus_keeps h link s
  | .frameArrival port bytes => execFrameArrival_keeps port bytes s
  | .frameEndStatus port bytes fcs err corrCw uncorrCw =>
    execFrameEndStatus_keeps port bytes fcs err corrCw uncorrCw s
  | .rxMacControlFrame port opcode classes quanta => execRxMacControlFrame_keeps port opcode classes quanta s
  | .pauseExpiry port cls => execPauseExpiry_keeps port cls s
  | .xoffResend port cls => execXoffResend_keeps port cls s
  | .pfcWatchdog port cls => execPfcWatchdog_keeps port cls s
  | .pfcRestoreEnd port cls => execPfcRestoreEnd_keeps port cls s
  | .localLinkFault port cause => execLocalLinkFault_keeps port cause s
  | .remoteLinkFault port => execRemoteLinkFault_keeps port s
  | .linkUpHoldoffExpiry port => execLinkUpHoldoffExpiry_keeps port s
  | .anComplete port partner => execAnComplete_keeps port partner s
  | .anRestart port => execAnRestart_keeps port s
  | .deal pipe kind err => execDeal_keeps pipe kind err s
  | .parserReorderRelease pipe src errs => execParserReorderRelease_keeps pipe src errs s
  | .flowLookupRequest shard err => execFlowLookupRequest_keeps shard err s
  | .recordHop shard => execRecordHop_keeps shard s
  | .linkFill shard => execLinkFill_keeps shard s
  | .missReadReturn shard place corrected => execMissReadReturn_keeps shard place corrected s
  | .installRetry shard place => execInstallRetry_keeps shard place s
  | .lookupAnswer pipe => execLookupAnswer_keeps pipe s
  | .rigDispatch pipe upset => execRigDispatch_keeps pipe upset s
  | .tcallResult pipe rig wait upset => execTcallResult_keeps pipe rig wait upset s
  | .rigRestartComplete pipe goldenOk => execRigRestartComplete_keeps pipe goldenOk s
  | .updateFlit shard => execUpdateFlit_keeps shard s
  | .transitionAck pipe => execTransitionAck_keeps pipe s
  | .replayReply pipe => execReplayReply_keeps pipe s
  | .rigReorderRelease pipe src => execRigReorderRelease_keeps pipe src s
  | .voqReq egress => execVoqReq_keeps egress s
  | .voqEmpty egress => execVoqEmpty_keeps egress s
  | .grantIssue port => execGrantIssue_keeps port s
  | .grantArrival pipe place err => execGrantArrival_keeps pipe place err s
  | .ctRequest port => execCtRequest_keeps port s
  | .ctDeny pipe => execCtDeny_keeps pipe s
  | .cellLanding egress place err => execCellLanding_keeps egress place err s
  | .headScan pipe => execHeadScan_keeps pipe s
  | .transmitSelection port errs => execTransmitSelection_keeps port errs s
  | .ctUnderrun port => execCtUnderrun_keeps port s
  | .txFrameEnd port => execTxFrameEnd_keeps port s
  | .shaperWake pipe => execShaperWake_keeps pipe s
  | .wheelTurn pipe => execWheelTurn_keeps pipe s
  | .gateEntryChange port => execGateEntryChange_keeps port s
  | .gateChangeInstant port => execGateChangeInstant_keeps port s
  | .gateListRepair port => execGateListRepair_keeps port s
  | .failoverRevert port => execFailoverRevert_keeps port s
  | .latentPeriodEnd errs => execLatentPeriodEnd_keeps errs s
  | .residenceEntryExpiry pipeline => execResidenceEntryExpiry_keeps pipeline s
  | .rewriteEntryRepair index => execRewriteEntryRepair_keeps index s
  | .txDescriptorFetch ring words frame => execTxDescriptorFetch_keeps ring words frame s
  | .timeBaseTick => execTimeBaseTick_keeps s
  | .halyardFrame deviations => execHalyardFrame_keeps deviations s
  | .stepFrame => execStepFrame_keeps s
  | .servoOffset domain theta => execServoOffset_keeps domain theta s
  | .domainTimeout domain => execDomainTimeout_keeps domain s
  | .holdoverGraceExpiry => execHoldoverGraceExpiry_keeps s
  | .tecFiring => execTecFiring_keeps s
  | .tecDeferredFiring => execTecDeferredFiring_keeps s
  | .ppsOutEdge => execPpsOutEdge_keeps s
  | .ppsInEdge => execPpsInEdge_keeps s
  | .todMessageRx chars => execTodMessageRx_keeps chars s
  | .todWindowExpiry => execTodWindowExpiry_keeps s
  | .todOutput => execTodOutput_keeps s
  | .referenceLost ref => execReferenceLost_keeps ref s
  | .referenceRelock ref => execReferenceRelock_keeps ref s
  | .prsEntryRepair pipe table index => execPrsEntryRepair_keeps pipe table index s
  | .clsEntryRepair die table index => execClsEntryRepair_keeps die table index s
  | .mskScrubVisit pipe upset shroud => execMskScrubVisit_keeps pipe upset shroud s
  | .mskSuspectRepair pipe bank unit => execMskSuspectRepair_keeps pipe bank unit s
  | .mskActionRepair pipe bank unit => execMskActionRepair_keeps pipe bank unit s
  | .epochSwapInstant => execEpochSwapInstant_keeps s
  | .swapComplete => execSwapComplete_keeps s
  | .epochDrainDeadline => execEpochDrainDeadline_keeps s
  | .l2AgerVisit die slot => execL2AgerVisit_keeps die slot s
  | .relocationClear shard => execRelocationClear_keeps shard s
  | .rebuildBucket shard => execRebuildBucket_keeps shard s
  | .rebuildComplete => execRebuildComplete_keeps s
  | .ageingPassStart shard desc => execAgeingPassStart_keeps shard desc s
  | .ageingBlockVisit shard => execAgeingBlockVisit_keeps shard s
  | .ageRemovalCommit shard => execAgeRemovalCommit_keeps shard s
  | .fwSetupVerdict shard place verdict thread flow => execFwSetupVerdict_keeps shard place verdict thread flow s
  | .fwSetupTimeout shard place => execFwSetupTimeout_keeps shard place s
  | .natHoldRelease shard => execNatHoldRelease_keeps shard s
  | .bpmDemandRequest ctrl pool requesters => execBpmDemandRequest_keeps ctrl pool requesters s
  | .bpmBatchRefill shard pool => execBpmBatchRefill_keeps shard pool s
  | .bpmRecallComplete pool => execBpmRecallComplete_keeps pool s
  | .refcountOp ctrl handle requester add => execRefcountOp_keeps ctrl handle requester add s
  | .txPrepare tx => execTxPrepare_keeps tx s
  | .txCommitPoint tx => execTxCommitPoint_keeps tx s
  | .txCommitReceipt tx shard => execTxCommitReceipt_keeps tx shard s
  | .txAckAll tx => execTxAckAll_keeps tx s
  | .txPrepareTimeout tx => execTxPrepareTimeout_keeps tx s
  | .generationFence core => execGenerationFence_keeps core s
  | .hbmUncorrectable g e => execHbmUncorrectable_keeps g e s
  | .freezeEnd g => execFreezeEnd_keeps g s
  | .retireCopyComplete stack => execRetireCopyComplete_keeps stack s
  | .hbmRefresh g => execHbmRefresh_keeps g s
  | .hbmTempRead stack temp => execHbmTempRead_keeps stack temp s
  | .neighbourRefresh g bank row n => execNeighbourRefresh_keeps g bank row n s
  | .refreshWindowBoundary stack => execRefreshWindowBoundary_keeps stack s
  | .patrolScrubRead g corrected uncorrectable => execPatrolScrubRead_keeps g corrected uncorrectable s
  | .retrainWindowExit stack history => execRetrainWindowExit_keeps stack history s
  | .furlSelfRefreshEntry stack request => execFurlSelfRefreshEntry_keeps stack request s
  | .furlEntryRetry stack request => execFurlEntryRetry_keeps stack request s
  | .selfRefreshExitHeld stack => execSelfRefreshExitHeld_keeps stack s
  | .waitEventWake thread wait sources => execWaitEventWake_keeps thread wait sources s
  | .channelEndWrite thread channel words last => execChannelEndWrite_keeps thread channel words last s
  | .channelReadEnd thread channel => execChannelReadEnd_keeps thread channel s
  | .taskPost task level core budget => execTaskPost_keeps task level core budget s
  | .taskSwitch thread how => execTaskSwitch_keeps thread how s
  | .schedulerTick => execSchedulerTick_keeps s
  | .runBudgetExpiry thread addr => execRunBudgetExpiry_keeps thread addr s
  | .threadFault thread kind addr => execThreadFault_keeps thread kind addr s
  | .becalmed => execBecalmed_keeps s
  | .becalmedAction => execBecalmedAction_keeps s
  | .housekeeping => execHousekeeping_keeps s
  | .selftestPassEnd core failed age service => execSelftestPassEnd_keeps core failed age service s
  | .kickTimeout core => execKickTimeout_keeps core s
  | .coreFailure core cause => execCoreFailure_keeps core cause s
  | .takeoverComplete => execTakeoverComplete_keeps s
  | .serviceCheckpoint service content => execServiceCheckpoint_keeps service content s
  | .mbxSqDoorbell mbx tail => execMbxSqDoorbell_keeps mbx tail s
  | .mbxCqDoorbell mbx arm head => execMbxCqDoorbell_keeps mbx arm head s
  | .ringDoorbell ring arm index => execRingDoorbell_keeps ring arm index s
  | .mbxEnable mbx entry => execMbxEnable_keeps mbx entry s
  | .mbxDisable mbx => execMbxDisable_keeps mbx s
  | .commandFetch words => execCommandFetch_keeps words s
  | .completionPost mbx => execCompletionPost_keeps mbx s
  | .flr => execFlr_keeps s
  | .perst speed width => execPerst_keeps speed width s
  | .d3hotEntry => execD3hotEntry_keeps s
  | .dmaReadError kind target unit cid addr => execDmaReadError_keeps kind target unit cid addr s
  | .notificationWrite => execNotificationWrite_keeps s
  | .ringCoalesceTimer ring => execRingCoalesceTimer_keeps ring s
  | .smbusBlockWrite words pecGood => execSmbusBlockWrite_keeps words pecGood s
  | .smbusStatusRead => execSmbusStatusRead_keeps s
  | .smbusCompletionRead => execSmbusCompletionRead_keeps s
  | .smbusResultRead => execSmbusResultRead_keeps s
  | .smbusIrqClear bit => execSmbusIrqClear_keeps bit s
  | .dmaStopWrite stop => execDmaStopWrite_keeps stop s
  | .warmResetWrite key warm => execWarmResetWrite_keeps key warm s
  | .tbsTimeLatch => execTbsTimeLatch_keeps s
  | .cntWindowRead high => execCntWindowRead_keeps high s
  | .cntLiveSample high => execCntLiveSample_keeps high s
  | .cntSnapReqWrite go bank groups => execCntSnapReqWrite_keeps go bank groups s
  | .logRestartWrite => execLogRestartWrite_keeps s
  | .pcHoldWrite stack value => execPcHoldWrite_keeps stack value s
  | .registerReadClear bar addr jtag => execRegisterReadClear_keeps bar addr jtag s
  | .registerWrite bar addr data full jtag => execRegisterWrite_keeps bar addr data full jtag s
  | .faultReport code inst arg0 arg1 addr master masterIndex access =>
    execFaultReport_keeps code inst arg0 arg1 addr master masterIndex access s
  | .captureWindowClose => execCaptureWindowClose_keeps s
  | .conditionEnd code inst => execConditionEnd_keeps code inst s
  | .reefExit => execReefExit_keeps s
  | .barePolesExit => execBarePolesExit_keeps s
  | .collectorParity => execCollectorParity_keeps s
  | .heartbeatCheck beat => execHeartbeatCheck_keeps beat s
  | .shardRestart shard => execShardRestart_keeps shard s
  | .shardRestartComplete shard => execShardRestartComplete_keeps shard s
  | .qmRestartComplete pipe => execQmRestartComplete_keeps pipe s
  | .pwrfailAssert => execPwrfailAssert_keeps s
  | .lastGaspCommit => execLastGaspCommit_keeps s
  | .pwrfailRelease => execPwrfailRelease_keeps s
  | .serviceSecond => execServiceSecond_keeps s
  | .snapshotLatch => execSnapshotLatch_keeps s
  | .snapshotDrain bank => execSnapshotDrain_keeps bank s
  | .counterClearApply => execCounterClearApply_keeps s
  | .bwWindowEnd port => execBwWindowEnd_keeps port s
  | .exportEncode => execExportEncode_keeps s
  | .exportWindowClose set => execExportWindowClose_keeps set s
  | .exportMessageTimer collector => execExportMessageTimer_keeps collector s
  | .templateResend => execTemplateResend_keeps s
  | .lifeSample m good => execLifeSample_keeps m good s
  | .lifePrediction => execLifePrediction_keeps s
  | .wearAccWrite verified => execWearAccWrite_keeps verified s
  | .kendrelSlotFrame link slot frame => execKendrelSlotFrame_keeps link slot frame s
  | .remoteReissueTimeout pkt => execRemoteReissueTimeout_keeps pkt s
  | .kendrelLinkUp link macro_ peer role delay => execKendrelLinkUp_keeps link macro_ peer role delay s
  | .kendrelLinkDown link => execKendrelLinkDown_keeps link s
  | .seedWaitExpiry => execSeedWaitExpiry_keeps s
  | .stackFormResponse member accept => execStackFormResponse_keeps member accept s
  | .stackFormTimeout => execStackFormTimeout_keeps s
  | .timeMarkerExchange link theta => execTimeMarkerExchange_keeps link theta s
  | .deputyTakeover => execDeputyTakeover_keeps s
  | .masterResign => execMasterResign_keeps s
  | .powerOnReset straps persistent => execPowerOnReset_keeps straps persistent s
  | .pinReset straps => execPinReset_keeps straps s
  | .thermalTrip => execThermalTrip_keeps s
  | .bootStageComplete setup => execBootStageComplete_keeps setup s
  | .bootWatchdog => execBootWatchdog_keeps s
  | .nonceExpiry => execNonceExpiry_keeps s
  | .avsCorrection rail direction answered => execAvsCorrection_keeps rail direction answered s
  | .dieTempWarning unit temp => execDieTempWarning_keeps unit temp s
  | .receiveFaultCleared port => execReceiveFaultCleared_keeps port s
  | .ppsOutFall => execPpsOutFall_keeps s
  | .d3hotExit => execD3hotExit_keeps s
  | .flrComplete => execFlrComplete_keeps s
  | .powerLoss => execPowerLoss_keeps s
  | .exportWalkVisit set => execExportWalkVisit_keeps set s
  | .coreLogicTestEnd core passed => execCoreLogicTestEnd_keeps core passed s

/-- A step takes the front of the queue and then runs an instruction from there, a command it held back, or nothing. -/
theorem step_keeps_dropFront {s t : State} (h : step s = .next t) : Keeps s.dropFront t := by
  unfold step at h
  split at h
  · rename_i hq
    have hdrop : Keeps s.dropFront s :=
      ⟨by simp [State.dropFront, hq], Nat.le_refl _, List.suffix_refl _, State.Inv.of_eq rfl rfl⟩
    split at h
    · exact hdrop.trans ((Keeps.mk_iff.2 (.refl s)).trans (exec_keeps _ _ _ h))
    · cases h
      exact hdrop
  · exact exec_keeps _ _ _ h

/-- Settles O2: the queue without its front leaves registers and counters as they were, and what runs then keeps a sound
state sound. -/
theorem stepKeepsInv : Obligations.StepKeepsInv := fun s _ hs h =>
  (step_keeps_dropFront h).inv (State.Inv.of_eq (s := s) rfl rfl hs)

/-- Settles O3: after the front is taken the queue stays, outputs are only added on top, and free values only drawn (log
entries 3 and 4). -/
theorem stepBookkeeping : Obligations.StepBookkeeping := fun _ _ h =>
  ⟨(step_keeps_dropFront h).queue, (step_keeps_dropFront h).out, (step_keeps_dropFront h).drawn⟩

end Sys2Proof.Sound
end
